-- ==== Sys2Proof/Word.lean ====
section
/-! DEFINITION. The word types of the JLM-4C8H and their plainest arithmetic (spec/00 R1, R4). -/

namespace Sys2Proof

/-- A 32-bit register value or instruction word. -/
abbrev Word := BitVec 32
/-- A 64-bit value: an even/odd register pair, bits [31:0] in the even register (00 R4). -/
abbrev DWord := BitVec 64
abbrev Byte := BitVec 8
/-- A code address, bits [56:0] of a pointer (03 R42, 04 R77). -/
abbrev Pc := BitVec 57
/-- One bit per lane, lane l in bit l (04 R75). -/
abbrev LaneSet := BitVec 128
/-- One bit per slice of a group; slice s holds lanes 4s to 4s + 3 (04 R71). -/
abbrev SliceSet := BitVec 32

/-- The 64-bit value of a pair (00 R4). -/
def pairOf (lo hi : Word) : DWord := hi ++ lo
def loHalf (x : DWord) : Word := x.setWidth 32
def hiHalf (x : DWord) : Word := (x >>> 32).setWidth 32

end Sys2Proof
end

