-- ==== Sys2Proof/Config.lean ====
section
/-! DEFINITION. What one implementation fixes, and the values the spec leaves open. An `opaque` constant has no body:
nothing in Lean can evaluate it, so a statement about it holds whatever its value is. -/

namespace Sys2Proof

/-- For how many cycles the default order leaves a long-latency word under way (log entry 3); any other order may end it sooner or later. -/
def Config.usualWait : Nat := 16

/-- The n-th value the spec leaves unspecified: a v register left out of a clause's live set after a save
and restore (03 R40, 16 R340). Log entry 11. -/
opaque Config.freeWord : Nat → Word

/-- The fixed hash that gives a line its home slice among the 48 slices of its die (07 R140). Log entry 20. -/
opaque Config.lineHash : Nat → Nat

/-- What a canonical BFP mantissa beyond its width k converts to where m · 2^(E - 127 - (k - 1)) lies beyond binary32 (11 R243). Log entry 25. -/
opaque Config.bfpBeyond : Int → Nat → Nat → Word

/-- The 1,793-byte public identity key of the device (17 R350). Log entry 15. -/
opaque Config.identityKey : Nat → Byte

/-- The padded Falcon-1024 signature, byte i, of a message under the device identity key (17 R350). Log entry 15. -/
opaque Config.signature : List Byte → Nat → Byte

end Sys2Proof
end

