-- ==== Sys2Proof/Syntax.lean ====
section
/-! DEFINITION. The instructions and steps of the JLM-4C8H: one constructor per row of the opcode table (spec/03 R58, spec/95).
A word's constructor holds its fields as they stand in the word, without the chain bit C (03 R55), which belongs to the slot.
A step that is no word (a write-back, a Pilot step, a host event) holds what names its occurrence; these come first. -/

namespace Sys2Proof

/-- The command queues of one core: copy (11 R237), tile (12 R254), chart (13 R274), bank (14 R300), link (15 R314). -/
inductive Engine where
  | copy
  | tile
  | chart
  | bank
  | link
  deriving DecidableEq, Repr

/-- The sixteen read-modify-write operations of Table ATM-1 (09 R183). -/
inductive AtomOp where
  | add32
  | add64
  | minS
  | maxS
  | minU
  | maxU
  | and
  | or
  | xor
  | xchg32
  | xchg64
  | cas32
  | cas64
  | addF32
  | inc
  | dec
  deriving DecidableEq, Repr

/-- What a peer sends this device over Byuth: a read, a write or an atomic on device memory (09 R185, 15 R313, R323), or a collective's result. -/
inductive PeerReq where
  | read (pa n : Nat)
  | write (pa : Nat) (data : List (BitVec 8))
  | atomic (pa : Nat) (op : AtomOp) (b1 b2 : BitVec 64)
  /-- The result of a collective whose HOME is the peer, for a command of this device (15 R318). -/
  | result (core cmd : Nat) (status : BitVec 32) (data : List (BitVec 8))
  deriving DecidableEq, Repr

/-- One contribution to a collective as it reaches HOME (15 R316, R318): the instance's name and terms, the contributor
and its data, one entry of 32 bits per element (for `coll.redq`, the quantised blocks already converted by R243). -/
structure Contribution where
  id    : BitVec 64
  home  : Nat
  minor : Nat
  count : Nat
  terms : Nat
  op    : Nat
  fmt   : Nat
  k     : Nat
  root  : Nat
  index : Nat
  peer  : Option Nat
  core  : Nat
  cmd   : Nat
  data  : List (BitVec 32)
  deriving DecidableEq, Repr

/-- The fields of a clause head (Table ENC-1, 03 R43). -/
structure ClauseHead where
  version : BitVec 4
  yield   : BitVec 2
  valid   : BitVec 3
  sbValid : Bool
  sb      : BitVec 4
  saValid : Bool
  sa      : BitVec 4
  zero    : Bool
  wait    : BitVec 12
  deriving DecidableEq, Repr

inductive Instr where
  /-- R46: A split reaches a clause; its head is decoded and checked whole before any slot issues, raising CLAUSE on failure. -/
  | clauseDecode (group : Nat) (slices : BitVec 32)
  /-- R48: A long-latency word writes its results in every lane, removes its pending marks and decrements its set-flag. -/
  | resultWriteback (group op : Nat)
  /-- R54: A long-latency word faults after issue: no destination is written, marks are removed, the flag count falls and the trap is presented. -/
  | asyncFault (group op : Nat)
  /-- R327: When every split of the trapping group has stopped, trap registers, m7 and the trap frame are written and the handler split starts at TRAPBASE. -/
  | trapEntry (group : Nat)
  /-- R332: The Pilot writes the kill record into the host queue region with a release at system scope. -/
  | killRecordWrite (launch : Nat)
  /-- R332: The management controller ends a launch, killing its groups. -/
  | mgmtLaunchKill (launch : Nat)
  /-- R215: After all its outstanding work completes, an ended group gives back its context and register blocks and poisons held sections. -/
  | groupEnd (group : Nat)
  /-- R217: When every block has ended and its kill record is performed, the Pilot releases, advances the completion counter and writes the completion value. -/
  | launchComplete (launch : Nat)
  /-- R207: A write to an enabled queue's tail line invalidates the Pilot's copy and wakes it to read the tail with an acquire. -/
  | queueTailWrite (queue : Nat)
  /-- R209: The Pilot copies the record at the head, checks it, and advances the head or stops the queue. -/
  | launchRecordCopy (queue : Nat)
  /-- R211: The Pilot places one block, cluster or cooperative grid from a chosen ready queue onto cores. -/
  | blockPlacement (queue : Nat)
  /-- R209: Writing 1 to QSTAT.STOP clears it and resumes service with a fresh copy of the head record. -/
  | qstatStopClear (queue : Nat)
  /-- R206: Writing 1 to QSTAT.CFAULT clears the completion-fault bit. -/
  | qstatCfaultClear (queue : Nat)
  /-- R344: A CXL.io access to BAR0: a write to a management register stores its value; a read (no value given) changes no register. -/
  | mgmtRegisterWrite (off : BitVec 24) (wide : Bool) (v : Option (BitVec 64))
  /-- R352: A write to RESUME stores the value and resumes the halted block whose debug record index matches. -/
  | resumeWrite (ctx : BitVec 6) (v : BitVec 32)
  /-- R348: A write to RESTCTL sets the latency tolerance and acts as a wake event. -/
  | restctlWrite (v : BitVec 32)
  /-- R355: Writing 1 to TRGO while idle starts a reckoning trial and snapshots the progress counters. -/
  | trgoWrite (v : BitVec 32)
  /-- R355: After TRLEN the trial ends, snapshots the progress counters and clears TRGO. -/
  | trialEnd
  /-- R347: After the entry delay of an idle device, it enters the deepest rest state allowed by LTOL and the waypoint rule. -/
  | restStateEntry
  /-- R348: After a wake event and the state's exit latency, the device is under way and serves the waiting request. -/
  | restExit
  /-- R343: Function-level reset kills every resident launch without kill record and clears queue, counter and context registers. -/
  | functionLevelReset
  /-- R349: At device reset the Lodestar ROM runs first and measures each stage before it runs. -/
  | deviceReset (images : List (List (BitVec 8)))
  /-- R350: A DOE request with a nonce is answered with the signed measurement report. -/
  | doeMeasurementRequest (nonce : List (BitVec 8))
  /-- R350: A DOE measurement request with an empty body returns the public identity key. -/
  | doeKeyRequest
  /-- R343: A host CXL.mem access reaches device memory at its home slice. -/
  | cxlMemAccess (pa : BitVec 39) (write : Option (List (BitVec 8)))
  /-- R313: A damaged or out-of-sequence Byuth flit is retried at link level. -/
  | linkFlitRetry (port : BitVec 4)
  /-- R313: A port exhausting 16 retries of one flit fails the access or command with LINK. -/
  | linkRetryExhausted (core : Nat)
  /-- R313: A peer resetting with accesses or contributions outstanding ends them with LINK. -/
  | peerReset (peer : BitVec 6)
  /-- R185: An access or atomic arriving from a peer over Byuth is performed at this device. -/
  | peerRequest (peer : BitVec 6) (req : PeerReq)
  /-- R318: A contribution arrives at the HOME link engine and joins or opens its instance. -/
  | collectiveContribution (con : Contribution)
  /-- R181: A waiting request enters its home pod's request queue once it has room. -/
  | serviceRequestEnqueue (pod : Nat)
  /-- R181: The service group takes up to 64 requests from the queue head and serves them, one per lane. -/
  | serviceRound (pod : Nat)
  /-- R181: A service reply arrives at the requester's return slot and writes its result. -/
  | serviceReply (pod : Nat)
  /-- R193: When every requesting lane of a wayin has been granted, it acquires at device scope and completes. -/
  | wayinComplete (group op : Nat)
  /-- R202: A wayin not complete within WAYTO cycles is withdrawn whole and faults with WAYTO. -/
  | wayinTimeout (group op : Nat)
  /-- R200: A deadlock probe follows a wait-for path through the home pods of its keys. -/
  | waypointProbe (group op : Nat)
  /-- R203: An announcement of an exited or killed lane poisons every key it holds and fails their waits. -/
  | waypointPoison (group lane : Nat)
  /-- R195: The core makes every tentative skip of a wayskip firm once all lanes are accepted. -/
  | wayskipFirm (group op : Nat)
  /-- R195: The core removes every tentative skip of a wayskip when any lane is refused. -/
  | wayskipRemove (group op : Nat)
  /-- R82: A join instance completes by full arrival or stalemate, releasing its lanes and writing the mask and JOINST. -/
  | joinComplete (group : Nat) (j : BitVec 57)
  /-- R81: A join instance's timer reaches 16·n cycles without full arrival and the instance completes by timeout. -/
  | joinTimeout (group : Nat) (j : BitVec 57)
  /-- R87: A sleeping split wakes after 16·n cycles and goes on at the next word. -/
  | sleepEnd (group : Nat) (slice : Nat)
  /-- R227: The oldest regacq waiter is granted an extended block when 48·W lane-registers are free. -/
  | regacqGrant (core : Nat)
  /-- R228: After 4,096 cycles without issue and with a regacq waiting, the spill engine spills victims' extended blocks to group-local space. -/
  | spill (core : Nat)
  /-- R264: A claim at the head of its claim line is granted when enough units are free, binding names. -/
  | tclaimGrant (core : Nat) (acc : Bool)
  /-- R225: The Pilot withdraws an unplaced block and fills the fetchw mailbox, writing the flag last with a release. -/
  | fetchwFill (block : Nat)
  /-- R226: The Pilot answers a device launch with its status, appending or refusing the record. -/
  | launchAnswer (group op : Nat)
  /-- R234: An engine command completes and writes its status word to every marked token copy. -/
  | engineCommandComplete (core : Nat) (engine : Engine)
  /-- R235: An engine access that would wait more than 3 µs in all-bank mode or calibration ends the command with BUSY. -/
  | engineBusyTimeout (core : Nat) (engine : Engine)
  /-- R272: The reset queued by chown runs, clearing every cell, the stack and the flags. -/
  | chartReset (core : Nat)
  /-- R168: A sector walker walks the five levels for a TLB miss and delivers the translation or fault to all joined requests. -/
  | tlbWalk (core ctx : Nat) (space : BitVec 4) (va : BitVec 57)
  /-- R90: The fetch unit fetches clauses ahead along a predicted path and may prefetch lines. -/
  | runaheadFetch (group : Nat) (pc : BitVec 57)
  /-- R11: The core governor raises or lowers the clock by 20 MHz between issue cycles. -/
  | clockStep (core : Nat) (up : Bool)
  /-- R268: A tile sub-array idle for TGATE cycles is power gated. -/
  | subarrayGate (core : Nat) (sub : BitVec 2)
  /-- R334: The Pilot asks the Anchor engine to pre-empt a unit, whose groups then stop. -/
  | preemptRequest (block : Nat)
  /-- R335: When the unit's groups have stopped and all have a pre-emption handler, each enters it. -/
  | preemptHandlerEntry (unit : Nat)
  /-- R337: At PREBOUND without all preok, or without a handler path, the Anchor engine chooses drain, flush or save. -/
  | preboundExpiry (unit : Nat)
  /-- R341: The Pilot places a swapped-out unit again on cores with room and restores its state. -/
  | unitRestore (unit : Nat)
  /-- R352: After a stop halts a block, the device writes the debug record and advances the write index, or drops it. -/
  | debugRecordWrite (block : Nat)
  /-- R59: A word of a reserved major, minor or SZ in a valid slot (major 0x00, an unmatched 0x3F word) issues and raises ILLOP. -/
  | wordNotAnInstruction (w : BitVec 32)
  /-- R149: A store issued earlier is performed and acknowledged at its home slice, ending pfence, stl, fence-release and group-end waits that depend on it. -/
  | writeAcknowledgedAtHome (core op : Nat)
  /-- R313: A Byuth receiver's on/off pause of a virtual channel holds or releases the sender's flits. -/
  | virtualChannelPause (port vc : BitVec 4) (on : Bool)
  /-- R308: A corrected error in an HBM4 bank increments that bank's saturating CERR count. -/
  | correctedError (pch bank : Nat)
  /-- R349: Management firmware measures a stage it loads by extending one of M6–M15. -/
  | managementFirmwareStageLoad (reg : BitVec 4) (image : List (BitVec 8))
  /-- R140: The host's CXL.cache coherence request on a host-memory line that the device holds changes or withdraws the device's copy. -/
  | cxlCacheCoherenceRequest (line : Nat) (write : Option (List (BitVec 8)))
  /-- R76: Branches the lanes its mask selects, parking the rest of a divided slice. -/
  | br (n : BitVec 1) (k : BitVec 3) (d : BitVec 21)
  /-- R78: Writes the link address to s30:s31 and transfers control. -/
  | call (d : BitVec 21)
  /-- R79: Transfers control to the address in s30:s31. -/
  | ret
  /-- R79: Transfers control to the address in an s pair. -/
  | jmpi (p : BitVec 7)
  /-- R79: Reads a target from an s pair, writes the link and transfers control. -/
  | calli (p : BitVec 7)
  /-- R80: Suspends the slice's lanes at the join until the instance completes. -/
  | join (k : BitVec 3) (n : BitVec 14)
  /-- R85: Ends the active lanes of the split. -/
  | exit
  /-- R86: Lets the scheduler pass over the split for n + 1 issue cycles. -/
  | yield (n : BitVec 5)
  /-- R87: Makes the split wait for 16·n cycles. -/
  | sleep (n : BitVec 14)
  /-- R352: Adds 1 to progress counter n of the launch's context when EXEC is not empty. -/
  | progress (n : BitVec 4)
  /-- R352: Ignored, raises DBG or halts the block, as DBGCTL.BRK selects. -/
  | brkpt (n : BitVec 8)
  /-- R88: md := ma and mb. -/
  | mand (d : BitVec 3) (a : BitVec 3) (b : BitVec 3)
  /-- R88: md := ma or mb. -/
  | mor (d : BitVec 3) (a : BitVec 3) (b : BitVec 3)
  /-- R88: md := ma xor mb. -/
  | mxor (d : BitVec 3) (a : BitVec 3) (b : BitVec 3)
  /-- R88: md := ma and not mb. -/
  | mandn (d : BitVec 3) (a : BitVec 3) (b : BitVec 3)
  /-- R88: md := not ma. -/
  | mnot (d : BitVec 3) (a : BitVec 3)
  /-- R88: md := ma. -/
  | mmov (d : BitVec 3) (a : BitVec 3)
  /-- R88: md := all lanes. -/
  | mall (d : BitVec 3)
  /-- R88: md := 0. -/
  | mnone (d : BitVec 3)
  /-- R88: Writes the number of set bits of a mask to an s register. -/
  | mpopc (d : BitVec 7) (a : BitVec 3)
  /-- R88: Writes the lowest set bit index of a mask, or 128, to an s register. -/
  | mfirst (d : BitVec 7) (a : BitVec 3)
  /-- R88: Writes quarter q of a mask to an s register. -/
  | mtos (d : BitVec 7) (a : BitVec 3) (q : BitVec 2)
  /-- R88: Writes an s register into quarter q of a mask. -/
  | stom (d : BitVec 3) (a : BitVec 7) (q : BitVec 2)
  /-- R88: Sets mask bits of lanes below an s value. -/
  | mlanes (d : BitVec 3) (a : BitVec 7)
  /-- R94: 32-bit wrapping add. -/
  | addI32 (d : BitVec 7) (a : BitVec 7) (b : BitVec 7)
  /-- R94: 32-bit wrapping subtract. -/
  | subI32 (d : BitVec 7) (a : BitVec 7) (b : BitVec 7)
  /-- R94: Low 32 bits of the product. -/
  | mulloI32 (d : BitVec 7) (a : BitVec 7) (b : BitVec 7)
  /-- R94: High 32 bits of the signed product. -/
  | mulhiI32 (d : BitVec 7) (a : BitVec 7) (b : BitVec 7)
  /-- R94: High 32 bits of the unsigned product. -/
  | mulhiN32 (d : BitVec 7) (a : BitVec 7) (b : BitVec 7)
  /-- R94: Bitwise and. -/
  | and (d : BitVec 7) (a : BitVec 7) (b : BitVec 7)
  /-- R94: Bitwise or. -/
  | or (d : BitVec 7) (a : BitVec 7) (b : BitVec 7)
  /-- R94: Bitwise exclusive or. -/
  | xor (d : BitVec 7) (a : BitVec 7) (b : BitVec 7)
  /-- R94: a and not b. -/
  | andn (d : BitVec 7) (a : BitVec 7) (b : BitVec 7)
  /-- R94: Shift left by b[4:0]. -/
  | shl (d : BitVec 7) (a : BitVec 7) (b : BitVec 7)
  /-- R94: Logical shift right by b[4:0]. -/
  | shrN32 (d : BitVec 7) (a : BitVec 7) (b : BitVec 7)
  /-- R94: Arithmetic shift right by b[4:0]. -/
  | shrI32 (d : BitVec 7) (a : BitVec 7) (b : BitVec 7)
  /-- R94: Rotate left by b[4:0]. -/
  | rotl (d : BitVec 7) (a : BitVec 7) (b : BitVec 7)
  /-- R94: Signed minimum. -/
  | minI32 (d : BitVec 7) (a : BitVec 7) (b : BitVec 7)
  /-- R94: Signed maximum. -/
  | maxI32 (d : BitVec 7) (a : BitVec 7) (b : BitVec 7)
  /-- R94: Unsigned minimum. -/
  | minN32 (d : BitVec 7) (a : BitVec 7) (b : BitVec 7)
  /-- R94: Unsigned maximum. -/
  | maxN32 (d : BitVec 7) (a : BitVec 7) (b : BitVec 7)
  /-- R94: Signed absolute value, wrapping. -/
  | absI32 (d : BitVec 7) (a : BitVec 7)
  /-- R94: Population count. -/
  | popc (d : BitVec 7) (a : BitVec 7)
  /-- R94: Count of leading zeros. -/
  | clz (d : BitVec 7) (a : BitVec 7)
  /-- R94: Bit reversal. -/
  | brev (d : BitVec 7) (a : BitVec 7)
  /-- R95: Unsigned bit-field extract. -/
  | bfeN32 (d : BitVec 7) (a : BitVec 7) (b : BitVec 7)
  /-- R95: Signed bit-field extract. -/
  | bfeI32 (d : BitVec 7) (a : BitVec 7) (b : BitVec 7)
  /-- R95: Bit-field insert into D. -/
  | bfi (d : BitVec 7) (a : BitVec 7) (b : BitVec 7)
  /-- R96: Selects a or b per lane by mask mk. -/
  | sel (k : BitVec 3) (d : BitVec 7) (a : BitVec 7) (b : BitVec 7)
  /-- R97: Add a sign-extended 11-bit immediate. -/
  | addi (d : BitVec 7) (a : BitVec 7) (i : BitVec 11)
  /-- R97: And with a sign-extended immediate. -/
  | andi (d : BitVec 7) (a : BitVec 7) (i : BitVec 11)
  /-- R97: Or with a sign-extended immediate. -/
  | ori (d : BitVec 7) (a : BitVec 7) (i : BitVec 11)
  /-- R97: Exclusive or with a sign-extended immediate. -/
  | xori (d : BitVec 7) (a : BitVec 7) (i : BitVec 11)
  /-- R98: D := zero-extended 16-bit immediate. -/
  | movzLo (d : BitVec 7) (i : BitVec 16)
  /-- R98: D := immediate in the upper half, zeros below. -/
  | movzHi (d : BitVec 7) (i : BitVec 16)
  /-- R98: Replaces bits [15:0] of D. -/
  | movkLo (d : BitVec 7) (i : BitVec 16)
  /-- R98: Replaces bits [31:16] of D. -/
  | movkHi (d : BitVec 7) (i : BitVec 16)
  /-- R99: Mask of lanes where a == b. -/
  | icmpEq (d : BitVec 3) (a : BitVec 7) (b : BitVec 7)
  /-- R99: Mask of lanes where a != b. -/
  | icmpNe (d : BitVec 3) (a : BitVec 7) (b : BitVec 7)
  /-- R99: Signed less-than compare to a mask. -/
  | icmpLtI32 (d : BitVec 3) (a : BitVec 7) (b : BitVec 7)
  /-- R99: Signed less-or-equal compare to a mask. -/
  | icmpLeI32 (d : BitVec 3) (a : BitVec 7) (b : BitVec 7)
  /-- R99: Signed greater-than compare to a mask. -/
  | icmpGtI32 (d : BitVec 3) (a : BitVec 7) (b : BitVec 7)
  /-- R99: Signed greater-or-equal compare to a mask. -/
  | icmpGeI32 (d : BitVec 3) (a : BitVec 7) (b : BitVec 7)
  /-- R99: Unsigned less-than compare to a mask. -/
  | icmpLtN32 (d : BitVec 3) (a : BitVec 7) (b : BitVec 7)
  /-- R99: Unsigned less-or-equal compare to a mask. -/
  | icmpLeN32 (d : BitVec 3) (a : BitVec 7) (b : BitVec 7)
  /-- R99: Unsigned greater-than compare to a mask. -/
  | icmpGtN32 (d : BitVec 3) (a : BitVec 7) (b : BitVec 7)
  /-- R99: Unsigned greater-or-equal compare to a mask. -/
  | icmpGeN32 (d : BitVec 3) (a : BitVec 7) (b : BitVec 7)
  /-- R99: 64-bit equality compare of pairs to a mask. -/
  | icmpEqI64 (d : BitVec 3) (a : BitVec 7) (b : BitVec 7)
  /-- R99: 64-bit signed less-than compare to a mask. -/
  | icmpLtI64 (d : BitVec 3) (a : BitVec 7) (b : BitVec 7)
  /-- R99: 64-bit unsigned less-than compare to a mask. -/
  | icmpLtN64 (d : BitVec 3) (a : BitVec 7) (b : BitVec 7)
  /-- R100: 64-bit add of pairs. -/
  | addI64 (d : BitVec 7) (a : BitVec 7) (b : BitVec 7)
  /-- R100: 64-bit subtract of pairs. -/
  | subI64 (d : BitVec 7) (a : BitVec 7) (b : BitVec 7)
  /-- R100: Low 64 bits of the 64-bit product. -/
  | mulI64 (d : BitVec 7) (a : BitVec 7) (b : BitVec 7)
  /-- R100: 64-bit shift left. -/
  | shlI64 (d : BitVec 7) (a : BitVec 7) (b : BitVec 7)
  /-- R100: 64-bit logical shift right. -/
  | shrN64 (d : BitVec 7) (a : BitVec 7) (b : BitVec 7)
  /-- R100: 64-bit arithmetic shift right. -/
  | shrI64 (d : BitVec 7) (a : BitVec 7) (b : BitVec 7)
  /-- R100: Sign-extends a 32-bit value to a pair. -/
  | sextI64 (d : BitVec 7) (a : BitVec 7)
  /-- R100: Zero-extends a 32-bit value to a pair. -/
  | zextI64 (d : BitVec 7) (a : BitVec 7)
  /-- R101: Forms a pointer base + index, keeping the tag. -/
  | leaX1 (d : BitVec 7) (a : BitVec 7) (b : BitVec 7)
  /-- R101: Forms a pointer base + 2·index. -/
  | leaX2 (d : BitVec 7) (a : BitVec 7) (b : BitVec 7)
  /-- R101: Forms a pointer base + 4·index. -/
  | leaX4 (d : BitVec 7) (a : BitVec 7) (b : BitVec 7)
  /-- R101: Forms a pointer base + 8·index. -/
  | leaX8 (d : BitVec 7) (a : BitVec 7) (b : BitVec 7)
  /-- R101: Forms a pointer base + 16·index. -/
  | leaX16 (d : BitVec 7) (a : BitVec 7) (b : BitVec 7)
  /-- R102: Packed 16-bit wrapping add. -/
  | addI16x2 (d : BitVec 7) (a : BitVec 7) (b : BitVec 7)
  /-- R102: Packed 16-bit wrapping subtract. -/
  | subI16x2 (d : BitVec 7) (a : BitVec 7) (b : BitVec 7)
  /-- R102: Packed 16-bit saturating add. -/
  | addsI16x2 (d : BitVec 7) (a : BitVec 7) (b : BitVec 7)
  /-- R102: Packed 16-bit saturating subtract. -/
  | subsI16x2 (d : BitVec 7) (a : BitVec 7) (b : BitVec 7)
  /-- R102: Packed signed minimum. -/
  | minI16x2 (d : BitVec 7) (a : BitVec 7) (b : BitVec 7)
  /-- R102: Packed signed maximum. -/
  | maxI16x2 (d : BitVec 7) (a : BitVec 7) (b : BitVec 7)
  /-- R102: Per half 0xFFFF where a > b signed. -/
  | gtbitsI16x2 (d : BitVec 7) (a : BitVec 7) (b : BitVec 7)
  /-- R102: Packed arithmetic shift right, each half its own count. -/
  | shrI16x2 (d : BitVec 7) (a : BitVec 7) (b : BitVec 7)
  /-- R102: Packs the low halves of a and b (deprecated). -/
  | packI16x2 (d : BitVec 7) (a : BitVec 7) (b : BitVec 7)
  /-- R102: Sign-extends the low byte. -/
  | sext8 (d : BitVec 7) (a : BitVec 7)
  /-- R102: Sign-extends the low half. -/
  | sext16 (d : BitVec 7) (a : BitVec 7)
  /-- R102: Zero-extends the low byte. -/
  | zext8 (d : BitVec 7) (a : BitVec 7)
  /-- R102: Zero-extends the low half. -/
  | zext16 (d : BitVec 7) (a : BitVec 7)
  /-- R62: Removed Mewin word; raises REMOVED at issue with no register written. -/
  | msadB4 (min : BitVec 4) (d : BitVec 7) (a : BitVec 7) (b : BitVec 7)
  /-- R119: Binary32 add rounded by RMODE. -/
  | addF32 (d : BitVec 7) (a : BitVec 7) (b : BitVec 7)
  /-- R119: Binary32 subtract. -/
  | subF32 (d : BitVec 7) (a : BitVec 7) (b : BitVec 7)
  /-- R119: Binary32 multiply. -/
  | mulF32 (d : BitVec 7) (a : BitVec 7) (b : BitVec 7)
  /-- R119: Binary32 fused a·b + d. -/
  | fmaF32 (d : BitVec 7) (a : BitVec 7) (b : BitVec 7)
  /-- R119: Binary32 fused a·b − d. -/
  | fmsF32 (d : BitVec 7) (a : BitVec 7) (b : BitVec 7)
  /-- R117: Binary32 minimumNumber. -/
  | minF32 (d : BitVec 7) (a : BitVec 7) (b : BitVec 7)
  /-- R117: Binary32 maximumNumber. -/
  | maxF32 (d : BitVec 7) (a : BitVec 7) (b : BitVec 7)
  /-- R119: Clears the sign of a binary32 value. -/
  | absF32 (d : BitVec 7) (a : BitVec 7)
  /-- R119: Inverts the sign of a binary32 value. -/
  | negF32 (d : BitVec 7) (a : BitVec 7)
  /-- R119: a with the sign of b. -/
  | copysignF32 (d : BitVec 7) (a : BitVec 7) (b : BitVec 7)
  /-- R120: Greatest integral value not above a. -/
  | floorF32 (d : BitVec 7) (a : BitVec 7)
  /-- R120: Least integral value not below a. -/
  | ceilF32 (d : BitVec 7) (a : BitVec 7)
  /-- R120: Integral value toward zero. -/
  | truncF32 (d : BitVec 7) (a : BitVec 7)
  /-- R120: Integral value by RMODE. -/
  | rintF32 (d : BitVec 7) (a : BitVec 7)
  /-- R120: Fractional part a − Floor(a), below 1.0. -/
  | fractF32 (d : BitVec 7) (a : BitVec 7)
  /-- R121: Binary64 add of pairs. -/
  | addF64 (d : BitVec 7) (a : BitVec 7) (b : BitVec 7)
  /-- R121: Binary64 subtract. -/
  | subF64 (d : BitVec 7) (a : BitVec 7) (b : BitVec 7)
  /-- R121: Binary64 multiply. -/
  | mulF64 (d : BitVec 7) (a : BitVec 7) (b : BitVec 7)
  /-- R121: Binary64 fused a·b + d. -/
  | fmaF64 (d : BitVec 7) (a : BitVec 7) (b : BitVec 7)
  /-- R121: Binary64 fused a·b − d. -/
  | fmsF64 (d : BitVec 7) (a : BitVec 7) (b : BitVec 7)
  /-- R121: Binary64 minimumNumber. -/
  | minF64 (d : BitVec 7) (a : BitVec 7) (b : BitVec 7)
  /-- R121: Binary64 maximumNumber. -/
  | maxF64 (d : BitVec 7) (a : BitVec 7) (b : BitVec 7)
  /-- R121: Clears the sign of a binary64 value. -/
  | absF64 (d : BitVec 7) (a : BitVec 7)
  /-- R121: Inverts the sign of a binary64 value. -/
  | negF64 (d : BitVec 7) (a : BitVec 7)
  /-- R121: Binary64 floor. -/
  | floorF64 (d : BitVec 7) (a : BitVec 7)
  /-- R121: Binary64 ceil. -/
  | ceilF64 (d : BitVec 7) (a : BitVec 7)
  /-- R121: Binary64 trunc. -/
  | truncF64 (d : BitVec 7) (a : BitVec 7)
  /-- R121: Binary64 rint by RMODE. -/
  | rintF64 (d : BitVec 7) (a : BitVec 7)
  /-- R121: Long-latency binary64 divide rounded by RMODE. -/
  | divF64 (d : BitVec 7) (a : BitVec 7) (b : BitVec 7)
  /-- R121: Long-latency binary64 square root. -/
  | sqrtF64 (d : BitVec 7) (a : BitVec 7)
  /-- R122: Packed binary16 add. -/
  | addF16x2 (d : BitVec 7) (a : BitVec 7) (b : BitVec 7)
  /-- R122: Packed binary16 multiply. -/
  | mulF16x2 (d : BitVec 7) (a : BitVec 7) (b : BitVec 7)
  /-- R122: Packed binary16 fused multiply-add. -/
  | fmaF16x2 (d : BitVec 7) (a : BitVec 7) (b : BitVec 7)
  /-- R122: Packed binary16 minimumNumber. -/
  | minF16x2 (d : BitVec 7) (a : BitVec 7) (b : BitVec 7)
  /-- R122: Packed binary16 maximumNumber. -/
  | maxF16x2 (d : BitVec 7) (a : BitVec 7) (b : BitVec 7)
  /-- R122: Packed bfloat16 add. -/
  | addBf16x2 (d : BitVec 7) (a : BitVec 7) (b : BitVec 7)
  /-- R122: Packed bfloat16 multiply. -/
  | mulBf16x2 (d : BitVec 7) (a : BitVec 7) (b : BitVec 7)
  /-- R122: Packed bfloat16 fused multiply-add. -/
  | fmaBf16x2 (d : BitVec 7) (a : BitVec 7) (b : BitVec 7)
  /-- R123: Two binary16 products added exactly to D, rounded once. -/
  | dot2F32F16 (d : BitVec 7) (a : BitVec 7) (b : BitVec 7)
  /-- R123: Two bfloat16 products added exactly to D, rounded once. -/
  | dot2F32Bf16 (d : BitVec 7) (a : BitVec 7) (b : BitVec 7)
  /-- R125: Binary32 equal compare to a mask. -/
  | fcmpEqF32 (d : BitVec 3) (a : BitVec 7) (b : BitVec 7)
  /-- R125: Binary32 not-equal compare to a mask. -/
  | fcmpNeF32 (d : BitVec 3) (a : BitVec 7) (b : BitVec 7)
  /-- R125: Binary32 less-than compare to a mask. -/
  | fcmpLtF32 (d : BitVec 3) (a : BitVec 7) (b : BitVec 7)
  /-- R125: Binary32 less-or-equal compare to a mask. -/
  | fcmpLeF32 (d : BitVec 3) (a : BitVec 7) (b : BitVec 7)
  /-- R125: Binary32 greater-than compare to a mask. -/
  | fcmpGtF32 (d : BitVec 3) (a : BitVec 7) (b : BitVec 7)
  /-- R125: Binary32 greater-or-equal compare to a mask. -/
  | fcmpGeF32 (d : BitVec 3) (a : BitVec 7) (b : BitVec 7)
  /-- R125: Binary32 ordered test to a mask. -/
  | fcmpOrdF32 (d : BitVec 3) (a : BitVec 7) (b : BitVec 7)
  /-- R125: Binary32 unordered test to a mask. -/
  | fcmpUnordF32 (d : BitVec 3) (a : BitVec 7) (b : BitVec 7)
  /-- R125: Binary64 equal compare to a mask. -/
  | fcmpEqF64 (d : BitVec 3) (a : BitVec 7) (b : BitVec 7)
  /-- R125: Binary64 not-equal compare to a mask. -/
  | fcmpNeF64 (d : BitVec 3) (a : BitVec 7) (b : BitVec 7)
  /-- R125: Binary64 less-than compare to a mask. -/
  | fcmpLtF64 (d : BitVec 3) (a : BitVec 7) (b : BitVec 7)
  /-- R125: Binary64 less-or-equal compare to a mask. -/
  | fcmpLeF64 (d : BitVec 3) (a : BitVec 7) (b : BitVec 7)
  /-- R125: Binary64 greater-than compare to a mask. -/
  | fcmpGtF64 (d : BitVec 3) (a : BitVec 7) (b : BitVec 7)
  /-- R125: Binary64 greater-or-equal compare to a mask. -/
  | fcmpGeF64 (d : BitVec 3) (a : BitVec 7) (b : BitVec 7)
  /-- R125: Binary64 ordered test to a mask. -/
  | fcmpOrdF64 (d : BitVec 3) (a : BitVec 7) (b : BitVec 7)
  /-- R125: Binary64 unordered test to a mask. -/
  | fcmpUnordF64 (d : BitVec 3) (a : BitVec 7) (b : BitVec 7)
  /-- R126: Correctly rounded 2^a. -/
  | exp2F32 (d : BitVec 7) (a : BitVec 7)
  /-- R126: Correctly rounded log2 a. -/
  | log2F32 (d : BitVec 7) (a : BitVec 7)
  /-- R126: Correctly rounded 1/a. -/
  | rcpF32 (d : BitVec 7) (a : BitVec 7)
  /-- R126: Correctly rounded 1/√a. -/
  | rsqF32 (d : BitVec 7) (a : BitVec 7)
  /-- R126: Correctly rounded √a. -/
  | sqrtF32 (d : BitVec 7) (a : BitVec 7)
  /-- R126: Correctly rounded a/b. -/
  | divF32 (d : BitVec 7) (a : BitVec 7) (b : BitVec 7)
  /-- R126: Correctly rounded sin(2πa). -/
  | sin2piF32 (d : BitVec 7) (a : BitVec 7)
  /-- R126: Correctly rounded cos(2πa). -/
  | cos2piF32 (d : BitVec 7) (a : BitVec 7)
  /-- R127: Widens the low binary16 half exactly. -/
  | cvtF32F16lo (d : BitVec 7) (a : BitVec 7)
  /-- R127: Widens the high binary16 half exactly. -/
  | cvtF32F16hi (d : BitVec 7) (a : BitVec 7)
  /-- R127: Rounds two binary32 values into a packed binary16 pair. -/
  | cvtF16x2F32 (d : BitVec 7) (a : BitVec 7) (b : BitVec 7)
  /-- R127: Widens the low bfloat16 half exactly. -/
  | cvtF32Bf16lo (d : BitVec 7) (a : BitVec 7)
  /-- R127: Widens the high bfloat16 half exactly. -/
  | cvtF32Bf16hi (d : BitVec 7) (a : BitVec 7)
  /-- R127: Rounds two binary32 values into a packed bfloat16 pair. -/
  | cvtBf16x2F32 (d : BitVec 7) (a : BitVec 7) (b : BitVec 7)
  /-- R127: Widens binary32 to binary64 exactly. -/
  | cvtF64F32 (d : BitVec 7) (a : BitVec 7)
  /-- R127: Rounds binary64 to binary32. -/
  | cvtF32F64 (d : BitVec 7) (a : BitVec 7)
  /-- R127: Signed 32-bit integer to binary32. -/
  | cvtF32I32 (d : BitVec 7) (a : BitVec 7)
  /-- R127: Unsigned 32-bit integer to binary32. -/
  | cvtF32N32 (d : BitVec 7) (a : BitVec 7)
  /-- R128: Binary32 to signed 32-bit integer with saturation. -/
  | cvtI32F32 (d : BitVec 7) (a : BitVec 7)
  /-- R128: Binary32 to unsigned 32-bit integer with saturation. -/
  | cvtN32F32 (d : BitVec 7) (a : BitVec 7)
  /-- R127: Signed 64-bit integer to binary64. -/
  | cvtF64I64 (d : BitVec 7) (a : BitVec 7)
  /-- R128: Binary64 to signed 64-bit integer with saturation. -/
  | cvtI64F64 (d : BitVec 7) (a : BitVec 7)
  /-- R127: Signed 32-bit integer to binary64 exactly. -/
  | cvtF64I32 (d : BitVec 7) (a : BitVec 7)
  /-- R128: Binary64 to signed 32-bit integer with saturation. -/
  | cvtI32F64 (d : BitVec 7) (a : BitVec 7)
  /-- R130: Ray against axis-aligned box test giving the entry distance or NaN. -/
  | rbox (d : BitVec 7) (a : BitVec 7) (b : BitVec 7)
  /-- R131: Ray against transformed triangle test giving t, u, v or NaN. -/
  | rtri (d : BitVec 7) (a : BitVec 7) (b : BitVec 7)
  /-- R291: Forms exact linear edge coefficients for chexp. -/
  | edgec (d : BitVec 7) (a : BitVec 7) (b : BitVec 7)
  /-- R292: Writes the sign of a triangle's exact winding value. -/
  | cullbf (d : BitVec 7) (a : BitVec 7)
  /-- R293: Writes 1 when a sample point lies in the triangle's bounding box. -/
  | cullbx (d : BitVec 7) (a : BitVec 7)
  /-- R104: Each lane takes A from lane k of its segment. -/
  | lpick (d : BitVec 7) (a : BitVec 7) (b : BitVec 7)
  /-- R104: Exchange of A within segments by xor of the position. -/
  | lswap (d : BitVec 7) (a : BitVec 7) (b : BitVec 7)
  /-- R104: Rotation of A towards higher lanes within segments. -/
  | lrotu (d : BitVec 7) (a : BitVec 7) (b : BitVec 7)
  /-- R104: Rotation of A towards lower lanes within segments. -/
  | lrotd (d : BitVec 7) (a : BitVec 7) (b : BitVec 7)
  /-- R105: Writes A of lane j to every active lane. -/
  | bcast (d : BitVec 7) (a : BitVec 7) (b : BitVec 7)
  /-- R106: Horizontal quad derivative. -/
  | ddxF32 (d : BitVec 7) (a : BitVec 7)
  /-- R106: Vertical quad derivative. -/
  | ddyF32 (d : BitVec 7) (a : BitVec 7)
  /-- R107: Reads the register numbered by an s value into each active lane. -/
  | vrdi (d : BitVec 7) (a : BitVec 7)
  /-- R107: Writes B to the v register numbered by an s value in each active lane. -/
  | vwri (a : BitVec 7) (b : BitVec 7)
  /-- R105: Writes A of lane j to an s register. -/
  | rdlane (d : BitVec 7) (a : BitVec 7) (b : BitVec 7)
  /-- R105: Writes an s value into vd of lane j. -/
  | wrlane (d : BitVec 7) (a : BitVec 7) (b : BitVec 7)
  /-- R108: Wrapping sum of A over active lanes. -/
  | raddI32 (d : BitVec 7) (a : BitVec 7)
  /-- R108: Signed maximum of A over active lanes. -/
  | rmaxI32 (d : BitVec 7) (a : BitVec 7)
  /-- R108: Signed minimum of A over active lanes. -/
  | rminI32 (d : BitVec 7) (a : BitVec 7)
  /-- R109: Binary32 sum of A by a fixed tree over 128 lane positions. -/
  | raddF32 (d : BitVec 7) (a : BitVec 7)
  /-- R110: Mask of active lanes whose A is nonzero. -/
  | ballot (d : BitVec 3) (a : BitVec 7)
  /-- R144: Loads one byte zero-extended. -/
  | ld8n (d : BitVec 7) (a : BitVec 7) (o : BitVec 8)
  /-- R144: Loads one byte sign-extended. -/
  | ld8i (d : BitVec 7) (a : BitVec 7) (o : BitVec 8)
  /-- R144: Loads two bytes zero-extended. -/
  | ld16n (d : BitVec 7) (a : BitVec 7) (o : BitVec 8)
  /-- R144: Loads two bytes sign-extended. -/
  | ld16i (d : BitVec 7) (a : BitVec 7) (o : BitVec 8)
  /-- R143: Loads four bytes per lane. -/
  | ld32 (d : BitVec 7) (a : BitVec 7) (o : BitVec 8)
  /-- R143: Loads eight bytes into a pair. -/
  | ld64 (d : BitVec 7) (a : BitVec 7) (o : BitVec 8)
  /-- R143: Loads sixteen bytes into a quad. -/
  | ld128 (d : BitVec 7) (a : BitVec 7) (o : BitVec 8)
  /-- R145: Indexed byte load, zero-extended. -/
  | ldx8n (d : BitVec 7) (a : BitVec 7) (b : BitVec 7)
  /-- R145: Indexed byte load, sign-extended. -/
  | ldx8i (d : BitVec 7) (a : BitVec 7) (b : BitVec 7)
  /-- R145: Indexed half load, zero-extended. -/
  | ldx16n (d : BitVec 7) (a : BitVec 7) (b : BitVec 7)
  /-- R145: Indexed half load, sign-extended. -/
  | ldx16i (d : BitVec 7) (a : BitVec 7) (b : BitVec 7)
  /-- R145: Indexed word load. -/
  | ldx32 (d : BitVec 7) (a : BitVec 7) (b : BitVec 7)
  /-- R145: Indexed pair load. -/
  | ldx64 (d : BitVec 7) (a : BitVec 7) (b : BitVec 7)
  /-- R145: Indexed quad load. -/
  | ldx128 (d : BitVec 7) (a : BitVec 7) (b : BitVec 7)
  /-- R144: Stores one byte. -/
  | st8 (d : BitVec 7) (a : BitVec 7) (o : BitVec 8)
  /-- R144: Stores two bytes. -/
  | st16 (d : BitVec 7) (a : BitVec 7) (o : BitVec 8)
  /-- R144: Stores four bytes. -/
  | st32 (d : BitVec 7) (a : BitVec 7) (o : BitVec 8)
  /-- R144: Stores a pair. -/
  | st64 (d : BitVec 7) (a : BitVec 7) (o : BitVec 8)
  /-- R144: Stores a quad. -/
  | st128 (d : BitVec 7) (a : BitVec 7) (o : BitVec 8)
  /-- R145: Indexed byte store. -/
  | stx8 (d : BitVec 7) (a : BitVec 7) (b : BitVec 7)
  /-- R145: Indexed half store. -/
  | stx16 (d : BitVec 7) (a : BitVec 7) (b : BitVec 7)
  /-- R145: Indexed word store. -/
  | stx32 (d : BitVec 7) (a : BitVec 7) (b : BitVec 7)
  /-- R145: Indexed pair store. -/
  | stx64 (d : BitVec 7) (a : BitVec 7) (b : BitVec 7)
  /-- R145: Indexed quad store. -/
  | stx128 (d : BitVec 7) (a : BitVec 7) (b : BitVec 7)
  /-- R146: Loads a word through the K cache. -/
  | ldk32 (d : BitVec 7) (a : BitVec 7) (o : BitVec 8)
  /-- R146: Loads a pair through the K cache. -/
  | ldk64 (d : BitVec 7) (a : BitVec 7) (o : BitVec 8)
  /-- R146: Loads a quad through the K cache. -/
  | ldk128 (d : BitVec 7) (a : BitVec 7) (o : BitVec 8)
  /-- R147: Word load followed by an acquire at the scope. -/
  | lda32 (s : BitVec 2) (d : BitVec 7) (a : BitVec 7)
  /-- R147: Pair load followed by an acquire at the scope. -/
  | lda64 (s : BitVec 2) (d : BitVec 7) (a : BitVec 7)
  /-- R147: Release at the scope followed by a word store. -/
  | stl32 (s : BitVec 2) (d : BitVec 7) (a : BitVec 7)
  /-- R147: Release at the scope followed by a pair store. -/
  | stl64 (s : BitVec 2) (d : BitVec 7) (a : BitVec 7)
  /-- R148: Performs a release, an acquire, or both at its scope. -/
  | fence (r : BitVec 1) (q : BitVec 1) (s : BitVec 2)
  /-- R149: Waits for LS writes and invalidates the named path stores. -/
  | pfence (p : BitVec 4)
  /-- R150: Invalidates the instruction-cache line of an address. -/
  | icinv (p : BitVec 7)
  /-- R150: Invalidates the whole instruction cache of the core. -/
  | icinvAll
  /-- R151: Prefetches a line into L1 and L2 without faulting. -/
  | prefL1 (a : BitVec 7) (o : BitVec 8)
  /-- R151: Prefetches a line into L2 without faulting. -/
  | prefL2 (a : BitVec 7) (o : BitVec 8)
  /-- R184: Atomic 32-bit add at the home, returning the old value. -/
  | atomAddI32 (d : BitVec 7) (a : BitVec 7) (b : BitVec 7)
  /-- R184: Atomic 64-bit add. -/
  | atomAddI64 (d : BitVec 7) (a : BitVec 7) (b : BitVec 7)
  /-- R184: Atomic signed minimum. -/
  | atomMinI32 (d : BitVec 7) (a : BitVec 7) (b : BitVec 7)
  /-- R184: Atomic signed maximum. -/
  | atomMaxI32 (d : BitVec 7) (a : BitVec 7) (b : BitVec 7)
  /-- R184: Atomic unsigned minimum. -/
  | atomMinN32 (d : BitVec 7) (a : BitVec 7) (b : BitVec 7)
  /-- R184: Atomic unsigned maximum. -/
  | atomMaxN32 (d : BitVec 7) (a : BitVec 7) (b : BitVec 7)
  /-- R184: Atomic bitwise and. -/
  | atomAnd32 (d : BitVec 7) (a : BitVec 7) (b : BitVec 7)
  /-- R184: Atomic bitwise or. -/
  | atomOr32 (d : BitVec 7) (a : BitVec 7) (b : BitVec 7)
  /-- R184: Atomic bitwise exclusive or. -/
  | atomXor32 (d : BitVec 7) (a : BitVec 7) (b : BitVec 7)
  /-- R184: Atomic 32-bit exchange. -/
  | atomXchg32 (d : BitVec 7) (a : BitVec 7) (b : BitVec 7)
  /-- R184: Atomic 64-bit exchange. -/
  | atomXchg64 (d : BitVec 7) (a : BitVec 7) (b : BitVec 7)
  /-- R184: Atomic 32-bit compare and swap. -/
  | atomCas32 (d : BitVec 7) (a : BitVec 7) (b : BitVec 7)
  /-- R184: Atomic 64-bit compare and swap. -/
  | atomCas64 (d : BitVec 7) (a : BitVec 7) (b : BitVec 7)
  /-- R187: Atomic binary32 add rounded to nearest even. -/
  | atomAddF32 (d : BitVec 7) (a : BitVec 7) (b : BitVec 7)
  /-- R184: Atomic wrapping increment bounded by b. -/
  | atomIncN32 (d : BitVec 7) (a : BitVec 7) (b : BitVec 7)
  /-- R184: Atomic wrapping decrement bounded by b. -/
  | atomDecN32 (d : BitVec 7) (a : BitVec 7) (b : BitVec 7)
  /-- R193: Records waits for sequence numbers and holds the split until granted. -/
  | wayin (a : BitVec 7) (b : BitVec 7)
  /-- R194: Releases at device scope and frees held sections, advancing NEXT. -/
  | wayout (a : BitVec 7)
  /-- R195: Records tentative skips of sequence numbers. -/
  | wayskip (a : BitVec 7) (b : BitVec 7)
  /-- R196: Grants current numbers on free sections at once, writing a mask. -/
  | waytry (d : BitVec 3) (a : BitVec 7) (b : BitVec 7)
  /-- R197: Removes the entry of a free key without waits or skips. -/
  | wayclose (a : BitVec 7)
  /-- R198: Writes a key's NEXT and status word. -/
  | wayqry (d : BitVec 7) (a : BitVec 7)
  /-- R221: Releases at block scope and counts the group's arrival at a barrier. -/
  | barArrive (o : BitVec 7)
  /-- R221: Waits for the phase of the group's last arrival, then acquires. -/
  | barWait (o : BitVec 7)
  /-- R221: Arrival followed by a wait at a block barrier. -/
  | barSync (o : BitVec 7)
  /-- R221: Allocates the lowest free block barrier with count n and returns its handle. -/
  | barAlloc (d : BitVec 7) (n : BitVec 6)
  /-- R221: Frees a barrier and advances its generation. -/
  | barFree (o : BitVec 7)
  /-- R222: Arrival at a cluster barrier. -/
  | cbarArrive (n : BitVec 2)
  /-- R222: Wait at a cluster barrier. -/
  | cbarWait (n : BitVec 2)
  /-- R222: Arrival then wait at a cluster barrier. -/
  | cbarSync (n : BitVec 2)
  /-- R223: Arrival and wait at the cooperative grid barrier. -/
  | gbarSync
  /-- R224: Creates one group on the core at the target if resources allow. -/
  | spawn (d : BitVec 7) (i : BitVec 14)
  /-- R225: Asks the Pilot for an unplaced block into a mailbox. -/
  | fetchw (o : BitVec 7)
  /-- R227: Acquires an extended register block, waiting in first-in first-out order. -/
  | regacq
  /-- R227: Returns the extended register block. -/
  | regrel
  /-- R230: Sorts the block's lanes by key and deals them to the participants. -/
  | regroup (o : BitVec 7)
  /-- R226: Releases and submits a launch record to a device queue. -/
  | launch (p : BitVec 7) (n : BitVec 2)
  /-- R336: In a pre-emption handler, hands the unit over for a swap-out. -/
  | preok
  /-- R231: Reads a special register, latching CYCLEH on a CYCLEL read. -/
  | srd (d : BitVec 7) (a : BitVec 7)
  /-- R231: Writes the RW fields of a special register. -/
  | swr (a : BitVec 7) (b : BitVec 7)
  /-- R247: Copy engine command from memory to scratchpad. -/
  | copyG2s (t : BitVec 5) (p : BitVec 5) (s : BitVec 2) (q : BitVec 1) (r : BitVec 1)
  /-- R247: Copy engine command from scratchpad to memory. -/
  | copyS2g (t : BitVec 5) (p : BitVec 5) (s : BitVec 2) (q : BitVec 1) (r : BitVec 1)
  /-- R247: Copy engine command from memory into an operand slot. -/
  | copyG2o (t : BitVec 5) (p : BitVec 5) (s : BitVec 2) (q : BitVec 1) (r : BitVec 1)
  /-- R247: Copy engine command from scratchpad into an operand slot. -/
  | copyS2o (t : BitVec 5) (p : BitVec 5) (s : BitVec 2) (q : BitVec 1) (r : BitVec 1)
  /-- R247: Copy engine command from memory to memory. -/
  | copyG2g (t : BitVec 5) (p : BitVec 5) (s : BitVec 2) (q : BitVec 1) (r : BitVec 1)
  /-- R247: Copy engine fill of memory or scratchpad with a pattern. -/
  | copyFill (t : BitVec 5) (p : BitVec 5) (s : BitVec 2) (q : BitVec 1) (r : BitVec 1)
  /-- R256: Adds A·B into an accumulator. -/
  | tmma (t : BitVec 5) (a : BitVec 3) (o : BitVec 6) (b : BitVec 6) (z : BitVec 1)
  /-- R256: Subtracts A·B from an accumulator. -/
  | tmms (t : BitVec 5) (a : BitVec 3) (o : BitVec 6) (b : BitVec 6) (z : BitVec 1)
  /-- R262: Sets all bytes of an accumulator to 0. -/
  | tzero (t : BitVec 5) (a : BitVec 3)
  /-- R263: Loads an accumulator from memory row by row. -/
  | tld (t : BitVec 5) (a : BitVec 3) (p : BitVec 5) (v : BitVec 2)
  /-- R263: Stores an accumulator to memory row by row. -/
  | tst (t : BitVec 5) (a : BitVec 3) (p : BitVec 5) (v : BitVec 2)
  /-- R264: Claims n operand-slot names into the claim line. -/
  | tclaim (t : BitVec 5) (d : BitVec 5) (n : BitVec 6)
  /-- R264: Claims n accumulator names into the claim line. -/
  | tclaimAcc (t : BitVec 5) (d : BitVec 5) (n : BitVec 6)
  /-- R265: Unbinds an operand-slot name after earlier commands naming it complete. -/
  | trelSlot (t : BitVec 5) (o : BitVec 6)
  /-- R265: Unbinds an accumulator name after earlier commands naming it complete. -/
  | trelAcc (t : BitVec 5) (a : BitVec 3)
  /-- R266: Sets an accumulator's mode and TACKMODE. -/
  | tcfg (t : BitVec 5) (a : BitVec 3) (m : BitVec 2) (k : BitVec 2)
  /-- R280: Evaluates a linear, quadratic or exponential expression at every cell and updates coverage. -/
  | chexp (p : BitVec 5) (d : BitVec 4) (k : BitVec 3) (e : BitVec 2)
  /-- R283: cD := cA + cB in enabled cells. -/
  | chopAdd (d : BitVec 4) (a : BitVec 4) (b : BitVec 4)
  /-- R283: cD := cA − cB in enabled cells. -/
  | chopSub (d : BitVec 4) (a : BitVec 4) (b : BitVec 4)
  /-- R283: cD := cA · cB in enabled cells. -/
  | chopMul (d : BitVec 4) (a : BitVec 4) (b : BitVec 4)
  /-- R283: cD := cA · cB + cD in enabled cells. -/
  | chopFma (d : BitVec 4) (a : BitVec 4) (b : BitVec 4)
  /-- R283: minimumNumber in enabled cells. -/
  | chopMin (d : BitVec 4) (a : BitVec 4) (b : BitVec 4)
  /-- R283: maximumNumber in enabled cells. -/
  | chopMax (d : BitVec 4) (a : BitVec 4) (b : BitVec 4)
  /-- R283: cD := 2^cA in enabled cells. -/
  | chopExp2 (d : BitVec 4) (a : BitVec 4)
  /-- R283: cD := 1/cA in enabled cells. -/
  | chopRcp (d : BitVec 4) (a : BitVec 4)
  /-- R283: cD := cA bits in enabled cells. -/
  | chopMov (d : BitVec 4) (a : BitVec 4)
  /-- R283: Selects cA or cB by the sign of cD in enabled cells. -/
  | chopSel (d : BitVec 4) (a : BitVec 4) (b : BitVec 4)
  /-- R283: ANDs cA < cB into the enable top. -/
  | chopLt (a : BitVec 4) (b : BitVec 4)
  /-- R283: ANDs cA ≤ cB into the enable top. -/
  | chopLe (a : BitVec 4) (b : BitVec 4)
  /-- R283: ANDs cA == cB into the enable top. -/
  | chopEq (a : BitVec 4) (b : BitVec 4)
  /-- R283: ANDs cA != cB into the enable top. -/
  | chopNe (a : BitVec 4) (b : BitVec 4)
  /-- R282: Pushes a copy of the enable top in every cell. -/
  | chenabPush
  /-- R282: Pops the enable stack in every cell. -/
  | chenabPop
  /-- R282: Inverts the top within the entry below in every cell. -/
  | chenabElse
  /-- R282: Resets the enable stack to depth 1, all enabled. -/
  | chenabAll
  /-- R287: Loads a window of cells from memory. -/
  | chld (p : BitVec 5) (d : BitVec 4) (t : BitVec 5) (s : BitVec 2)
  /-- R288: Stores a window of cells to memory, reporting flags and pending traps. -/
  | chst (p : BitVec 5) (d : BitVec 4) (t : BitVec 5) (s : BitVec 2) (l : BitVec 1)
  /-- R286: Depth test writing identifier and depth in enabled cells. -/
  | chvis (p : BitVec 5) (d : BitVec 4)
  /-- R272: Binds a free chart to the block and queues its reset, or reports it owned. -/
  | chown (d : BitVec 5) (e : BitVec 5)
  /-- R273: Ends the block's ownership of the chart. -/
  | chrel
  /-- R285: Sets the chart origin at issue. -/
  | chorg (s : BitVec 5)
  /-- R285: Reads the chart origin to an s register at issue. -/
  | chorgRd (d : BitVec 5)
  /-- R285: Writes an s value to a cell register in enabled or all cells. -/
  | chset (s : BitVec 5) (d : BitVec 4) (l : BitVec 1)
  /-- R281: Experimental cubic expression evaluation at every cell. -/
  | chcubic (p : BitVec 5) (d : BitVec 4) (e : BitVec 2)
  /-- R299: Writes back the pseudo-channel's dirty lines and enters all-bank mode. -/
  | bkmodeOn (t : BitVec 5) (p : BitVec 5) (s : BitVec 2) (q : BitVec 1) (r : BitVec 1)
  /-- R304: Leaves all-bank mode after earlier commands and releases waiting traffic. -/
  | bkmodeOff (t : BitVec 5) (p : BitVec 5) (s : BitVec 2) (q : BitVec 1) (r : BitVec 1)
  /-- R305: Broadcasts or scatters vectors into bank b registers. -/
  | bkload (t : BitVec 5) (p : BitVec 5) (s : BitVec 2) (q : BitVec 1) (r : BitVec 1) (f : BitVec 1) (sc : BitVec 1)
  /-- R306: Runs row passes multiplying stored columns by a b register into p registers. -/
  | bkmac (t : BitVec 5) (p : BitVec 5) (s : BitVec 2) (q : BitVec 1) (r : BitVec 1) (f : BitVec 1) (z : BitVec 1)
  /-- R307: Writes p register elements of selected banks to memory. -/
  | bkread (t : BitVec 5) (p : BitVec 5) (s : BitVec 2) (q : BitVec 1) (r : BitVec 1)
  /-- R309: Retrains the pseudo-channel's interface. -/
  | bkcalCal (t : BitVec 5) (p : BitVec 5) (s : BitVec 2) (q : BitVec 1) (r : BitVec 1)
  /-- R309: Tests the 16 banks in slices without changing data. -/
  | bkcalBist (t : BitVec 5) (p : BitVec 5) (s : BitVec 2) (q : BitVec 1) (r : BitVec 1)
  /-- R309: Moves a column to a free spare. -/
  | bkcalRemap (t : BitVec 5) (p : BitVec 5) (s : BitVec 2) (q : BitVec 1) (r : BitVec 1)
  /-- R308: Writes 16 bank status words. -/
  | bkstat (t : BitVec 5) (p : BitVec 5) (s : BitVec 2) (q : BitVec 1) (r : BitVec 1)
  /-- R319: Contributes to a reduction over a canonical tree. -/
  | collRed (t : BitVec 5) (p : BitVec 5) (s : BitVec 2) (q : BitVec 1) (r : BitVec 1)
  /-- R320: Quantises with a residual and contributes to a reduction. -/
  | collRedq (t : BitVec 5) (p : BitVec 5) (s : BitVec 2) (q : BitVec 1) (r : BitVec 1)
  /-- R321: Contributes to a broadcast from ROOT. -/
  | collBcast (t : BitVec 5) (p : BitVec 5) (s : BitVec 2) (q : BitVec 1) (r : BitVec 1)
  /-- R321: Contributes to a gather of every contributor's elements. -/
  | collGather (t : BitVec 5) (p : BitVec 5) (s : BitVec 2) (q : BitVec 1) (r : BitVec 1)
  /-- R323: Copies bytes to a peer's memory. -/
  | lput (t : BitVec 5) (p : BitVec 5) (s : BitVec 2) (q : BitVec 1) (r : BitVec 1)
  /-- R323: Copies bytes from a peer's memory. -/
  | lget (t : BitVec 5) (p : BitVec 5) (s : BitVec 2) (q : BitVec 1) (r : BitVec 1)
  /-- R333: Raises SWT with FADDRL := n. -/
  | trap (n : BitVec 14)
  /-- R331: Restores saved sequencer state and resumes from a handler. -/
  | tret
  /-- R178: Releases, invalidates the entries of one VA in a context and waits for translated accesses. -/
  | tlbinvPage (o : BitVec 7) (n : BitVec 6)
  /-- R178: Invalidates every translation entry of a context. -/
  | tlbinvCtx (n : BitVec 6)
  /-- R178: Invalidates every translation entry of every context. -/
  | tlbinvAll
  /-- R152: Sets the die's scratch-way count, writing back and zeroing ways that change role. -/
  | l2way (o : BitVec 7)
  /-- R152: Reads the die's scratch-way count. -/
  | l2wayRd (o : BitVec 7)
  /-- R352: When armed, halts every group of the block and requests a debug record. -/
  | stop
  /-- R353: Starts soundings for the launch with period P if none is running. -/
  | sndgOn (o : BitVec 7)
  /-- R353: Stops soundings and clears the tag registers. -/
  | sndgOff
  /-- R353: Writes and clears the summed reuse buckets. -/
  | sndgRd (o : BitVec 7)
  deriving DecidableEq, Repr

end Sys2Proof
end

