-- ==== Sys2Proof/Machine/State.lean ====
section
/-! DEFINITION. The state of the JLM-4C8H as plain data, its faults and refusals, and the state after device reset.
Every piece of state the spec names is a field here; what a field counts derives from a rule named beside it. -/

namespace Sys2Proof.Machine

/-- A sparse table: keys strictly rising, and no entry equal to what an unlisted key reads as (Sys2Proof/Machine/Ops.lean). -/
abbrev Tab (β : Type) := List (Nat × β)

/-- What a waiting slice waits for (04 R72). -/
inductive Wait where
  | none
  /-- `sleep` until a cycle (04 R87). -/
  | sleep (til : Nat)
  /-- Block barrier `i` until its phase `p` is complete (10 R221). -/
  | barrier (i p : Nat)
  /-- Cluster barrier `i` until phase `p` is complete (10 R222). -/
  | cluster (i p : Nat)
  /-- Grid barrier until phase `p` is complete (10 R223). -/
  | grid (p : Nat)
  /-- A `wayin`, `wayout`, `wayskip` or `wayclose` under way (09 R191). -/
  | way (op : Nat)
  /-- `regacq` (10 R227). -/
  | regacq
  /-- `regroup` with the register of its keys (10 R230). -/
  | regroup (reg : Nat)
  /-- `preok` (16 R336). -/
  | preok
  /-- `launch`, until the Pilot answers (10 R226). -/
  | launch (op : Nat)
  /-- `tlbinv`, until the accesses it waits for have been performed (08 R178). -/
  | inval (op : Nat)
  deriving DecidableEq, Repr

/-- What one slice sequencer holds (Table CTL-1) and a trap frame saves (16 R327). Its current entry is empty when `m` is. -/
structure Seq where
  pc       : Pc
  m        : BitVec 4
  a        : BitVec 4
  /-- Parked entries, the most recent first (04 R76). -/
  parked   : List (Pc × BitVec 4)
  /-- Releases (PC, members, active), the oldest first (04 R82). -/
  releases : List (Pc × BitVec 4 × BitVec 4)
  /-- Suspended lanes: lane of the slice, the join's address, arrived active (04 R80). -/
  susp     : Tab (Pc × Bool)
  wait     : Wait
  deriving DecidableEq, Repr

structure Slice where
  seq    : Seq
  exited : BitVec 4
  /-- s1-s31; an unlisted register reads 0, and s0 is never listed (01 R21). -/
  s      : Tab Word
  /-- The CYCLEH latch (10 R232). -/
  cycleh : Word
  /-- The begun clause the slice issues in, 0 at a clause boundary (03 R52, 04 R72). -/
  gang   : Nat
  /-- The cycle of the last exit of a lane, and the lanes that exited in it (04 R81). -/
  exitAt : Nat
  exitNow : BitVec 4
  /-- Passed over, while others are ready, until its core has had this many issue cycles (03 R45, 04 R86). -/
  passTo : Nat
  /-- Not ready before this cycle: a reckoning trial's delay (17 R355), or a wrong prediction's (04 R90). -/
  after  : Nat
  deriving DecidableEq, Repr

/-- A clause some slices have begun: its address and its four words as fetched (03 R42, 07 R162). -/
structure Gang where
  clause : Pc
  words  : List Word
  /-- No slot has issued yet, so the head's WAIT is still to be honoured (03 R42). -/
  fresh  : Bool
  deriving DecidableEq, Repr

/-- A trap as it is presented (16 R326, R327). -/
structure Trap where
  /-- The step of Table ENC-9 at which it was found. -/
  stage  : Nat
  cause  : BitVec 8
  pc     : Pc
  word   : Word
  faddr  : DWord
  level  : BitVec 3
  kind   : BitVec 2
  async  : Bool
  /-- The lanes m7 receives. -/
  lanes  : LaneSet
  /-- The split that presents it. -/
  slices : SliceSet
  /-- The cycle of its core in which it was presented (16 R329). -/
  born   : Nat
  /-- TRAPBASE.EN of its group as it was presented (16 R328). -/
  en     : Bool := false
  deriving DecidableEq, Repr

/-- One read of a long-latency load: its destination field, the lane (none: the split's s registers, or every active lane alike),
the size code of Table MEM-5, and its bytes, those waiting at a home slice in all-bank mode still missing (14 Table BNK-2). -/
structure HeldRead where
  lane  : Option Nat
  cells : List (Nat × Option Byte)
  deriving DecidableEq, Repr

/-- A long-latency word that has issued and not completed (03 R48-R50, R54). -/
structure LongOp where
  word    : Word
  pc      : Pc
  flag    : Nat
  slices  : SliceSet
  exec    : LaneSet
  /-- The handler it issued in, 0 outside one: which copy of s24-s27 it names (16 R330). -/
  epoch   : Nat
  /-- Destination registers pending: v registers in the lanes of `exec`, s registers in `slices`. -/
  vMarks  : List Nat
  sMarks  : List Nat
  /-- Results: key register · 128 + lane for v, register for s. -/
  vWrites : List (Nat × Word)
  sWrites : List (Nat × Word)
  mask    : Option (Nat × LaneSet)
  /-- FPFLAGS bits its results OR in (06 R114). -/
  fpflags : Word
  /-- Scope of the acquire its completion performs. -/
  acquire : Option Nat
  fault   : Option Trap
  /-- Service replies missing (09 R181). -/
  waiting : Nat
  /-- The pointers it accesses memory through, by lane; a single one under lane 0. -/
  ptrs    : Tab DWord
  /-- The reads of a load: destination field and size code. -/
  dest    : Nat
  code    : Nat
  reads   : List HeldRead
  /-- The cycle it issued in. -/
  since   : Nat
  deriving DecidableEq, Repr

/-- A `way` word under way in a group (09 R191-R196). -/
structure WayOp where
  minor   : Nat
  word    : Word
  pc      : Pc
  slices  : SliceSet
  exec    : LaneSet
  /-- Requesting lanes with their keys. -/
  keys    : Tab DWord
  /-- The group's running time at issue, and WAYTO as it stood (09 R202). -/
  start   : Nat
  limit   : Nat
  waiting : Nat
  /-- Lanes granted or accepted; lanes refused with their cause. -/
  granted : List Nat
  failed  : Tab (BitVec 8)
  deriving DecidableEq, Repr

inductive HandlerKind where
  | trap
  | pre
  deriving DecidableEq, Repr

/-- A handler under way (16 R327, R335): its slices H, the trapped split S, what it interrupted, and the banked s24-s27. -/
structure Handler where
  id     : Nat
  kind   : HandlerKind
  h      : SliceSet
  s      : SliceSet
  frame  : Tab Seq
  /-- Key slice · 4 + (register - 24). -/
  banked : Tab Word
  /-- Long-latency and way words issued before entry. -/
  before : List Nat
  deriving DecidableEq, Repr

/-- A join instance's timer (04 R81): mask index, n, start in the group's running time. -/
structure JoinTimer where
  k     : Nat
  n     : Nat
  start : Nat
  deriving DecidableEq, Repr

/-- A clause fetched ahead of the split of a slice (04 R90). -/
structure Ahead where
  slice  : Nat
  clause : Pc
  words  : List Word
  deriving DecidableEq, Repr

structure Group where
  block   : Nat
  /-- Context number on its core, GROUPID, width W, made by `spawn` (10 R213, R224). -/
  context : Nat
  gid     : Nat
  width   : Nat
  spawned : Bool
  /-- Cycle of placement or spawn (10 R228). -/
  born    : Nat
  slices  : List Slice
  /-- v0-v95, key register · 128 + lane (01 R21). -/
  v       : Tab Word
  /-- m1-m7 (04 R75). -/
  m       : Tab LaneSet
  rmode   : Word
  fpflags : Word
  /-- The FPFLAGS bits ORed in in one cycle of the core, and that cycle (06 R114). -/
  fpNew   : Word
  fpAt    : Nat
  joinst  : Word
  /-- REGST (10 R229). -/
  held    : Bool
  waitReg : Bool
  spilled : Bool
  spills  : Nat
  wayto   : Word
  /-- TRAPBASE and PREBASE with their hidden bits [56:32] (16 R326). -/
  trapBase : Pc
  trapEn   : Bool
  preBase  : Pc
  preEn    : Bool
  preBound : Word
  tpc     : Pc
  tcause  : Word
  tword   : Word
  faddr   : DWord
  tsave   : Word
  /-- Sections held per lane (09 R199). -/
  sections : Tab Nat
  longs   : Tab LongOp
  ways    : Tab WayOp
  gangs   : Tab Gang
  /-- By flag, the cycle from which it reads as clear to a waiting clause (03 R47). -/
  flagTil : Tab Nat
  /-- A fence issued and not yet performed: the scope of its release, and of its acquire where it acquires (07 R148). -/
  fencing : Option (Nat × Option Nat)
  /-- Of a spawned group: its spawner, whose atomics with names below the number are to be served before its first issue (10 R224). -/
  startAfter : Option (Nat × Nat)
  joins   : Tab JoinTimer
  fetched : List Ahead
  /-- What the fetch unit predicts the group's transfers from (04 R90): the return stack, its top first, and by word address the last target of each
  `jmpi` and `calli`. -/
  retStack : List Pc
  targets : Tab Pc
  /-- A trap presented and not yet entered (16 R327). -/
  trap    : Option Trap
  handler : Option Handler
  /-- The CODE of a trap inside a handler that killed the group (16 R332). -/
  killed  : Bool
  ended   : Bool
  /-- The running time its timers count: what has passed before, and the cycle of its core since which it runs (04 R84). -/
  ran     : Nat
  runs    : Option Nat
  deriving DecidableEq, Repr

/-- A block barrier (10 R219). -/
structure Barrier where
  alloc   : Bool
  gen     : Nat
  count   : Nat
  phase   : Nat
  arrived : List Nat
  /-- last(G, i) by group (10 R221). -/
  last    : Tab Nat
  deriving DecidableEq, Repr

/-- A cluster barrier or grid barrier (10 R222, R223): groups arrived in the current phase. -/
structure WideBarrier where
  phase   : Nat
  arrived : List Nat
  last    : Tab Nat
  deriving DecidableEq, Repr

/-- An operand slot or accumulator bound to a name (12 R251, R252); `freed` names the `trel` issued for it (12 R265). `code`, `rows`, `cols` are the tag of a slot (code 0: EMPTY, as RAW never tags a slot) or mode, TACKMODE and 0 of an accumulator. -/
structure Binding where
  name  : Nat
  acc   : Bool
  freed : Option Nat
  code  : Nat
  rows  : Nat
  cols  : Nat
  bytes : Tab Byte
  deriving DecidableEq, Repr

/-- The kinds of command the engines hold (11, 12, 13, 14, 15), with the fields of their words that the parameters do not hold. -/
inductive Cmd where
  /-- The copy minors 0-5 of Table CPY-3. -/
  | copy (kind : Nat)
  | tmm (minus : Bool) (acc oa ob : Nat) (z : Bool)
  | tzero (acc : Nat)
  | tld (acc cv : Nat)
  | tst (acc cv : Nat)
  | trelSlot (o : Nat)
  | trelAcc (acc : Nat)
  | tcfg (acc mode tack : Nat)
  | chexp (d kind eop : Nat)
  | chcubic (d eop : Nat)
  /-- The chop of Table CHT's number, with TE as it stood at issue (13 R284). -/
  | chop (op d a b : Nat) (te : BitVec 5)
  | chenab (op : Nat)
  | chld (d sel : Nat)
  | chst (d sel : Nat) (all : Bool)
  | chvis (d : Nat)
  | chset (d : Nat) (all : Bool)
  | chreset
  | bkmodeOn
  | bkmodeOff
  | bkload (bfp scatter : Bool)
  | bkmac (bfp zero : Bool)
  | bkread
  | bkcal (op : Nat)
  | bkstat
  | coll (minor : Nat)
  | lput
  | lget
  deriving DecidableEq, Repr

/-- A command in an engine's queue (11 R234-R240): parameters as read at issue, the token register of the marked slices. -/
structure EngCmd where
  id      : Nat
  cmd     : Cmd
  params  : List Word
  token   : Nat
  group   : Nat
  slices  : SliceSet
  epoch   : Nat
  block   : Nat
  scope   : Nat
  aq      : Bool
  rl      : Bool
  /-- Rows, passes, vectors or bytes already done, and whether they raised its flag (11 R238, 14 R311, 15 R324). -/
  done    : Nat
  flag    : Bool
  /-- The cycle since which its next access waits (11 R235). -/
  waits   : Option Nat
  /-- A collective contribution sent to HOME and its answer: status word and bytes to write (15 R318). -/
  sent    : Bool
  answer  : Option (Word × List Byte)
  deriving DecidableEq, Repr

/-- A claim in a claim line (12 R264). -/
structure Claim where
  id     : Nat
  acc    : Bool
  n      : Nat
  dest   : Nat
  token  : Nat
  group  : Nat
  slices : SliceSet
  epoch  : Nat
  block  : Nat
  deriving DecidableEq, Repr

/-- A store issued and not yet performed at its home (07 R149): bytes by location, in issue order. -/
structure PendingStore where
  id    : Nat
  group : Nat
  cells : List (Nat × Byte)
  /-- The pointers it was made through (08 R178). -/
  ptrs  : List DWord
  /-- It was made by `stl` at cluster scope or wider (07 R158). -/
  ordered : Bool
  /-- Bytes of one lane's access, which reach the home together (07 R143, 08 R168). -/
  unit : Nat
  /-- Its lines under a type-2 leaf, which L2 does not allocate (08 R169). -/
  through : List Nat
  /-- A `pfence` that names LS and another path has been issued since (07 R161). -/
  fenced : Bool
  /-- The trap of its word where a peer cannot complete it, none for what no word made; its accesses of peers with their pointers, in lane order
  (07 R135, 15 R313). -/
  trap : Option Trap := none
  peers : List (Nat × DWord) := []
  deriving DecidableEq, Repr

/-- A translation the device holds (08 R172): context, root frame, the range of VAs and the frame it begins at, level, permissions and type. -/
structure TlbEntry where
  ctx   : Nat
  space : Nat
  root  : Nat
  va    : Nat
  size  : Nat
  pa    : Nat
  level : Nat
  w     : Bool
  x     : Bool
  u     : Bool
  type  : Nat
  deriving DecidableEq, Repr

/-- A walk-cache entry (Table XLT-4): the table a path of `bits` VA bits leads to. -/
structure WalkEntry where
  ctx   : Nat
  space : Nat
  root  : Nat
  level : Nat
  path  : Nat
  table : Nat
  deriving DecidableEq, Repr

/-- A chart (Table CHT-1). Registers: key register · 1024 + cell; an enable entry is one bit per cell; cell = 32·j + i. -/
structure Chart where
  regs   : Tab Word
  /-- E[0] first; its length is depth. -/
  enable : List (BitVec 1024)
  flags  : Tab (BitVec 5)
  chflags : BitVec 5
  trappend : Bool
  te     : BitVec 5
  orgx   : BitVec 16
  orgy   : BitVec 16
  owner  : Option Nat
  /-- depth as it will stand when every queued command has run (13 R282). -/
  depthIssued : Nat
  deriving DecidableEq, Repr

/-- An entry of a core's line of candidates (10 R218): a split at a clause boundary (gang 0) or inside a clause, or the pod's service group (group 0);
and for how many issue cycles in a row it has been ready without issuing. -/
structure Candidate where
  group  : Nat
  gang   : Nat
  slices : SliceSet
  passed : Nat
  deriving DecidableEq, Repr

/-- One core (01 R13). -/
structure Core where
  l1      : Tab (List Byte)
  kc      : Tab (List Byte)
  ic      : Tab (List Byte)
  stores  : List PendingStore
  copyQ   : List EngCmd
  tileQ   : List EngCmd
  chartQ  : List EngCmd
  bankQ   : List EngCmd
  linkQ   : List EngCmd
  slotLine : List Claim
  accLine  : List Claim
  /-- Groups waiting in `regacq`, the oldest first (10 R227). -/
  regLine : List Nat
  /-- The line of candidates in order of arrival, of which the first 32 stand in the window, its head first; steps issued, the cycle of the last one of a
  group that is no service group, and the cycle from which the core may issue again (10 R218, R228). -/
  window  : List Candidate
  issues  : Nat
  lastIssue : Nat
  free    : Nat
  chart   : Chart
  /-- MHz, as it stands since a cycle of the network clock; and the core's cycles up to then, in 1,880ths (01 R11). -/
  clock   : Nat
  since   : Nat
  ticks   : Nat
  /-- Bytes of scratchpad the Pilot has set for the core's blocks (07 R136); on a pod's first core the service group's 32 KiB stand beside them (01 R19). -/
  scratch : Nat
  /-- A flit has exhausted its retries: the next access of the core to a peer fails (15 R313). -/
  linkBad : Bool
  tgate   : Word
  /-- Power-gated tile sub-arrays, and the cycle of each one's last work (12 R268). -/
  gated   : BitVec 4
  worked  : Tab Nat
  tlb     : List TlbEntry
  /-- The counters that predict branches, 0 to 3, by clause address bits [14:4] (04 R90). -/
  predict : Tab (BitVec 2)
  deriving DecidableEq, Repr

/-- A launch record (Table WRK-2). -/
structure LaunchRec where
  entry    : DWord
  trap     : DWord
  pre      : DWord
  param    : DWord
  localBase : DWord
  localSize : Nat
  scratch  : Nat
  preBound : Word
  width    : Nat
  groups   : Nat
  cluster  : Nat
  gridx    : Nat
  gridy    : Nat
  gridz    : Nat
  flags    : Word
  counter  : BitVec 8
  deps     : List DWord
  compPtr  : DWord
  compVal  : DWord
  deriving DecidableEq, Repr

/-- A kill to report (Table TRP-2). -/
structure KillRecord where
  tcause : Word
  tword  : Word
  inner  : Nat
  pc     : Pc
  faddr  : DWord
  blockx : Nat
  blocky : Nat
  blockz : Nat
  gid    : Nat
  index  : Nat
  deriving DecidableEq, Repr

structure Launch where
  card    : LaunchRec
  /-- The queue it is served from (0-67), the host queue kills and faults are reported to, the index of its record (16 R332). -/
  queue   : Nat
  host    : Nat
  index   : Nat
  ctx     : Nat
  /-- Linear indexes of the blocks not yet placed nor withdrawn are those from `nextBlock` on (10 R211, R225). -/
  nextBlock : Nat
  ended   : Nat
  /-- Resident cooperative: the grid barrier of the die barrier units (10 R212, R223). -/
  coop    : Option Nat
  grid    : WideBarrier
  kills   : List KillRecord
  /-- Its completion has counted (10 R217); its end by a function-level reset leaves no trace (17 R343). -/
  counted : Bool
  silent  : Bool
  /-- Cycles its ended blocks were resident (Table TRP-4). -/
  resided : Nat
  deriving DecidableEq, Repr

/-- A b register of a bank (14 R297): tag 0 EMPTY, 1 RAW, 2 BFP4, its exponents and bits. -/
structure BReg where
  code : Nat
  xe0  : Byte
  xe1  : Byte
  bits : BitVec 256
  deriving DecidableEq, Repr

/-- A block halted by `stop` or `brkpt` (17 R352): the issuing split, kind, n, address, and the index of its debug record once written. -/
structure Halt where
  group  : Nat
  slices : SliceSet
  kind   : Nat
  n      : Nat
  pc     : Pc
  index  : Option Nat
  deriving DecidableEq, Repr

structure Block where
  launch  : Nat
  x       : Nat
  y       : Nat
  z       : Nat
  linear  : Nat
  clrank  : Nat
  cluster : Nat
  core    : Nat
  /-- Swapped out by the Anchor engine (16 R339). -/
  away    : Bool
  /-- Cycle of placement; cycles resident before the last swap. -/
  placed  : Nat
  stayed  : Nat
  barriers : Tab Barrier
  bindings : List Binding
  /-- Mailbox offsets of `fetchw` requests outstanding (10 R225). -/
  fetchws : List Nat
  /-- Blocks it withdrew by `fetchw`. -/
  drawn   : Nat
  halt    : Option Halt
  /-- The pre-emption unit it belongs to (16 R334). -/
  unit    : Option Nat
  ended   : Bool
  /-- Commands, claims and chart kept while it is away (16 R339). -/
  kept    : List (Engine × EngCmd)
  keptClaims : List Claim
  keptChart  : Option Chart
  /-- Pseudo-channels it holds in all-bank mode, with their b and p registers (14 R311). -/
  keptBanks  : List (Nat × Tab BReg × Tab Word)
  deriving DecidableEq, Repr

/-- A cluster: its blocks by rank (ended ones stay listed) and its four barriers (10 R222). -/
structure Cluster where
  blocks   : List Nat
  barriers : Tab WideBarrier
  deriving DecidableEq, Repr

/-- A pre-emption under way or a swapped-out unit (16 R334-R341). -/
structure PreUnit where
  blocks  : List Nat
  /-- The launch's PREBOUND, in cycles; 0 is no bound (16 R337). -/
  bound   : Nat
  /-- The cycle of the request, and from the choice of a course on that of the choice. -/
  t0      : Nat
  /-- The handler path was open at t0, and its handlers have been entered. -/
  path    : Bool
  entered : Bool
  /-- The fall-back's course once chosen: 0 drain, 1 flush, 2 save, which ends what is under way before the unit is away. -/
  course  : Option Nat
  /-- Every group not ended had issued `preok` while the path was open (16 R336). -/
  handed  : Bool
  /-- Swapped out; by `preok`. -/
  away    : Bool
  byPreok : Bool
  /-- Bytes of the save region it takes while it is away (16 R339). -/
  size    : Nat
  /-- Its drain has been counted as a miss. -/
  missed  : Bool
  deriving DecidableEq, Repr

/-- One translation context (Table MGT-7); `eff0`..`eff2` are the roots in effect for translation,
none before the context's first use (08 R165). -/
structure Context where
  root0    : Nat
  root1    : Nat
  root2    : Nat
  eff0     : Option Nat
  eff1     : Option Nat
  eff2     : Option Nat
  saveBase : Nat
  saveSize : Nat
  dbgctl   : BitVec 3
  dbgBase  : Nat
  resume   : Word
  miss     : Word
  deriving DecidableEq, Repr

/-- A launch queue (Table WRK-1) and what the Pilot keeps of it (10 R207, R211). -/
structure Queue where
  base   : Nat
  en     : Bool
  ctx    : Nat
  prio   : Nat
  logn   : Nat
  stop   : Bool
  cfault : Bool
  why    : BitVec 8
  /-- The Pilot's copy of the tail. -/
  tail   : DWord
  /-- The head index past a copied record, and where it is to be written, while that waits at its home slice (10 R207, R372). -/
  headDue : Option (Nat × Nat)
  /-- Writes to its base and control registers that take effect at the next placement (17 R344): offset and value. -/
  pending : List (Nat × Word)
  /-- The current record: its launch. -/
  current : Option Nat
  /-- Placements counted since the later of its last service and its last becoming ready; ready at the last count. -/
  waited : Nat
  wasReady : Bool
  deriving DecidableEq, Repr

/-- A record appended to a device queue by `launch` (10 R226). -/
structure DevRecord where
  card : LaunchRec
  ctx  : Nat
  host : Nat
  index : Nat
  deriving DecidableEq, Repr

/-- A `launch` word waiting for the Pilot's answer. -/
structure LaunchReq where
  op     : Nat
  group  : Nat
  slices : SliceSet
  epoch  : Nat
  reg    : Nat
  prio   : Nat
  word   : Word
  pc     : Pc
  card   : LaunchRec
  zeros  : Bool
  deriving DecidableEq, Repr

/-- What a request asks of a service group (09 R181). -/
inductive Ask where
  /-- An atomic on the locations of n bytes. -/
  | atom (op : AtomOp) (locs : List Nat) (b1 b2 : DWord)
  | wayin (key : DWord) (seq : Word)
  | wayout (key : DWord)
  | wayskip (key : DWord) (seq : Word)
  | waytry (key : DWord) (seq : Word)
  | wayclose (key : DWord)
  | wayqry (key : DWord)
  deriving DecidableEq, Repr

structure Request where
  pod   : Nat
  group : Nat
  op    : Nat
  lane  : Nat
  ask   : Ask
  /-- An atomic under a type-2 leaf (08 R169). -/
  through : Bool := false
  deriving DecidableEq, Repr

inductive Answer where
  | old (v : DWord)
  | done
  | granted
  | notGranted
  | failed (cause : BitVec 8)
  | status (next word : Word)
  deriving DecidableEq, Repr

structure Reply where
  pod   : Nat
  group : Nat
  op    : Nat
  lane  : Nat
  answer : Answer
  deriving DecidableEq, Repr

structure WayWait where
  seq   : Word
  group : Nat
  op    : Nat
  lane  : Nat
  deriving DecidableEq, Repr

structure WaySkip where
  seq   : Word
  firm  : Bool
  group : Nat
  op    : Nat
  lane  : Nat
  deriving DecidableEq, Repr

/-- A waypoint entry (09 R188). -/
structure WayEntry where
  next   : Word
  holder : Option (Nat × Nat × Nat)
  poison : Bool
  waits  : List WayWait
  skips  : List WaySkip
  /-- The entry lies in the extension. -/
  ext    : Bool
  deriving DecidableEq, Repr

/-- A pseudo-channel (14 R297, R308): the holder of all-bank mode, its b registers (key bank · 16 + b) and p registers (key bank · 64 + element), and
its banks' status. -/
structure PChannel where
  holder : Option Nat
  b      : Tab BReg
  p      : Tab Word
  bfail  : BitVec 16
  cerr   : Tab Nat
  /-- Columns remapped: key bank · 2^21 + column, value the spare in use (0 or 1). -/
  remap  : Tab Nat
  /-- Spares found worn and replaced: key bank · 2^21 + column group · 2 + spare. -/
  worn   : Tab Nat
  /-- The `bkcal` command that acts on it, and the cycle since which a calibration, a test slice or a remap holds it (14 R309). -/
  calBy  : Option Nat
  hold   : Option Nat
  deriving DecidableEq, Repr

/-- A collective instance open at this HOME (15 R318). -/
structure Collective where
  first : Contribution
  parts : List Contribution
  deriving DecidableEq, Repr

/-- A launch's soundings (17 R353): per sector the access count and up to 64 tag registers (line, count); buckets. -/
structure Sounding where
  /-- From `sndg.on` to `sndg.off` or the launch's end. -/
  on      : Bool
  p       : Nat
  counts  : Tab Nat
  tags    : Tab (List (Nat × Nat))
  buckets : Tab Nat
  deriving DecidableEq, Repr

/-- The trial registers and record (17 R355). -/
structure Trial where
  ctx  : Word
  dly  : Word
  len  : Word
  lo   : DWord
  hi   : DWord
  go   : Bool
  endAt : Nat
  record : Tab DWord
  deriving DecidableEq, Repr

/-- An event from outside, the cycle from which it may be taken, and the cycle it came in where it had to wait for the device to wake. -/
structure Input where
  due   : Nat
  event : Instr
  came  : Option Nat := none
  deriving DecidableEq, Repr

/-- What a word under issue has come to (03 R54, R60). -/
inductive Verdict where
  | pending
  | done
  | stall
  | trap (t : Trap)
  deriving DecidableEq, Repr

/-- The issue under way: which word `exec` runs for. -/
structure Issue where
  group  : Nat
  slices : SliceSet
  /-- Address of the word, of the chain's first word, and where the split goes on. -/
  pc     : Pc
  chain  : Pc
  next   : Pc
  /-- The gang the split issues in, and the gang it goes on in: 0 after the clause's last valid slot. -/
  split  : Nat
  gang   : Nat
  word   : Word
  /-- The set-flag of a long-latency word. -/
  flag   : Nat
  /-- The group as it stood before the chain (03 R52). -/
  snap   : Option Group
  /-- The choice of this step among what the spec leaves open. -/
  choice : Nat
  /-- A trial run of a chain's word: only the verdict is kept. -/
  probe  : Bool
  verdict : Verdict
  deriving DecidableEq, Repr

/-- A `tlbinv` whose split waits (08 R178): the stores in flight (core, name) and long-latency words (group, name) that were translated with an entry it
removed. -/
structure Inval where
  op     : Nat
  stores : List (Nat × Nat)
  words  : List (Nat × Nat)
  deriving DecidableEq, Repr

structure State where
  /-- Network cycles since device reset, and those in which the device was under way (01 R11, 17 R347). -/
  cycle    : Nat
  awake    : Nat
  /-- The model's own: free values read so far, the choices to come, events from outside, fresh names, the issue under way. -/
  free     : Nat
  oracle   : List Nat
  inputs   : List Input
  nextId   : Nat
  cur      : Option Issue
  /-- Stepping B0 (03 R59, R63). -/
  stepB0   : Bool
  /-- Every byte of memory (Host.Cell), keyed by location: see Ops.loc. -/
  mem      : Tab Byte
  /-- L2WAY of each die (07 R141). -/
  l2way    : Tab Nat
  cores    : Tab Core
  sectorTlb : Tab (List TlbEntry)
  walkCache : Tab (List WalkEntry)
  contexts : Tab Context
  groups   : Tab Group
  blocks   : Tab Block
  clusters : Tab Cluster
  launches : Tab Launch
  queues   : Tab Queue
  devQueues : Tab (List DevRecord)
  /-- Queue served last at each priority (10 R211). -/
  lastServed : Tab Nat
  launchReqs : List LaunchReq
  counters : Tab Word
  /-- Requests on their way to a pod, the pods' queues, replies on their way back (09 R181). -/
  net      : List Request
  podQ     : Tab (List Request)
  replies  : List Reply
  waypoints : Tab WayEntry
  /-- Deadlock probes (group, op) and announcements of lanes (group, lane) under way (09 R200, R203). -/
  probes   : List (Nat × Nat)
  poisons  : List (Nat × Nat)
  pchannels : Tab PChannel
  /-- Byuth (15 R313): this device's number, the peers a route reaches, paused virtual channels, retries counted per port. -/
  device   : Nat
  routes   : BitVec 64
  paused   : List (Nat × Nat)
  retries  : Tab Nat
  collectives : List Collective
  /-- Management (17). -/
  ltol     : Word
  rest     : Nat
  idleFrom : Option Nat
  /-- The cycle by which a wake event has it under way again (17 R348). -/
  wake     : Option Nat
  progress : Tab DWord
  trial    : Trial
  /-- By launch; at most one is on. -/
  soundings : Tab Sounding
  logRegs  : Tab Byte
  logHead  : Tab Nat
  logDrops : Tab Nat
  /-- Lines with a write not yet written back, and the sectors that hold a replica of a line (07 R140), as far as the slice logs show them. -/
  dirty    : List Nat
  replicas : List (Nat × Nat)
  invals   : List Inval
  measure  : Tab (BitVec 512)
  extCount : Tab (BitVec 16)
  resets   : Word
  answers  : List (List Byte)
  /-- Pre-emption units, and the stowage entries the Anchor engines read (16, 02 R40, 03 R66): key context · 2^57 + clause address (log entry 28). -/
  units    : Tab PreUnit
  stowage  : Tab (BitVec 128)
  deriving DecidableEq, Repr

/-- Why the machine stops with a fault. -/
inductive Fault where
  /-- Raised by every meaning of an instruction word when no group issues one: the spec gives a word no effect without its split.
  Safe: the step never runs a word so. -/
  | noIssuer
  deriving DecidableEq, Repr

/-- Why an instruction has no meaning. -/
inductive Refusal where
  /-- Raised by an arm of `exec` whose instruction has no meaning yet. Safe. -/
  | notModelled (mnemonic : String)
  deriving DecidableEq, Repr

/-- A chart that no block owns (log entry 6). -/
def Chart.reset : Chart :=
  { regs := [], enable := [BitVec.allOnes 1024], flags := [], chflags := 0, trappend := false, te := 0, orgx := 0, orgy := 0,
    owner := none, depthIssued := 1 }

/-- A core after device reset: caches and queues empty, 940 MHz (01 R11), TGATE 2,048 (12 R268), its sub-arrays gated, no scratchpad set for blocks,
counters at 0 (log entry 6). -/
def Core.reset : Core :=
  { l1 := [], kc := [], ic := [], stores := [], copyQ := [], tileQ := [], chartQ := [], bankQ := [], linkQ := [], slotLine := [],
    accLine := [], regLine := [], window := [], issues := 0, lastIssue := 0, free := 0, chart := Chart.reset, clock := 940, since := 0, ticks := 0,
    scratch := 0, linkBad := false, tgate := 2048, gated := 15, worked := [], tlb := [], predict := [] }

/-- A context entry after device reset (DBGCTL and RESUME 0 by 17 R351, R345; the others by log entry 5). -/
def Context.reset : Context :=
  { root0 := 0, root1 := 0, root2 := 0, eff0 := none, eff1 := none, eff2 := none, saveBase := 0, saveSize := 0, dbgctl := 0, dbgBase := 0,
    resume := 0, miss := 0 }

/-- A launch queue after device reset (log entry 5): not enabled. -/
def Queue.reset : Queue :=
  { base := 0, en := false, ctx := 0, prio := 0, logn := 0, stop := false, cfault := false, why := 0, tail := 0, headDue := none, pending := [], current := none,
    waited := 0, wasReady := false }

/-- A pseudo-channel outside all-bank mode with no fault found (log entry 6; CERR counts from device reset, Table BNK-5). -/
def PChannel.reset : PChannel :=
  { holder := none, b := [], p := [], bfail := 0, cerr := [], remap := [], worn := [], calBy := none, hold := none }

/-- Trial registers after device reset (log entry 5). -/
def Trial.reset : Trial := { ctx := 0, dly := 0, len := 0, lo := 0, hi := 0, go := false, endAt := 0, record := [] }

/-- The machine right after device reset: nothing placed, nothing queued, LTOL 0 and under way (17 R346), counters 0 (10 R210),
L2WAY 0 (07 R141), measurement registers 0 (17 R349), memory with nothing listed (log entry 4). -/
def State.reset : State :=
  { cycle := 0, awake := 0, free := 0, oracle := [], inputs := [], nextId := 1, cur := none, stepB0 := true, mem := [], l2way := [], cores := [],
    sectorTlb := [], walkCache := [], contexts := [], groups := [], blocks := [], clusters := [], launches := [], queues := [],
    devQueues := [], lastServed := [], launchReqs := [], counters := [], net := [], podQ := [], replies := [], waypoints := [],
    probes := [], poisons := [], pchannels := [], device := 0, routes := 0, paused := [], retries := [], collectives := [], ltol := 0,
    rest := 0, idleFrom := none, wake := none, progress := [], trial := Trial.reset, soundings := [], logRegs := [], logHead := [], logDrops := [],
    dirty := [], replicas := [], invals := [],
    measure := [], extCount := [], resets := 0, answers := [], units := [], stowage := [] }

end Sys2Proof.Machine
end

