-- ==== Sys2Proof/Machine/Tab.lean ====
section
/-! DEFINITION. Sparse tables and small finite sets: the plain data the state is made of. -/

namespace Sys2Proof.Machine

/-- The entry of a key. -/
def Tab.find {β : Type} : Tab β → Nat → Option β
  | [], _ => none
  | (k, v) :: t, n => if k = n then some v else Tab.find t n

/-- The table without a key. -/
def Tab.erase {β : Type} : Tab β → Nat → Tab β
  | [], _ => []
  | (k, v) :: t, n => if k = n then Tab.erase t n else (k, v) :: Tab.erase t n

/-- An entry put before the first higher key. -/
def Tab.ins {β : Type} : Tab β → Nat → β → Tab β
  | [], n, v => [(n, v)]
  | (k, w) :: t, n, v => if n < k then (n, v) :: (k, w) :: t else (k, w) :: Tab.ins t n v

/-- The table with a key's entry replaced or made. -/
def Tab.put {β : Type} (t : Tab β) (n : Nat) (v : β) : Tab β := Tab.ins (Tab.erase t n) n v

/-- What a key reads as, `d` where it is not listed. -/
def Tab.get {β : Type} (d : β) (t : Tab β) (n : Nat) : β := (Tab.find t n).getD d

/-- The table after writing a key; writing `d` removes the entry, so that equal contents are equal tables. -/
def Tab.set {β : Type} [DecidableEq β] (d : β) (t : Tab β) (n : Nat) (v : β) : Tab β :=
  if v = d then Tab.erase t n else Tab.put t n v

/-- Changes a listed entry. -/
def Tab.change {β : Type} (t : Tab β) (n : Nat) (f : β → β) : Tab β :=
  match Tab.find t n with
  | none => t
  | some v => Tab.put t n (f v)

/-- Changes every entry. -/
def Tab.each {β : Type} (t : Tab β) (f : Nat → β → β) : Tab β := t.map fun e => (e.1, f e.1 e.2)

/-- The canonical form: keys strictly rising and no entry equal to `d`. -/
def Tab.wf {β : Type} [DecidableEq β] (d : β) : Tab β → Bool
  | [] => true
  | [(_, v)] => v ≠ d
  | (k, v) :: (l, w) :: t => (v ≠ d) && decide (k < l) && Tab.wf d ((l, w) :: t)

/-- The number whose bits below n are `f`. -/
def bitsUpTo (f : Nat → Bool) : Nat → Nat
  | 0 => 0
  | n + 1 => bitsUpTo f n + (if f n then 2 ^ n else 0)

/-- The n-bit set of the indexes where `f` holds. -/
def bitSet (n : Nat) (f : Nat → Bool) : BitVec n := BitVec.ofNat n (bitsUpTo f n)

/-- The members of a set, in increasing order. -/
def members {n : Nat} (x : BitVec n) : List Nat := (List.range n).filter x.getLsbD

/-- The number of members. -/
def size {n : Nat} (x : BitVec n) : Nat := (members x).length

/-- The lowest member, `d` where there is none. -/
def lowest {n : Nat} (d : Nat) (x : BitVec n) : Nat := (members x).headD d

/-- Runs `f` on each element in order. -/
def each {α β : Type} (l : List α) (f : α → β → β) (b : β) : β := l.foldl (fun b a => f a b) b

/-- The n low bits of x, as a number, at a position. -/
def bitsAt (x lo n : Nat) : Nat := x / 2 ^ lo % 2 ^ n

/-- A two's-complement reading of the low n bits (00 R6, SExt). -/
def sextN (x n : Nat) : Int :=
  let y := x % 2 ^ n
  if n ≠ 0 ∧ 2 ^ (n - 1) ≤ y then (y : Int) - 2 ^ n else y

end Sys2Proof.Machine
end

