-- ==== Sys2Proof/Machine/Float.lean ====
section
/-! DEFINITION. Binary floating point (06 R112-R117, R120, R126, R128): values as exact dyadic numbers m · 2^e, one rounding to a format, and
the exceptions each operation signals. Every function is exact up to its one rounding. -/

namespace Sys2Proof.Machine

/-- A format: exponent bits and fraction bits (Table FLT-1). -/
structure Fmt where
  eb : Nat
  fb : Nat
  deriving DecidableEq, Repr

def Fmt.f64 : Fmt := { eb := 11, fb := 52 }
def Fmt.f32 : Fmt := { eb := 8, fb := 23 }
def Fmt.f16 : Fmt := { eb := 5, fb := 10 }
def Fmt.bf16 : Fmt := { eb := 8, fb := 7 }

/-- RMODE[1:0] (Table FLT-2). -/
inductive RMode where
  | rne
  | rz
  | ru
  | rd
  deriving DecidableEq, Repr

def RMode.of (n : Nat) : RMode :=
  match n % 4 with
  | 0 => .rne
  | 1 => .rz
  | 2 => .ru
  | _ => .rd

/-! Exceptions, in the bit order of FPFLAGS (Table FLT-3). -/

def Fp.iv : Nat := 1
def Fp.dz : Nat := 2
def Fp.of : Nat := 4
def Fp.uf : Nat := 8
def Fp.ix : Nat := 16
def Fp.di : Nat := 32

/-- A result: the bits of its format, and the exceptions signalled. -/
structure FRes where
  bits  : Nat
  flags : Nat
  deriving DecidableEq, Repr

/-- A value: NaN (signalling or quiet), an infinity, or ±m · 2^e. -/
inductive FNum where
  | nan (sig : Bool)
  | inf (neg : Bool)
  | fin (neg : Bool) (m : Nat) (e : Int)
  deriving DecidableEq, Repr

def Fmt.bias (f : Fmt) : Int := 2 ^ (f.eb - 1) - 1
/-- Exponent of the smallest normal value. -/
def Fmt.emin (f : Fmt) : Int := 1 - f.bias
def Fmt.signBit (f : Fmt) (neg : Bool) : Nat := if neg then 2 ^ (f.eb + f.fb) else 0
/-- The bits of an infinity without sign. -/
def Fmt.top (f : Fmt) : Nat := (2 ^ f.eb - 1) * 2 ^ f.fb
/-- The canonical NaN (R112). -/
def Fmt.canon (f : Fmt) : Nat := f.top + 2 ^ (f.fb - 1)
def Fmt.nanRes (f : Fmt) (flags : Nat) : FRes := { bits := f.canon, flags := flags }
def Fmt.infRes (f : Fmt) (neg : Bool) (flags : Nat) : FRes := { bits := f.signBit neg + f.top, flags := flags }

/-- The value of a bit pattern. -/
def Fmt.num (f : Fmt) (bits : Nat) : FNum :=
  let frac := bitsAt bits 0 f.fb
  let ex := bitsAt bits f.fb f.eb
  let neg := bits.testBit (f.eb + f.fb)
  if ex = 2 ^ f.eb - 1 then (if frac = 0 then .inf neg else .nan (!frac.testBit (f.fb - 1)))
  else if ex = 0 then .fin neg frac (f.emin - f.fb)
  else .fin neg (2 ^ f.fb + frac) (ex - f.bias - f.fb)

/-- Rounds k + r/unit (and a little more where `sticky`) to an integer magnitude. -/
def roundMag (rm : RMode) (neg : Bool) (k r unit : Nat) (sticky : Bool) : Nat :=
  let twice := 2 * r + sticky.toNat
  let up : Bool :=
    match rm with
    | .rne => decide (unit < twice) || (twice == unit && k % 2 == 1)
    | .rz => false
    | .ru => !neg && decide (0 < twice)
    | .rd => neg && decide (0 < twice)
  if up then k + 1 else k

/-- m · 2^e in units of 2^q: whole part, remainder, size of a unit. -/
def inUnits (m : Nat) (e q : Int) : Nat × Nat × Nat :=
  if q ≤ e then (m * 2 ^ (e - q).toNat, 0, 1) else (m / 2 ^ (q - e).toNat, m % 2 ^ (q - e).toNat, 2 ^ (q - e).toNat)

/-- What an overflow delivers (R115). -/
def Fmt.overflow (f : Fmt) (rm : RMode) (neg : Bool) : FRes :=
  let toInf := match rm with
    | .rne => true
    | .rz => false
    | .ru => !neg
    | .rd => neg
  { bits := f.signBit neg + (if toInf then f.top else f.top - 1), flags := Fp.of + Fp.ix }

/-- `Round` (00 R6, 06 R115): ±(m · 2^e), plus less than 2^e more where `sticky`, to the format. A sticky value has at least two bits of m below the last
place of the result. -/
def Fmt.round (f : Fmt) (rm : RMode) (neg : Bool) (m : Nat) (e : Int) (sticky : Bool) : FRes :=
  if m = 0 ∧ !sticky then { bits := f.signBit neg, flags := 0 }
  else
    let top : Int := m.log2 + e
    let q := max (top - f.fb) (f.emin - f.fb)
    let u := inUnits m e q
    let k := roundMag rm neg u.1 u.2.1 u.2.2 sticky
    let inexact := decide (u.2.1 ≠ 0) || sticky
    let bits := ((q + f.fb + f.bias - 1) * 2 ^ f.fb + k).toNat
    if f.top ≤ bits then f.overflow rm neg
    else
      let w := inUnits m e (top - f.fb)
      let tiny := decide (top < f.emin - 1) || (decide (top = f.emin - 1) && decide (roundMag rm neg w.1 w.2.1 w.2.2 sticky < 2 ^ (f.fb + 1)))
      { bits := f.signBit neg + bits, flags := (if inexact then Fp.ix else 0) + (if tiny && inexact then Fp.uf else 0) }

/-! Sums and products. -/

def FNum.isNan : FNum → Bool
  | .nan _ => true
  | _ => false
def FNum.isSig : FNum → Bool
  | .nan g => g
  | _ => false
def FNum.negate : FNum → FNum
  | .nan g => .nan g
  | .inf n => .inf !n
  | .fin n m e => .fin (!n) m e
def FNum.sign : FNum → Bool
  | .nan _ => false
  | .inf n => n
  | .fin n _ _ => n
def FNum.isZero : FNum → Bool
  | .fin _ 0 _ => true
  | _ => false
def FNum.isInf (neg : Bool) : FNum → Bool
  | .inf n => n == neg
  | _ => false

/-- The exact product; 0 · ∞ is a NaN that signals invalid (R115, R117). -/
def FNum.mul (a b : FNum) : FNum :=
  match a, b with
  | .nan g, .nan h => .nan (g || h)
  | .nan g, _ => .nan g
  | _, .nan h => .nan h
  | .inf n, .inf k => .inf (n != k)
  | .inf n, .fin k m _ => if m = 0 then .nan true else .inf (n != k)
  | .fin n m _, .inf k => if m = 0 then .nan true else .inf (n != k)
  | .fin n m e, .fin k l f => .fin (n != k) (m * l) (e + f)

/-- The lowest exponent among the nonzero terms. -/
def lowestExp : List FNum → Option Int
  | [] => none
  | .fin _ m e :: t => if m = 0 then lowestExp t else some (match lowestExp t with
    | some x => min e x
    | none => e)
  | _ :: t => lowestExp t

def scaledSum (e0 : Int) : List FNum → Int
  | [] => 0
  | .fin n m e :: t => (if n then -((m : Int) * 2 ^ (e - e0).toNat) else (m : Int) * 2 ^ (e - e0).toNat) + scaledSum e0 t
  | _ :: t => scaledSum e0 t

/-- The exact sum of finite terms, with the sign of an exact zero by R115. -/
def finSum (rm : RMode) (ts : List FNum) : Bool × Nat × Int :=
  let e0 := (lowestExp ts).getD 0
  let v := scaledSum e0 (ts.filter fun t => !t.isZero)
  if v = 0 then (if ts.all (·.sign) then true else if ts.all fun t => !t.sign then false else rm == .rd, 0, e0)
  else (decide (v < 0), v.natAbs, e0)

/-- The sum of terms with one rounding; opposite infinities are invalid whatever the other terms hold (R115, R117, R123). -/
def Fmt.sum (f : Fmt) (rm : RMode) (ts : List FNum) : FRes :=
  let clash := ts.any (FNum.isInf true) && ts.any (FNum.isInf false)
  if ts.any (·.isNan) || clash then f.nanRes (if ts.any (·.isSig) || clash then Fp.iv else 0)
  else if ts.any (FNum.isInf true) then f.infRes true 0
  else if ts.any (FNum.isInf false) then f.infRes false 0
  else
    let v := finSum rm ts
    f.round rm v.1 v.2.1 v.2.2 false

def Fmt.add (f : Fmt) (rm : RMode) (a b : Nat) : FRes := f.sum rm [f.num a, f.num b]
def Fmt.sub (f : Fmt) (rm : RMode) (a b : Nat) : FRes := f.sum rm [f.num a, (f.num b).negate]
def Fmt.mul (f : Fmt) (rm : RMode) (a b : Nat) : FRes := f.sum rm [(f.num a).mul (f.num b)]
/-- a · b + d with one rounding. -/
def Fmt.fma (f : Fmt) (rm : RMode) (a b d : Nat) : FRes := f.sum rm [(f.num a).mul (f.num b), f.num d]
def Fmt.fms (f : Fmt) (rm : RMode) (a b d : Nat) : FRes := f.sum rm [(f.num a).mul (f.num b), (f.num d).negate]
/-- a.lo · b.lo + a.hi · b.hi + d, d in `g` (R123). -/
def Fmt.dot2 (f g : Fmt) (rm : RMode) (a b d : Nat) : FRes :=
  let h (x : Nat) : FNum × FNum := (f.num (x % 2 ^ 16), f.num (x / 2 ^ 16 % 2 ^ 16))
  g.sum rm [(h a).1.mul (h b).1, (h a).2.mul (h b).2, g.num d]

/-! Minimum, maximum, sign changes (R117). -/

/-- A key that orders numbers, -0 below +0. -/
def Fmt.key (f : Fmt) (x : Nat) : Int :=
  let mag : Nat := x % 2 ^ (f.eb + f.fb)
  if x.testBit (f.eb + f.fb) then -(mag : Int) - 1 else mag
/-- A key that orders numbers with -0 and +0 equal. -/
def Fmt.value (f : Fmt) (x : Nat) : Int :=
  let mag : Nat := x % 2 ^ (f.eb + f.fb)
  if x.testBit (f.eb + f.fb) then -(mag : Int) else mag

def Fmt.isNan (f : Fmt) (x : Nat) : Bool := (f.num x).isNan

def Fmt.pick (f : Fmt) (first : Bool) (a b : Nat) : FRes :=
  let fl := if (f.num a).isSig || (f.num b).isSig then Fp.iv else 0
  if f.isNan a then (if f.isNan b then f.nanRes fl else { bits := b, flags := fl })
  else if f.isNan b then { bits := a, flags := fl }
  else { bits := if first then a else b, flags := fl }
def Fmt.min (f : Fmt) (a b : Nat) : FRes := f.pick (decide (f.key a ≤ f.key b)) a b
def Fmt.max (f : Fmt) (a b : Nat) : FRes := f.pick (decide (f.key b ≤ f.key a)) a b

/-- A number with a given sign; a NaN becomes the canonical one. -/
def Fmt.withSign (f : Fmt) (neg : Bool) (a : Nat) : FRes :=
  if f.isNan a then f.nanRes 0 else { bits := f.signBit neg + a % 2 ^ (f.eb + f.fb), flags := 0 }
def Fmt.abs (f : Fmt) (a : Nat) : FRes := f.withSign false a
def Fmt.neg (f : Fmt) (a : Nat) : FRes := f.withSign (!a.testBit (f.eb + f.fb)) a
def Fmt.copysign (f : Fmt) (a b : Nat) : FRes := f.withSign (b.testBit (f.eb + f.fb)) a

/-! Integral values (R120, R128). -/

/-- The integral magnitude of ±m · 2^e, and whether it differs. -/
def integral (rm : RMode) (neg : Bool) (m : Nat) (e : Int) : Nat × Bool :=
  let u := inUnits m e 0
  (roundMag rm neg u.1 u.2.1 u.2.2 false, decide (u.2.1 ≠ 0))

/-- `floor`, `ceil`, `trunc`, `rint`: only `rint` signals inexact. -/
def Fmt.toIntegral (f : Fmt) (rm : RMode) (signals : Bool) (a : Nat) : FRes :=
  match f.num a with
  | .nan g => f.nanRes (if g then Fp.iv else 0)
  | .inf n => f.infRes n 0
  | .fin n m e =>
    let k := integral rm n m e
    { bits := (f.round .rz n k.1 0 false).bits, flags := if signals && k.2 then Fp.ix else 0 }

/-- `fract.f32` (R120). -/
def fractF32 (rm : RMode) (a : Nat) : FRes :=
  match Fmt.f32.num a with
  | .nan g => Fmt.f32.nanRes (if g then Fp.iv else 0)
  | .inf _ => Fmt.f32.nanRes Fp.iv
  | .fin n m e =>
    let r := Fmt.f32.sum rm [.fin n m e, .fin (!n) (integral .rd n m e).1 0]
    let bits := if r.bits = 0x3F800000 then 0x3F7FFFFF else if r.bits = 0x80000000 then 0 else r.bits
    { bits := bits, flags := r.flags &&& Fp.ix }

/-- Conversion to an integer of range lo..hi, two's complement in n bits (R128). -/
def Fmt.toInt (f : Fmt) (rm : RMode) (lo hi : Int) (n : Nat) (a : Nat) : FRes :=
  let out (v : Int) (fl : Nat) : FRes := { bits := (v % 2 ^ n).toNat, flags := fl }
  match f.num a with
  | .nan _ => { bits := 0, flags := Fp.iv }
  | .inf neg => out (if neg then lo else hi) Fp.iv
  | .fin neg m e =>
    let k := integral rm neg m e
    let v : Int := if neg then -(k.1 : Int) else k.1
    if v < lo then out lo Fp.iv else if hi < v then out hi Fp.iv else out v (if k.2 then Fp.ix else 0)

/-- An integer rounded to the format (R127). -/
def Fmt.ofInt (f : Fmt) (rm : RMode) (v : Int) : FRes := f.round rm (decide (v < 0)) v.natAbs 0 false

/-- Conversion between formats (R127). -/
def Fmt.convert (f g : Fmt) (rm : RMode) (a : Nat) : FRes :=
  match f.num a with
  | .nan s => g.nanRes (if s then Fp.iv else 0)
  | .inf n => g.infRes n 0
  | .fin n m e => g.round rm n m e false

/-! Compares (Table FLT-9). -/

def Fmt.lt (f : Fmt) (a b : Nat) : Bool := !f.isNan a && !f.isNan b && decide (f.value a < f.value b)
def Fmt.le (f : Fmt) (a b : Nat) : Bool := !f.isNan a && !f.isNan b && decide (f.value a ≤ f.value b)
def Fmt.eq (f : Fmt) (a b : Nat) : Bool := !f.isNan a && !f.isNan b && decide (f.value a = f.value b)
/-- The exceptions of a compare; `ordered` for lt, le, gt and ge. -/
def Fmt.cmpFlags (f : Fmt) (ordered : Bool) (a b : Nat) : Nat :=
  if (f.num a).isSig || (f.num b).isSig || (ordered && (f.isNan a || f.isNan b)) then Fp.iv else 0

/-! Quotients and roots. -/

/-- The integer square root, by its bits from bit n - 1 down. -/
def isqrt (x : Nat) : Nat → Nat → Nat
  | 0, r => r
  | n + 1, r => isqrt x n (if (r + 2 ^ n) * (r + 2 ^ n) ≤ x then r + 2 ^ n else r)

def Fmt.div (f : Fmt) (rm : RMode) (a b : Nat) : FRes :=
  match f.num a, f.num b with
  | .nan g, .nan h => f.nanRes (if g || h then Fp.iv else 0)
  | .nan g, _ => f.nanRes (if g then Fp.iv else 0)
  | _, .nan h => f.nanRes (if h then Fp.iv else 0)
  | .inf _, .inf _ => f.nanRes Fp.iv
  | .inf n, .fin k _ _ => f.infRes (n != k) 0
  | .fin n _ _, .inf k => { bits := f.signBit (n != k), flags := 0 }
  | .fin n m e, .fin k l d =>
    if l = 0 then (if m = 0 then f.nanRes Fp.iv else f.infRes (n != k) Fp.dz)
    else if m = 0 then { bits := f.signBit (n != k), flags := 0 }
    else
      let sh := f.fb + 4 + l.log2
      f.round rm (n != k) (m * 2 ^ sh / l) (e - d - sh) (decide (m * 2 ^ sh % l ≠ 0))

def Fmt.one (f : Fmt) : Nat := (2 ^ (f.eb - 1) - 1) * 2 ^ f.fb

/-- An even exponent: m · 2^e as m' · 2^(2 h). -/
def evenExp (m : Nat) (e : Int) : Nat × Int := if e % 2 = 0 then (m, e / 2) else (2 * m, (e - 1) / 2)

def Fmt.sqrt (f : Fmt) (rm : RMode) (a : Nat) : FRes :=
  match f.num a with
  | .nan g => f.nanRes (if g then Fp.iv else 0)
  | .inf n => if n then f.nanRes Fp.iv else f.infRes false 0
  | .fin n m e =>
    if m = 0 then { bits := f.signBit n, flags := 0 }
    else if n then f.nanRes Fp.iv
    else
      let w := evenExp m e
      let x := w.1 * 2 ^ (2 * (f.fb + 4))
      let r := isqrt x (x.log2 / 2 + 1) 0
      f.round rm false r (w.2 - (f.fb + 4)) (decide (r * r ≠ x))

/-- 1/√a. -/
def Fmt.rsqrt (f : Fmt) (rm : RMode) (a : Nat) : FRes :=
  match f.num a with
  | .nan g => f.nanRes (if g then Fp.iv else 0)
  | .inf n => if n then f.nanRes Fp.iv else { bits := 0, flags := 0 }
  | .fin n m e =>
    if m = 0 then f.infRes n Fp.dz
    else if n then f.nanRes Fp.iv
    else
      let w := evenExp m e
      let t := f.fb + 4 + w.1.log2
      let x := 2 ^ (2 * t) / w.1
      let r := isqrt x (x.log2 / 2 + 1) 0
      f.round rm false r (-w.2 - t) (decide (r * r * w.1 ≠ 2 ^ (2 * t)))

/-! Transcendental functions (R126): the exact value to some 130 bits past its leading one, then one rounding. The inputs whose exact value the
format represents, or that lie exactly halfway, are met exactly; log entry 22 bounds the others. -/

/-- ⌊π · 2^420⌋ and ⌊ln 2 · 2^420⌋. -/
def piBits : Nat :=
  0x3243f6a8885a308d313198a2e03707344a4093822299f31d0082efa98ec4e6c89452821e638d01377be5466cf34e90c6cc0ac29b7c
def ln2Bits : Nat :=
  0xb17217f7d1cf79abc9e3b39803f2f6af40f343267298b62d8a0d175b8baafa2be7b876206debac98559552fb4afa1b10ed2eae35c

/-- Σ over n more terms of the series e^y in units of 2^-w, from term t of index i on. -/
def expSeries (w y : Nat) : Nat → Nat → Nat → Nat
  | 0, _, _ => 0
  | n + 1, i, t => t + expSeries w y n (i + 1) (t * y / 2 ^ w / (i + 1))

/-- sin y in units of 2^-w, as the terms added less the terms taken: index i odd, t its term. -/
def sinSeries (w y : Nat) : Nat → Nat → Int → Int
  | 0, _, _ => 0
  | n + 1, i, t => t + sinSeries w y n (i + 2) (-(t * y / 2 ^ w * y / 2 ^ w / ((i + 1) * (i + 2))))

/-- The bits of log2 of x · 2^-w in [1, 2), n of them. -/
def log2Bits (w : Nat) : Nat → Nat → Nat → Nat
  | 0, _, acc => acc
  | n + 1, x, acc =>
    let y := x * x / 2 ^ w
    if 2 ^ (w + 1) ≤ y then log2Bits w n (y / 2) (2 * acc + 1) else log2Bits w n y (2 * acc)

/-- ±m · 2^e in units of 2^-w, w large enough to be exact. -/
def fixed (w : Nat) (neg : Bool) (m : Nat) (e : Int) : Int :=
  let v : Int := m * 2 ^ (e + w).toNat
  if neg then -v else v

/-- 2^v for v in units of 2^-200. -/
def exp2Fixed (v : Int) : FRes :=
  let f := Fmt.f32
  let w := 200
  if 128 * 2 ^ w ≤ v then f.overflow .rne false
  else if v ≤ -512 * 2 ^ w then f.round .rne false 1 (-512) true
  else
    let k := v / 2 ^ w
    let r := (v % 2 ^ w).toNat
    if r = 0 then f.round .rne false 1 k false
    else f.round .rne false (expSeries w (r * (ln2Bits / 2 ^ 220) / 2 ^ w) 60 0 (2 ^ w)) (k - w) true

def exp2F32 (a : Nat) : FRes :=
  let f := Fmt.f32
  match f.num a with
  | .nan g => f.nanRes (if g then Fp.iv else 0)
  | .inf n => if n then { bits := 0, flags := 0 } else f.infRes false 0
  | .fin n m e =>
    if 0 ≤ f.value a ∧ 0x43000000 ≤ f.value a then f.overflow .rne false
    else if f.value a ≤ -0x44000000 then f.round .rne false 1 (-512) true
    else exp2Fixed (fixed 200 n m e)

def log2F32 (a : Nat) : FRes :=
  let f := Fmt.f32
  match f.num a with
  | .nan g => f.nanRes (if g then Fp.iv else 0)
  | .inf n => if n then f.nanRes Fp.iv else f.infRes false 0
  | .fin n m e =>
    if m = 0 then f.infRes true Fp.dz
    else if n then f.nanRes Fp.iv
    else
      let k : Int := m.log2 + e
      if m = 2 ^ m.log2 then f.ofInt .rne k
      else
        let v : Int := k * 2 ^ 140 + log2Bits 320 140 (m * 2 ^ (320 - m.log2)) 0
        if v < 0 then f.round .rne true (v.natAbs - 1) (-140) true else f.round .rne false v.natAbs (-140) true

/-- ±sin of 2π · r · 2^-w with 0 < r · 2^-w ≤ 1/4. -/
def sinTurn (neg : Bool) (r w : Nat) : FRes :=
  if r * 4 = 2 ^ w then Fmt.f32.round .rne neg 1 0 false
  else
    let y := r * piBits * 2 / 2 ^ 420
    Fmt.f32.round .rne neg (sinSeries w y 60 1 y).natAbs (-w) true

/-- The fraction bits a reduced angle keeps: 170 past its leading bit. -/
def turnBits (m : Nat) (e : Int) : Nat := 170 + (-(m.log2 + e)).toNat

/-- sin 2πa (an exact zero takes the sign of a). -/
def sin2piF32 (a : Nat) : FRes :=
  let f := Fmt.f32
  match f.num a with
  | .nan g => f.nanRes (if g then Fp.iv else 0)
  | .inf _ => f.nanRes Fp.iv
  | .fin n m e =>
    let w := turnBits m e
    let x := (fixed w false m e).toNat % 2 ^ w
    let half := 2 ^ (w - 1)
    let h := x % half
    if m = 0 ∨ h = 0 then { bits := f.signBit n, flags := 0 }
    else sinTurn (n != decide (half ≤ x)) (if 2 * h ≤ half then h else half - h) w

/-- cos 2πa (an exact zero is +0). -/
def cos2piF32 (a : Nat) : FRes :=
  let f := Fmt.f32
  match f.num a with
  | .nan g => f.nanRes (if g then Fp.iv else 0)
  | .inf _ => f.nanRes Fp.iv
  | .fin _ m e =>
    let w := turnBits m e
    let x := (fixed w false m e).toNat % 2 ^ w
    let quarter := 2 ^ (w - 2)
    let y := min x (2 ^ w - x)
    if y = quarter then { bits := 0, flags := 0 }
    else if y < quarter then sinTurn false (quarter - y) w
    else sinTurn true (y - quarter) w

end Sys2Proof.Machine
end

