-- ==== Sys2Proof/WellFormed.lean ====
section
/-! DEFINITION. Well-formed instruction words: the field values that Table ENC-7 and the format tables do not reserve (03 R57-R59).
Operand limits that raise OPND at issue are no matter of form; Sys2Proof/Machine/Operands.lean holds them. -/

namespace Sys2Proof

/-- The rows of the opcode table that are no instruction words: the part's own steps and events (spec/95). -/
def Instr.isWord : Instr → Bool
  | .clauseDecode _ _ => false
  | .resultWriteback _ _ => false
  | .asyncFault _ _ => false
  | .trapEntry _ => false
  | .killRecordWrite _ => false
  | .mgmtLaunchKill _ => false
  | .groupEnd _ => false
  | .launchComplete _ => false
  | .queueTailWrite _ => false
  | .launchRecordCopy _ => false
  | .blockPlacement _ => false
  | .qstatStopClear _ => false
  | .qstatCfaultClear _ => false
  | .mgmtRegisterWrite _ _ _ => false
  | .resumeWrite _ _ => false
  | .restctlWrite _ => false
  | .trgoWrite _ => false
  | .trialEnd => false
  | .restStateEntry => false
  | .restExit => false
  | .functionLevelReset => false
  | .deviceReset _ => false
  | .doeMeasurementRequest _ => false
  | .doeKeyRequest => false
  | .cxlMemAccess _ _ => false
  | .linkFlitRetry _ => false
  | .linkRetryExhausted _ => false
  | .peerReset _ => false
  | .peerRequest _ _ => false
  | .collectiveContribution _ => false
  | .serviceRequestEnqueue _ => false
  | .serviceRound _ => false
  | .serviceReply _ => false
  | .wayinComplete _ _ => false
  | .wayinTimeout _ _ => false
  | .waypointProbe _ _ => false
  | .waypointPoison _ _ => false
  | .wayskipFirm _ _ => false
  | .wayskipRemove _ _ => false
  | .joinComplete _ _ => false
  | .joinTimeout _ _ => false
  | .sleepEnd _ _ => false
  | .regacqGrant _ => false
  | .spill _ => false
  | .tclaimGrant _ _ => false
  | .fetchwFill _ => false
  | .launchAnswer _ _ => false
  | .engineCommandComplete _ _ => false
  | .engineBusyTimeout _ _ => false
  | .chartReset _ => false
  | .tlbWalk _ _ _ _ => false
  | .runaheadFetch _ _ => false
  | .clockStep _ _ => false
  | .subarrayGate _ _ => false
  | .preemptRequest _ => false
  | .preemptHandlerEntry _ => false
  | .preboundExpiry _ => false
  | .unitRestore _ => false
  | .debugRecordWrite _ => false
  | .wordNotAnInstruction _ => false
  | .writeAcknowledgedAtHome _ _ => false
  | .virtualChannelPause _ _ _ => false
  | .correctedError _ _ => false
  | .managementFirmwareStageLoad _ _ => false
  | .cxlCacheCoherenceRequest _ _ => false
  | .br _ _ _ => true
  | .call _ => true
  | .ret => true
  | .jmpi _ => true
  | .calli _ => true
  | .join _ _ => true
  | .exit => true
  | .yield _ => true
  | .sleep _ => true
  | .progress _ => true
  | .brkpt _ => true
  | .mand _ _ _ => true
  | .mor _ _ _ => true
  | .mxor _ _ _ => true
  | .mandn _ _ _ => true
  | .mnot _ _ => true
  | .mmov _ _ => true
  | .mall _ => true
  | .mnone _ => true
  | .mpopc _ _ => true
  | .mfirst _ _ => true
  | .mtos _ _ _ => true
  | .stom _ _ _ => true
  | .mlanes _ _ => true
  | .addI32 _ _ _ => true
  | .subI32 _ _ _ => true
  | .mulloI32 _ _ _ => true
  | .mulhiI32 _ _ _ => true
  | .mulhiN32 _ _ _ => true
  | .and _ _ _ => true
  | .or _ _ _ => true
  | .xor _ _ _ => true
  | .andn _ _ _ => true
  | .shl _ _ _ => true
  | .shrN32 _ _ _ => true
  | .shrI32 _ _ _ => true
  | .rotl _ _ _ => true
  | .minI32 _ _ _ => true
  | .maxI32 _ _ _ => true
  | .minN32 _ _ _ => true
  | .maxN32 _ _ _ => true
  | .absI32 _ _ => true
  | .popc _ _ => true
  | .clz _ _ => true
  | .brev _ _ => true
  | .bfeN32 _ _ _ => true
  | .bfeI32 _ _ _ => true
  | .bfi _ _ _ => true
  | .sel _ _ _ _ => true
  | .addi _ _ _ => true
  | .andi _ _ _ => true
  | .ori _ _ _ => true
  | .xori _ _ _ => true
  | .movzLo _ _ => true
  | .movzHi _ _ => true
  | .movkLo _ _ => true
  | .movkHi _ _ => true
  | .icmpEq _ _ _ => true
  | .icmpNe _ _ _ => true
  | .icmpLtI32 _ _ _ => true
  | .icmpLeI32 _ _ _ => true
  | .icmpGtI32 _ _ _ => true
  | .icmpGeI32 _ _ _ => true
  | .icmpLtN32 _ _ _ => true
  | .icmpLeN32 _ _ _ => true
  | .icmpGtN32 _ _ _ => true
  | .icmpGeN32 _ _ _ => true
  | .icmpEqI64 _ _ _ => true
  | .icmpLtI64 _ _ _ => true
  | .icmpLtN64 _ _ _ => true
  | .addI64 _ _ _ => true
  | .subI64 _ _ _ => true
  | .mulI64 _ _ _ => true
  | .shlI64 _ _ _ => true
  | .shrN64 _ _ _ => true
  | .shrI64 _ _ _ => true
  | .sextI64 _ _ => true
  | .zextI64 _ _ => true
  | .leaX1 _ _ _ => true
  | .leaX2 _ _ _ => true
  | .leaX4 _ _ _ => true
  | .leaX8 _ _ _ => true
  | .leaX16 _ _ _ => true
  | .addI16x2 _ _ _ => true
  | .subI16x2 _ _ _ => true
  | .addsI16x2 _ _ _ => true
  | .subsI16x2 _ _ _ => true
  | .minI16x2 _ _ _ => true
  | .maxI16x2 _ _ _ => true
  | .gtbitsI16x2 _ _ _ => true
  | .shrI16x2 _ _ _ => true
  | .packI16x2 _ _ _ => true
  | .sext8 _ _ => true
  | .sext16 _ _ => true
  | .zext8 _ _ => true
  | .zext16 _ _ => true
  | .msadB4 _ _ _ _ => true
  | .addF32 _ _ _ => true
  | .subF32 _ _ _ => true
  | .mulF32 _ _ _ => true
  | .fmaF32 _ _ _ => true
  | .fmsF32 _ _ _ => true
  | .minF32 _ _ _ => true
  | .maxF32 _ _ _ => true
  | .absF32 _ _ => true
  | .negF32 _ _ => true
  | .copysignF32 _ _ _ => true
  | .floorF32 _ _ => true
  | .ceilF32 _ _ => true
  | .truncF32 _ _ => true
  | .rintF32 _ _ => true
  | .fractF32 _ _ => true
  | .addF64 _ _ _ => true
  | .subF64 _ _ _ => true
  | .mulF64 _ _ _ => true
  | .fmaF64 _ _ _ => true
  | .fmsF64 _ _ _ => true
  | .minF64 _ _ _ => true
  | .maxF64 _ _ _ => true
  | .absF64 _ _ => true
  | .negF64 _ _ => true
  | .floorF64 _ _ => true
  | .ceilF64 _ _ => true
  | .truncF64 _ _ => true
  | .rintF64 _ _ => true
  | .divF64 _ _ _ => true
  | .sqrtF64 _ _ => true
  | .addF16x2 _ _ _ => true
  | .mulF16x2 _ _ _ => true
  | .fmaF16x2 _ _ _ => true
  | .minF16x2 _ _ _ => true
  | .maxF16x2 _ _ _ => true
  | .addBf16x2 _ _ _ => true
  | .mulBf16x2 _ _ _ => true
  | .fmaBf16x2 _ _ _ => true
  | .dot2F32F16 _ _ _ => true
  | .dot2F32Bf16 _ _ _ => true
  | .fcmpEqF32 _ _ _ => true
  | .fcmpNeF32 _ _ _ => true
  | .fcmpLtF32 _ _ _ => true
  | .fcmpLeF32 _ _ _ => true
  | .fcmpGtF32 _ _ _ => true
  | .fcmpGeF32 _ _ _ => true
  | .fcmpOrdF32 _ _ _ => true
  | .fcmpUnordF32 _ _ _ => true
  | .fcmpEqF64 _ _ _ => true
  | .fcmpNeF64 _ _ _ => true
  | .fcmpLtF64 _ _ _ => true
  | .fcmpLeF64 _ _ _ => true
  | .fcmpGtF64 _ _ _ => true
  | .fcmpGeF64 _ _ _ => true
  | .fcmpOrdF64 _ _ _ => true
  | .fcmpUnordF64 _ _ _ => true
  | .exp2F32 _ _ => true
  | .log2F32 _ _ => true
  | .rcpF32 _ _ => true
  | .rsqF32 _ _ => true
  | .sqrtF32 _ _ => true
  | .divF32 _ _ _ => true
  | .sin2piF32 _ _ => true
  | .cos2piF32 _ _ => true
  | .cvtF32F16lo _ _ => true
  | .cvtF32F16hi _ _ => true
  | .cvtF16x2F32 _ _ _ => true
  | .cvtF32Bf16lo _ _ => true
  | .cvtF32Bf16hi _ _ => true
  | .cvtBf16x2F32 _ _ _ => true
  | .cvtF64F32 _ _ => true
  | .cvtF32F64 _ _ => true
  | .cvtF32I32 _ _ => true
  | .cvtF32N32 _ _ => true
  | .cvtI32F32 _ _ => true
  | .cvtN32F32 _ _ => true
  | .cvtF64I64 _ _ => true
  | .cvtI64F64 _ _ => true
  | .cvtF64I32 _ _ => true
  | .cvtI32F64 _ _ => true
  | .rbox _ _ _ => true
  | .rtri _ _ _ => true
  | .edgec _ _ _ => true
  | .cullbf _ _ => true
  | .cullbx _ _ => true
  | .lpick _ _ _ => true
  | .lswap _ _ _ => true
  | .lrotu _ _ _ => true
  | .lrotd _ _ _ => true
  | .bcast _ _ _ => true
  | .ddxF32 _ _ => true
  | .ddyF32 _ _ => true
  | .vrdi _ _ => true
  | .vwri _ _ => true
  | .rdlane _ _ _ => true
  | .wrlane _ _ _ => true
  | .raddI32 _ _ => true
  | .rmaxI32 _ _ => true
  | .rminI32 _ _ => true
  | .raddF32 _ _ => true
  | .ballot _ _ => true
  | .ld8n _ _ _ => true
  | .ld8i _ _ _ => true
  | .ld16n _ _ _ => true
  | .ld16i _ _ _ => true
  | .ld32 _ _ _ => true
  | .ld64 _ _ _ => true
  | .ld128 _ _ _ => true
  | .ldx8n _ _ _ => true
  | .ldx8i _ _ _ => true
  | .ldx16n _ _ _ => true
  | .ldx16i _ _ _ => true
  | .ldx32 _ _ _ => true
  | .ldx64 _ _ _ => true
  | .ldx128 _ _ _ => true
  | .st8 _ _ _ => true
  | .st16 _ _ _ => true
  | .st32 _ _ _ => true
  | .st64 _ _ _ => true
  | .st128 _ _ _ => true
  | .stx8 _ _ _ => true
  | .stx16 _ _ _ => true
  | .stx32 _ _ _ => true
  | .stx64 _ _ _ => true
  | .stx128 _ _ _ => true
  | .ldk32 _ _ _ => true
  | .ldk64 _ _ _ => true
  | .ldk128 _ _ _ => true
  | .lda32 _ _ _ => true
  | .lda64 _ _ _ => true
  | .stl32 _ _ _ => true
  | .stl64 _ _ _ => true
  | .fence _ _ _ => true
  | .pfence _ => true
  | .icinv _ => true
  | .icinvAll => true
  | .prefL1 _ _ => true
  | .prefL2 _ _ => true
  | .atomAddI32 _ _ _ => true
  | .atomAddI64 _ _ _ => true
  | .atomMinI32 _ _ _ => true
  | .atomMaxI32 _ _ _ => true
  | .atomMinN32 _ _ _ => true
  | .atomMaxN32 _ _ _ => true
  | .atomAnd32 _ _ _ => true
  | .atomOr32 _ _ _ => true
  | .atomXor32 _ _ _ => true
  | .atomXchg32 _ _ _ => true
  | .atomXchg64 _ _ _ => true
  | .atomCas32 _ _ _ => true
  | .atomCas64 _ _ _ => true
  | .atomAddF32 _ _ _ => true
  | .atomIncN32 _ _ _ => true
  | .atomDecN32 _ _ _ => true
  | .wayin _ _ => true
  | .wayout _ => true
  | .wayskip _ _ => true
  | .waytry _ _ _ => true
  | .wayclose _ => true
  | .wayqry _ _ => true
  | .barArrive _ => true
  | .barWait _ => true
  | .barSync _ => true
  | .barAlloc _ _ => true
  | .barFree _ => true
  | .cbarArrive _ => true
  | .cbarWait _ => true
  | .cbarSync _ => true
  | .gbarSync => true
  | .spawn _ _ => true
  | .fetchw _ => true
  | .regacq => true
  | .regrel => true
  | .regroup _ => true
  | .launch _ _ => true
  | .preok => true
  | .srd _ _ => true
  | .swr _ _ => true
  | .copyG2s _ _ _ _ _ => true
  | .copyS2g _ _ _ _ _ => true
  | .copyG2o _ _ _ _ _ => true
  | .copyS2o _ _ _ _ _ => true
  | .copyG2g _ _ _ _ _ => true
  | .copyFill _ _ _ _ _ => true
  | .tmma _ _ _ _ _ => true
  | .tmms _ _ _ _ _ => true
  | .tzero _ _ => true
  | .tld _ _ _ _ => true
  | .tst _ _ _ _ => true
  | .tclaim _ _ _ => true
  | .tclaimAcc _ _ _ => true
  | .trelSlot _ _ => true
  | .trelAcc _ _ => true
  | .tcfg _ _ _ _ => true
  | .chexp _ _ _ _ => true
  | .chopAdd _ _ _ => true
  | .chopSub _ _ _ => true
  | .chopMul _ _ _ => true
  | .chopFma _ _ _ => true
  | .chopMin _ _ _ => true
  | .chopMax _ _ _ => true
  | .chopExp2 _ _ => true
  | .chopRcp _ _ => true
  | .chopMov _ _ => true
  | .chopSel _ _ _ => true
  | .chopLt _ _ => true
  | .chopLe _ _ => true
  | .chopEq _ _ => true
  | .chopNe _ _ => true
  | .chenabPush => true
  | .chenabPop => true
  | .chenabElse => true
  | .chenabAll => true
  | .chld _ _ _ _ => true
  | .chst _ _ _ _ _ => true
  | .chvis _ _ => true
  | .chown _ _ => true
  | .chrel => true
  | .chorg _ => true
  | .chorgRd _ => true
  | .chset _ _ _ => true
  | .chcubic _ _ _ => true
  | .bkmodeOn _ _ _ _ _ => true
  | .bkmodeOff _ _ _ _ _ => true
  | .bkload _ _ _ _ _ _ _ => true
  | .bkmac _ _ _ _ _ _ _ => true
  | .bkread _ _ _ _ _ => true
  | .bkcalCal _ _ _ _ _ => true
  | .bkcalBist _ _ _ _ _ => true
  | .bkcalRemap _ _ _ _ _ => true
  | .bkstat _ _ _ _ _ => true
  | .collRed _ _ _ _ _ => true
  | .collRedq _ _ _ _ _ => true
  | .collBcast _ _ _ _ _ => true
  | .collGather _ _ _ _ _ => true
  | .lput _ _ _ _ _ => true
  | .lget _ _ _ _ _ => true
  | .trap _ => true
  | .tret => true
  | .tlbinvPage _ _ => true
  | .tlbinvCtx _ => true
  | .tlbinvAll => true
  | .l2way _ => true
  | .l2wayRd _ => true
  | .stop => true
  | .sndgOn _ => true
  | .sndgOff => true
  | .sndgRd _ => true

/-- No field holds a reserved value: `fence` names a release or an acquire (07 R148), `pfence` a path (07 R149), `tcfg` a listed MODE and TACK with TACK 0
outside BFP-tack (12 R255), `chexp` a listed KIND and EOP (13 R276), `chcubic` a listed EOP (13 R281), `chld` SEL 0 or 1, `chst` SEL
0 to 2 (13 R276, R287), `tld` and `tst` a listed CV (12 R255). -/
def Instr.fieldsOk : Instr → Bool
  | .fence r q _ => r ≠ 0 || q ≠ 0
  | .pfence p => p ≠ 0
  | .tcfg _ _ m k => m ≠ 3 && k ≠ 3 && (m == 2 || k == 0)
  | .chexp _ _ k e => decide (k.toNat ≤ 2) && e ≠ 3
  | .chcubic _ _ e => e ≠ 3
  | .chld _ _ _ s => decide (s.toNat ≤ 1)
  | .chst _ _ _ s _ => s ≠ 3
  | .tld _ _ _ v => v ≠ 3
  | .tst _ _ _ v => v ≠ 3
  | _ => true

/-- A word the encoder writes and the decoder reads back. -/
def Instr.wellFormed (i : Instr) : Bool := i.isWord && i.fieldsOk

end Sys2Proof
end

