-- ==== Sys2Proof/Decode.lean ====
section
/-! DEFINITION. The decoder and the encoder of instruction words and of the clause head (spec/03 R42-R59, Tables ENC-1, ENC-5, ENC-7,
and the format tables of each class chapter). A word is read as a natural number: C at 2^31, the major at 2^25, the minor at 2^21. -/

namespace Sys2Proof

/-- Why a word in a valid slot is no instruction (Table ENC-8): a reserved major, minor or SZ, a must-be-zero bit or a
reserved field value, or too few bytes to make a word. The first two raise ILLOP (03 R59). -/
inductive Reject where
  | reservedOpcode
  | mustBeZero
  | short
  deriving DecidableEq, Repr

namespace Fmt

/-! Each format is a pair: `enc…` places the fields in bits [24:0] (below the selector), `dec…` reads them and answers none where a
bit outside the fields differs from the fixed value `x` (0 where none is named). -/

def encBr (n : BitVec 1) (k : BitVec 3) (d : BitVec 21) : Nat := n.toNat * 16777216 + k.toNat * 2097152 + d.toNat
def decBr (p : Nat) : Option (BitVec 1 × BitVec 3 × BitVec 21) :=
  some (BitVec.ofNat 1 (p / 16777216), BitVec.ofNat 3 (p / 2097152), BitVec.ofNat 21 p)
def encCall (d : BitVec 21) : Nat := d.toNat
def decCall (p : Nat) : Option (BitVec 21) :=
  if p / 2097152 % 16 = 0 then some (BitVec.ofNat 21 p) else none
def encFix (x : Nat) : Nat := x
def decFix (x : Nat) (p : Nat) : Option (Unit) :=
  if p % 2097152 = x then some () else none
def encOpd (p : BitVec 7) : Nat := p.toNat * 16384
def decOpd (p : Nat) : Option (BitVec 7) :=
  if p % 16384 = 0 then some (BitVec.ofNat 7 (p / 16384)) else none
def encJoin (k : BitVec 3) (n : BitVec 14) : Nat := k.toNat * 16384 + n.toNat
def decJoin (p : Nat) : Option (BitVec 3 × BitVec 14) :=
  if p / 131072 % 16 = 0 then some (BitVec.ofNat 3 (p / 16384), BitVec.ofNat 14 p) else none
def encImm5 (n : BitVec 5) : Nat := n.toNat
def decImm5 (p : Nat) : Option (BitVec 5) :=
  if p / 32 % 65536 = 0 then some (BitVec.ofNat 5 p) else none
def encImm14 (n : BitVec 14) : Nat := n.toNat
def decImm14 (p : Nat) : Option (BitVec 14) :=
  if p / 16384 % 128 = 0 then some (BitVec.ofNat 14 p) else none
def encImm4 (n : BitVec 4) : Nat := n.toNat
def decImm4 (p : Nat) : Option (BitVec 4) :=
  if p / 16 % 131072 = 0 then some (BitVec.ofNat 4 p) else none
def encImm8 (n : BitVec 8) : Nat := n.toNat
def decImm8 (p : Nat) : Option (BitVec 8) :=
  if p / 256 % 8192 = 0 then some (BitVec.ofNat 8 p) else none
def encMask3 (d : BitVec 3) (a : BitVec 3) (b : BitVec 3) : Nat := d.toNat * 16384 + a.toNat * 128 + b.toNat
def decMask3 (p : Nat) : Option (BitVec 3 × BitVec 3 × BitVec 3) :=
  if p / 131072 % 16 = 0 ∧ p / 1024 % 16 = 0 ∧ p / 8 % 16 = 0 then some (BitVec.ofNat 3 (p / 16384), BitVec.ofNat 3 (p / 128), BitVec.ofNat 3 p) else none
def encMask2 (d : BitVec 3) (a : BitVec 3) : Nat := d.toNat * 16384 + a.toNat * 128
def decMask2 (p : Nat) : Option (BitVec 3 × BitVec 3) :=
  if p / 131072 % 16 = 0 ∧ p / 1024 % 16 = 0 ∧ p % 128 = 0 then some (BitVec.ofNat 3 (p / 16384), BitVec.ofNat 3 (p / 128)) else none
def encMask1 (d : BitVec 3) : Nat := d.toNat * 16384
def decMask1 (p : Nat) : Option (BitVec 3) :=
  if p / 131072 % 16 = 0 ∧ p % 16384 = 0 then some (BitVec.ofNat 3 (p / 16384)) else none
def encSMask (d : BitVec 7) (a : BitVec 3) : Nat := d.toNat * 16384 + a.toNat * 128
def decSMask (p : Nat) : Option (BitVec 7 × BitVec 3) :=
  if p / 1024 % 16 = 0 ∧ p % 128 = 0 then some (BitVec.ofNat 7 (p / 16384), BitVec.ofNat 3 (p / 128)) else none
def encMtos (d : BitVec 7) (a : BitVec 3) (q : BitVec 2) : Nat := d.toNat * 16384 + a.toNat * 128 + q.toNat
def decMtos (p : Nat) : Option (BitVec 7 × BitVec 3 × BitVec 2) :=
  if p / 1024 % 16 = 0 ∧ p / 4 % 32 = 0 then some (BitVec.ofNat 7 (p / 16384), BitVec.ofNat 3 (p / 128), BitVec.ofNat 2 p) else none
def encStom (d : BitVec 3) (a : BitVec 7) (q : BitVec 2) : Nat := d.toNat * 16384 + a.toNat * 128 + q.toNat
def decStom (p : Nat) : Option (BitVec 3 × BitVec 7 × BitVec 2) :=
  if p / 131072 % 16 = 0 ∧ p / 4 % 32 = 0 then some (BitVec.ofNat 3 (p / 16384), BitVec.ofNat 7 (p / 128), BitVec.ofNat 2 p) else none
def encMaskS (d : BitVec 3) (a : BitVec 7) : Nat := d.toNat * 16384 + a.toNat * 128
def decMaskS (p : Nat) : Option (BitVec 3 × BitVec 7) :=
  if p / 131072 % 16 = 0 ∧ p % 128 = 0 then some (BitVec.ofNat 3 (p / 16384), BitVec.ofNat 7 (p / 128)) else none
def encRrr (d : BitVec 7) (a : BitVec 7) (b : BitVec 7) : Nat := d.toNat * 16384 + a.toNat * 128 + b.toNat
def decRrr (p : Nat) : Option (BitVec 7 × BitVec 7 × BitVec 7) :=
  some (BitVec.ofNat 7 (p / 16384), BitVec.ofNat 7 (p / 128), BitVec.ofNat 7 p)
def encRr (d : BitVec 7) (a : BitVec 7) : Nat := d.toNat * 16384 + a.toNat * 128
def decRr (p : Nat) : Option (BitVec 7 × BitVec 7) :=
  if p % 128 = 0 then some (BitVec.ofNat 7 (p / 16384), BitVec.ofNat 7 (p / 128)) else none
def encSel (k : BitVec 3) (d : BitVec 7) (a : BitVec 7) (b : BitVec 7) : Nat := k.toNat * 2097152 + d.toNat * 16384 + a.toNat * 128 + b.toNat
def decSel (p : Nat) : Option (BitVec 3 × BitVec 7 × BitVec 7 × BitVec 7) :=
  some (BitVec.ofNat 3 (p / 2097152), BitVec.ofNat 7 (p / 16384), BitVec.ofNat 7 (p / 128), BitVec.ofNat 7 p)
def encRi (d : BitVec 7) (a : BitVec 7) (i : BitVec 11) : Nat := d.toNat * 262144 + a.toNat * 2048 + i.toNat
def decRi (p : Nat) : Option (BitVec 7 × BitVec 7 × BitVec 11) :=
  some (BitVec.ofNat 7 (p / 262144), BitVec.ofNat 7 (p / 2048), BitVec.ofNat 11 p)
def encWi (d : BitVec 7) (i : BitVec 16) : Nat := d.toNat * 262144 + i.toNat
def decWi (p : Nat) : Option (BitVec 7 × BitVec 16) :=
  some (BitVec.ofNat 7 (p / 262144), BitVec.ofNat 16 p)
def encCmp (d : BitVec 3) (a : BitVec 7) (b : BitVec 7) : Nat := d.toNat * 16384 + a.toNat * 128 + b.toNat
def decCmp (p : Nat) : Option (BitVec 3 × BitVec 7 × BitVec 7) :=
  if p / 131072 % 16 = 0 then some (BitVec.ofNat 3 (p / 16384), BitVec.ofNat 7 (p / 128), BitVec.ofNat 7 p) else none
def encMsadB4 (min : BitVec 4) (d : BitVec 7) (a : BitVec 7) (b : BitVec 7) : Nat := min.toNat * 2097152 + d.toNat * 16384 + a.toNat * 128 + b.toNat
def decMsadB4 (p : Nat) : Option (BitVec 4 × BitVec 7 × BitVec 7 × BitVec 7) :=
  some (BitVec.ofNat 4 (p / 2097152), BitVec.ofNat 7 (p / 16384), BitVec.ofNat 7 (p / 128), BitVec.ofNat 7 p)
def encAb (a : BitVec 7) (b : BitVec 7) : Nat := a.toNat * 128 + b.toNat
def decAb (p : Nat) : Option (BitVec 7 × BitVec 7) :=
  if p / 16384 % 128 = 0 then some (BitVec.ofNat 7 (p / 128), BitVec.ofNat 7 p) else none
def encMem (d : BitVec 7) (a : BitVec 7) (o : BitVec 8) : Nat := d.toNat * 32768 + a.toNat * 256 + o.toNat
def decMem (p : Nat) : Option (BitVec 7 × BitVec 7 × BitVec 8) :=
  some (BitVec.ofNat 7 (p / 32768), BitVec.ofNat 7 (p / 256), BitVec.ofNat 8 p)
def encSync (s : BitVec 2) (d : BitVec 7) (a : BitVec 7) : Nat := s.toNat * 2097152 + d.toNat * 16384 + a.toNat * 128
def decSync (p : Nat) : Option (BitVec 2 × BitVec 7 × BitVec 7) :=
  if p % 128 = 0 then some (BitVec.ofNat 2 (p / 2097152), BitVec.ofNat 7 (p / 16384), BitVec.ofNat 7 (p / 128)) else none
def encFence (r : BitVec 1) (q : BitVec 1) (s : BitVec 2) : Nat := r.toNat * 8 + q.toNat * 4 + s.toNat
def decFence (p : Nat) : Option (BitVec 1 × BitVec 1 × BitVec 2) :=
  if p / 16 % 131072 = 0 then some (BitVec.ofNat 1 (p / 8), BitVec.ofNat 1 (p / 4), BitVec.ofNat 2 p) else none
def encPfence (p : BitVec 4) : Nat := p.toNat
def decPfence (p : Nat) : Option (BitVec 4) :=
  if p / 16 % 131072 = 0 then some (BitVec.ofNat 4 p) else none
def encPref (a : BitVec 7) (o : BitVec 8) : Nat := a.toNat * 256 + o.toNat
def decPref (p : Nat) : Option (BitVec 7 × BitVec 8) :=
  if p / 32768 % 128 = 0 then some (BitVec.ofNat 7 (p / 256), BitVec.ofNat 8 p) else none
def encA (a : BitVec 7) : Nat := a.toNat * 128
def decA (p : Nat) : Option (BitVec 7) :=
  if p / 16384 % 128 = 0 ∧ p % 128 = 0 then some (BitVec.ofNat 7 (p / 128)) else none
def encBarArrive (x : Nat) (o : BitVec 7) : Nat := o.toNat * 16384 + x
def decBarArrive (x : Nat) (p : Nat) : Option (BitVec 7) :=
  if p % 16384 = x then some (BitVec.ofNat 7 (p / 16384)) else none
def encBarAlloc (d : BitVec 7) (n : BitVec 6) : Nat := d.toNat * 16384 + n.toNat
def decBarAlloc (p : Nat) : Option (BitVec 7 × BitVec 6) :=
  if p / 64 % 256 = 0 then some (BitVec.ofNat 7 (p / 16384), BitVec.ofNat 6 p) else none
def encImm2 (n : BitVec 2) : Nat := n.toNat
def decImm2 (p : Nat) : Option (BitVec 2) :=
  if p / 4 % 524288 = 0 then some (BitVec.ofNat 2 p) else none
def encSpawn (d : BitVec 7) (i : BitVec 14) : Nat := d.toNat * 16384 + i.toNat
def decSpawn (p : Nat) : Option (BitVec 7 × BitVec 14) :=
  some (BitVec.ofNat 7 (p / 16384), BitVec.ofNat 14 p)
def encLaunch (p : BitVec 7) (n : BitVec 2) : Nat := p.toNat * 16384 + n.toNat
def decLaunch (p : Nat) : Option (BitVec 7 × BitVec 2) :=
  if p / 4 % 4096 = 0 then some (BitVec.ofNat 7 (p / 16384), BitVec.ofNat 2 p) else none
def encEng (x : Nat) (t : BitVec 5) (p : BitVec 5) (s : BitVec 2) (q : BitVec 1) (r : BitVec 1) : Nat := t.toNat * 65536 + p.toNat * 2048 + s.toNat * 512 + q.toNat * 256 + r.toNat * 128 + x
def decEng (x : Nat) (p : Nat) : Option (BitVec 5 × BitVec 5 × BitVec 2 × BitVec 1 × BitVec 1) :=
  if p % 128 = x then some (BitVec.ofNat 5 (p / 65536), BitVec.ofNat 5 (p / 2048), BitVec.ofNat 2 (p / 512), BitVec.ofNat 1 (p / 256), BitVec.ofNat 1 (p / 128)) else none
def encTmma (t : BitVec 5) (a : BitVec 3) (o : BitVec 6) (b : BitVec 6) (z : BitVec 1) : Nat := t.toNat * 65536 + a.toNat * 8192 + o.toNat * 128 + b.toNat * 2 + z.toNat
def decTmma (p : Nat) : Option (BitVec 5 × BitVec 3 × BitVec 6 × BitVec 6 × BitVec 1) :=
  some (BitVec.ofNat 5 (p / 65536), BitVec.ofNat 3 (p / 8192), BitVec.ofNat 6 (p / 128), BitVec.ofNat 6 (p / 2), BitVec.ofNat 1 p)
def encTAcc (x : Nat) (t : BitVec 5) (a : BitVec 3) : Nat := t.toNat * 65536 + a.toNat * 8192 + x
def decTAcc (x : Nat) (p : Nat) : Option (BitVec 5 × BitVec 3) :=
  if p % 8192 = x then some (BitVec.ofNat 5 (p / 65536), BitVec.ofNat 3 (p / 8192)) else none
def encTMove (t : BitVec 5) (a : BitVec 3) (p : BitVec 5) (v : BitVec 2) : Nat := t.toNat * 65536 + a.toNat * 8192 + p.toNat * 256 + v.toNat * 64
def decTMove (p : Nat) : Option (BitVec 5 × BitVec 3 × BitVec 5 × BitVec 2) :=
  if p % 64 = 0 then some (BitVec.ofNat 5 (p / 65536), BitVec.ofNat 3 (p / 8192), BitVec.ofNat 5 (p / 256), BitVec.ofNat 2 (p / 64)) else none
def encTclaim (x : Nat) (t : BitVec 5) (d : BitVec 5) (n : BitVec 6) : Nat := t.toNat * 65536 + d.toNat * 256 + x * 128 + n.toNat * 2
def decTclaim (x : Nat) (p : Nat) : Option (BitVec 5 × BitVec 5 × BitVec 6) :=
  if p / 8192 % 8 = 0 ∧ p / 128 % 2 = x ∧ p % 2 = 0 then some (BitVec.ofNat 5 (p / 65536), BitVec.ofNat 5 (p / 256), BitVec.ofNat 6 (p / 2)) else none
def encTrelSlot (t : BitVec 5) (o : BitVec 6) : Nat := t.toNat * 65536 + o.toNat * 128
def decTrelSlot (p : Nat) : Option (BitVec 5 × BitVec 6) :=
  if p / 8192 % 8 = 0 ∧ p % 128 = 0 then some (BitVec.ofNat 5 (p / 65536), BitVec.ofNat 6 (p / 128)) else none
def encTcfg (t : BitVec 5) (a : BitVec 3) (m : BitVec 2) (k : BitVec 2) : Nat := t.toNat * 65536 + a.toNat * 8192 + m.toNat * 2048 + k.toNat * 512
def decTcfg (p : Nat) : Option (BitVec 5 × BitVec 3 × BitVec 2 × BitVec 2) :=
  if p % 512 = 0 then some (BitVec.ofNat 5 (p / 65536), BitVec.ofNat 3 (p / 8192), BitVec.ofNat 2 (p / 2048), BitVec.ofNat 2 (p / 512)) else none
def encChexp (p : BitVec 5) (d : BitVec 4) (k : BitVec 3) (e : BitVec 2) : Nat := p.toNat * 65536 + d.toNat * 4096 + k.toNat * 512 + e.toNat * 128
def decChexp (p : Nat) : Option (BitVec 5 × BitVec 4 × BitVec 3 × BitVec 2) :=
  if p % 128 = 0 then some (BitVec.ofNat 5 (p / 65536), BitVec.ofNat 4 (p / 4096), BitVec.ofNat 3 (p / 512), BitVec.ofNat 2 (p / 128)) else none
def encChop3 (x : Nat) (d : BitVec 4) (a : BitVec 4) (b : BitVec 4) : Nat := d.toNat * 4096 + x * 256 + a.toNat * 16 + b.toNat
def decChop3 (x : Nat) (p : Nat) : Option (BitVec 4 × BitVec 4 × BitVec 4) :=
  if p / 65536 % 32 = 0 ∧ p / 256 % 16 = x then some (BitVec.ofNat 4 (p / 4096), BitVec.ofNat 4 (p / 16), BitVec.ofNat 4 p) else none
def encChop2 (x : Nat) (d : BitVec 4) (a : BitVec 4) : Nat := d.toNat * 4096 + x * 256 + a.toNat * 16
def decChop2 (x : Nat) (p : Nat) : Option (BitVec 4 × BitVec 4) :=
  if p / 65536 % 32 = 0 ∧ p / 256 % 16 = x ∧ p % 16 = 0 then some (BitVec.ofNat 4 (p / 4096), BitVec.ofNat 4 (p / 16)) else none
def encChopRel (x : Nat) (a : BitVec 4) (b : BitVec 4) : Nat := x * 256 + a.toNat * 16 + b.toNat
def decChopRel (x : Nat) (p : Nat) : Option (BitVec 4 × BitVec 4) :=
  if p / 256 % 8192 = x then some (BitVec.ofNat 4 (p / 16), BitVec.ofNat 4 p) else none
def encChld (p : BitVec 5) (d : BitVec 4) (t : BitVec 5) (s : BitVec 2) : Nat := p.toNat * 65536 + d.toNat * 4096 + t.toNat * 128 + s.toNat * 32
def decChld (p : Nat) : Option (BitVec 5 × BitVec 4 × BitVec 5 × BitVec 2) :=
  if p % 32 = 0 then some (BitVec.ofNat 5 (p / 65536), BitVec.ofNat 4 (p / 4096), BitVec.ofNat 5 (p / 128), BitVec.ofNat 2 (p / 32)) else none
def encChst (p : BitVec 5) (d : BitVec 4) (t : BitVec 5) (s : BitVec 2) (l : BitVec 1) : Nat := p.toNat * 65536 + d.toNat * 4096 + t.toNat * 128 + s.toNat * 32 + l.toNat * 16
def decChst (p : Nat) : Option (BitVec 5 × BitVec 4 × BitVec 5 × BitVec 2 × BitVec 1) :=
  if p % 16 = 0 then some (BitVec.ofNat 5 (p / 65536), BitVec.ofNat 4 (p / 4096), BitVec.ofNat 5 (p / 128), BitVec.ofNat 2 (p / 32), BitVec.ofNat 1 (p / 16)) else none
def encChvis (p : BitVec 5) (d : BitVec 4) : Nat := p.toNat * 65536 + d.toNat * 4096
def decChvis (p : Nat) : Option (BitVec 5 × BitVec 4) :=
  if p % 4096 = 0 then some (BitVec.ofNat 5 (p / 65536), BitVec.ofNat 4 (p / 4096)) else none
def encChown (d : BitVec 5) (e : BitVec 5) : Nat := d.toNat * 65536 + e.toNat * 128
def decChown (p : Nat) : Option (BitVec 5 × BitVec 5) :=
  if p / 4096 % 16 = 0 ∧ p % 128 = 0 then some (BitVec.ofNat 5 (p / 65536), BitVec.ofNat 5 (p / 128)) else none
def encChorg (s : BitVec 5) : Nat := s.toNat * 65536
def decChorg (p : Nat) : Option (BitVec 5) :=
  if p % 65536 = 0 then some (BitVec.ofNat 5 (p / 65536)) else none
def encChorgRd (x : Nat) (d : BitVec 5) : Nat := d.toNat * 65536 + x
def decChorgRd (x : Nat) (p : Nat) : Option (BitVec 5) :=
  if p % 65536 = x then some (BitVec.ofNat 5 (p / 65536)) else none
def encChset (s : BitVec 5) (d : BitVec 4) (l : BitVec 1) : Nat := s.toNat * 65536 + d.toNat * 4096 + l.toNat * 2048
def decChset (p : Nat) : Option (BitVec 5 × BitVec 4 × BitVec 1) :=
  if p % 2048 = 0 then some (BitVec.ofNat 5 (p / 65536), BitVec.ofNat 4 (p / 4096), BitVec.ofNat 1 (p / 2048)) else none
def encChcubic (x : Nat) (p : BitVec 5) (d : BitVec 4) (e : BitVec 2) : Nat := p.toNat * 65536 + d.toNat * 4096 + x * 512 + e.toNat * 128
def decChcubic (x : Nat) (p : Nat) : Option (BitVec 5 × BitVec 4 × BitVec 2) :=
  if p / 512 % 8 = x ∧ p % 128 = 0 then some (BitVec.ofNat 5 (p / 65536), BitVec.ofNat 4 (p / 4096), BitVec.ofNat 2 (p / 128)) else none
def encBkload (t : BitVec 5) (p : BitVec 5) (s : BitVec 2) (q : BitVec 1) (r : BitVec 1) (f : BitVec 1) (sc : BitVec 1) : Nat := t.toNat * 65536 + p.toNat * 2048 + s.toNat * 512 + q.toNat * 256 + r.toNat * 128 + f.toNat * 2 + sc.toNat
def decBkload (p : Nat) : Option (BitVec 5 × BitVec 5 × BitVec 2 × BitVec 1 × BitVec 1 × BitVec 1 × BitVec 1) :=
  if p / 4 % 32 = 0 then some (BitVec.ofNat 5 (p / 65536), BitVec.ofNat 5 (p / 2048), BitVec.ofNat 2 (p / 512), BitVec.ofNat 1 (p / 256), BitVec.ofNat 1 (p / 128), BitVec.ofNat 1 (p / 2), BitVec.ofNat 1 p) else none
def encBkmac (t : BitVec 5) (p : BitVec 5) (s : BitVec 2) (q : BitVec 1) (r : BitVec 1) (f : BitVec 1) (z : BitVec 1) : Nat := t.toNat * 65536 + p.toNat * 2048 + s.toNat * 512 + q.toNat * 256 + r.toNat * 128 + f.toNat * 2 + z.toNat
def decBkmac (p : Nat) : Option (BitVec 5 × BitVec 5 × BitVec 2 × BitVec 1 × BitVec 1 × BitVec 1 × BitVec 1) :=
  if p / 4 % 32 = 0 then some (BitVec.ofNat 5 (p / 65536), BitVec.ofNat 5 (p / 2048), BitVec.ofNat 2 (p / 512), BitVec.ofNat 1 (p / 256), BitVec.ofNat 1 (p / 128), BitVec.ofNat 1 (p / 2), BitVec.ofNat 1 p) else none
def encTlbinvPage (o : BitVec 7) (n : BitVec 6) : Nat := o.toNat * 16384 + n.toNat * 16
def decTlbinvPage (p : Nat) : Option (BitVec 7 × BitVec 6) :=
  if p / 1024 % 16 = 0 ∧ p % 16 = 0 then some (BitVec.ofNat 7 (p / 16384), BitVec.ofNat 6 (p / 16)) else none
def encTlbinvCtx (x : Nat) (n : BitVec 6) : Nat := n.toNat * 16 + x
def decTlbinvCtx (x : Nat) (p : Nat) : Option (BitVec 6) :=
  if p / 1024 % 2048 = 0 ∧ p % 16 = x then some (BitVec.ofNat 6 (p / 16)) else none

end Fmt

/-- A word from its chain bit, its major and the number in its bits [24:0] (03 R55). -/
def wordOf (c : BitVec 1) (major p : Nat) : Word := BitVec.ofNat 32 (c.toNat * 2147483648 + major * 33554432 + p)

/-- The word of an instruction with chain bit `c`; 0 for a step that is no word. -/
def encode (c : BitVec 1) : Instr → Word
  | .br n k d => wordOf c 0x01 (Fmt.encBr n k d)
  | .call d => wordOf c 0x02 (Fmt.encCall d)
  | .ret => wordOf c 0x03 (Fmt.encFix 0)
  | .jmpi p => wordOf c 0x03 (2097152 + Fmt.encOpd p)
  | .calli p => wordOf c 0x03 (4194304 + Fmt.encOpd p)
  | .join k n => wordOf c 0x03 (6291456 + Fmt.encJoin k n)
  | .exit => wordOf c 0x03 (8388608 + Fmt.encFix 0)
  | .yield n => wordOf c 0x03 (10485760 + Fmt.encImm5 n)
  | .sleep n => wordOf c 0x03 (12582912 + Fmt.encImm14 n)
  | .progress n => wordOf c 0x03 (14680064 + Fmt.encImm4 n)
  | .brkpt n => wordOf c 0x03 (16777216 + Fmt.encImm8 n)
  | .mand d a b => wordOf c 0x04 (Fmt.encMask3 d a b)
  | .mor d a b => wordOf c 0x04 (2097152 + Fmt.encMask3 d a b)
  | .mxor d a b => wordOf c 0x04 (4194304 + Fmt.encMask3 d a b)
  | .mandn d a b => wordOf c 0x04 (6291456 + Fmt.encMask3 d a b)
  | .mnot d a => wordOf c 0x04 (8388608 + Fmt.encMask2 d a)
  | .mmov d a => wordOf c 0x04 (10485760 + Fmt.encMask2 d a)
  | .mall d => wordOf c 0x04 (12582912 + Fmt.encMask1 d)
  | .mnone d => wordOf c 0x04 (14680064 + Fmt.encMask1 d)
  | .mpopc d a => wordOf c 0x04 (16777216 + Fmt.encSMask d a)
  | .mfirst d a => wordOf c 0x04 (18874368 + Fmt.encSMask d a)
  | .mtos d a q => wordOf c 0x04 (20971520 + Fmt.encMtos d a q)
  | .stom d a q => wordOf c 0x04 (23068672 + Fmt.encStom d a q)
  | .mlanes d a => wordOf c 0x04 (25165824 + Fmt.encMaskS d a)
  | .addI32 d a b => wordOf c 0x08 (Fmt.encRrr d a b)
  | .subI32 d a b => wordOf c 0x08 (2097152 + Fmt.encRrr d a b)
  | .mulloI32 d a b => wordOf c 0x08 (4194304 + Fmt.encRrr d a b)
  | .mulhiI32 d a b => wordOf c 0x08 (6291456 + Fmt.encRrr d a b)
  | .mulhiN32 d a b => wordOf c 0x08 (8388608 + Fmt.encRrr d a b)
  | .and d a b => wordOf c 0x08 (10485760 + Fmt.encRrr d a b)
  | .or d a b => wordOf c 0x08 (12582912 + Fmt.encRrr d a b)
  | .xor d a b => wordOf c 0x08 (14680064 + Fmt.encRrr d a b)
  | .andn d a b => wordOf c 0x08 (16777216 + Fmt.encRrr d a b)
  | .shl d a b => wordOf c 0x08 (18874368 + Fmt.encRrr d a b)
  | .shrN32 d a b => wordOf c 0x08 (20971520 + Fmt.encRrr d a b)
  | .shrI32 d a b => wordOf c 0x08 (23068672 + Fmt.encRrr d a b)
  | .rotl d a b => wordOf c 0x08 (25165824 + Fmt.encRrr d a b)
  | .minI32 d a b => wordOf c 0x08 (27262976 + Fmt.encRrr d a b)
  | .maxI32 d a b => wordOf c 0x08 (29360128 + Fmt.encRrr d a b)
  | .minN32 d a b => wordOf c 0x08 (31457280 + Fmt.encRrr d a b)
  | .maxN32 d a b => wordOf c 0x09 (Fmt.encRrr d a b)
  | .absI32 d a => wordOf c 0x09 (2097152 + Fmt.encRr d a)
  | .popc d a => wordOf c 0x09 (4194304 + Fmt.encRr d a)
  | .clz d a => wordOf c 0x09 (6291456 + Fmt.encRr d a)
  | .brev d a => wordOf c 0x09 (8388608 + Fmt.encRr d a)
  | .bfeN32 d a b => wordOf c 0x09 (10485760 + Fmt.encRrr d a b)
  | .bfeI32 d a b => wordOf c 0x09 (12582912 + Fmt.encRrr d a b)
  | .bfi d a b => wordOf c 0x09 (14680064 + Fmt.encRrr d a b)
  | .sel k d a b => wordOf c 0x09 (16777216 + Fmt.encSel k d a b)
  | .addi d a i => wordOf c 0x0A (Fmt.encRi d a i)
  | .andi d a i => wordOf c 0x0B (Fmt.encRi d a i)
  | .ori d a i => wordOf c 0x0C (Fmt.encRi d a i)
  | .xori d a i => wordOf c 0x0D (Fmt.encRi d a i)
  | .movzLo d i => wordOf c 0x0E (Fmt.encWi d i)
  | .movzHi d i => wordOf c 0x0E (65536 + Fmt.encWi d i)
  | .movkLo d i => wordOf c 0x0E (131072 + Fmt.encWi d i)
  | .movkHi d i => wordOf c 0x0E (196608 + Fmt.encWi d i)
  | .icmpEq d a b => wordOf c 0x0F (Fmt.encCmp d a b)
  | .icmpNe d a b => wordOf c 0x0F (2097152 + Fmt.encCmp d a b)
  | .icmpLtI32 d a b => wordOf c 0x0F (4194304 + Fmt.encCmp d a b)
  | .icmpLeI32 d a b => wordOf c 0x0F (6291456 + Fmt.encCmp d a b)
  | .icmpGtI32 d a b => wordOf c 0x0F (8388608 + Fmt.encCmp d a b)
  | .icmpGeI32 d a b => wordOf c 0x0F (10485760 + Fmt.encCmp d a b)
  | .icmpLtN32 d a b => wordOf c 0x0F (12582912 + Fmt.encCmp d a b)
  | .icmpLeN32 d a b => wordOf c 0x0F (14680064 + Fmt.encCmp d a b)
  | .icmpGtN32 d a b => wordOf c 0x0F (16777216 + Fmt.encCmp d a b)
  | .icmpGeN32 d a b => wordOf c 0x0F (18874368 + Fmt.encCmp d a b)
  | .icmpEqI64 d a b => wordOf c 0x0F (20971520 + Fmt.encCmp d a b)
  | .icmpLtI64 d a b => wordOf c 0x0F (23068672 + Fmt.encCmp d a b)
  | .icmpLtN64 d a b => wordOf c 0x0F (25165824 + Fmt.encCmp d a b)
  | .addI64 d a b => wordOf c 0x10 (Fmt.encRrr d a b)
  | .subI64 d a b => wordOf c 0x10 (2097152 + Fmt.encRrr d a b)
  | .mulI64 d a b => wordOf c 0x10 (4194304 + Fmt.encRrr d a b)
  | .shlI64 d a b => wordOf c 0x10 (6291456 + Fmt.encRrr d a b)
  | .shrN64 d a b => wordOf c 0x10 (8388608 + Fmt.encRrr d a b)
  | .shrI64 d a b => wordOf c 0x10 (10485760 + Fmt.encRrr d a b)
  | .sextI64 d a => wordOf c 0x10 (12582912 + Fmt.encRr d a)
  | .zextI64 d a => wordOf c 0x10 (14680064 + Fmt.encRr d a)
  | .leaX1 d a b => wordOf c 0x10 (16777216 + Fmt.encRrr d a b)
  | .leaX2 d a b => wordOf c 0x10 (18874368 + Fmt.encRrr d a b)
  | .leaX4 d a b => wordOf c 0x10 (20971520 + Fmt.encRrr d a b)
  | .leaX8 d a b => wordOf c 0x10 (23068672 + Fmt.encRrr d a b)
  | .leaX16 d a b => wordOf c 0x10 (25165824 + Fmt.encRrr d a b)
  | .addI16x2 d a b => wordOf c 0x11 (Fmt.encRrr d a b)
  | .subI16x2 d a b => wordOf c 0x11 (2097152 + Fmt.encRrr d a b)
  | .addsI16x2 d a b => wordOf c 0x11 (4194304 + Fmt.encRrr d a b)
  | .subsI16x2 d a b => wordOf c 0x11 (6291456 + Fmt.encRrr d a b)
  | .minI16x2 d a b => wordOf c 0x11 (8388608 + Fmt.encRrr d a b)
  | .maxI16x2 d a b => wordOf c 0x11 (10485760 + Fmt.encRrr d a b)
  | .gtbitsI16x2 d a b => wordOf c 0x11 (12582912 + Fmt.encRrr d a b)
  | .shrI16x2 d a b => wordOf c 0x11 (14680064 + Fmt.encRrr d a b)
  | .packI16x2 d a b => wordOf c 0x11 (16777216 + Fmt.encRrr d a b)
  | .sext8 d a => wordOf c 0x11 (18874368 + Fmt.encRr d a)
  | .sext16 d a => wordOf c 0x11 (20971520 + Fmt.encRr d a)
  | .zext8 d a => wordOf c 0x11 (23068672 + Fmt.encRr d a)
  | .zext16 d a => wordOf c 0x11 (25165824 + Fmt.encRr d a)
  | .msadB4 min d a b => wordOf c 0x13 (Fmt.encMsadB4 min d a b)
  | .addF32 d a b => wordOf c 0x14 (Fmt.encRrr d a b)
  | .subF32 d a b => wordOf c 0x14 (2097152 + Fmt.encRrr d a b)
  | .mulF32 d a b => wordOf c 0x14 (4194304 + Fmt.encRrr d a b)
  | .fmaF32 d a b => wordOf c 0x14 (6291456 + Fmt.encRrr d a b)
  | .fmsF32 d a b => wordOf c 0x14 (8388608 + Fmt.encRrr d a b)
  | .minF32 d a b => wordOf c 0x14 (10485760 + Fmt.encRrr d a b)
  | .maxF32 d a b => wordOf c 0x14 (12582912 + Fmt.encRrr d a b)
  | .absF32 d a => wordOf c 0x14 (14680064 + Fmt.encRr d a)
  | .negF32 d a => wordOf c 0x14 (16777216 + Fmt.encRr d a)
  | .copysignF32 d a b => wordOf c 0x14 (18874368 + Fmt.encRrr d a b)
  | .floorF32 d a => wordOf c 0x14 (20971520 + Fmt.encRr d a)
  | .ceilF32 d a => wordOf c 0x14 (23068672 + Fmt.encRr d a)
  | .truncF32 d a => wordOf c 0x14 (25165824 + Fmt.encRr d a)
  | .rintF32 d a => wordOf c 0x14 (27262976 + Fmt.encRr d a)
  | .fractF32 d a => wordOf c 0x14 (29360128 + Fmt.encRr d a)
  | .addF64 d a b => wordOf c 0x15 (Fmt.encRrr d a b)
  | .subF64 d a b => wordOf c 0x15 (2097152 + Fmt.encRrr d a b)
  | .mulF64 d a b => wordOf c 0x15 (4194304 + Fmt.encRrr d a b)
  | .fmaF64 d a b => wordOf c 0x15 (6291456 + Fmt.encRrr d a b)
  | .fmsF64 d a b => wordOf c 0x15 (8388608 + Fmt.encRrr d a b)
  | .minF64 d a b => wordOf c 0x15 (10485760 + Fmt.encRrr d a b)
  | .maxF64 d a b => wordOf c 0x15 (12582912 + Fmt.encRrr d a b)
  | .absF64 d a => wordOf c 0x15 (14680064 + Fmt.encRr d a)
  | .negF64 d a => wordOf c 0x15 (16777216 + Fmt.encRr d a)
  | .floorF64 d a => wordOf c 0x15 (18874368 + Fmt.encRr d a)
  | .ceilF64 d a => wordOf c 0x15 (20971520 + Fmt.encRr d a)
  | .truncF64 d a => wordOf c 0x15 (23068672 + Fmt.encRr d a)
  | .rintF64 d a => wordOf c 0x15 (25165824 + Fmt.encRr d a)
  | .divF64 d a b => wordOf c 0x15 (27262976 + Fmt.encRrr d a b)
  | .sqrtF64 d a => wordOf c 0x15 (29360128 + Fmt.encRr d a)
  | .addF16x2 d a b => wordOf c 0x16 (Fmt.encRrr d a b)
  | .mulF16x2 d a b => wordOf c 0x16 (2097152 + Fmt.encRrr d a b)
  | .fmaF16x2 d a b => wordOf c 0x16 (4194304 + Fmt.encRrr d a b)
  | .minF16x2 d a b => wordOf c 0x16 (6291456 + Fmt.encRrr d a b)
  | .maxF16x2 d a b => wordOf c 0x16 (8388608 + Fmt.encRrr d a b)
  | .addBf16x2 d a b => wordOf c 0x16 (10485760 + Fmt.encRrr d a b)
  | .mulBf16x2 d a b => wordOf c 0x16 (12582912 + Fmt.encRrr d a b)
  | .fmaBf16x2 d a b => wordOf c 0x16 (14680064 + Fmt.encRrr d a b)
  | .dot2F32F16 d a b => wordOf c 0x16 (16777216 + Fmt.encRrr d a b)
  | .dot2F32Bf16 d a b => wordOf c 0x16 (18874368 + Fmt.encRrr d a b)
  | .fcmpEqF32 d a b => wordOf c 0x17 (Fmt.encCmp d a b)
  | .fcmpNeF32 d a b => wordOf c 0x17 (2097152 + Fmt.encCmp d a b)
  | .fcmpLtF32 d a b => wordOf c 0x17 (4194304 + Fmt.encCmp d a b)
  | .fcmpLeF32 d a b => wordOf c 0x17 (6291456 + Fmt.encCmp d a b)
  | .fcmpGtF32 d a b => wordOf c 0x17 (8388608 + Fmt.encCmp d a b)
  | .fcmpGeF32 d a b => wordOf c 0x17 (10485760 + Fmt.encCmp d a b)
  | .fcmpOrdF32 d a b => wordOf c 0x17 (12582912 + Fmt.encCmp d a b)
  | .fcmpUnordF32 d a b => wordOf c 0x17 (14680064 + Fmt.encCmp d a b)
  | .fcmpEqF64 d a b => wordOf c 0x17 (16777216 + Fmt.encCmp d a b)
  | .fcmpNeF64 d a b => wordOf c 0x17 (18874368 + Fmt.encCmp d a b)
  | .fcmpLtF64 d a b => wordOf c 0x17 (20971520 + Fmt.encCmp d a b)
  | .fcmpLeF64 d a b => wordOf c 0x17 (23068672 + Fmt.encCmp d a b)
  | .fcmpGtF64 d a b => wordOf c 0x17 (25165824 + Fmt.encCmp d a b)
  | .fcmpGeF64 d a b => wordOf c 0x17 (27262976 + Fmt.encCmp d a b)
  | .fcmpOrdF64 d a b => wordOf c 0x17 (29360128 + Fmt.encCmp d a b)
  | .fcmpUnordF64 d a b => wordOf c 0x17 (31457280 + Fmt.encCmp d a b)
  | .exp2F32 d a => wordOf c 0x18 (Fmt.encRr d a)
  | .log2F32 d a => wordOf c 0x18 (2097152 + Fmt.encRr d a)
  | .rcpF32 d a => wordOf c 0x18 (4194304 + Fmt.encRr d a)
  | .rsqF32 d a => wordOf c 0x18 (6291456 + Fmt.encRr d a)
  | .sqrtF32 d a => wordOf c 0x18 (8388608 + Fmt.encRr d a)
  | .divF32 d a b => wordOf c 0x18 (10485760 + Fmt.encRrr d a b)
  | .sin2piF32 d a => wordOf c 0x18 (12582912 + Fmt.encRr d a)
  | .cos2piF32 d a => wordOf c 0x18 (14680064 + Fmt.encRr d a)
  | .cvtF32F16lo d a => wordOf c 0x19 (Fmt.encRr d a)
  | .cvtF32F16hi d a => wordOf c 0x19 (2097152 + Fmt.encRr d a)
  | .cvtF16x2F32 d a b => wordOf c 0x19 (4194304 + Fmt.encRrr d a b)
  | .cvtF32Bf16lo d a => wordOf c 0x19 (6291456 + Fmt.encRr d a)
  | .cvtF32Bf16hi d a => wordOf c 0x19 (8388608 + Fmt.encRr d a)
  | .cvtBf16x2F32 d a b => wordOf c 0x19 (10485760 + Fmt.encRrr d a b)
  | .cvtF64F32 d a => wordOf c 0x19 (12582912 + Fmt.encRr d a)
  | .cvtF32F64 d a => wordOf c 0x19 (14680064 + Fmt.encRr d a)
  | .cvtF32I32 d a => wordOf c 0x19 (16777216 + Fmt.encRr d a)
  | .cvtF32N32 d a => wordOf c 0x19 (18874368 + Fmt.encRr d a)
  | .cvtI32F32 d a => wordOf c 0x19 (20971520 + Fmt.encRr d a)
  | .cvtN32F32 d a => wordOf c 0x19 (23068672 + Fmt.encRr d a)
  | .cvtF64I64 d a => wordOf c 0x19 (25165824 + Fmt.encRr d a)
  | .cvtI64F64 d a => wordOf c 0x19 (27262976 + Fmt.encRr d a)
  | .cvtF64I32 d a => wordOf c 0x19 (29360128 + Fmt.encRr d a)
  | .cvtI32F64 d a => wordOf c 0x19 (31457280 + Fmt.encRr d a)
  | .rbox d a b => wordOf c 0x1A (Fmt.encRrr d a b)
  | .rtri d a b => wordOf c 0x1A (2097152 + Fmt.encRrr d a b)
  | .edgec d a b => wordOf c 0x1A (4194304 + Fmt.encRrr d a b)
  | .cullbf d a => wordOf c 0x1A (6291456 + Fmt.encRr d a)
  | .cullbx d a => wordOf c 0x1A (8388608 + Fmt.encRr d a)
  | .lpick d a b => wordOf c 0x1C (Fmt.encRrr d a b)
  | .lswap d a b => wordOf c 0x1C (2097152 + Fmt.encRrr d a b)
  | .lrotu d a b => wordOf c 0x1C (4194304 + Fmt.encRrr d a b)
  | .lrotd d a b => wordOf c 0x1C (6291456 + Fmt.encRrr d a b)
  | .bcast d a b => wordOf c 0x1C (8388608 + Fmt.encRrr d a b)
  | .ddxF32 d a => wordOf c 0x1C (10485760 + Fmt.encRr d a)
  | .ddyF32 d a => wordOf c 0x1C (12582912 + Fmt.encRr d a)
  | .vrdi d a => wordOf c 0x1C (14680064 + Fmt.encRr d a)
  | .vwri a b => wordOf c 0x1C (16777216 + Fmt.encAb a b)
  | .rdlane d a b => wordOf c 0x1C (18874368 + Fmt.encRrr d a b)
  | .wrlane d a b => wordOf c 0x1C (20971520 + Fmt.encRrr d a b)
  | .raddI32 d a => wordOf c 0x1C (23068672 + Fmt.encRr d a)
  | .rmaxI32 d a => wordOf c 0x1C (25165824 + Fmt.encRr d a)
  | .rminI32 d a => wordOf c 0x1C (27262976 + Fmt.encRr d a)
  | .raddF32 d a => wordOf c 0x1C (29360128 + Fmt.encRr d a)
  | .ballot d a => wordOf c 0x1C (31457280 + Fmt.encMaskS d a)
  | .ld8n d a o => wordOf c 0x20 (Fmt.encMem d a o)
  | .ld8i d a o => wordOf c 0x20 (4194304 + Fmt.encMem d a o)
  | .ld16n d a o => wordOf c 0x20 (8388608 + Fmt.encMem d a o)
  | .ld16i d a o => wordOf c 0x20 (12582912 + Fmt.encMem d a o)
  | .ld32 d a o => wordOf c 0x20 (16777216 + Fmt.encMem d a o)
  | .ld64 d a o => wordOf c 0x20 (20971520 + Fmt.encMem d a o)
  | .ld128 d a o => wordOf c 0x20 (25165824 + Fmt.encMem d a o)
  | .ldx8n d a b => wordOf c 0x21 (Fmt.encRrr d a b)
  | .ldx8i d a b => wordOf c 0x21 (2097152 + Fmt.encRrr d a b)
  | .ldx16n d a b => wordOf c 0x21 (4194304 + Fmt.encRrr d a b)
  | .ldx16i d a b => wordOf c 0x21 (6291456 + Fmt.encRrr d a b)
  | .ldx32 d a b => wordOf c 0x21 (8388608 + Fmt.encRrr d a b)
  | .ldx64 d a b => wordOf c 0x21 (10485760 + Fmt.encRrr d a b)
  | .ldx128 d a b => wordOf c 0x21 (12582912 + Fmt.encRrr d a b)
  | .st8 d a o => wordOf c 0x22 (Fmt.encMem d a o)
  | .st16 d a o => wordOf c 0x22 (8388608 + Fmt.encMem d a o)
  | .st32 d a o => wordOf c 0x22 (16777216 + Fmt.encMem d a o)
  | .st64 d a o => wordOf c 0x22 (20971520 + Fmt.encMem d a o)
  | .st128 d a o => wordOf c 0x22 (25165824 + Fmt.encMem d a o)
  | .stx8 d a b => wordOf c 0x23 (Fmt.encRrr d a b)
  | .stx16 d a b => wordOf c 0x23 (4194304 + Fmt.encRrr d a b)
  | .stx32 d a b => wordOf c 0x23 (8388608 + Fmt.encRrr d a b)
  | .stx64 d a b => wordOf c 0x23 (10485760 + Fmt.encRrr d a b)
  | .stx128 d a b => wordOf c 0x23 (12582912 + Fmt.encRrr d a b)
  | .ldk32 d a o => wordOf c 0x24 (16777216 + Fmt.encMem d a o)
  | .ldk64 d a o => wordOf c 0x24 (20971520 + Fmt.encMem d a o)
  | .ldk128 d a o => wordOf c 0x24 (25165824 + Fmt.encMem d a o)
  | .lda32 s d a => wordOf c 0x25 (Fmt.encSync s d a)
  | .lda64 s d a => wordOf c 0x25 (8388608 + Fmt.encSync s d a)
  | .stl32 s d a => wordOf c 0x25 (16777216 + Fmt.encSync s d a)
  | .stl64 s d a => wordOf c 0x25 (25165824 + Fmt.encSync s d a)
  | .fence r q s => wordOf c 0x26 (Fmt.encFence r q s)
  | .pfence p => wordOf c 0x26 (2097152 + Fmt.encPfence p)
  | .icinv p => wordOf c 0x26 (4194304 + Fmt.encOpd p)
  | .icinvAll => wordOf c 0x26 (4194304 + Fmt.encFix 1)
  | .prefL1 a o => wordOf c 0x27 (Fmt.encPref a o)
  | .prefL2 a o => wordOf c 0x27 (4194304 + Fmt.encPref a o)
  | .atomAddI32 d a b => wordOf c 0x28 (Fmt.encRrr d a b)
  | .atomAddI64 d a b => wordOf c 0x28 (2097152 + Fmt.encRrr d a b)
  | .atomMinI32 d a b => wordOf c 0x28 (4194304 + Fmt.encRrr d a b)
  | .atomMaxI32 d a b => wordOf c 0x28 (6291456 + Fmt.encRrr d a b)
  | .atomMinN32 d a b => wordOf c 0x28 (8388608 + Fmt.encRrr d a b)
  | .atomMaxN32 d a b => wordOf c 0x28 (10485760 + Fmt.encRrr d a b)
  | .atomAnd32 d a b => wordOf c 0x28 (12582912 + Fmt.encRrr d a b)
  | .atomOr32 d a b => wordOf c 0x28 (14680064 + Fmt.encRrr d a b)
  | .atomXor32 d a b => wordOf c 0x28 (16777216 + Fmt.encRrr d a b)
  | .atomXchg32 d a b => wordOf c 0x28 (18874368 + Fmt.encRrr d a b)
  | .atomXchg64 d a b => wordOf c 0x28 (20971520 + Fmt.encRrr d a b)
  | .atomCas32 d a b => wordOf c 0x28 (23068672 + Fmt.encRrr d a b)
  | .atomCas64 d a b => wordOf c 0x28 (25165824 + Fmt.encRrr d a b)
  | .atomAddF32 d a b => wordOf c 0x28 (27262976 + Fmt.encRrr d a b)
  | .atomIncN32 d a b => wordOf c 0x28 (29360128 + Fmt.encRrr d a b)
  | .atomDecN32 d a b => wordOf c 0x28 (31457280 + Fmt.encRrr d a b)
  | .wayin a b => wordOf c 0x2A (Fmt.encAb a b)
  | .wayout a => wordOf c 0x2A (2097152 + Fmt.encA a)
  | .wayskip a b => wordOf c 0x2A (4194304 + Fmt.encAb a b)
  | .waytry d a b => wordOf c 0x2A (6291456 + Fmt.encCmp d a b)
  | .wayclose a => wordOf c 0x2A (8388608 + Fmt.encA a)
  | .wayqry d a => wordOf c 0x2A (10485760 + Fmt.encRr d a)
  | .barArrive o => wordOf c 0x2C (Fmt.encBarArrive 0 o)
  | .barWait o => wordOf c 0x2C (2097152 + Fmt.encBarArrive 0 o)
  | .barSync o => wordOf c 0x2C (4194304 + Fmt.encBarArrive 0 o)
  | .barAlloc d n => wordOf c 0x2C (6291456 + Fmt.encBarAlloc d n)
  | .barFree o => wordOf c 0x2C (8388608 + Fmt.encBarArrive 0 o)
  | .cbarArrive n => wordOf c 0x2C (10485760 + Fmt.encImm2 n)
  | .cbarWait n => wordOf c 0x2C (12582912 + Fmt.encImm2 n)
  | .cbarSync n => wordOf c 0x2C (14680064 + Fmt.encImm2 n)
  | .gbarSync => wordOf c 0x2C (16777216 + Fmt.encFix 0)
  | .spawn d i => wordOf c 0x2D (Fmt.encSpawn d i)
  | .fetchw o => wordOf c 0x2D (2097152 + Fmt.encBarArrive 0 o)
  | .regacq => wordOf c 0x2D (4194304 + Fmt.encFix 0)
  | .regrel => wordOf c 0x2D (6291456 + Fmt.encFix 0)
  | .regroup o => wordOf c 0x2D (8388608 + Fmt.encBarArrive 0 o)
  | .launch p n => wordOf c 0x2D (10485760 + Fmt.encLaunch p n)
  | .preok => wordOf c 0x2D (12582912 + Fmt.encFix 0)
  | .srd d a => wordOf c 0x2E (Fmt.encRr d a)
  | .swr a b => wordOf c 0x2E (2097152 + Fmt.encAb a b)
  | .copyG2s t p s q r => wordOf c 0x30 (Fmt.encEng 0 t p s q r)
  | .copyS2g t p s q r => wordOf c 0x30 (2097152 + Fmt.encEng 0 t p s q r)
  | .copyG2o t p s q r => wordOf c 0x30 (4194304 + Fmt.encEng 0 t p s q r)
  | .copyS2o t p s q r => wordOf c 0x30 (6291456 + Fmt.encEng 0 t p s q r)
  | .copyG2g t p s q r => wordOf c 0x30 (8388608 + Fmt.encEng 0 t p s q r)
  | .copyFill t p s q r => wordOf c 0x30 (10485760 + Fmt.encEng 0 t p s q r)
  | .tmma t a o b z => wordOf c 0x32 (Fmt.encTmma t a o b z)
  | .tmms t a o b z => wordOf c 0x32 (2097152 + Fmt.encTmma t a o b z)
  | .tzero t a => wordOf c 0x32 (4194304 + Fmt.encTAcc 0 t a)
  | .tld t a p v => wordOf c 0x32 (6291456 + Fmt.encTMove t a p v)
  | .tst t a p v => wordOf c 0x32 (8388608 + Fmt.encTMove t a p v)
  | .tclaim t d n => wordOf c 0x32 (10485760 + Fmt.encTclaim 0 t d n)
  | .tclaimAcc t d n => wordOf c 0x32 (10485760 + Fmt.encTclaim 1 t d n)
  | .trelSlot t o => wordOf c 0x32 (12582912 + Fmt.encTrelSlot t o)
  | .trelAcc t a => wordOf c 0x32 (12582912 + Fmt.encTAcc 64 t a)
  | .tcfg t a m k => wordOf c 0x32 (14680064 + Fmt.encTcfg t a m k)
  | .chexp p d k e => wordOf c 0x36 (Fmt.encChexp p d k e)
  | .chopAdd d a b => wordOf c 0x36 (2097152 + Fmt.encChop3 0 d a b)
  | .chopSub d a b => wordOf c 0x36 (2097152 + Fmt.encChop3 1 d a b)
  | .chopMul d a b => wordOf c 0x36 (2097152 + Fmt.encChop3 2 d a b)
  | .chopFma d a b => wordOf c 0x36 (2097152 + Fmt.encChop3 3 d a b)
  | .chopMin d a b => wordOf c 0x36 (2097152 + Fmt.encChop3 4 d a b)
  | .chopMax d a b => wordOf c 0x36 (2097152 + Fmt.encChop3 5 d a b)
  | .chopExp2 d a => wordOf c 0x36 (2097152 + Fmt.encChop2 6 d a)
  | .chopRcp d a => wordOf c 0x36 (2097152 + Fmt.encChop2 7 d a)
  | .chopMov d a => wordOf c 0x36 (2097152 + Fmt.encChop2 8 d a)
  | .chopSel d a b => wordOf c 0x36 (2097152 + Fmt.encChop3 9 d a b)
  | .chopLt a b => wordOf c 0x36 (2097152 + Fmt.encChopRel 10 a b)
  | .chopLe a b => wordOf c 0x36 (2097152 + Fmt.encChopRel 11 a b)
  | .chopEq a b => wordOf c 0x36 (2097152 + Fmt.encChopRel 12 a b)
  | .chopNe a b => wordOf c 0x36 (2097152 + Fmt.encChopRel 13 a b)
  | .chenabPush => wordOf c 0x36 (4194304 + Fmt.encFix 0)
  | .chenabPop => wordOf c 0x36 (4194304 + Fmt.encFix 1024)
  | .chenabElse => wordOf c 0x36 (4194304 + Fmt.encFix 2048)
  | .chenabAll => wordOf c 0x36 (4194304 + Fmt.encFix 3072)
  | .chld p d t s => wordOf c 0x36 (6291456 + Fmt.encChld p d t s)
  | .chst p d t s l => wordOf c 0x36 (8388608 + Fmt.encChst p d t s l)
  | .chvis p d => wordOf c 0x36 (10485760 + Fmt.encChvis p d)
  | .chown d e => wordOf c 0x36 (12582912 + Fmt.encChown d e)
  | .chrel => wordOf c 0x36 (14680064 + Fmt.encFix 0)
  | .chorg s => wordOf c 0x36 (16777216 + Fmt.encChorg s)
  | .chorgRd d => wordOf c 0x36 (16777216 + Fmt.encChorgRd 2048 d)
  | .chset s d l => wordOf c 0x36 (18874368 + Fmt.encChset s d l)
  | .chcubic p d e => wordOf c 0x3F (2097152 + Fmt.encChcubic 3 p d e)
  | .bkmodeOn t p s q r => wordOf c 0x3B (Fmt.encEng 1 t p s q r)
  | .bkmodeOff t p s q r => wordOf c 0x3B (Fmt.encEng 0 t p s q r)
  | .bkload t p s q r f sc => wordOf c 0x3B (2097152 + Fmt.encBkload t p s q r f sc)
  | .bkmac t p s q r f z => wordOf c 0x3B (4194304 + Fmt.encBkmac t p s q r f z)
  | .bkread t p s q r => wordOf c 0x3B (6291456 + Fmt.encEng 0 t p s q r)
  | .bkcalCal t p s q r => wordOf c 0x3B (8388608 + Fmt.encEng 0 t p s q r)
  | .bkcalBist t p s q r => wordOf c 0x3B (8388608 + Fmt.encEng 1 t p s q r)
  | .bkcalRemap t p s q r => wordOf c 0x3B (8388608 + Fmt.encEng 2 t p s q r)
  | .bkstat t p s q r => wordOf c 0x3B (10485760 + Fmt.encEng 0 t p s q r)
  | .collRed t p s q r => wordOf c 0x3C (Fmt.encEng 0 t p s q r)
  | .collRedq t p s q r => wordOf c 0x3C (2097152 + Fmt.encEng 0 t p s q r)
  | .collBcast t p s q r => wordOf c 0x3C (4194304 + Fmt.encEng 0 t p s q r)
  | .collGather t p s q r => wordOf c 0x3C (6291456 + Fmt.encEng 0 t p s q r)
  | .lput t p s q r => wordOf c 0x3C (8388608 + Fmt.encEng 0 t p s q r)
  | .lget t p s q r => wordOf c 0x3C (10485760 + Fmt.encEng 0 t p s q r)
  | .trap n => wordOf c 0x3D (Fmt.encImm14 n)
  | .tret => wordOf c 0x3D (2097152 + Fmt.encFix 0)
  | .tlbinvPage o n => wordOf c 0x3D (4194304 + Fmt.encTlbinvPage o n)
  | .tlbinvCtx n => wordOf c 0x3D (4194304 + Fmt.encTlbinvCtx 1 n)
  | .tlbinvAll => wordOf c 0x3D (4194304 + Fmt.encFix 2)
  | .l2way o => wordOf c 0x3D (6291456 + Fmt.encBarArrive 0 o)
  | .l2wayRd o => wordOf c 0x3D (6291456 + Fmt.encBarArrive 1 o)
  | .stop => wordOf c 0x3D (8388608 + Fmt.encFix 0)
  | .sndgOn o => wordOf c 0x3D (10485760 + Fmt.encBarArrive 0 o)
  | .sndgOff => wordOf c 0x3D (10485760 + Fmt.encFix 1)
  | .sndgRd o => wordOf c 0x3D (10485760 + Fmt.encBarArrive 2 o)
  | .clauseDecode _ _ => 0
  | .resultWriteback _ _ => 0
  | .asyncFault _ _ => 0
  | .trapEntry _ => 0
  | .killRecordWrite _ => 0
  | .mgmtLaunchKill _ => 0
  | .groupEnd _ => 0
  | .launchComplete _ => 0
  | .queueTailWrite _ => 0
  | .launchRecordCopy _ => 0
  | .blockPlacement _ => 0
  | .qstatStopClear _ => 0
  | .qstatCfaultClear _ => 0
  | .mgmtRegisterWrite _ _ _ => 0
  | .resumeWrite _ _ => 0
  | .restctlWrite _ => 0
  | .trgoWrite _ => 0
  | .trialEnd => 0
  | .restStateEntry => 0
  | .restExit => 0
  | .functionLevelReset => 0
  | .deviceReset _ => 0
  | .doeMeasurementRequest _ => 0
  | .doeKeyRequest => 0
  | .cxlMemAccess _ _ => 0
  | .linkFlitRetry _ => 0
  | .linkRetryExhausted _ => 0
  | .peerReset _ => 0
  | .peerRequest _ _ => 0
  | .collectiveContribution _ => 0
  | .serviceRequestEnqueue _ => 0
  | .serviceRound _ => 0
  | .serviceReply _ => 0
  | .wayinComplete _ _ => 0
  | .wayinTimeout _ _ => 0
  | .waypointProbe _ _ => 0
  | .waypointPoison _ _ => 0
  | .wayskipFirm _ _ => 0
  | .wayskipRemove _ _ => 0
  | .joinComplete _ _ => 0
  | .joinTimeout _ _ => 0
  | .sleepEnd _ _ => 0
  | .regacqGrant _ => 0
  | .spill _ => 0
  | .tclaimGrant _ _ => 0
  | .fetchwFill _ => 0
  | .launchAnswer _ _ => 0
  | .engineCommandComplete _ _ => 0
  | .engineBusyTimeout _ _ => 0
  | .chartReset _ => 0
  | .tlbWalk _ _ _ _ => 0
  | .runaheadFetch _ _ => 0
  | .clockStep _ _ => 0
  | .subarrayGate _ _ => 0
  | .preemptRequest _ => 0
  | .preemptHandlerEntry _ => 0
  | .preboundExpiry _ => 0
  | .unitRestore _ => 0
  | .debugRecordWrite _ => 0
  | .wordNotAnInstruction w => w
  | .writeAcknowledgedAtHome _ _ => 0
  | .virtualChannelPause _ _ _ => 0
  | .correctedError _ _ => 0
  | .managementFirmwareStageLoad _ _ => 0
  | .cxlCacheCoherenceRequest _ _ => 0

/-! The rows of Table ENC-7, major by major; `m` is the minor (SZ for loads and stores, H for `movz`/`movk`). -/

noncomputable def decodeBr (p : Nat) : Option Instr :=
  (Fmt.decBr p).map (fun (n, k, d) => .br n k d)
noncomputable def decodeCall (p : Nat) : Option Instr :=
  (Fmt.decCall p).map (fun d => .call d)
noncomputable def decodeControl (m p : Nat) : Option Instr :=
  match m with
  | 0 => (Fmt.decFix 0 p).map (fun _ => .ret)
  | 1 => (Fmt.decOpd p).map (fun p => .jmpi p)
  | 2 => (Fmt.decOpd p).map (fun p => .calli p)
  | 3 => (Fmt.decJoin p).map (fun (k, n) => .join k n)
  | 4 => (Fmt.decFix 0 p).map (fun _ => .exit)
  | 5 => (Fmt.decImm5 p).map (fun n => .yield n)
  | 6 => (Fmt.decImm14 p).map (fun n => .sleep n)
  | 7 => (Fmt.decImm4 p).map (fun n => .progress n)
  | 8 => (Fmt.decImm8 p).map (fun n => .brkpt n)
  | _ => none
noncomputable def decodeMask (m p : Nat) : Option Instr :=
  match m with
  | 0 => (Fmt.decMask3 p).map (fun (d, a, b) => .mand d a b)
  | 1 => (Fmt.decMask3 p).map (fun (d, a, b) => .mor d a b)
  | 2 => (Fmt.decMask3 p).map (fun (d, a, b) => .mxor d a b)
  | 3 => (Fmt.decMask3 p).map (fun (d, a, b) => .mandn d a b)
  | 4 => (Fmt.decMask2 p).map (fun (d, a) => .mnot d a)
  | 5 => (Fmt.decMask2 p).map (fun (d, a) => .mmov d a)
  | 6 => (Fmt.decMask1 p).map (fun d => .mall d)
  | 7 => (Fmt.decMask1 p).map (fun d => .mnone d)
  | 8 => (Fmt.decSMask p).map (fun (d, a) => .mpopc d a)
  | 9 => (Fmt.decSMask p).map (fun (d, a) => .mfirst d a)
  | 10 => (Fmt.decMtos p).map (fun (d, a, q) => .mtos d a q)
  | 11 => (Fmt.decStom p).map (fun (d, a, q) => .stom d a q)
  | 12 => (Fmt.decMaskS p).map (fun (d, a) => .mlanes d a)
  | _ => none
noncomputable def decodeIntA (m p : Nat) : Option Instr :=
  match m with
  | 0 => (Fmt.decRrr p).map (fun (d, a, b) => .addI32 d a b)
  | 1 => (Fmt.decRrr p).map (fun (d, a, b) => .subI32 d a b)
  | 2 => (Fmt.decRrr p).map (fun (d, a, b) => .mulloI32 d a b)
  | 3 => (Fmt.decRrr p).map (fun (d, a, b) => .mulhiI32 d a b)
  | 4 => (Fmt.decRrr p).map (fun (d, a, b) => .mulhiN32 d a b)
  | 5 => (Fmt.decRrr p).map (fun (d, a, b) => .and d a b)
  | 6 => (Fmt.decRrr p).map (fun (d, a, b) => .or d a b)
  | 7 => (Fmt.decRrr p).map (fun (d, a, b) => .xor d a b)
  | 8 => (Fmt.decRrr p).map (fun (d, a, b) => .andn d a b)
  | 9 => (Fmt.decRrr p).map (fun (d, a, b) => .shl d a b)
  | 10 => (Fmt.decRrr p).map (fun (d, a, b) => .shrN32 d a b)
  | 11 => (Fmt.decRrr p).map (fun (d, a, b) => .shrI32 d a b)
  | 12 => (Fmt.decRrr p).map (fun (d, a, b) => .rotl d a b)
  | 13 => (Fmt.decRrr p).map (fun (d, a, b) => .minI32 d a b)
  | 14 => (Fmt.decRrr p).map (fun (d, a, b) => .maxI32 d a b)
  | 15 => (Fmt.decRrr p).map (fun (d, a, b) => .minN32 d a b)
  | _ => none
noncomputable def decodeIntB (m p : Nat) : Option Instr :=
  match m with
  | 0 => (Fmt.decRrr p).map (fun (d, a, b) => .maxN32 d a b)
  | 1 => (Fmt.decRr p).map (fun (d, a) => .absI32 d a)
  | 2 => (Fmt.decRr p).map (fun (d, a) => .popc d a)
  | 3 => (Fmt.decRr p).map (fun (d, a) => .clz d a)
  | 4 => (Fmt.decRr p).map (fun (d, a) => .brev d a)
  | 5 => (Fmt.decRrr p).map (fun (d, a, b) => .bfeN32 d a b)
  | 6 => (Fmt.decRrr p).map (fun (d, a, b) => .bfeI32 d a b)
  | 7 => (Fmt.decRrr p).map (fun (d, a, b) => .bfi d a b)
  | 8 => (Fmt.decSel p).map (fun (k, d, a, b) => .sel k d a b)
  | 9 => (Fmt.decSel p).map (fun (k, d, a, b) => .sel k d a b)
  | 10 => (Fmt.decSel p).map (fun (k, d, a, b) => .sel k d a b)
  | 11 => (Fmt.decSel p).map (fun (k, d, a, b) => .sel k d a b)
  | 12 => (Fmt.decSel p).map (fun (k, d, a, b) => .sel k d a b)
  | 13 => (Fmt.decSel p).map (fun (k, d, a, b) => .sel k d a b)
  | 14 => (Fmt.decSel p).map (fun (k, d, a, b) => .sel k d a b)
  | 15 => (Fmt.decSel p).map (fun (k, d, a, b) => .sel k d a b)
  | _ => none
noncomputable def decodeAddi (p : Nat) : Option Instr :=
  (Fmt.decRi p).map (fun (d, a, i) => .addi d a i)
noncomputable def decodeAndi (p : Nat) : Option Instr :=
  (Fmt.decRi p).map (fun (d, a, i) => .andi d a i)
noncomputable def decodeOri (p : Nat) : Option Instr :=
  (Fmt.decRi p).map (fun (d, a, i) => .ori d a i)
noncomputable def decodeXori (p : Nat) : Option Instr :=
  (Fmt.decRi p).map (fun (d, a, i) => .xori d a i)
noncomputable def decodeWide (m p : Nat) : Option Instr :=
  match m with
  | 0 => (Fmt.decWi p).map (fun (d, i) => .movzLo d i)
  | 1 => (Fmt.decWi p).map (fun (d, i) => .movzHi d i)
  | 2 => (Fmt.decWi p).map (fun (d, i) => .movkLo d i)
  | 3 => (Fmt.decWi p).map (fun (d, i) => .movkHi d i)
  | _ => none
noncomputable def decodeIcmp (m p : Nat) : Option Instr :=
  match m with
  | 0 => (Fmt.decCmp p).map (fun (d, a, b) => .icmpEq d a b)
  | 1 => (Fmt.decCmp p).map (fun (d, a, b) => .icmpNe d a b)
  | 2 => (Fmt.decCmp p).map (fun (d, a, b) => .icmpLtI32 d a b)
  | 3 => (Fmt.decCmp p).map (fun (d, a, b) => .icmpLeI32 d a b)
  | 4 => (Fmt.decCmp p).map (fun (d, a, b) => .icmpGtI32 d a b)
  | 5 => (Fmt.decCmp p).map (fun (d, a, b) => .icmpGeI32 d a b)
  | 6 => (Fmt.decCmp p).map (fun (d, a, b) => .icmpLtN32 d a b)
  | 7 => (Fmt.decCmp p).map (fun (d, a, b) => .icmpLeN32 d a b)
  | 8 => (Fmt.decCmp p).map (fun (d, a, b) => .icmpGtN32 d a b)
  | 9 => (Fmt.decCmp p).map (fun (d, a, b) => .icmpGeN32 d a b)
  | 10 => (Fmt.decCmp p).map (fun (d, a, b) => .icmpEqI64 d a b)
  | 11 => (Fmt.decCmp p).map (fun (d, a, b) => .icmpLtI64 d a b)
  | 12 => (Fmt.decCmp p).map (fun (d, a, b) => .icmpLtN64 d a b)
  | _ => none
noncomputable def decodeInt64 (m p : Nat) : Option Instr :=
  match m with
  | 0 => (Fmt.decRrr p).map (fun (d, a, b) => .addI64 d a b)
  | 1 => (Fmt.decRrr p).map (fun (d, a, b) => .subI64 d a b)
  | 2 => (Fmt.decRrr p).map (fun (d, a, b) => .mulI64 d a b)
  | 3 => (Fmt.decRrr p).map (fun (d, a, b) => .shlI64 d a b)
  | 4 => (Fmt.decRrr p).map (fun (d, a, b) => .shrN64 d a b)
  | 5 => (Fmt.decRrr p).map (fun (d, a, b) => .shrI64 d a b)
  | 6 => (Fmt.decRr p).map (fun (d, a) => .sextI64 d a)
  | 7 => (Fmt.decRr p).map (fun (d, a) => .zextI64 d a)
  | 8 => (Fmt.decRrr p).map (fun (d, a, b) => .leaX1 d a b)
  | 9 => (Fmt.decRrr p).map (fun (d, a, b) => .leaX2 d a b)
  | 10 => (Fmt.decRrr p).map (fun (d, a, b) => .leaX4 d a b)
  | 11 => (Fmt.decRrr p).map (fun (d, a, b) => .leaX8 d a b)
  | 12 => (Fmt.decRrr p).map (fun (d, a, b) => .leaX16 d a b)
  | _ => none
noncomputable def decodePacked (m p : Nat) : Option Instr :=
  match m with
  | 0 => (Fmt.decRrr p).map (fun (d, a, b) => .addI16x2 d a b)
  | 1 => (Fmt.decRrr p).map (fun (d, a, b) => .subI16x2 d a b)
  | 2 => (Fmt.decRrr p).map (fun (d, a, b) => .addsI16x2 d a b)
  | 3 => (Fmt.decRrr p).map (fun (d, a, b) => .subsI16x2 d a b)
  | 4 => (Fmt.decRrr p).map (fun (d, a, b) => .minI16x2 d a b)
  | 5 => (Fmt.decRrr p).map (fun (d, a, b) => .maxI16x2 d a b)
  | 6 => (Fmt.decRrr p).map (fun (d, a, b) => .gtbitsI16x2 d a b)
  | 7 => (Fmt.decRrr p).map (fun (d, a, b) => .shrI16x2 d a b)
  | 8 => (Fmt.decRrr p).map (fun (d, a, b) => .packI16x2 d a b)
  | 9 => (Fmt.decRr p).map (fun (d, a) => .sext8 d a)
  | 10 => (Fmt.decRr p).map (fun (d, a) => .sext16 d a)
  | 11 => (Fmt.decRr p).map (fun (d, a) => .zext8 d a)
  | 12 => (Fmt.decRr p).map (fun (d, a) => .zext16 d a)
  | _ => none
noncomputable def decodeRemoved (p : Nat) : Option Instr :=
  (Fmt.decMsadB4 p).map (fun (min, d, a, b) => .msadB4 min d a b)
noncomputable def decodeF32 (m p : Nat) : Option Instr :=
  match m with
  | 0 => (Fmt.decRrr p).map (fun (d, a, b) => .addF32 d a b)
  | 1 => (Fmt.decRrr p).map (fun (d, a, b) => .subF32 d a b)
  | 2 => (Fmt.decRrr p).map (fun (d, a, b) => .mulF32 d a b)
  | 3 => (Fmt.decRrr p).map (fun (d, a, b) => .fmaF32 d a b)
  | 4 => (Fmt.decRrr p).map (fun (d, a, b) => .fmsF32 d a b)
  | 5 => (Fmt.decRrr p).map (fun (d, a, b) => .minF32 d a b)
  | 6 => (Fmt.decRrr p).map (fun (d, a, b) => .maxF32 d a b)
  | 7 => (Fmt.decRr p).map (fun (d, a) => .absF32 d a)
  | 8 => (Fmt.decRr p).map (fun (d, a) => .negF32 d a)
  | 9 => (Fmt.decRrr p).map (fun (d, a, b) => .copysignF32 d a b)
  | 10 => (Fmt.decRr p).map (fun (d, a) => .floorF32 d a)
  | 11 => (Fmt.decRr p).map (fun (d, a) => .ceilF32 d a)
  | 12 => (Fmt.decRr p).map (fun (d, a) => .truncF32 d a)
  | 13 => (Fmt.decRr p).map (fun (d, a) => .rintF32 d a)
  | 14 => (Fmt.decRr p).map (fun (d, a) => .fractF32 d a)
  | _ => none
noncomputable def decodeF64 (m p : Nat) : Option Instr :=
  match m with
  | 0 => (Fmt.decRrr p).map (fun (d, a, b) => .addF64 d a b)
  | 1 => (Fmt.decRrr p).map (fun (d, a, b) => .subF64 d a b)
  | 2 => (Fmt.decRrr p).map (fun (d, a, b) => .mulF64 d a b)
  | 3 => (Fmt.decRrr p).map (fun (d, a, b) => .fmaF64 d a b)
  | 4 => (Fmt.decRrr p).map (fun (d, a, b) => .fmsF64 d a b)
  | 5 => (Fmt.decRrr p).map (fun (d, a, b) => .minF64 d a b)
  | 6 => (Fmt.decRrr p).map (fun (d, a, b) => .maxF64 d a b)
  | 7 => (Fmt.decRr p).map (fun (d, a) => .absF64 d a)
  | 8 => (Fmt.decRr p).map (fun (d, a) => .negF64 d a)
  | 9 => (Fmt.decRr p).map (fun (d, a) => .floorF64 d a)
  | 10 => (Fmt.decRr p).map (fun (d, a) => .ceilF64 d a)
  | 11 => (Fmt.decRr p).map (fun (d, a) => .truncF64 d a)
  | 12 => (Fmt.decRr p).map (fun (d, a) => .rintF64 d a)
  | 13 => (Fmt.decRrr p).map (fun (d, a, b) => .divF64 d a b)
  | 14 => (Fmt.decRr p).map (fun (d, a) => .sqrtF64 d a)
  | _ => none
noncomputable def decodeHalf (m p : Nat) : Option Instr :=
  match m with
  | 0 => (Fmt.decRrr p).map (fun (d, a, b) => .addF16x2 d a b)
  | 1 => (Fmt.decRrr p).map (fun (d, a, b) => .mulF16x2 d a b)
  | 2 => (Fmt.decRrr p).map (fun (d, a, b) => .fmaF16x2 d a b)
  | 3 => (Fmt.decRrr p).map (fun (d, a, b) => .minF16x2 d a b)
  | 4 => (Fmt.decRrr p).map (fun (d, a, b) => .maxF16x2 d a b)
  | 5 => (Fmt.decRrr p).map (fun (d, a, b) => .addBf16x2 d a b)
  | 6 => (Fmt.decRrr p).map (fun (d, a, b) => .mulBf16x2 d a b)
  | 7 => (Fmt.decRrr p).map (fun (d, a, b) => .fmaBf16x2 d a b)
  | 8 => (Fmt.decRrr p).map (fun (d, a, b) => .dot2F32F16 d a b)
  | 9 => (Fmt.decRrr p).map (fun (d, a, b) => .dot2F32Bf16 d a b)
  | _ => none
noncomputable def decodeFcmp (m p : Nat) : Option Instr :=
  match m with
  | 0 => (Fmt.decCmp p).map (fun (d, a, b) => .fcmpEqF32 d a b)
  | 1 => (Fmt.decCmp p).map (fun (d, a, b) => .fcmpNeF32 d a b)
  | 2 => (Fmt.decCmp p).map (fun (d, a, b) => .fcmpLtF32 d a b)
  | 3 => (Fmt.decCmp p).map (fun (d, a, b) => .fcmpLeF32 d a b)
  | 4 => (Fmt.decCmp p).map (fun (d, a, b) => .fcmpGtF32 d a b)
  | 5 => (Fmt.decCmp p).map (fun (d, a, b) => .fcmpGeF32 d a b)
  | 6 => (Fmt.decCmp p).map (fun (d, a, b) => .fcmpOrdF32 d a b)
  | 7 => (Fmt.decCmp p).map (fun (d, a, b) => .fcmpUnordF32 d a b)
  | 8 => (Fmt.decCmp p).map (fun (d, a, b) => .fcmpEqF64 d a b)
  | 9 => (Fmt.decCmp p).map (fun (d, a, b) => .fcmpNeF64 d a b)
  | 10 => (Fmt.decCmp p).map (fun (d, a, b) => .fcmpLtF64 d a b)
  | 11 => (Fmt.decCmp p).map (fun (d, a, b) => .fcmpLeF64 d a b)
  | 12 => (Fmt.decCmp p).map (fun (d, a, b) => .fcmpGtF64 d a b)
  | 13 => (Fmt.decCmp p).map (fun (d, a, b) => .fcmpGeF64 d a b)
  | 14 => (Fmt.decCmp p).map (fun (d, a, b) => .fcmpOrdF64 d a b)
  | 15 => (Fmt.decCmp p).map (fun (d, a, b) => .fcmpUnordF64 d a b)
  | _ => none
noncomputable def decodeXfn (m p : Nat) : Option Instr :=
  match m with
  | 0 => (Fmt.decRr p).map (fun (d, a) => .exp2F32 d a)
  | 1 => (Fmt.decRr p).map (fun (d, a) => .log2F32 d a)
  | 2 => (Fmt.decRr p).map (fun (d, a) => .rcpF32 d a)
  | 3 => (Fmt.decRr p).map (fun (d, a) => .rsqF32 d a)
  | 4 => (Fmt.decRr p).map (fun (d, a) => .sqrtF32 d a)
  | 5 => (Fmt.decRrr p).map (fun (d, a, b) => .divF32 d a b)
  | 6 => (Fmt.decRr p).map (fun (d, a) => .sin2piF32 d a)
  | 7 => (Fmt.decRr p).map (fun (d, a) => .cos2piF32 d a)
  | _ => none
noncomputable def decodeCvt (m p : Nat) : Option Instr :=
  match m with
  | 0 => (Fmt.decRr p).map (fun (d, a) => .cvtF32F16lo d a)
  | 1 => (Fmt.decRr p).map (fun (d, a) => .cvtF32F16hi d a)
  | 2 => (Fmt.decRrr p).map (fun (d, a, b) => .cvtF16x2F32 d a b)
  | 3 => (Fmt.decRr p).map (fun (d, a) => .cvtF32Bf16lo d a)
  | 4 => (Fmt.decRr p).map (fun (d, a) => .cvtF32Bf16hi d a)
  | 5 => (Fmt.decRrr p).map (fun (d, a, b) => .cvtBf16x2F32 d a b)
  | 6 => (Fmt.decRr p).map (fun (d, a) => .cvtF64F32 d a)
  | 7 => (Fmt.decRr p).map (fun (d, a) => .cvtF32F64 d a)
  | 8 => (Fmt.decRr p).map (fun (d, a) => .cvtF32I32 d a)
  | 9 => (Fmt.decRr p).map (fun (d, a) => .cvtF32N32 d a)
  | 10 => (Fmt.decRr p).map (fun (d, a) => .cvtI32F32 d a)
  | 11 => (Fmt.decRr p).map (fun (d, a) => .cvtN32F32 d a)
  | 12 => (Fmt.decRr p).map (fun (d, a) => .cvtF64I64 d a)
  | 13 => (Fmt.decRr p).map (fun (d, a) => .cvtI64F64 d a)
  | 14 => (Fmt.decRr p).map (fun (d, a) => .cvtF64I32 d a)
  | 15 => (Fmt.decRr p).map (fun (d, a) => .cvtI32F64 d a)
  | _ => none
noncomputable def decodeGeo (m p : Nat) : Option Instr :=
  match m with
  | 0 => (Fmt.decRrr p).map (fun (d, a, b) => .rbox d a b)
  | 1 => (Fmt.decRrr p).map (fun (d, a, b) => .rtri d a b)
  | 2 => (Fmt.decRrr p).map (fun (d, a, b) => .edgec d a b)
  | 3 => (Fmt.decRr p).map (fun (d, a) => .cullbf d a)
  | 4 => (Fmt.decRr p).map (fun (d, a) => .cullbx d a)
  | _ => none
noncomputable def decodeXlane (m p : Nat) : Option Instr :=
  match m with
  | 0 => (Fmt.decRrr p).map (fun (d, a, b) => .lpick d a b)
  | 1 => (Fmt.decRrr p).map (fun (d, a, b) => .lswap d a b)
  | 2 => (Fmt.decRrr p).map (fun (d, a, b) => .lrotu d a b)
  | 3 => (Fmt.decRrr p).map (fun (d, a, b) => .lrotd d a b)
  | 4 => (Fmt.decRrr p).map (fun (d, a, b) => .bcast d a b)
  | 5 => (Fmt.decRr p).map (fun (d, a) => .ddxF32 d a)
  | 6 => (Fmt.decRr p).map (fun (d, a) => .ddyF32 d a)
  | 7 => (Fmt.decRr p).map (fun (d, a) => .vrdi d a)
  | 8 => (Fmt.decAb p).map (fun (a, b) => .vwri a b)
  | 9 => (Fmt.decRrr p).map (fun (d, a, b) => .rdlane d a b)
  | 10 => (Fmt.decRrr p).map (fun (d, a, b) => .wrlane d a b)
  | 11 => (Fmt.decRr p).map (fun (d, a) => .raddI32 d a)
  | 12 => (Fmt.decRr p).map (fun (d, a) => .rmaxI32 d a)
  | 13 => (Fmt.decRr p).map (fun (d, a) => .rminI32 d a)
  | 14 => (Fmt.decRr p).map (fun (d, a) => .raddF32 d a)
  | 15 => (Fmt.decMaskS p).map (fun (d, a) => .ballot d a)
  | _ => none
noncomputable def decodeLd (m p : Nat) : Option Instr :=
  match m with
  | 0 => (Fmt.decMem p).map (fun (d, a, o) => .ld8n d a o)
  | 1 => (Fmt.decMem p).map (fun (d, a, o) => .ld8i d a o)
  | 2 => (Fmt.decMem p).map (fun (d, a, o) => .ld16n d a o)
  | 3 => (Fmt.decMem p).map (fun (d, a, o) => .ld16i d a o)
  | 4 => (Fmt.decMem p).map (fun (d, a, o) => .ld32 d a o)
  | 5 => (Fmt.decMem p).map (fun (d, a, o) => .ld64 d a o)
  | 6 => (Fmt.decMem p).map (fun (d, a, o) => .ld128 d a o)
  | _ => none
noncomputable def decodeLdx (m p : Nat) : Option Instr :=
  match m with
  | 0 => (Fmt.decRrr p).map (fun (d, a, b) => .ldx8n d a b)
  | 1 => (Fmt.decRrr p).map (fun (d, a, b) => .ldx8i d a b)
  | 2 => (Fmt.decRrr p).map (fun (d, a, b) => .ldx16n d a b)
  | 3 => (Fmt.decRrr p).map (fun (d, a, b) => .ldx16i d a b)
  | 4 => (Fmt.decRrr p).map (fun (d, a, b) => .ldx32 d a b)
  | 5 => (Fmt.decRrr p).map (fun (d, a, b) => .ldx64 d a b)
  | 6 => (Fmt.decRrr p).map (fun (d, a, b) => .ldx128 d a b)
  | _ => none
noncomputable def decodeSt (m p : Nat) : Option Instr :=
  match m with
  | 0 => (Fmt.decMem p).map (fun (d, a, o) => .st8 d a o)
  | 2 => (Fmt.decMem p).map (fun (d, a, o) => .st16 d a o)
  | 4 => (Fmt.decMem p).map (fun (d, a, o) => .st32 d a o)
  | 5 => (Fmt.decMem p).map (fun (d, a, o) => .st64 d a o)
  | 6 => (Fmt.decMem p).map (fun (d, a, o) => .st128 d a o)
  | _ => none
noncomputable def decodeStx (m p : Nat) : Option Instr :=
  match m with
  | 0 => (Fmt.decRrr p).map (fun (d, a, b) => .stx8 d a b)
  | 2 => (Fmt.decRrr p).map (fun (d, a, b) => .stx16 d a b)
  | 4 => (Fmt.decRrr p).map (fun (d, a, b) => .stx32 d a b)
  | 5 => (Fmt.decRrr p).map (fun (d, a, b) => .stx64 d a b)
  | 6 => (Fmt.decRrr p).map (fun (d, a, b) => .stx128 d a b)
  | _ => none
noncomputable def decodeLdk (m p : Nat) : Option Instr :=
  match m with
  | 4 => (Fmt.decMem p).map (fun (d, a, o) => .ldk32 d a o)
  | 5 => (Fmt.decMem p).map (fun (d, a, o) => .ldk64 d a o)
  | 6 => (Fmt.decMem p).map (fun (d, a, o) => .ldk128 d a o)
  | _ => none
noncomputable def decodeSync (m p : Nat) : Option Instr :=
  match m with
  | 0 => (Fmt.decSync p).map (fun (s, d, a) => .lda32 s d a)
  | 1 => (Fmt.decSync p).map (fun (s, d, a) => .lda32 s d a)
  | 2 => (Fmt.decSync p).map (fun (s, d, a) => .lda32 s d a)
  | 3 => (Fmt.decSync p).map (fun (s, d, a) => .lda32 s d a)
  | 4 => (Fmt.decSync p).map (fun (s, d, a) => .lda64 s d a)
  | 5 => (Fmt.decSync p).map (fun (s, d, a) => .lda64 s d a)
  | 6 => (Fmt.decSync p).map (fun (s, d, a) => .lda64 s d a)
  | 7 => (Fmt.decSync p).map (fun (s, d, a) => .lda64 s d a)
  | 8 => (Fmt.decSync p).map (fun (s, d, a) => .stl32 s d a)
  | 9 => (Fmt.decSync p).map (fun (s, d, a) => .stl32 s d a)
  | 10 => (Fmt.decSync p).map (fun (s, d, a) => .stl32 s d a)
  | 11 => (Fmt.decSync p).map (fun (s, d, a) => .stl32 s d a)
  | 12 => (Fmt.decSync p).map (fun (s, d, a) => .stl64 s d a)
  | 13 => (Fmt.decSync p).map (fun (s, d, a) => .stl64 s d a)
  | 14 => (Fmt.decSync p).map (fun (s, d, a) => .stl64 s d a)
  | 15 => (Fmt.decSync p).map (fun (s, d, a) => .stl64 s d a)
  | _ => none
noncomputable def decodeFence (m p : Nat) : Option Instr :=
  match m with
  | 0 => (Fmt.decFence p).bind fun (r, q, s) => if r ≠ 0 ∨ q ≠ 0 then some (.fence r q s) else none
  | 1 => (Fmt.decPfence p).bind fun p => if p ≠ 0 then some (.pfence p) else none
  | 2 => (Fmt.decOpd p).map (fun p => .icinv p)
      <|> (Fmt.decFix 1 p).map (fun _ => .icinvAll)
  | _ => none
noncomputable def decodePref (m p : Nat) : Option Instr :=
  match m with
  | 0 => (Fmt.decPref p).map (fun (a, o) => .prefL1 a o)
  | 1 => (Fmt.decPref p).map (fun (a, o) => .prefL2 a o)
  | _ => none
noncomputable def decodeAtom (m p : Nat) : Option Instr :=
  match m with
  | 0 => (Fmt.decRrr p).map (fun (d, a, b) => .atomAddI32 d a b)
  | 1 => (Fmt.decRrr p).map (fun (d, a, b) => .atomAddI64 d a b)
  | 2 => (Fmt.decRrr p).map (fun (d, a, b) => .atomMinI32 d a b)
  | 3 => (Fmt.decRrr p).map (fun (d, a, b) => .atomMaxI32 d a b)
  | 4 => (Fmt.decRrr p).map (fun (d, a, b) => .atomMinN32 d a b)
  | 5 => (Fmt.decRrr p).map (fun (d, a, b) => .atomMaxN32 d a b)
  | 6 => (Fmt.decRrr p).map (fun (d, a, b) => .atomAnd32 d a b)
  | 7 => (Fmt.decRrr p).map (fun (d, a, b) => .atomOr32 d a b)
  | 8 => (Fmt.decRrr p).map (fun (d, a, b) => .atomXor32 d a b)
  | 9 => (Fmt.decRrr p).map (fun (d, a, b) => .atomXchg32 d a b)
  | 10 => (Fmt.decRrr p).map (fun (d, a, b) => .atomXchg64 d a b)
  | 11 => (Fmt.decRrr p).map (fun (d, a, b) => .atomCas32 d a b)
  | 12 => (Fmt.decRrr p).map (fun (d, a, b) => .atomCas64 d a b)
  | 13 => (Fmt.decRrr p).map (fun (d, a, b) => .atomAddF32 d a b)
  | 14 => (Fmt.decRrr p).map (fun (d, a, b) => .atomIncN32 d a b)
  | 15 => (Fmt.decRrr p).map (fun (d, a, b) => .atomDecN32 d a b)
  | _ => none
noncomputable def decodeWay (m p : Nat) : Option Instr :=
  match m with
  | 0 => (Fmt.decAb p).map (fun (a, b) => .wayin a b)
  | 1 => (Fmt.decA p).map (fun a => .wayout a)
  | 2 => (Fmt.decAb p).map (fun (a, b) => .wayskip a b)
  | 3 => (Fmt.decCmp p).map (fun (d, a, b) => .waytry d a b)
  | 4 => (Fmt.decA p).map (fun a => .wayclose a)
  | 5 => (Fmt.decRr p).map (fun (d, a) => .wayqry d a)
  | _ => none
noncomputable def decodeBar (m p : Nat) : Option Instr :=
  match m with
  | 0 => (Fmt.decBarArrive 0 p).map (fun o => .barArrive o)
  | 1 => (Fmt.decBarArrive 0 p).map (fun o => .barWait o)
  | 2 => (Fmt.decBarArrive 0 p).map (fun o => .barSync o)
  | 3 => (Fmt.decBarAlloc p).map (fun (d, n) => .barAlloc d n)
  | 4 => (Fmt.decBarArrive 0 p).map (fun o => .barFree o)
  | 5 => (Fmt.decImm2 p).map (fun n => .cbarArrive n)
  | 6 => (Fmt.decImm2 p).map (fun n => .cbarWait n)
  | 7 => (Fmt.decImm2 p).map (fun n => .cbarSync n)
  | 8 => (Fmt.decFix 0 p).map (fun _ => .gbarSync)
  | _ => none
noncomputable def decodeWork (m p : Nat) : Option Instr :=
  match m with
  | 0 => (Fmt.decSpawn p).map (fun (d, i) => .spawn d i)
  | 1 => (Fmt.decBarArrive 0 p).map (fun o => .fetchw o)
  | 2 => (Fmt.decFix 0 p).map (fun _ => .regacq)
  | 3 => (Fmt.decFix 0 p).map (fun _ => .regrel)
  | 4 => (Fmt.decBarArrive 0 p).map (fun o => .regroup o)
  | 5 => (Fmt.decLaunch p).map (fun (p, n) => .launch p n)
  | 6 => (Fmt.decFix 0 p).map (fun _ => .preok)
  | _ => none
noncomputable def decodeSreg (m p : Nat) : Option Instr :=
  match m with
  | 0 => (Fmt.decRr p).map (fun (d, a) => .srd d a)
  | 1 => (Fmt.decAb p).map (fun (a, b) => .swr a b)
  | _ => none
noncomputable def decodeCopy (m p : Nat) : Option Instr :=
  match m with
  | 0 => (Fmt.decEng 0 p).map (fun (t, p, s, q, r) => .copyG2s t p s q r)
  | 1 => (Fmt.decEng 0 p).map (fun (t, p, s, q, r) => .copyS2g t p s q r)
  | 2 => (Fmt.decEng 0 p).map (fun (t, p, s, q, r) => .copyG2o t p s q r)
  | 3 => (Fmt.decEng 0 p).map (fun (t, p, s, q, r) => .copyS2o t p s q r)
  | 4 => (Fmt.decEng 0 p).map (fun (t, p, s, q, r) => .copyG2g t p s q r)
  | 5 => (Fmt.decEng 0 p).map (fun (t, p, s, q, r) => .copyFill t p s q r)
  | _ => none
noncomputable def decodeTile (m p : Nat) : Option Instr :=
  match m with
  | 0 => (Fmt.decTmma p).map (fun (t, a, o, b, z) => .tmma t a o b z)
  | 1 => (Fmt.decTmma p).map (fun (t, a, o, b, z) => .tmms t a o b z)
  | 2 => (Fmt.decTAcc 0 p).map (fun (t, a) => .tzero t a)
  | 3 => (Fmt.decTMove p).bind fun (t, a, p, v) => if v ≠ 3 then some (.tld t a p v) else none
  | 4 => (Fmt.decTMove p).bind fun (t, a, p, v) => if v ≠ 3 then some (.tst t a p v) else none
  | 5 => (Fmt.decTclaim 0 p).map (fun (t, d, n) => .tclaim t d n)
      <|> (Fmt.decTclaim 1 p).map (fun (t, d, n) => .tclaimAcc t d n)
  | 6 => (Fmt.decTrelSlot p).map (fun (t, o) => .trelSlot t o)
      <|> (Fmt.decTAcc 64 p).map (fun (t, a) => .trelAcc t a)
  | 7 => (Fmt.decTcfg p).bind fun (t, a, m, k) => if m ≠ 3 ∧ k ≠ 3 ∧ (m = 2 ∨ k = 0) then some (.tcfg t a m k) else none
  | _ => none
noncomputable def decodeChart (m p : Nat) : Option Instr :=
  match m with
  | 0 => (Fmt.decChexp p).bind fun (p, d, k, e) => if k.toNat ≤ 2 ∧ e ≠ 3 then some (.chexp p d k e) else none
  | 1 => (Fmt.decChop3 0 p).map (fun (d, a, b) => .chopAdd d a b)
      <|> (Fmt.decChop3 1 p).map (fun (d, a, b) => .chopSub d a b)
      <|> (Fmt.decChop3 2 p).map (fun (d, a, b) => .chopMul d a b)
      <|> (Fmt.decChop3 3 p).map (fun (d, a, b) => .chopFma d a b)
      <|> (Fmt.decChop3 4 p).map (fun (d, a, b) => .chopMin d a b)
      <|> (Fmt.decChop3 5 p).map (fun (d, a, b) => .chopMax d a b)
      <|> (Fmt.decChop2 6 p).map (fun (d, a) => .chopExp2 d a)
      <|> (Fmt.decChop2 7 p).map (fun (d, a) => .chopRcp d a)
      <|> (Fmt.decChop2 8 p).map (fun (d, a) => .chopMov d a)
      <|> (Fmt.decChop3 9 p).map (fun (d, a, b) => .chopSel d a b)
      <|> (Fmt.decChopRel 10 p).map (fun (a, b) => .chopLt a b)
      <|> (Fmt.decChopRel 11 p).map (fun (a, b) => .chopLe a b)
      <|> (Fmt.decChopRel 12 p).map (fun (a, b) => .chopEq a b)
      <|> (Fmt.decChopRel 13 p).map (fun (a, b) => .chopNe a b)
  | 2 => (Fmt.decFix 0 p).map (fun _ => .chenabPush)
      <|> (Fmt.decFix 1024 p).map (fun _ => .chenabPop)
      <|> (Fmt.decFix 2048 p).map (fun _ => .chenabElse)
      <|> (Fmt.decFix 3072 p).map (fun _ => .chenabAll)
  | 3 => (Fmt.decChld p).bind fun (p, d, t, s) => if s.toNat ≤ 1 then some (.chld p d t s) else none
  | 4 => (Fmt.decChst p).bind fun (p, d, t, s, l) => if s ≠ 3 then some (.chst p d t s l) else none
  | 5 => (Fmt.decChvis p).map (fun (p, d) => .chvis p d)
  | 6 => (Fmt.decChown p).map (fun (d, e) => .chown d e)
  | 7 => (Fmt.decFix 0 p).map (fun _ => .chrel)
  | 8 => (Fmt.decChorg p).map (fun s => .chorg s)
      <|> (Fmt.decChorgRd 2048 p).map (fun d => .chorgRd d)
  | 9 => (Fmt.decChset p).map (fun (s, d, l) => .chset s d l)
  | _ => none
noncomputable def decodeBank (m p : Nat) : Option Instr :=
  match m with
  | 0 => (Fmt.decEng 1 p).map (fun (t, p, s, q, r) => .bkmodeOn t p s q r)
      <|> (Fmt.decEng 0 p).map (fun (t, p, s, q, r) => .bkmodeOff t p s q r)
  | 1 => (Fmt.decBkload p).map (fun (t, p, s, q, r, f, sc) => .bkload t p s q r f sc)
  | 2 => (Fmt.decBkmac p).map (fun (t, p, s, q, r, f, z) => .bkmac t p s q r f z)
  | 3 => (Fmt.decEng 0 p).map (fun (t, p, s, q, r) => .bkread t p s q r)
  | 4 => (Fmt.decEng 0 p).map (fun (t, p, s, q, r) => .bkcalCal t p s q r)
      <|> (Fmt.decEng 1 p).map (fun (t, p, s, q, r) => .bkcalBist t p s q r)
      <|> (Fmt.decEng 2 p).map (fun (t, p, s, q, r) => .bkcalRemap t p s q r)
  | 5 => (Fmt.decEng 0 p).map (fun (t, p, s, q, r) => .bkstat t p s q r)
  | _ => none
noncomputable def decodeLink (m p : Nat) : Option Instr :=
  match m with
  | 0 => (Fmt.decEng 0 p).map (fun (t, p, s, q, r) => .collRed t p s q r)
  | 1 => (Fmt.decEng 0 p).map (fun (t, p, s, q, r) => .collRedq t p s q r)
  | 2 => (Fmt.decEng 0 p).map (fun (t, p, s, q, r) => .collBcast t p s q r)
  | 3 => (Fmt.decEng 0 p).map (fun (t, p, s, q, r) => .collGather t p s q r)
  | 4 => (Fmt.decEng 0 p).map (fun (t, p, s, q, r) => .lput t p s q r)
  | 5 => (Fmt.decEng 0 p).map (fun (t, p, s, q, r) => .lget t p s q r)
  | _ => none
noncomputable def decodeSys (m p : Nat) : Option Instr :=
  match m with
  | 0 => (Fmt.decImm14 p).map (fun n => .trap n)
  | 1 => (Fmt.decFix 0 p).map (fun _ => .tret)
  | 2 => (Fmt.decTlbinvPage p).map (fun (o, n) => .tlbinvPage o n)
      <|> (Fmt.decTlbinvCtx 1 p).map (fun n => .tlbinvCtx n)
      <|> (Fmt.decFix 2 p).map (fun _ => .tlbinvAll)
  | 3 => (Fmt.decBarArrive 0 p).map (fun o => .l2way o)
      <|> (Fmt.decBarArrive 1 p).map (fun o => .l2wayRd o)
  | 4 => (Fmt.decFix 0 p).map (fun _ => .stop)
  | 5 => (Fmt.decBarArrive 0 p).map (fun o => .sndgOn o)
      <|> (Fmt.decFix 1 p).map (fun _ => .sndgOff)
      <|> (Fmt.decBarArrive 2 p).map (fun o => .sndgRd o)
  | _ => none
noncomputable def decodeExperimental (m p : Nat) : Option Instr :=
  match m with
  | 1 => (Fmt.decChcubic 3 p).bind fun (p, d, e) => if e ≠ 3 then some (.chcubic p d e) else none
  | _ => none

/-- The instruction of a word, none where the word is no instruction (03 R59). The chain bit is read apart. -/
noncomputable def decodeInstr (w : Word) : Option Instr :=
  let n := w.toNat
  let p := n % 33554432
  match n / 33554432 % 64 with
  | 0x01 => decodeBr p
  | 0x02 => decodeCall p
  | 0x03 => decodeControl (p / 2097152 % 16) p
  | 0x04 => decodeMask (p / 2097152 % 16) p
  | 0x08 => decodeIntA (p / 2097152 % 16) p
  | 0x09 => decodeIntB (p / 2097152 % 16) p
  | 0x0A => decodeAddi p
  | 0x0B => decodeAndi p
  | 0x0C => decodeOri p
  | 0x0D => decodeXori p
  | 0x0E => decodeWide (p / 65536 % 4) p
  | 0x0F => decodeIcmp (p / 2097152 % 16) p
  | 0x10 => decodeInt64 (p / 2097152 % 16) p
  | 0x11 => decodePacked (p / 2097152 % 16) p
  | 0x13 => decodeRemoved p
  | 0x14 => decodeF32 (p / 2097152 % 16) p
  | 0x15 => decodeF64 (p / 2097152 % 16) p
  | 0x16 => decodeHalf (p / 2097152 % 16) p
  | 0x17 => decodeFcmp (p / 2097152 % 16) p
  | 0x18 => decodeXfn (p / 2097152 % 16) p
  | 0x19 => decodeCvt (p / 2097152 % 16) p
  | 0x1A => decodeGeo (p / 2097152 % 16) p
  | 0x1C => decodeXlane (p / 2097152 % 16) p
  | 0x20 => decodeLd (p / 4194304 % 8) p
  | 0x21 => decodeLdx (p / 2097152 % 16) p
  | 0x22 => decodeSt (p / 4194304 % 8) p
  | 0x23 => decodeStx (p / 2097152 % 16) p
  | 0x24 => decodeLdk (p / 4194304 % 8) p
  | 0x25 => decodeSync (p / 2097152 % 16) p
  | 0x26 => decodeFence (p / 2097152 % 16) p
  | 0x27 => decodePref (p / 4194304 % 8) p
  | 0x28 => decodeAtom (p / 2097152 % 16) p
  | 0x2A => decodeWay (p / 2097152 % 16) p
  | 0x2C => decodeBar (p / 2097152 % 16) p
  | 0x2D => decodeWork (p / 2097152 % 16) p
  | 0x2E => decodeSreg (p / 2097152 % 16) p
  | 0x30 => decodeCopy (p / 2097152 % 16) p
  | 0x32 => decodeTile (p / 2097152 % 16) p
  | 0x36 => decodeChart (p / 2097152 % 16) p
  | 0x3B => decodeBank (p / 2097152 % 16) p
  | 0x3C => decodeLink (p / 2097152 % 16) p
  | 0x3D => decodeSys (p / 2097152 % 16) p
  | 0x3F => decodeExperimental (p / 2097152 % 16) p
  | _ => none

/-- The selector values Table ENC-7 lists for a major; none for a reserved major. -/
def listedMinor (major p : Nat) : Bool :=
  match major with
  | 0x01 => true
  | 0x02 => true
  | 0x03 => [0, 1, 2, 3, 4, 5, 6, 7, 8].contains (p / 2097152 % 16)
  | 0x04 => [0, 1, 2, 3, 4, 5, 6, 7, 8, 9, 10, 11, 12].contains (p / 2097152 % 16)
  | 0x08 => [0, 1, 2, 3, 4, 5, 6, 7, 8, 9, 10, 11, 12, 13, 14, 15].contains (p / 2097152 % 16)
  | 0x09 => [0, 1, 2, 3, 4, 5, 6, 7, 8, 9, 10, 11, 12, 13, 14, 15].contains (p / 2097152 % 16)
  | 0x0A => true
  | 0x0B => true
  | 0x0C => true
  | 0x0D => true
  | 0x0E => [0, 1, 2, 3].contains (p / 65536 % 4)
  | 0x0F => [0, 1, 2, 3, 4, 5, 6, 7, 8, 9, 10, 11, 12].contains (p / 2097152 % 16)
  | 0x10 => [0, 1, 2, 3, 4, 5, 6, 7, 8, 9, 10, 11, 12].contains (p / 2097152 % 16)
  | 0x11 => [0, 1, 2, 3, 4, 5, 6, 7, 8, 9, 10, 11, 12].contains (p / 2097152 % 16)
  | 0x13 => true
  | 0x14 => [0, 1, 2, 3, 4, 5, 6, 7, 8, 9, 10, 11, 12, 13, 14].contains (p / 2097152 % 16)
  | 0x15 => [0, 1, 2, 3, 4, 5, 6, 7, 8, 9, 10, 11, 12, 13, 14].contains (p / 2097152 % 16)
  | 0x16 => [0, 1, 2, 3, 4, 5, 6, 7, 8, 9].contains (p / 2097152 % 16)
  | 0x17 => [0, 1, 2, 3, 4, 5, 6, 7, 8, 9, 10, 11, 12, 13, 14, 15].contains (p / 2097152 % 16)
  | 0x18 => [0, 1, 2, 3, 4, 5, 6, 7].contains (p / 2097152 % 16)
  | 0x19 => [0, 1, 2, 3, 4, 5, 6, 7, 8, 9, 10, 11, 12, 13, 14, 15].contains (p / 2097152 % 16)
  | 0x1A => [0, 1, 2, 3, 4].contains (p / 2097152 % 16)
  | 0x1C => [0, 1, 2, 3, 4, 5, 6, 7, 8, 9, 10, 11, 12, 13, 14, 15].contains (p / 2097152 % 16)
  | 0x20 => [0, 1, 2, 3, 4, 5, 6].contains (p / 4194304 % 8)
  | 0x21 => [0, 1, 2, 3, 4, 5, 6].contains (p / 2097152 % 16)
  | 0x22 => [0, 2, 4, 5, 6].contains (p / 4194304 % 8)
  | 0x23 => [0, 2, 4, 5, 6].contains (p / 2097152 % 16)
  | 0x24 => [4, 5, 6].contains (p / 4194304 % 8)
  | 0x25 => [0, 1, 2, 3, 4, 5, 6, 7, 8, 9, 10, 11, 12, 13, 14, 15].contains (p / 2097152 % 16)
  | 0x26 => [0, 1, 2].contains (p / 2097152 % 16)
  | 0x27 => [0, 1].contains (p / 4194304 % 8)
  | 0x28 => [0, 1, 2, 3, 4, 5, 6, 7, 8, 9, 10, 11, 12, 13, 14, 15].contains (p / 2097152 % 16)
  | 0x2A => [0, 1, 2, 3, 4, 5].contains (p / 2097152 % 16)
  | 0x2C => [0, 1, 2, 3, 4, 5, 6, 7, 8].contains (p / 2097152 % 16)
  | 0x2D => [0, 1, 2, 3, 4, 5, 6].contains (p / 2097152 % 16)
  | 0x2E => [0, 1].contains (p / 2097152 % 16)
  | 0x30 => [0, 1, 2, 3, 4, 5].contains (p / 2097152 % 16)
  | 0x32 => [0, 1, 2, 3, 4, 5, 6, 7].contains (p / 2097152 % 16)
  | 0x36 => [0, 1, 2, 3, 4, 5, 6, 7, 8, 9].contains (p / 2097152 % 16)
  | 0x3B => [0, 1, 2, 3, 4, 5].contains (p / 2097152 % 16)
  | 0x3C => [0, 1, 2, 3, 4, 5].contains (p / 2097152 % 16)
  | 0x3D => [0, 1, 2, 3, 4, 5].contains (p / 2097152 % 16)
  | 0x3F => [1].contains (p / 2097152 % 16)
  | _ => false

/-- The decoder, total on any word: an instruction, or why the word is none (Table ENC-8). -/
noncomputable def decodeWord (w : Word) : Except Reject Instr :=
  match decodeInstr w with
  | some i => .ok i
  | none => .error (if listedMinor (w.toNat / 33554432 % 64) (w.toNat % 33554432) then .mustBeZero else .reservedOpcode)

/-- Bit [31], the chain bit C (03 R52). -/
def chainBit (w : Word) : Bool := w.getLsbD 31

/-- A little-endian number from its bytes, the lowest address first (00 R4). -/
def bytesToNat : List Byte → Nat
  | [] => 0
  | b :: t => b.toNat + 256 * bytesToNat t

/-- The low `n` bytes of a number, lowest first (00 R4). -/
def natToBytes : Nat → Nat → List Byte
  | 0, _ => []
  | n + 1, x => BitVec.ofNat 8 x :: natToBytes n (x / 256)

/-- The decoder on bytes in memory order: the instruction and the bytes after it, or the reason. -/
noncomputable def decodeBytes (l : List Byte) : Except Reject (Instr × List Byte) :=
  if l.length < 4 then .error .short
  else (decodeWord (BitVec.ofNat 32 (bytesToNat (l.take 4)))).map fun i => (i, l.drop 4)

/-- The fields of a clause head (Table ENC-1). -/
def decodeHead (w : Word) : ClauseHead :=
  { version := w.extractLsb' 28 4, yield := w.extractLsb' 26 2, valid := w.extractLsb' 23 3,
    sbValid := w.getLsbD 22, sb := w.extractLsb' 18 4, saValid := w.getLsbD 17, sa := w.extractLsb' 13 4,
    zero := w.getLsbD 12, wait := w.extractLsb' 0 12 }

/-- The head word of Table ENC-1 from its fields. -/
def encodeHead (h : ClauseHead) : Word :=
  BitVec.ofNat 32 (h.version.toNat * 268435456 + h.yield.toNat * 67108864 + h.valid.toNat * 8388608
    + h.sbValid.toNat * 4194304 + h.sb.toNat * 262144 + h.saValid.toNat * 131072 + h.sa.toNat * 8192
    + h.zero.toNat * 4096 + h.wait.toNat)

/-- The instruction our decoder reads from a word given as the opcode table numbers its bits (one 32-bit word a row). -/
noncomputable def decodeTableWord (nbits w : Nat) : Option Instr :=
  if nbits ≤ 32 then
    match decodeBytes (natToBytes 4 w) with
    | .ok (i, _) => some i
    | .error _ => none
  else none

end Sys2Proof
end

