-- ==== Sys2Proof/Machine/Words.lean ====
section
/-! DEFINITION. What the clause checks and the scheduler read off a word's bits: its pipe, whether it is long-latency or a control
transfer, and the registers it writes (Tables ENC-2, ENC-4, ENC-7; 03 R46). A word of a reserved, removed or unmatched experimental
major has none of these. -/

namespace Sys2Proof.Machine

/-- Table ENC-4. -/
inductive Pipe where
  | c
  | i
  | f
  | x
  | m
  | e
  deriving DecidableEq, Repr

def Word.major (w : Word) : Nat := bitsAt w.toNat 25 6
/-- MIN[24:21]. -/
def Word.min (w : Word) : Nat := bitsAt w.toNat 21 4
/-- SZ[24:22]. -/
def Word.sz (w : Word) : Nat := bitsAt w.toNat 22 3

/-- The pipe of a word's major (Table ENC-7); `sys`, `control`, `bar`, `work` and `sreg` go to C. -/
def Word.pipe (w : Word) : Option Pipe :=
  match Word.major w with
  | 0x01 | 0x02 | 0x03 | 0x04 | 0x2C | 0x2D | 0x2E | 0x3D => some .c
  | 0x08 | 0x09 | 0x0A | 0x0B | 0x0C | 0x0D | 0x0E | 0x0F | 0x10 | 0x11 => some .i
  | 0x14 | 0x15 | 0x16 | 0x17 | 0x19 => some .f
  | 0x18 | 0x1A | 0x1C => some .x
  | 0x20 | 0x21 | 0x22 | 0x23 | 0x24 | 0x25 | 0x26 | 0x27 | 0x28 | 0x2A => some .m
  | 0x30 | 0x32 | 0x36 | 0x3B | 0x3C => some .e
  | 0x3F => if Word.min w = 1 then some .e else none
  | _ => none

/-- Memory words, engine commands and barrier arrivals: what a fence's release holds back (07 R148). -/
def Word.waitsFence (w : Word) : Bool :=
  decide (Word.pipe w = some .m) || decide (Word.pipe w = some .e) || (Word.major w == 0x2C && [0, 2, 5, 7, 8].contains (Word.min w))

/-- Table ENC-2. -/
def Word.isLong (w : Word) : Bool :=
  match Word.major w with
  | 0x18 => decide (Word.min w ≤ 7)
  | 0x15 => Word.min w == 13 || Word.min w == 14
  | 0x1A => decide (Word.min w ≤ 4)
  | 0x1C => decide (Word.min w ≤ 3)
  | 0x20 | 0x21 | 0x24 | 0x28 => true
  | 0x25 => decide (Word.min w ≤ 7)
  | 0x2A => Word.min w == 3 || Word.min w == 5
  | _ => false

/-- A branch, call, jump, return or `exit` (03 R46), `tret` included (16 R331). -/
def Word.isTransfer (w : Word) : Bool :=
  match Word.major w with
  | 0x01 | 0x02 => true
  | 0x03 => Word.min w == 0 || Word.min w == 1 || Word.min w == 2 || Word.min w == 4
  | 0x3D => Word.min w == 1
  | _ => false

/-- Registers a word writes, for the chain check of R46: 0-95 v, 96-127 s (a write to s0 writes nothing), 128 + k a mask. -/
def Word.writes (w : Word) : List Nat :=
  let n := w.toNat
  let rrr := bitsAt n 14 7
  let reg (r k : Nat) : List Nat := ((List.range k).map (r + ·)).filter (· ≠ 96)
  let mask := [128 + bitsAt n 14 3]
  let five (lo : Nat) := reg (96 + bitsAt n lo 5) 1
  let loadRegs (code : Nat) := if code = 5 then 2 else if code = 6 then 4 else 1
  match Word.major w with
  | 0x02 => [126, 127]
  | 0x03 => if Word.min w = 2 then [126, 127] else if Word.min w = 3 ∧ bitsAt n 14 3 ≠ 0 then mask else []
  | 0x04 => if 8 ≤ Word.min w ∧ Word.min w ≤ 10 then reg rrr 1 else mask
  | 0x08 | 0x09 | 0x11 => reg rrr 1
  | 0x0A | 0x0B | 0x0C | 0x0D | 0x0E => reg (bitsAt n 18 7) 1
  | 0x0F | 0x17 => mask
  | 0x10 | 0x15 => reg rrr 2
  | 0x14 | 0x16 | 0x18 => reg rrr 1
  | 0x19 => reg rrr (if [6, 12, 13, 14].contains (Word.min w) then 2 else 1)
  | 0x1A => reg rrr (if Word.min w = 1 then 3 else if Word.min w = 2 then 4 else 1)
  | 0x1C => if Word.min w = 15 then mask else if Word.min w = 8 then [] else reg rrr 1
  | 0x20 | 0x24 => reg (bitsAt n 15 7) (loadRegs (Word.sz w))
  | 0x21 => reg rrr (loadRegs (Word.min w))
  | 0x25 => if Word.min w ≤ 3 then reg rrr 1 else if Word.min w ≤ 7 then reg rrr 2 else []
  | 0x28 => if rrr = 96 then [] else reg rrr (if [1, 10, 12].contains (Word.min w) then 2 else 1)
  | 0x2A => if Word.min w = 3 then mask else if Word.min w = 5 then reg rrr 2 else []
  | 0x2C => if Word.min w = 3 then reg rrr 1 else []
  | 0x2D => if Word.min w = 0 ∨ Word.min w = 5 then reg rrr 1 else []
  | 0x2E => if Word.min w = 0 then reg rrr 1 else []
  | 0x30 | 0x3B | 0x3C => five 16
  | 0x32 => if Word.min w = 5 then five 16 ++ five 8 else five 16
  | 0x36 => if Word.min w = 6 then five 16 else if Word.min w = 3 ∨ Word.min w = 4 then five 7 else if Word.min w = 8 ∧ n.testBit 11 then five 16 else []
  | 0x3D => if (Word.min w = 3 ∧ n.testBit 0) ∨ (Word.min w = 5 ∧ bitsAt n 0 14 = 0) then reg rrr 1 else []
  | _ => []

/-- How many registers an RRR word names from OPD, OPA and OPB on (chapters 5 to 10). -/
def Word.counts (w : Word) : Nat × Nat × Nat :=
  let m := Word.min w
  let load (code : Nat) : Nat := if code = 5 then 2 else if code = 6 then 4 else 1
  match Word.major w with
  | 0x04 => if 8 ≤ m ∧ m ≤ 10 then (1, 0, 0) else if m = 11 ∨ m = 12 then (0, 1, 0) else (0, 0, 0)
  | 0x08 | 0x16 => (1, 1, 1)
  | 0x09 => if 1 ≤ m ∧ m ≤ 4 then (1, 1, 0) else (1, 1, 1)
  | 0x0F => if 10 ≤ m then (0, 2, 2) else (0, 1, 1)
  | 0x10 => if m ≤ 2 then (2, 2, 2) else if m = 6 ∨ m = 7 then (2, 1, 0) else (2, 2, 1)
  | 0x11 => if 9 ≤ m then (1, 1, 0) else (1, 1, 1)
  | 0x13 => if m = 0 then (1, 1, 1) else (0, 0, 0)
  | 0x14 => if m ≤ 6 ∨ m = 9 then (1, 1, 1) else (1, 1, 0)
  | 0x15 => if m ≤ 6 ∨ m = 13 then (2, 2, 2) else (2, 2, 0)
  | 0x17 => if m < 8 then (0, 1, 1) else (0, 2, 2)
  | 0x18 => if m = 5 then (1, 1, 1) else (1, 1, 0)
  | 0x19 => match m with
    | 2 | 5 => (1, 1, 1)
    | 6 | 14 => (2, 1, 0)
    | 7 | 15 => (1, 2, 0)
    | 12 | 13 => (2, 2, 0)
    | _ => (1, 1, 0)
  | 0x1A => match m with
    | 0 => (1, 11, 6)
    | 1 => (3, 11, 12)
    | 2 => (4, 2, 2)
    | _ => (1, 6, 0)
  | 0x1C => if m ≤ 4 ∨ m = 9 ∨ m = 10 then (1, 1, 1) else if m = 8 then (0, 1, 1) else if m = 15 then (0, 1, 0) else (1, 1, 0)
  | 0x21 | 0x23 => (load m, 2, 1)
  | 0x25 => (if m / 4 % 2 = 0 then 1 else 2, 2, 0)
  | 0x28 => match m with
    | 1 | 10 => (2, 2, 2)
    | 11 => (1, 2, 2)
    | 12 => (2, 2, 4)
    | _ => (1, 2, 1)
  | 0x2A => if m = 5 then (2, 2, 0) else if m = 1 ∨ m = 4 then (0, 2, 0) else (0, 2, 1)
  | 0x2D => if m = 4 then (1, 0, 0) else (0, 0, 0)
  | 0x2E => if m = 0 then (1, 0, 0) else (0, 0, 0)
  | _ => (0, 0, 0)

/-- The v registers a word names (16 R340). -/
def Word.vNames (w : Word) : List Nat :=
  let n := w.toNat
  let reg (lo k : Nat) : List Nat := (List.range k).map (bitsAt n lo 7 + ·)
  let c := Word.counts w
  let all := match Word.major w with
    | 0x0A | 0x0B | 0x0C | 0x0D => reg 18 1 ++ reg 11 1
    | 0x0E => reg 18 1
    | 0x20 | 0x22 | 0x24 => reg 15 (if Word.sz w = 5 then 2 else if Word.sz w = 6 then 4 else 1) ++ reg 8 2
    | 0x27 => reg 8 2
    | _ => reg 14 c.1 ++ reg 7 c.2.1 ++ reg 0 c.2.2
  all.filter (· < 96)

/-- A step of such words alone takes one issue cycle whatever W is: mask words (04 R88), and words of pipes I, F and X whose register operands are all s
registers (05 R91). -/
def Word.onePass (w : Word) : Bool :=
  Word.major w == 0x04 || ((Word.pipe w == some .i || Word.pipe w == some .f || Word.pipe w == some .x) && (Word.vNames w).isEmpty)

/-- The displacement of a `br` or `call` from its clause (04 R76, R78). -/
def Word.target (clause : Pc) (w : Word) : Pc := clause + BitVec.ofInt 57 (16 * sextN w.toNat 21)

/-- Slot numbers 1 to 3 that hold an instruction (Table ENC-1). -/
def headSlots (h : ClauseHead) : List Nat := [1, 2, 3].filter fun i => h.valid.getLsbD (i - 1)

/-- The pipe of a word on a part of stepping B0 or of another, where the experimental major goes to none (03 R63). -/
def Word.pipeOn (b0 : Bool) (w : Word) : Option Pipe := if Word.major w = 0x3F ∧ b0 = false then none else Word.pipe w

/-- Two words of a chain conflict: one pipe, or a register both write (03 R46). -/
def Word.conflict (b0 : Bool) (a b : Word) : Bool :=
  (Word.pipeOn b0 a).isSome && decide (Word.pipeOn b0 a = Word.pipeOn b0 b) || (Word.writes a).any fun r => (Word.writes b).contains r

/-- The slots of the chain that begins at slot i (03 R52). -/
def chainFrom (words : List Word) (i : Nat) : List Nat :=
  if chainBit (words.getD i 0) && decide (i < 3)
  then if chainBit (words.getD (i + 1) 0) && decide (i + 1 < 3) then [i, i + 1, i + 2] else [i, i + 1]
  else [i]

/-- The clause passes the checks of R46, on a part of stepping B0 or of another. -/
def clauseOk (b0 : Bool) (words : List Word) : Bool :=
  let h := decodeHead (words.getD 0 0)
  let slots := (headSlots h)
  let word (i : Nat) : Word := words.getD i 0
  let long := slots.filter fun i => Word.isLong (word i)
  let lastSlot := slots.getLastD 0
  let conflicts := slots.any fun i => (chainFrom words i).any fun j => (chainFrom words i).any fun k => decide (j < k) && Word.conflict b0 (word j) (word k)
  decide (h.version = 10) && !h.zero && !slots.isEmpty
  && !(h.saValid && decide (12 ≤ h.sa.toNat)) && !(h.sbValid && decide (12 ≤ h.sb.toNat))
  && !(h.saValid && h.sbValid && decide (h.sa = h.sb)) && !(!h.saValid && decide (h.sa ≠ 0)) && !(!h.sbValid && decide (h.sb ≠ 0))
  && !(slots.any fun i => chainBit (word i) && (i == 3 || i == lastSlot || !slots.contains (i + 1)))
  && !conflicts
  && !(slots.any fun i => Word.isTransfer (word i) && i ≠ lastSlot)
  && decide (long.length ≤ 2) && !(decide (1 ≤ long.length) && !h.saValid) && !(decide (2 ≤ long.length) && !h.sbValid)

/-- The set-flag of the long-latency word in slot i (03 R48). -/
def flagOf (words : List Word) (i : Nat) : Nat :=
  let h := decodeHead (words.getD 0 0)
  if ((headSlots h).filter fun j => decide (j < i) && Word.isLong (words.getD j 0)).isEmpty then h.sa.toNat else h.sb.toNat

end Sys2Proof.Machine
end

