-- ==== Sys2Proof/Machine/Ops.lean ====
section
/-! DEFINITION. The named operations over groups, registers and memory, taking an exception (16 R327) and the return from one
(16 R331), and the frame every instruction word runs in (Table ENC-9, 03 R54). -/

namespace Sys2Proof.Machine

/-! Access to the parts of the state. -/

def State.onGroup (s : State) (n : Nat) (f : Group → Group) : State := { s with groups := Tab.change s.groups n f }
def State.onBlock (s : State) (n : Nat) (f : Block → Block) : State := { s with blocks := Tab.change s.blocks n f }
def State.onLaunch (s : State) (n : Nat) (f : Launch → Launch) : State := { s with launches := Tab.change s.launches n f }
def State.onCluster (s : State) (n : Nat) (f : Cluster → Cluster) : State := { s with clusters := Tab.change s.clusters n f }
def State.onUnit (s : State) (n : Nat) (f : PreUnit → PreUnit) : State := { s with units := Tab.change s.units n f }
def State.core (s : State) (n : Nat) : Core := Tab.get Core.reset s.cores n
def State.onCore (s : State) (n : Nat) (f : Core → Core) : State := { s with cores := Tab.set Core.reset s.cores n (f (s.core n)) }
def State.context (s : State) (n : Nat) : Context := Tab.get Context.reset s.contexts n
def State.onContext (s : State) (n : Nat) (f : Context → Context) : State :=
  { s with contexts := Tab.set Context.reset s.contexts n (f (s.context n)) }
def State.queue (s : State) (n : Nat) : Queue := Tab.get Queue.reset s.queues n
def State.onQueue (s : State) (n : Nat) (f : Queue → Queue) : State := { s with queues := Tab.set Queue.reset s.queues n (f (s.queue n)) }
def State.pchannel (s : State) (n : Nat) : PChannel := Tab.get PChannel.reset s.pchannels n
def State.onPchannel (s : State) (n : Nat) (f : PChannel → PChannel) : State :=
  { s with pchannels := Tab.set PChannel.reset s.pchannels n (f (s.pchannel n)) }

/-- A fresh name. -/
def State.fresh (s : State) : Nat × State := (s.nextId, { s with nextId := s.nextId + 1 })

def State.blockOf (s : State) (g : Group) : Option Block := Tab.find s.blocks g.block
def State.launchOf (s : State) (g : Group) : Option Launch := (s.blockOf g).bind fun b => Tab.find s.launches b.launch
def State.coreOf (s : State) (g : Group) : Nat := ((s.blockOf g).map (·.core)).getD 0
/-- The privileged flag of the group's launch (Table WRK-2). -/
def State.privOf (s : State) (g : Group) : Bool := ((s.launchOf g).map fun l => l.card.flags.getLsbD 1).getD false
def State.ctxOf (s : State) (g : Group) : Nat := ((s.launchOf g).map (·.ctx)).getD 0

/-- The groups of a block, with their names. -/
def State.groupsOf (s : State) (b : Nat) : List (Nat × Group) := s.groups.filter fun e => e.2.block = b

/-! Locations of memory: one key space for every memory the spec gives the machine (07 R133, 08 R169). -/

def Ops.loc (tag addr : Nat) : Nat := tag * 2 ^ 64 + addr
/-- A byte of device memory at a physical address. -/
def Ops.devLoc (pa : Nat) : Nat := pa
/-- A byte of host memory. -/
def Ops.hostLoc (pa : Nat) : Nat := Ops.loc 1 pa
/-- A byte of a peer's memory: PA[51:46] the device, PA[45:0] the address. -/
def Ops.peerLoc (pa : Nat) : Nat := Ops.loc 2 pa
/-- A byte of a block's scratchpad; the range moves with the block (07 R136). -/
def Ops.scratchLoc (block off : Nat) : Nat := Ops.loc 3 (block * 2 ^ 20 + off)
/-- A byte of a die's L2 scratch (07 R141). -/
def Ops.l2Loc (die off : Nat) : Nat := Ops.loc 4 (die * 2 ^ 35 + off)

def State.readByte (s : State) (l : Nat) : Byte := Tab.get 0 s.mem l
def State.writeByte (s : State) (l : Nat) (b : Byte) : State := { s with mem := Tab.set 0 s.mem l b }
def State.writeBytes (s : State) (cells : List (Nat × Byte)) : State := each cells (fun c s => s.writeByte c.1 c.2) s
/-- n bytes from a location on, as one little-endian number (00 R4). -/
def State.readNat (s : State) (l n : Nat) : Nat := bytesToNat ((List.range n).map fun i => s.readByte (l + i))
def State.writeNat (s : State) (l n v : Nat) : State :=
  s.writeBytes ((List.range n).zip (natToBytes n v) |>.map fun e => (l + e.1, e.2))

/-- The canonical form of the memory. -/
def Memory.wf (m : Tab Byte) : Bool := Tab.wf 0 m

/-- The pseudo-channel, 0 to 511, of a location of device memory (Table BNK-1). -/
def Ops.pchOf (l : Nat) : Option Nat := if l < 2 ^ 39 then some (l / 2 ^ 36 * 64 + l / 2 ^ 9 % 64) else none

/-- The location lies in a pseudo-channel in all-bank mode, or held by a calibration, so traffic that reaches the memory waits (Table BNK-2, 14 R309). -/
def State.heldAt (s : State) (l : Nat) : Bool :=
  match Ops.pchOf l with
  | some p => (s.pchannel p).holder.isSome || (s.pchannel p).hold.isSome
  | none => false

/-- The first core of a pod, where the service group lives (01 R19). -/
def Ops.hostsService (core : Nat) : Bool := core % 12 == 0

/-! Time (01 R11). -/

/-- Network cycles in a microsecond, by which every time in SI units is counted (00 R3). -/
def Ops.perMicro : Nat := 1880

/-- The core's cycles after so many network cycles under way. -/
def Core.now (k : Core) (awake : Nat) : Nat := (k.ticks + (awake - k.since) * k.clock) / Ops.perMicro
/-- The cycle a core is in. -/
def State.now (s : State) (core : Nat) : Nat := (s.core core).now s.awake
/-- The cycle of the core a group is on. -/
def State.nowOf (s : State) (g : Group) : Nat := s.now (s.coreOf g)

/-! Slices and lanes. -/

def Seq.empty : Seq := { pc := 0, m := 0, a := 0, parked := [], releases := [], susp := [], wait := .none }
def Slice.empty : Slice :=
  { seq := Seq.empty, exited := 0, s := [], cycleh := 0, gang := 0, exitAt := 0, exitNow := 0, passTo := 0, after := 0 }

def Group.slice (g : Group) (i : Nat) : Slice := g.slices.getD i Slice.empty
/-- Changes every slice of a set. -/
def Group.onSlices (g : Group) (set : SliceSet) (f : Nat → Slice → Slice) : Group :=
  { g with slices := g.slices.mapIdx fun i x => if set.getLsbD i then f i x else x }
def Slice.onSeq (x : Slice) (f : Seq → Seq) : Slice := { x with seq := f x.seq }

/-- Every slice of the group. -/
def Group.allSlices (g : Group) : SliceSet := bitSet 32 fun i => decide (i < g.slices.length)
/-- The lanes of a set of slices, below W. -/
def Group.lanesOf (g : Group) (set : SliceSet) : LaneSet := bitSet 128 fun l => set.getLsbD (l / 4) && decide (l / 4 < g.slices.length)
/-- EXEC of a split: the union of its slices' active sets (04 R72). -/
def Group.execOf (g : Group) (set : SliceSet) : LaneSet :=
  bitSet 128 fun l => set.getLsbD (l / 4) && (g.slice (l / 4)).seq.a.getLsbD (l % 4)
def Group.exitedLanes (g : Group) : LaneSet := bitSet 128 fun l => (g.slice (l / 4)).exited.getLsbD (l % 4)
/-- The lanes of slice i in a lane set. -/
def laneNib (x : LaneSet) (i : Nat) : BitVec 4 := (x >>> (4 * i)).setWidth 4

/-! Registers (01 R21, 04 R73, R75). -/

def Group.readV (g : Group) (r l : Nat) : Word := Tab.get 0 g.v (r * 128 + l)
def Group.writeV (g : Group) (r l : Nat) (x : Word) : Group := { g with v := Tab.set 0 g.v (r * 128 + l) x }

/-- s0 reads 0; in a handler's slices s24-s27 are the banked copies (16 R330). -/
def Group.readS (g : Group) (i r : Nat) : Word :=
  if r = 0 then 0
  else match g.handler with
    | some h => if h.h.getLsbD i && decide (24 ≤ r) && decide (r ≤ 27) then Tab.get 0 h.banked (i * 4 + (r - 24))
                else Tab.get 0 (g.slice i).s r
    | none => Tab.get 0 (g.slice i).s r

/-- A write to s0 is discarded; in a handler's slices s24-s27 are the banked copies. -/
def Group.writeS1 (g : Group) (i r : Nat) (x : Word) : Group :=
  if r = 0 then g
  else
    let plain := g.onSlices (bitSet 32 (· == i)) fun _ sl => { sl with s := Tab.set 0 sl.s r x }
    match g.handler with
    | some h => if h.h.getLsbD i && decide (24 ≤ r) && decide (r ≤ 27)
                then { g with handler := some { h with banked := Tab.set 0 h.banked (i * 4 + (r - 24)) x } }
                else plain
    | none => plain

/-- A write by a split reaches the copy of every slice of the split (04 R73). -/
def Group.writeS (g : Group) (set : SliceSet) (r : Nat) (x : Word) : Group := each (members set) (fun i g => g.writeS1 i r x) g

/-- The handler a split issues in, 0 outside one. -/
def Group.epochOf (g : Group) (set : SliceSet) : Nat :=
  match g.handler with
  | some h => if h.h &&& set ≠ 0 then h.id else 0
  | none => 0

/-- A late write to an s register by a word or command issued in handler `epoch` (0: in none), which named that handler's copy of s24-s27. -/
def Group.writeLate (g : Group) (epoch : Nat) (set : SliceSet) (r : Nat) (x : Word) : Group :=
  if 24 ≤ r ∧ r ≤ 27 then
    match g.handler with
    | some h =>
      if epoch = 0 then each (members set) (fun i g => g.onSlices (bitSet 32 (· == i)) fun _ sl => { sl with s := Tab.set 0 sl.s r x }) g
      else if epoch = h.id then g.writeS set r x
      else g
    | none => if epoch = 0 then g.writeS set r x else g
  else g.writeS set r x

/-- Mask register k for a split: m0 is its EXEC (04 R75). -/
def Group.readM (g : Group) (exec : LaneSet) (k : Nat) : LaneSet := if k = 0 then exec else Tab.get 0 g.m k

/-- The lanes of a slice that are neither exited, suspended nor held in a release (04 R75). -/
def Slice.freeLanes (x : Slice) : BitVec 4 :=
  bitSet 4 fun j => !(x.exited.getLsbD j) && (Tab.find x.seq.susp j).isNone && !(x.seq.releases.any fun r => r.2.1.getLsbD j)

/-- A mask write by a split (04 R75): m1-m7 in the lanes of its slices, m0 by making lanes active. -/
def Group.writeM (g : Group) (set : SliceSet) (k : Nat) (x : LaneSet) : Group :=
  if k = 0 then
    g.onSlices set fun i sl =>
      let a := laneNib x i &&& sl.freeLanes
      sl.onSeq fun q => { q with a := a, m := q.m ||| a }
  else
    let sl := g.lanesOf set
    { g with m := Tab.set 0 g.m k ((Tab.get 0 g.m k &&& ~~~sl) ||| (x &&& sl)) }

/-! The group's running time, which its timers count (04 R84, 09 R202). -/

def Group.time (g : Group) (now : Nat) : Nat := g.ran + (match g.runs with
  | some t => now - t
  | none => 0)
def Group.pause (now : Nat) (g : Group) : Group := { g with ran := g.time now, runs := none }
def Group.resume (now : Nat) (g : Group) : Group := if g.runs.isSome then g else { g with runs := some now }

/-- Cycles count for the group: it is resident, not halted by `stop`, and runs no trap handler (04 R84). -/
def State.counts (s : State) (g : Group) : Bool :=
  ((s.blockOf g).any fun b => b.halt.isNone && !b.away && !b.ended) && g.handler.all fun h => h.kind != .trap
/-- The timers of a group run or stand as they must now. -/
def State.setTimer (s : State) (gid : Nat) : State :=
  s.onGroup gid fun g => if s.counts g then g.resume (s.nowOf g) else g.pause (s.nowOf g)

/-- The count of set-flag f (03 R47, R48). -/
def Group.flagCount (g : Group) (f : Nat) : Nat := (g.longs.filter fun e => e.2.flag = f).length

/-- A long-latency word is over: its marks and its count go; a flag that becomes clear reads so to a waiting clause from the next cycle on (03 R47). -/
def Group.endLong (now op : Nat) (g : Group) : Group :=
  let h := { g with longs := Tab.erase g.longs op }
  match Tab.find g.longs op with
  | none => h
  | some o => if h.flagCount o.flag = 0 then { h with flagTil := Tab.set 0 h.flagTil o.flag (now + 1) } else h

/-- The next piece of work of a slice whose current entry has become empty (04 R80): its oldest release, else its parked entries from
the top, one whose lanes have all exited being discarded (04 R85). -/
def Seq.popParked (exited : BitVec 4) : List (Pc × BitVec 4) → Option (Pc × BitVec 4 × List (Pc × BitVec 4))
  | [] => none
  | (pc, k) :: t => if k &&& ~~~exited = 0 then Seq.popParked exited t else some (pc, k &&& ~~~exited, t)

def Slice.takeWork (x : Slice) : Slice :=
  if x.seq.m ≠ 0 then x
  else match x.seq.releases with
    | (pc, m, a) :: rest => { x with gang := 0, seq := { x.seq with pc := pc, m := m, a := a, releases := rest, wait := .none } }
    | [] => match Seq.popParked x.exited x.seq.parked with
      | some (pc, k, rest) => { x with gang := 0, seq := { x.seq with pc := pc, m := k, a := k, parked := rest, wait := .none } }
      | none => { x with gang := 0, seq := { x.seq with m := 0, a := 0, parked := [], wait := .none } }

/-! Waypoint keys, as far as stopping a group needs them (09 R190, R193). -/

def State.way (s : State) (key : DWord) : Option WayEntry := Tab.find s.waypoints key.toNat

/-- R190: firm skips of a free section advance NEXT. -/
def WayEntry.advance (e : WayEntry) : Nat → WayEntry
  | 0 => e
  | n + 1 =>
    if e.holder.isNone && e.skips.any (fun k => k.firm && k.seq == e.next)
    then WayEntry.advance { e with next := e.next + 1, skips := e.skips.filter fun k => !(k.firm && k.seq == e.next) } n
    else e

/-- One more or one less section for a lane (09 R199). -/
def Group.addSection (g : Group) (l : Nat) : Group := { g with sections := Tab.set 0 g.sections l (Tab.get 0 g.sections l + 1) }
def Group.dropSection (g : Group) (l : Nat) : Group := { g with sections := Tab.set 0 g.sections l (Tab.get 0 g.sections l - 1) }

/-- The home pod of a key (09 R180). -/
def Ops.podOfKey (key : DWord) : Nat :=
  let h0 := (hiHalf key ^^^ loHalf key).toNat
  (h0 ^^^ (h0 / 2 ^ 16)) % 192 / 4

/-- The checks a grant starts: one for each wait left that is another group's (09 R200). -/
def WayEntry.checks (group : Nat) (waits : List WayWait) : List (Nat × Nat) := (waits.filter fun x => x.group ≠ group).map fun x => (x.group, x.op)

/-- Applies R190 to a key: skips, then the grant of the wait that names NEXT, which starts its checks. -/
def State.settleKey (s : State) (key : DWord) : State :=
  match s.way key with
  | none => s
  | some e0 =>
    let e := e0.advance (e0.skips.length + 1)
    let keep (e : WayEntry) : State := { s with waypoints := Tab.put s.waypoints key.toNat e }
    if e.holder.isSome || e.poison then keep e
    else match e.waits.find? (fun w => w.seq == e.next) with
      | none => keep e
      | some w =>
        let rest := e.waits.filter fun x => !(x.seq == e.next)
        let s1 := keep { e with holder := some (w.group, w.lane, w.op), waits := rest }
        let s2 := s1.onGroup w.group fun g => g.addSection w.lane
        { s2 with replies := s2.replies ++ [{ pod := Ops.podOfKey key, group := w.group, op := w.op, lane := w.lane, answer := .granted }],
                  probes := s2.probes ++ WayEntry.checks w.group rest }

/-- Removes a word's wait and tentative skip from a key, and frees a section its lane was granted, NEXT unchanged, where `frees` (09 R193, R195). -/
def State.undoKey (gid op : Nat) (frees : Bool) (lk : Nat × DWord) (s : State) : State :=
  match s.way lk.2 with
  | none => s
  | some e =>
    let mine := frees ∧ e.holder = some (gid, lk.1, op)
    let e1 := { e with waits := e.waits.filter fun w => !(w.group == gid && w.op == op),
                       skips := e.skips.filter fun k => k.firm || !(k.group == gid && k.op == op),
                       holder := if mine then none else e.holder }
    let s1 := { s with waypoints := Tab.put s.waypoints lk.2.toNat e1 }
    let s2 := if mine then s1.onGroup gid fun g => g.dropSection lk.1 else s1
    s2.settleKey lk.2

/-- A way word of the group goes: its requests, replies, waits and checks, and, where `frees`, its grants. -/
def State.dropKeys (s : State) (gid op : Nat) (frees : Bool) (keys : Tab DWord) : State :=
  let mine (g o : Nat) : Bool := g == gid && o == op
  let s1 := { s with net := s.net.filter fun r => !(mine r.group r.op), podQ := Tab.each s.podQ fun _ q => q.filter fun r => !(mine r.group r.op) }
  let s2 := each keys (fun lk s => s.undoKey gid op frees lk) s1
  { s2 with replies := s2.replies.filter fun r => !(mine r.group r.op), probes := s2.probes.filter fun p => !(mine p.1 p.2) }

/-- Withdraws a `wayin` or `waytry` whole: its requests, waits and grants (09 R193). -/
def State.withdrawKeys (s : State) (gid op : Nat) (keys : Tab DWord) : State := s.dropKeys gid op true keys

/-- The split of a way word stands at the word again and no longer waits. -/
def Group.backToWord (g : Group) (slices : SliceSet) (pc : Pc) (op : Nat) : Group :=
  g.onSlices slices fun _ x => if x.seq.wait = .way op then { x with gang := 0, seq := { x.seq with pc := pc, wait := .none } } else x

/-- Lanes of a group that hold a section are announced to be poisoned (09 R203). -/
def State.announce (s : State) (gid : Nat) (lanes : List Nat) : State :=
  let held (l : Nat) : Bool := ((Tab.find s.groups gid).map fun g => decide (Tab.get 0 g.sections l ≠ 0)).getD false
  { s with poisons := s.poisons ++ (lanes.filter fun l => held l && !s.poisons.contains (gid, l)).map fun l => (gid, l) }

/-- A waiting `wayin` of a group that stops is withdrawn without a fault and issues again later (09 R204). -/
def State.withdrawWayin (s : State) (gid op : Nat) (w : WayOp) : State :=
  let s1 := s.withdrawKeys gid op w.keys
  s1.onGroup gid fun g => { g.backToWord w.slices w.pc op with ways := Tab.erase g.ways op }

/-- The trap of a way word found by its pods: TPC at the word (R193, R194). -/
def WayOp.trap (w : WayOp) (cause : BitVec 8) (key : DWord) (lanes : LaneSet) : Trap :=
  { stage := 7, cause := cause, pc := w.pc, word := w.word, faddr := key, level := 0, kind := 0, async := decide (w.minor = 3), lanes := lanes,
    slices := w.slices, born := 0 }

/-- WAYTO cycles of the group's running time have passed (R202). -/
def WayOp.timedOut (w : WayOp) (g : Group) (view : Nat) : Bool :=
  decide (w.minor = 0) && decide (0 < w.limit) && decide (0 < w.waiting) && decide (w.start + w.limit ≤ g.time view)

/-- The lowest lane of a `wayin` that has not been granted, whose key a WAYTO names (R202). -/
def WayOp.lateLane (w : WayOp) : Nat := ((w.keys.map (·.1)).find? fun l => !w.granted.contains l).getD 0

/-- The `wayin` of the lowest slice among those of a group whose time runs out in the cycle a trap is presented in, and which hold a lower slice than that
trap's split (09 R202, 16 R329). -/
def Group.lateWayin (g : Group) (t : Trap) : Option (Nat × WayOp) :=
  (g.ways.filter fun e => e.2.timedOut g t.born && decide (lowest 32 e.2.slices < lowest 32 t.slices)).foldl (fun b e => match b with
    | none => some e
    | some x => if lowest 32 e.2.slices < lowest 32 x.2.slices then some e else some x) none

/-! Phases of barriers (10 R219-R223). A group counts as ended for them from its last lane's exit on. -/

/-- Every lane of the group has exited. -/
def Group.allExited (g : Group) : Bool := g.slices.all fun x => x.exited == 15
/-- Nothing of the group will run any more: a word under way when its last lane exited may still bring it to its handler (03 R54, 21 R368). -/
def Group.finished (g : Group) : Bool :=
  g.allExited && g.trap.isNone && (g.handler.isNone || g.slices.all fun x => x.seq.m == 0)

/-- Ends the waits that satisfy p, in the slices and in the sequencers a handler keeps. -/
def Seq.wake (p : Wait → Bool) (q : Seq) : Seq := if p q.wait then { q with wait := .none } else q
def Group.wake (p : Wait → Bool) (g : Group) : Group :=
  { g with slices := g.slices.map fun x => x.onSeq (Seq.wake p),
           handler := g.handler.map fun h => { h with frame := Tab.each h.frame fun _ q => q.wake p } }
def State.wakeBlock (s : State) (b : Nat) (p : Wait → Bool) : State :=
  { s with groups := Tab.each s.groups fun _ g => if g.block = b then g.wake p else g }

def Barrier.free : Barrier := { alloc := false, gen := 0, count := 0, phase := 0, arrived := [], last := [] }
def WideBarrier.empty : WideBarrier := { phase := 0, arrived := [], last := [] }

/-- The member groups of a block that have not ended (10 R219). -/
def State.memberGroups (s : State) (b : Nat) : List Nat :=
  ((s.groupsOf b).filter fun e => !e.2.spawned && !e.2.allExited).map (·.1)

/-- Every member group of the block has arrived or ended. -/
def State.blockArrived (s : State) (arrived : List Nat) (b : Nat) : Bool := (s.memberGroups b).all arrived.contains

/-- Completes the phase of a block barrier whose expected count is reached. -/
def State.settleBarrier (s : State) (b i : Nat) : State :=
  match Tab.find s.blocks b with
  | none => s
  | some k =>
    let x := Tab.get Barrier.free k.barriers i
    let full := if i = 0 then decide (s.memberGroups b ≠ []) && s.blockArrived x.arrived b else decide (0 < x.count) && decide (x.count ≤ x.arrived.length)
    if x.alloc && full then
      (s.onBlock b fun k => { k with barriers := Tab.put k.barriers i { x with phase := x.phase + 1, arrived := [] } }).wakeBlock b
        fun w => w == .barrier i x.phase
    else s

/-- An acquire at cluster scope or wider invalidates the L1 of the core of each of the blocks (07 Table MEM-4). -/
def State.acquireBlocks (s : State) (bs : List Nat) : State :=
  each bs (fun b s => match Tab.find s.blocks b with
    | some k => s.onCore k.core fun c => { c with l1 := [] }
    | none => s) s

/-- Completes the phase of a cluster barrier: every block of the cluster has arrived or ended. -/
def State.settleCluster (s : State) (cl i : Nat) : State :=
  match Tab.find s.clusters cl with
  | none => s
  | some k =>
    let x := Tab.get WideBarrier.empty k.barriers i
    if decide (x.arrived ≠ []) && k.blocks.all (s.blockArrived x.arrived) then
      let s1 := s.onCluster cl fun k => { k with barriers := Tab.put k.barriers i { x with phase := x.phase + 1, arrived := [] } }
      (each k.blocks (fun b s => s.wakeBlock b fun w => w == .cluster i x.phase) s1).acquireBlocks k.blocks
    else s

/-- Completes the phase of a cooperative launch's grid barrier. -/
def State.settleGrid (s : State) (l : Nat) : State :=
  match Tab.find s.launches l with
  | none => s
  | some k =>
    let bs := (s.blocks.filter fun e => e.2.launch = l).map (·.1)
    if k.coop.isSome && decide (k.grid.arrived ≠ []) && bs.all (s.blockArrived k.grid.arrived) then
      let s1 := s.onLaunch l fun k => { k with grid := { k.grid with phase := k.grid.phase + 1, arrived := [] } }
      (each bs (fun b s => s.wakeBlock b fun w => w == .grid k.grid.phase) s1).acquireBlocks bs
    else s

/-! Regrouping (10 R230). -/

/-- A number put before the first that is not smaller. -/
def insertNat (n : Nat) : List Nat → List Nat
  | [] => [n]
  | k :: t => if k < n then k :: insertNat n t else n :: k :: t
/-- The numbers in increasing order. -/
def sortNat (l : List Nat) : List Nat := l.foldr insertNat []

/-- The slice of the group that waits in `regroup`, and the register of its keys. -/
def Group.regroupsAt (g : Group) : Option (Nat × Nat) :=
  (List.range g.slices.length).findSome? fun i => match (g.slice i).seq.wait with
    | .regroup r => some (i, r)
    | _ => none

/-- A lane as `regroup` sorts it: key, GROUPID, LANEID, as one number. -/
def regroupKeys (g : Group) (r : Nat) : List Nat :=
  ((List.range (4 * g.slices.length)).filter fun l => !g.exitedLanes.getLsbD l).map fun l => (g.readV r l).toNat * 2 ^ 13 + g.gid * 2 ^ 7 + l

/-- A participant with the lanes dealt to it, each as (the group it comes from, its lane): registers and section count follow the lane, the group
is one split at the next word. A result under way keeps its lane position (log entry 76), and a slice its s registers (log entry 77). -/
def Group.regrouped (cycle at' : Nat) (dealt : List (Group × Nat)) (g : Group) : Group :=
  let got (l : Nat) : Bool := decide (l < dealt.length)
  let v := each dealt.zipIdx (fun e v => each (List.range 48) (fun r v => Tab.set 0 v (r * 128 + e.2) (e.1.1.readV r e.1.2)) v) g.v
  let sections := each dealt.zipIdx (fun e t => Tab.set 0 t e.2 (Tab.get 0 e.1.1.sections e.1.2)) []
  let from' := g.slice at'
  let slices := g.slices.mapIdx fun i x =>
    let a : BitVec 4 := bitSet 4 fun b => got (4 * i + b)
    let y : Slice := { x with exited := ~~~a, gang := if a = 0 then 0 else from'.gang, seq := { Seq.empty with pc := from'.seq.pc, m := a, a := a } }
    if a &&& x.exited ≠ 0 ∨ ~~~a &&& ~~~x.exited ≠ 0 then { y with exitAt := cycle, exitNow := ~~~a &&& ~~~x.exited } else y
  { g with v := v, sections := sections, m := [], slices := slices }

/-- Acts once every participant waits in `regroup`: the lanes of all in order of key, dealt to the participants in order of GROUPID. -/
def State.settleRegroup (s : State) (b : Nat) : State :=
  let gs := (s.groupsOf b).filter fun e => !e.2.spawned && !e.2.allExited
  if gs.isEmpty || gs.any (fun e => e.2.regroupsAt.isNone) then s
  else
    let byId (n : Nat) : Option (Nat × Group) := gs.find? fun e => e.2.gid = n
    let order := (sortNat (gs.map (·.2.gid))).filterMap byId
    let keys := sortNat (gs.flatMap fun e => regroupKeys e.2 ((e.2.regroupsAt.map (·.2)).getD 0))
    let lanes : List (Group × Nat) := keys.filterMap fun k => (byId (k / 2 ^ 7 % 2 ^ 6)).map fun e => (e.2, k % 2 ^ 7)
    each order.zipIdx (fun e s => s.onGroup e.1.1 fun g =>
      g.regrouped (s.nowOf g) ((g.regroupsAt.map (·.1)).getD 0) ((lanes.drop (e.2 * g.width)).take g.width)) s

/-! The pre-emption unit of a block, as far as the end of a group needs it (16 R336, R337). -/

/-- The handler path is not open: it was not taken, or its bound has passed (16 R337), which it has in cycle t0 + PREBOUND itself (log entry 90). -/
def PreUnit.expired (u : PreUnit) (now : Nat) : Bool := !u.path || (decide (u.bound ≠ 0) && decide (u.t0 + u.bound ≤ now))

/-- The cycle by which a unit's times count: that of the core of its first block. -/
def State.unitNow (s : State) (u : PreUnit) : Nat := s.now (((u.blocks.head?.bind (Tab.find s.blocks)).map (·.core)).getD 0)

/-- The group has not ended and has handed itself over: a slice of it waits in `preok`. -/
def Group.handed (g : Group) : Bool := g.slices.any fun x => x.seq.wait == .preok

/-- Notes that every group of the block's unit that has not ended has issued `preok` while the path was open (16 R336). -/
def State.noteHanded (s : State) (b : Nat) : State :=
  match (Tab.find s.blocks b).bind (·.unit) with
  | none => s
  | some n => match Tab.find s.units n with
    | none => s
    | some u =>
      let gs := s.groups.filter fun e => u.blocks.contains e.2.block && !e.2.finished && !e.2.ended
      if u.entered && u.course.isNone && !u.away && !u.expired (s.unitNow u) && !gs.isEmpty && gs.all (fun e => e.2.handed)
      then s.onUnit n fun u => { u with handed := true } else s

/-- What the end of a group may complete: a `regroup`, barrier 0, the cluster's barriers and the grid's, and the handing over of a unit. -/
def State.settleEnd (s00 : State) (b : Nat) : State :=
  let s0 := s00.noteHanded b
  let s := s0.settleRegroup b
  match Tab.find s.blocks b with
  | none => s
  | some k => (each [0, 1, 2, 3] (fun i s => s.settleCluster k.cluster i) (s.settleBarrier b 0)).settleGrid k.launch

/-! Stopping a group, killing it, entering and leaving a handler. -/

/-- What stopping the splits of a group does to those that wait: a `sleep` ends and a waiting `wayin` is withdrawn (16 R327). A split that waits inside a
clause has stopped there, and goes on from its PC. -/
def State.stopWaits (s : State) (gid : Nat) : State :=
  match Tab.find s.groups gid with
  | none => s
  | some g =>
    let s1 := each (g.ways.filter fun e => e.2.minor = 0) (fun e s => s.withdrawWayin gid e.1 e.2) s
    s1.onGroup gid fun g => g.onSlices g.allSlices fun _ x =>
      match x.seq.wait with
      | .sleep _ => { x with gang := 0, seq := { x.seq with wait := .none } }
      | .none => x
      | _ => { x with gang := 0 }

/-- The block is halted by `stop`, or asked to pre-empt and not yet given its course, or about to be saved. -/
def State.blockStops (s : State) (b : Nat) : Bool :=
  match Tab.find s.blocks b with
  | none => false
  | some k => k.halt.isSome || k.away || match k.unit.bind (Tab.find s.units) with
    | some u => u.course == some 2 || (u.course.isNone && (!u.entered || u.expired (s.unitNow u)))
    | none => false

/-- A slice has stopped: at a clause boundary, waiting, or with no current entry (16 R327 step 2). -/
def Slice.hasStopped (x : Slice) : Bool := x.gang == 0 || x.seq.wait ≠ .none || x.seq.m == 0

/-- Every split of the group but those of `set` has stopped. -/
def Group.hasStopped (g : Group) (set : SliceSet) : Bool :=
  (List.range g.slices.length).all fun i => set.getLsbD i || (g.slice i).hasStopped

/-- TCAUSE of a trap (Table TRP-1). -/
def Trap.tcause (t : Trap) (cause : BitVec 8) : Word :=
  BitVec.ofNat 32 (t.async.toNat * 2 ^ 31 + lowest 0 t.slices * 2 ^ 16 + t.kind.toNat * 2 ^ 12 + t.level.toNat * 2 ^ 8 + cause.toNat)

/-- A group is killed (16 R332): every lane counts as exited, its requests and waits go, and the sections it holds, those granted to a word under way
included, are announced to be poisoned (09 R203). -/
def State.killGroup (s : State) (gid : Nat) : State :=
  match Tab.find s.groups gid with
  | none => s
  | some g =>
    let s1 := each g.ways (fun e s => s.dropKeys gid e.1 false e.2.keys) s
    let s2 := s1.announce gid (members (g.lanesOf g.allSlices))
    let s3 := s2.onCore (s2.coreOf g) fun c => { c with regLine := c.regLine.filter (· ≠ gid) }
    (s3.onGroup gid fun g =>
      { g with killed := true, ways := [], longs := g.longs.filter (fun e => (Tab.find g.ways e.1).isNone), trap := none, handler := none, joins := [], gangs := [], waitReg := false,
               slices := g.slices.map fun x => { x with seq := Seq.empty, exited := 15, gang := 0 } }).settleEnd g.block

/-- The kill record a killed group's launch owes (Table TRP-2). -/
def State.reportKill (s : State) (g : Group) (k : Word × Word × Nat × Pc × DWord) : State :=
  match s.blockOf g with
  | none => s
  | some b => s.onLaunch b.launch fun l =>
      { l with kills := l.kills ++ [{ tcause := k.1, tword := k.2.1, inner := k.2.2.1, pc := k.2.2.2.1, faddr := k.2.2.2.2, blockx := b.x,
                                      blocky := b.y, blockz := b.z, gid := g.gid, index := l.index }] }

/-- The slices of the trapped split that hold a lane of m7; the lowest where none does (16 R327). -/
def Trap.handlerSlices (t : Trap) (g : Group) : SliceSet :=
  let h := bitSet 32 fun i => t.slices.getLsbD i && decide (laneNib t.lanes i ≠ 0) && decide (i < g.slices.length)
  if h = 0 then bitSet 32 fun i => i == lowest 0 t.slices else h

/-- Taking a trap (16 R327 step 4): trap registers and m7 written, the trapped split's sequencers saved, the handler's split at TRAPBASE. -/
def Group.enterTrap (id now : Nat) (t : Trap) (g : Group) : Group :=
  let h := t.handlerSlices g
  let g1 : Group :=
    { g with tpc := t.pc, tcause := t.tcause t.cause, tword := t.word, faddr := t.faddr, m := Tab.set 0 g.m 7 t.lanes, trap := none,
             handler := some { id := id, kind := .trap, h := h, s := t.slices, banked := [], before := g.longs.map (·.1) ++ g.ways.map (·.1),
                               frame := (members t.slices).map fun i => (i, { (g.slice i).seq with wait := .none }) } }
  (g1.onSlices h fun i x =>
    let lanes := if laneNib t.lanes i = 0 then 0 else laneNib t.lanes i
    { x with gang := 0, seq := { Seq.empty with pc := g.trapBase, a := lanes, m := if lanes = 0 then ~~~x.exited else lanes } }).pause now

/-- A split whose trap is not delivered stands at its trapping word again, also where a handler keeps its sequencers (16 R329). -/
def Group.setBack (t : Trap) (g : Group) : Group :=
  let kept (i : Nat) : Bool := (g.handler.map fun h => (Tab.find h.frame i).isSome).getD false
  let back (q : Seq) : Seq := { q with pc := t.pc, wait := .none }
  let g1 := g.onSlices t.slices fun i x => if kept i then x else { x with gang := 0, seq := back x.seq }
  { g1 with handler := g1.handler.map fun h => { h with frame := Tab.each h.frame fun i q => if t.slices.getLsbD i then back q else q } }

/-- Ends a way word: its slices no longer wait. -/
def State.endWay (s : State) (gid op : Nat) : State :=
  s.onGroup gid fun g => Group.wake (fun w => w == .way op) { g with ways := Tab.erase g.ways op }

/-- The trap presented is delivered, in a later cycle than it was presented in (16 R329, Table TRP-5): the group is killed where no handler was present
as it was presented (16 R328), else it enters its handler once every other split has stopped (16 R327). -/
def State.tryEnter (s : State) (gid : Nat) : State :=
  match Tab.find s.groups gid with
  | none => s
  | some g => match g.trap with
    | none => s
    | some t =>
      if s.nowOf g ≤ t.born then s
      else if !t.en then (s.reportKill g (t.tcause t.cause, t.word, 0, t.pc, t.faddr)).killGroup gid
      else if g.hasStopped t.slices then (s.stopWaits gid).fresh.2.onGroup gid (Group.enterTrap s.nextId (s.nowOf g) t)
      else s

/-- The trap to be delivered: its split has stopped, and the others stop. TRAPBASE.EN is taken as it stands (16 R328). -/
def State.stopFor (s : State) (gid : Nat) (t : Trap) : State :=
  let s1 := if (Tab.find s.groups gid).any (·.trapEn) then s.stopWaits gid else s
  s1.onGroup gid fun g => Group.onSlices { g with trap := some { t with en := g.trapEn } } t.slices fun _ x => { x with gang := 0 }

/-- A trap of a group that runs no handler and is not stopping yet: it is to be delivered, but for a `wayin` of a lower slice whose time runs out in the
same cycle, which fails with WAYTO in its place (16 R329). -/
def State.deliverTrap (s : State) (gid : Nat) (g : Group) (t : Trap) : State :=
  match g.lateWayin t with
  | none => s.stopFor gid t
  | some (op, w) =>
    (((s.onGroup gid (Group.setBack t)).withdrawKeys gid op w.keys).endWay gid op).stopFor gid
      { w.trap 0x0F (Tab.get 0 w.keys w.lateLane) w.exec with born := t.born }

/-- A split presents a trap (16 R327-R329): inside a handler it is a double fault or its split is set back; while the group stops it is dropped, unless it
is presented in the same cycle as the trap to be delivered and holds a lower slice; else it is to be delivered. `op` names the word of a fault found after
its issue, `born` the cycle it is presented in. -/
def State.presentTrapAt (s : State) (gid : Nat) (t0 : Trap) (op : Option Nat) (born : Nat) : State :=
  match Tab.find s.groups gid with
  | none => s
  | some g =>
    let t := { t0 with born := born }
    if g.killed then s
    else match g.handler with
    | some h =>
      let early := match op with
        | some o => h.before.contains o || decide (o < h.id)
        | none => false
      if !early || (t.async && (decide (h.kind = .pre) || decide (t.slices &&& h.s ≠ 0)))
      then (s.reportKill g (t.tcause 0x1E, t.word, t.cause.toNat, t.pc, t.faddr)).killGroup gid
      else s.onGroup gid (Group.setBack t)
    | none => match g.trap with
      | some x =>
        if x.born = t.born ∧ lowest 32 t.slices < lowest 32 x.slices then (s.onGroup gid (Group.setBack x)).stopFor gid t
        else s.onGroup gid (Group.setBack t)
      | none => if s.blockStops g.block then s.onGroup gid (Group.setBack t) else s.deliverTrap gid g t

/-- A split presents a trap in the cycle its core is in. -/
def State.presentTrap (s : State) (gid : Nat) (t : Trap) (op : Option Nat) : State :=
  s.presentTrapAt gid t op (((Tab.find s.groups gid).map s.nowOf).getD 0)

/-- The return from a handler (16 R331): every saved sequencer restored, S at TPC after a trap, the banked registers discarded. -/
def Group.leaveHandler (h : Handler) (g : Group) : Group :=
  let set := bitSet 32 fun i => (Tab.find h.frame i).isSome
  Group.onSlices { g with handler := none } set fun i x =>
    let q := Tab.get x.seq h.frame i
    let q1 := { q with a := q.a &&& ~~~x.exited, m := q.m &&& ~~~x.exited,
                       pc := if h.kind = .trap && h.s.getLsbD i then g.tpc else q.pc }
    Slice.takeWork { x with gang := 0, seq := q1 }

/-! Issuing. -/

/-- What a word reads from: the issue, the group as it stood before the chain, EXEC, and the lowest slice of the split. -/
structure Ctx where
  u    : Issue
  g    : Group
  exec : LaneSet
  low  : Nat
  deriving DecidableEq, Repr

/-- One register or run of registers a word names: the 7-bit number, how many, and for a v register lanes other than EXEC. -/
structure Use where
  reg   : Nat
  n     : Nat
  lanes : Option LaneSet
  deriving DecidableEq, Repr

/-- What the checks of Table ENC-9 steps 4 to 7 need of a word. -/
structure Sig where
  priv  : Bool
  /-- Its operand limits hold (03 R56). -/
  opnd  : Bool
  uses  : List Use
  deriving DecidableEq, Repr

/-- A word with nothing to check. -/
def noSig : Sig := { priv := false, opnd := true, uses := [] }

/-- What a word comes to. -/
inductive Res where
  /-- It has its effect, and the split goes on at the next word. -/
  | ok (s : State)
  /-- It has its effect, and has set where the split goes on itself. -/
  | jump (s : State)
  | stall
  | trap (t : Trap)
  /-- It traps, and its pointers have been walked: the state with what the walks leave (08 R172, R173). -/
  | trapWalked (s : State) (t : Trap)
  deriving DecidableEq, Repr

def Issue.ctx (u : Issue) (g : Group) : Ctx :=
  let o := u.snap.getD g
  { u := u, g := o, exec := o.execOf u.slices, low := lowest 0 u.slices }

/-- A trap the word raises: m7 receives EXEC and FADDR reads 0 unless the cause says otherwise (16 R327). -/
def Ctx.trap (c : Ctx) (stage : Nat) (cause : BitVec 8) : Trap :=
  { stage := stage, cause := cause, pc := c.u.chain, word := c.u.word, faddr := 0, level := 0, kind := 0, async := false, lanes := c.exec,
    slices := c.u.slices, born := 0 }

def Use.list (u : Use) : List Nat := (List.range u.n).map fun i => u.reg + i

/-- A mark made in handler `epoch` lies on the copy of s register r that the word names. -/
def Ctx.sameCopy (c : Ctx) (epoch r : Nat) : Bool := !(decide (24 ≤ r) && decide (r ≤ 27)) || epoch == c.g.epochOf c.u.slices

/-- A register of the use is pending in a lane or slice whose copy the word uses (03 R50). -/
def Ctx.pending (c : Ctx) (u : Use) : Bool :=
  c.g.longs.any fun e => u.list.any fun r =>
    if r < 96 then e.2.vMarks.contains r && decide (e.2.exec &&& u.lanes.getD c.exec ≠ 0)
    else decide (r ≠ 96) && e.2.sMarks.contains (r - 96) && decide (e.2.slices &&& c.u.slices ≠ 0) && c.sameCopy e.2.epoch (r - 96)

/-- The commands queued or claims waiting on a core that mark a token or destination register of the group (11 R234, 12 R264). -/
def Core.marks (k : Core) (gid : Nat) : List (Nat × SliceSet × Nat) :=
  ((k.copyQ ++ k.tileQ ++ k.chartQ ++ k.bankQ ++ k.linkQ).filter (fun e => e.group = gid)).map (fun e => (e.token, e.slices, e.epoch))
  ++ ((k.slotLine ++ k.accLine).filter (fun e => e.group = gid)).flatMap fun e => [(e.token, e.slices, e.epoch), (e.dest, e.slices, e.epoch)]

/-- A token register the word names is still pending (03 R51). -/
def Ctx.tokenPending (c : Ctx) (s : State) (u : Use) : Bool :=
  ((s.core (s.coreOf c.g)).marks c.u.group).any fun t => t.1 ≠ 0 && u.list.contains (t.1 + 96) && decide (t.2.1 &&& c.u.slices ≠ 0) && c.sameCopy t.2.2 t.1

/-- An ordered load of the group still misses bytes: what the group issues after it follows its read (07 R155, R156). -/
def Group.acquiring (g : Group) : Bool := g.longs.any fun e => e.2.acquire.isSome && e.2.reads.any fun r => r.cells.any fun c => c.2.isNone

/-- Steps 4 to 6 of Table ENC-9: the trap or stall, or none. Limits on a value stand at step 7, in the word's effect (log entry 44). The words of a chain have been
checked before any of them executes (03 R60). -/
def Ops.check (sig : Sig) (c : Ctx) (s : State) : Option Res :=
  if c.u.snap.isSome then none
  else if sig.priv && !s.privOf c.g then some (.trap (c.trap 4 0x06))
  else if !sig.opnd then some (.trap (c.trap 5 0x05))
  else if !c.g.held && sig.uses.any (fun u => u.list.any fun r => decide (48 ≤ r) && decide (r < 96)) then some (.trap (c.trap 5 0x1D))
  else if sig.uses.any c.pending then some (.trap (c.trap 6 0x04))
  else if sig.uses.any (c.tokenPending s) || ((c.g.fencing.isSome || c.g.acquiring) && Word.waitsFence c.u.word) then some .stall
  else none

/-- The split goes on at the next word. A slice the chain has sent elsewhere is left alone. -/
def State.advance (s : State) (u : Issue) : State :=
  s.onGroup u.group fun g => g.onSlices u.slices fun _ x =>
    if x.gang = u.split then { x with gang := u.gang, seq := { x.seq with pc := u.next } } else x

/-- The access that an exhausted flit failed has failed (15 R313): its core's next access to a peer may succeed again. -/
def State.linkUsed (s : State) (gid : Nat) (cause : BitVec 8) : State :=
  if cause = 0x1B then match Tab.find s.groups gid with
    | some g => s.onCore (s.coreOf g) fun k => { k with linkBad := false }
    | none => s
  else s

/-- Records what the word came to and lets it have its effect; a probe keeps the verdict only, and of a trap the walks before it. -/
def Ops.settle (u : Issue) (r : Res) (s : State) : State :=
  let mark (v : Verdict) (s : State) : State := { s with cur := some { u with verdict := v } }
  match r with
  | .ok t => if u.probe then mark .done s else mark .done (t.advance u)
  | .jump t => if u.probe then mark .done s else mark .done t
  | .stall => mark .stall s
  | .trap t => if u.probe then mark (.trap t) s else mark (.trap t) ((s.linkUsed u.group t.cause).presentTrap u.group t none)
  | .trapWalked w t => if u.probe then mark (.trap t) w else mark (.trap t) ((w.linkUsed u.group t.cause).presentTrap u.group t none)

/-- The frame every instruction word runs in: the checks of Table ENC-9, which may need the operands' values, then its effect. -/
def Ops.wordBy (sig : Ctx → State → Sig) (body : Ctx → State → Res) (s : State) : Host.Outcome State Fault Refusal :=
  match s.cur with
  | none => .fault .noIssuer
  | some u => match Tab.find s.groups u.group with
    | none => .fault .noIssuer
    | some g =>
      let c := u.ctx g
      .next (Ops.settle u ((Ops.check (sig c s) c s).getD (body c s)) s)

/-- The frame of a word whose checks need only its fields. -/
def Ops.word (sig : Sig) (body : Ctx → State → Res) (s : State) : Host.Outcome State Fault Refusal :=
  Ops.wordBy (fun _ _ => sig) body s

/-! Reads and writes of operands by number (03 R56). -/

/-- A 7-bit operand: below 96 the lane's copy of a v register, else the split's s register. -/
def Ctx.rd (c : Ctx) (f : BitVec 7) (l : Nat) : Word :=
  if f.toNat < 96 then c.g.readV f.toNat l else c.g.readS c.low (f.toNat - 96)
/-- A register by number, for the further registers of a pair or quad. -/
def Ctx.rdN (c : Ctx) (r l : Nat) : Word := if r < 96 then c.g.readV r l else c.g.readS c.low (r - 96)
def Ctx.rd64 (c : Ctx) (f : BitVec 7) (l : Nat) : DWord := pairOf (c.rdN f.toNat l) (c.rdN (f.toNat + 1) l)
def Ctx.rdS (c : Ctx) (r : Nat) : Word := c.g.readS c.low r

/-- Writes consecutive registers from field f: per active lane for v, every slice of the split for s. -/
def State.putRegs (s : State) (c : Ctx) (r : Nat) (xs : Nat → List Word) : State :=
  s.onGroup c.u.group fun g =>
    if r < 96 then each (members c.exec) (fun l g => each (xs l).zipIdx (fun w g => g.writeV (r + w.2) l w.1) g) g
    else each (xs 0).zipIdx (fun w g => g.writeS c.u.slices (r + w.2 - 96) w.1) g

/-- The lane whose mask bit decides on the uniform datapath (05 R91): the lowest of EXEC, else the lowest of the lowest slice. -/
def Ctx.firstLane (c : Ctx) : Nat := lowest (4 * c.low) c.exec

/-- A register field is an s register. -/
def isS (f : BitVec 7) : Bool := decide (96 ≤ f.toNat)
/-- The field names an even register (03 R56). -/
def isEven (f : BitVec 7) : Bool := f.toNat % 2 == 0
/-- The field names a multiple of four. -/
def isQuad (f : BitVec 7) : Bool := f.toNat % 4 == 0

def use (f : BitVec 7) : Use := { reg := f.toNat, n := 1, lanes := none }
def useN (f : BitVec 7) (n : Nat) : Use := { reg := f.toNat, n := n, lanes := none }
/-- s registers by 5-bit number. -/
def useS (r n : Nat) : Use := { reg := r + 96, n := n, lanes := none }

end Sys2Proof.Machine
end

