-- ==== Sys2Proof/Machine/Operands.lean ====
section
/-! DEFINITION. The operand forms the arithmetic words share (03 R56, 05 R91-R93): what a word of each form checks, reads and writes.
`n`-suffixed widths count registers: 1 a single register, 2 an even/odd pair. -/

namespace Sys2Proof.Machine

/-- A pair or single field's limits: a pair must be even (03 R56). -/
def regOk (f : BitVec 7) (n : Nat) : Bool := n ≠ 2 || isEven f

/-- A word with a register destination: an s destination only on the uniform datapath (05 R91). -/
def rrrSig (d : BitVec 7) (nd : Nat) (src : List (BitVec 7 × Nat)) : Sig :=
  { priv := false,
    opnd := regOk d nd && (src.all fun e => regOk e.1 e.2) && (!isS d || src.all fun e => isS e.1),
    uses := useN d nd :: src.map fun e => useN e.1 e.2 }

/-- The value of a single or pair operand, as a number. -/
def Ctx.num (c : Ctx) (f : BitVec 7) (n l : Nat) : Nat := if n = 2 then (c.rd64 f l).toNat else (c.rd f l).toNat

/-- One register of result. -/
def Ops.alu1 (d a : BitVec 7) (f : Word → Word) : State → Host.Outcome State Fault Refusal :=
  Ops.word (rrrSig d 1 [(a, 1)]) fun c s => .ok (s.putRegs c d.toNat fun l => [f (c.rd a l)])

/-- Two sources. -/
def Ops.alu2 (d a b : BitVec 7) (f : Word → Word → Word) : State → Host.Outcome State Fault Refusal :=
  Ops.word (rrrSig d 1 [(a, 1), (b, 1)]) fun c s => .ok (s.putRegs c d.toNat fun l => [f (c.rd a l) (c.rd b l)])

/-- D is read as well as written. -/
def Ops.alu3 (d a b : BitVec 7) (f : Word → Word → Word → Word) : State → Host.Outcome State Fault Refusal :=
  Ops.word (rrrSig d 1 [(a, 1), (b, 1)]) fun c s => .ok (s.putRegs c d.toNat fun l => [f (c.rd d l) (c.rd a l) (c.rd b l)])

/-- No source register: D alone, read where the word keeps part of it. -/
def Ops.alu0 (d : BitVec 7) (f : Word → Word) : State → Host.Outcome State Fault Refusal :=
  Ops.word (rrrSig d 1 []) fun c s => .ok (s.putRegs c d.toNat fun l => [f (c.rd d l)])

/-- The two registers of a 64-bit result (00 R4). -/
def pairList (x : DWord) : List Word := [loHalf x, hiHalf x]

/-- A pair from two pairs. -/
def Ops.pair2 (d a b : BitVec 7) (f : DWord → DWord → DWord) : State → Host.Outcome State Fault Refusal :=
  Ops.word (rrrSig d 2 [(a, 2), (b, 2)]) fun c s => .ok (s.putRegs c d.toNat fun l => pairList (f (c.rd64 a l) (c.rd64 b l)))

/-- A pair from a pair and a single register. -/
def Ops.pairWord (d a b : BitVec 7) (f : DWord → Word → DWord) : State → Host.Outcome State Fault Refusal :=
  Ops.word (rrrSig d 2 [(a, 2), (b, 1)]) fun c s => .ok (s.putRegs c d.toNat fun l => pairList (f (c.rd64 a l) (c.rd b l)))

/-- A pair from a single register. -/
def Ops.widen (d a : BitVec 7) (f : Word → DWord) : State → Host.Outcome State Fault Refusal :=
  Ops.word (rrrSig d 2 [(a, 1)]) fun c s => .ok (s.putRegs c d.toNat fun l => pairList (f (c.rd a l)))

/-- The lanes of EXEC in which a test holds: the value a compare writes to its mask (05 R93). -/
def Ctx.whereIn (c : Ctx) (p : Nat → Bool) : LaneSet := bitSet 128 fun l => c.exec.getLsbD l && p l

/-- Writes a mask register for the issuing split (04 R75). -/
def State.putMask (s : State) (c : Ctx) (k : Nat) (x : LaneSet) : State :=
  s.onGroup c.u.group fun g => g.writeM c.u.slices k x

/-- A compare of single registers to a mask. -/
def Ops.cmp (d : BitVec 3) (a b : BitVec 7) (p : Word → Word → Bool) : State → Host.Outcome State Fault Refusal :=
  Ops.word { priv := false, opnd := true, uses := [use a, use b] } fun c s =>
    .ok (s.putMask c d.toNat (c.whereIn fun l => p (c.rd a l) (c.rd b l)))

/-- A compare of pairs to a mask. -/
def Ops.cmp64 (d : BitVec 3) (a b : BitVec 7) (p : DWord → DWord → Bool) : State → Host.Outcome State Fault Refusal :=
  Ops.word { priv := false, opnd := isEven a && isEven b, uses := [useN a 2, useN b 2] } fun c s =>
    .ok (s.putMask c d.toNat (c.whereIn fun l => p (c.rd64 a l) (c.rd64 b l)))

/-! Long-latency words (03 R48, R50). -/

/-- A long-latency word without results yet. -/
def Ctx.longOp (c : Ctx) : LongOp :=
  { word := c.u.word, pc := c.u.pc, flag := c.u.flag, slices := c.u.slices, exec := c.exec, epoch := c.g.epochOf c.u.slices, vMarks := [],
    sMarks := [], vWrites := [], sWrites := [], mask := none, fpflags := 0, acquire := none, fault := none, waiting := 0, ptrs := [], dest := 0, code := 0,
    reads := [], since := 0 }

/-- Issues a long-latency word: its flag's count rises and its destinations are pending; it waits while the count stands at 63 (03 R48). -/
def State.issueLong (s : State) (c : Ctx) (op : LongOp) : Res :=
  match Tab.find s.groups c.u.group with
  | none => .stall
  | some g =>
    if 63 ≤ g.flagCount c.u.flag then .stall
    else .ok ({ s with nextId := s.nextId + 1 }.onGroup c.u.group fun g => { g with longs := Tab.put g.longs s.nextId { op with since := s.nowOf g } })

/-- The marks of n destination registers from field d. -/
def LongOp.marks (op : LongOp) (d : BitVec 7) (n : Nat) : LongOp :=
  let r := (List.range n).map (d.toNat + ·)
  if isS d then { op with sMarks := r.map (· - 96) } else { op with vMarks := r }

/-- Results computed at issue: per active lane for v, once for s. -/
def LongOp.results (op : LongOp) (c : Ctx) (d : BitVec 7) (xs : Nat → List Word) : LongOp :=
  if isS d then { op with sWrites := (xs 0).zipIdx.map fun w => (d.toNat - 96 + w.2, w.1) }
  else { op with vWrites := (members c.exec).flatMap fun l => (xs l).zipIdx.map fun w => ((d.toNat + w.2) * 128 + l, w.1) }

end Sys2Proof.Machine
end

