-- ==== Sys2Proof/Machine/Flags.lean ====
section
/-! DEFINITION. How floating-point words signal: FPFLAGS and the FPE trap (06 R113-R116), and the operand forms of the floating words. -/

namespace Sys2Proof.Machine

/-- RMODE[1:0] as the word reads it: the value before its chain (06 R113). -/
def Ctx.rm (c : Ctx) : RMode := RMode.of c.g.rmode.toNat

/-- The exceptions of a set whose trap bits RMODE[9:4] hold. -/
def Ctx.enabled (c : Ctx) (flags : Nat) : Nat := flags &&& bitsAt c.g.rmode.toNat 4 6

/-- The index register itself may be read: it is neither pending nor a token. -/
def Ctx.readable (c : Ctx) (s : State) (a : BitVec 7) : Bool := !c.pending (use a) && !c.tokenPending s (use a)

def orAll (l : List Nat) : Nat := l.foldl (· ||| ·) 0

/-- FADDR of FPE (06 R116): the enabled exceptions, and the lowest lane that signalled one. -/
def fpeAddr (en lane : Nat) : DWord := BitVec.ofNat 64 (en + lane * 2 ^ 8)

/-- The FPE trap of a word whose lanes, in increasing order, signal these exceptions; none where no enabled one is among them. -/
def Ctx.fpe (c : Ctx) (sigs : List (Nat × Nat)) : Option Trap :=
  match sigs.find? fun e => c.enabled e.2 ≠ 0 with
  | none => none
  | some e => some { c.trap 7 0x19 with faddr := fpeAddr (c.enabled (orAll (sigs.map (·.2)))) e.1 }

/-- The FPFLAGS bits ORed in earlier in the cycle (06 R114). -/
def Group.fpBits (now : Nat) (g : Group) : Word := if g.fpAt = now then g.fpNew else 0
/-- ORs exceptions into FPFLAGS, which a write of the same cycle keeps (06 R114). -/
def Group.orFlags (now : Nat) (x : Word) (g : Group) : Group := { g with fpflags := g.fpflags ||| x, fpNew := g.fpBits now ||| x, fpAt := now }
def State.orFlags (s : State) (c : Ctx) (flags : Nat) : State :=
  s.onGroup c.u.group (Group.orFlags (s.nowOf c.g) (BitVec.ofNat 32 flags))

/-- The lanes a word with this destination signals for: the active lanes, or the first lane on the uniform datapath. -/
def Ctx.sigLanes (c : Ctx) (uniform : Bool) : List Nat := if uniform then [c.firstLane] else members c.exec

/-- A fault of a long-latency word after issue: TPC names the word itself (03 R54). -/
def Trap.late (c : Ctx) (t : Trap) : Trap := { t with pc := c.u.pc, async := true }

/-- A floating-point result in registers. -/
structure FOut where
  words : List Word
  flags : Nat

def FRes.one (r : FRes) : FOut := { words := [BitVec.ofNat 32 r.bits], flags := r.flags }
def FRes.two (r : FRes) : FOut := { words := pairList (BitVec.ofNat 64 r.bits), flags := r.flags }

/-- A short-latency floating word: every lane's result, or FPE and no effect. -/
def Ops.fpu (d : BitVec 7) (nd : Nat) (src : List (BitVec 7 × Nat)) (f : Ctx → Nat → FOut) : State → Host.Outcome State Fault Refusal :=
  Ops.word (rrrSig d nd src) fun c s =>
    let sigs := (c.sigLanes (isS d)).map fun l => (l, (f c l).flags)
    match c.fpe sigs with
    | some t => .trap t
    | none => .ok ((s.putRegs c d.toNat fun l => (f c l).words).orFlags c (orAll (sigs.map (·.2))))

/-- A long-latency floating word: it computes under the RMODE of its issue, and faults, writes and ORs when its results would be written. -/
def Ops.fpuLong (d : BitVec 7) (nd : Nat) (src : List (BitVec 7 × Nat)) (f : Ctx → Nat → FOut) : State → Host.Outcome State Fault Refusal :=
  Ops.word (rrrSig d nd src) fun c s =>
    let sigs := (c.sigLanes (isS d)).map fun l => (l, (f c l).flags)
    let op := (c.longOp.marks d nd).results c d fun l => (f c l).words
    s.issueLong c { op with fault := (c.fpe sigs).map (Trap.late c), fpflags := BitVec.ofNat 32 (orAll (sigs.map (·.2))) }

/-- A floating compare to a mask (06 R124); each lane signals, the first lane where every source is an s register. -/
def Ops.fcmp (n : Nat) (d : BitVec 3) (a b : BitVec 7) (f : Nat → Nat → Bool) (flags : Nat → Nat → Nat) : State → Host.Outcome State Fault Refusal :=
  Ops.word { priv := false, opnd := regOk a n && regOk b n, uses := [useN a n, useN b n] } fun c s =>
    let sigs := (c.sigLanes (isS a && isS b)).map fun l => (l, flags (c.num a n l) (c.num b n l))
    match c.fpe sigs with
    | some t => .trap t
    | none => .ok ((s.putMask c d.toNat (c.whereIn fun l => f (c.num a n l) (c.num b n l))).orFlags c (orAll (sigs.map (·.2))))

end Sys2Proof.Machine
end

