-- ==== Sys2Proof/Machine/Trans.lean ====
section
/-! DEFINITION. Address translation (spec/08): table entries, the walk, the translations the device holds, permissions. -/

namespace Sys2Proof.Machine

/-- Access kinds as TCAUSE[13:12] numbers them (08 R174). -/
inductive Access where
  | read
  | write
  | atomic
  | fetch
  deriving DecidableEq, Repr

def Access.code : Access → BitVec 2
  | .read => 0
  | .write => 1
  | .atomic => 2
  | .fetch => 3

/-- A fault of a pointer: its cause, and level and kind for a translation fault. -/
structure PtrFault where
  cause : BitVec 8
  level : BitVec 3
  kind  : BitVec 2
  deriving DecidableEq, Repr

/-- A leaf's translation of one address. -/
structure Xlat where
  pa    : Nat
  type  : Nat
  level : Nat
  w     : Bool
  x     : Bool
  u     : Bool
  /-- The leaf is part of a contiguous run (08 R170). -/
  c     : Bool
  deriving DecidableEq, Repr

/-- The root frame in effect for a space of a context, as a physical address (08 R165). -/
def Context.rootOf (c : Context) (space : Nat) : Nat :=
  match space with
  | 1 => c.eff1.getD c.root1
  | 2 => c.eff2.getD c.root2
  | _ => c.eff0.getD c.root0

/-- Table XLT-1: the index of a level and the lowest VA bit it covers. -/
def Xlat.shift (lvl : Nat) : Nat := 57 - 9 * lvl

/-- A field reserved at this level is nonzero (Table XLT-2). `leaf` is L at level 4. -/
def Xlat.reserved (lvl ent : Nat) : Bool :=
  if lvl = 5 then bitsAt ent 52 12 ≠ 0 || bitsAt ent 8 4 ≠ 0 || bitsAt ent 6 2 == 3 || bitsAt ent 1 1 ≠ 0
  else if lvl = 4 ∧ ent.testBit 1 then
    bitsAt ent 52 12 ≠ 0 || bitsAt ent 12 9 ≠ 0 || bitsAt ent 8 4 ≠ 0 || bitsAt ent 6 2 == 3 || bitsAt ent 5 1 ≠ 0
  else bitsAt ent 39 25 ≠ 0 || bitsAt ent 1 11 ≠ 0

/-- R171: the leaf permits the access. -/
def Access.permitted (k : Access) (priv w x u : Bool) : Bool :=
  (priv || u) && match k with
    | .read => true
    | .write => w
    | .atomic => w
    | .fetch => x

/-- The last check of R168: a physical address beyond device memory for a space of it. -/
def Xlat.beyond (space pa : Nat) : Bool := decide (space ≠ 1) && decide (space ≠ 2) && decide (2 ^ 39 ≤ pa)

/-- R168 from the levels still to walk, with t the table of the next one. The entry is read at its location of device memory, wherever the root or an
entry points (log entry 64). -/
def State.walkFrom (s : State) (space va : Nat) (k : Access) (priv : Bool) : List Nat → Nat → Except PtrFault Xlat
  | [], _ => .error { cause := 0x09, level := 5, kind := k.code }
  | lvl :: rest, t =>
    let ent := s.readNat (t + 8 * bitsAt va (Xlat.shift lvl) 9) 8
    let fault (cause : BitVec 8) : Except PtrFault Xlat := .error { cause := cause, level := BitVec.ofNat 3 lvl, kind := k.code }
    if !ent.testBit 0 then fault 0x09
    else if Xlat.reserved lvl ent then fault 0x0A
    else if lvl == 5 || (lvl == 4 && ent.testBit 1) then
      if !k.permitted priv (ent.testBit 2) (ent.testBit 3) (ent.testBit 4) then fault 0x0B
      else
        let n := Xlat.shift lvl
        let pa := bitsAt ent n (52 - n) * 2 ^ n + va % 2 ^ n
        if Xlat.beyond space pa then fault 0x0A
        else .ok { pa := pa, type := bitsAt ent 6 2, level := lvl, w := ent.testBit 2, x := ent.testBit 3, u := ent.testBit 4,
                   c := lvl == 5 && ent.testBit 5 }
    else s.walkFrom space va k priv rest (bitsAt ent 12 40 * 2 ^ 12)

/-- The walk of an address of a space in a context (08 R168). -/
def State.walk (s : State) (ctx space va : Nat) (k : Access) (priv : Bool) : Except PtrFault Xlat :=
  s.walkFrom space va k priv [1, 2, 3, 4, 5] ((s.context ctx).rootOf space)

/-- The die, sector and pod of a core (01 R12). -/
def Ops.dieOf (core : Nat) : Nat := core / 144
def Ops.sectorOf (core : Nat) : Nat := core / 48
def Ops.podOf (core : Nat) : Nat := core / 12

/-- The translations the core's and its sector's TLB hold for the address (08 R172). -/
def State.heldXlats (s : State) (core ctx space va : Nat) : List TlbEntry :=
  let root := (s.context ctx).rootOf space
  ((s.core core).tlb ++ Tab.get [] s.sectorTlb (Ops.sectorOf core)).filter fun e =>
    e.ctx == ctx && e.space == space && e.root == root && decide (e.va ≤ va) && decide (va < e.va + e.size)

/-- The choice of the issue or event under way. -/
def State.pick (s : State) : Nat := (s.cur.map (·.choice)).getD 0

/-- The held translation an access takes: of several, which only a broken run gives (08 R170), any, page by page as the choice has it. -/
def State.heldXlat (s : State) (core ctx space va : Nat) : Option TlbEntry :=
  let all := s.heldXlats core ctx space va
  all[s.pick / 2 ^ (80 + 4 * (va / 2 ^ 12 % 16)) % 16 % all.length]?

/-- A held translation of one address (08 R170): the frame is offset modulo 2^40 and meets the last check of R168. -/
def TlbEntry.access (e : TlbEntry) (va : Nat) (k : Access) (priv : Bool) : Except PtrFault Xlat :=
  let pa := (e.pa + (va - e.va)) % 2 ^ 52
  let fault (cause : BitVec 8) : Except PtrFault Xlat := .error { cause := cause, level := BitVec.ofNat 3 e.level, kind := k.code }
  if !k.permitted priv e.w e.x e.u then fault 0x0B
  else if Xlat.beyond e.space pa then fault 0x0A
  else .ok { pa := pa, type := e.type, level := e.level, w := e.w, x := e.x, u := e.u, c := false }

/-- Where a walk starts: at the deepest level the die's walk cache holds (Table XLT-4). -/
def State.walkStart (s : State) (die ctx space va : Nat) : List Nat × Nat :=
  let root := (s.context ctx).rootOf space
  let found (lvl : Nat) := (Tab.get [] s.walkCache die).find? fun e =>
    e.ctx == ctx && e.space == space && e.root == root && e.level == lvl && e.path == va / 2 ^ Xlat.shift lvl
  match found 3, found 2, found 1 with
  | some e, _, _ => ([4, 5], e.table)
  | none, some e, _ => ([3, 4, 5], e.table)
  | none, none, some e => ([2, 3, 4, 5], e.table)
  | none, none, none => ([1, 2, 3, 4, 5], root)

/-- The walk made for an access of a core. -/
def State.walkOn (s : State) (core ctx space va : Nat) (k : Access) (priv : Bool) : Except PtrFault Xlat :=
  let start := s.walkStart (Ops.dieOf core) ctx space va
  s.walkFrom space va k priv start.1 start.2

/-- A translation: by an entry the TLBs hold, else by a walk. -/
def State.translate (s : State) (core ctx space va : Nat) (k : Access) (priv : Bool) : Except PtrFault Xlat :=
  match s.heldXlat core ctx space va with
  | some e => e.access va k priv
  | none => s.walkOn core ctx space va k priv

/-- The locations of the entries a walk reads. -/
def State.walkReads (s : State) (va : Nat) : List Nat → Nat → List Nat
  | [], _ => []
  | lvl :: rest, t =>
    let at' := t + 8 * bitsAt va (Xlat.shift lvl) 9
    let ent := s.readNat at' 8
    at' :: (if ent.testBit 0 && !Xlat.reserved lvl ent && !(lvl == 4 && ent.testBit 1) then s.walkReads va rest (bitsAt ent 12 40 * 2 ^ 12) else [])

/-- The table entries a translation reads: none where a TLB holds it. -/
def State.xlatReads (s : State) (core ctx space va : Nat) : List Nat :=
  if (s.heldXlats core ctx space va).isEmpty then
    let start := s.walkStart (Ops.dieOf core) ctx space va
    s.walkReads va start.1 start.2
  else []

/-- The VA space a pointer space translates in: group-local space is part of space 0 (08 R166). -/
def Xlat.spaceOf (space : Nat) : Nat := if space = 8 then 0 else space

/-- What a successful walk lets the TLBs hold (08 R170, R172): its page, or the 64 KiB run its entry promises, the frame of entry 0 formed
modulo 2^40. -/
def Xlat.entry (ctx space root va : Nat) (x : Xlat) : TlbEntry :=
  let size := if x.level = 4 then 2 ^ 21 else if x.c then 2 ^ 16 else 2 ^ 12
  let base := va - va % size
  let pa0 := x.pa - va % 2 ^ (if x.level = 4 then 21 else 12)
  let back := if x.c then va % 2 ^ 16 / 2 ^ 12 * 2 ^ 12 else 0
  { ctx := ctx, space := space, root := root, va := base, size := size, pa := (pa0 + 2 ^ 52 - back) % 2 ^ 52, level := x.level,
    w := x.w, x := x.x, u := x.u, type := x.type }

/-- The walk-cache entries a walk of the address passes: the tables of levels 2 to 4 (Table XLT-4). -/
def State.walkPath (s : State) (ctx space va : Nat) : List Nat → Nat → List WalkEntry
  | [], _ => []
  | lvl :: rest, t =>
    let ent := s.readNat (t + 8 * bitsAt va (Xlat.shift lvl) 9) 8
    if ent.testBit 0 && !Xlat.reserved lvl ent && !(lvl == 4 && ent.testBit 1) then
      let next := bitsAt ent 12 40 * 2 ^ 12
      { ctx := ctx, space := space, root := (s.context ctx).rootOf space, level := lvl, path := va / 2 ^ Xlat.shift lvl, table := next }
        :: s.walkPath ctx space va rest next
    else []

/-- Whether the launches with a group resident on a core that translate in a context are privileged. -/
def State.privsOn (s : State) (core ctx : Nat) : List Bool :=
  let here (g : Group) : Bool := !g.ended && ((s.blockOf g).any fun b => b.core == core && !b.away) && s.ctxOf g == ctx && (s.launchOf g).isSome
  [true, false].filter fun p => s.groups.any fun e => here e.2 && s.privOf e.2 == p

/-- The start of the walk made for an address on behalf of a core. -/
def State.walkFor (s : State) (core ctx space va : Nat) : List Nat × Nat := s.walkStart (Ops.dieOf core) ctx space va

/-- What a walk leaves held (08 R172, Table XLT-4): the entries of levels 1 to 3 it has passed in the walk cache of the core's die, and, where it passed
every check, its leaf in the TLBs of the core and its sector: the 64 KiB run its entry promises, or, where bit 24 of the choice is set, its page alone. Of a
full structure the oldest entry goes (log entry 10). -/
def State.keepWalk (s : State) (core ctx space va : Nat) (x : Option Xlat) : State :=
  let die := Ops.dieOf core
  let start := s.walkFor core ctx space va
  let cached := Tab.get [] s.walkCache die
  let path := (s.walkPath ctx space va (start.1.filter fun lvl => decide (lvl ≤ 3)) start.2).filter fun e => !cached.contains e
  let s1 := { s with walkCache := Tab.set [] s.walkCache die ((path ++ cached).take 256) }
  match x with
  | none => s1
  | some y =>
    let e := Xlat.entry ctx space ((s.context ctx).rootOf space) va { y with c := y.c && !s.pick.testBit 24 }
    let s2 := s1.onCore core fun c => { c with tlb := (e :: c.tlb.filter (· ≠ e)).take 64 }
    let sec := Ops.sectorOf core
    { s2 with sectorTlb := Tab.set [] s2.sectorTlb sec ((e :: (Tab.get [] s2.sectorTlb sec).filter (· ≠ e)).take 4096) }

/-- Removes the translations a `tlbinv` selects from every TLB and walk cache (08 R178). -/
def State.dropXlats (s : State) (tlb : TlbEntry → Bool) (walk : WalkEntry → Bool) : State :=
  { s with cores := Tab.each s.cores fun _ c => { c with tlb := c.tlb.filter fun e => !tlb e },
           sectorTlb := Tab.each s.sectorTlb fun _ l => l.filter fun e => !tlb e,
           walkCache := Tab.each s.walkCache fun _ l => l.filter fun e => !walk e }

end Sys2Proof.Machine
end

