-- ==== Sys2Proof/Machine/Mem.lean ====
section
/-! DEFINITION. Pointers and the access paths (spec/07): the checks of Table MEM-3, the LS path with its stores in flight, releases and
acquires, and the observation of LS accesses (17 R353, R354). -/

namespace Sys2Proof.Machine

/-- For whom an access is made: a group, or an engine acting for it (08 R165, 11 R247). -/
structure Agent where
  group   : Nat
  core    : Nat
  /-- The group's context number on its core (10 R213). -/
  gctx    : Nat
  launch  : Nat
  ctx     : Nat
  priv    : Bool
  block   : Nat
  /-- The block's scratchpad bytes. -/
  scratch : Nat
  /-- Group-local base and size (10 R214). -/
  base    : Nat
  size    : Nat
  /-- Cluster members by rank, none for one that has ended. -/
  members : List (Option Nat)
  deriving DecidableEq, Repr

/-- Group-local base (10 R214). -/
def LaunchRec.localOf (r : LaunchRec) (linear gid : Nat) : Nat := r.localBase.toNat + (linear * 64 + gid) * r.localSize

/-- The agent of a group's accesses. -/
def State.agentOf (s : State) (gid : Nat) (g : Group) : Agent :=
  match s.blockOf g with
  | none => { group := gid, core := 0, gctx := g.context, launch := 0, ctx := 0, priv := false, block := g.block, scratch := 0, base := 0, size := 0, members := [] }
  | some b =>
    let mem := ((Tab.find s.clusters b.cluster).map (·.blocks)).getD [g.block]
    let live (n : Nat) : Option Nat := match Tab.find s.blocks n with
      | some k => if k.ended then none else some n
      | none => none
    match Tab.find s.launches b.launch with
    | none => { group := gid, core := b.core, gctx := g.context, launch := b.launch, ctx := 0, priv := false, block := g.block, scratch := 0, base := 0, size := 0,
                members := mem.map live }
    | some l => { group := gid, core := b.core, gctx := g.context, launch := b.launch, ctx := l.ctx, priv := l.card.flags.getLsbD 1, block := g.block,
                  scratch := l.card.scratch, base := l.card.localOf b.linear g.gid, size := l.card.localSize, members := mem.map live }

/-- SPACE, POL and address of a pointer (07 R133). -/
def ptrSpace (p : DWord) : Nat := bitsAt p.toNat 60 4
def ptrPol (p : DWord) : Nat := bitsAt p.toNat 57 3
def ptrAddr (p : DWord) : Nat := p.toNat % 2 ^ 57

/-- A pointer moved by a signed number of bytes: tag kept, address wrapping (05 R101, 07 R143). -/
def ptrAdd (p : DWord) (n : Int) : DWord :=
  BitVec.ofNat 64 (p.toNat / 2 ^ 57 * 2 ^ 57 + ((ptrAddr p + n) % 2 ^ 57).toNat)

/-- L2WAY of a die (07 R141). -/
def State.ways (s : State) (die : Nat) : Nat := Tab.get 0 s.l2way die

/-- What a pointer names once it passes: the first location of each copy accessed (several for a multicast store), and the memory type of its
leaf. The bytes of an aligned access follow the first. -/
structure Target where
  locs : List Nat
  type : Nat
  deriving DecidableEq, Repr

/-- Steps 1 to 4 of Table MEM-3 for a space's must-be-zero bits, members and range. `hi` is a bit range [lo, lo + n) that must be zero. -/
def Agent.checkForm (a : Agent) (s : State) (spaces : List Nat) (p : DWord) (n : Nat) : Option (BitVec 8) :=
  let sp := ptrSpace p
  let x := ptrAddr p
  let badBits : Bool :=
    match sp with
    | 4 => bitsAt x 19 38 ≠ 0
    | 5 => bitsAt x 56 1 ≠ 0 || bitsAt x 19 33 ≠ 0
    | 6 => bitsAt x 52 5 ≠ 0 || bitsAt x 19 21 ≠ 0
    | 8 => bitsAt x 32 25 ≠ 0
    | 10 => bitsAt x 35 22 ≠ 0
    | _ => false
  let missing : Bool :=
    match sp with
    | 5 => (a.members.getD (bitsAt x 52 4) none).isNone
    | 6 => if bitsAt x 40 12 = 0 then a.members.any (·.isNone)
           else (List.range 12).any fun i => (bitsAt x 40 12).testBit i && (a.members.getD i none).isNone
    | _ => false
  let outside : Bool :=
    match sp with
    | 4 => decide (a.scratch < x % 2 ^ 19 + n)
    | 5 => decide (a.scratch < x % 2 ^ 19 + n)
    | 6 => decide (a.scratch < x % 2 ^ 19 + n)
    | 8 => decide (a.size < x + n)
    | 10 => decide (s.ways (Ops.dieOf a.core) * 48 * 2 ^ 20 < x + n)
    | _ => false
  if !([0, 1, 2, 4, 5, 6, 8, 10].contains sp) || !spaces.contains sp || decide (5 ≤ ptrPol p) || badBits then some 0x08
  else if missing then some 0x16
  else if outside then some 0x08
  else if x % n ≠ 0 then some 0x07
  else none

/-- The checks of one pointer, in order (Table MEM-3), for an access of n bytes. -/
def State.checkPtr (s : State) (a : Agent) (spaces : List Nat) (p : DWord) (n : Nat) (k : Access) : Except PtrFault Target :=
  match a.checkForm s spaces p n with
  | some c => .error { cause := c, level := 0, kind := 0 }
  | none =>
    let x := ptrAddr p
    let off := x % 2 ^ 19
    match ptrSpace p with
    | 4 => .ok { locs := [Ops.scratchLoc a.block off], type := 0 }
    | 5 => .ok { locs := [Ops.scratchLoc ((a.members.getD (bitsAt x 52 4) none).getD 0) off], type := 0 }
    | 6 =>
      let mask := bitsAt x 40 12
      let chosen := a.members.zipIdx.filter fun e => mask == 0 || mask.testBit e.2
      .ok { locs := if k = .read then [Ops.scratchLoc a.block off] else chosen.map fun e => Ops.scratchLoc (e.1.getD 0) off, type := 0 }
    | 10 => .ok { locs := [Ops.l2Loc (Ops.dieOf a.core) x], type := 0 }
    | sp =>
      let va := if sp = 8 then (a.base + x) % 2 ^ 57 else x
      match s.translate a.core a.ctx (Xlat.spaceOf sp) va k a.priv with
      | .error f => .error f
      | .ok t =>
        if sp = 1 then .ok { locs := [Ops.hostLoc t.pa], type := t.type }
        else if sp = 2 then
          if s.routes.getLsbD (t.pa / 2 ^ 46) && !(s.core a.core).linkBad then .ok { locs := [Ops.peerLoc t.pa], type := t.type }
          else .error { cause := 0x1B, level := 0, kind := 0 }
        else .ok { locs := [Ops.devLoc t.pa], type := t.type }

/-- Every space of Table MEM-1. -/
def allSpaces : List Nat := [0, 1, 2, 4, 5, 6, 8, 10]
/-- The spaces atomics accept (09 R185). -/
def atomSpaces : List Nat := [0, 1, 2, 4, 5, 8, 10]

/-! Observation: soundings and slice logs (17 R353, R354). They change no result. -/

/-- One LS access of a sounding launch to a line in a sector (17 R353). -/
def Sounding.sample (x : Sounding) (sector line : Nat) : Sounding :=
  let n := Tab.get 0 x.counts sector + 1
  let tags := Tab.get [] x.tags sector
  let bump (b : Nat) (t : Tab Nat) : Tab Nat := Tab.set 0 t b (min (Tab.get 0 t b + 1) (2 ^ 32 - 1))
  let hit := tags.find? fun t => t.1 = line
  let b1 := match hit with
    | some t => bump (min ((t.2 + 1).log2) 30) x.buckets
    | none => x.buckets
  let rest := (tags.filter fun t => t.1 ≠ line).map fun t => (t.1, t.2 + 1)
  let take := n % 2 ^ (x.p + 4) = 0
  let full := decide (64 ≤ rest.length)
  { x with counts := Tab.set 0 x.counts sector n,
           tags := Tab.set [] x.tags sector (if take then (line, 0) :: (if full then rest.dropLast else rest) else rest),
           buckets := if take && full then bump 31 b1 else b1 }

/-- Memory behind L2: device, host and peer. -/
def Ops.lined (l : Nat) : Bool := decide (l < 3 * 2 ^ 64)

/-- The home slice of a location of device, host or peer memory (07 R140): its die, and the fixed hash among the die's 48 slices; of L2 scratch, the
local slice its offset names (07 R141). -/
def Ops.homeSlice (l : Nat) : Nat :=
  let pa := l % 2 ^ 64
  if Ops.lined l then
    let die := if l < 2 ^ 64 then pa / 2 ^ 37 % 4 else pa / 2 ^ 7 % 4
    48 * die + Config.lineHash (pa / 128) % 48
  else 48 * (pa / 2 ^ 35 % 4) + pa % 2 ^ 35 / 128 % 48

/-- The filter of a slice as log entry 17 lays it out: enable, context, core range, operation mask, line range, ring. -/
structure LogFilter where
  en   : Bool
  ctx  : Nat
  anyCtx : Bool
  lo   : Nat
  hi   : Nat
  ops  : Nat
  first : Nat
  last  : Nat
  ring : Nat
  size : Nat

def State.logFilter (s : State) (slice : Nat) : LogFilter :=
  let rd (o n : Nat) : Nat := bytesToNat ((List.range n).map fun i => Tab.get 0 s.logRegs (64 * slice + o + i))
  { en := (rd 0 4).testBit 31, ctx := rd 0 4 % 64, anyCtx := (rd 0 4).testBit 6, lo := bitsAt (rd 4 4) 0 16, hi := bitsAt (rd 4 4) 16 16,
    ops := rd 8 4 % 64, first := rd 16 8, last := rd 24 8, ring := rd 32 8, size := rd 40 4 }

/-- Who makes a request, as a record names it: the core, or 0xFFFF for the host, 0xFFFE for a peer and 0xFFFD for a walker; its group context, or 0xFF;
its translation context. -/
structure Asker where
  core : Nat
  gctx : Nat
  ctx  : Nat
  deriving DecidableEq, Repr

def Agent.asker (a : Agent) : Asker := { core := a.core, gctx := a.gctx, ctx := a.ctx }
def Asker.host : Asker := { core := 0xFFFF, gctx := 0xFF, ctx := 0xFF }
def Asker.peer : Asker := { core := 0xFFFE, gctx := 0xFF, ctx := 0xFF }
def Asker.walker (ctx : Nat) : Asker := { core := 0xFFFD, gctx := 0xFF, ctx := ctx }

/-- Bytes the device writes of its own, at locations of device memory: they wait at home where a pseudo-channel holds them back (Table BNK-2), among the
writes of a core. -/
def State.writeLate (s : State) (core : Nat) (cells : List (Nat × Byte)) : State :=
  if cells.any fun c => s.heldAt c.1 then
    ({ s with nextId := s.nextId + 1 } : State).onCore core fun k =>
      { k with stores := k.stores ++ [{ id := s.nextId, group := 0, cells := cells, ptrs := [], ordered := false, unit := 16, through := [], fenced := false }],
               l1 := k.l1.filter fun e => !(cells.any fun c => c.1 / 128 == e.1) }
  else s.writeBytes cells

/-- The 16 bytes of a record. -/
def Asker.record (x : Asker) (op hit line cycle : Nat) : List Byte :=
  natToBytes 8 (line * 128 + hit * 8 + op) ++ natToBytes 8 (x.core % 2 ^ 16 + x.gctx % 2 ^ 8 * 2 ^ 16 + x.ctx % 2 ^ 8 * 2 ^ 24 + cycle % 2 ^ 32 * 2 ^ 32)

/-- One request seen by its home slice's log (17 R354). `op` is its number in the mask's order: read, write, atomic, write-back, replica fill,
invalidate. The hit bit is a free value, as the spec does not say which lines L2 holds. -/
def State.logRequest (s : State) (op : Nat) (x : Asker) (l : Nat) : State :=
  if s.logRegs = [] then s
  else
    let slice := Ops.homeSlice l
    let die := slice / 48
    let f := s.logFilter slice
    let pa := if Ops.lined l then l % 2 ^ 52 else l % 2 ^ 35
    if f.en && (f.anyCtx || f.ctx == x.ctx) && decide (f.lo ≤ x.core) && decide (x.core ≤ f.hi) && f.ops.testBit op && decide (f.first ≤ pa)
        && decide (pa < f.last) then
      let i := Tab.get 0 s.logHead die
      if f.size ≤ i then { s with logDrops := Tab.set 0 s.logDrops die (Tab.get 0 s.logDrops die + 1) }
      else
        let bytes := x.record op ((Config.freeWord s.free).toNat % 2) (pa / 128) s.cycle
        let s1 := s.writeLate (144 * die) (bytes.zipIdx.map fun b => (f.ring + 16 * i + b.2, b.1))
        { s1 with logHead := Tab.set 0 s1.logHead die (i + 1), free := s1.free + 1 }
    else s

/-- The lines the locations lie in. -/
def linesOf (ls : List Nat) : List Nat := (ls.map fun l => l / 128 * 128).eraseDups

/-- A read request of a line; one under POL 4 whose home lies in another sector leaves a replica in its own (07 R140). -/
def State.logRead (s : State) (x : Asker) (pol l : Nat) : State :=
  if s.logRegs = [] then s
  else
    let s1 := s.logRequest 0 x l
    let sector := Ops.sectorOf x.core
    if pol = 4 ∧ Ops.lined l ∧ Ops.homeSlice l / 16 ≠ sector ∧ (l / 128, sector) ∉ s.replicas
    then { s1.logRequest 4 x l with replicas := (l / 128, sector) :: s1.replicas }
    else s1

/-- The slices log the writes or atomics of an asker, one a line: every replica is invalidated first (07 R140), and the line then waits for its
write-back, but for the lines `through`, which L2 does not allocate (08 R169). -/
def State.logWrites (s : State) (op : Nat) (x : Asker) (through : List Nat) (ls : List Nat) : State :=
  if s.logRegs = [] then s
  else each (linesOf (ls.filter fun l => Ops.lined l || l / 2 ^ 64 == 4)) (fun l s =>
    let s1 := each (s.replicas.filter fun r => r.1 = l / 128) (fun _ s => s.logRequest 5 x l) s
    let s2 := s1.logRequest op x l
    { s2 with replicas := s2.replicas.filter fun r => r.1 ≠ l / 128,
              dirty := if Ops.lined l && !through.contains (l / 128) then l / 128 :: s2.dirty.filter (· ≠ l / 128) else s2.dirty }) s

/-- The written lines that satisfy p are written back. -/
def State.writeBack (s : State) (x : Asker) (p : Nat → Bool) : State :=
  { each (s.dirty.filter p) (fun n s => s.logRequest 3 x (n * 128)) s with dirty := s.dirty.filter fun n => !p n }

/-- The table entries a walk for a core reads, as the slice logs see them. -/
def State.logWalk (s : State) (core ctx space va : Nat) : State :=
  if s.logRegs = [] then s
  else each (s.walkReads va (s.walkFor core ctx space va).1 (s.walkFor core ctx space va).2) (fun l s => s.logRequest 0 (Asker.walker ctx) l) s

/-- The translation of one address for an access (08 R172): where no TLB holds it, a walk, which the slice logs see and which leaves what it has passed held. -/
def State.walkPage (s : State) (a : Agent) (k : Access) (space va : Nat) : State :=
  if !(s.heldXlats a.core a.ctx space va).isEmpty then s
  else (s.logWalk a.core a.ctx space va).keepWalk a.core a.ctx space va (s.walkOn a.core a.ctx space va k a.priv).toOption

/-- The space and the page a pointer is translated in, none where its space has no table. -/
def Agent.pageOf (a : Agent) (p : DWord) : Option (Nat × Nat) :=
  match ptrSpace p with
  | 0 => some (0, ptrAddr p / 2 ^ 12 * 2 ^ 12)
  | 1 => some (1, ptrAddr p / 2 ^ 12 * 2 ^ 12)
  | 2 => some (2, ptrAddr p / 2 ^ 12 * 2 ^ 12)
  | 8 => some (0, (a.base + ptrAddr p) % 2 ^ 57 / 2 ^ 12 * 2 ^ 12)
  | _ => none

/-- The walks of the pointers of an access of n bytes each, those that reach their translation, a page at a time in order (08 R173). -/
def State.walks (s : State) (a : Agent) (spaces : List Nat) (n : Nat) (k : Access) (ps : List DWord) : State :=
  each (((ps.filter fun p => (a.checkForm s spaces p n).isNone).filterMap a.pageOf).eraseDups) (fun v s => s.walkPage a k v.1 v.2) s

/-- TLB_WALK (08 R168, R172, R173): the sector's walker walks an address for a launch resident on the core, and what passes every check may be held from
then on; an entry that faulted is never held. -/
def execTlbWalk (core ctx : Nat) (space : BitVec 4) (va : BitVec 57) (s : State) : Host.Outcome State Fault Refusal :=
  let sp := Xlat.spaceOf space.toNat
  let privs := s.privsOn core ctx
  if privs.isEmpty then .next s
  else .next ((s.logWalk core ctx sp va.toNat).keepWalk core ctx sp va.toNat
    (privs.findSome? fun p => (s.walkOn core ctx sp va.toNat .read p).toOption))

/-- An LS access of a group counts towards its launch's soundings (17 R353). -/
def State.observe (s : State) (a : Agent) (l : Nat) : State :=
  if Ops.lined l then match Tab.find s.soundings a.launch with
    | some x => if x.on then { s with soundings := Tab.put s.soundings a.launch (x.sample (Ops.sectorOf a.core) (l / 128)) } else s
    | none => s
  else s

/-! The LS path. -/

/-- The byte the last store in flight from a core gives a location (07 R149, R154). -/
def overlay (stores : List PendingStore) (l : Nat) : Option Byte :=
  stores.foldl (fun acc st => (st.cells.filter fun c => c.1 = l).foldl (fun _ c => some c.2) acc) none

/-- A byte as the core's LS path finds it past L1. -/
def State.freshByte (s : State) (core l : Nat) : Byte := (overlay (s.core core).stores l).getD (s.readByte l)

/-- A store that a `pfence` has put before the core's later reads over other paths has bytes at the location, not yet performed (07 R161). -/
def State.fencedAt (s : State) (core l : Nat) : Bool := (s.core core).stores.any fun p => p.fenced && p.cells.any fun c => c.1 == l

/-- A byte as a read named below `til` over the K, T or I path of a core finds it at its home: such a store of an earlier name comes first. -/
def State.homeByte (s : State) (core til l : Nat) : Byte :=
  (overlay ((s.core core).stores.filter fun p => p.fenced && decide (p.id < til)) l).getD (s.readByte l)

/-- Such a read waits at its home: the pseudo-channel is held back, and the choice has L2 not serve it, or a store stands before it (Table BNK-2). -/
def State.homeWaits (s : State) (core choice l : Nat) : Bool := s.heldAt l && (!choice.testBit 3 || s.fencedAt core l)

/-- A line as it reads past L1. -/
def State.freshLine (s : State) (core line : Nat) : List Byte := (List.range 128).map fun i => s.freshByte core (line * 128 + i)

/-- One byte of a load: a store in flight, the L1 copy where the choice takes it, else the memory; none where it waits at the home slice of a
pseudo-channel held back (Table BNK-2; bit 3 of the choice: it hits in L2). -/
def State.lsByte (s : State) (core choice : Nat) (cached : Bool) (l : Nat) : Option Byte :=
  match overlay (s.core core).stores l with
  | some b => some b
  | none => match if cached && choice.testBit 0 then Tab.find (s.core core).l1 (l / 128) else none with
    | some line => some (line.getD (l % 128) 0)
    | none => if s.heldAt l && !choice.testBit 3 then none else some (s.readByte l)

/-- The lines L1 has room for beside the scratchpads of the core's blocks and, on a pod's first core, of its service group (01 R14, R19). -/
def Core.l1Lines (k : Core) (core : Nat) : Nat := (384 * 1024 - k.scratch - if Ops.hostsService core then 32768 else 0) / 128

/-- A line comes into a core-side store of so many lines; a full one gives up a line, which one the spec leaves open (log entry 65). -/
def fillLine (room choice line : Nat) (bytes : List Byte) (t : Tab (List Byte)) : Tab (List Byte) :=
  Tab.put (if (Tab.find t line).isNone && decide (room ≤ t.length) then t.eraseIdx (choice / 2 ^ 64 % t.length) else t) line bytes

/-- The lines of the 32 KiB K cache, and of the 32 KiB instruction cache (Table MEM-4). -/
def Ops.codeLines : Nat := 256

def Core.fill (core choice line : Nat) (bytes : List Byte) (k : Core) : Core := { k with l1 := fillLine (k.l1Lines core) choice line bytes k.l1 }

/-- What an access over the LS path does to L1 and asks of L2: a copy present is brought up to date by a read past it, and a line may fill (bit 0 of the
choice). -/
def State.lsTouch (s : State) (a : Agent) (choice pol : Nat) (cached fills : Bool) (l : Nat) : State :=
  if !Ops.lined l then (if l / 2 ^ 64 = 4 then s.logRequest 0 a.asker l else s)
  else
    let line := l / 128
    match Tab.find (s.core a.core).l1 line with
    | some _ => if cached && choice.testBit 0 then s
                else (s.logRead a.asker pol l).onCore a.core fun c => { c with l1 := Tab.put c.l1 line (s.freshLine a.core line) }
    | none => if cached && fills && choice.testBit 0 && !s.heldAt l then (s.logRead a.asker pol l).onCore a.core (Core.fill a.core choice line (s.freshLine a.core line))
              else s.logRead a.asker pol l

/-- What a store leaves in its core's L1 (Table MEM-2): a line present follows the store, or goes where it lies in `drop`. -/
def Core.follow (drop : List Nat) (far : List (Nat × Byte)) (k : Core) : Core :=
  { k with l1 := each far (fun c t => Tab.change t (c.1 / 128) fun line => line.set (c.1 % 128) c.2) (k.l1.filter fun e => !drop.contains e.1) }

/-- A write over the T path, or by the home on a group's behalf: the memory changes, and the core's own L1 loses the lines (07 R142). -/
def State.homeWrite (s : State) (op : Nat) (x : Asker) (through : List Nat) (cells : List (Nat × Byte)) : State :=
  ((s.logWrites op x through (cells.map (·.1))).writeBytes cells).onCore x.core fun k => { k with l1 := k.l1.filter fun e => !(cells.any fun c => c.1 / 128 == e.1) }

/-- A store of an agent, its bytes those of accesses of `unit` bytes through pointers. -/
def Agent.storeOf (a : Agent) (unit : Nat) (ptrs : List DWord) (cells : List (Nat × Byte)) : PendingStore :=
  { id := 0, group := a.group, cells := cells, ptrs := ptrs, ordered := false, unit := unit, through := [], fenced := false }

/-- The bytes of a store reach the core's scratchpads and L2 scratch at once, and wait for their home elsewhere; one that is `ordered` is performed at
its home before the word is over, unless a pseudo-channel holds it back (07 R142, R158). The lines in `drop` leave L1. -/
def State.lsStore (s : State) (a : Agent) (p : PendingStore) (drop : List Nat) : State :=
  let here := p.cells.filter fun c => !Ops.lined c.1
  let far := p.cells.filter fun c => Ops.lined c.1
  let s1 := (s.logWrites 1 a.asker [] (here.map (·.1))).writeBytes here
  if far.isEmpty then s1
  else if p.ordered && !(far.any fun c => s.heldAt c.1) then
    ((s1.logWrites 1 a.asker p.through (far.map (·.1))).writeBytes far).onCore a.core (Core.follow drop far)
  else
    ({ s1 with nextId := s1.nextId + 1 } : State).onCore a.core fun k =>
      Core.follow drop far { k with stores := k.stores ++ [{ p with id := s1.nextId, cells := far }] }

/-- The location lies in the memory of a peer that satisfies p. -/
def Ops.atPeer (p : Nat → Bool) (l : Nat) : Bool := decide (l / 2 ^ 64 = 2) && p (l % 2 ^ 64 / 2 ^ 46)

/-- Who made a store in flight. -/
def State.askerOf (s : State) (core group : Nat) : Asker :=
  match Tab.find s.groups group with
  | some g => { core := core, gctx := g.context, ctx := s.ctxOf g }
  | none => { core := core, gctx := 0xFF, ctx := 0xFF }

/-- A store in flight is performed at its home. -/
def State.storeHome (core : Nat) (p : PendingStore) (s : State) : State :=
  (s.logWrites 1 (s.askerOf core p.group) p.through (p.cells.map (·.1))).writeBytes p.cells

/-- Performs the stores in flight from a core at their homes, in issue order; none while one waits at a pseudo-channel held back. -/
def State.drain (s : State) (core : Nat) : Option State :=
  let st := (s.core core).stores
  if st.any fun p => p.cells.any fun c => s.heldAt c.1 then none
  else if st.isEmpty then some s
  else some ((each st (State.storeHome core) s).onCore core fun k => { k with stores := k.stores.drop st.length })

/-- Performs every store of a core that does not wait at a pseudo-channel held back. -/
def State.drainFree (s : State) (core : Nat) : State :=
  let st := (s.core core).stores
  let part (held : Bool) (p : PendingStore) : PendingStore := { p with cells := p.cells.filter fun c => s.heldAt c.1 == held }
  if st.isEmpty then s
  else (each (st.map (part false)) (State.storeHome core) s).onCore core fun k =>
    { k with stores := ((st.map (part true)).filter fun p => !p.cells.isEmpty) ++ k.stores.drop st.length }

/-- An acquire at cluster scope or wider invalidates the core's L1 (Table MEM-4). -/
def State.acquire (s : State) (core scope : Nat) : State :=
  if scope = 0 then s else s.onCore core fun c => { c with l1 := [] }

/-- The group has an atomic under way on one of the locations, which every later access of its own follows (07 R154). -/
def State.atomBusy (s : State) (gid : Nat) (locs : List Nat) : Bool :=
  let hit (r : Request) : Bool := r.group == gid && match r.ask with
    | .atom _ ls _ _ => ls.any locs.contains
    | _ => false
  s.net.any hit || s.podQ.any fun q => q.2.any hit

/-- The group has an atomic issued before the name `til` that has not been served. -/
def State.atomsBefore (s : State) (gid til : Nat) : Bool :=
  let hit (r : Request) : Bool := r.group == gid && decide (r.op < til) && match r.ask with
    | .atom _ _ _ _ => true
    | _ => false
  s.net.any hit || s.podQ.any fun q => q.2.any hit

/-- The group has an atomic that has not been served. -/
def State.atomsOpen (s : State) (gid : Nat) : Bool :=
  let hit (r : Request) : Bool := r.group == gid && match r.ask with
    | .atom _ _ _ _ => true
    | _ => false
  s.net.any hit || s.podQ.any fun q => q.2.any hit

/-- An acquire of the group would come before an atomic or the write of an `stl` that it follows (07 R158, 09 R186). -/
def State.acquireWaits (s : State) (gid core : Nat) : Bool :=
  s.atomsOpen gid || (s.core core).stores.any fun p => p.ordered && p.group == gid

/-- A table entry that the translation of a pointer reads lies under the write of an `stl` still in flight from the core (08 R177). -/
def State.entryHeld (s : State) (a : Agent) (p : DWord) : Bool :=
  let late := (s.core a.core).stores.filter (·.ordered)
  !late.isEmpty && [0, 1, 2, 8].contains (ptrSpace p) &&
    let va := if ptrSpace p = 8 then (a.base + ptrAddr p) % 2 ^ 57 else ptrAddr p
    (s.xlatReads a.core a.ctx (Xlat.spaceOf (ptrSpace p)) va).any fun e => late.any fun q => q.cells.any fun c => c.1 / 8 == e / 8

/-- A release (07 R155, R159): the group's atomics have been served, and at cluster scope or wider every store of the core, those its reads may
have returned included, is performed; within a block every agent already reads them. None while one of them cannot be.
Scopes: 0 block, 1 cluster, 2 device, 3 system. -/
def State.release (s : State) (gid core scope : Nat) : Option State :=
  if s.atomsOpen gid then none else if scope = 0 then some s else s.drain core

/-- Every write the group has made over the LS path is performed at its home, its atomics included; none while one cannot be (07 R149). -/
def State.ownWrites (s : State) (gid core : Nat) : Option State :=
  let t := s.drainFree core
  if s.atomsOpen gid || (t.core core).stores.any fun p => p.group == gid then none else some t

/-- Bytes of the size codes of Table MEM-5. -/
def codeSize (code : Nat) : Nat :=
  match code with
  | 0 => 1
  | 1 => 1
  | 2 => 2
  | 3 => 2
  | 4 => 4
  | 5 => 8
  | _ => 16

/-- POL and the leaf's memory type let a load fill L1 (Table MEM-2, 08 R169). -/
def polFills (p : DWord) (type : Nat) : Bool := ptrPol p ≠ 1 && ptrPol p ≠ 3 && type == 0

/-- A prefetch into L1 and L2, or L2 alone: of a pointer to one of the spaces whose translation the TLBs hold, and not of a type-2 line (07 R151, 08 R169). -/
def State.prefetch (s : State) (a : Agent) (choice : Nat) (spaces : List Nat) (l1 : Bool) (p : DWord) : State :=
  let sp := Xlat.spaceOf (ptrSpace p)
  let va := if ptrSpace p = 8 then (a.base + ptrAddr p) % 2 ^ 57 else ptrAddr p
  match a.checkForm s spaces p 1, s.heldXlat a.core a.ctx sp va, s.checkPtr a spaces p 1 .read with
  | none, some _, .ok t =>
    if t.type = 2 then s
    else
      let l := t.locs.headD 0
      let s1 := s.observe a l
      if l1 then s1.lsTouch a choice 0 true (polFills p t.type) l else s1.logRequest 0 a.asker l
  | _, _, _ => s

/-- The bytes of a store that reach their home together: all of them, or, as the choice has it, those of one lane's access, since the accesses of a word
may be performed one by one (08 R168, 21 R366). -/
def PendingStore.takes (p : PendingStore) (choice : Nat) (c : Nat × Byte) : Bool :=
  let parts := (p.cells.map fun d => d.1 / p.unit).eraseDups
  match choice % 2 ^ 16 with
  | 0 => true
  | n + 1 => parts[n % parts.length]? == some (c.1 / p.unit)

/-- WRITE_ACKNOWLEDGED_AT_HOME (07 R149, R154): one store in flight, or one access of it, is performed at its home, after every earlier store of the core
to a location it writes; bytes in a pseudo-channel held back wait (Table BNK-2). -/
def execWriteAcknowledgedAtHome (core op : Nat) (s : State) : Host.Outcome State Fault Refusal :=
  let st := (s.core core).stores
  match st.find? fun p => p.id = op with
  | none => .next s
  | some p =>
    let before := st.takeWhile fun q => q.id ≠ op
    let goes (c : Nat × Byte) : Bool := p.takes s.pick c && !s.heldAt c.1
    let now := p.cells.filter goes
    let rest := p.cells.filter fun c => !goes c
    let left (q : PendingStore) : Option PendingStore := if q.id ≠ op then some q else if rest.isEmpty then none else some { q with cells := rest }
    if now.isEmpty || (now.any fun c => before.any fun q => q.cells.any fun d => d.1 = c.1) then .next s
    else .next ((State.storeHome core { p with cells := now } s).onCore core fun k => { k with stores := k.stores.filterMap left })

end Sys2Proof.Machine
end

