-- ==== Sys2Proof/Machine/MemOps.lean ====
section
/-! DEFINITION. The memory words of majors 0x20 to 0x27 (07 R143-R151), `l2way` (07 R152), and the completion of long-latency words
(03 R48, R54). -/

namespace Sys2Proof.Machine

/-! Pointers of a word. -/

/-- The trap of a pointer that fails (07 R135). -/
def Ctx.ptrTrap (c : Ctx) (p : DWord) (f : PtrFault) : Trap := { c.trap 7 f.cause with faddr := p, level := f.level, kind := f.kind }

/-- Every pointer in lane order: the first failing one, or what each names (07 R135). -/
def State.checkAll (s : State) (a : Agent) (spaces : List Nat) (n : Nat) (k : Access) :
    List (Option Nat × DWord) → Except (DWord × PtrFault) (List (Option Nat × Target))
  | [] => .ok []
  | (l, p) :: t => match s.checkPtr a spaces p n k with
    | .error f => .error (p, f)
    | .ok x => match s.checkAll a spaces n k t with
      | .error e => .error e
      | .ok xs => .ok ((l, x) :: xs)

/-- The lanes a memory word accesses for: once for the split, or each active lane. -/
def Ctx.accLanes (c : Ctx) (once : Bool) : List (Option Nat) := if once then [none] else (members c.exec).map some

/-- Registers of D. -/
def codeRegs (code : Nat) : Nat := if code = 5 then 2 else if code = 6 then 4 else 1
/-- D of a pair is even, of a quad a multiple of four. -/
def codeRegOk (code : Nat) (d : BitVec 7) : Bool := if code = 5 then isEven d else if code = 6 then isQuad d else true

/-- The registers a load of a code writes for x (Table MEM-5). -/
def codeWords (code x : Nat) : List Word :=
  match code with
  | 1 => [BitVec.ofInt 32 (sextN x 8)]
  | 3 => [BitVec.ofInt 32 (sextN x 16)]
  | _ => (List.range (codeRegs code)).map fun i => BitVec.ofNat 32 (x / 2 ^ (32 * i))

/-! Loads. -/

/-- The core-side store a load goes through. -/
inductive Path where
  /-- LS, using and filling L1. -/
  | ls
  /-- LS past L1: an ordered load at cluster scope or wider. -/
  | fresh
  /-- The K cache. -/
  | k
  deriving DecidableEq, Repr

/-- One byte read over the K path: a K cache copy where bit 1 of the choice takes it. -/
def State.kByte (s : State) (core choice l : Nat) : Option Byte :=
  match if choice.testBit 1 then Tab.find (s.core core).kc (l / 128) else none with
  | some line => some (line.getD (l % 128) 0)
  | none => if s.homeWaits core choice l then none else some (s.homeByte core s.nextId l)

def State.pathByte (s : State) (path : Path) (core choice l : Nat) : Option Byte :=
  match path with
  | .ls => s.lsByte core choice (Ops.lined l) l
  | .fresh => s.lsByte core choice false l
  | .k => s.kByte core choice l

/-- What a load leaves in the core's L1 or K cache, and asks of L2; a read past a K cache copy leaves no older copy behind (07 R154). -/
def State.pathTouch (s : State) (path : Path) (a : Agent) (choice pol : Nat) (fills : Bool) (l : Nat) : State :=
  match path with
  | .ls => s.lsTouch a choice pol true fills l
  | .fresh => s.lsTouch a choice pol false fills l
  | .k =>
    let line := l / 128
    if choice.testBit 1 && (Tab.find (s.core a.core).kc line).isSome then s
    else
      let bytes := (List.range 128).map fun i => s.homeByte a.core s.nextId (line * 128 + i)
      (s.logRead a.asker pol l).onCore a.core fun c =>
        { c with kc := if choice.testBit 1 && !s.heldAt l then fillLine Ops.codeLines choice line bytes c.kc else Tab.erase c.kc line }

/-- The path of one pointer of a load: a type-2 leaf takes an LS access past L1 (08 R169). -/
def Path.of (path : Path) (t : Target) : Path := if path = .ls ∧ t.type = 2 then .fresh else path

/-- The POL by which L2 takes a load: under a type-2 leaf it allocates nothing, a replica included (08 R169). -/
def Target.pol (t : Target) (p : DWord) : Nat := if t.type = 2 then 0 else ptrPol p

/-- The lines of a word's type-2 targets. -/
def throughLines (ts : List Target) : List Nat := ((ts.filter fun t => t.type == 2).flatMap fun t => t.locs.map (· / 128)).eraseDups

/-- A load: its bytes are read as the word issues, but those that wait at a home slice; a failing pointer faults after issue (07 R135, R143).
It waits for the group's own atomics on its locations (07 R154); one that acquires, for all of them and for the write of an `stl` before it (07 R158,
09 R186), and at cluster scope or wider it leaves no L1 line behind it. -/
def State.load (s : State) (c : Ctx) (code : Nat) (d : BitVec 7) (path : Path) (spaces : List Nat) (acq : Option Nat)
    (ptrs : List (Option Nat × DWord)) : Res :=
  let a := s.agentOf c.u.group c.g
  let n := codeSize code
  let op := { c.longOp.marks d (codeRegs code) with ptrs := ptrs.map fun (p : Option Nat × DWord) => (p.1.getD 0, p.2) }
  if (acq.isSome && s.acquireWaits c.u.group a.core) || ptrs.any (fun p => s.entryHeld a p.2) then .stall
  else match s.checkAll a spaces n .read ptrs with
  | .error e => ((s.walks a spaces n .read (ptrs.map (·.2))).linkUsed c.u.group e.2.cause).issueLong c { op with fault := some (Trap.late c (c.ptrTrap e.1 e.2)) }
  | .ok ts =>
    let bytes (t : Target) : List Nat := (List.range n).map fun i => t.locs.headD 0 + i
    if ts.any fun t => s.atomBusy c.u.group (bytes t.2) then .stall
    else
      let reads := ts.map fun t => ({ lane := t.1, cells := (bytes t.2).map fun l => (l, s.pathByte (path.of t.2) a.core c.u.choice l) } : HeldRead)
      let seen := if path = .k then s else each ts (fun t s => s.observe a (t.2.locs.headD 0)) s
      let asked := seen.walks a spaces n .read (ptrs.map (·.2))
      let s1 := each (ts.zip ptrs) (fun t s =>
        s.pathTouch (path.of t.1.2) a c.u.choice (t.1.2.pol t.2.2) (polFills t.2.2 t.1.2.type) (t.1.2.locs.headD 0)) asked
      let s2 := match acq with
        | some sc => s1.acquire a.core sc
        | none => s1
      s2.issueLong c { op with acquire := acq, dest := d.toNat, code := code, reads := reads }

/-- The pointer of a lane: base pair and a displacement (07 R143). -/
def Ctx.ptr (c : Ctx) (a : BitVec 7) (off : Int) (l : Option Nat) : DWord := ptrAdd (c.rd64 a (l.getD 0)) off

/-- `ld` and `lda`: an s destination needs an s base. -/
def Ops.ldWord (code : Nat) (d a : BitVec 7) (off : BitVec 8) (path : Path) (acq : Option Nat) : State → Host.Outcome State Fault Refusal :=
  Ops.word { priv := false, opnd := isEven a && codeRegOk code d && (!isS d || isS a), uses := [useN d (codeRegs code), useN a 2] } fun c s =>
    s.load c code d path allSpaces acq ((c.accLanes (isS d && isS a)).map fun l => (l, c.ptr a (off.toInt * codeSize code) l))

/-- `ldx`. -/
def Ops.ldxWord (code : Nat) (d a b : BitVec 7) : State → Host.Outcome State Fault Refusal :=
  Ops.word { priv := false, opnd := isEven a && isS a && codeRegOk code d && (!isS d || isS b),
             uses := [useN d (codeRegs code), useN a 2, use b] } fun c s =>
    s.load c code d .ls allSpaces none ((c.accLanes (isS d && isS b)).map fun l => (l, c.ptr a ((c.rd b (l.getD 0)).toInt * codeSize code) l))

/-- `ldk`. -/
def Ops.ldkWord (code : Nat) (d a : BitVec 7) (off : BitVec 8) : State → Host.Outcome State Fault Refusal :=
  Ops.word { priv := false, opnd := isEven a && isS a && codeRegOk code d, uses := [useN d (codeRegs code), useN a 2] } fun c s =>
    s.load c code d .k [0, 1] none ((c.accLanes (isS d)).map fun l => (l, c.ptr a (off.toInt * codeSize code) l))

def execLd8n (d a : BitVec 7) (o : BitVec 8) (s : State) : Host.Outcome State Fault Refusal := Ops.ldWord 0 d a o .ls none s
def execLd8i (d a : BitVec 7) (o : BitVec 8) (s : State) : Host.Outcome State Fault Refusal := Ops.ldWord 1 d a o .ls none s
def execLd16n (d a : BitVec 7) (o : BitVec 8) (s : State) : Host.Outcome State Fault Refusal := Ops.ldWord 2 d a o .ls none s
def execLd16i (d a : BitVec 7) (o : BitVec 8) (s : State) : Host.Outcome State Fault Refusal := Ops.ldWord 3 d a o .ls none s
def execLd32 (d a : BitVec 7) (o : BitVec 8) (s : State) : Host.Outcome State Fault Refusal := Ops.ldWord 4 d a o .ls none s
def execLd64 (d a : BitVec 7) (o : BitVec 8) (s : State) : Host.Outcome State Fault Refusal := Ops.ldWord 5 d a o .ls none s
def execLd128 (d a : BitVec 7) (o : BitVec 8) (s : State) : Host.Outcome State Fault Refusal := Ops.ldWord 6 d a o .ls none s
def execLdx8n (d a b : BitVec 7) (s : State) : Host.Outcome State Fault Refusal := Ops.ldxWord 0 d a b s
def execLdx8i (d a b : BitVec 7) (s : State) : Host.Outcome State Fault Refusal := Ops.ldxWord 1 d a b s
def execLdx16n (d a b : BitVec 7) (s : State) : Host.Outcome State Fault Refusal := Ops.ldxWord 2 d a b s
def execLdx16i (d a b : BitVec 7) (s : State) : Host.Outcome State Fault Refusal := Ops.ldxWord 3 d a b s
def execLdx32 (d a b : BitVec 7) (s : State) : Host.Outcome State Fault Refusal := Ops.ldxWord 4 d a b s
def execLdx64 (d a b : BitVec 7) (s : State) : Host.Outcome State Fault Refusal := Ops.ldxWord 5 d a b s
def execLdx128 (d a b : BitVec 7) (s : State) : Host.Outcome State Fault Refusal := Ops.ldxWord 6 d a b s
def execLdk32 (d a : BitVec 7) (o : BitVec 8) (s : State) : Host.Outcome State Fault Refusal := Ops.ldkWord 4 d a o s
def execLdk64 (d a : BitVec 7) (o : BitVec 8) (s : State) : Host.Outcome State Fault Refusal := Ops.ldkWord 5 d a o s
def execLdk128 (d a : BitVec 7) (o : BitVec 8) (s : State) : Host.Outcome State Fault Refusal := Ops.ldkWord 6 d a o s

/-- The path of an ordered load: at cluster scope or wider it reads past L1 (07 R158). -/
def ldaPath (scope : BitVec 2) : Path := if scope = 0 then .ls else .fresh
def execLda32 (sc : BitVec 2) (d a : BitVec 7) (s : State) : Host.Outcome State Fault Refusal := Ops.ldWord 4 d a 0 (ldaPath sc) (some sc.toNat) s
def execLda64 (sc : BitVec 2) (d a : BitVec 7) (s : State) : Host.Outcome State Fault Refusal := Ops.ldWord 5 d a 0 (ldaPath sc) (some sc.toNat) s

/-! Stores. -/

/-- The bytes of D a store of a code takes (Table MEM-5). -/
def Ctx.data (c : Ctx) (code : Nat) (d : BitVec 7) (l : Nat) : List Byte :=
  ((List.range (codeRegs code)).flatMap fun i => natToBytes 4 (c.rdN (d.toNat + i) l).toNat).take (codeSize code)

/-- The bytes a store writes, by location: lanes in increasing order, so that the highest lane's byte stands last (07 R143). -/
def Ctx.cells (c : Ctx) (code : Nat) (d : BitVec 7) (ts : List (Option Nat × Target)) : List (Nat × Byte) :=
  ts.flatMap fun t => t.2.locs.flatMap fun base => (c.data code d (t.1.getD 0)).zipIdx.map fun b => (base + b.2, b.1)

/-- The L1 lines a store invalidates: those under POL 1 or 3, or a leaf of type 1 or 2 (Table MEM-2, 08 R169). -/
def dropLines (ts : List ((Option Nat × Target) × DWord)) : List Nat :=
  (ts.filter fun t => !polFills t.2 t.1.2.type).map fun t => t.1.2.locs.headD 0 / 128

/-- The store of a word, with the trap it presents where a peer cannot complete an access of a lane after its checks. -/
def Ctx.storeOf (c : Ctx) (a : Agent) (ordered : Bool) (unit : Nat) (ts : List ((Option Nat × Target) × DWord)) (cells : List (Nat × Byte)) : PendingStore :=
  { a.storeOf unit (ts.map (·.2)) cells with
    ordered := ordered, through := throughLines (ts.map (·.1.2)), trap := some { c.trap 7 0x1B with pc := c.u.pc, async := true },
    peers := ts.flatMap fun e => (e.1.2.locs.filter (Ops.atPeer fun _ => true)).map fun l => (l, e.2) }

/-- A store: all pointers checked, then the release of an ordered store, then every byte; it waits for the group's own atomics on its locations. -/
def State.store (s : State) (c : Ctx) (code : Nat) (d : BitVec 7) (rel : Option Nat) (ptrs : List (Option Nat × DWord)) : Res :=
  let a := s.agentOf c.u.group c.g
  if ptrs.any fun p => s.entryHeld a p.2 then .stall
  else match s.checkAll a allSpaces (codeSize code) .write ptrs with
  | .error e => .trapWalked (s.walks a allSpaces (codeSize code) .write (ptrs.map (·.2))) (c.ptrTrap e.1 e.2)
  | .ok ts =>
    let cells := c.cells code d ts
    if s.atomBusy c.u.group (cells.map (·.1)) then .stall
    else match (match rel with
      | some sc => s.release c.u.group a.core sc
      | none => some s) with
    | none => .stall
    | some s1 =>
      let seen := (each ts (fun t s => s.observe a (t.2.locs.headD 0)) s1).walks a allSpaces (codeSize code) .write (ptrs.map (·.2))
      let ps := ts.zip (ptrs.map (·.2))
      .ok (seen.lsStore a (c.storeOf a (rel.any fun sc => sc ≠ 0) (codeSize code) ps cells) (dropLines ps))

/-- The lanes a store writes for: once where base and data are s registers and EXEC is not empty. -/
def Ctx.stLanes (c : Ctx) (once : Bool) : List (Option Nat) := if once then (if c.exec = 0 then [] else [none]) else (members c.exec).map some

def Ops.stWord (code : Nat) (d a : BitVec 7) (off : BitVec 8) (rel : Option Nat) : State → Host.Outcome State Fault Refusal :=
  Ops.word { priv := false, opnd := isEven a && codeRegOk code d, uses := [useN d (codeRegs code), useN a 2] } fun c s =>
    s.store c code d rel ((c.stLanes (isS d && isS a)).map fun l => (l, c.ptr a (off.toInt * codeSize code) l))

def Ops.stxWord (code : Nat) (d a b : BitVec 7) : State → Host.Outcome State Fault Refusal :=
  Ops.word { priv := false, opnd := isEven a && isS a && codeRegOk code d, uses := [useN d (codeRegs code), useN a 2, use b] } fun c s =>
    s.store c code d none ((c.stLanes (isS d && isS b)).map fun l => (l, c.ptr a ((c.rd b (l.getD 0)).toInt * codeSize code) l))

def execSt8 (d a : BitVec 7) (o : BitVec 8) (s : State) : Host.Outcome State Fault Refusal := Ops.stWord 0 d a o none s
def execSt16 (d a : BitVec 7) (o : BitVec 8) (s : State) : Host.Outcome State Fault Refusal := Ops.stWord 2 d a o none s
def execSt32 (d a : BitVec 7) (o : BitVec 8) (s : State) : Host.Outcome State Fault Refusal := Ops.stWord 4 d a o none s
def execSt64 (d a : BitVec 7) (o : BitVec 8) (s : State) : Host.Outcome State Fault Refusal := Ops.stWord 5 d a o none s
def execSt128 (d a : BitVec 7) (o : BitVec 8) (s : State) : Host.Outcome State Fault Refusal := Ops.stWord 6 d a o none s
def execStx8 (d a b : BitVec 7) (s : State) : Host.Outcome State Fault Refusal := Ops.stxWord 0 d a b s
def execStx16 (d a b : BitVec 7) (s : State) : Host.Outcome State Fault Refusal := Ops.stxWord 2 d a b s
def execStx32 (d a b : BitVec 7) (s : State) : Host.Outcome State Fault Refusal := Ops.stxWord 4 d a b s
def execStx64 (d a b : BitVec 7) (s : State) : Host.Outcome State Fault Refusal := Ops.stxWord 5 d a b s
def execStx128 (d a b : BitVec 7) (s : State) : Host.Outcome State Fault Refusal := Ops.stxWord 6 d a b s
def execStl32 (sc : BitVec 2) (d a : BitVec 7) (s : State) : Host.Outcome State Fault Refusal := Ops.stWord 4 d a 0 (some sc.toNat) s
def execStl64 (sc : BitVec 2) (d a : BitVec 7) (s : State) : Host.Outcome State Fault Refusal := Ops.stWord 5 d a 0 (some sc.toNat) s

/-! Fences and cache words (07 R148-R151). -/

/-- The parts of a fence: its release, and where it has an acquire the wait for what that follows; none while one of them cannot be performed. -/
def State.fenceAt (s : State) (gid core : Nat) (rel acq : Option Nat) : Option State :=
  match (match rel with
    | some sc => s.release gid core sc
    | none => some s) with
  | none => none
  | some s1 => match acq with
    | none => some s1
    | some sc => if s1.acquireWaits gid core then none else some (s1.acquire core sc)

/-- `fence`: the release, then the acquire. One that cannot be performed yet holds back what the group issues after it; inside a chain it
waits itself. A scope of 4 stands for no release. -/
def execFence (r q : BitVec 1) (sc : BitVec 2) (s : State) : Host.Outcome State Fault Refusal :=
  Ops.word noSig (fun c s =>
    let rel := if r = 1 then some sc.toNat else none
    let acq := if q = 1 then some sc.toNat else none
    match s.fenceAt c.u.group (s.coreOf c.g) rel acq with
    | none => if c.u.probe || c.u.snap.isSome then .stall
              else .ok (s.onGroup c.u.group fun g => { g with fencing := some (rel.getD 4, acq) })
    | some s1 => .ok s1) s

/-- The fences that can now be performed. -/
def State.settleFences (s : State) : State :=
  each (s.groups.filter fun e => e.2.fencing.isSome) (fun e s => match e.2.fencing with
    | none => s
    | some (sc, acq) => match s.fenceAt e.1 (s.coreOf e.2) (if sc < 4 then some sc else none) acq with
      | none => s
      | some s1 => s1.onGroup e.1 fun g => { g with fencing := none }) s

/-- `pfence`, its four steps in order (07 R149); where LS and another path are named, the stores of the core's other groups that still wait at a
pseudo-channel stand before what its other paths read from now on (07 R161). -/
def execPfence (p : BitVec 4) (s : State) : Host.Outcome State Fault Refusal :=
  Ops.word noSig (fun c s =>
    let core := s.coreOf c.g
    match if p.getLsbD 0 then s.ownWrites c.u.group core else some s with
    | none => .stall
    | some s1 =>
      let s2 := if p.getLsbD 0 && decide (1 < p.toNat) then s1.onCore core fun k => { k with l1 := [], stores := k.stores.map fun q => { q with fenced := true } } else s1
      let s3 := if p.getLsbD 1 then s2.onCore core fun k => { k with kc := [] } else s2
      .ok (if p.getLsbD 3 then s3.onGroup c.u.group fun g => { g with fetched := [] } else s3)) s

/-- `icinv` of the line that holds a virtual address, translated as a privileged read; where it has no translation, which the spec leaves open, nothing is
invalidated (log entry 79). -/
def execIcinv (p : BitVec 7) (s : State) : Host.Outcome State Fault Refusal :=
  Ops.word { noSig with opnd := isS p && isEven p, uses := [useN p 2] } (fun c s =>
    let a := s.agentOf c.u.group c.g
    let q := c.rd64 p 0
    if s.entryHeld a q then .stall
    else if ptrSpace q = 0 ∧ ptrPol q = 0 then
      let s1 := s.walks { a with priv := true } [0] 1 .read [q]
      match s.translate a.core a.ctx 0 (ptrAddr q) .read true with
      | .ok x => .ok (s1.onCore a.core fun k => { k with ic := Tab.erase k.ic (x.pa / 128) })
      | .error _ => .ok s1
    else .ok s) s

def execIcinvAll (s : State) : Host.Outcome State Fault Refusal :=
  Ops.word noSig (fun c s => .ok (s.onCore (s.coreOf c.g) fun k => { k with ic := [] })) s

/-- `pref`: each active lane's line (07 R151). -/
def Ops.prefWord (l1 : Bool) (a : BitVec 7) (off : BitVec 8) : State → Host.Outcome State Fault Refusal :=
  Ops.word { noSig with opnd := isEven a, uses := [useN a 2] } fun c s =>
    let ag := s.agentOf c.u.group c.g
    .ok (each (members c.exec) (fun l s => s.prefetch ag c.u.choice [0, 1, 2, 8] l1 (c.ptr a (off.toInt * 128) (some l))) s)

def execPrefL1 (a : BitVec 7) (o : BitVec 8) (s : State) : Host.Outcome State Fault Refusal := Ops.prefWord true a o s
/-- `pref.l2` fills L2 alone. -/
def execPrefL2 (a : BitVec 7) (o : BitVec 8) (s : State) : Host.Outcome State Fault Refusal := Ops.prefWord false a o s

/-! Scratch ways (07 R141, R152). -/

/-- Changes the count of a die: the bytes of the ways that change role read as zero when they are scratch again, and written lines in the cache ways
that change role are written back (which they are is open: the choice). -/
def State.setWays (s : State) (x : Asker) (die n choice : Nat) : State :=
  let old := s.ways die
  let lost (l : Nat) : Bool := decide (Ops.l2Loc die 0 ≤ l) && decide (l < Ops.l2Loc die (2 ^ 35)) &&
    (decide (n * 48 * 2 ^ 20 ≤ l - Ops.l2Loc die 0) || decide (old * 48 * 2 ^ 20 ≤ l - Ops.l2Loc die 0))
  let s1 := s.writeBack x fun line => decide (old < n) && Ops.homeSlice (line * 128) / 48 == die && (choice / 2 ^ 64).testBit (line % 64)
  { s1 with l2way := Tab.set 0 s1.l2way die n, mem := s1.mem.filter fun e => !lost e.1 }

/-- An atomic on the die's L2 scratch is under way. -/
def State.scratchAtom (s : State) (die : Nat) : Bool :=
  let hit (r : Request) : Bool := match r.ask with
    | .atom _ ls _ _ => ls.any fun l => decide (Ops.l2Loc die 0 ≤ l) && decide (l < Ops.l2Loc die (2 ^ 35))
    | _ => false
  s.net.any hit || s.podQ.any fun q => q.2.any hit

/-- `l2way`: accesses to the die's scratch already under way complete first; later ones meet the new size (log entry 67). -/
def execL2way (o : BitVec 7) (s : State) : Host.Outcome State Fault Refusal :=
  Ops.word { priv := true, opnd := isS o, uses := [use o] } (fun c s =>
    let die := Ops.dieOf (s.coreOf c.g)
    if 15 < (c.rd o 0).toNat then .trap (c.trap 7 0x05)
    else if s.scratchAtom die then .stall
    else .ok (s.setWays (s.agentOf c.u.group c.g).asker die (c.rd o 0).toNat c.u.choice)) s

def execL2wayRd (o : BitVec 7) (s : State) : Host.Outcome State Fault Refusal :=
  Ops.word { priv := true, opnd := isS o, uses := [use o] }
    (fun c s => .ok (s.putRegs c o.toNat fun _ => [BitVec.ofNat 32 (s.ways (Ops.dieOf (s.coreOf c.g)))])) s

/-! Completion of a long-latency word. -/

/-- Every byte of a read has arrived. -/
def HeldRead.whole (r : HeldRead) : Bool := r.cells.all fun c => c.2.isSome
def HeldRead.value (r : HeldRead) : Nat := bytesToNat (r.cells.map fun c => c.2.getD 0)

/-- The results of the word can be written. -/
def LongOp.ready (op : LongOp) : Bool := decide (op.waiting = 0) && op.reads.all (·.whole)

/-- Writes the results of a long-latency word: registers, mask, FPFLAGS. -/
def Group.writeResults (op : LongOp) (now : Nat) (g : Group) : Group :=
  let g1 := each op.reads (fun r g =>
    let ws := (codeWords op.code r.value).zipIdx
    if 96 ≤ op.dest then each ws (fun w g => g.writeLate op.epoch op.slices (op.dest - 96 + w.2) w.1) g
    else match r.lane with
      | some l => each ws (fun w g => g.writeV (op.dest + w.2) l w.1) g
      | none => each (members op.exec) (fun l g => each ws (fun w g => g.writeV (op.dest + w.2) l w.1) g) g) g
  let g2 := each op.vWrites (fun w g => g.writeV (w.1 / 128) (w.1 % 128) w.2) g1
  let g3 := each op.sWrites (fun w g => g.writeLate op.epoch op.slices w.1 w.2) g2
  let g4 := match op.mask with
    | some m => g3.writeM op.slices m.1 m.2
    | none => g3
  g4.orFlags now op.fpflags

/-- The word writes registers of an extended block that lies in group-local space: its results wait until the block is back (log entry 24). -/
def Group.awaitsBlock (g : Group) (o : LongOp) : Bool := g.spilled && !g.killed && o.vMarks.any fun r => decide (48 ≤ r)

/-- RESULT_WRITEBACK (03 R48, R50): the results are written, the pending marks go, the set-flag's count falls, and an ordered load acquires. -/
def execResultWriteback (group op : Nat) (s : State) : Host.Outcome State Fault Refusal :=
  match Tab.find s.groups group with
  | none => .next s
  | some g => match Tab.find g.longs op with
    | none => .next s
    | some o =>
      if o.fault.isSome || !o.ready || g.awaitsBlock o then .next s
      else
        let s1 := s.onGroup group fun g => (g.writeResults o (s.nowOf g)).endLong (s.nowOf g) op
        .next (match o.acquire with
          | some sc => s1.acquire (s1.coreOf g) sc
          | none => s1)

/-- ASYNC_FAULT (03 R54): no destination is written, the marks and the count go, and the trap is presented. -/
def execAsyncFault (group op : Nat) (s : State) : Host.Outcome State Fault Refusal :=
  match Tab.find s.groups group with
  | none => .next s
  | some g => match Tab.find g.longs op with
    | none => .next s
    | some o => match o.fault with
      | none => .next s
      | some t => .next ((s.onGroup group fun g => g.endLong (s.nowOf g) op).presentTrap group t (some op))

end Sys2Proof.Machine
end

