-- ==== Sys2Proof/Machine/Engine.lean ====
section
/-! DEFINITION. What the engines share: their queues and tokens (11 R234-R237), the accesses a command makes over the T path (11 R247, R248), and a
block's operand slots and accumulators (12 R251, R252). A command is performed in one event or in several, each of some of its rows (log entry 7). -/

namespace Sys2Proof.Machine

/-! Queues and tokens. -/

def Core.queueOf (k : Core) : Engine → List EngCmd
  | .copy => k.copyQ
  | .tile => k.tileQ
  | .chart => k.chartQ
  | .bank => k.bankQ
  | .link => k.linkQ

def Core.setQueue (k : Core) (e : Engine) (q : List EngCmd) : Core :=
  match e with
  | .copy => { k with copyQ := q }
  | .tile => { k with tileQ := q }
  | .chart => { k with chartQ := q }
  | .bank => { k with bankQ := q }
  | .link => { k with linkQ := q }

/-- The commands a queue holds are as many as it can (11 R237, 12 R254, 13 R274, 15 R314); the spec sets bank commands no bound. -/
def queueFull (e : Engine) (n : Nat) : Bool :=
  match e with
  | .link => decide (8 ≤ n)
  | .bank => false
  | _ => decide (16 ≤ n)

/-- A token field and the parameter block s[P..P+n-1] of an ENG word. P must be even, from 2 on, with the block inside s1-s31 (11 R239). -/
def engSig (priv : Bool) (t p : BitVec 5) (n : Nat) : Sig :=
  { priv := priv, opnd := p.toNat % 2 == 0 && decide (2 ≤ p.toNat) && decide (p.toNat + n ≤ 32), uses := [useS t.toNat 1, useS p.toNat n] }

/-- The registers of a parameter block. -/
def Ctx.params (c : Ctx) (p : BitVec 5) (n : Nat) : List Word := (List.range n).map fun i => c.rdS (p.toNat + i)

/-- A command enters its engine's queue; it waits while the queue is full (11 R237). -/
def State.enqueue (s : State) (c : Ctx) (e : Engine) (cmd : Cmd) (params : List Word) (t : BitVec 5) (scope : Nat) (aq rl : Bool) : Res :=
  let core := s.coreOf c.g
  let q := (s.core core).queueOf e
  if queueFull e q.length then .stall
  else
    let x : EngCmd :=
      { id := s.nextId, cmd := cmd, params := params, token := t.toNat, group := c.u.group, slices := c.u.slices, epoch := c.g.epochOf c.u.slices,
        block := c.g.block, scope := scope, aq := aq, rl := rl, done := 0, flag := false, waits := none, sent := false, answer := none }
    .ok ({ s with nextId := s.nextId + 1 }.onCore core fun k => k.setQueue e (q ++ [x]))

/-- An ENG word (11 R239). -/
def Ops.engWord (priv : Bool) (e : Engine) (cmd : Cmd) (n : Nat) (t p : BitVec 5) (sc : BitVec 2) (aq rl : BitVec 1) :
    State → Host.Outcome State Fault Refusal :=
  Ops.word (engSig priv t p n) fun c s => s.enqueue c e cmd (c.params p n) t sc.toNat (aq = 1) (rl = 1)

/-- A fault status (Table CPY-1). -/
def faultStatus (cause : BitVec 8) : Word := 0x80000000#32 ||| cause.setWidth 32

/-- How performing a command leaves it. -/
inductive EngEnd where
  /-- It has ended. -/
  | status (st : Word)
  /-- It has this status, and the release it makes first cannot be performed yet. -/
  | unreleased (st : Word)
  /-- Its next access waits at a pseudo-channel (14 Table BNK-2). -/
  | waits
  /-- It goes on later. -/
  | more
  deriving DecidableEq, Repr

/-- What performing a command comes to: the state, the rows done by now and their flag, and how it stands. -/
structure EngOut where
  s    : State
  done : Nat
  flag : Bool
  ends : EngEnd
  deriving DecidableEq, Repr

def EngOut.stand (s : State) (e : EngEnd) : EngOut := { s := s, done := 0, flag := false, ends := e }
def EngOut.ok (s : State) : EngOut := EngOut.stand s (.status 1)
def EngOut.fault (s : State) (cause : BitVec 8) : EngOut := EngOut.stand s (.status (faultStatus cause))

/-- It does nothing in this event: it waits at a pseudo-channel, or for something else. -/
def EngCmd.waiting (x : EngCmd) (s : State) : EngOut := { s := s, done := x.done, flag := x.flag, ends := .waits }
def EngCmd.later (x : EngCmd) (s : State) : EngOut := { s := s, done := x.done, flag := x.flag, ends := .more }

/-- A register of the parameter block, and the 64-bit value of a pair. -/
def EngCmd.par (x : EngCmd) (i : Nat) : Word := x.params.getD i 0
def EngCmd.ptr (x : EngCmd) (i : Nat) : DWord := pairOf (x.par i) (x.par (i + 1))

/-- The agent of a command's accesses: its issuing group's (11 R247). -/
def State.agentFor (s : State) (x : EngCmd) : Agent :=
  match Tab.find s.groups x.group with
  | some g => s.agentOf x.group g
  | none => { group := x.group, core := 0, gctx := 0xFF, launch := 0, ctx := 0, priv := false, block := x.block, scratch := 0, base := 0, size := 0, members := [] }

/-- What AQ does before a command's first read (07 R160, R161): the group's stores are performed, an L1 copy is given up. -/
def State.beginAq (s : State) (core scope : Nat) (aq : Bool) : State := if aq then (s.drainFree core).acquire core scope else s

/-- The command reads memory that a group can write. -/
def Cmd.reads : Cmd → Bool
  | .copy kind => kind != 5
  | .tld _ _ => true
  | .chld _ _ => true
  | .bkload _ _ => true
  | .bkmac _ _ => true
  | .coll _ => true
  | .lput => true
  | .lget => true
  | _ => false

/-- The first read of an acquiring command waits behind a store or an atomic of its group that waits at a pseudo-channel held back (07 R160). -/
def State.aqWaits (s : State) (core : Nat) (x : EngCmd) : Bool :=
  x.aq && x.cmd.reads && x.done == 0 &&
    (s.atomsBefore x.group x.id || (s.core core).stores.any fun p => p.group == x.group && decide (p.id < x.id) && p.cells.any fun c => s.heldAt c.1)

/-- What RL does after its last write: the release covers the group's earlier stores where AQ made them happen before; none while one waits.
Reading the token acquires, which L1 follows by giving up its copies. -/
def State.endRl (s : State) (core scope : Nat) (aq rl : Bool) : Option State :=
  if !rl then some s
  else (if aq && decide (0 < scope) then s.drain core else some s).map fun s => s.acquire core scope

/-- The status reaches every marked copy of the token (11 R234). -/
def State.writeToken (s : State) (group epoch token : Nat) (slices : SliceSet) (status : Word) : State :=
  if token = 0 then s else s.onGroup group fun g => g.writeLate epoch slices token status

/-! Accesses over the T path (11 R247, R248). -/

/-- Row r of a pointer side: base plus r strides, as `lea.x1` forms it (05 R101). -/
def rowPtr (base : DWord) (stride : Word) (r : Nat) : DWord := ptrAdd base (r * stride.toInt)

/-- The n elements of a row, `unit` bytes each, from a pointer on: the locations of each up to the first that fails, with its memory type, and its fault. -/
def State.rowAccess (s : State) (a : Agent) (spaces : List Nat) (k : Access) (unit : Nat) (p : DWord) : Nat → Nat → List Target × Option PtrFault
  | _, 0 => ([], none)
  | i, n + 1 => match s.checkPtr a spaces (ptrAdd p (i * unit)) unit k with
    | .error f => ([], some f)
    | .ok t =>
      let rest := s.rowAccess a spaces k unit p (i + 1) n
      (t :: rest.1, rest.2)

/-- What reading or writing a row comes to. -/
inductive RowOut (α : Type) where
  | ok (x : α)
  | fault (f : PtrFault) (x : α)
  | waits
  deriving Repr

/-- The walks an engine's row starts, and its requests for lines, as the slice logs see them (17 R354); it makes no replica (07 R140). -/
def State.logRow (s : State) (a : Agent) (spaces : List Nat) (k : Access) (p : DWord) (unit n : Nat) (read : List Nat) : State :=
  let s1 := s.walks a spaces unit k ((List.range n).map fun (i : Nat) => ptrAdd p (i * unit))
  if s.logRegs = [] then s1
  else each (linesOf (read.filter fun l => Ops.lined l || l / 2 ^ 64 == 4)) (fun l s => s.logRequest 0 a.asker l) s1

/-- Reads the bytes of a row. Bit 3 of the choice lets a read be served by L2 (Table BNK-2). A row that would fault does so at once, whatever its other
elements wait for (log entry 72). -/
def State.readRow (s : State) (a : Agent) (choice : Nat) (spaces : List Nat) (unit n : Nat) (p : DWord) : RowOut (State × List Byte) :=
  let r := s.rowAccess a spaces .read unit p 0 n
  match r.2 with
  | some f => .fault f (s.logRow a spaces .read p unit n [], [])
  | none =>
    let locs := r.1.flatMap fun t => (List.range unit).map fun i => t.locs.headD 0 + i
    if locs.any (s.homeWaits a.core choice) then .waits else .ok (s.logRow a spaces .read p unit n locs, locs.map (s.homeByte a.core s.nextId))

/-- Writes the bytes of a row; a row that faults is written up to an element of the choice's, and of one that ends with BUSY nothing (log entry 8), once none
of the elements before the faulting one waits (log entry 72). -/
def State.writeRow (s : State) (a : Agent) (choice : Nat) (spaces : List Nat) (unit : Nat) (p : DWord) (bytes : List Byte) : RowOut State :=
  let n := bytes.length / unit
  let r := s.rowAccess a spaces .write unit p 0 n
  let cells (els : List Target) : List (Nat × Byte) :=
    els.zipIdx.flatMap fun e => e.1.locs.flatMap fun base => (List.range unit).map fun i => (base + i, bytes.getD (e.2 * unit + i) 0)
  let put (els : List Target) : State := (s.logRow a spaces .write p unit n []).homeWrite 1 a.asker (throughLines els) (cells els)
  if (cells r.1).any fun c => s.heldAt c.1 then .waits
  else match r.2 with
    | some f => .fault f (put (r.1.take (choice / 16 % (r.1.length + 1))))
    | none => .ok (put r.1)

/-- A command that goes row by row, from where it stands: it stops at a row that faults or waits, and where this event has done the rows it may.
`flag` gathers what its status reports. -/
structure RowRun where
  s    : State
  done : Nat
  flag : Bool
  /-- The rows this event may still do, none for all. -/
  left : Option Nat
  stop : Option EngEnd

/-- The rows an event does: all, or as many as the choice says. -/
def rowsNow (choice : Nat) : Option Nat := if choice / 2 ^ 40 % 2 ^ 16 = 0 then none else some (choice / 2 ^ 40 % 2 ^ 16)

def RowRun.start (s : State) (x : EngCmd) (choice : Nat) : RowRun := { s := s, done := x.done, flag := x.flag, left := rowsNow choice, stop := none }
def RowRun.go (x : RowRun) (f : Nat → State → RowOut (State × Bool)) : RowRun :=
  if x.stop.isSome then x
  else if x.left = some 0 then { x with stop := some .more }
  else match f x.done x.s with
    | .ok r => { s := r.1, done := x.done + 1, flag := x.flag || r.2, left := x.left.map (· - 1), stop := none }
    | .fault e r => { x with s := r.1, stop := some (.status (faultStatus e.cause)) }
    | .waits => { x with stop := some .waits }
/-- Its rows from where it stands up to n. -/
def RowRun.rows (x : RowRun) (n : Nat) (f : Nat → State → RowOut (State × Bool)) : RowRun := (List.range (n - x.done)).foldl (fun run _ => run.go f) x
/-- Its end: the status, and what is still done after the last row. -/
def RowRun.finish (x : RowRun) (last : State → State) : EngOut :=
  match x.stop with
  | some e => { s := x.s, done := x.done, flag := x.flag, ends := e }
  | none => { s := last x.s, done := x.done, flag := x.flag, ends := .status (if x.flag then 2 else 1) }

/-! Slots and accumulators. -/

/-- The command that issued as `id` sees this binding under the name (12 R265). -/
def Binding.seenBy (x : Binding) (acc : Bool) (name id : Nat) : Bool := x.acc == acc && x.name == name && x.freed.all fun f => decide (id < f)

/-- The binding a command sees under a name of its block. -/
def State.unit (s : State) (block : Nat) (acc : Bool) (name id : Nat) : Option Binding :=
  ((Tab.find s.blocks block).map (·.bindings)).bind fun l => l.find? fun x => x.seenBy acc name id

/-- Changes the first element that satisfies p. -/
def changeFirst {α : Type} (p : α → Bool) (f : α → α) : List α → List α
  | [] => []
  | x :: t => if p x then f x :: t else x :: changeFirst p f t

def State.onUnitOf (s : State) (block : Nat) (acc : Bool) (name id : Nat) (f : Binding → Binding) : State :=
  s.onBlock block fun b => { b with bindings := changeFirst (fun x => x.seenBy acc name id) f b.bindings }

/-- Bytes of a slot or accumulator. -/
def Binding.rd (x : Binding) (at' n : Nat) : Nat := bytesToNat ((List.range n).map fun i => Tab.get 0 x.bytes (at' + i))
def Binding.wr (x : Binding) (at' : Nat) (bytes : List Byte) : Binding :=
  { x with bytes := each bytes.zipIdx (fun b t => Tab.set 0 t (at' + b.2) b.1) x.bytes }

/-- Physical slots or accumulators of a core that no resident block's binding holds. -/
def State.unitsFree (s : State) (core : Nat) (acc : Bool) : Nat :=
  let used := (s.blocks.filter fun e => e.2.core == core && !e.2.ended && !e.2.away).map fun e => (e.2.bindings.filter fun x => x.acc == acc).length
  (if acc then 8 else 64) - used.foldl (· + ·) 0

end Sys2Proof.Machine
end

