-- ==== Sys2Proof/Machine/Copy.lean ====
section
/-! DEFINITION. The copy engine and the storage formats (11 R239-R249). -/

namespace Sys2Proof.Machine

/-! Formats (Table CPY-4). -/

/-- k of a BFP-k storage code. -/
def fmtStore (code : Nat) : Option Nat := if 0x12 ≤ code ∧ code ≤ 0x18 then some (code - 0x10) else none
/-- k of a BFP-k canonical code. -/
def fmtCanon (code : Nat) : Option Nat := if 0x32 ≤ code ∧ code ≤ 0x38 then some (code - 0x30) else none
def fmtKnown (code : Nat) : Bool := decide (code ≤ 5) || (fmtStore code).isSome || (fmtCanon code).isSome
/-- A slot may hold it. -/
def fmtSlot (code : Nat) : Bool := (decide (1 ≤ code) && decide (code ≤ 5)) || (fmtCanon code).isSome
def fmtBfp (code : Nat) : Bool := (fmtStore code).isSome || (fmtCanon code).isSome

/-- Bytes of an element, which every access of a row takes; 1 for BFP and RAW. -/
def fmtUnit (code : Nat) : Nat :=
  match code with
  | 1 => 8
  | 2 => 4
  | 3 => 2
  | 4 => 2
  | _ => 1

/-- Bytes of a row of c elements. -/
def fmtRow (code c : Nat) : Nat :=
  match fmtStore code with
  | some k => c / 32 * (1 + 4 * k)
  | none => match fmtCanon code with
    | some _ => c + c / 32
    | none => c * fmtUnit code

/-- Table CPY-5. -/
def fmtPair (sf df : Nat) : Bool :=
  fmtKnown sf && fmtKnown df &&
    (sf == df || (fmtBfp sf && (df == 2 || (fmtBfp df && sf % 16 == df % 16))) || ((sf == 3 || sf == 4) && df == 2))

/-! Conversion of a row (11 R243-R245). -/

/-- A BFP row as its blocks: exponent byte and 32 mantissas. -/
def bfpParse (code c : Nat) (row : List Byte) : List (Byte × List Int) :=
  (List.range (c / 32)).map fun b =>
    match fmtStore code with
    | some k =>
      let o := b * (1 + 4 * k)
      let f := bytesToNat ((row.drop (o + 1)).take (4 * k))
      (row.getD o 0, (List.range 32).map fun i => sextN (f / 2 ^ (k * i)) k)
    | none => (row.getD (c + b) 0, (List.range 32).map fun i => sextN (row.getD (32 * b + i) 0).toNat 8)

/-- A BFP row from its blocks; packing keeps the low k bits of each mantissa. -/
def bfpBuild (code : Nat) (blocks : List (Byte × List Int)) : List Byte :=
  match fmtStore code with
  | some k => blocks.flatMap fun b =>
      b.1 :: natToBytes (4 * k) ((b.2.zipIdx.map fun m => (m.1 % 2 ^ k).toNat * 2 ^ (k * m.2)).foldl (· + ·) 0)
  | none => (blocks.flatMap fun b => b.2.map fun m => BitVec.ofInt 8 m) ++ blocks.map (·.1)

/-- Element m of a block with exponent byte e in binary32 (11 R243). -/
def bfpElement (k : Nat) (e m : Int) : Word :=
  if e = 255 then BitVec.ofNat 32 Fmt.f32.canon
  else if m = 0 then 0
  else
    let r := Fmt.f32.round .rne (decide (m < 0)) m.natAbs (e - 127 - ((k : Int) - 1)) false
    if bitsAt r.bits 23 8 = 255 then Config.bfpBeyond m e.toNat k else BitVec.ofNat 32 r.bits

/-- The converted row, and whether a NaN block was met. -/
def convertRow (sf df c : Nat) (row : List Byte) : List Byte × Bool :=
  if sf = df then (row, false)
  else if fmtBfp sf then
    let blocks := bfpParse sf c row
    if df = 2 then (blocks.flatMap fun b => b.2.flatMap fun m => natToBytes 4 (bfpElement (sf % 16) (b.1.toNat : Int) m).toNat, blocks.any fun b => b.1 == 0xFF)
    else (bfpBuild df blocks, false)
  else
    let f := if sf = 3 then Fmt.f16 else Fmt.bf16
    ((List.range c).flatMap fun i => natToBytes 4 (f.convert Fmt.f32 .rne (bytesToNat ((row.drop (2 * i)).take 2))).bits, false)

/-- Row r of a tile in a slot (11 R246). -/
def Binding.putTileRow (code c r : Nat) (row : List Byte) (x : Binding) : Binding :=
  if fmtBfp code then (x.wr (r * c) (row.take c)).wr (3968 + r * c / 32) (row.drop c) else x.wr (r * c * fmtUnit code) row

/-! The command. -/

def memSpaces : List Nat := [0, 1, 2, 8, 10]
/-- Spaces of the two sides (Table CPY-3). -/
def copySrc (kind : Nat) : List Nat := if kind = 1 ∨ kind = 3 then [4, 5] else memSpaces
def copyDst (kind : Nat) : List Nat := if kind = 0 then [4, 5, 6] else if kind = 5 then [0, 1, 2, 8, 10, 4, 5, 6] else memSpaces
def copyToSlot (kind : Nat) : Bool := kind == 2 || kind == 3

/-- The fields of Table CPY-2. -/
structure CopyPar where
  src  : DWord
  dst  : DWord
  rows : Nat
  cols : Nat
  sstr : Word
  dstr : Word
  zero : Nat
  df   : Nat
  sf   : Nat

def EngCmd.copyPar (x : EngCmd) : CopyPar :=
  { src := x.ptr 0, dst := x.ptr 2, rows := bitsAt (x.par 4).toNat 16 16, cols := bitsAt (x.par 4).toNat 0 16, sstr := x.par 5, dstr := x.par 6,
    zero := bitsAt (x.par 7).toNat 16 16, df := bitsAt (x.par 7).toNat 8 8, sf := bitsAt (x.par 7).toNat 0 8 }

/-- R248 step 1 passes. -/
def CopyPar.ok (b : CopyPar) (kind : Nat) : Bool :=
  (if kind = 5 then b.sf == b.df && decide (b.sf ≤ 5) else fmtPair b.sf b.df)
  && b.zero == 0 && b.rows != 0 && b.cols != 0
  && (!(fmtBfp b.sf || fmtBfp b.df) || b.cols % 32 == 0)
  && (!copyToSlot kind || (bitsAt b.dst.toNat 6 58 == 0 && fmtSlot b.df
      && (if fmtBfp b.df then decide (b.rows * b.cols ≤ 3968) else decide (b.rows * b.cols * fmtUnit b.df ≤ 4096))))

/-- One row, from its source to its destination (11 R247). -/
def copyRow (x : EngCmd) (kind : Nat) (b : CopyPar) (a : Agent) (choice r : Nat) (s : State) : RowOut (State × Bool) :=
  let src : RowOut (State × List Byte) :=
    if kind = 5 then .ok (s, (List.range b.cols).flatMap fun _ => natToBytes (fmtUnit b.sf) b.src.toNat)
    else s.readRow a choice (copySrc kind) (fmtUnit b.sf) (fmtRow b.sf b.cols / fmtUnit b.sf) (rowPtr b.src b.sstr r)
  match src with
  | .fault f _ => .fault f (s, false)
  | .waits => .waits
  | .ok (s1, row) =>
    let out := convertRow b.sf b.df b.cols row
    if copyToSlot kind then .ok (s1.onUnitOf x.block false b.dst.toNat x.id (Binding.putTileRow b.df b.cols r out.1), out.2)
    else match s1.writeRow a choice (copyDst kind) (fmtUnit b.df) (rowPtr b.dst b.dstr r) out.1 with
      | .ok t => .ok (t, out.2)
      | .fault f t => .fault f (t, false)
      | .waits => .waits

/-- A copy command (11 R247, R248), from the row where it stands. -/
def State.runCopy (s : State) (x : EngCmd) (kind choice : Nat) : EngOut :=
  let b := x.copyPar
  let o := b.dst.toNat
  if !b.ok kind then .fault s 0x05
  else if copyToSlot kind && (s.unit x.block false o x.id).isNone then .fault s 0x14
  else
    let tag (code rows cols : Nat) (s : State) : State :=
      if copyToSlot kind then s.onUnitOf x.block false o x.id fun u => { u with code := code, rows := rows, cols := cols } else s
    ((RowRun.start (tag 0 0 0 s) x choice).rows b.rows (copyRow x kind b (s.agentFor x) choice)).finish (tag b.df b.rows b.cols)

/-- The slot a queued copy writes. -/
def EngCmd.copySlot (x : EngCmd) : Option Nat :=
  match x.cmd with
  | .copy kind => if copyToSlot kind then some (x.copyPar.dst.toNat % 64) else none
  | _ => none

def execCopyG2s (t p : BitVec 5) (sc : BitVec 2) (q r : BitVec 1) (s : State) : Host.Outcome State Fault Refusal := Ops.engWord false .copy (.copy 0) 8 t p sc q r s
def execCopyS2g (t p : BitVec 5) (sc : BitVec 2) (q r : BitVec 1) (s : State) : Host.Outcome State Fault Refusal := Ops.engWord false .copy (.copy 1) 8 t p sc q r s
def execCopyG2o (t p : BitVec 5) (sc : BitVec 2) (q r : BitVec 1) (s : State) : Host.Outcome State Fault Refusal := Ops.engWord false .copy (.copy 2) 8 t p sc q r s
def execCopyS2o (t p : BitVec 5) (sc : BitVec 2) (q r : BitVec 1) (s : State) : Host.Outcome State Fault Refusal := Ops.engWord false .copy (.copy 3) 8 t p sc q r s
def execCopyG2g (t p : BitVec 5) (sc : BitVec 2) (q r : BitVec 1) (s : State) : Host.Outcome State Fault Refusal := Ops.engWord false .copy (.copy 4) 8 t p sc q r s
def execCopyFill (t p : BitVec 5) (sc : BitVec 2) (q r : BitVec 1) (s : State) : Host.Outcome State Fault Refusal := Ops.engWord false .copy (.copy 5) 8 t p sc q r s

end Sys2Proof.Machine
end

