-- ==== Sys2Proof/Machine/Control.lean ====
section
/-! DEFINITION. Clauses and splits (03 R42-R54, 04 R72), the control words of major 0x01 to 0x03 (04 R76-R87), and the steps of
joins, sleeping splits, run-ahead fetch and the clock. -/

namespace Sys2Proof.Machine

/-! Splits. -/

/-- The group may begin clauses: it has not ended, is not spilled, and nothing stops it. -/
def State.groupRuns (s : State) (g : Group) : Bool :=
  !g.killed && !g.ended && !g.spilled && g.trap.isNone && !s.blockStops g.block

/-- Slice i may issue: in a handler only H does (16 R327). -/
def Group.sliceMay (g : Group) (i : Nat) : Bool :=
  match g.handler with
  | some h => h.h.getLsbD i
  | none => true

/-- Slice i stands at a clause boundary with work to do and does not wait (04 R72). -/
def Group.atBoundary (g : Group) (i : Nat) : Bool :=
  let x := g.slice i
  decide (i < g.slices.length) && g.sliceMay i && x.gang == 0 && x.seq.wait == .none && decide (x.seq.m ≠ 0)

/-- The split that stands at slice i's PC (04 R72). -/
def Group.splitAt (g : Group) (i : Nat) : SliceSet :=
  bitSet 32 fun j => g.atBoundary j && decide ((g.slice j).seq.pc = (g.slice i).seq.pc)

/-- The slices that go on in a begun clause. -/
def Group.gangSlices (g : Group) (n : Nat) : SliceSet :=
  bitSet 32 fun j => decide (j < g.slices.length) && (g.slice j).gang == n && (g.slice j).seq.wait == .none && decide ((g.slice j).seq.m ≠ 0)

/-! Fetch. -/

inductive Fetch where
  | words (w : List Word)
  | waits
  | fault (f : PtrFault)
  deriving DecidableEq, Repr

/-- The clause address of a code address. -/
def clauseOf (pc : Pc) : Pc := pc &&& ~~~15
/-- The slot a code address begins at: a clause address and slot 1 begin at 1 (03 R42). -/
def slotOf (pc : Pc) : Nat := max 1 (pc.toNat % 16 / 4)

/-- Four words from their bytes. -/
def wordsAt (byte : Nat → Byte) : List Word :=
  (List.range 4).map fun i => BitVec.ofNat 32 (bytesToNat ((List.range 4).map fun j => byte (4 * i + j)))

/-- The clause the slices of a split fetched ahead (04 R90). -/
def Group.ahead (g : Group) (slices : SliceSet) (clause : Pc) : Option Ahead :=
  g.fetched.find? fun e => slices.getLsbD e.slice && decide (e.clause = clause)

/-- The clause a split is about to issue: one fetched ahead, else read through the instruction cache (bit 2 of the choice takes a copy it
holds); a read that waits at the home slice of a pseudo-channel held back, or a fault of translation (08 R176). -/
def State.fetchClause (s : State) (gid : Nat) (g : Group) (slices : SliceSet) (choice : Nat) (clause : Pc) : Fetch :=
  match g.ahead slices clause with
  | some e => .words e.words
  | none =>
    let a := s.agentOf gid g
    if s.entryHeld a (clause.setWidth 64) then .waits
    else match s.translate a.core a.ctx 0 clause.toNat .fetch a.priv with
    | .error f => .fault f
    | .ok x =>
      match if choice.testBit 2 then Tab.find (s.core a.core).ic (x.pa / 128) else none with
      | some line => .words (wordsAt fun i => line.getD (x.pa % 128 + i) 0)
      | none => if (List.range 16).any fun i => s.homeWaits a.core choice (x.pa + i) then .waits
                else .words (wordsAt fun i => s.homeByte a.core s.nextId (x.pa + i))

/-- A fetch that reaches past the instruction cache is a request of L2, and may leave the line there (bit 2 of the choice). -/
def State.fillCode (s : State) (gid : Nat) (g : Group) (choice : Nat) (clause : Pc) : State :=
  let a := s.agentOf gid g
  match s.translate a.core a.ctx 0 clause.toNat .fetch a.priv with
  | .error _ => s
  | .ok x =>
    if choice.testBit 2 && (Tab.find (s.core a.core).ic (x.pa / 128)).isSome then s
    else
      let s1 := s.logRequest 0 a.asker x.pa
      if choice.testBit 2 && !s.heldAt x.pa then
        s1.onCore a.core fun c =>
          { c with ic := fillLine Ops.codeLines choice (x.pa / 128) ((List.range 128).map fun i => s.homeByte a.core s.nextId (x.pa / 128 * 128 + i)) c.ic }
      else s1

/-- The walk of a clause that is fetched. -/
def State.walkCode (s : State) (gid : Nat) (g : Group) (clause : Pc) : State := (s.agentOf gid g |> s.walks) [0] 16 .fetch [clause.setWidth 64]

/-- The trap of a clause: no slot has executed (03 R46, 08 R176). -/
def clauseTrap (g : Group) (slices : SliceSet) (clause : Pc) (cause : BitVec 8) (word : Word) (faddr : DWord) (f : Option PtrFault) : Trap :=
  { stage := 1, cause := cause, pc := clause, word := word, faddr := faddr, level := (f.map (·.level)).getD 0,
    kind := (f.map (·.kind)).getD 0, async := false, lanes := g.execOf slices, slices := slices, born := 0 }

/-- A split begins a clause (03 R42-R46): it is checked whole; the slices are ganged at the first valid slot from where they stand, or go on at the
next clause where there is none. -/
def State.beginClause (s : State) (gid : Nat) (g : Group) (slices : SliceSet) (choice : Nat) : State :=
  let pc := (g.slice (lowest 0 slices)).seq.pc
  let clause := clauseOf pc
  match s.fetchClause gid g slices choice clause with
  | .waits => s
  | .fault f => (s.walkCode gid g clause).presentTrap gid (clauseTrap g slices clause f.cause 0 (clause.setWidth 64) (some f)) none
  | .words w =>
    if !clauseOk s.stepB0 w then s.presentTrap gid (clauseTrap g slices clause 0x03 (w.getD 0 0) 0 none) none
    else match (headSlots (decodeHead (w.getD 0 0))).filter fun i => decide (slotOf pc ≤ i) with
      | [] => s.onGroup gid fun g => g.onSlices slices fun _ x => { x with seq := { x.seq with pc := clause + 16 } }
      | i :: _ =>
        let id := s.nextId
        let s1 : State := { s with nextId := id + 1 }
        let s2 := if (g.ahead slices clause).isSome then s1 else (s1.walkCode gid g clause).fillCode gid g choice clause
        s2.onGroup gid fun g =>
          Group.onSlices { g with gangs := Tab.put g.gangs id { clause := clause, words := w, fresh := true },
                                  fetched := g.fetched.filter fun e => !(slices.getLsbD e.slice && decide (e.clause = clause)) } slices
            fun _ x => { x with gang := id, seq := { x.seq with pc := clause + BitVec.ofNat 57 (4 * i) } }

/-- CLAUSE_DECODE (03 R46): a whole split that stands at a clause boundary begins its clause. -/
def execClauseDecode (group : Nat) (slices : BitVec 32) (s : State) : Host.Outcome State Fault Refusal :=
  match Tab.find s.groups group with
  | none => .next s
  | some g =>
    if s.groupRuns g && decide (slices ≠ 0) && decide (slices = g.splitAt (lowest 0 slices))
    then .next (s.beginClause group g slices s.pick)
    else .next s

/-! Run-ahead fetch (04 R90). -/

/-- The split a slice belongs to: those that go on with it in its clause, or stand at its PC. -/
def Group.splitOf (g : Group) (i : Nat) : SliceSet := if (g.slice i).gang = 0 then g.splitAt i else g.gangSlices (g.slice i).gang

/-- The pointers of a load word of a clause fetched ahead, as the registers of a split stand. -/
def aheadPtrs (g : Group) (slices : SliceSet) (w : Word) : List DWord :=
  let n := w.toNat
  let low := lowest 0 slices
  let lanes := members (g.execOf slices)
  let rd (r l : Nat) : Word := if r < 96 then g.readV r l else g.readS low (r - 96)
  let ptr (a : Nat) (l : Nat) (off : Int) : DWord := ptrAdd (pairOf (rd a l) (rd (a + 1) l)) off
  if Word.major w = 0x20 then lanes.map fun l => ptr (bitsAt n 8 7) l (sextN (bitsAt n 0 8) 8 * codeSize (Word.sz w))
  else if Word.major w = 0x21 then lanes.map fun l => ptr (bitsAt n 7 7) l ((rd (bitsAt n 0 7) l).toInt * codeSize (Word.min w))
  else []

/-- The kinds of transfer the fetch unit predicts. -/
inductive Transfer where
  /-- A `br` that is always taken, and one that the counters predict. -/
  | br
  | brIf
  | call
  | ret
  | jmpi
  | calli
  /-- `exit` and `tret`, after which no path is predicted. -/
  | ends
  deriving DecidableEq, Repr

def Word.transfer (w : Word) : Option Transfer :=
  match Word.major w with
  | 0x01 => if bitsAt w.toNat 21 4 = 0 then some .br else some .brIf
  | 0x02 => some .call
  | 0x03 => match Word.min w with
    | 0 => some .ret
    | 1 => some .jmpi
    | 2 => some .calli
    | 4 => some .ends
    | _ => none
  | 0x3D => if Word.min w = 1 then some .ends else none
  | _ => none

/-- The last valid slot of a clause, in which a transfer stands (03 R46). -/
def lastSlot (words : List Word) : Nat := (headSlots (decodeHead (words.getD 0 0))).getLastD 0

/-- A core's counter for the branch of a clause: bits [14:4] of its address (04 R90). -/
def counterOf (clause : Pc) : Nat := clause.toNat / 16 % 2048

/-- An address pushed on the return stack of 8. -/
def pushReturn (pc : Pc) (stack : List Pc) : List Pc := (pc :: stack).take 8

/-- Where the fetch unit predicts a split to go on that issues a clause from the slot of `pc` on, and the return stack then; none where it predicts nothing:
after `exit` and `tret`, with an empty stack, and for a `jmpi` or `calli` that has had no target yet. A branch is predicted taken from a count of 2 on (log
entry 78). -/
def Group.predict (g : Group) (k : Core) (stack : List Pc) (pc : Pc) (words : List Word) : Option (Pc × List Pc) :=
  let clause := clauseOf pc
  let fall := clause + 16
  let i := lastSlot words
  let w := words.getD i 0
  let last := Tab.find g.targets (clause.toNat + 4 * i)
  if i < slotOf pc then some (fall, stack)
  else match Word.transfer w with
    | none => some (fall, stack)
    | some .br => some (Word.target clause w, stack)
    | some .brIf => some (if 2 ≤ (Tab.get 0 k.predict (counterOf clause)).toNat then Word.target clause w else fall, stack)
    | some .call => some (Word.target clause w, pushReturn fall stack)
    | some .ret => match stack with
      | [] => none
      | p :: rest => some (p, rest)
    | some .jmpi => last.map fun p => (p, stack)
    | some .calli => last.map fun p => (p, pushReturn fall stack)
    | some .ends => none

/-- The predicted path of a split, as far as its clauses have been fetched ahead: their addresses, and where the next one to fetch is. -/
def Group.path (g : Group) (k : Core) (slices : SliceSet) : Nat → List Pc → Pc → List Pc × Option Pc
  | 0, _, _ => ([], none)
  | n + 1, stack, pc => match g.ahead slices (clauseOf pc) with
    | none => ([], some pc)
    | some e => match g.predict k stack pc e.words with
      | none => ([e.clause], none)
      | some (next, st) =>
        let rest := g.path k slices n st next
        (e.clause :: rest.1, rest.2)

/-- The predicted path of the split of a slice, from the clause it goes on to: it stands there, or is predicted to from the clause it issues. -/
def Group.pathOf (g : Group) (k : Core) (i : Nat) : List Pc × Option Pc :=
  let x := g.slice i
  let from' : Option (Pc × List Pc) := if x.gang = 0 then some (x.seq.pc, g.retStack) else match Tab.find g.gangs x.gang with
    | some c => g.predict k g.retStack x.seq.pc c.words
    | none => none
  match from' with
  | some (pc, stack) => g.path k (g.splitOf i) 5 stack pc
  | none => ([], none)

/-- RUNAHEAD_FETCH (04 R90): the next clause on a split's predicted path is fetched, up to four ahead of it; a fault is dropped. The lines its loads address
may be prefetched. The choice names the split. -/
def execRunaheadFetch (group : Nat) (pc : BitVec 57) (s : State) : Host.Outcome State Fault Refusal :=
  match Tab.find s.groups group with
  | none => .next s
  | some g =>
    let i := s.pick / 2 ^ 16 % (max 1 g.slices.length)
    let slices := g.splitOf i
    let next := (g.pathOf (s.core (s.coreOf g)) i).2
    if g.ended || g.killed || slices == 0 || next.map clauseOf != some (clauseOf pc)
      || decide (4 ≤ (g.fetched.filter fun e => slices.getLsbD e.slice).length) then .next s
    else match s.fetchClause group g slices s.pick (clauseOf pc) with
      | .words w =>
        let s1 := ((s.walkCode group g (clauseOf pc)).fillCode group g s.pick (clauseOf pc)).onGroup group fun g =>
          { g with fetched := g.fetched ++ [{ slice := lowest 0 slices, clause := clauseOf pc, words := w }] }
        let a := s1.agentOf group g
        let loads := (headSlots (decodeHead (w.getD 0 0))).flatMap fun i => aheadPtrs g slices (w.getD i 0)
        .next (each (loads.filter fun p => ptrPol p ≠ 1 && ptrPol p ≠ 3) (fun p s => s.prefetch a s.pick [0, 1] true p) s1)
      | _ => .next s

/-! What a transfer leaves in the predictors (04 R90). -/

/-- The address a slice of the split has gone on to, if any. -/
def Group.wentTo (g : Group) (slices : SliceSet) : List Pc := ((members slices).filter fun i => decide ((g.slice i).seq.m ≠ 0)).map fun i => (g.slice i).seq.pc

/-- The group's stack and targets after a transfer of a clause. -/
def Group.noteTransfer (slices : SliceSet) (clause : Pc) (words : List Word) (g : Group) : Group :=
  let fall := clause + 16
  let targets := match g.wentTo slices with
    | p :: _ => Tab.put g.targets (clause.toNat + 4 * lastSlot words) p
    | [] => g.targets
  match Word.transfer (words.getD (lastSlot words) 0) with
  | some .call => { g with retStack := pushReturn fall g.retStack }
  | some .ret => { g with retStack := g.retStack.drop 1 }
  | some .jmpi => { g with targets := targets }
  | some .calli => { g with targets := targets, retStack := pushReturn fall g.retStack }
  | _ => g

/-- The core's counters after a branch of a clause, counted as taken where a slice has gone to its target. -/
def Core.noteBranch (g : Group) (slices : SliceSet) (clause : Pc) (words : List Word) (k : Core) : Core :=
  let w := words.getD (lastSlot words) 0
  let n := Tab.get 0 k.predict (counterOf clause)
  let put (x : BitVec 2) : Core := { k with predict := Tab.set 0 k.predict (counterOf clause) x }
  if Word.transfer w = some .brIf then
    if (g.wentTo slices).contains (Word.target clause w) then put (if n = 3 then 3 else n + 1) else put (if n = 0 then 0 else n - 1)
  else k

/-- The slices of a split that a transfer has sent elsewhere than predicted. -/
def Group.mispredicted (g : Group) (k : Core) (slices : SliceSet) (clause : Pc) (words : List Word) : SliceSet :=
  if (Word.transfer (words.getD (lastSlot words) 0)).isNone then 0
  else match g.predict k g.retStack (clause + BitVec.ofNat 57 (4 * lastSlot words)) words with
    | none => 0
    | some (p, _) => bitSet 32 fun i => slices.getLsbD i && decide ((g.slice i).seq.m ≠ 0) && decide (clauseOf (g.slice i).seq.pc ≠ clauseOf p)

/-- The clauses fetched ahead that stay: none of a split wrongly predicted, and of another those on its path. -/
def Group.dropStrays (k : Core) (slices wrong : SliceSet) (g : Group) : Group :=
  { g with fetched := g.fetched.filter fun e =>
      !slices.getLsbD e.slice || (!wrong.getLsbD e.slice && (g.pathOf k e.slice).1.contains e.clause) }

/-! Control words. -/

/-- The clause of the issuing word. -/
def Ctx.clause (c : Ctx) : Pc := clauseOf c.u.pc

/-- Every slice of the split goes on at a code address, at a clause boundary. -/
def State.jumpTo (s : State) (u : Issue) (pc : Pc) : State :=
  s.onGroup u.group fun g => g.onSlices u.slices fun _ x => { x with gang := 0, seq := { x.seq with pc := pc } }

/-- R76 for one slice whose active lanes before the chain were `a`. -/
def Slice.branch (a take : BitVec 4) (anyTake : Bool) (target fall : Pc) (x : Slice) : Slice :=
  let t := a &&& take
  let goes (pc : Pc) : Slice := { x with gang := 0, seq := { x.seq with pc := pc } }
  if a = 0 then goes (if anyTake then target else fall)
  else if t = a then goes target
  else if t = 0 then goes fall
  else { x with gang := 0, seq := { x.seq with parked := (fall, a &&& ~~~t) :: x.seq.parked, m := x.seq.m &&& ~~~(a &&& ~~~t), a := t, pc := target } }

/-- `br` (04 R76). -/
def execBr (n : BitVec 1) (k : BitVec 3) (d : BitVec 21) (s : State) : Host.Outcome State Fault Refusal :=
  Ops.word noSig (fun c s =>
    let take : LaneSet := if n = 1 then ~~~(c.g.readM c.exec k.toNat) else c.g.readM c.exec k.toNat
    let target := c.clause + (d.signExtend 57) * 16
    let fall := c.clause + 16
    let anyTake := decide (c.exec &&& take ≠ 0)
    let act (i : Nat) : BitVec 4 := (c.g.slice i).seq.a
    let full := (members c.u.slices).any fun i =>
      let t := act i &&& laneNib take i
      decide (t ≠ 0) && decide (t ≠ act i) && decide (3 ≤ (c.g.slice i).seq.parked.length)
    if full then .trap (c.trap 7 0x0C)
    else .jump (s.onGroup c.u.group fun g => g.onSlices c.u.slices fun i x => x.branch (act i) (laneNib take i) anyTake target fall)) s

/-- Writes the link address to s30:s31 of the split (04 R78). -/
def State.link (s : State) (c : Ctx) : State :=
  s.onGroup c.u.group fun g =>
    (g.writeS c.u.slices 30 ((c.clause + 16).setWidth 32)).writeS c.u.slices 31 (((c.clause + 16) >>> 32).setWidth 32)

/-- `call` (04 R78). -/
def execCall (d : BitVec 21) (s : State) : Host.Outcome State Fault Refusal :=
  Ops.word { noSig with uses := [useS 30 2] } (fun c s => .jump ((s.link c).jumpTo c.u (c.clause + (d.signExtend 57) * 16))) s

/-- The checks of a code target, and the transfer (04 R77). -/
def Ctx.transfer (c : Ctx) (t : DWord) (go : Pc → State) : Res :=
  if bitsAt t.toNat 57 7 ≠ 0 then .trap { c.trap 7 0x08 with faddr := t }
  else if t.toNat % 4 ≠ 0 then .trap { c.trap 7 0x07 with faddr := t }
  else .jump (go (t.setWidth 57))

/-- `ret` (04 R79). -/
def execRet (s : State) : Host.Outcome State Fault Refusal :=
  Ops.word { noSig with uses := [useS 30 2] } (fun c s => c.transfer (pairOf (c.rdS 30) (c.rdS 31)) (s.jumpTo c.u)) s

/-- `jmpi` (04 R79). -/
def execJmpi (p : BitVec 7) (s : State) : Host.Outcome State Fault Refusal :=
  Ops.word { noSig with opnd := isS p && isEven p, uses := [useN p 2] } (fun c s => c.transfer (c.rd64 p 0) (s.jumpTo c.u)) s

/-- `calli` reads its target before it writes the link (04 R79). -/
def execCalli (p : BitVec 7) (s : State) : Host.Outcome State Fault Refusal :=
  Ops.word { noSig with opnd := isS p && isEven p, uses := [useN p 2, useS 30 2] }
    (fun c s => c.transfer (c.rd64 p 0) fun t => (s.link c).jumpTo c.u t) s

/-- One slice arrives at a join: its members are suspended and it takes its next work (04 R80). -/
def Slice.arrive (j : Pc) (x : Slice) : Slice :=
  let susp := each (members x.seq.m) (fun l t => Tab.put t l (j, x.seq.a.getLsbD l)) x.seq.susp
  Slice.takeWork { x with gang := 0, seq := { x.seq with m := 0, a := 0, susp := susp } }

/-- `join` (04 R80, R81): the first arrival at the address starts the instance's timer. -/
def execJoin (k : BitVec 3) (n : BitVec 14) (s : State) : Host.Outcome State Fault Refusal :=
  Ops.word noSig (fun c s =>
    .jump (s.onGroup c.u.group fun g =>
      let joins := if (Tab.find g.joins c.u.pc.toNat).isSome then g.joins
        else Tab.put g.joins c.u.pc.toNat { k := k.toNat, n := n.toNat, start := g.time (s.nowOf g) }
      Group.onSlices { g with joins := joins } c.u.slices fun _ x => x.arrive c.u.pc)) s

/-- One slice of a split that exits: its active lanes `a` are exited; dormant lanes go on at the next clause (04 R85). -/
def Slice.leave (now : Nat) (a : BitVec 4) (next : Pc) (x : Slice) : Slice :=
  let m := x.seq.m &&& ~~~a
  let y := { x with gang := 0, exited := x.exited ||| a, exitAt := now, exitNow := a, seq := { x.seq with m := m, a := m, pc := next } }
  if m = 0 then y.takeWork else y

/-- `exit` (04 R85); a lane that still holds a section is announced to be poisoned (09 R203). -/
def execExit (s : State) : Host.Outcome State Fault Refusal :=
  Ops.word noSig (fun c s =>
    let s1 := s.onGroup c.u.group fun g => g.onSlices c.u.slices fun i x => x.leave (s.nowOf g) (c.g.slice i).seq.a (c.clause + 16)
    .jump ((s1.announce c.u.group (members c.exec)).settleEnd c.g.block)) s

/-- Lets the scheduler pass over the split for some issue cycles of its core (03 R45, 04 R86). -/
def State.passOver (s : State) (u : Issue) (cycles : Nat) : State :=
  s.onGroup u.group fun g => g.onSlices u.slices fun _ x => { x with passTo := max x.passTo ((s.core (s.coreOf g)).issues + cycles) }

/-- `yield` (04 R86). -/
def execYield (n : BitVec 5) (s : State) : Host.Outcome State Fault Refusal :=
  Ops.word noSig (fun c s => .ok (s.passOver c.u (n.toNat + 1))) s

/-- The split waits (04 R72). -/
def State.waitFor (s : State) (u : Issue) (w : Wait) : State :=
  s.onGroup u.group fun g => g.onSlices u.slices fun _ x => { x with seq := { x.seq with wait := w } }

/-- `sleep` (04 R87); with n = 0 as `yield 0`. -/
def execSleep (n : BitVec 14) (s : State) : Host.Outcome State Fault Refusal :=
  Ops.word noSig (fun c s => .ok (if n = 0 then s.passOver c.u 1 else s.waitFor c.u (.sleep (s.nowOf c.g + 16 * n.toNat)))) s

/-- SLEEP_END (04 R87): the slices that sleep until the same cycle as the named one wake once it has come. -/
def execSleepEnd (group slice : Nat) (s : State) : Host.Outcome State Fault Refusal :=
  match Tab.find s.groups group with
  | none => .next s
  | some g => match (g.slice slice).seq.wait with
    | .sleep til =>
      if s.nowOf g < til then .next s
      else .next (s.onGroup group fun g => g.onSlices g.allSlices fun _ x =>
        if x.seq.wait = .sleep til then { x with seq := { x.seq with wait := .none } } else x)
    | _ => .next s

/-! Completion of joins (04 R81-R83). -/

/-- A lane counts as exited, in the test of a cycle, from the cycle after its `exit` (04 R81). -/
def Group.gone (g : Group) (view l : Nat) : Bool :=
  let x := g.slice (l / 4)
  x.exited.getLsbD (l % 4) && !(decide (view ≤ x.exitAt) && x.exitNow.getLsbD (l % 4))

/-- The join at which a lane is suspended. -/
def Group.suspAt (g : Group) (l : Nat) : Option (Pc × Bool) := Tab.find (g.slice (l / 4)).seq.susp (l % 4)

def Group.lanes (g : Group) : List Nat := List.range (4 * g.slices.length)

/-- Every non-exited lane is suspended at j, and some lane is. -/
def Group.fullAt (g : Group) (view : Nat) (j : Pc) : Bool :=
  (g.lanes.all fun l => g.gone view l || (g.suspAt l).any fun q => q.1 = j) && g.lanes.any fun l => (g.suspAt l).any fun q => q.1 = j

/-- Every non-exited lane is suspended at some join, at two or more addresses, of which j is the lowest. -/
def Group.staleAt (g : Group) (view : Nat) (j : Pc) : Bool :=
  let spots := g.lanes.filterMap fun l => (g.suspAt l).map (·.1)
  (g.lanes.all fun l => g.gone view l || (g.suspAt l).isSome) && spots.contains j && spots.any (· ≠ j) && spots.all fun p => decide (j.toNat ≤ p.toNat)

/-- What an instance that completes in cycle `view` leaves (04 R82): the mask, the released entries, which issue from the next cycle on, JOINST. -/
def Group.completeJoin (view : Nat) (timeout stale : Bool) (j : Pc) (g : Group) : Group :=
  let here (l : Nat) : Bool := (g.suspAt l).any fun q => q.1 = j
  let act : LaneSet := bitSet 128 fun l => decide (l / 4 < g.slices.length) && (g.suspAt l).any fun q => q.1 = j && q.2
  let k := ((Tab.find g.joins j.toNat).map (·.k)).getD 0
  let missing := (g.lanes.filter fun l => !g.gone view l && !here l).length
  let g1 : Group := { g with m := if k = 0 then g.m else Tab.set 0 g.m k act, joins := Tab.erase g.joins j.toNat,
                             joinst := BitVec.ofNat 32 (timeout.toNat * 2 ^ 31 + stale.toNat * 2 ^ 30 + missing) }
  g1.onSlices g.allSlices fun i x =>
    let lanes : BitVec 4 := bitSet 4 fun b => here (4 * i + b)
    if lanes = 0 then x
    else
      let a := laneNib act i
      let susp := x.seq.susp.filter fun e => e.2.1 ≠ j
      if x.seq.m = 0 then { x with gang := 0, after := max x.after (view + 1), seq := { x.seq with pc := j + 4, m := lanes, a := a, susp := susp, wait := .none } }
      else { x with seq := { x.seq with susp := susp, releases := x.seq.releases ++ [(j + 4, lanes, a)] } }

/-- The instance's timer has run out without full arrival (04 R81). -/
def Group.timedOut (g : Group) (view : Nat) (j : Pc) : Bool :=
  match Tab.find g.joins j.toNat with
  | some t => decide (0 < t.n) && decide (t.start + 16 * t.n ≤ g.time view) && !g.fullAt view j && g.lanes.any fun l => (g.suspAt l).any fun q => q.1 = j
  | none => false

/-- The joins at which lanes of the group are suspended. -/
def Group.spots (g : Group) : List Pc := ((g.slices.flatMap fun x => x.seq.susp.map fun e => e.2.1)).eraseDups

/-- The instances whose timers have run out by a cycle. -/
def Group.lateJoins (g : Group) (view : Nat) : List Pc := g.spots.filter (g.timedOut view)

/-- JOIN_COMPLETE (04 R81): full arrival, or stalemate at the lowest address, in the cycle the core is in, once what has timed out in the cycle before has
completed. -/
def execJoinComplete (group : Nat) (j : BitVec 57) (s : State) : Host.Outcome State Fault Refusal :=
  match Tab.find s.groups group with
  | none => .next s
  | some g =>
    let view := s.nowOf g
    if g.lateJoins (view - 1) ≠ [] then .next s
    else if g.fullAt view j then .next (s.onGroup group (Group.completeJoin view false false j))
    else if g.staleAt view j then .next (s.onGroup group (Group.completeJoin view false true j))
    else .next s

/-- JOIN_TIMEOUT (04 R81): tested on the cycle just over, whose arrivals have all been made. An instance whose timer runs out in the cycle of a
stalemate at its address has by then completed by that stalemate (log entry 66). -/
def execJoinTimeout (group : Nat) (j : BitVec 57) (s : State) : Host.Outcome State Fault Refusal :=
  match Tab.find s.groups group with
  | none => .next s
  | some g =>
    let view := s.nowOf g - 1
    if g.timedOut view j then .next (s.onGroup group (Group.completeJoin view true false j)) else .next s

/-- CLOCK_STEP (01 R11): the governor moves a core's clock by 20 MHz, within 940 and 1,080; its cycles so far stand. -/
def execClockStep (core : Nat) (up : Bool) (s : State) : Host.Outcome State Fault Refusal :=
  .next (s.onCore core fun c =>
    { c with ticks := c.ticks + (s.awake - c.since) * c.clock, since := s.awake,
             clock := if up then min 1080 (c.clock + 20) else max 940 (c.clock - 20) })

end Sys2Proof.Machine
end

