-- ==== Sys2Proof/Machine/Sync.lean ====
section
/-! DEFINITION. Block, cluster and grid barriers (10 R219-R223). -/

namespace Sys2Proof.Machine

/-- A barrier word whose OPD must be an s register. -/
def handleSig (o : BitVec 7) : Sig := { priv := false, opnd := isS o, uses := [use o] }

def Ctx.block (c : Ctx) (s : State) : Option Block := s.blockOf c.g
def Ctx.barStale (c : Ctx) : Res := .trap (c.trap 7 0x0D)

/-- The barrier a handle names, none where it is stale, malformed, or barrier 0 in a spawned group (10 R219-R221). -/
def Ctx.barrier (c : Ctx) (s : State) (o : BitVec 7) : Option (Nat × Barrier) :=
  let h := (c.rd o 0).toNat
  let i := h % 16
  let x := Tab.get Barrier.free (((c.block s).map (·.barriers)).getD []) i
  if bitsAt h 16 16 ≠ 0 || bitsAt h 4 4 ≠ 0 || !x.alloc || x.gen ≠ bitsAt h 8 8 || (i == 0 && c.g.spawned) then none else some (i, x)

/-- The arrival of the group, once a phase, with its release at block scope; none while that cannot be performed. -/
def State.arrive (s : State) (c : Ctx) (i : Nat) (x : Barrier) : Option State :=
  if x.arrived.contains c.u.group then some s
  else (s.release c.u.group (s.coreOf c.g) 0).map fun s =>
    (s.onBlock c.g.block fun k =>
      { k with barriers := Tab.put k.barriers i { x with arrived := x.arrived ++ [c.u.group], last := Tab.put x.last c.u.group x.phase } }).settleBarrier
        c.g.block i

/-- The wait of the group for its latest arrival. -/
def State.awaitBarrier (s : State) (c : Ctx) (i : Nat) : State :=
  let x := Tab.get Barrier.free (((c.block s).map (·.barriers)).getD []) i
  match Tab.find x.last c.u.group with
  | some p => if p < x.phase then s else s.waitFor c.u (.barrier i p)
  | none => s

def Ops.barWord (arrives waits : Bool) (o : BitVec 7) : State → Host.Outcome State Fault Refusal :=
  Ops.word (handleSig o) fun c s =>
    match c.barrier s o with
    | none => c.barStale
    | some (i, x) => match if arrives then s.arrive c i x else some s with
      | none => .stall
      | some s1 => .ok (if waits then s1.awaitBarrier c i else s1)

def execBarArrive (o : BitVec 7) (s : State) : Host.Outcome State Fault Refusal := Ops.barWord true false o s
def execBarWait (o : BitVec 7) (s : State) : Host.Outcome State Fault Refusal := Ops.barWord false true o s
def execBarSync (o : BitVec 7) (s : State) : Host.Outcome State Fault Refusal := Ops.barWord true true o s

/-- `bar.alloc`: the lowest free index, or 0x8000_0000. -/
def execBarAlloc (d : BitVec 7) (n : BitVec 6) (s : State) : Host.Outcome State Fault Refusal :=
  Ops.word { priv := false, opnd := isS d && decide (d ≠ 96) && decide (1 ≤ n.toNat) && decide (n.toNat ≤ 32), uses := [use d] } (fun c s =>
    let bars := ((c.block s).map (·.barriers)).getD []
    match (List.range 16).find? fun i => decide (i ≠ 0) && !(Tab.get Barrier.free bars i).alloc with
    | none => .ok (s.putRegs c d.toNat fun _ => [0x80000000])
    | some j =>
      let x := Tab.get Barrier.free bars j
      .ok ((s.onBlock c.g.block fun k =>
        { k with barriers := Tab.put k.barriers j { x with alloc := true, count := n.toNat, phase := 0, arrived := [], last := [] } }).putRegs c d.toNat
          fun _ => [BitVec.ofNat 32 (x.gen * 2 ^ 8 + j)])) s

/-- `bar.free`: not of barrier 0, nor in a phase with an arrival. -/
def execBarFree (o : BitVec 7) (s : State) : Host.Outcome State Fault Refusal :=
  Ops.word (handleSig o) (fun c s =>
    match c.barrier s o with
    | none => c.barStale
    | some (i, x) =>
      if i = 0 ∨ x.arrived ≠ [] then c.barStale
      else .ok (s.onBlock c.g.block fun k =>
        { k with barriers := Tab.put k.barriers i { x with alloc := false, gen := (x.gen + 1) % 256 } })) s

/-! Cluster and grid barriers. -/

/-- The arrival of the group at a wide barrier and what it leaves. -/
def WideBarrier.arrive (x : WideBarrier) (gid : Nat) : WideBarrier :=
  if x.arrived.contains gid then x else { x with arrived := x.arrived ++ [gid], last := Tab.put x.last gid x.phase }

def Ctx.clusterBar (c : Ctx) (s : State) (n : Nat) : WideBarrier :=
  Tab.get WideBarrier.empty ((((c.block s).bind fun b => Tab.find s.clusters b.cluster).map (·.barriers)).getD []) n

/-- Cluster-scope words (10 R222): an arrival releases, a completion acquires, at cluster scope. -/
def Ops.cbarWord (arrives waits : Bool) (n : BitVec 2) : State → Host.Outcome State Fault Refusal :=
  Ops.word noSig fun c s =>
    let i := n.toNat
    let cl := ((c.block s).map (·.cluster)).getD 0
    if c.g.spawned then c.barStale
    else
      let counts := arrives && !(c.clusterBar s i).arrived.contains c.u.group
      match if counts then s.release c.u.group (s.coreOf c.g) 1 else some s with
      | none => .stall
      | some s1 =>
        let s2 := if counts then
            (s1.onCluster cl fun k => { k with barriers := Tab.put k.barriers i ((c.clusterBar s i).arrive c.u.group) }).settleCluster cl i
          else s1
        let x := c.clusterBar s2 i
        .ok (if waits then match Tab.find x.last c.u.group with
            | some p => if p < x.phase then s2.acquire (s2.coreOf c.g) 1 else s2.waitFor c.u (.cluster i p)
            | none => s2.acquire (s2.coreOf c.g) 1
          else s2)

def execCbarArrive (n : BitVec 2) (s : State) : Host.Outcome State Fault Refusal := Ops.cbarWord true false n s
def execCbarWait (n : BitVec 2) (s : State) : Host.Outcome State Fault Refusal := Ops.cbarWord false true n s
def execCbarSync (n : BitVec 2) (s : State) : Host.Outcome State Fault Refusal := Ops.cbarWord true true n s

/-- `gbar.sync` (10 R223): at device scope, in a cooperative launch. -/
def execGbarSync (s : State) : Host.Outcome State Fault Refusal :=
  Ops.word noSig (fun c s =>
    match (c.block s).bind fun b => (Tab.find s.launches b.launch).map fun l => (b.launch, l) with
    | none => c.barStale
    | some (ln, l) =>
      if c.g.spawned || !l.card.flags.getLsbD 2 then c.barStale
      else
        let counts := !l.grid.arrived.contains c.u.group
        match if counts then s.release c.u.group (s.coreOf c.g) 2 else some s with
        | none => .stall
        | some s1 =>
          let s2 := if counts then (s1.onLaunch ln fun l => { l with grid := l.grid.arrive c.u.group }).settleGrid ln else s1
          let x := ((Tab.find s2.launches ln).map (·.grid)).getD WideBarrier.empty
          .ok (match Tab.find x.last c.u.group with
            | some p => if p < x.phase then s2.acquire (s2.coreOf c.g) 2 else s2.waitFor c.u (.grid p)
            | none => s2)) s

end Sys2Proof.Machine
end

