-- ==== Sys2Proof/Machine/Traps.lean ====
section
/-! DEFINITION. Traps and their handlers (16 R326-R333), kills, and the observation words and stops of R351 and R352 (spec/17). -/

namespace Sys2Proof.Machine

/-- `trap` (16 R333). -/
def execTrap (n : BitVec 14) (s : State) : Host.Outcome State Fault Refusal :=
  Ops.word noSig (fun c _ => .trap { c.trap 7 0x17 with faddr := n.setWidth 64 }) s

/-- `tret` (16 R331): from a split that holds every slice of H. -/
def execTret (s : State) : Host.Outcome State Fault Refusal :=
  Ops.word noSig (fun c s =>
    match c.g.handler with
    | none => .trap (c.trap 7 0x05)
    | some h => if h.h &&& ~~~c.u.slices ≠ 0 then .trap (c.trap 7 0x05) else .jump (((s.onGroup c.u.group (Group.leaveHandler h)).setTimer c.u.group).settleEnd c.g.block)) s

/-- TRAP_ENTRY (16 R327). -/
def execTrapEntry (group : Nat) (s : State) : Host.Outcome State Fault Refusal := .next (s.tryEnter group)

/-- A word that is not an instruction raises ILLOP (03 R59). -/
def execWordNotAnInstruction (_w : BitVec 32) (s : State) : Host.Outcome State Fault Refusal :=
  Ops.word noSig (fun c _ => .trap (c.trap 3 0x01)) s

/-! Kills (16 R332). -/

/-- KILL_RECORD_WRITE: the launch's oldest kill goes to the region of the host queue it came through (Table TRP-2); it waits while the region lies in a
pseudo-channel held back (10 R372). -/
def execKillRecordWrite (launch : Nat) (s : State) : Host.Outcome State Fault Refusal :=
  match Tab.find s.launches launch with
  | none => .next s
  | some l => match l.kills with
    | [] => .next s
    | k :: rest =>
      let base := (s.queue l.host).base
      if s.heldAt base then .next s
      else
        let n := s.readNat (base + 64) 4
        let s1 := (s.onLaunch launch fun l => { l with kills := rest }).writeNat (base + 64) 4 (min (n + 1) (2 ^ 32 - 1))
        if n ≠ 0 then .next s1
        else
          let bytes := natToBytes 4 k.tcause.toNat ++ natToBytes 4 k.tword.toNat ++ natToBytes 4 k.inner ++ natToBytes 8 k.pc.toNat
            ++ natToBytes 8 k.faddr.toNat ++ natToBytes 4 k.blockx ++ natToBytes 2 k.blocky ++ natToBytes 2 k.blockz ++ natToBytes 4 k.gid
            ++ natToBytes 4 0 ++ natToBytes 8 k.index ++ natToBytes 8 0
          .next (s1.writeBytes (bytes.zipIdx.map fun b => (base + 68 + b.2, b.1)))

/-- The next value the spec leaves unstated (log entry 23). -/
def State.anyWord (s : State) : Word × State := (Config.freeWord s.free, { s with free := s.free + 1 })

/-- Kills every group of a launch that has not ended; blocks not yet placed, or flushed (16 R337), are placed no more. -/
def State.killLaunch (s : State) (launch : Nat) (reports : Bool) : State :=
  let inLaunch (g : Group) : Bool := (s.blockOf g).any fun b => b.launch = launch
  let gs := s.groups.filter fun e => inLaunch e.2 && !e.2.ended && !e.2.finished
  let kill (e : Nat × Group) (s : State) : State :=
    let a := s.anyWord
    let b := a.2.anyWord
    let p := b.2.anyWord
    let f := p.2.anyWord
    let s1 := if reports then f.2.reportKill e.2 (a.1, b.1, 0, p.1.setWidth 57, f.1.setWidth 64) else s
    s1.killGroup e.1
  let s1 := each gs kill s
  let gone (e : Nat × Block) : Bool := e.2.launch == launch && e.2.away && (s1.groupsOf e.1).isEmpty
  State.onLaunch { s1 with blocks := s1.blocks.map fun e => if gone e then (e.1, { e.2 with ended := true, away := false }) else e } launch fun l => { l with nextBlock := l.card.gridx * l.card.gridy * l.card.gridz }

/-- MGMT_LAUNCH_KILL (16 R332): the record's cause and addresses are free values, as the spec gives a management kill none. -/
def execMgmtLaunchKill (launch : Nat) (s : State) : Host.Outcome State Fault Refusal := .next (s.killLaunch launch true)

/-! Observation words (17 R352). -/

def execProgress (n : BitVec 4) (s : State) : Host.Outcome State Fault Refusal :=
  Ops.word noSig (fun c s =>
    let key := s.ctxOf c.g * 16 + n.toNat
    .ok (if c.exec = 0 then s else { s with progress := Tab.set 0 s.progress key (Tab.get 0 s.progress key + 1) })) s

/-- The timers of a block's groups run or stand as they must now (04 R84). -/
def State.setTimers (s : State) (b : Nat) : State := each ((s.groupsOf b).map (·.1)) (fun g s => s.setTimer g) s

/-- The groups of a block stop: their waits end as a trap ends them. -/
def State.stopBlock (s : State) (b : Nat) : State := (each ((s.groupsOf b).map (·.1)) (fun g s => s.stopWaits g) s).setTimers b

/-- The lower of two halts by (GROUPID, slice), an older one's record not yet written. -/
def State.lowerHalt (s : State) (x y : Halt) : Halt :=
  let key (h : Halt) : Nat := ((Tab.find s.groups h.group).map (·.gid)).getD 0 * 32 + lowest 0 h.slices
  if key y < key x then y else x

/-- `stop` and a halting `brkpt`: the block stops, and the issuing split stands at the next word. -/
def State.haltBlock (s : State) (c : Ctx) (kind n : Nat) : Res :=
  let h : Halt := { group := c.u.group, slices := c.u.slices, kind := kind, n := n, pc := c.u.pc, index := none }
  let merge (b : Block) : Block := { b with halt := match b.halt with
    | some x => some (s.lowerHalt x h)
    | none => some h }
  .jump (((s.onBlock c.g.block merge).stopBlock c.g.block).jumpTo c.u c.u.next)

def execStop (s : State) : Host.Outcome State Fault Refusal :=
  Ops.word noSig (fun c s => if (s.context (s.ctxOf c.g)).dbgctl.getLsbD 0 then s.haltBlock c 1 0 else .ok s) s

def execBrkpt (n : BitVec 8) (s : State) : Host.Outcome State Fault Refusal :=
  Ops.word noSig (fun c s =>
    match (s.context (s.ctxOf c.g)).dbgctl.toNat / 2 with
    | 1 => .trap { c.trap 7 0x1C with faddr := n.setWidth 64 }
    | 2 => s.haltBlock c 2 n.toNat
    | _ => .ok s) s

/-- PHASE of a group (Table WRK-10). -/
def State.phaseWord (s : State) (g : Group) : Word :=
  let b := s.blockOf g
  let bar := ((b.map fun b => (Tab.get Barrier.free b.barriers 0).phase)).getD 0
  let clu := ((b.bind fun b => Tab.find s.clusters b.cluster).map fun k => (Tab.get WideBarrier.empty k.barriers 0).phase).getD 0
  let grid := ((s.launchOf g).map (·.grid.phase)).getD 0
  BitVec.ofNat 32 (grid % 256 * 2 ^ 24 + clu % 256 * 2 ^ 16 + bar % 2 ^ 16)

/-- The bytes of a debug record (Table MGT-6). -/
def State.debugRecord (s : State) (bn : Nat) (b : Block) (h : Halt) : List Byte :=
  let g := Tab.find s.groups h.group
  let gid := (g.map (·.gid)).getD 0
  let l := Tab.find s.launches b.launch
  let memberBit (n : Nat) : Nat := match Tab.find s.groups n with
    | some x => if x.spawned || x.block ≠ bn then 0 else 2 ^ x.gid
    | none => 0
  let bars := (List.range 16).flatMap fun i => natToBytes 4 (((Tab.get Barrier.free b.barriers i).arrived.map memberBit).foldl (· + ·) 0)
  let clu := ((Tab.find s.clusters b.cluster).map (·.barriers)).getD []
  let mates := ((Tab.find s.clusters b.cluster).map (·.blocks)).getD []
  let cbars := (List.range 4).flatMap fun i =>
    natToBytes 2 (bitsUpTo (fun k => match mates[k]? with
      | some m => s.blockArrived (Tab.get WideBarrier.empty clu i).arrived m
      | none => false) 12)
  let grid := (l.map fun l => l.coop.isSome && s.blockArrived l.grid.arrived bn).getD false
  [BitVec.ofNat 8 h.kind, BitVec.ofNat 8 h.n] ++ natToBytes 2 b.core ++ natToBytes 4 b.x ++ natToBytes 2 b.y ++ natToBytes 2 b.z
    ++ natToBytes 4 ((g.map fun g => (s.phaseWord g).toNat).getD 0) ++ natToBytes 8 h.pc.toNat ++ [BitVec.ofNat 8 gid, BitVec.ofNat 8 ((l.map (·.queue)).getD 0)]
    ++ natToBytes 6 0 ++ bars ++ cbars ++ natToBytes 4 (grid.toNat * 2 ^ 31) ++ natToBytes 20 0

/-- Every group of the block has stopped. -/
def State.blockStopped (s : State) (b : Nat) : Bool := (s.groupsOf b).all fun e => e.2.hasStopped 0

/-- The base of the debug records of a block's context, the write index there, and where the next record goes. -/
def State.debugBase (s : State) (b : Block) : Nat := (s.context (((Tab.find s.launches b.launch).map (·.ctx)).getD 0)).dbgBase
def State.debugIndex (s : State) (b : Block) : Nat := s.readNat (s.debugBase b) 8
def State.debugSlot (s : State) (b : Block) : Nat := s.debugBase b + 128 + 128 * (s.debugIndex b % 511)

/-- The record of a halted block may be written: it is still owed, the block has stopped, and no place it is written to waits. -/
def State.recordMay (s : State) (block : Nat) (b : Block) (h : Halt) : Bool :=
  h.index.isNone && s.blockStopped block && !s.heldAt (s.debugBase b) && !s.heldAt (s.debugSlot b) && !s.heldAt (s.debugSlot b + 127)

/-- DEBUG_RECORD_WRITE (17 R351, R352): the record, then the write index; a record that would overwrite one not freed is dropped and halts nothing. What
a split of the block has begun to wait for since the halt ends as a stop ends it (09 R204). -/
def execDebugRecordWrite (block : Nat) (s : State) : Host.Outcome State Fault Refusal :=
  match Tab.find s.blocks block with
  | none => .next s
  | some b => match b.halt with
    | none => .next s
    | some h =>
      let base := s.debugBase b
      let w := s.debugIndex b
      let slot := s.debugSlot b
      if !s.recordMay block b h then .next s
      else
        if s.readNat (base + 8) 8 + 511 < w + 1 then
          let s1 := s.writeNat (base + 16) 4 (min (s.readNat (base + 16) 4 + 1) (2 ^ 32 - 1))
          .next ((s1.onBlock block fun b => { b with halt := none }).setTimers block)
        else
          let s1 := (s.writeBytes ((s.debugRecord block b h).zipIdx.map fun x => (slot + x.2, x.1))).stopBlock block
          .next ((s1.writeNat base 8 (w + 1)).onBlock block fun b => { b with halt := some { h with index := some w } })

/-- RESUME (17 R352): the value is stored, and resumes the halted block whose record it names. -/
def State.writeResume (s : State) (ctx : Nat) (v : Word) : State :=
  let s1 := s.onContext ctx fun c => { c with resume := v }
  let named (b : Block) : Bool :=
    (((Tab.find s.launches b.launch).map (·.ctx)) == some ctx) && (b.halt.bind (·.index)).any fun i => BitVec.ofNat 32 i == v
  match s1.blocks.find? fun e => named e.2 with
  | none => s1
  | some e => (s1.onBlock e.1 fun b => { b with halt := none }).setTimers e.1

/-- RESUME_WRITE. -/
def execResumeWrite (ctx : BitVec 6) (v : BitVec 32) (s : State) : Host.Outcome State Fault Refusal := .next (s.writeResume ctx.toNat v)

/-! Soundings (17 R353). -/

def Sounding.fresh : Sounding := { on := false, p := 0, counts := [], tags := [], buckets := [] }

/-- The launch that is sounding. -/
def State.soundsOn (s : State) : Option Nat := (s.soundings.find? fun e => e.2.on).map (·.1)

/-- `sndg.on`. -/
def execSndgOn (o : BitVec 7) (s : State) : Host.Outcome State Fault Refusal :=
  Ops.word { priv := true, opnd := isS o, uses := [use o] } (fun c s =>
    let ln := ((s.blockOf c.g).map (·.launch)).getD 0
    let p := (c.rd o 0).toNat
    if 16 ≤ p then .trap (c.trap 7 0x05)
    else if s.soundsOn.any (· ≠ ln) then .ok (s.putRegs c o.toNat fun _ => [0])
    else .ok ((State.putRegs { s with soundings := Tab.put s.soundings ln { Tab.get Sounding.fresh s.soundings ln with on := true, p := p } } c o.toNat)
      fun _ => [1])) s

/-- The samples still held count in bucket 31. -/
def Sounding.stop (x : Sounding) : Sounding :=
  let held := (x.tags.map fun e => e.2.length).foldl (· + ·) 0
  { x with on := false, tags := [], buckets := Tab.set 0 x.buckets 31 (min (Tab.get 0 x.buckets 31 + held) (2 ^ 32 - 1)) }

/-- The buckets as 32 words. -/
def Sounding.bytes (x : Sounding) : List Byte := (List.range 32).flatMap fun i => natToBytes 4 (Tab.get 0 x.buckets i)

/-- The launch whose buckets a group reads: its own where it has sounded, else the one that is sounding (log entry 70). -/
def State.soundingOf (s : State) (g : Group) : Option Nat :=
  match (s.blockOf g).map (·.launch) with
  | some ln => if (Tab.find s.soundings ln).isSome then some ln else s.soundsOn
  | none => s.soundsOn

/-- `sndg.off`: every tag register is cleared, and the soundings under way stop. -/
def execSndgOff (s : State) : Host.Outcome State Fault Refusal :=
  Ops.word { noSig with priv := true } (fun _ s => .ok { s with soundings := Tab.each s.soundings fun _ x => if x.on then x.stop else x }) s

/-- `sndg.rd`: the buckets to memory, then cleared; the pointer is checked as a 128-byte store. -/
def execSndgRd (o : BitVec 7) (s : State) : Host.Outcome State Fault Refusal :=
  Ops.word { priv := true, opnd := isS o && isEven o, uses := [useN o 2] } (fun c s =>
    let a := s.agentOf c.u.group c.g
    let p := c.rd64 o 0
    if s.entryHeld a p then .stall
    else match s.checkPtr a allSpaces p 128 .write with
    | .error f => .trapWalked (s.walks a allSpaces 128 .write [p]) { c.trap 7 f.cause with faddr := p, level := f.level, kind := f.kind }
    | .ok t =>
      let whose := s.soundingOf c.g
      let bytes := ((whose.bind (Tab.find s.soundings)).map (·.bytes)).getD (natToBytes 128 0)
      let cells := t.locs.flatMap fun base => bytes.zipIdx.map fun b => (base + b.2, b.1)
      let s1 := (s.walks a allSpaces 128 .write [p]).lsStore a (c.storeOf a false 128 [((none, t), p)] cells) (dropLines [((none, t), p)])
      .ok (match whose with
        | some ln => { s1 with soundings := Tab.change s1.soundings ln fun x => { x with buckets := [] } }
        | none => s1)) s

end Sys2Proof.Machine
end

