-- ==== Sys2Proof/Machine/Work.lean ====
section
/-! DEFINITION. Work created from inside (10 R224-R230), the special registers (10 R231, R232), what a core has to give (01 R18, R19), and the end of
groups and blocks (10 R215, R216). -/

namespace Sys2Proof.Machine

/-! What a core has to give. -/

/-- The groups that hold resources of a core. -/
def State.groupsOn (s : State) (core : Nat) : List (Nat × Group) :=
  s.groups.filter fun e => !e.2.ended && (s.blockOf e.2).any fun b => b.core == core && !b.away

/-- The free contexts of a core, in increasing number; context 31 of a pod's first core is the service group's (log entry 12). -/
def State.contextsFree (s : State) (core : Nat) : List Nat :=
  let used := (s.groupsOn core).map fun e => e.2.context
  (List.range (if Ops.hostsService core then 31 else 32)).filter fun n => !used.contains n

/-- Lane-registers a group holds: its base block and its extended one. -/
def Group.regs (g : Group) : Nat := 48 * g.width * (if g.held then 2 else 1)

/-- Lane-registers of a core that blocks may take (01 R18, R19). -/
def Ops.regPool (core : Nat) : Nat := if Ops.hostsService core then 128000 else 131072
def State.regsFree (s : State) (core : Nat) : Nat := Ops.regPool core - ((s.groupsOn core).map fun e => e.2.regs).foldl (· + ·) 0

/-- A block's scratchpad range (07 R136). -/
def LaunchRec.range (r : LaunchRec) : Nat := (r.scratch + 15) / 16 * 16
def Ops.scratchPool (core : Nat) : Nat := if Ops.hostsService core then 327680 else 360448

/-- The blocks resident on a core. -/
def State.blocksOn (s : State) (core : Nat) : List (Nat × Block) := s.blocks.filter fun e => e.2.core == core && !e.2.ended && !e.2.away
def State.scratchFree (s : State) (core : Nat) : Nat :=
  Ops.scratchPool core - ((s.blocksOn core).map fun e => ((Tab.find s.launches e.2.launch).map fun l => l.card.range).getD 0).foldl (· + ·) 0

/-! Groups at their start (Table WRK-4, 10 R213, R224). -/

/-- A group with nothing but its name, at a PC with the given lanes, born in a network cycle and a cycle of its core. The trap registers of a group made by
`spawn` start at 0 as well (log entry 71). -/
def Group.new (block context gid width born now : Nat) (pc : Pc) (lanes : LaneSet) : Group :=
  { block := block, context := context, gid := gid, width := width, spawned := false, born := born,
    slices := (List.range (width / 4)).map fun i =>
      { Slice.empty with exited := ~~~(laneNib lanes i),
                         seq := if laneNib lanes i = 0 then Seq.empty else { Seq.empty with pc := pc, m := laneNib lanes i, a := laneNib lanes i } },
    v := [], m := [], rmode := 0, fpflags := 0, fpNew := 0, fpAt := 0, joinst := 0, held := false, waitReg := false, spilled := false, spills := 0, wayto := 0x01000000,
    trapBase := 0, trapEn := false, preBase := 0, preEn := false, preBound := 0, tpc := 0, tcause := 0, tword := 0, faddr := 0, tsave := 0,
    sections := [], longs := [], ways := [], gangs := [], flagTil := [], fencing := none, startAfter := none, joins := [], fetched := [], retStack := [], targets := [], trap := none, handler := none,
    killed := false, ended := false, ran := 0, runs := some now }

/-- A member group of a newly placed block. -/
def LaunchRec.group (r : LaunchRec) (block context gid born now : Nat) : Group :=
  let s23 : Tab Word := Tab.set 0 (Tab.set 0 [] 2 (loHalf r.param)) 3 (hiHalf r.param)
  let g := Group.new block context gid r.width born now (r.entry.setWidth 57) (bitSet 128 fun l => decide (l < r.width))
  { g with slices := g.slices.map fun x => { x with s := s23 }, preBound := r.preBound,
           trapBase := r.trap.setWidth 57 &&& ~~~15, trapEn := decide (r.trap ≠ 0), preBase := r.pre.setWidth 57 &&& ~~~15,
           preEn := decide (r.pre ≠ 0) }

/-- `spawn` (10 R224): it never waits; the spawner's atomics not yet served come before the new group's first issue. -/
def execSpawn (d : BitVec 7) (i : BitVec 14) (s : State) : Host.Outcome State Fault Refusal :=
  Ops.word { priv := false, opnd := isS d, uses := [use d] } (fun c s =>
    let core := s.coreOf c.g
    match (s.contextsFree core).head? with
    | none => .ok (s.putRegs c d.toNat fun _ => [0])
    | some n =>
      if c.exec = 0 ∨ s.regsFree core < 48 * c.g.width then .ok (s.putRegs c d.toNat fun _ => [0])
      else
        let g := Group.new c.g.block n (32 + n) c.g.width s.cycle (s.now core) (c.clause + (i.signExtend 57) * 16) c.exec
        let sregs : Tab Word := each (List.range 32) (fun r t => Tab.set 0 t r (c.rdS r)) []
        let g1 : Group :=
          { g with spawned := true, slices := g.slices.map fun x => { x with s := sregs },
                   v := c.g.v.filter fun e => decide (e.1 < 8 * 128), rmode := c.g.rmode, wayto := c.g.wayto, trapBase := c.g.trapBase,
                   trapEn := c.g.trapEn, preBase := c.g.preBase, preEn := c.g.preEn, preBound := c.g.preBound,
                   startAfter := if s.atomsOpen c.u.group then some (c.u.group, s.nextId) else none }
        .ok (State.putRegs { s with nextId := s.nextId + 1, groups := Tab.put s.groups s.nextId g1 } c d.toNat fun _ => [1])) s

/-- The scratchpad bytes of the issuing block. -/
def State.scratchOf (s : State) (g : Group) : Nat := ((s.launchOf g).map fun l => l.card.scratch).getD 0

/-- `fetchw` (10 R225). -/
def execFetchw (o : BitVec 7) (s : State) : Host.Outcome State Fault Refusal :=
  Ops.word (handleSig o) (fun c s =>
    let m := (c.rd o 0).toNat
    if s.scratchOf c.g < m + 16 then .trap (c.trap 7 0x08)
    else if m % 16 ≠ 0 then .trap (c.trap 7 0x07)
    else if (c.block s).any fun b => 4 ≤ b.fetchws.length then .stall
    else .ok (s.onBlock c.g.block fun b => { b with fetchws := b.fetchws ++ [m] })) s

/-! Extended register blocks (10 R227-R229). -/

/-- Group-local bytes of a group. -/
def State.localSizeOf (s : State) (g : Group) : Nat := ((s.launchOf g).map fun l => l.card.localSize).getD 0

/-- `regacq`. -/
def execRegacq (s : State) : Host.Outcome State Fault Refusal :=
  Ops.word noSig (fun c s =>
    if c.g.held || c.g.spilled then .ok s
    else if s.localSizeOf c.g < 192 * c.g.width then .trap (c.trap 5 0x1D)
    else
      let s1 := s.onCore (s.coreOf c.g) fun k => { k with regLine := if k.regLine.contains c.u.group then k.regLine else k.regLine ++ [c.u.group] }
      .ok ((s1.onGroup c.u.group fun g => { g with waitReg := true }).waitFor c.u .regacq)) s

/-- The extended block leaves the register file. -/
def Group.dropExt (g : Group) : Group := { g with held := false, v := g.v.filter fun e => decide (e.1 < 48 * 128) }

/-- `regrel`. -/
def execRegrel (s : State) : Host.Outcome State Fault Refusal :=
  Ops.word noSig (fun c s =>
    if c.g.longs.any fun e => e.2.vMarks.any fun r => decide (48 ≤ r) then .trap (c.trap 6 0x04)
    else .ok (s.onGroup c.u.group Group.dropExt)) s

/-- The words of an extended block in group-local space: register, lane, offset (10 R228). -/
def Group.extWords (g : Group) (size : Nat) : List (Nat × Nat × Nat) :=
  (List.range 48).flatMap fun r => (List.range g.width).map fun l => (48 + r, l, size - 192 * g.width + 4 * (r * g.width + l))

/-- The pointers of a spilled block's pages, through which its words are written and read back (08 R178). -/
def Group.extPages (g : Group) (size : Nat) : List DWord :=
  (List.range (size / 4096)).filterMap fun n => if size - 192 * g.width < 4096 * (n + 1) then some (BitVec.ofNat 64 (8 * 2 ^ 60 + 4096 * n)) else none

/-- The walks a spill or its read-back starts, and where it reads its requests for lines, as the slice logs see them (17 R354). -/
def State.logExt (s : State) (gid : Nat) (g : Group) (k : Access) (ts : List (Nat × Nat × Nat)) : State :=
  let a := s.agentOf gid g
  let s1 := s.walks a [8] 1 k (g.extPages a.size)
  if k = .read then each (linesOf (ts.map fun t => t.2.2)) (fun l s => s.logRequest 0 a.asker l) s1 else s1

/-- Where the words of the group's extended block lie; none where an address of theirs faults, or is read while it waits at its home (log entry 24). -/
def State.extTargets (s : State) (gid : Nat) (g : Group) (k : Access) : Option (List (Nat × Nat × Nat)) :=
  let a := s.agentOf gid g
  (g.extWords a.size).mapM fun w =>
    match s.checkPtr a [8] (BitVec.ofNat 64 (8 * 2 ^ 60 + w.2.2)) 4 k with
    | .ok t =>
      if k = .read ∧ s.heldAt (t.locs.headD 0) ∧ (overlay (s.core a.core).stores (t.locs.headD 0)).isNone then none else some (w.1, w.2.1, t.locs.headD 0)
    | .error _ => none

/-- REGACQ_GRANT (10 R227, R228): the oldest waiter takes 48·W free lane-registers, which read 0; a spilled block's values are read back. -/
def State.grantable (s : State) (core : Nat) : Option (Nat × Group) :=
  (s.core core).regLine.head?.bind fun n => (Tab.find s.groups n).bind fun g => if 48 * g.width ≤ s.regsFree core then some (n, g) else none

def execRegacqGrant (core : Nat) (s : State) : Host.Outcome State Fault Refusal :=
  match s.grantable core with
  | none => .next s
  | some (n, g) =>
    let take (s : State) (v : Tab Word) : State :=
      (s.onCore core fun k => { k with regLine := k.regLine.drop 1 }).onGroup n fun g =>
        Group.wake (fun w => w == .regacq) { g with held := true, spilled := false, waitReg := false, v := v }
    if g.spilled then match s.extTargets n g .read with
      | none => .next s
      | some ts =>
        let word (l : Nat) : Word := BitVec.ofNat 32 (bytesToNat ((List.range 4).map fun i => s.freshByte core (l + i)))
        .next (take (s.logExt n g .read ts) (each ts (fun t v => Tab.set 0 v (t.1 * 128 + t.2.1) (word t.2.2)) g.v))
    else .next (take s (g.v.filter fun e => decide (e.1 < 48 * 128)))

/-- Every split of the group waits (04 R72). -/
def Group.waitsAll (g : Group) : Bool :=
  !g.allExited && (g.slices.all fun x => x.seq.wait ≠ .none || x.seq.m == 0) && g.slices.any fun x => x.seq.wait ≠ .none

/-- The youngest waiting group of a core that holds an extended block, by placement or spawn, then by context, and where its block goes (10 R228). -/
def State.spillVictim (s : State) (core : Nat) : Option (Nat × Group × List (Nat × Nat × Nat)) :=
  let age (g : Group) : Nat := g.born * 2 ^ 8 + g.context
  let all := (s.groupsOn core).filter fun e => e.2.held && e.2.waitsAll
  (all.foldl (fun best e => match best with
    | none => some e
    | some b => if age b.2 < age e.2 then some e else some b) none).bind fun e => (s.extTargets e.1 e.2 .write).map fun ts => (e.1, e.2, ts)

/-- SPILL is due (10 R228). -/
def State.spillDue (s : State) (core : Nat) : Bool :=
  let k := s.core core
  decide (k.regLine ≠ []) && decide (k.lastIssue + 4096 ≤ s.now core) && (s.grantable core).isNone && (s.spillVictim core).isSome

/-- SPILL: one victim's extended block goes to the top of its group-local space, and it joins the waiters. -/
def execSpill (core : Nat) (s : State) : Host.Outcome State Fault Refusal :=
  if !s.spillDue core then .next s
  else match s.spillVictim core with
    | none => .next s
    | some (n, g, ts) =>
      let cells := ts.flatMap fun t => (natToBytes 4 (g.readV t.1 t.2.1).toNat).zipIdx.map fun b => (t.2.2 + b.2, b.1)
      let s0 := s.logExt n g .write ts
      let a := s0.agentOf n g
      let s1 := s0.lsStore a (a.storeOf 4 (g.extPages a.size) cells) []
      let s2 := s1.onCore core fun k => { k with regLine := k.regLine ++ [n] }
      .next (s2.onGroup n fun g => { g.dropExt with spilled := true, spills := min 65535 (g.spills + 1) })

/-- `regroup` (10 R230). -/
def execRegroup (o : BitVec 7) (s : State) : Host.Outcome State Fault Refusal :=
  Ops.word { priv := false, opnd := !isS o, uses := [use o] } (fun c s =>
    let whole := decide (c.exec = c.g.lanesOf c.g.allSlices &&& ~~~c.g.exitedLanes)
    let plain := c.g.slices.all fun x => x.seq.parked.isEmpty && x.seq.releases.isEmpty && x.seq.susp.isEmpty
    if !whole || !plain || c.g.held || c.g.spilled || c.g.spawned || !c.g.sections.isEmpty then .trap (c.trap 7 0x05)
    else match s.release c.u.group (s.coreOf c.g) 0 with
      | none => .stall
      | some s1 => .jump (((s1.advance c.u).waitFor c.u (.regroup o.toNat)).settleEnd c.g.block)) s

/-! Device launches (10 R226). -/

/-- A launch record from its 128 bytes as one number, and whether its zero fields hold (Table WRK-2). -/
def LaunchRec.parse (x : Nat) : LaunchRec × Bool :=
  let rd (o n : Nat) : Nat := bitsAt x (8 * o) (8 * n)
  let dep (i : Nat) : Nat := rd (0x48 + 8 * i) 8
  ({ entry := BitVec.ofNat 64 (rd 0 8), trap := BitVec.ofNat 64 (rd 8 8), pre := BitVec.ofNat 64 (rd 16 8), param := BitVec.ofNat 64 (rd 24 8),
     localBase := BitVec.ofNat 64 (rd 0x20 8), localSize := rd 0x28 4, scratch := rd 0x2C 4, preBound := BitVec.ofNat 32 (rd 0x30 4),
     width := rd 0x34 2, groups := rd 0x36 1, cluster := rd 0x37 1, gridx := rd 0x38 4, gridy := rd 0x3C 2, gridz := rd 0x3E 2,
     flags := BitVec.ofNat 32 (rd 0x40 4), counter := BitVec.ofNat 8 (rd 0x44 1), deps := (List.range 4).map fun i => BitVec.ofNat 64 (dep i),
     compPtr := BitVec.ofNat 64 (rd 0x68 8), compVal := BitVec.ofNat 64 (rd 0x70 8) },
   decide (rd 0x40 4 < 8) && bitsAt (rd 0x44 1) 6 1 == 0 && rd 0x45 3 == 0 && rd 0x78 8 == 0
     && (List.range 4).all fun i => bitsAt (dep i) 6 1 == 0 && bitsAt (dep i) 8 24 == 0)

/-- `launch`: the record is read in the launching group's context; the split waits for the Pilot. -/
def execLaunch (p : BitVec 7) (n : BitVec 2) (s : State) : Host.Outcome State Fault Refusal :=
  Ops.word { priv := false, opnd := isS p && isEven p, uses := [useN p 2] } (fun c s =>
    let a := s.agentOf c.u.group c.g
    let q := c.rd64 p 0
    match if s.entryHeld a q then none else s.release c.u.group a.core 2 with
    | none => .stall
    | some s1 =>
      match s1.checkPtr a [0] q 128 .read with
      | .error f => .trapWalked (s1.walks a [0] 128 .read [q]) (c.ptrTrap q f)
      | .ok t =>
        let at' := t.locs.headD 0
        if s1.heldAt at' then .stall
        else
          let r := LaunchRec.parse (bytesToNat ((List.range 128).map fun i => s1.freshByte a.core (at' + i)))
          if r.1.flags.getLsbD 1 && !a.priv then .trap (c.trap 7 0x06)
          else
            let req (op : Nat) : LaunchReq :=
              { op := op, group := c.u.group, slices := c.u.slices, epoch := c.g.epochOf c.u.slices, reg := p.toNat - 96, prio := n.toNat, word := c.u.word,
                pc := c.u.pc, card := r.1, zeros := r.2 }
            let s2 := (s1.walks a [0] 128 .read [q]).logRequest 0 a.asker at'
            .ok (State.waitFor { s2 with nextId := s2.nextId + 1, launchReqs := s2.launchReqs ++ [req s2.nextId] } c.u (.launch s2.nextId))) s

/-! Special registers (10 R231, R232; 16 R326). -/

/-- TCAP: the tile capabilities of every core (12 Table TIL-2). -/
def Ops.tcap : Word := 0x6040841F

/-- TRAPBASE and PREBASE as they read. -/
def baseWord (pc : Pc) (en : Bool) : Word := (pc.setWidth 32 &&& ~~~15) ||| (if en then 1 else 0)
/-- An `swr` to TRAPBASE or PREBASE keeps the hidden bits [56:32]. -/
def baseSet (pc : Pc) (x : Word) : Pc := BitVec.ofNat 57 (pc.toNat / 2 ^ 32 * 2 ^ 32 + x.toNat / 16 * 16)

/-- Special register n of a group, in lane l. -/
def State.special (s : State) (c : Ctx) (n l : Nat) : Word :=
  let g := c.g
  let num (x : Nat) : Word := BitVec.ofNat 32 x
  let b (f : Block → Nat) : Word := num (((c.block s).map f).getD 0)
  let r (f : LaunchRec → Nat) : Word := num (((s.launchOf g).map fun l => f l.card).getD 0)
  match n with
  | 0 => num l
  | 1 => num g.width
  | 2 => num g.gid
  | 3 => r (·.groups)
  | 4 => b (·.x)
  | 5 => b (·.y)
  | 6 => b (·.z)
  | 7 => r (·.gridx)
  | 8 => r (·.gridy)
  | 9 => r (·.gridz)
  | 10 => b (·.clrank)
  | 11 => b (·.core)
  | 12 => b fun k => Ops.dieOf k.core
  | 13 => g.rmode
  | 14 => g.fpflags
  | 15 => baseWord g.trapBase g.trapEn
  | 16 => g.tpc.setWidth 32
  | 17 => (g.tpc >>> 32).setWidth 32
  | 18 => g.tcause
  | 19 => g.tword
  | 20 => loHalf g.faddr
  | 21 => hiHalf g.faddr
  | 22 => baseWord g.preBase g.preEn
  | 23 => g.preBound
  | 24 => Ops.tcap
  | 25 => num (s.nowOf g)
  | 26 => (g.slice c.low).cycleh
  | 27 => s.phaseWord g
  | 28 => g.joinst
  | 29 => num (g.spills * 2 ^ 16 + g.spilled.toNat * 4 + g.waitReg.toNat * 2 + g.held.toNat)
  | 30 => g.wayto
  | _ => g.tsave

/-- `srd`; a read of CYCLEL latches the high half in every slice of the split. -/
def execSrd (d a : BitVec 7) (s : State) : Host.Outcome State Fault Refusal :=
  Ops.word { priv := false, opnd := decide (a.toNat < 32) && !(isS d && a == 0), uses := [use d] } (fun c s =>
    let s1 := if a = 25 then s.onGroup c.u.group fun g => g.onSlices c.u.slices fun _ x => { x with cycleh := BitVec.ofNat 32 (s.nowOf c.g / 2 ^ 32) } else s
    .ok (s1.putRegs c d.toNat fun l => [s.special c a.toNat l])) s

/-- The RW fields of a special register take a value; others stay. FPFLAGS keeps the bits ORed in in the same cycle (06 R114). -/
def Group.setSpecial (now n : Nat) (x : Word) (g : Group) : Group :=
  match n with
  | 13 => { g with rmode := x &&& 0x3F3 }
  | 14 => { g with fpflags := (x &&& 0x3F) ||| g.fpBits now }
  | 15 => { g with trapBase := baseSet g.trapBase x, trapEn := x.getLsbD 0 }
  | 16 => { g with tpc := BitVec.ofNat 57 (g.tpc.toNat / 2 ^ 32 * 2 ^ 32 + x.toNat / 4 * 4 + g.tpc.toNat % 4) }
  | 17 => { g with tpc := BitVec.ofNat 57 (x.toNat % 2 ^ 25 * 2 ^ 32 + g.tpc.toNat % 2 ^ 32) }
  | 22 => { g with preBase := baseSet g.preBase x, preEn := x.getLsbD 0 }
  | 30 => { g with wayto := x }
  | 31 => { g with tsave := x }
  | _ => g

/-- `swr`. -/
def execSwr (a b : BitVec 7) (s : State) : Host.Outcome State Fault Refusal :=
  Ops.word { priv := false, opnd := decide (a.toNat < 32) && isS b, uses := [use b] } (fun c s =>
    .ok (s.onGroup c.u.group (Group.setSpecial (s.nowOf c.g) a.toNat (c.rd b 0)))) s

/-! The end of groups and blocks. -/

/-- Reads of loads that waited at a pseudo-channel take what the memory holds, or what a store gives it that a `pfence` has put before them (Table BNK-2, 07
R161). -/
def State.fillHeld (s : State) (p : Nat) : State :=
  let cell (core op : Nat) (c : Nat × Option Byte) : Nat × Option Byte := match c.2 with
    | some _ => c
    | none => if Ops.pchOf c.1 = some p then (c.1, some (s.homeByte core op c.1)) else c
  let read (core op : Nat) (r : HeldRead) : HeldRead := { r with cells := r.cells.map (cell core op) }
  { s with groups := Tab.each s.groups fun _ g =>
      { g with longs := Tab.each g.longs fun op o => { o with reads := o.reads.map (read (s.coreOf g) op) } } }

/-- A pseudo-channel leaves all-bank mode: its b and p registers are discarded and the traffic that waited goes on (14 R304), unless a calibration holds
it. -/
def State.leaveBankMode (s : State) (p : Nat) : State :=
  let s1 := s.onPchannel p fun x => { x with holder := none, b := [], p := [] }
  if (s1.pchannel p).hold.isSome then s1 else s1.fillHeld p

/-- The Pilot sets a core's scratchpad to the smallest multiple of 32 KiB that holds what its blocks have of it, beside the 32 KiB of a service group; the
lines of banks L1 gives up are lost (07 R136). -/
def State.setScratch (s : State) (core : Nat) : State :=
  let used := ((s.blocksOn core).map fun e => ((Tab.find s.launches e.2.launch).map fun l => l.card.range).getD 0).foldl (· + ·) 0
  s.onCore core fun k =>
    let k1 := { k with scratch := (used + 32767) / 32768 * 32768 }
    { k1 with l1 := k1.l1.take (k1.l1Lines core) }

/-- Commands and claims of a group that wait in a core's queues and lines. -/
def Core.busyFor (k : Core) (gid : Nat) : Bool :=
  (k.copyQ ++ k.tileQ ++ k.chartQ ++ k.bankQ ++ k.linkQ).any (fun e => e.group == gid) || (k.slotLine ++ k.accLine).any fun e => e.group == gid

/-- Everything the group did has completed (10 R215). -/
def State.groupDone (s : State) (gid : Nat) (g : Group) : Bool :=
  let k := s.core (s.coreOf g)
  g.finished && !g.ended && g.longs.isEmpty && g.ways.isEmpty && !k.busyFor gid && !(k.stores.any fun p => p.group == gid)
  && !(s.launchReqs.any fun r => r.group == gid) && !(s.poisons.any fun p => p.1 == gid) && !s.atomsOpen gid
  && !((s.blockOf g).any fun b => b.away)

/-- The end of a block: what it held is released (10 R216), an owned chart and all-bank modes included. -/
def State.endBlock (s : State) (bn : Nat) (b : Block) : State :=
  let lo := Ops.scratchLoc bn 0
  let s1 : State := { s with mem := s.mem.filter fun e => !(decide (lo ≤ e.1) && decide (e.1 < lo + 2 ^ 20)) }
  let s2 := s1.onCore b.core fun k => if k.chart.owner = some bn then { k with chart := { k.chart with owner := none } } else k
  let held := (s2.pchannels.filter fun e => e.2.holder = some bn).map (·.1)
  let s3 := each held (fun p s => s.leaveBankMode p) s2
  let s4 := (s3.onBlock bn fun b => { b with ended := true, barriers := [], bindings := [], fetchws := [], halt := none }).setScratch b.core
  let done (n : Nat) : Bool := ((Tab.find s4.blocks n).map (·.ended)).getD true
  let s5 := { s4 with units := s4.units.filter fun e => !(e.2.blocks.all done) }
  (s5.onLaunch b.launch fun l => { l with ended := l.ended + 1, resided := l.resided + b.stayed + (s.now b.core - b.placed) }).settleEnd bn

/-- GROUP_END (10 R215): context and register blocks go back; with the last group of a block the block ends. A lane that was granted a section after its
exit is announced first (09 R203). -/
def execGroupEnd (group : Nat) (s : State) : Host.Outcome State Fault Refusal :=
  match Tab.find s.groups group with
  | none => .next s
  | some g =>
    if !s.groupDone group g then .next s
    else if !g.sections.isEmpty then .next (s.announce group (g.sections.map (·.1)))
    else
      let s1 := (s.onGroup group fun g => { g with ended := true, held := false, spilled := false, v := [], m := [], fetched := [], gangs := [] }).settleEnd g.block
      let s2 := s1.onCore (s1.coreOf g) fun k => { k with regLine := k.regLine.filter (· ≠ group) }
      match Tab.find s2.blocks g.block with
      | none => .next s2
      | some b => .next (if !b.ended && (s2.groupsOf g.block).all (fun e => e.2.ended) then s2.endBlock g.block b else s2)

end Sys2Proof.Machine
end

