-- ==== Sys2Proof/Machine/Bank.lean ====
section
/-! DEFINITION. The bank engines (spec/14). -/

namespace Sys2Proof.Machine

/-! Pointers of a bank command (14 R303). -/

/-- A pointer into a pseudo-channel or to a stripe: its physical address. -/
def State.bankPa (s : State) (a : Agent) (p : DWord) : Except PtrFault Nat :=
  (s.checkPtr a [0] p 1 .read).map fun t => t.locs.headD 0

def bankNum (pa : Nat) : Nat := (Ops.pchOf pa).getD 0

/-- The pseudo-channel a queued command names, none where its pointer faults. -/
def State.bankChannel (s : State) (x : EngCmd) : Option Nat :=
  match s.bankPa (s.agentFor x) (x.ptr 0) with
  | .ok pa => some (bankNum pa)
  | .error _ => none

/-- The command's pseudo-channel, or the status it ends with: its pointer faults, or the block does not hold the channel where it must. -/
def State.withChannel (s : State) (x : EngCmd) (holds : Bool) (f : Nat → Nat → EngOut) : EngOut :=
  match s.bankPa (s.agentFor x) (x.ptr 0) with
  | .error e => .fault s e.cause
  | .ok pa => if holds && (s.pchannel (bankNum pa)).holder ≠ some x.block then .fault s 0x1A else f pa (bankNum pa)

/-! Mode (14 R298, R304). -/

/-- Pseudo-channels of a stack in all-bank mode. -/
def State.modesOf (s : State) (stack : Nat) : Nat := (s.pchannels.filter fun e => e.1 / 64 == stack && e.2.holder.isSome).length

/-- Entry (14 R299): the dirty lines of the pseudo-channel are written back; every b register EMPTY, every partial sum +0. -/
def State.enterBankMode (s : State) (who : Asker) (p block : Nat) : State :=
  (s.writeBack who fun line => Ops.pchOf (line * 128) == some p).onPchannel p fun c => { c with holder := some block, b := [], p := [] }

def State.runBkmodeOn (s : State) (x : EngCmd) : EngOut :=
  s.withChannel x false fun _ p =>
    match (s.pchannel p).holder with
    | some b => .stand s (.status (if b = x.block then 1 else 2))
    | none => if 32 ≤ s.modesOf (p / 64) then .stand s (.status 2) else .ok (s.enterBankMode (s.agentFor x).asker p x.block)

def State.runBkmodeOff (s : State) (x : EngCmd) : EngOut := s.withChannel x true fun _ p => .ok (s.leaveBankMode p)

/-! Vectors (14 R305). -/

def BReg.empty : BReg := { code := 0, xe0 := 0, xe1 := 0, bits := 0 }
def PChannel.breg (c : PChannel) (bank n : Nat) : BReg := Tab.get BReg.empty c.b (bank * 16 + n)
def State.setBReg (s : State) (p bank n : Nat) (r : BReg) : State := s.onPchannel p fun c => { c with b := Tab.set BReg.empty c.b (bank * 16 + n) r }

/-- A b register from the bytes of a vector. -/
def bregOf (bfp : Bool) (v : List Byte) : BReg :=
  if bfp then
    { code := 2, xe0 := v.getD 0 0, xe1 := v.getD 17 0,
      bits := BitVec.ofNat 256 (bytesToNat ((v.drop 1).take 16) + bytesToNat ((v.drop 18).take 16) * 2 ^ 128) }
  else { code := 1, xe0 := 0, xe1 := 0, bits := BitVec.ofNat 256 (bytesToNat (v.take 32)) }

def anySpaces : List Nat := [0, 1, 2, 8, 10, 4, 5, 6]

/-- The vectors of a `bkload` in order: the banks and the register of each, counted from the first, and its place in memory. -/
def EngCmd.loadJobs (x : EngCmd) (scatter : Bool) : List (List Nat × Nat × Nat) :=
  let w := (x.par 4).toNat
  let banks := (List.range 16).filter fun b => w.testBit b
  let n := bitsAt w 20 4 + 1
  if scatter then banks.flatMap fun b => (List.range n).map fun i => ([b], i, n * b + i) else (List.range n).map fun i => (banks, i, i)

/-- The sums of a `bkread` in order: bank, and element counted from the first. -/
def EngCmd.readJobs (x : EngCmd) : List (Nat × Nat) :=
  let w := (x.par 4).toNat
  ((List.range 16).filter fun b => w.testBit b).flatMap fun b => (List.range (bitsAt w 24 6 + 1)).map fun i => (b, i)

def State.runBkload (s : State) (x : EngCmd) (bfp scatter : Bool) (choice : Nat) : EngOut :=
  let w := (x.par 4).toNat
  let f := bitsAt w 16 4
  let n := bitsAt w 20 4 + 1
  if bitsAt w 24 8 ≠ 0 ∨ 16 < f + n then .fault s 0x05
  else s.withChannel x true fun _ p =>
    let a := s.agentFor x
    let vs := if bfp then 34 else 32
    let set (bs : List Nat) (i : Nat) (r : BReg) (s : State) : State := each bs (fun b s => s.setBReg p b (f + i) r) s
    let one (bs : List Nat) (i k : Nat) (s : State) : RowOut (State × Bool) :=
      match s.readRow a choice anySpaces 1 vs (ptrAdd (x.ptr 2) (k * vs)) with
      | .ok (s1, v) => .ok (set bs i (bregOf bfp v) s1, false)
      | .fault e _ => .fault e (set bs i BReg.empty s, false)
      | .waits => .waits
    let jobs := x.loadJobs scatter
    let job (i : Nat) : List Nat × Nat × Nat := jobs.getD i ([], 0, 0)
    ((RowRun.start s x choice).rows jobs.length fun i => one (job i).1 (job i).2.1 (job i).2.2).finish id

/-! Row passes (14 R306). -/

/-- The column of a bank in a stripe. -/
def State.column (s : State) (stripe bank : Nat) : BitVec 256 := BitVec.ofNat 256 (s.readNat (stripe + 32 * bank) 32)

def half16 (x : BitVec 256) (k : Nat) : FNum := Fmt.f16.num (bitsAt x.toNat (16 * k) 16)
def nib (x : BitVec 256) (k : Nat) : Int := sextN (x.toNat / 2 ^ (4 * k)) 4

/-- One FP16 pass of a bank: an exact sum rounded once, added once. -/
def passFp16 (w x : BitVec 256) (c : Nat) : Nat :=
  let g := (Fmt.f32.sum .rne ((List.range 16).map fun k => (half16 w k).mul (half16 x k))).bits
  (Fmt.f32.add .rne c g).bits

/-- One BFP-4 pass of a bank: two blocks with their exponents. -/
def passBfp4 (w x : BitVec 256) (eb xe : Nat → Nat) (c : Nat) : Nat :=
  [0, 1].foldl (fun c blk =>
    if eb blk = 255 ∨ xe blk = 255 then Fmt.f32.canon
    else
      let v := ((List.range 32).map fun k => nib w (32 * blk + k) * nib x (32 * blk + k)).foldl (· + ·) 0
      (Fmt.f32.sum .rne [Fmt.f32.num c, .fin (decide (v < 0)) v.natAbs (((eb blk : Int) - 130) + ((xe blk : Int) - 130))]).bits) c

/-- One row pass in all 16 banks; its flag: a sum that is an infinity or a NaN. -/
def State.bankPass (s : State) (p row exps r : Nat) (bfp zero : Bool) (br e : Nat) : State × Bool :=
  let ch := s.pchannel p
  let c (b : Nat) : Nat := if zero then 0 else (Tab.get 0 ch.p (b * 64 + e)).toNat
  let res (b : Nat) : Nat :=
    let v := ch.breg b br
    if bfp then
      let ex := s.column exps b
      passBfp4 (s.column row b) v.bits (fun blk => bitsAt ex.toNat (8 * (2 * (r % 16) + blk)) 8) (fun blk => if blk = 0 then v.xe0.toNat else v.xe1.toNat) (c b)
    else passFp16 (s.column row b) v.bits (c b)
  let all := (List.range 16).map fun b => (b, res b)
  (s.onPchannel p fun ch => { ch with p := each all (fun o t => Tab.set 0 t (o.1 * 64 + e) (BitVec.ofNat 32 o.2)) ch.p },
   all.any fun o => bitsAt o.2 23 8 == 255)

/-- A stripe: its address, or what the command ends with. -/
def State.stripe (s : State) (a : Agent) (p : Nat) (q : DWord) : Except (BitVec 8) Nat :=
  match s.bankPa a q with
  | .error e => .error e.cause
  | .ok pa => if pa % 512 ≠ 0 ∨ bankNum pa ≠ p then .error 0x1A else .ok pa

def State.runBkmac (s : State) (x : EngCmd) (bfp zero : Bool) (choice : Nat) : EngOut :=
  let w := (x.par 3).toNat
  let rows := bitsAt w 0 6 + 1
  let e0 := bitsAt w 8 6
  let br := bitsAt w 16 4
  if bitsAt w 6 2 ≠ 0 ∨ bitsAt w 14 2 ≠ 0 ∨ bitsAt w 20 12 ≠ 0 ∨ 64 < e0 + rows then .fault s 0x05
  else s.withChannel x true fun _ p =>
    let a := s.agentFor x
    if (List.range 16).any fun b => ((s.pchannel p).breg b br).code ≠ (if bfp then 2 else 1) then .fault s 0x14
    else
      let fail (cause : BitVec 8) : PtrFault := { cause := cause, level := 0, kind := 0 }
      let one (r : Nat) (s : State) : RowOut (State × Bool) :=
        match s.stripe a p (rowPtr (x.ptr 0) (x.par 2) r) with
        | .error c => .fault (fail c) (s, false)
        | .ok row =>
          if bfp then match s.stripe a p (rowPtr (x.ptr 4) (x.par 6) (r / 16)) with
            | .error c => .fault (fail c) (s, false)
            | .ok ex => .ok (s.bankPass p row ex r bfp zero br (e0 + r))
          else .ok (s.bankPass p row 0 r bfp zero br (e0 + r))
      ((RowRun.start s x choice).rows rows one).finish id

/-! Reading back (14 R307, R308). -/

def State.runBkread (s : State) (x : EngCmd) (choice : Nat) : EngOut :=
  let w := (x.par 4).toNat
  let e0 := bitsAt w 16 6
  let n := bitsAt w 24 6 + 1
  if bitsAt w 22 2 ≠ 0 ∨ bitsAt w 30 2 ≠ 0 ∨ 64 < e0 + n then .fault s 0x05
  else s.withChannel x true fun _ p =>
    let a := s.agentFor x
    let one (b i : Nat) (s : State) : RowOut (State × Bool) :=
      match s.writeRow a 0 anySpaces 1 (ptrAdd (rowPtr (x.ptr 2) (x.par 5) b) (4 * i)) (natToBytes 4 (Tab.get 0 (s.pchannel p).p (b * 64 + e0 + i)).toNat) with
      | .ok t => .ok (t, false)
      | .fault f t => .fault f (t, false)
      | .waits => .waits
    let jobs := x.readJobs
    ((RowRun.start s x choice).rows jobs.length fun i => one (jobs.getD i (0, 0)).1 (jobs.getD i (0, 0)).2).finish id

/-- Spares in use in a column's group of 512: those holding a column, and those found worn. -/
def PChannel.sparesUsed (c : PChannel) (bank group : Nat) : List Nat :=
  ((c.remap.filter fun e => decide (e.1 / 2 ^ 21 = bank) && decide (e.1 % 2 ^ 21 / 512 = group)).map (·.2))
  ++ (c.worn.filter fun e => decide (e.1 / 2 ^ 21 = bank) && decide (e.1 % 2 ^ 21 / 2 = group)).map fun e => e.1 % 2
def PChannel.full (c : PChannel) (bank : Nat) : Bool :=
  ((c.remap.filter fun e => e.1 / 2 ^ 21 == bank).map fun e => e.1 % 2 ^ 21 / 512).any fun g =>
    (c.sparesUsed bank g).contains 0 && (c.sparesUsed bank g).contains 1

/-- Table BNK-5. -/
def PChannel.status (c : PChannel) (bank : Nat) : Nat :=
  c.holder.isSome.toNat * 2 ^ 31 + c.hold.isSome.toNat * 2 ^ 30 + (c.bfail.getLsbD bank).toNat * 2 ^ 29 + (c.full bank).toNat * 2 ^ 28 + min 255 (Tab.get 0 c.cerr bank) * 2 ^ 16
    + (c.remap.filter fun e => e.1 / 2 ^ 21 == bank).length

def State.runBkstat (s : State) (x : EngCmd) (choice : Nat) : EngOut :=
  s.withChannel x false fun _ p =>
    let ch := s.pchannel p
    let flag := (List.range 16).any fun b => ch.bfail.getLsbD b || ch.full b
    match s.writeRow (s.agentFor x) choice anySpaces 1 (x.ptr 2) ((List.range 16).flatMap fun b => natToBytes 4 (ch.status b)) with
    | .ok t => .stand t (.status (if flag then 2 else 1))
    | .fault f t => .fault t f.cause
    | .waits => x.waiting s

/-! Calibration (14 R309): it waits until the pseudo-channel is in no all-bank mode, then holds it, a test slice by slice. -/

/-- The banks in which a test finds a fault: the choice's bits 4 to 19, as the hardware's condition is no state of the model. -/
def bistFound (choice : Nat) : BitVec 16 := BitVec.ofNat 16 (choice / 16)

def PChannel.doRemap (c : PChannel) (bank col : Nat) : Option PChannel :=
  let key := bank * 2 ^ 21 + col
  let worn := match Tab.find c.remap key with
    | some r => Tab.put c.worn (bank * 2 ^ 21 + col / 512 * 2 + r) 1
    | none => c.worn
  match [0, 1].find? fun r => !(c.sparesUsed bank (col / 512)).contains r with
  | none => none
  | some r => some { c with worn := worn, remap := Tab.put c.remap key r }

/-- A store or an atomic to a pseudo-channel that waits to be performed at its home. -/
def State.trafficAt (s : State) (p : Nat) : Bool :=
  let at' (l : Nat) : Bool := Ops.pchOf l == some p
  let atom (r : Request) : Bool := match r.ask with
    | .atom _ ls _ _ => ls.any at'
    | _ => false
  (s.cores.any fun k => k.2.stores.any fun x => x.cells.any fun c => at' c.1) || s.podQ.any fun q => q.2.any atom

/-- The stages of a `bkcal`, which `done` counts: it holds the pseudo-channel while `done` is odd. Bit 20 of the choice has a test go on after this slice;
the next slice begins once the traffic that waited has been served. -/
def State.runBkcal (s : State) (x : EngCmd) (op choice : Nat) : EngOut :=
  let bad := if op = 2 then 16 ≤ (x.par 2).toNat ∨ 2 ^ 21 ≤ (x.par 3).toNat else x.par 2 ≠ 0 ∨ x.par 3 ≠ 0
  if bad then .fault s 0x05
  else s.withChannel x false fun _ p =>
    let c := s.pchannel p
    let put (c : PChannel) : State :=
      let s1 := s.onPchannel p fun _ => c
      if c.hold.isSome then s1 else s1.fillHeld p
    let free (c : PChannel) : PChannel := { c with calBy := none, hold := none }
    if x.done % 2 = 1 then
      match op with
      | 0 => .ok (put (free c))
      | 1 =>
        if choice.testBit 20 then { x.later (put { c with hold := none }) with done := x.done + 1 }
        else .stand (put { free c with bfail := bistFound choice }) (.status (if bistFound choice = 0 then 1 else 2))
      | _ => match c.doRemap (x.par 2).toNat (x.par 3).toNat with
        | none => .fault (put (free c)) 0x1A
        | some c1 => .ok (put (free c1))
    else if c.holder.isSome || (decide (x.done ≠ 0) && s.trafficAt p) then x.later s
    else if op = 2 ∧ (c.doRemap (x.par 2).toNat (x.par 3).toNat).isNone then .fault s 0x1A
    else { x.later (put { c with calBy := some x.id, hold := some s.cycle }) with done := x.done + 1 }

/-- Commands that go before they have ended free the pseudo-channels they calibrate, and the traffic that waited goes on. -/
def State.stopCal (s : State) (ids : List Nat) : State :=
  each (s.pchannels.filter fun e => e.2.calBy.any ids.contains) (fun e s =>
    let s1 := s.onPchannel e.1 fun c => { c with calBy := none, hold := none }
    if e.2.holder.isSome then s1 else s1.fillHeld e.1) s

/-- Another command calibrates the pseudo-channel of this one, which waits; but whether a `bkstat` does is left open (log entry 73): bit 21 of the
choice. -/
def State.calibrated (s : State) (x : EngCmd) (choice : Nat) : Bool :=
  !(x.cmd == .bkstat && choice.testBit 21) && (s.bankChannel x).any fun p => (s.pchannel p).calBy.any (· ≠ x.id)

/-- A bank command. -/
def State.runBank (s : State) (x : EngCmd) (choice : Nat) : EngOut :=
  if s.calibrated x choice then x.waiting s
  else match x.cmd with
  | .bkmodeOn => s.runBkmodeOn x
  | .bkmodeOff => s.runBkmodeOff x
  | .bkload bfp scatter => s.runBkload x bfp scatter choice
  | .bkmac bfp zero => s.runBkmac x bfp zero choice
  | .bkread => s.runBkread x choice
  | .bkcal op => s.runBkcal x op choice
  | _ => s.runBkstat x choice

/-- A calibration, a test slice or a remap that holds a pseudo-channel must end in this cycle: after 2 µs, a remap after 1 µs (14 R309). -/
def State.calEnds (s : State) (core : Nat) : Bool :=
  (s.core core).bankQ.any fun x => match x.cmd with
    | .bkcal op => s.pchannels.any fun e => e.2.calBy == some x.id &&
        e.2.hold.any fun t => decide (t + (if op = 2 then 1 else 2) * Ops.perMicro ≤ s.cycle)
    | _ => false

/-! The words (14 R301, Table BNK-3). -/

def execBkmodeOn (t p : BitVec 5) (sc : BitVec 2) (q r : BitVec 1) (s : State) : Host.Outcome State Fault Refusal := Ops.engWord false .bank .bkmodeOn 2 t p sc q r s
def execBkmodeOff (t p : BitVec 5) (sc : BitVec 2) (q r : BitVec 1) (s : State) : Host.Outcome State Fault Refusal := Ops.engWord false .bank .bkmodeOff 2 t p sc q r s
def execBkload (t p : BitVec 5) (sc : BitVec 2) (q r f x : BitVec 1) (s : State) : Host.Outcome State Fault Refusal :=
  Ops.engWord false .bank (.bkload (f = 1) (x = 1)) 5 t p sc q r s
def execBkmac (t p : BitVec 5) (sc : BitVec 2) (q r f z : BitVec 1) (s : State) : Host.Outcome State Fault Refusal :=
  Ops.engWord false .bank (.bkmac (f = 1) (z = 1)) 7 t p sc q r s
def execBkread (t p : BitVec 5) (sc : BitVec 2) (q r : BitVec 1) (s : State) : Host.Outcome State Fault Refusal := Ops.engWord false .bank .bkread 6 t p sc q r s
def execBkcalCal (t p : BitVec 5) (sc : BitVec 2) (q r : BitVec 1) (s : State) : Host.Outcome State Fault Refusal := Ops.engWord true .bank (.bkcal 0) 4 t p sc q r s
def execBkcalBist (t p : BitVec 5) (sc : BitVec 2) (q r : BitVec 1) (s : State) : Host.Outcome State Fault Refusal := Ops.engWord true .bank (.bkcal 1) 4 t p sc q r s
def execBkcalRemap (t p : BitVec 5) (sc : BitVec 2) (q r : BitVec 1) (s : State) : Host.Outcome State Fault Refusal := Ops.engWord true .bank (.bkcal 2) 4 t p sc q r s
def execBkstat (t p : BitVec 5) (sc : BitVec 2) (q r : BitVec 1) (s : State) : Host.Outcome State Fault Refusal := Ops.engWord false .bank .bkstat 4 t p sc q r s

/-- CORRECTED_ERROR (14 R308): a bank's count of corrected errors, saturating. -/
def execCorrectedError (pch bank : Nat) (s : State) : Host.Outcome State Fault Refusal :=
  .next (s.onPchannel pch fun c => { c with cerr := Tab.set 0 c.cerr bank (min 255 (Tab.get 0 c.cerr bank + 1)) })

end Sys2Proof.Machine
end

