-- ==== Sys2Proof/Machine/Chart.lean ====
section
/-! DEFINITION. The chart (spec/13): expressions evaluated at every cell, the enable stack, cell programs, and moves of cells. -/

namespace Sys2Proof.Machine

/-! Cells: cell (i, j) is number 32·j + i. -/

abbrev CellSet := BitVec 1024
def cellNums : List Nat := List.range 1024
def cellI (n : Nat) : Nat := n % 32
def cellJ (n : Nat) : Nat := n / 32

def Chart.rd (k : Chart) (c n : Nat) : Word := Tab.get 0 k.regs (c * 1024 + n)
def Chart.wr (k : Chart) (c n : Nat) (x : Word) : Chart := { k with regs := Tab.set 0 k.regs (c * 1024 + n) x }
/-- The top of the enable stack. -/
def Chart.top (k : Chart) : CellSet := k.enable.getLastD (BitVec.allOnes 1024)
def Chart.setTop (k : Chart) (x : CellSet) : Chart := { k with enable := k.enable.dropLast ++ [x] }
def Chart.push (k : Chart) (x : CellSet) : Chart := { k with enable := k.enable ++ [x] }
/-- Runs f on every cell of a set. -/
def Chart.over (k : Chart) (set : CellSet) (f : Nat → Chart → Chart) : Chart := each (cellNums.filter set.getLsbD) f k

/-! The sextant tree (13 R277-R281). -/

/-- A coefficient of a parameter block. -/
def coef (ps : List Word) (i : Nat) : Int := (ps.getD i 0).toInt

/-- V at a cell: kinds 0 linear, 1 quadratic, 2 exponential, 3 cubic. -/
def treeValue (kind : Nat) (ps : List Word) (n : Nat) : Int :=
  let xh : Int := 2 * cellI n + 1
  let yh : Int := 2 * cellJ n + 1
  let k : Int := (pairOf (ps.getD 0 0) (ps.getD 1 0)).toInt
  let lin := k + 2 * coef ps 2 * xh + 2 * coef ps 3 * yh
  let quad := coef ps 4 * xh ^ 2 + coef ps 5 * xh * yh + coef ps 6 * yh ^ 2
  let cub := coef ps 7 * xh ^ 3 + coef ps 8 * xh ^ 2 * yh + coef ps 9 * xh * yh ^ 2 + coef ps 10 * yh ^ 3
  let v := if kind = 0 then lin else if kind = 3 then lin + quad + cub else lin + quad
  (BitVec.ofInt 64 v).toInt

/-- The value delivered. -/
def treeDeliver (kind : Nat) (v : Int) : Word :=
  if kind = 2 then BitVec.ofNat 32 (exp2Fixed (v * 2 ^ 182)).bits
  else BitVec.ofNat 32 (Fmt.f32.round .rne (decide (v < 0)) v.natAbs (-18) false).bits

/-- The cell is inside the expression (13 R279). -/
def treeInside (kind : Nat) (ps : List Word) (v : Int) : Bool :=
  decide (0 < v) || (decide (v = 0) && kind == 0 && (decide (0 < coef ps 2) || (decide (coef ps 2 = 0) && decide (0 < coef ps 3))))

/-- `chexp` and `chcubic` (13 R280). -/
def Chart.runExp (k : Chart) (d kind eop : Nat) (ps : List Word) : Chart :=
  let en := k.top
  let k1 := k.over en fun n k => k.wr d n (treeDeliver kind (treeValue kind ps n))
  let inside : CellSet := bitSet 1024 fun n => en.getLsbD n && treeInside kind ps (treeValue kind ps n)
  if eop = 1 then k1.setTop inside else if eop = 2 then k1.push inside else k1

/-- `chenab` (13 R282). -/
def Chart.runEnab (k : Chart) (op : Nat) : Chart :=
  match op with
  | 0 => k.push k.top
  | 1 => { k with enable := k.enable.dropLast }
  | 2 => k.setTop ((if k.enable.length ≤ 1 then BitVec.allOnes 1024 else k.enable.getD (k.enable.length - 2) 0) &&& ~~~k.top)
  | _ => { k with enable := [BitVec.allOnes 1024] }

/-- An arithmetic `chop`: result bits and exceptions (Table CHT-4). -/
def chopOf (op : Nat) (cd ca cb : Nat) : FRes :=
  let f := Fmt.f32
  match op with
  | 0 => f.add .rne ca cb
  | 1 => f.sub .rne ca cb
  | 2 => f.mul .rne ca cb
  | 3 => f.fma .rne ca cb cd
  | 4 => f.min ca cb
  | 5 => f.max ca cb
  | 6 => exp2F32 ca
  | 7 => f.div .rne f.one ca
  | 8 => { bits := ca, flags := 0 }
  | _ => { bits := if cd.testBit 31 then cb else ca, flags := 0 }

/-- A compare `chop`: 10 lt, 11 le, 12 eq, 13 ne. -/
def chopTest (op a b : Nat) : Bool :=
  let f := Fmt.f32
  match op with
  | 10 => f.lt a b
  | 11 => f.le a b
  | 12 => f.eq a b
  | _ => !f.eq a b

/-- Exceptions signalled in a cell (13 R284). -/
def Chart.signal (te : BitVec 5) (n flags : Nat) (k : Chart) : Chart :=
  let fl := BitVec.ofNat 5 flags
  if fl = 0 then k
  else { k with flags := Tab.set 0 k.flags n (Tab.get 0 k.flags n ||| fl), chflags := k.chflags ||| fl, trappend := k.trappend || decide (fl &&& te ≠ 0) }

/-- `chop` (13 R283). -/
def Chart.runChop (k : Chart) (op d a b : Nat) (te : BitVec 5) : Chart :=
  if op < 10 then
    k.over k.top fun n k =>
      let r := chopOf op (k.rd d n).toNat (k.rd a n).toNat (k.rd b n).toNat
      (k.wr d n (BitVec.ofNat 32 r.bits)).signal te n r.flags
  else
    let top := k.top
    let k1 := k.over top fun n k => k.signal te n (Fmt.f32.cmpFlags (decide (op < 12)) (k.rd a n).toNat (k.rd b n).toNat)
    k1.setTop (bitSet 1024 fun n => top.getLsbD n && chopTest op (k.rd a n).toNat (k.rd b n).toNat)

/-- `chvis` (13 R286). -/
def Chart.runVis (k : Chart) (d : Nat) (lo hi : Word) : Chart :=
  k.over k.top fun n k =>
    if Fmt.f32.lt (k.rd d n).toNat (k.rd 14 n).toNat then ((k.wr 14 n (k.rd d n)).wr 12 n lo).wr 13 n hi else k

/-- `chset` (13 R285). -/
def Chart.runSet (k : Chart) (d : Nat) (all : Bool) (x : Word) : Chart :=
  k.over (if all then BitVec.allOnes 1024 else k.top) fun n k => k.wr d n x

/-- The reset that `chown` queues; owner, TE, the origin and the depth counted at issue stay (13 R272). -/
def Chart.runReset (k : Chart) : Chart :=
  { k with regs := [], enable := [BitVec.allOnes 1024], flags := [], chflags := 0, trappend := false }

/-! Moving cells (13 R287, R288). -/

def State.onChart (s : State) (core : Nat) (f : Chart → Chart) : State := s.onCore core fun k => { k with chart := f k.chart }

/-- Bytes of a cell as SEL selects them. -/
def Chart.cellBytes (k : Chart) (d sel n : Nat) : List Byte :=
  match sel with
  | 0 => natToBytes 4 (k.rd d n).toNat
  | 1 => natToBytes 4 (k.rd d n).toNat ++ natToBytes 4 (k.rd (d + 1) n).toNat
  | _ => [(Tab.get 0 k.flags n).setWidth 8]
def Chart.loadCell (d sel n : Nat) (bytes : List Byte) (k : Chart) : Chart :=
  let k1 := k.wr d n (BitVec.ofNat 32 (bytesToNat (bytes.take 4)))
  if sel = 1 then k1.wr (d + 1) n (BitVec.ofNat 32 (bytesToNat (bytes.drop 4))) else k1

/-- Bytes per cell. -/
def selSize (sel : Nat) : Nat := if sel = 0 then 4 else if sel = 1 then 8 else 1

def chartSpaces : List Nat := [0, 1, 2, 8, 10, 4, 5, 6]

/-- `chld` and `chst` up to the last row, or OPND before any access. -/
def State.runCells (s : State) (x : EngCmd) (core : Nat) (load : Bool) (d sel choice : Nat) : Option RowRun :=
  let w := (x.par 3).toNat
  let col := bitsAt w 0 5
  let row := bitsAt w 8 5
  let cols := bitsAt w 16 5 + 1
  let rows := bitsAt w 24 5 + 1
  if bitsAt w 5 3 ≠ 0 ∨ bitsAt w 13 3 ≠ 0 ∨ bitsAt w 21 3 ≠ 0 ∨ bitsAt w 29 3 ≠ 0 ∨ 32 < col + cols ∨ 32 < row + rows then none
  else
    let a := s.agentFor x
    let e := selSize sel
    let cell (r c : Nat) : Nat := 32 * (row + r) + col + c
    let one (r : Nat) (s : State) : RowOut (State × Bool) :=
      let p := rowPtr (x.ptr 0) (x.par 2) r
      if load then match s.readRow a choice chartSpaces e cols p with
        | .ok (s1, bytes) =>
          .ok (s1.onChart core fun k => each (List.range cols) (fun c k => k.loadCell d sel (cell r c) ((bytes.drop (e * c)).take e)) k, false)
        | .fault f _ => .fault f (s, false)
        | .waits => .waits
      else match s.writeRow a choice chartSpaces e p ((List.range cols).flatMap fun c => (s.core core).chart.cellBytes d sel (cell r c)) with
        | .ok t => .ok (t, false)
        | .fault f t => .fault f (t, false)
        | .waits => .waits
    some ((RowRun.start s x choice).rows rows one)

def State.runChld (s : State) (x : EngCmd) (core d sel choice : Nat) : EngOut :=
  match s.runCells x core true d sel choice with
  | none => .fault s 0x05
  | some run => run.finish id

/-- A `chst` that completes reports a pending trap, else the flags, and clears them where CLR asks. -/
def State.runChst (s : State) (x : EngCmd) (core d sel : Nat) (clr : Bool) (choice : Nat) : EngOut :=
  match s.runCells x core false d sel choice with
  | none => .fault s 0x05
  | some run => match run.stop with
    | some _ => run.finish id
    | none =>
      let k := (run.s.core core).chart
      let st : Word := if k.trappend then faultStatus 0x19 else if k.chflags ≠ 0 then 2 else 1
      .stand (run.s.onChart core fun k =>
        let k1 := { k with trappend := false }
        if clr then { k1 with flags := [], chflags := 0 } else k1) (.status st)

/-- A chart command. -/
def State.runChart (s : State) (x : EngCmd) (core choice : Nat) : EngOut :=
  let on (f : Chart → Chart) : EngOut := .ok (s.onChart core f)
  match x.cmd with
  | .chexp d kind eop => on fun k => k.runExp d kind eop x.params
  | .chcubic d eop => on fun k => k.runExp d 3 eop x.params
  | .chop op d a b te => on fun k => k.runChop op d a b te
  | .chenab op => on fun k => k.runEnab op
  | .chvis d => on fun k => k.runVis d (x.par 0) (x.par 1)
  | .chset d all => on fun k => k.runSet d all (x.par 0)
  | .chld d sel => s.runChld x core d sel choice
  | .chst d sel clr => s.runChst x core d sel clr choice
  | _ => on Chart.runReset

/-! The words. -/

/-- Every chart word but `chown` comes from the block that owns the chart (13 R273). -/
def Ops.chartWord (sig : Sig) (f : Ctx → Nat → Chart → State → Res) : State → Host.Outcome State Fault Refusal :=
  Ops.word sig fun c s =>
    let core := s.coreOf c.g
    if (s.core core).chart.owner = some c.g.block then f c core (s.core core).chart s else .trap (c.trap 7 0x15)

/-- A command that changes the depth as counted at issue: OPND where the stack would leave 1 to 8 (13 R280, R282). -/
def State.chartDepth (s : State) (c : Ctx) (core : Nat) (old new : Nat) (cmd : Cmd) (ps : List Word) : Res :=
  if new < 1 ∨ 8 < new then .trap (c.trap 7 0x05)
  else match s.enqueue c .chart cmd ps 0 0 false false with
    | .ok s1 => .ok (if new = old then s1 else s1.onChart core fun k => { k with depthIssued := new })
    | r => r

/-- P even, from 2 to `top`, with n registers. -/
def chartSig (p : BitVec 5) (n top : Nat) : Sig :=
  { priv := false, opnd := p.toNat % 2 == 0 && decide (2 ≤ p.toNat) && decide (p.toNat ≤ top), uses := [useS p.toNat n] }

def execChexp (p : BitVec 5) (d : BitVec 4) (k : BitVec 3) (e : BitVec 2) (s : State) : Host.Outcome State Fault Refusal :=
  let n := if k = 0 then 4 else 7
  Ops.chartWord (chartSig p n (if k = 0 then 28 else 24)) (fun c core ch s =>
    s.chartDepth c core ch.depthIssued (if e = 2 then ch.depthIssued + 1 else ch.depthIssued) (.chexp d.toNat k.toNat e.toNat) (c.params p n)) s

/-- `chcubic`: ILLOP but in code loaded for stepping B0 (13 R281). -/
def execChcubic (p : BitVec 5) (d : BitVec 4) (e : BitVec 2) (s : State) : Host.Outcome State Fault Refusal :=
  if s.stepB0 then
    Ops.chartWord (chartSig p 11 20) (fun c core ch s =>
      s.chartDepth c core ch.depthIssued (if e = 2 then ch.depthIssued + 1 else ch.depthIssued) (.chcubic d.toNat e.toNat) (c.params p 11)) s
  else Ops.word noSig (fun c _ => .trap (c.trap 3 0x01)) s

/-- A `chop` carries TE as it stands at its issue. -/
def Ops.chopWord (op : Nat) (d a b : BitVec 4) : State → Host.Outcome State Fault Refusal :=
  Ops.chartWord noSig fun c _ ch s => s.enqueue c .chart (.chop op d.toNat a.toNat b.toNat ch.te) [] 0 0 false false
def execChopAdd (d a b : BitVec 4) (s : State) : Host.Outcome State Fault Refusal := Ops.chopWord 0 d a b s
def execChopSub (d a b : BitVec 4) (s : State) : Host.Outcome State Fault Refusal := Ops.chopWord 1 d a b s
def execChopMul (d a b : BitVec 4) (s : State) : Host.Outcome State Fault Refusal := Ops.chopWord 2 d a b s
def execChopFma (d a b : BitVec 4) (s : State) : Host.Outcome State Fault Refusal := Ops.chopWord 3 d a b s
def execChopMin (d a b : BitVec 4) (s : State) : Host.Outcome State Fault Refusal := Ops.chopWord 4 d a b s
def execChopMax (d a b : BitVec 4) (s : State) : Host.Outcome State Fault Refusal := Ops.chopWord 5 d a b s
def execChopExp2 (d a : BitVec 4) (s : State) : Host.Outcome State Fault Refusal := Ops.chopWord 6 d a 0 s
def execChopRcp (d a : BitVec 4) (s : State) : Host.Outcome State Fault Refusal := Ops.chopWord 7 d a 0 s
def execChopMov (d a : BitVec 4) (s : State) : Host.Outcome State Fault Refusal := Ops.chopWord 8 d a 0 s
def execChopSel (d a b : BitVec 4) (s : State) : Host.Outcome State Fault Refusal := Ops.chopWord 9 d a b s
def execChopLt (a b : BitVec 4) (s : State) : Host.Outcome State Fault Refusal := Ops.chopWord 10 0 a b s
def execChopLe (a b : BitVec 4) (s : State) : Host.Outcome State Fault Refusal := Ops.chopWord 11 0 a b s
def execChopEq (a b : BitVec 4) (s : State) : Host.Outcome State Fault Refusal := Ops.chopWord 12 0 a b s
def execChopNe (a b : BitVec 4) (s : State) : Host.Outcome State Fault Refusal := Ops.chopWord 13 0 a b s

def Ops.chenabWord (op : Nat) (depth : Nat → Nat) : State → Host.Outcome State Fault Refusal :=
  Ops.chartWord noSig fun c core ch s => s.chartDepth c core ch.depthIssued (depth ch.depthIssued) (.chenab op) []
def execChenabPush (s : State) : Host.Outcome State Fault Refusal := Ops.chenabWord 0 (· + 1) s
def execChenabPop (s : State) : Host.Outcome State Fault Refusal := Ops.chenabWord 1 (· - 1) s
def execChenabElse (s : State) : Host.Outcome State Fault Refusal := Ops.chenabWord 2 id s
def execChenabAll (s : State) : Host.Outcome State Fault Refusal := Ops.chenabWord 3 (fun _ => 1) s

/-- `chld` and `chst`: P even, from 2 to 28; a pair names an even register (13 R287); AQ and RL at block scope (13 R275). -/
def Ops.cellWord (cmd : Cmd) (p : BitVec 5) (d : BitVec 4) (t : BitVec 5) (sel : BitVec 2) : State → Host.Outcome State Fault Refusal :=
  let sig := chartSig p 4 28
  Ops.chartWord { sig with opnd := sig.opnd && !(sel == 1 && d.toNat % 2 == 1), uses := useS t.toNat 1 :: sig.uses } fun c _ _ s =>
    s.enqueue c .chart cmd (c.params p 4) t 0 true true
def execChld (p : BitVec 5) (d : BitVec 4) (t : BitVec 5) (sel : BitVec 2) (s : State) : Host.Outcome State Fault Refusal :=
  Ops.cellWord (.chld d.toNat sel.toNat) p d t sel s
def execChst (p : BitVec 5) (d : BitVec 4) (t : BitVec 5) (sel : BitVec 2) (l : BitVec 1) (s : State) : Host.Outcome State Fault Refusal :=
  Ops.cellWord (.chst d.toNat sel.toNat (l = 1)) p d t sel s

def execChvis (p : BitVec 5) (d : BitVec 4) (s : State) : Host.Outcome State Fault Refusal :=
  Ops.chartWord (chartSig p 2 30) (fun c _ _ s => s.enqueue c .chart (.chvis d.toNat) (c.params p 2) 0 0 false false) s

def execChset (x : BitVec 5) (d : BitVec 4) (l : BitVec 1) (s : State) : Host.Outcome State Fault Refusal :=
  Ops.chartWord { noSig with uses := [useS x.toNat 1] } (fun c _ _ s =>
    s.enqueue c .chart (.chset d.toNat (l = 1)) [c.rdS x.toNat] 0 0 false false) s

/-- `chown` (13 R272). -/
def execChown (d e : BitVec 5) (s : State) : Host.Outcome State Fault Refusal :=
  Ops.word { noSig with uses := [useS d.toNat 1] } (fun c s =>
    let core := s.coreOf c.g
    let answer (x : Word) (s : State) : Res := .ok (s.onGroup c.u.group fun g => g.writeS c.u.slices d.toNat x)
    match (s.core core).chart.owner with
    | some b => if b = c.g.block then answer 1 (s.onChart core fun k => { k with te := e }) else answer 0 s
    | none => match s.enqueue c .chart .chreset [] 0 0 false false with
      | .ok s1 => answer 1 (s1.onChart core fun k => { k with owner := some c.g.block, te := e, orgx := 0, orgy := 0, depthIssued := 1 })
      | r => r) s

def execChrel (s : State) : Host.Outcome State Fault Refusal :=
  Ops.chartWord noSig (fun _ core _ s => .ok (s.onChart core fun k => { k with owner := none })) s

def execChorg (x : BitVec 5) (s : State) : Host.Outcome State Fault Refusal :=
  Ops.chartWord { noSig with uses := [useS x.toNat 1] } (fun c core _ s =>
    .ok (s.onChart core fun k => { k with orgx := (c.rdS x.toNat).setWidth 16, orgy := (c.rdS x.toNat >>> 16).setWidth 16 })) s

/-- `chorg.rd`: ORGY · 2^16 + ORGX, of two signed numbers (13 R285, 00 R5). -/
def execChorgRd (d : BitVec 5) (s : State) : Host.Outcome State Fault Refusal :=
  Ops.chartWord { noSig with uses := [useS d.toNat 1] } (fun c _ ch s =>
    .ok (s.onGroup c.u.group fun g => g.writeS c.u.slices d.toNat (ch.orgy.setWidth 32 * 65536 + ch.orgx.signExtend 32))) s

/-- CHART_RESET (13 R272): the reset at the head of the chart's queue runs. -/
def execChartReset (core : Nat) (s : State) : Host.Outcome State Fault Refusal :=
  match (s.core core).chartQ with
  | [] => .next s
  | x :: q => if x.cmd = .chreset then .next (s.onCore core fun k => { k with chartQ := q, chart := k.chart.runReset }) else .next s

end Sys2Proof.Machine
end

