-- ==== Sys2Proof/Machine/Service.lean ====
section
/-! DEFINITION. Atomics and waypoint sections (spec/09): the words of majors 0x28 and 0x2A, the pods' service groups, and the steps that carry
requests and replies. -/

namespace Sys2Proof

/-! Atomics (R183-R187). -/

def AtomOp.size (o : AtomOp) : Nat :=
  match o with
  | .add64 => 8
  | .xchg64 => 8
  | .cas64 => 8
  | _ => 4

/-- What the location holds afterwards, none where a `cas` makes no write (Table ATM-1). -/
def AtomOp.new (o : AtomOp) (old b1 b2 : DWord) : Option DWord :=
  let x := loHalf old
  let b := loHalf b1
  let single (w : Word) : Option DWord := some (w.setWidth 64)
  match o with
  | .add32 => single (x + b)
  | .add64 => some (old + b1)
  | .minS => single (if x.toInt ≤ b.toInt then x else b)
  | .maxS => single (if x.toInt ≤ b.toInt then b else x)
  | .minU => single (if x.toNat ≤ b.toNat then x else b)
  | .maxU => single (if x.toNat ≤ b.toNat then b else x)
  | .and => single (x &&& b)
  | .or => single (x ||| b)
  | .xor => single (x ^^^ b)
  | .xchg32 => single b
  | .xchg64 => some b1
  | .cas32 => if x = b then single (loHalf b2) else none
  | .cas64 => if old = b1 then some b2 else none
  | .addF32 => single (BitVec.ofNat 32 (Machine.Fmt.f32.add .rne x.toNat b.toNat).bits)
  | .inc => single (if b.toNat ≤ x.toNat then 0 else x + 1)
  | .dec => single (if x = 0 ∨ b.toNat < x.toNat then b else x - 1)

/-- Registers of B. -/
def AtomOp.bRegs (o : AtomOp) : Nat :=
  match o with
  | .cas64 => 4
  | .cas32 => 2
  | .add64 => 2
  | .xchg64 => 2
  | _ => 1

end Sys2Proof

namespace Sys2Proof.Machine

/-- The read and the write of one lane, one indivisible step at the location (R184). The requester's core sees its own write, and no copy older than what
a `cas` that made none has read (07 R154). -/
def State.applyAtom (s : State) (x : Asker) (o : AtomOp) (through : Bool) (locs : List Nat) (b1 b2 : DWord) : DWord × State :=
  let old : DWord := BitVec.ofNat 64 (bytesToNat (locs.map s.readByte))
  match o.new old b1 b2 with
  | none => (old, (s.logRequest 2 x (locs.headD 0)).onCore x.core fun k => { k with l1 := k.l1.filter fun e => !(locs.any fun l => l / 128 == e.1) })
  | some v => (old, s.homeWrite 2 x (if through then locs.map (· / 128) else []) (locs.zip (natToBytes o.size v.toNat)))

/-- The home pod of a location (R180). -/
def Ops.podOfLoc (core l : Nat) : Nat :=
  if l / 2 ^ 64 = 3 then Ops.podOf core else Ops.homeSlice l / 4

/-- Operand b of an atomic: compare and swap values of a `cas`. -/
def Ctx.atomArgs (c : Ctx) (o : AtomOp) (b : BitVec 7) (l : Nat) : DWord × DWord :=
  match o with
  | .cas32 => ((c.rdN b.toNat l).setWidth 64, (c.rdN (b.toNat + 1) l).setWidth 64)
  | .cas64 => (c.rd64 b l, pairOf (c.rdN (b.toNat + 2) l) (c.rdN (b.toNat + 3) l))
  | _ => (if o.size = 8 then c.rd64 b l else (c.rd b l).setWidth 64, 0)

/-- The core's stores in flight to any of the locations must be performed before an atomic on them. -/
def State.drainFor (s : State) (core : Nat) (locs : List Nat) : Option State :=
  if (s.core core).stores.any fun p => p.cells.any fun c => locs.contains c.1 then s.drain core else some s

/-- An atomic word: every pointer checked at issue, one request a lane in lane order; the old values arrive under the set-flag (R182-R184). -/
def Ops.atomWord (o : AtomOp) (d a b : BitVec 7) : State → Host.Outcome State Fault Refusal :=
  let nd := o.size / 4
  let none' := decide (d = 96)
  Ops.word { priv := false,
             opnd := isEven a && (none' || (!isS d && (nd = 1 || isEven d))) && (if o.bRegs = 4 then isQuad b else if o.bRegs = 2 then isEven b else true),
             uses := [useN a 2, useN b o.bRegs, useN d (if none' then 1 else nd)] } fun c s =>
    let ag := s.agentOf c.u.group c.g
    let ptrs := (members c.exec).map fun l => (some l, c.rd64 a l)
    if ptrs.any fun p => s.entryHeld ag p.2 then .stall
    else match s.checkAll ag atomSpaces o.size .atomic ptrs with
    | .error e => .trapWalked (s.walks ag atomSpaces o.size .atomic (ptrs.map (·.2))) (c.ptrTrap e.1 e.2)
    | .ok ts =>
      let locs (t : Target) : List Nat := (List.range o.size).map fun i => t.locs.headD 0 + i
      match s.drainFor ag.core (ts.flatMap fun t => locs t.2) with
      | none => .stall
      | some s1 =>
        let s2 := (each ts (fun t s => s.observe ag (t.2.locs.headD 0)) s1).walks ag atomSpaces o.size .atomic (ptrs.map (·.2))
        let id := s2.nextId
        let reqs := ts.map fun t =>
          let l := t.1.getD 0
          let bs := c.atomArgs o b l
          ({ pod := Ops.podOfLoc ag.core (t.2.locs.headD 0), group := c.u.group, op := id, lane := l, ask := .atom o (locs t.2) bs.1 bs.2, through := t.2.type == 2 } : Request)
        let op := if none' then c.longOp else c.longOp.marks d nd
        ({ s2 with net := s2.net ++ reqs }).issueLong c { op with waiting := reqs.length, ptrs := ptrs.map fun (p : Option Nat × DWord) => (p.1.getD 0, p.2), dest := d.toNat, code := o.size }

def execAtomAddI32 (d a b : BitVec 7) (s : State) : Host.Outcome State Fault Refusal := Ops.atomWord .add32 d a b s
def execAtomAddI64 (d a b : BitVec 7) (s : State) : Host.Outcome State Fault Refusal := Ops.atomWord .add64 d a b s
def execAtomMinI32 (d a b : BitVec 7) (s : State) : Host.Outcome State Fault Refusal := Ops.atomWord .minS d a b s
def execAtomMaxI32 (d a b : BitVec 7) (s : State) : Host.Outcome State Fault Refusal := Ops.atomWord .maxS d a b s
def execAtomMinN32 (d a b : BitVec 7) (s : State) : Host.Outcome State Fault Refusal := Ops.atomWord .minU d a b s
def execAtomMaxN32 (d a b : BitVec 7) (s : State) : Host.Outcome State Fault Refusal := Ops.atomWord .maxU d a b s
def execAtomAnd32 (d a b : BitVec 7) (s : State) : Host.Outcome State Fault Refusal := Ops.atomWord .and d a b s
def execAtomOr32 (d a b : BitVec 7) (s : State) : Host.Outcome State Fault Refusal := Ops.atomWord .or d a b s
def execAtomXor32 (d a b : BitVec 7) (s : State) : Host.Outcome State Fault Refusal := Ops.atomWord .xor d a b s
def execAtomXchg32 (d a b : BitVec 7) (s : State) : Host.Outcome State Fault Refusal := Ops.atomWord .xchg32 d a b s
def execAtomXchg64 (d a b : BitVec 7) (s : State) : Host.Outcome State Fault Refusal := Ops.atomWord .xchg64 d a b s
def execAtomCas32 (d a b : BitVec 7) (s : State) : Host.Outcome State Fault Refusal := Ops.atomWord .cas32 d a b s
def execAtomCas64 (d a b : BitVec 7) (s : State) : Host.Outcome State Fault Refusal := Ops.atomWord .cas64 d a b s
def execAtomAddF32 (d a b : BitVec 7) (s : State) : Host.Outcome State Fault Refusal := Ops.atomWord .addF32 d a b s
def execAtomIncN32 (d a b : BitVec 7) (s : State) : Host.Outcome State Fault Refusal := Ops.atomWord .inc d a b s
def execAtomDecN32 (d a b : BitVec 7) (s : State) : Host.Outcome State Fault Refusal := Ops.atomWord .dec d a b s

/-! Waypoint words (R191-R198). -/

/-- The requesting lanes with their keys: each active lane, or the lowest one where A is an s pair (R192). -/
def Ctx.wayKeys (c : Ctx) (a : BitVec 7) : Tab DWord :=
  if isS a then (if c.exec = 0 then [] else [(c.firstLane, c.rd64 a 0)]) else (members c.exec).map fun l => (l, c.rd64 a l)

/-- The lowest lane whose key another requesting lane also names. -/
def sharedKey (ks : Tab DWord) : Option (Nat × DWord) := ks.find? fun e => ks.any fun f => f.1 ≠ e.1 && f.2 == e.2

/-- The first part of a way word: its requests on their way to their pods. -/
def State.sendWay (s : State) (gid op : Nat) (ks : Tab DWord) (ask : Nat → DWord → Ask) : State :=
  { s with net := s.net ++ ks.map fun e => ({ pod := Ops.podOfKey e.2, group := gid, op := op, lane := e.1, ask := ask e.1 e.2 } : Request) }

def Ctx.wayOp (c : Ctx) (s : State) (minor : Nat) (ks : Tab DWord) : WayOp :=
  { minor := minor, word := c.u.word, pc := c.u.pc, slices := c.u.slices, exec := c.exec, keys := ks, start := c.g.time (s.nowOf c.g),
    limit := c.g.wayto.toNat, waiting := ks.length, granted := [], failed := [] }

/-- A way word that holds its split until its pods have answered. -/
def State.holdWay (s : State) (c : Ctx) (minor : Nat) (ks : Tab DWord) (ask : Nat → DWord → Ask) : State :=
  let id := s.nextId
  ((({ s with nextId := id + 1 }).sendWay c.u.group id ks ask).onGroup c.u.group fun g =>
    { g with ways := Tab.put g.ways id (c.wayOp s minor ks) }).waitFor c.u (.way id)

def waySig (a : BitVec 7) (more : List Use) : Sig := { priv := false, opnd := isEven a, uses := useN a 2 :: more }

/-- WAYDUP before anything is sent (R192). -/
def Ctx.dupTrap (c : Ctx) (key : DWord) : Res := .trap { c.trap 7 0x12 with faddr := key }

def execWayin (a b : BitVec 7) (s : State) : Host.Outcome State Fault Refusal :=
  Ops.word (waySig a [use b]) (fun c s =>
    let ks := c.wayKeys a
    match sharedKey ks with
    | some e => c.dupTrap e.2
    | none =>
      if ks.isEmpty then .ok (if isS a then s else s.acquire (s.coreOf c.g) 2)
      else .ok (s.holdWay c 0 ks fun l k => .wayin k (c.rd b l))) s

/-- `wayout`: its release at device scope before any section is freed (R194). -/
def execWayout (a : BitVec 7) (s : State) : Host.Outcome State Fault Refusal :=
  Ops.word (waySig a []) (fun c s =>
    let ks := c.wayKeys a
    if isS a && ks.isEmpty then .ok s
    else match s.release c.u.group (s.coreOf c.g) 2 with
      | none => .stall
      | some s1 => .ok (if ks.isEmpty then s1 else s1.holdWay c 1 ks fun _ k => .wayout k)) s

def execWayskip (a b : BitVec 7) (s : State) : Host.Outcome State Fault Refusal :=
  Ops.word (waySig a [use b]) (fun c s =>
    let ks := c.wayKeys a
    match sharedKey ks with
    | some e => c.dupTrap e.2
    | none => .ok (if ks.isEmpty then s else s.holdWay c 2 ks fun l k => .wayskip k (c.rd b l))) s

def execWayclose (a : BitVec 7) (s : State) : Host.Outcome State Fault Refusal :=
  Ops.word (waySig a []) (fun c s =>
    let ks := c.wayKeys a
    .ok (if ks.isEmpty then s else s.holdWay c 4 ks fun _ k => .wayclose k)) s

/-- A long-latency way word: its results come with its replies; without a requesting lane it asks nothing. -/
def State.longWay (s : State) (c : Ctx) (minor : Nat) (op : LongOp) (ks : Tab DWord) (ask : Nat → DWord → Ask) : Res :=
  let id := s.nextId
  if ks.isEmpty then s.issueLong c op
  else match s.issueLong c { op with waiting := ks.length } with
  | .ok s1 => .ok ((s1.sendWay c.u.group id ks ask).onGroup c.u.group fun g => { g with ways := Tab.put g.ways id (c.wayOp s minor ks) })
  | r => r

/-- `waytry`: the mask of the granted lanes; nothing at all for an s pair and an empty EXEC. -/
def execWaytry (d : BitVec 3) (a b : BitVec 7) (s : State) : Host.Outcome State Fault Refusal :=
  Ops.word (waySig a [use b]) (fun c s =>
    let ks := c.wayKeys a
    match sharedKey ks with
    | some e => c.dupTrap e.2
    | none =>
      let op := c.longOp
      s.longWay c 3 { op with mask := if isS a && ks.isEmpty then none else some (d.toNat, 0) } ks fun l k => .waytry k (c.rd b l)) s

/-- `wayqry`. -/
def execWayqry (d a : BitVec 7) (s : State) : Host.Outcome State Fault Refusal :=
  Ops.word { priv := false, opnd := isEven a && isEven d && !isS d, uses := [useN a 2, useN d 2] } (fun c s =>
    let op := c.longOp.marks d 2
    s.longWay c 5 { op with dest := d.toNat } (c.wayKeys a) fun _ k => .wayqry k) s

/-! The service groups (R181, R188-R198). -/

def WayEntry.new (ext : Bool) : WayEntry := { next := 0, holder := none, poison := false, waits := [], skips := [], ext := ext }

/-- Entries of a pod's table at a level, and its wait and skip records. -/
def State.podEntries (s : State) (pod : Nat) : List WayEntry :=
  (s.waypoints.filter fun e => Ops.podOfKey (BitVec.ofNat 64 e.1) = pod).map (·.2)
def State.podRecords (s : State) (pod : Nat) : Nat := ((s.podEntries pod).map fun e => e.waits.length + e.skips.length).foldl (· + ·) 0

/-- The entry of a key, made where there is none and a level has room (R188). -/
def State.wayEntry (s : State) (key : DWord) : Option WayEntry :=
  match s.way key with
  | some e => some e
  | none =>
    let es := s.podEntries (Ops.podOfKey key)
    if (es.filter fun e => !e.ext).length < 1024 then some (WayEntry.new false)
    else if (es.filter (·.ext)).length < 16384 then some (WayEntry.new true)
    else none

/-- The number is in use (R189). -/
def WayEntry.inUse (e : WayEntry) (seq : Word) : Bool :=
  decide (2 ^ 31 ≤ (seq - e.next).toNat) || (e.waits.any fun w => w.seq == seq) || (e.skips.any fun k => k.seq == seq)
  || (e.holder.isSome && seq == e.next)

/-- Waits recorded for a lane, each of which is to become a section. -/
def State.waitsOf (s : State) (gid lane : Nat) : Nat :=
  (s.waypoints.map fun e => (e.2.waits.filter fun w => w.group == gid && w.lane == lane).length).foldl (· + ·) 0

/-- Why a lane's request on a number is refused: poison, a number in use, a 16th section, those the lane waits for counted with those it holds (R193, R195,
R196, R199; log entry 80). -/
def State.wayRefusal (s : State) (gid lane : Nat) (takes : Bool) (key : DWord) (seq : Word) : Option (BitVec 8) :=
  let e := (s.way key).getD (WayEntry.new false)
  let held := match Tab.find s.groups gid with
    | some g => Tab.get 0 g.sections lane
    | none => 0
  if e.poison then some 0x10 else if e.inUse seq then some 0x12 else if takes && decide (15 ≤ held + s.waitsOf gid lane) then some 0x11 else none

/-- Puts an entry. -/
def State.putWay (s : State) (key : DWord) (e : WayEntry) : State := { s with waypoints := Tab.put s.waypoints key.toNat e }

/-- Both pools of records of the pod are full. -/
def State.recordsFull (s : State) (key : DWord) : Bool := decide (1024 + 16384 ≤ s.podRecords (Ops.podOfKey key))

def State.answer (s : State) (r : Request) (a : Answer) : State :=
  { s with replies := s.replies ++ [{ pod := r.pod, group := r.group, op := r.op, lane := r.lane, answer := a }] }

/-- Serves one request. A request that is refused makes no entry (log entry 68). -/
def State.serve (s : State) (r : Request) : State :=
  match r.ask with
  | .atom o locs b1 b2 =>
    let core := ((Tab.find s.groups r.group).map s.coreOf).getD 0
    let x := s.applyAtom (s.askerOf core r.group) o r.through locs b1 b2
    x.2.answer r (.old x.1)
  | .wayin key seq =>
    match s.wayRefusal r.group r.lane true key seq with
    | some c => s.answer r (.failed c)
    | none => match s.wayEntry key with
      | none => s.answer r (.failed 0x11)
      | some e =>
        if s.recordsFull key then s.answer r (.failed 0x11)
        else
          let s1 := s.putWay key { e with waits := e.waits ++ [{ seq := seq, group := r.group, op := r.op, lane := r.lane }] }
          let s2 := if e.holder.isSome then { s1 with probes := s1.probes ++ [(r.group, r.op)] } else s1
          s2.settleKey key
  | .wayout key =>
    match s.way key with
    | some e =>
      if (e.holder.map fun h => (h.1, h.2.1)) = some (r.group, r.lane) then
        let s1 := (s.putWay key { e with holder := none, next := e.next + 1 }).onGroup r.group fun g => g.dropSection r.lane
        (s1.settleKey key).answer r .done
      else s.answer r (.failed 0x12)
    | none => s.answer r (.failed 0x12)
  | .wayskip key seq =>
    match s.wayRefusal r.group r.lane false key seq with
    | some c => s.answer r (.failed c)
    | none => match s.wayEntry key with
      | none => s.answer r (.failed 0x11)
      | some e =>
        if s.recordsFull key then s.answer r (.failed 0x11)
        else (s.putWay key { e with skips := e.skips ++ [{ seq := seq, firm := false, group := r.group, op := r.op, lane := r.lane }] }).answer r .done
  | .waytry key seq =>
    match s.wayRefusal r.group r.lane true key seq with
    | some c => s.answer r (.failed c)
    | none => match s.wayEntry key with
      | none => s.answer r (.failed 0x11)
      | some e =>
        if e.holder.isNone && seq == e.next then
          let s1 := (s.putWay key { e with holder := some (r.group, r.lane, r.op) }).onGroup r.group fun g => g.addSection r.lane
          State.answer { s1 with probes := s1.probes ++ WayEntry.checks r.group e.waits } r .granted
        else (s.putWay key e).answer r .notGranted
  | .wayclose key =>
    match s.way key with
    | none => s.answer r .done
    | some e =>
      if e.poison || (e.holder.isNone && e.waits.isEmpty && e.skips.isEmpty)
      then ({ s with waypoints := Tab.erase s.waypoints key.toNat }).answer r .done
      else s.answer r (.failed 0x12)
  | .wayqry key =>
    match s.way key with
    | none => s.answer r (.status 0 0)
    | some e => s.answer r (.status e.next (BitVec.ofNat 32 (2 ^ 31 + e.holder.isSome.toNat * 2 ^ 30 + e.poison.toNat * 2 ^ 29 + e.ext.toNat * 2 ^ 28
        + min 255 e.waits.length * 2 ^ 8 + min 255 e.skips.length)))

/-- SERVICE_REQUEST_ENQUEUE (R181, R182): a request of some group, its oldest to the pod, enters the pod's queue where it has room; the choice says whose. -/
def execServiceRequestEnqueue (pod : Nat) (s : State) : Host.Outcome State Fault Refusal :=
  let here := s.net.filter fun r => r.pod = pod
  let groups := (here.map (·.group)).eraseDups
  let q := Tab.get [] s.podQ pod
  match groups[s.pick % groups.length]? with
  | none => .next s
  | some g => match here.find? fun r => r.group = g with
    | none => .next s
    | some r =>
      if 256 ≤ q.length then .next s
      else .next { s with net := s.net.erase r, podQ := Tab.set [] s.podQ pod (q ++ [r]) }

/-- A request that waits at the home slice: its location lies in a pseudo-channel held back. -/
def State.asksHeld (s : State) (r : Request) : Bool :=
  match r.ask with
  | .atom _ locs _ _ => locs.any s.heldAt
  | _ => false

/-- The word is withdrawn whole and faults in a cycle (R193). -/
def State.failWayin (s : State) (gid op : Nat) (w : WayOp) (cause : BitVec 8) (lane born : Nat) : State :=
  ((s.withdrawKeys gid op w.keys).endWay gid op).presentTrapAt gid (w.trap cause (Tab.get 0 w.keys lane) w.exec) (some op) born

/-- The lowest lane of a list of failures, with its cause. -/
def lowestFailure : Tab (BitVec 8) → Option (Nat × BitVec 8)
  | [] => none
  | e :: t => match lowestFailure t with
    | some f => if f.1 < e.1 then some f else some e
    | none => some e

/-- A `wayin` one of whose lanes was refused fails once every home has taken up its requests, by its lowest failing lane (R193). -/
def State.failKnown (s : State) (gid op : Nat) : State :=
  let mine (g o : Nat) : Bool := g == gid && o == op
  match (Tab.find s.groups gid).bind fun g => (Tab.find g.ways op).map fun w => (w, s.nowOf g) with
  | none => s
  | some (w, now) =>
    let late : Tab (BitVec 8) := s.replies.filterMap fun r => match r.answer with
      | .failed c => if mine r.group r.op then some (r.lane, c) else none
      | _ => none
    if w.minor ≠ 0 ∨ w.failed = [] ∨ s.net.any (fun r => mine r.group r.op) ∨ s.podQ.any (fun q => q.2.any fun r => mine r.group r.op) then s
    else match lowestFailure (w.failed ++ late) with
      | some (l, cause) => s.failWayin gid op w cause l now
      | none => s

/-- SERVICE_ROUND (R181): up to 64 requests from the head of the queue, in queue order; those that wait at a home slice stay. -/
def execServiceRound (pod : Nat) (s : State) : Host.Outcome State Fault Refusal :=
  let q := Tab.get [] s.podQ pod
  let batch := q.take 64
  let now := batch.filter fun r => !s.asksHeld r
  let s1 := { s with podQ := Tab.set [] s.podQ pod ((batch.filter s.asksHeld) ++ q.drop 64) }
  .next (each now (fun r s => match r.ask with
    | .wayin _ _ => s.failKnown r.group r.op
    | _ => s) (each now (fun r s => s.serve r) s1))

/-! Replies and what the core makes of them. -/

/-- A word whose last reply has come: `wayout` and `wayclose` end here, `waytry` and `wayqry` leave their results to be written. -/
def State.wayAnswered (s : State) (gid op : Nat) (w : WayOp) : State :=
  match lowestFailure w.failed with
  | some (l, cause) =>
    let key := Tab.get 0 w.keys l
    let lanes := if w.minor = 1 then bitSet 128 fun i => (Tab.find w.failed i).isSome else w.exec
    if w.minor = 3 then
      let s1 := s.withdrawKeys gid op w.keys
      s1.onGroup gid fun g => { g with ways := Tab.erase g.ways op, longs := Tab.change g.longs op fun o => { o with fault := some (w.trap cause key lanes) } }
    else if w.minor = 2 ∨ w.minor = 0 then s
    else (s.endWay gid op).presentTrap gid (w.trap cause key lanes) (some op)
  | none =>
    if w.minor = 3 then
      s.onGroup gid fun g =>
        { g with ways := Tab.erase g.ways op,
                 longs := Tab.change g.longs op fun o =>
                   { o with mask := o.mask.map fun m => (m.1, bitSet 128 w.granted.contains), acquire := if w.granted = [] then none else some 2 } }
    else if w.minor = 5 then s.onGroup gid fun g => { g with ways := Tab.erase g.ways op }
    else if w.minor = 1 ∨ w.minor = 4 then s.endWay gid op
    else s

/-- The reply of one lane of a way word. -/
def State.wayReply (s : State) (r : Reply) (w : WayOp) : State :=
  let got : WayOp := { w with waiting := w.waiting - 1 }
  let keep (x : WayOp) (s : State) : State := s.onGroup r.group fun g => { g with ways := Tab.put g.ways r.op x }
  let lessWaiting (s : State) : State := s.onGroup r.group fun g => { g with longs := Tab.change g.longs r.op fun o => { o with waiting := o.waiting - 1 } }
  let next (x : WayOp) (s : State) : State := if x.waiting = 0 then s.wayAnswered r.group r.op x else s
  match r.answer with
  | .failed c =>
    let x := { got with failed := if (Tab.find w.failed r.lane).isSome then w.failed else Tab.put w.failed r.lane c }
    if w.minor = 0 then (keep x s).failKnown r.group r.op
    else next x (keep x (lessWaiting s))
  | .granted =>
    let x := { got with granted := w.granted ++ [r.lane] }
    next x (keep x (lessWaiting s))
  | .status n st =>
    let outs (o : LongOp) : List (Nat × Word) :=
      let lanes := if w.keys.length = 1 ∧ 96 ≤ bitsAt w.word.toNat 7 7 then members w.exec else [r.lane]
      lanes.flatMap fun l => [(o.dest * 128 + l, n), ((o.dest + 1) * 128 + l, st)]
    let s1 := s.onGroup r.group fun g => { g with longs := Tab.change g.longs r.op fun o => { o with waiting := o.waiting - 1, vWrites := o.vWrites ++ outs o } }
    next got (keep got s1)
  | _ => next got (keep got (lessWaiting s))

/-- The old value of one lane of an atomic. -/
def LongOp.oldValue (lane : Nat) (v : DWord) (o : LongOp) : LongOp :=
  let ws := if o.dest = 96 then [] else if o.code = 8 then [(o.dest * 128 + lane, loHalf v), ((o.dest + 1) * 128 + lane, hiHalf v)] else [(o.dest * 128 + lane, loHalf v)]
  { o with waiting := o.waiting - 1, vWrites := o.vWrites ++ ws }

/-- SERVICE_REPLY (R181): the oldest reply of a pod reaches its return slot. -/
def execServiceReply (pod : Nat) (s : State) : Host.Outcome State Fault Refusal :=
  match s.replies.find? fun r => r.pod = pod with
  | none => .next s
  | some r =>
    let s1 := { s with replies := s.replies.erase r }
    match Tab.find s1.groups r.group with
    | none => .next s1
    | some g => match r.answer with
      | .old v => .next (s1.onGroup r.group fun g => { g with longs := Tab.change g.longs r.op (LongOp.oldValue r.lane v) })
      | _ => match Tab.find g.ways r.op with
        | none => .next s1
        | some w => .next (s1.wayReply r w)

/-- WAYIN_COMPLETE (R193): every lane granted; one acquire at device scope. -/
def execWayinComplete (group op : Nat) (s : State) : Host.Outcome State Fault Refusal :=
  match Tab.find s.groups group with
  | none => .next s
  | some g => match Tab.find g.ways op with
    | none => .next s
    | some w =>
      if w.minor = 0 ∧ w.waiting = 0 ∧ w.failed = [] then .next ((s.acquire (s.coreOf g) 2).endWay group op) else .next s

/-- WAYIN_TIMEOUT (R202): tested on the cycle just over, whose grants have all come, and presented in it; the key is that of the lowest lane not
granted. -/
def execWayinTimeout (group op : Nat) (s : State) : Host.Outcome State Fault Refusal :=
  match Tab.find s.groups group with
  | none => .next s
  | some g => match Tab.find g.ways op with
    | none => .next s
    | some w =>
      if w.timedOut g (s.nowOf g - 1) then
        .next (s.failWayin group op w 0x0F w.lateLane (s.nowOf g - 1))
      else .next s

/-! Deadlock (R200, R201). -/

/-- The groups that hold a section on which a wait of group g stands. -/
def State.waitsFor (s : State) (g : Nat) : List Nat :=
  ((s.waypoints.filter fun e => e.2.waits.any fun w => w.group = g).filterMap fun e => e.2.holder.map (·.1)).eraseDups

/-- A wait-for path from group x returns to g within n more steps. -/
def State.leadsBack (s : State) (g : Nat) : Nat → Nat → Bool
  | 0, x => x == g
  | n + 1, x => x == g || (s.waitsFor x).any (s.leadsBack g n)

/-- WAYPOINT_PROBE (R200): the wait-for paths from the waiting group through at most four groups; a path that returns
fails the word for the lane whose wait closes it, once every home has taken up the word's requests, by its lowest failing lane (log entry 69). -/
def execWaypointProbe (group op : Nat) (s : State) : Host.Outcome State Fault Refusal :=
  let s1 := { s with probes := s.probes.erase (group, op) }
  match Tab.find s1.groups group with
  | none => .next s1
  | some g => match Tab.find g.ways op with
    | none => .next s1
    | some w =>
      let closes (e : Nat × DWord) : Bool := match s1.way e.2 with
        | some x => (x.waits.any fun y => y.group == group && y.op == op && y.lane == e.1) && match x.holder with
          | some h => s1.leadsBack group 3 h.1
          | none => false
        | none => false
      match w.keys.find? closes with
      | some e => .next ((s1.onGroup group fun g =>
          { g with ways := Tab.change g.ways op fun w => { w with failed := Tab.put w.failed e.1 0x0E } }).failKnown group op)
      | none => .next s1

/-- WAYPOINT_POISON (R203): every key the lane holds is poisoned and freed, and the waits on it fail, in all 48 service groups in one step (log entry
81). -/
def execWaypointPoison (group lane : Nat) (s : State) : Host.Outcome State Fault Refusal :=
  let s1 := { s with poisons := s.poisons.erase (group, lane) }
  let mine (e : WayEntry) : Bool := (e.holder.map fun h => (h.1, h.2.1)) == some (group, lane)
  let keys := (s1.waypoints.filter fun e => mine e.2).map (·.1)
  let poison (k : Nat) (s : State) : State := match Tab.find s.waypoints k with
    | none => s
    | some e =>
      let key : DWord := BitVec.ofNat 64 k
      let s2 := s.putWay key { e with poison := true, holder := none, waits := [] }
      let rs := e.waits.map fun w => ({ pod := Ops.podOfKey key, group := w.group, op := w.op, lane := w.lane, answer := .failed 0x10 } : Reply)
      State.settleKey { s2 with replies := s2.replies ++ rs } key
  .next ((each keys poison s1).onGroup group fun g => { g with sections := Tab.erase g.sections lane })

/-! Skips (R195). -/

/-- The word's skips, changed entry by entry and settled. -/
def State.onSkips (s : State) (gid op : Nat) (w : WayOp) (f : WaySkip → Option WaySkip) : State :=
  each w.keys (fun e s => match s.way e.2 with
    | none => s
    | some x =>
      let ks := x.skips.filterMap fun k => if k.group == gid && k.op == op then f k else some k
      (s.putWay e.2 { x with skips := ks }).settleKey e.2) s

/-- WAYSKIP_FIRM: every requesting lane has been accepted. -/
def execWayskipFirm (group op : Nat) (s : State) : Host.Outcome State Fault Refusal :=
  match (Tab.find s.groups group).bind fun g => Tab.find g.ways op with
  | none => .next s
  | some w =>
    if w.minor = 2 ∧ w.waiting = 0 ∧ w.failed = [] then .next ((s.onSkips group op w fun k => some { k with firm := true }).endWay group op) else .next s

/-- WAYSKIP_REMOVE: a lane was refused; the word records no skip and faults. -/
def execWayskipRemove (group op : Nat) (s : State) : Host.Outcome State Fault Refusal :=
  match (Tab.find s.groups group).bind fun g => Tab.find g.ways op with
  | none => .next s
  | some w => match lowestFailure w.failed with
    | none => .next s
    | some (l, cause) =>
      if w.minor = 2 ∧ w.waiting = 0 then
        .next (((s.onSkips group op w fun _ => none).endWay group op).presentTrap group (w.trap cause (Tab.get 0 w.keys l) w.exec) (some op))
      else .next s

end Sys2Proof.Machine
end

