-- ==== Sys2Proof/Machine/Link.lean ====
section
/-! DEFINITION. The link engine (spec/15): collectives at their HOME, peer transfers, and what the Byuth ports do to accesses under way. -/

namespace Sys2Proof.Machine

/-! Collectives (15 R316-R321). -/

/-- The fields of Table LNK-2. -/
structure CollPar where
  count : Nat
  index : Nat
  terms : Nat
  op    : Nat
  fmt   : Nat
  k     : Nat
  home  : Nat
  root  : Nat
  clean : Bool

def EngCmd.collPar (x : EngCmd) : CollPar :=
  let w (i : Nat) : Nat := (x.par i).toNat
  { count := bitsAt (w 6) 0 24, index := bitsAt (w 7) 0 16, terms := bitsAt (w 7) 16 16 + 1, op := bitsAt (w 8) 0 4, fmt := bitsAt (w 8) 4 4,
    k := bitsAt (w 8) 8 4, home := bitsAt (w 8) 12 6, root := bitsAt (w 9) 0 16,
    clean := bitsAt (w 6) 24 8 == 0 && bitsAt (w 8) 18 14 == 0 && bitsAt (w 9) 16 16 == 0 }

/-- R316: the limits of a minor hold. -/
def CollPar.ok (b : CollPar) (minor : Nat) : Bool :=
  b.clean && b.count != 0 && decide (b.index < b.terms) && decide (b.op ≤ 2) && decide (b.fmt ≤ 2)
  && (if minor = 2 then decide (b.root < b.terms) else b.root == 0)
  && (if minor = 1 then b.op == 0 && b.fmt == 0 && decide (2 ≤ b.k) && decide (b.k ≤ 8) else b.k == 0)
  && (decide (minor < 2) || b.op == 0)

/-- Bytes of an element. -/
def CollPar.size (b : CollPar) : Nat := if b.fmt = 1 then 2 else 4

def linkSrc : List Nat := [0, 1, 2, 8, 10, 4, 5]
def linkDst : List Nat := [0, 1, 2, 8, 10, 4, 5, 6]

/-- Elements from bytes. -/
def wordsOf (size n : Nat) (bytes : List Byte) : List Word :=
  (List.range n).map fun i => BitVec.ofNat 32 (bytesToNat ((bytes.drop (size * i)).take size))
def bytesOf (size : Nat) (ws : List Word) : List Byte := ws.flatMap fun w => natToBytes size w.toNat

/-- One element of a block that `coll.redq` quantises: what HOME converts it to, and its residual (15 R320), +0 where it is exactly 0 (log entry 85). -/
def quantElement (k : Nat) (e : Int) (x : Word) : Word × Word :=
  match Fmt.f32.num x.toNat with
  | .fin neg m ex =>
    let sc : Int := e - 127 - ((k : Int) - 1)
    let u := inUnits m ex sc
    let mag : Int := roundMag .rne neg u.1 u.2.1 u.2.2 false
    let q : Int := max (-(2 ^ (k - 1))) (min (2 ^ (k - 1) - 1) (if neg then -mag else mag))
    let res := Fmt.f32.sum .rne [.fin neg m ex, .fin (decide (0 < q)) q.natAbs sc]
    (bfpElement k e q, BitVec.ofNat 32 res.bits)
  | _ => (BitVec.ofNat 32 Fmt.f32.canon, 0)

/-- One block of x' = SRC + RES: its elements as HOME takes them, and the new residuals. E is an integer of any size (00 R5), below 0 for a block under
2^-128 (log entry 26). -/
def quantBlock (k : Nat) (xs : List Word) : List (Word × Word) :=
  let mags := xs.map fun x => x.toNat % 2 ^ 31
  let top := mags.foldl max 0
  let nanAll := xs.map fun _ => (BitVec.ofNat 32 Fmt.f32.canon, (0 : Word))
  if 0x7F800000 ≤ top then nanAll
  else match Fmt.f32.num top with
    | .fin _ m ex =>
      let e : Int := if m = 0 then 0 else ((m.log2 : Int) + ex) + 128
      if 254 < e then nanAll else xs.map (quantElement k e)
    | _ => nanAll

/-- The elements in blocks of 32. -/
def quantAll (k : Nat) : Nat → List Word → List (Word × Word)
  | 0, _ => []
  | n + 1, xs => quantBlock k (xs.take 32) ++ quantAll k n (xs.drop 32)

/-- What a contribution reads and, for `coll.redq`, the residuals it writes: the state and the elements. RES is written once all of SRC and RES has been
read (log entry 84). -/
def State.collData (s : State) (x : EngCmd) (minor choice : Nat) : RowOut (State × List Word) :=
  let b := x.collPar
  let a := s.agentFor x
  if minor = 2 ∧ b.index ≠ b.root then .ok (s, [])
  else match s.readRow a choice linkSrc b.size b.count (x.ptr 0) with
    | .fault f _ => .fault f (s, [])
    | .waits => .waits
    | .ok (s1, src) =>
      let xs := wordsOf b.size b.count src
      if minor ≠ 1 then .ok (s1, xs)
      else match s1.readRow a choice [0, 8] 4 b.count (x.ptr 10) with
        | .fault f _ => .fault f (s1, [])
        | .waits => .waits
        | .ok (s2, r) =>
          let rs := wordsOf 4 b.count r
          let sums := (xs.zip rs).map fun e => BitVec.ofNat 32 (Fmt.f32.add .rne e.1.toNat e.2.toNat).bits
          let q := quantAll b.k (b.count / 32 + 1) sums
          match s2.writeRow a choice [0, 8] 4 (x.ptr 10) (bytesOf 4 (q.map (·.2))) with
          | .fault f t => .fault f (t, [])
          | .waits => .waits
          | .ok t => .ok (t, q.map (·.1))

/-- The contribution a command sends, after its acquire and its reads. -/
def State.contribution (s : State) (core : Nat) (x : EngCmd) (minor choice : Nat) : RowOut (State × Contribution) :=
  let b := x.collPar
  let con (d : List Word) : Contribution :=
    { id := x.ptr 4, home := b.home, minor := minor, count := b.count, terms := b.terms, op := b.op, fmt := b.fmt, k := b.k, root := b.root,
      index := b.index, peer := none, core := core, cmd := x.id, data := d }
  match (s.beginAq core x.scope x.aq).collData x minor choice with
  | .ok r => .ok (r.1, con r.2)
  | .fault f r => .fault f (r.1, con [])
  | .waits => .waits

/-! HOME. -/

/-- Combine of R319. -/
def combine (op fmt : Nat) (a b : Word) : Word :=
  if fmt = 2 then (match op with
    | 0 => a + b
    | 1 => if a.toInt ≤ b.toInt then b else a
    | _ => if a.toInt ≤ b.toInt then a else b)
  else BitVec.ofNat 32 (match op with
    | 0 => (Fmt.f32.add .rne a.toNat b.toNat).bits
    | 1 => (Fmt.f32.max a.toNat b.toNat).bits
    | _ => (Fmt.f32.min a.toNat b.toNat).bits)

/-- node(lvl, n) over the leaves. -/
def treeNode (op fmt : Nat) (leaf : Nat → Option Word) : Nat → Nat → Option Word
  | 0, n => leaf n
  | lvl + 1, n => match treeNode op fmt leaf lvl (2 * n), treeNode op fmt leaf lvl (2 * n + 1) with
    | some a, some b => some (combine op fmt a b)
    | some a, none => some a
    | none, x => x

/-- The smallest h with 2^h ≥ n. -/
def treeHeight (n : Nat) : Nat := if n ≤ 1 then 0 else (n - 1).log2 + 1

/-- The root as it is written: NaNs canonical, BF16 rounded once. -/
def treeRoot (fmt : Nat) (x : Word) : Word :=
  if fmt = 0 then (if Fmt.f32.isNan x.toNat then BitVec.ofNat 32 Fmt.f32.canon else x)
  else if fmt = 1 then BitVec.ofNat 32 (Fmt.f32.convert Fmt.bf16 .rne x.toNat).bits
  else x

/-- The result of a complete instance, as the bytes every DST receives. -/
def Collective.result (c : Collective) : List Byte :=
  let f := c.first
  let size := if f.fmt = 1 then 2 else 4
  let part (i : Nat) : List Word := ((c.parts.find? fun p => p.index = i).map (·.data)).getD []
  if f.minor = 2 then bytesOf size (part f.root)
  else if f.minor = 3 then (List.range f.terms).flatMap fun i => bytesOf size (part i)
  else
    let wide (x : Word) : Word := if f.fmt = 1 then x <<< 16 else x
    let leaf (e i : Nat) : Option Word := if i < f.terms then some (wide ((part i).getD e 0)) else none
    bytesOf size ((List.range f.count).map fun e => treeRoot f.fmt ((treeNode f.op f.fmt (leaf e) (treeHeight f.terms) 0).getD 0))

/-- Changes every command queued on the core. -/
def Core.mapCmds (f : EngCmd → EngCmd) (k : Core) : Core :=
  { k with copyQ := k.copyQ.map f, tileQ := k.tileQ.map f, chartQ := k.chartQ.map f, bankQ := k.bankQ.map f, linkQ := k.linkQ.map f }

/-- A command's answer reaches it, wherever it is kept: that of its HOME, or the status a failing link ends it with. -/
def State.answerCmd (s : State) (id : Nat) (st : Word) (data : List Byte) : State :=
  let set (x : EngCmd) : EngCmd := if x.id = id then { x with sent := true, answer := some (st, data) } else x
  { s with cores := Tab.each s.cores fun _ k => k.mapCmds set,
           blocks := Tab.each s.blocks fun _ b => { b with kept := b.kept.map fun e => (e.1, set e.2) } }

/-- The contribution's sender is told; a peer is told over Byuth. -/
def State.tell (s : State) (c : Contribution) (st : Word) (data : List Byte) : State :=
  match c.peer with
  | none => s.answerCmd c.cmd st data
  | some _ => s

def sameTerms (a b : Contribution) : Bool :=
  a.minor == b.minor && a.count == b.count && a.terms == b.terms && a.op == b.op && a.fmt == b.fmt && a.k == b.k && a.root == b.root

/-- A contribution at HOME (15 R318). -/
def State.joinColl (s : State) (c : Contribution) : State :=
  let same (i : Collective) : Bool := i.first.id == c.id && i.first.home == c.home
  let settle (i : Collective) (others : List Collective) : State :=
    if i.parts.length = i.first.terms then each i.parts (fun p s => s.tell p 1 i.result) { s with collectives := others }
    else { s with collectives := others ++ [i] }
  match s.collectives.find? same with
  | none => if 1024 ≤ s.collectives.length then s.tell c (faultStatus 0x1B) [] else settle { first := c, parts := [c] } s.collectives
  | some i =>
    if !sameTerms i.first c || i.parts.any (fun p => p.index == c.index) then s.tell c (faultStatus 0x05) []
    else settle { i with parts := i.parts ++ [c] } (s.collectives.filter fun j => !same j)

/-- An atomic that the group issued before the command is on its way and does not wait at a pseudo-channel held back: an acquiring command follows it. -/
def State.atomsMove (s : State) (x : EngCmd) : Bool :=
  let hit (r : Request) : Bool := r.group == x.group && decide (r.op < x.id) && !s.asksHeld r && match r.ask with
    | .atom _ _ _ _ => true
    | _ => false
  x.aq && (s.net.any hit || s.podQ.any fun q => q.2.any hit)

/-- The head of a core's link queue, when it is a collective that has not been sent and may be: its acquire comes first (07 R160). -/
def State.collHead (s : State) (core : Nat) : Option (EngCmd × Nat) :=
  match (s.core core).linkQ with
  | [] => none
  | x :: _ => match x.cmd with
    | .coll minor => if x.sent || !x.collPar.ok minor || s.atomsMove x || s.aqWaits core x then none else some (x, minor)
    | _ => none

/-- The head's contribution and the state after its reads. -/
def State.collReady (s : State) (core choice : Nat) : Option (State × Contribution) :=
  match s.collHead core with
  | none => none
  | some (x, minor) => match s.contribution core x minor choice with
    | .ok r => some r
    | _ => none

def State.markSent (s : State) (core id : Nat) : State :=
  s.onCore core fun k => { k with linkQ := k.linkQ.map fun x => if x.id = id then { x with sent := true } else x }

/-- COLLECTIVE_CONTRIBUTION (15 R318): a command of this device sends what it read to its own HOME engine, or a peer's contribution arrives. -/
def execCollectiveContribution (con : Contribution) (s : State) : Host.Outcome State Fault Refusal :=
  if con.home ≠ s.device then .next s
  else match con.peer with
    | some _ => .next (s.joinColl con)
    | none => match s.collReady con.core ((s.cur.map (·.choice)).getD 0) with
      | none => .next s
      | some (s1, c) => if c = con then .next ((s1.markSent con.core con.cmd).joinColl con) else .next s

/-! The commands as they complete. -/

/-- A collective: its errors before sending, the answer of HOME, and the result written (15 R316-R318); no status while it waits. One for a HOME that no
route reaches ends with LINK after the checks of SRC and RES, with RES unwritten (log entry 84). -/
def State.runColl (s : State) (x : EngCmd) (core minor choice : Nat) : EngOut :=
  let b := x.collPar
  if !b.ok minor then .fault s 0x05
  else match x.answer with
    | some (st, data) =>
      if st ≠ 1 then .stand s (.status st)
      else match s.writeRow (s.agentFor x) choice linkDst b.size (x.ptr 2) data with
        | .ok t => .ok t
        | .fault f t => .fault t f.cause
        | .waits => x.waiting s
    | none =>
      if x.sent then x.later s
      else match s.contribution core x minor choice with
        | .fault f r => .fault r.1 f.cause
        | .waits => x.waiting s
        | .ok _ => if b.home = s.device ∨ s.routes.getLsbD b.home then x.later s else .fault s 0x1B

/-- The head of the queue leaves for a HOME at a peer. -/
def State.collLeaves (s : State) (core choice : Nat) : Option State :=
  match s.collReady core choice with
  | none => none
  | some (s1, c) => if c.home ≠ s.device ∧ s.routes.getLsbD c.home then some (s1.markSent core c.cmd) else none

/-- The slice logs see nothing of what a step does where `b` holds. -/
def State.hush (s : State) (b : Bool) : State := if b then { s with logRegs := [] } else s

/-- Moves n bytes in increasing address, from the i-th on; a line is asked for once (15 R323). -/
def State.moveBytes (s : State) (a : Agent) (choice : Nat) (from' to' : List Nat) (src dst : DWord) : Nat → Nat → RowOut State
  | _, 0 => .ok s
  | i, n + 1 =>
    let within (p : DWord) : Bool := decide (i ≠ 0) && ptrAddr p % 128 != 0
    let p := ptrAdd src i
    let q := ptrAdd dst i
    match (s.hush (within p)).readRow a choice from' 1 1 p with
    | .fault f _ => .fault f s
    | .waits => .waits
    | .ok (s1, bytes) => match (State.hush { s1 with logRegs := s.logRegs } (within q)).writeRow a 0 to' 1 q bytes with
      | .ok t => State.moveBytes { t with logRegs := s.logRegs } a choice from' to' src dst (i + 1) n
      | .fault f t => .fault f { t with logRegs := s.logRegs }
      | .waits => .waits

/-- Where the piece j of a peer transfer begins: pieces end at 4 KiB boundaries of SRC (15 R324). -/
def EngCmd.pieceAt (x : EngCmd) (j : Nat) : Nat := if j = 0 then 0 else 4096 * j - ptrAddr (x.ptr 0) % 4096

/-- A peer transfer, piece by piece (15 R323, R324). -/
def State.runPut (s : State) (x : EngCmd) (get : Bool) (choice : Nat) : EngOut :=
  let n := (x.par 4).toNat
  if n = 0 then .fault s 0x05
  else
    let a := s.agentFor x
    let off := ptrAddr (x.ptr 0) % 4096
    let one (j : Nat) (s : State) : RowOut (State × Bool) :=
      let at' := x.pieceAt j
      match s.moveBytes a choice (if get then [2] else linkSrc) (if get then linkDst else [2]) (ptrAdd (x.ptr 0) at') (ptrAdd (x.ptr 2) at') 0
          (min n (x.pieceAt (j + 1)) - at') with
      | .ok t => .ok (t, false)
      | .fault f t => .fault f (t, false)
      | .waits => .waits
    ((RowRun.start s x choice).rows ((off + n + 4095) / 4096) one).finish id

def State.runLink (s : State) (x : EngCmd) (core choice : Nat) : EngOut :=
  match x.cmd with
  | .coll minor => s.runColl x core minor choice
  | .lget => s.runPut x true choice
  | _ => s.runPut x false choice

/-! The words (15 R315, Table LNK-1). -/

def execCollRed (t p : BitVec 5) (sc : BitVec 2) (q r : BitVec 1) (s : State) : Host.Outcome State Fault Refusal := Ops.engWord false .link (.coll 0) 10 t p sc q r s
def execCollRedq (t p : BitVec 5) (sc : BitVec 2) (q r : BitVec 1) (s : State) : Host.Outcome State Fault Refusal := Ops.engWord false .link (.coll 1) 12 t p sc q r s
def execCollBcast (t p : BitVec 5) (sc : BitVec 2) (q r : BitVec 1) (s : State) : Host.Outcome State Fault Refusal := Ops.engWord false .link (.coll 2) 10 t p sc q r s
def execCollGather (t p : BitVec 5) (sc : BitVec 2) (q r : BitVec 1) (s : State) : Host.Outcome State Fault Refusal := Ops.engWord false .link (.coll 3) 10 t p sc q r s
def execLput (t p : BitVec 5) (sc : BitVec 2) (q r : BitVec 1) (s : State) : Host.Outcome State Fault Refusal := Ops.engWord false .link .lput 5 t p sc q r s
def execLget (t p : BitVec 5) (sc : BitVec 2) (q r : BitVec 1) (s : State) : Host.Outcome State Fault Refusal := Ops.engWord false .link .lget 5 t p sc q r s

/-! The ports (15 R313). -/

/-- LINK_FLIT_RETRY: a retry, which changes timing only. -/
def execLinkFlitRetry (port : BitVec 4) (s : State) : Host.Outcome State Fault Refusal :=
  .next { s with retries := Tab.set 0 s.retries port.toNat (Tab.get 0 s.retries port.toNat + 1) }

/-- VIRTUAL_CHANNEL_PAUSE: a receiver holds its sender, or lets it go on; timing only. -/
def execVirtualChannelPause (port vc : BitVec 4) (on : Bool) (s : State) : Host.Outcome State Fault Refusal :=
  let key := (port.toNat, vc.toNat)
  let rest := s.paused.filter (· ≠ key)
  .next { s with paused := if on then rest ++ [key] else rest }

/-- A command outstanding at a peer. -/
def EngCmd.outAt (x : EngCmd) (home : Nat → Bool) : Bool :=
  match x.cmd with
  | .coll _ => x.sent && x.answer.isNone && home x.collPar.home
  | _ => false

/-- An event from outside that must wait is taken again in the next cycle. -/
def State.again (s : State) (e : Instr) : State := { s with inputs := s.inputs ++ [{ due := s.cycle + 1, event := e }] }

/-- PEER_REQUEST (09 R185, 15 R313): a peer's read, write or atomic at its home slice, where a write or atomic waits while its pseudo-channel is in all-bank
mode; or the result of a collective whose HOME the peer is. -/
def execPeerRequest (peer : BitVec 6) (req : PeerReq) (s : State) : Host.Outcome State Fault Refusal :=
  let held (pa n : Nat) : Bool := (List.range n).any fun i => s.heldAt (pa + i)
  match req with
  | .read pa n => .next (each (linesOf ((List.range n).map fun i => pa + i)) (fun l s => s.logRequest 0 Asker.peer l) s)
  | .write pa data =>
    if 2 ^ 39 < pa + data.length then .next s
    else if held pa data.length then .next (s.again (.peerRequest peer req))
    else .next ((s.logWrites 1 Asker.peer [] ((List.range data.length).map fun i => pa + i)).writeBytes
      (data.zipIdx.map fun b => (Ops.devLoc (pa + b.2), b.1)))
  | .atomic pa op b1 b2 =>
    if 2 ^ 39 < pa + op.size then .next s
    else if held pa op.size then .next (s.again (.peerRequest peer req))
    else .next (s.applyAtom Asker.peer op false ((List.range op.size).map fun i => Ops.devLoc (pa + i)) b1 b2).2
  | .result core cmd st data =>
    let all := (s.core core).linkQ ++ s.blocks.flatMap fun e => e.2.kept.map (·.2)
    if (all.any fun x => x.id == cmd && x.outAt fun h => h == peer.toNat) then .next (s.answerCmd cmd st data) else .next s

end Sys2Proof.Machine
end

