-- ==== Sys2Proof/Machine/Tile.lean ====
section
/-! DEFINITION. The tile engine and the tack stage (spec/12). -/

namespace Sys2Proof.Machine

/-! The tack stage (12 R259). -/

/-- Sum, residue, the two queues, and whether the residue was used. -/
structure Tack where
  sum  : Int
  res  : Int
  port : List Int
  stbd : List Int
  used : Bool
  deriving DecidableEq, Repr

/-- A product that may go into the sum, else into the residue. -/
def Tack.offer (x : Int) (t : Tack) : Tack :=
  if -32768 ≤ t.sum + x ∧ t.sum + x ≤ 32767 then { t with sum := t.sum + x } else { t with res := t.res + x, used := true }

/-- One decision (`Pair`). -/
def Tack.pair (tail : Bool) (t : Tack) : Tack :=
  if 0 ≤ t.sum then
    match t.stbd, t.port with
    | x :: q, _ => { t with sum := t.sum + x, stbd := q }
    | [], x :: q => if tail || decide (8 ≤ t.port.length) then { t with port := q }.offer x else t
    | [], [] => t
  else
    match t.port, t.stbd with
    | x :: q, _ => { t with sum := t.sum + x, port := q }
    | [], x :: q => if tail || decide (8 ≤ t.stbd.length) then { t with stbd := q }.offer x else t
    | [], [] => t

/-- One arrival. -/
def Tack.arrive (t : Tack) (x : Int) : Tack :=
  Tack.pair false (if 0 < x then { t with port := t.port ++ [x] } else if x < 0 then { t with stbd := t.stbd ++ [x] } else t)

/-- The tail of a step: every queued product leaves. -/
def Tack.drain : Nat → Tack → Tack
  | 0, t => t
  | n + 1, t => Tack.drain n (t.pair true)

/-- Steps of eight products. -/
def Tack.steps : Nat → List Int → Tack → Tack
  | 0, _, t => t
  | n + 1, l, t => Tack.steps n (l.drop 8) (Tack.drain 8 ((l.take 8).foldl Tack.arrive t))

/-- S of a block pair, and whether the residue was used. -/
def tackOf (products : List Int) : Int × Bool :=
  let t := Tack.steps 4 products { sum := 0, res := 0, port := [], stbd := [], used := false }
  (t.sum + t.res, t.used)

/-! Matrix commands (12 R256-R261). -/

/-- The shapes of Table TIL-2 but BFP: code, M = N, K, element bytes, format, accumulator mode. -/
structure TileShape where
  n    : Nat
  k    : Nat
  unit : Nat
  fmt  : Fmt
  mode : Nat

def tileShape (code : Nat) : Option TileShape :=
  match code with
  | 1 => some { n := 16, k := 16, unit := 8, fmt := Fmt.f64, mode := 1 }
  | 2 => some { n := 16, k := 16, unit := 4, fmt := Fmt.f32, mode := 0 }
  | 3 => some { n := 32, k := 32, unit := 2, fmt := Fmt.f16, mode := 0 }
  | 4 => some { n := 32, k := 32, unit := 2, fmt := Fmt.bf16, mode := 0 }
  | _ => none

/-- The tags and the mode are a row of Table TIL-2. -/
def tileOk (acc a b : Binding) : Bool :=
  let canon (x : Binding) : Bool := decide (0x32 ≤ x.code) && decide (x.code ≤ 0x38) && x.rows == 32 && x.cols == 64
  (canon a && canon b && acc.code == 2) || a.code == b.code && match tileShape a.code with
    | some t => a.rows == t.n && a.cols == t.k && b.rows == t.n && b.cols == t.k && acc.code == t.mode
    | none => false

/-- Row, column and value of each element of an n × n result. -/
def elements (n : Nat) (f : Nat → Nat → Nat) : List (Nat × Nat × Nat) :=
  (List.range n).flatMap fun i => (List.range n).map fun j => (i, j, f i j)

/-- An FP64, FP32, FP16 or BF16 element: a chain of fused additions, or one exact sum of 32 products rounded once and added once. -/
def plainElement (t : TileShape) (minus : Bool) (c : Nat) (ab : List (Nat × Nat)) : Nat :=
  let prod (e : Nat × Nat) : FNum := let x := (t.fmt.num e.1).mul (t.fmt.num e.2); if minus then x.negate else x
  if t.unit = 2 then
    let g := (Fmt.f32.sum .rne (ab.map prod)).bits
    (Fmt.f32.add .rne c g).bits
  else ab.foldl (fun c e => (t.fmt.sum .rne [prod e, t.fmt.num c]).bits) c

/-- A BFP operand row's exponent byte of block b, and mantissa k: the whole signed byte, also where it lies outside the k bits of the tag (log entry 86). -/
def Binding.bfpExp (x : Binding) (i b : Nat) : Nat := x.rd (3968 + 2 * i + b) 1
def Binding.bfpMant (x : Binding) (i k : Nat) : Int := sextN (x.rd (64 * i + k) 1) 8

/-- Block pair b of element (i, j): a NaN block, S, the residue used. -/
structure BlockPair where
  nan  : Bool
  s    : Int
  used : Bool
  exp  : Int

def blockPair (a b : Binding) (n i j : Nat) : BlockPair :=
  let t := tackOf ((List.range 32).map fun k => a.bfpMant i (32 * n + k) * b.bfpMant j (32 * n + k))
  let ea := a.bfpExp i n
  let eb := b.bfpExp j n
  { nan := ea == 255 || eb == 255, s := t.1, used := t.2,
    exp := ((ea : Int) - 127 - ((a.code : Int) - 0x30 - 1)) + ((eb : Int) - 127 - ((b.code : Int) - 0x30 - 1)) }

/-- Genuine overflow (12 R260). -/
def BlockPair.over (p : BlockPair) : Bool := !p.nan && decide (32767 < p.s.natAbs)

/-- What a block pair makes of an element: under SAT S is clamped. -/
def BlockPair.add (minus sat : Bool) (p : BlockPair) (c : Nat) : Nat :=
  if p.nan then Fmt.f32.canon
  else
    let v := if sat then max (-32767) (min 32767 p.s) else p.s
    let w := if minus then -v else v
    (Fmt.f32.sum .rne [Fmt.f32.num c, .fin (decide (w < 0)) w.natAbs p.exp]).bits

/-- The accumulator's elements put back. -/
def Binding.putElements (n unit : Nat) (els : List (Nat × Nat × Nat)) (stride : Nat) (x : Binding) : Binding :=
  each (els.take (n * n)) (fun e x => x.wr (unit * (stride * e.1 + e.2.1)) (natToBytes unit e.2.2)) x

/-- A matrix command (12 R256, R257). -/
def State.runTmm (s : State) (x : EngCmd) (minus : Bool) (accN oa ob : Nat) (z : Bool) : EngOut :=
  match s.unit x.block true accN x.id, s.unit x.block false oa x.id, s.unit x.block false ob x.id with
  | some acc, some a, some b =>
    if !tileOk acc a b then .fault s 0x14
    else
      let put (f : Binding → Binding) (s : State) : State := s.onUnitOf x.block true accN x.id f
      match tileShape a.code with
      | some t =>
        let unit := if t.mode = 1 then 8 else 4
        let stride := if t.mode = 1 then 16 else 32
        let el (i j : Nat) : Nat :=
          plainElement t minus (if z then 0 else acc.rd (unit * (stride * i + j)) unit)
            ((List.range t.k).map fun k => (a.rd (t.unit * (t.k * i + k)) t.unit, b.rd (t.unit * (t.k * j + k)) t.unit))
        .ok (put (Binding.putElements t.n unit (elements t.n el) stride) s)
      | none =>
        let sat := decide (acc.rows = 2)
        let trap := decide (acc.rows = 1)
        let pairs (n : Nat) : List (Nat × Nat × BlockPair) := (List.range 32).flatMap fun i => (List.range 32).map fun j => (i, j, blockPair a b n i j)
        let p0 := pairs 0
        let p1 := pairs 1
        let el0 := p0.map fun p => (p.1, p.2.1, p.2.2.add minus sat (if z then 0 else acc.rd (4 * (32 * p.1 + p.2.1)) 4))
        let keep (els : List (Nat × Nat × Nat)) : State := put (Binding.putElements 32 4 els 32) s
        if trap && p0.any (fun p => p.2.2.over) then .fault s 0x13
        else if trap && p1.any (fun p => p.2.2.over) then .fault (keep el0) 0x13
        else
          let el1 := (el0.zip p1).map fun e => (e.1.1, e.1.2.1, e.2.2.2.add minus sat e.1.2.2)
          let flag := (p0 ++ p1).any fun p => p.2.2.used || p.2.2.over
          .stand (keep el1) (.status (if flag then 2 else 1))
  | _, _, _ => .fault s 0x14

/-! `tld` and `tst` (12 R263). -/

def tileSpaces : List Nat := [0, 1, 2, 8, 10, 4, 5, 6]
/-- The 16-bit format of CV. -/
def cvFmt (cv : Nat) : Fmt := if cv = 1 then Fmt.f16 else Fmt.bf16

/-- Row r as its bytes in memory from the accumulator's. -/
def tileOut (acc : Binding) (cv r : Nat) : List Byte :=
  if acc.code = 1 then natToBytes 128 (acc.rd (128 * r) 128)
  else if cv = 0 then natToBytes 128 (acc.rd (128 * r) 128)
  else (List.range 32).flatMap fun j => natToBytes 2 (Fmt.f32.convert (cvFmt cv) .rne (acc.rd (128 * r + 4 * j) 4)).bits

/-- The accumulator's bytes of row r from those in memory. -/
def tileIn (cv : Nat) (row : List Byte) : List Byte :=
  if cv = 0 then row
  else (List.range 32).flatMap fun j => natToBytes 4 ((cvFmt cv).convert Fmt.f32 .rne (bytesToNat ((row.drop (2 * j)).take 2))).bits

/-- A row of a `tld` that faults leaves the accumulator's row as it was (log entry 8). -/
def State.runTileMove (s : State) (x : EngCmd) (load : Bool) (accN cv choice : Nat) : EngOut :=
  match s.unit x.block true accN x.id with
  | none => .fault s 0x14
  | some acc =>
    if cv ≠ 0 ∧ acc.code = 1 then .fault s 0x05
    else
      let a := s.agentFor x
      let unit := if acc.code = 1 then 8 else if cv = 0 then 4 else 2
      let n := if acc.code = 1 then 16 else 32
      let row (r : Nat) (s : State) : RowOut (State × Bool) :=
        let p := rowPtr (x.ptr 0) (x.par 2) r
        if load then match s.readRow a choice tileSpaces unit n p with
          | .ok (s1, bytes) => .ok (s1.onUnitOf x.block true accN x.id fun u => u.wr (128 * r) (tileIn cv bytes), false)
          | .fault f _ => .fault f (s, false)
          | .waits => .waits
        else match s.writeRow a choice tileSpaces unit p (tileOut acc cv r) with
          | .ok t => .ok (t, false)
          | .fault f t => .fault f (t, false)
          | .waits => .waits
      ((RowRun.start s x choice).rows n row).finish id

/-- A command on one accumulator: unbound, it ends with SLOTFMT (12 R262, R266). -/
def State.runAcc (s : State) (x : EngCmd) (accN : Nat) (f : Binding → Binding) : EngOut :=
  match s.unit x.block true accN x.id with
  | none => .fault s 0x14
  | some _ => .ok (s.onUnitOf x.block true accN x.id f)

/-- `tcfg` sets the mode, and TACKMODE for BFP-tack alone (12 R266). -/
def Binding.setMode (mode tack : Nat) (u : Binding) : Binding := { u with code := mode, rows := if mode = 2 then tack else u.rows }

/-- `trel` frees the unit its issue unbound (12 R265). -/
def State.runTrel (s : State) (x : EngCmd) : EngOut :=
  .ok (s.onBlock x.block fun b => { b with bindings := b.bindings.filter fun u => u.freed ≠ some x.id })

/-! The words. -/

/-- A tile word: an engine command with AQ and RL at block scope (12 R254). -/
def Ops.tileWord (cmd : Cmd) (t : BitVec 5) : State → Host.Outcome State Fault Refusal :=
  Ops.word { noSig with uses := [useS t.toNat 1] } fun c s => s.enqueue c .tile cmd [] t 0 true true

def execTmma (t : BitVec 5) (a : BitVec 3) (o b : BitVec 6) (z : BitVec 1) (s : State) : Host.Outcome State Fault Refusal :=
  Ops.tileWord (.tmm false a.toNat o.toNat b.toNat (z = 1)) t s
def execTmms (t : BitVec 5) (a : BitVec 3) (o b : BitVec 6) (z : BitVec 1) (s : State) : Host.Outcome State Fault Refusal :=
  Ops.tileWord (.tmm true a.toNat o.toNat b.toNat (z = 1)) t s
def execTzero (t : BitVec 5) (a : BitVec 3) (s : State) : Host.Outcome State Fault Refusal := Ops.tileWord (.tzero a.toNat) t s
def execTcfg (t : BitVec 5) (a : BitVec 3) (m k : BitVec 2) (s : State) : Host.Outcome State Fault Refusal := Ops.tileWord (.tcfg a.toNat m.toNat k.toNat) t s

/-- `tld` and `tst`: P even, from 2 to 28 (Table TIL-3). -/
def Ops.tileMoveWord (cmd : Cmd) (t p : BitVec 5) : State → Host.Outcome State Fault Refusal :=
  Ops.word (engSig false t p 3) fun c s => s.enqueue c .tile cmd (c.params p 3) t 0 true true
def execTld (t : BitVec 5) (a : BitVec 3) (p : BitVec 5) (v : BitVec 2) (s : State) : Host.Outcome State Fault Refusal :=
  Ops.tileMoveWord (.tld a.toNat v.toNat) t p s
def execTst (t : BitVec 5) (a : BitVec 3) (p : BitVec 5) (v : BitVec 2) (s : State) : Host.Outcome State Fault Refusal :=
  Ops.tileMoveWord (.tst a.toNat v.toNat) t p s

/-- `trel`: every later command sees the name unbound. -/
def Ops.trelWord (acc : Bool) (name : Nat) (t : BitVec 5) : State → Host.Outcome State Fault Refusal :=
  Ops.word { noSig with uses := [useS t.toNat 1] } fun c s =>
    match s.enqueue c .tile (if acc then .trelAcc name else .trelSlot name) [] t 0 true true with
    | .ok s1 => .ok (s1.onUnitOf c.g.block acc name s.nextId fun u => if u.freed.isNone then { u with freed := some s.nextId } else u)
    | r => r
def execTrelSlot (t : BitVec 5) (o : BitVec 6) (s : State) : Host.Outcome State Fault Refusal := Ops.trelWord false o.toNat t s
def execTrelAcc (t : BitVec 5) (a : BitVec 3) (s : State) : Host.Outcome State Fault Refusal := Ops.trelWord true a.toNat t s

/-! Claims (12 R264). -/

def Core.claimLine (k : Core) (acc : Bool) : List Claim := if acc then k.accLine else k.slotLine
def Core.setClaimLine (k : Core) (acc : Bool) (l : List Claim) : Core := if acc then { k with accLine := l } else { k with slotLine := l }

/-- Names of a kind that a block has. -/
def unitNames (acc : Bool) : Nat := if acc then 8 else 64
/-- The unbound names of a block. -/
def Block.namesFree (b : Block) (acc : Bool) : List Nat :=
  (List.range (unitNames acc)).filter fun n => !(b.bindings.any fun x => x.acc == acc && x.name == n && x.freed.isNone)
/-- Names promised to the claims of a block that wait. -/
def Core.promised (k : Core) (acc : Bool) (block : Nat) : Nat :=
  (((k.claimLine acc).filter fun c => c.block == block).map (·.n)).foldl (· + ·) 0

/-- `tclaim`: it ends at once where the block has too few names left, else it joins the claim line; like every tile command it cannot issue while the
queue is full (12 R254). -/
def Ops.claimWord (acc : Bool) (t d : BitVec 5) (n : BitVec 6) : State → Host.Outcome State Fault Refusal :=
  let want := n.toNat + 1
  Ops.word { priv := false, opnd := !acc || decide (want ≤ 8), uses := [useS t.toNat 1, useS d.toNat 1] } fun c s =>
    let core := s.coreOf c.g
    if queueFull .tile (s.core core).tileQ.length then .stall
    else
    let names := (((c.block s).map fun b => b.namesFree acc).getD []).length - (s.core core).promised acc c.g.block
    if names < want then .ok (s.writeToken c.u.group (c.g.epochOf c.u.slices) t.toNat c.u.slices (faultStatus 0x05))
    else
      let x : Claim :=
        { id := s.nextId, acc := acc, n := want, dest := d.toNat, token := t.toNat, group := c.u.group, slices := c.u.slices,
          epoch := c.g.epochOf c.u.slices, block := c.g.block }
      .ok ({ s with nextId := s.nextId + 1 }.onCore core fun k => k.setClaimLine acc (k.claimLine acc ++ [x]))
def execTclaim (t d : BitVec 5) (n : BitVec 6) (s : State) : Host.Outcome State Fault Refusal := Ops.claimWord false t d n s
def execTclaimAcc (t d : BitVec 5) (n : BitVec 6) (s : State) : Host.Outcome State Fault Refusal := Ops.claimWord true t d n s

/-- A newly bound slot is EMPTY; a newly bound accumulator is FP32, WIDEN, all +0 (12 R252). -/
def Binding.new (acc : Bool) (name : Nat) : Binding := { name := name, acc := acc, freed := none, code := 0, rows := 0, cols := 0, bytes := [] }

/-- The claim at the head of a claim line, where enough units are free. -/
def State.claimReady (s : State) (core : Nat) (acc : Bool) : Option Claim :=
  match (s.core core).claimLine acc with
  | [] => none
  | x :: _ => if x.n ≤ s.unitsFree core acc then some x else none

/-- TCLAIM_GRANT: the lowest names bound, the lowest written to D, then the status to the token. -/
def execTclaimGrant (core : Nat) (acc : Bool) (s : State) : Host.Outcome State Fault Refusal :=
  match s.claimReady core acc with
  | none => .next s
  | some x =>
    let names := (((Tab.find s.blocks x.block).map fun b => b.namesFree acc).getD []).take x.n
    let s1 := s.onCore core fun k => k.setClaimLine acc ((k.claimLine acc).drop 1)
    let s2 := s1.onBlock x.block fun b => { b with bindings := b.bindings ++ names.map (Binding.new acc) }
    let s3 := s2.writeToken x.group x.epoch x.dest x.slices (BitVec.ofNat 32 (names.headD 0))
    .next (s3.writeToken x.group x.epoch x.token x.slices 1)

/-! Gating (12 R268). -/

/-- The sub-arrays a matrix command works on. -/
def tileSubs (code : Nat) : List Nat := if code = 1 ∨ code = 2 then [0, 1] else [0, 1, 2, 3]

/-- The sub-arrays a command has woken and used; one that ended with SLOTFMT has done no work. -/
def State.workedSubs (s : State) (core : Nat) (x : EngCmd) (st : Word) : State :=
  match x.cmd with
  | .tmm _ _ oa _ _ =>
    if st = faultStatus 0x14 then s
    else
      let subs := tileSubs (((s.unit x.block false oa x.id).map (·.code)).getD 0)
      s.onCore core fun k =>
        { k with gated := bitSet 4 fun i => k.gated.getLsbD i && !subs.contains i, worked := each subs (fun i t => Tab.set 0 t i (s.now core)) k.worked }
  | _ => s

/-- A sub-array has done no work for TGATE cycles; 0 disables gating. -/
def State.gateDue (s : State) (core sub : Nat) : Bool :=
  let k := s.core core
  decide (k.tgate ≠ 0) && !k.gated.getLsbD sub && decide (Tab.get 0 k.worked sub + k.tgate.toNat ≤ s.now core)

/-- SUBARRAY_GATE. -/
def execSubarrayGate (core : Nat) (sub : BitVec 2) (s : State) : Host.Outcome State Fault Refusal :=
  if s.gateDue core sub.toNat then .next (s.onCore core fun k => { k with gated := k.gated ||| bitSet 4 fun i => i == sub.toNat }) else .next s

end Sys2Proof.Machine
end

