-- ==== Sys2Proof/Machine/Engines.lean ====
section
/-! DEFINITION. When an engine's command is performed, and its end by status or by BUSY (11 R234, R235, R249; 12 R254, R265). -/

namespace Sys2Proof.Machine

/-- The slots a queued command names. -/
def EngCmd.slots (x : EngCmd) : List Nat :=
  match x.cmd with
  | .tmm _ _ oa ob _ => [oa, ob]
  | _ => (x.copySlot).toList

/-- An earlier command of the other queue stands before this one on a slot (11 R249, 12 R265). -/
def Core.slotBusy (k : Core) (x : EngCmd) : Bool :=
  let before (q : List EngCmd) (o : Nat) : Bool := q.any fun y => decide (y.id < x.id) && y.block == x.block && y.slots.contains o
  match x.cmd with
  | .copy _ => x.slots.any (before k.tileQ)
  | .tmm _ _ _ _ _ => x.slots.any (before k.copyQ)
  | .trelSlot o => before k.copyQ o
  | _ => false

/-- Bank commands that no earlier one of their pseudo-channel stands before (14 R300). -/
def State.bankHeads (s : State) : List Nat → List EngCmd → List EngCmd
  | _, [] => []
  | seen, x :: q => match s.bankChannel x with
    | some p => if seen.contains p then s.bankHeads seen q else x :: s.bankHeads (p :: seen) q
    | none => x :: s.bankHeads seen q

/-- The commands an engine of a core has under way. -/
def State.queueHeads (s : State) (core : Nat) (e : Engine) : List EngCmd :=
  let k := s.core core
  match e with
  | .bank => s.bankHeads [] k.bankQ
  | _ => (k.queueOf e).take 1

/-- The commands a core's engine may perform now. -/
def State.engineHeads (s : State) (core : Nat) (e : Engine) : List EngCmd :=
  (s.queueHeads core e).filter fun x => x.cmd ≠ .chreset && !(s.core core).slotBusy x && !s.atomsMove x

/-- Performs a command. -/
def State.runCmd (s : State) (x : EngCmd) (core choice : Nat) : EngOut :=
  match x.cmd with
  | .copy kind => s.runCopy x kind choice
  | .tmm minus acc oa ob z => s.runTmm x minus acc oa ob z
  | .tzero acc => s.runAcc x acc fun u => { u with bytes := [] }
  | .tld acc cv => s.runTileMove x true acc cv choice
  | .tst acc cv => s.runTileMove x false acc cv choice
  | .trelSlot _ => s.runTrel x
  | .trelAcc _ => s.runTrel x
  | .tcfg acc mode tack => s.runAcc x acc (Binding.setMode mode tack)
  | .chexp _ _ _ => s.runChart x core choice
  | .chcubic _ _ => s.runChart x core choice
  | .chop _ _ _ _ _ => s.runChart x core choice
  | .chenab _ => s.runChart x core choice
  | .chld _ _ => s.runChart x core choice
  | .chst _ _ _ => s.runChart x core choice
  | .chvis _ => s.runChart x core choice
  | .chset _ _ => s.runChart x core choice
  | .chreset => s.runChart x core choice
  | .bkmodeOn => s.runBank x choice
  | .bkmodeOff => s.runBank x choice
  | .bkload _ _ => s.runBank x choice
  | .bkmac _ _ => s.runBank x choice
  | .bkread => s.runBank x choice
  | .bkcal _ => s.runBank x choice
  | .bkstat => s.runBank x choice
  | .coll _ => s.runLink x core choice
  | .lput => s.runLink x core choice
  | .lget => s.runLink x core choice

/-- The command is complete, so that its release is made: 1, 2, and the FPE status of a `chst` (13 R288). -/
def EngCmd.releases (x : EngCmd) (st : Word) : Bool :=
  st == 1 || st == 2 || (st == faultStatus 0x19 && match x.cmd with
    | .chst _ _ _ => true
    | _ => false)

/-- The status a command has come to before it ends: the answer of a failing link, or its own while its release waits. -/
def EngCmd.final (x : EngCmd) : Option Word :=
  match x.cmd with
  | .coll _ => if x.done = 0 then none else x.answer.map (·.1)
  | _ => x.answer.map (·.1)

/-- A command from its acquire to its release. -/
def State.perform (s : State) (x : EngCmd) (core choice : Nat) : EngOut :=
  let r := match x.final with
    | some st => EngOut.stand s (.status st)
    | none => if s.aqWaits core x then x.waiting s else (s.beginAq core x.scope x.aq).runCmd x core choice
  match r.ends with
  | .status st =>
    if x.releases st then match r.s.endRl core x.scope x.aq x.rl with
      | some t => { r with s := t }
      | none => { r with ends := .unreleased st }
    else r
  | _ => r

/-- The event would change something: the command ends, goes on by a row, or begins to wait. -/
def EngCmd.moves (x : EngCmd) (r : EngOut) : Bool :=
  match r.ends with
  | .status _ => true
  | .unreleased _ => x.final.isNone
  | .waits => decide (x.done < r.done) || x.waits.isNone
  | .more => decide (x.done < r.done)

/-- The first command of an engine for which there is something to do, and what it comes to. -/
def State.engineTurn (s : State) (core : Nat) (e : Engine) (choice : Nat) : Option (EngCmd × EngOut) :=
  (s.engineHeads core e).findSome? fun x => if x.moves (s.perform x core choice) then some (x, s.perform x core choice) else none

/-- The command leaves its queue and its status is written; an access that failed by an exhausted flit has failed (15 R313). -/
def State.endCmd (s : State) (core : Nat) (e : Engine) (x : EngCmd) (st : Word) : State :=
  let s1 := s.onCore core fun k =>
    let k1 := k.setQueue e ((k.queueOf e).filter fun y => y.id ≠ x.id)
    if st = faultStatus 0x1B then { k1 with linkBad := false } else k1
  (s1.workedSubs core x st).writeToken x.group x.epoch x.token x.slices st

/-- What a command that has not ended keeps of the event: the rows done, and the cycle since which its next access waits. -/
def EngCmd.keep (x : EngCmd) (now : Nat) (r : EngOut) : EngCmd :=
  match r.ends with
  | .unreleased st => { x with done := max 1 r.done, flag := r.flag, waits := none, answer := some (st, []) }
  | .waits => { x with done := r.done, flag := r.flag, waits := if x.done < r.done then some now else some (x.waits.getD now) }
  | _ => { x with done := r.done, flag := r.flag, waits := none }

/-- What an event leaves of a command. -/
def State.settleCmd (core : Nat) (e : Engine) (x : EngCmd) (r : EngOut) : State :=
  match r.ends with
  | .status st => r.s.endCmd core e x st
  | _ => r.s.onCore core fun k => k.setQueue e ((k.queueOf e).map fun y => if y.id = x.id then y.keep r.s.cycle r else y)

/-- ENGINE_COMMAND_COMPLETE (11 R234): an engine performs the command at the head of its queue, in one event or in several, and writes its status; a
collective for a HOME at a peer leaves. -/
def execEngineCommandComplete (core : Nat) (engine : Engine) (s : State) : Host.Outcome State Fault Refusal :=
  match s.engineTurn core engine s.pick with
  | some (x, r) => .next (State.settleCmd core engine x r)
  | none => match engine with
    | .link => .next ((s.collLeaves core s.pick).getD s)
    | _ => .next s

def State.engineDue (s : State) (core : Nat) (e : Engine) : Bool :=
  (s.engineTurn core e 0).isSome || (e == .link && (s.collLeaves core 0).isSome)

/-- A command whose next access has waited more than 3 µs, and still waits; `bkcal` waits without bound for the end of all-bank mode, which is no such
access (14 R309). -/
def State.busyTurn (s : State) (core : Nat) (e : Engine) : Option (EngCmd × EngOut) :=
  (s.engineHeads core e).findSome? fun x =>
    let r := s.perform x core 0
    if x.waits.any (fun t => decide (t + 3 * Ops.perMicro < s.cycle)) && r.ends == .waits && r.done == x.done then some (x, r) else none

/-- ENGINE_BUSY_TIMEOUT (11 R235). -/
def execEngineBusyTimeout (core : Nat) (engine : Engine) (s : State) : Host.Outcome State Fault Refusal :=
  match s.busyTurn core engine with
  | none => .next s
  | some (x, r) => .next (r.s.endCmd core engine x 3)

/-! What a failing link ends (15 R313). -/

/-- The first and the last byte of the next piece of a peer transfer, on both sides. -/
def EngCmd.pieceEnds (x : EngCmd) : List DWord :=
  let last := min (x.par 4).toNat (x.pieceAt (x.done + 1)) - 1
  [x.pieceAt x.done, last].flatMap fun o => [ptrAdd (x.ptr 0) o, ptrAdd (x.ptr 2) o]

/-- The pointers the next row of a command starts from; a peer transfer's piece also ends there. -/
def EngCmd.rowPtrs (x : EngCmd) : List DWord :=
  let row : List DWord := [rowPtr (x.ptr 0) (x.par 2) x.done]
  match x.cmd with
  | .copy kind =>
    let b := x.copyPar
    (if kind = 5 then [] else [rowPtr b.src b.sstr x.done]) ++ if copyToSlot kind then [] else [rowPtr b.dst b.dstr x.done]
  | .tld _ _ => row
  | .tst _ _ => row
  | .chld _ _ => row
  | .chst _ _ _ => row
  | .bkload bfp scatter => [ptrAdd (x.ptr 2) ((x.loadJobs scatter |>.getD x.done ([], 0, 0)).2.2 * if bfp then 34 else 32)]
  | .bkread => [ptrAdd (rowPtr (x.ptr 2) (x.par 5) (x.readJobs.getD x.done (0, 0)).1) (4 * (x.readJobs.getD x.done (0, 0)).2)]
  | .bkstat => [x.ptr 2]
  | .lput => x.pieceEnds
  | .lget => x.pieceEnds
  | .coll _ => if !x.sent then [x.ptr 0] else if x.answer.isSome then [x.ptr 2] else []
  | _ => []

/-- A command under way that has to do with a peer. -/
def State.cmdFar (s : State) (peer : Nat → Bool) (x : EngCmd) : Bool :=
  let a := s.agentFor x
  x.outAt (fun h => h ≠ s.device && peer h) || x.rowPtrs.any fun p => ptrSpace p == 2 && match s.translate a.core a.ctx 2 (ptrAddr p) .read a.priv with
    | .ok t => peer (t.pa / 2 ^ 46)
    | .error _ => false

/-- An atomic on such a location. -/
def Request.asks (far : Nat → Bool) (r : Request) : Bool :=
  match r.ask with
  | .atom _ locs _ _ => locs.any far
  | _ => false

/-- The lowest lane for which a long-latency word has an access under way to such a location: a load not yet written back, or an atomic not yet served. -/
def State.farLane (s : State) (far : Nat → Bool) (gid op : Nat) (o : LongOp) : Option Nat :=
  let sent := ((s.net ++ s.podQ.flatMap (·.2)).filter fun r => r.group == gid && r.op == op && r.asks far).map (·.lane)
  let read := (o.reads.filter fun r => r.cells.any fun c => far c.1).map fun r => r.lane.getD 0
  (sortNat (sent ++ read)).head?

/-- The trap of a long-latency word whose peer cannot complete the access of a lane. -/
def LongOp.linkTrap (o : LongOp) (lane : Nat) : Trap :=
  { stage := 7, cause := 0x1B, pc := o.pc, word := o.word, faddr := Tab.get 0 o.ptrs lane, level := 0, kind := 0, async := true, lanes := o.exec,
    slices := o.slices, born := 0 }

/-- The long-latency words of the groups on a core, or of all, with an access under way to such a location and no fault yet. -/
def State.wordsFar (s : State) (far : Nat → Bool) (mine : Group → Bool) : List (Nat × Nat × Nat) :=
  (s.groups.filter fun e => mine e.2).flatMap fun e => e.2.longs.filterMap fun o =>
    if o.2.fault.isSome then none else (s.farLane far e.1 o.1 o.2).map fun l => (e.1, o.1, l)

/-- A long-latency word fails with LINK for a lane; its requests to the peer go. -/
def State.failWord (far : Nat → Bool) (w : Nat × Nat × Nat) (s : State) : State :=
  let gone (r : Request) : Bool := r.group == w.1 && r.op == w.2.1 && r.asks far
  let s1 := s.onGroup w.1 fun g => { g with longs := Tab.change g.longs w.2.1 fun o => { o with fault := some (o.linkTrap w.2.2), waiting := 0 } }
  { s1 with net := s1.net.filter fun r => !gone r, podQ := Tab.each s1.podQ fun _ q => q.filter fun r => !gone r }

/-- The stores in flight from a core, or of all, with an access of such a location. -/
def State.storesFar (s : State) (far : Nat → Bool) (mine : Nat → Bool) : List (Nat × PendingStore) :=
  (s.cores.filter fun e => mine e.1).flatMap fun e => (e.2.stores.filter fun p => p.cells.any fun c => far c.1).map fun p => (e.1, p)

/-- The accesses of a store to such locations fail with LINK: their bytes go, and where `tells` says so the word presents its trap for the first lane of
them, as a load does (log entry 27). -/
def State.failStore (far : Nat → Bool) (tells : Bool) (x : Nat × PendingStore) (s : State) : State :=
  let less (p : PendingStore) : PendingStore := if p.id = x.2.id then { p with cells := p.cells.filter fun c => !far c.1 } else p
  let s1 := s.onCore x.1 fun k => { k with stores := (k.stores.map less).filter fun p => !p.cells.isEmpty }
  match (if tells then x.2.trap else none), x.2.peers.find? fun e => far e.1 && x.2.cells.any (·.1 == e.1) with
  | some t, some e => s1.presentTrap x.2.group { t with faddr := e.2 } (some x.2.id)
  | _, _ => s1

/-- Two stores of one split: the later one issues again with what follows the earlier. -/
def PendingStore.sameSplit (p q : PendingStore) : Bool :=
  let set (x : PendingStore) : SliceSet := (x.trap.map (·.slices)).getD 0
  p.group == q.group && set p &&& set q ≠ 0

/-- Every engine. -/
def engines : List Engine := [.copy, .tile, .chart, .bank, .link]

/-- LINK_RETRY_EXHAUSTED: of the accesses and commands of the core that have to do with a peer, the one of the choice's ends with LINK: one under way, or
the next that is made. -/
def execLinkRetryExhausted (core : Nat) (s : State) : Host.Outcome State Fault Refusal :=
  let cmds := (engines.flatMap (s.queueHeads core)).filter (s.cmdFar fun _ => true)
  let words := s.wordsFar (Ops.atPeer fun _ => true) fun g => s.coreOf g == core
  let stores := s.storesFar (Ops.atPeer fun _ => true) (· == core)
  let i := s.pick % (cmds.length + words.length + stores.length + 1)
  match cmds[i]?, words[i - cmds.length]?, stores[i - cmds.length - words.length]? with
  | some x, _, _ => .next (s.answerCmd x.id (faultStatus 0x1B) [])
  | none, some w, _ => .next (s.failWord (Ops.atPeer fun _ => true) w)
  | none, none, some x => .next (s.failStore (Ops.atPeer fun _ => true) true x)
  | none, none, none => .next (s.onCore core fun k => { k with linkBad := true })

/-- PEER_RESET: accesses, commands, stores in flight and contributions outstanding with the peer end; every contribution waiting beside one of the peer's
ends with LINK. -/
def execPeerReset (peer : BitVec 6) (s : State) : Host.Outcome State Fault Refusal :=
  let p := peer.toNat
  let far := Ops.atPeer fun n => n == p
  let theirs (i : Collective) : Bool := i.parts.any fun c => c.peer == some p
  let s1 := each ((s.collectives.filter theirs).flatMap (·.parts)) (fun c s => s.tell c (faultStatus 0x1B) [])
    { s with collectives := s.collectives.filter fun i => !theirs i }
  let heads := (s1.cores.flatMap fun e => engines.flatMap (s1.queueHeads e.1)).filter (s1.cmdFar fun n => n == p)
  let out := ((s1.cores.flatMap fun e => e.2.linkQ) ++ s1.blocks.flatMap fun e => e.2.kept.map (·.2)).filter fun x => x.outAt fun h => h == p
  let s2 := each (heads ++ out) (fun x s => s.answerCmd x.id (faultStatus 0x1B) []) s1
  let stores := s2.storesFar far fun _ => true
  let s3 := each stores.zipIdx (fun x => State.failStore far (!(stores.take x.2).any fun y => y.2.sameSplit x.1.2) x.1) s2
  .next (each (s3.wordsFar far fun _ => true) (State.failWord far) s3)

end Sys2Proof.Machine
end

