-- ==== Sys2Proof/Machine/FloatOps.lean ====
section
/-! DEFINITION. The floating-point words of majors 0x14 to 0x19 (06 R119-R128). -/

namespace Sys2Proof.Machine

/-! Binary32 (Table FLT-5). -/

/-- d := f of a and b. -/
def Ops.f32bin (d a b : BitVec 7) (f : RMode → Nat → Nat → FRes) : State → Host.Outcome State Fault Refusal :=
  Ops.fpu d 1 [(a, 1), (b, 1)] fun c l => (f c.rm (c.num a 1 l) (c.num b 1 l)).one
/-- d := f of a, b and d. -/
def Ops.f32tern (d a b : BitVec 7) (f : RMode → Nat → Nat → Nat → FRes) : State → Host.Outcome State Fault Refusal :=
  Ops.fpu d 1 [(a, 1), (b, 1)] fun c l => (f c.rm (c.num a 1 l) (c.num b 1 l) (c.num d 1 l)).one
/-- d := f of a. -/
def Ops.f32un (d a : BitVec 7) (f : RMode → Nat → FRes) : State → Host.Outcome State Fault Refusal :=
  Ops.fpu d 1 [(a, 1)] fun c l => (f c.rm (c.num a 1 l)).one

def execAddF32 (d a b : BitVec 7) (s : State) : Host.Outcome State Fault Refusal := Ops.f32bin d a b Fmt.f32.add s
def execSubF32 (d a b : BitVec 7) (s : State) : Host.Outcome State Fault Refusal := Ops.f32bin d a b Fmt.f32.sub s
def execMulF32 (d a b : BitVec 7) (s : State) : Host.Outcome State Fault Refusal := Ops.f32bin d a b Fmt.f32.mul s
def execFmaF32 (d a b : BitVec 7) (s : State) : Host.Outcome State Fault Refusal := Ops.f32tern d a b Fmt.f32.fma s
def execFmsF32 (d a b : BitVec 7) (s : State) : Host.Outcome State Fault Refusal := Ops.f32tern d a b Fmt.f32.fms s
def execMinF32 (d a b : BitVec 7) (s : State) : Host.Outcome State Fault Refusal := Ops.f32bin d a b (fun _ => Fmt.f32.min) s
def execMaxF32 (d a b : BitVec 7) (s : State) : Host.Outcome State Fault Refusal := Ops.f32bin d a b (fun _ => Fmt.f32.max) s
def execAbsF32 (d a : BitVec 7) (s : State) : Host.Outcome State Fault Refusal := Ops.f32un d a (fun _ => Fmt.f32.abs) s
def execNegF32 (d a : BitVec 7) (s : State) : Host.Outcome State Fault Refusal := Ops.f32un d a (fun _ => Fmt.f32.neg) s
def execCopysignF32 (d a b : BitVec 7) (s : State) : Host.Outcome State Fault Refusal := Ops.f32bin d a b (fun _ => Fmt.f32.copysign) s
def execFloorF32 (d a : BitVec 7) (s : State) : Host.Outcome State Fault Refusal := Ops.f32un d a (fun _ => Fmt.f32.toIntegral .rd false) s
def execCeilF32 (d a : BitVec 7) (s : State) : Host.Outcome State Fault Refusal := Ops.f32un d a (fun _ => Fmt.f32.toIntegral .ru false) s
def execTruncF32 (d a : BitVec 7) (s : State) : Host.Outcome State Fault Refusal := Ops.f32un d a (fun _ => Fmt.f32.toIntegral .rz false) s
def execRintF32 (d a : BitVec 7) (s : State) : Host.Outcome State Fault Refusal := Ops.f32un d a (fun rm => Fmt.f32.toIntegral rm true) s
def execFractF32 (d a : BitVec 7) (s : State) : Host.Outcome State Fault Refusal := Ops.f32un d a fractF32 s

/-! Binary64 (Table FLT-7). -/

def Ops.f64bin (d a b : BitVec 7) (f : RMode → Nat → Nat → FRes) : State → Host.Outcome State Fault Refusal :=
  Ops.fpu d 2 [(a, 2), (b, 2)] fun c l => (f c.rm (c.num a 2 l) (c.num b 2 l)).two
def Ops.f64tern (d a b : BitVec 7) (f : RMode → Nat → Nat → Nat → FRes) : State → Host.Outcome State Fault Refusal :=
  Ops.fpu d 2 [(a, 2), (b, 2)] fun c l => (f c.rm (c.num a 2 l) (c.num b 2 l) (c.num d 2 l)).two
def Ops.f64un (d a : BitVec 7) (f : RMode → Nat → FRes) : State → Host.Outcome State Fault Refusal :=
  Ops.fpu d 2 [(a, 2)] fun c l => (f c.rm (c.num a 2 l)).two

def execAddF64 (d a b : BitVec 7) (s : State) : Host.Outcome State Fault Refusal := Ops.f64bin d a b Fmt.f64.add s
def execSubF64 (d a b : BitVec 7) (s : State) : Host.Outcome State Fault Refusal := Ops.f64bin d a b Fmt.f64.sub s
def execMulF64 (d a b : BitVec 7) (s : State) : Host.Outcome State Fault Refusal := Ops.f64bin d a b Fmt.f64.mul s
def execFmaF64 (d a b : BitVec 7) (s : State) : Host.Outcome State Fault Refusal := Ops.f64tern d a b Fmt.f64.fma s
def execFmsF64 (d a b : BitVec 7) (s : State) : Host.Outcome State Fault Refusal := Ops.f64tern d a b Fmt.f64.fms s
def execMinF64 (d a b : BitVec 7) (s : State) : Host.Outcome State Fault Refusal := Ops.f64bin d a b (fun _ => Fmt.f64.min) s
def execMaxF64 (d a b : BitVec 7) (s : State) : Host.Outcome State Fault Refusal := Ops.f64bin d a b (fun _ => Fmt.f64.max) s
def execAbsF64 (d a : BitVec 7) (s : State) : Host.Outcome State Fault Refusal := Ops.f64un d a (fun _ => Fmt.f64.abs) s
def execNegF64 (d a : BitVec 7) (s : State) : Host.Outcome State Fault Refusal := Ops.f64un d a (fun _ => Fmt.f64.neg) s
def execFloorF64 (d a : BitVec 7) (s : State) : Host.Outcome State Fault Refusal := Ops.f64un d a (fun _ => Fmt.f64.toIntegral .rd false) s
def execCeilF64 (d a : BitVec 7) (s : State) : Host.Outcome State Fault Refusal := Ops.f64un d a (fun _ => Fmt.f64.toIntegral .ru false) s
def execTruncF64 (d a : BitVec 7) (s : State) : Host.Outcome State Fault Refusal := Ops.f64un d a (fun _ => Fmt.f64.toIntegral .rz false) s
def execRintF64 (d a : BitVec 7) (s : State) : Host.Outcome State Fault Refusal := Ops.f64un d a (fun rm => Fmt.f64.toIntegral rm true) s
def execDivF64 (d a b : BitVec 7) (s : State) : Host.Outcome State Fault Refusal :=
  Ops.fpuLong d 2 [(a, 2), (b, 2)] (fun c l => (Fmt.f64.div c.rm (c.num a 2 l) (c.num b 2 l)).two) s
def execSqrtF64 (d a : BitVec 7) (s : State) : Host.Outcome State Fault Refusal :=
  Ops.fpuLong d 2 [(a, 2)] (fun c l => (Fmt.f64.sqrt c.rm (c.num a 2 l)).two) s

/-! Packed halves and dot products (Table FLT-8). -/

/-- The operation on each half; the flags of both. -/
def packed (f : Nat → Nat → Nat → FRes) (a b d : Nat) : FOut :=
  let lo := f (a % 2 ^ 16) (b % 2 ^ 16) (d % 2 ^ 16)
  let hi := f (a / 2 ^ 16) (b / 2 ^ 16) (d / 2 ^ 16)
  { words := [BitVec.ofNat 32 (lo.bits + hi.bits * 2 ^ 16)], flags := lo.flags ||| hi.flags }

def Ops.half (d a b : BitVec 7) (f : RMode → Nat → Nat → Nat → FRes) : State → Host.Outcome State Fault Refusal :=
  Ops.fpu d 1 [(a, 1), (b, 1)] fun c l => packed (f c.rm) (c.num a 1 l) (c.num b 1 l) (c.num d 1 l)

def execAddF16x2 (d a b : BitVec 7) (s : State) : Host.Outcome State Fault Refusal := Ops.half d a b (fun rm x y _ => Fmt.f16.add rm x y) s
def execMulF16x2 (d a b : BitVec 7) (s : State) : Host.Outcome State Fault Refusal := Ops.half d a b (fun rm x y _ => Fmt.f16.mul rm x y) s
def execFmaF16x2 (d a b : BitVec 7) (s : State) : Host.Outcome State Fault Refusal := Ops.half d a b (fun rm x y z => Fmt.f16.fma rm x y z) s
def execMinF16x2 (d a b : BitVec 7) (s : State) : Host.Outcome State Fault Refusal := Ops.half d a b (fun _ x y _ => Fmt.f16.min x y) s
def execMaxF16x2 (d a b : BitVec 7) (s : State) : Host.Outcome State Fault Refusal := Ops.half d a b (fun _ x y _ => Fmt.f16.max x y) s
def execAddBf16x2 (d a b : BitVec 7) (s : State) : Host.Outcome State Fault Refusal := Ops.half d a b (fun rm x y _ => Fmt.bf16.add rm x y) s
def execMulBf16x2 (d a b : BitVec 7) (s : State) : Host.Outcome State Fault Refusal := Ops.half d a b (fun rm x y _ => Fmt.bf16.mul rm x y) s
def execFmaBf16x2 (d a b : BitVec 7) (s : State) : Host.Outcome State Fault Refusal := Ops.half d a b (fun rm x y z => Fmt.bf16.fma rm x y z) s
def execDot2F32F16 (d a b : BitVec 7) (s : State) : Host.Outcome State Fault Refusal := Ops.f32tern d a b (Fmt.f16.dot2 Fmt.f32) s
def execDot2F32Bf16 (d a b : BitVec 7) (s : State) : Host.Outcome State Fault Refusal := Ops.f32tern d a b (Fmt.bf16.dot2 Fmt.f32) s

/-! Compares (Table FLT-9). -/

/-- The relation of a minor, on a format. -/
def Fmt.ne (f : Fmt) (a b : Nat) : Bool := !f.eq a b
def Fmt.gt (f : Fmt) (a b : Nat) : Bool := f.lt b a
def Fmt.ge (f : Fmt) (a b : Nat) : Bool := f.le b a
def Fmt.unord (f : Fmt) (a b : Nat) : Bool := f.isNan a || f.isNan b
def Fmt.ord (f : Fmt) (a b : Nat) : Bool := !f.unord a b

def execFcmpEqF32 (d : BitVec 3) (a b : BitVec 7) (s : State) : Host.Outcome State Fault Refusal := Ops.fcmp 1 d a b Fmt.f32.eq (Fmt.f32.cmpFlags false) s
def execFcmpNeF32 (d : BitVec 3) (a b : BitVec 7) (s : State) : Host.Outcome State Fault Refusal := Ops.fcmp 1 d a b Fmt.f32.ne (Fmt.f32.cmpFlags false) s
def execFcmpLtF32 (d : BitVec 3) (a b : BitVec 7) (s : State) : Host.Outcome State Fault Refusal := Ops.fcmp 1 d a b Fmt.f32.lt (Fmt.f32.cmpFlags true) s
def execFcmpLeF32 (d : BitVec 3) (a b : BitVec 7) (s : State) : Host.Outcome State Fault Refusal := Ops.fcmp 1 d a b Fmt.f32.le (Fmt.f32.cmpFlags true) s
def execFcmpGtF32 (d : BitVec 3) (a b : BitVec 7) (s : State) : Host.Outcome State Fault Refusal := Ops.fcmp 1 d a b Fmt.f32.gt (Fmt.f32.cmpFlags true) s
def execFcmpGeF32 (d : BitVec 3) (a b : BitVec 7) (s : State) : Host.Outcome State Fault Refusal := Ops.fcmp 1 d a b Fmt.f32.ge (Fmt.f32.cmpFlags true) s
def execFcmpOrdF32 (d : BitVec 3) (a b : BitVec 7) (s : State) : Host.Outcome State Fault Refusal := Ops.fcmp 1 d a b Fmt.f32.ord (Fmt.f32.cmpFlags false) s
def execFcmpUnordF32 (d : BitVec 3) (a b : BitVec 7) (s : State) : Host.Outcome State Fault Refusal := Ops.fcmp 1 d a b Fmt.f32.unord (Fmt.f32.cmpFlags false) s
def execFcmpEqF64 (d : BitVec 3) (a b : BitVec 7) (s : State) : Host.Outcome State Fault Refusal := Ops.fcmp 2 d a b Fmt.f64.eq (Fmt.f64.cmpFlags false) s
def execFcmpNeF64 (d : BitVec 3) (a b : BitVec 7) (s : State) : Host.Outcome State Fault Refusal := Ops.fcmp 2 d a b Fmt.f64.ne (Fmt.f64.cmpFlags false) s
def execFcmpLtF64 (d : BitVec 3) (a b : BitVec 7) (s : State) : Host.Outcome State Fault Refusal := Ops.fcmp 2 d a b Fmt.f64.lt (Fmt.f64.cmpFlags true) s
def execFcmpLeF64 (d : BitVec 3) (a b : BitVec 7) (s : State) : Host.Outcome State Fault Refusal := Ops.fcmp 2 d a b Fmt.f64.le (Fmt.f64.cmpFlags true) s
def execFcmpGtF64 (d : BitVec 3) (a b : BitVec 7) (s : State) : Host.Outcome State Fault Refusal := Ops.fcmp 2 d a b Fmt.f64.gt (Fmt.f64.cmpFlags true) s
def execFcmpGeF64 (d : BitVec 3) (a b : BitVec 7) (s : State) : Host.Outcome State Fault Refusal := Ops.fcmp 2 d a b Fmt.f64.ge (Fmt.f64.cmpFlags true) s
def execFcmpOrdF64 (d : BitVec 3) (a b : BitVec 7) (s : State) : Host.Outcome State Fault Refusal := Ops.fcmp 2 d a b Fmt.f64.ord (Fmt.f64.cmpFlags false) s
def execFcmpUnordF64 (d : BitVec 3) (a b : BitVec 7) (s : State) : Host.Outcome State Fault Refusal := Ops.fcmp 2 d a b Fmt.f64.unord (Fmt.f64.cmpFlags false) s

/-! Transcendental words (Table FLT-10): always to nearest even. -/

def Ops.xfn (d a : BitVec 7) (f : Nat → FRes) : State → Host.Outcome State Fault Refusal :=
  Ops.fpuLong d 1 [(a, 1)] fun c l => (f (c.num a 1 l)).one

def execExp2F32 (d a : BitVec 7) (s : State) : Host.Outcome State Fault Refusal := Ops.xfn d a exp2F32 s
def execLog2F32 (d a : BitVec 7) (s : State) : Host.Outcome State Fault Refusal := Ops.xfn d a log2F32 s
def execRcpF32 (d a : BitVec 7) (s : State) : Host.Outcome State Fault Refusal := Ops.xfn d a (Fmt.f32.div .rne Fmt.f32.one) s
def execRsqF32 (d a : BitVec 7) (s : State) : Host.Outcome State Fault Refusal := Ops.xfn d a (Fmt.f32.rsqrt .rne) s
def execSqrtF32 (d a : BitVec 7) (s : State) : Host.Outcome State Fault Refusal := Ops.xfn d a (Fmt.f32.sqrt .rne) s
def execDivF32 (d a b : BitVec 7) (s : State) : Host.Outcome State Fault Refusal :=
  Ops.fpuLong d 1 [(a, 1), (b, 1)] (fun c l => (Fmt.f32.div .rne (c.num a 1 l) (c.num b 1 l)).one) s
def execSin2piF32 (d a : BitVec 7) (s : State) : Host.Outcome State Fault Refusal := Ops.xfn d a sin2piF32 s
def execCos2piF32 (d a : BitVec 7) (s : State) : Host.Outcome State Fault Refusal := Ops.xfn d a cos2piF32 s

/-! Conversions (Table FLT-11). -/

/-- From a source of ns registers to a destination of nd. -/
def Ops.cvt (d : BitVec 7) (nd : Nat) (a : BitVec 7) (ns : Nat) (f : RMode → Nat → FRes) : State → Host.Outcome State Fault Refusal :=
  Ops.fpu d nd [(a, ns)] fun c l => if nd = 2 then (f c.rm (c.num a ns l)).two else (f c.rm (c.num a ns l)).one

def signedOf (n x : Nat) : Int := sextN x n

def execCvtF32F16lo (d a : BitVec 7) (s : State) : Host.Outcome State Fault Refusal := Ops.cvt d 1 a 1 (fun rm x => Fmt.f16.convert .f32 rm (x % 2 ^ 16)) s
def execCvtF32F16hi (d a : BitVec 7) (s : State) : Host.Outcome State Fault Refusal := Ops.cvt d 1 a 1 (fun rm x => Fmt.f16.convert .f32 rm (x / 2 ^ 16)) s
def execCvtF32Bf16lo (d a : BitVec 7) (s : State) : Host.Outcome State Fault Refusal := Ops.cvt d 1 a 1 (fun rm x => Fmt.bf16.convert .f32 rm (x % 2 ^ 16)) s
def execCvtF32Bf16hi (d a : BitVec 7) (s : State) : Host.Outcome State Fault Refusal := Ops.cvt d 1 a 1 (fun rm x => Fmt.bf16.convert .f32 rm (x / 2 ^ 16)) s

/-- Two binary32 values to a packed pair. -/
def packTo (f : Fmt) (rm : RMode) (a b : Nat) : FOut :=
  let lo := Fmt.f32.convert f rm a
  let hi := Fmt.f32.convert f rm b
  { words := [BitVec.ofNat 32 (lo.bits + hi.bits * 2 ^ 16)], flags := lo.flags ||| hi.flags }

def execCvtF16x2F32 (d a b : BitVec 7) (s : State) : Host.Outcome State Fault Refusal :=
  Ops.fpu d 1 [(a, 1), (b, 1)] (fun c l => packTo .f16 c.rm (c.num a 1 l) (c.num b 1 l)) s
def execCvtBf16x2F32 (d a b : BitVec 7) (s : State) : Host.Outcome State Fault Refusal :=
  Ops.fpu d 1 [(a, 1), (b, 1)] (fun c l => packTo .bf16 c.rm (c.num a 1 l) (c.num b 1 l)) s
def execCvtF64F32 (d a : BitVec 7) (s : State) : Host.Outcome State Fault Refusal := Ops.cvt d 2 a 1 (Fmt.f32.convert .f64) s
def execCvtF32F64 (d a : BitVec 7) (s : State) : Host.Outcome State Fault Refusal := Ops.cvt d 1 a 2 (Fmt.f64.convert .f32) s
def execCvtF32I32 (d a : BitVec 7) (s : State) : Host.Outcome State Fault Refusal := Ops.cvt d 1 a 1 (fun rm x => Fmt.f32.ofInt rm (signedOf 32 x)) s
def execCvtF32N32 (d a : BitVec 7) (s : State) : Host.Outcome State Fault Refusal := Ops.cvt d 1 a 1 (fun rm x => Fmt.f32.ofInt rm x) s
def execCvtI32F32 (d a : BitVec 7) (s : State) : Host.Outcome State Fault Refusal :=
  Ops.cvt d 1 a 1 (fun rm => Fmt.f32.toInt rm (-2 ^ 31) (2 ^ 31 - 1) 32) s
def execCvtN32F32 (d a : BitVec 7) (s : State) : Host.Outcome State Fault Refusal := Ops.cvt d 1 a 1 (fun rm => Fmt.f32.toInt rm 0 (2 ^ 32 - 1) 32) s
def execCvtF64I64 (d a : BitVec 7) (s : State) : Host.Outcome State Fault Refusal := Ops.cvt d 2 a 2 (fun rm x => Fmt.f64.ofInt rm (signedOf 64 x)) s
def execCvtI64F64 (d a : BitVec 7) (s : State) : Host.Outcome State Fault Refusal :=
  Ops.cvt d 2 a 2 (fun rm => Fmt.f64.toInt rm (-2 ^ 63) (2 ^ 63 - 1) 64) s
def execCvtF64I32 (d a : BitVec 7) (s : State) : Host.Outcome State Fault Refusal := Ops.cvt d 2 a 1 (fun rm x => Fmt.f64.ofInt rm (signedOf 32 x)) s
def execCvtI32F64 (d a : BitVec 7) (s : State) : Host.Outcome State Fault Refusal :=
  Ops.cvt d 1 a 2 (fun rm => Fmt.f64.toInt rm (-2 ^ 31) (2 ^ 31 - 1) 32) s

end Sys2Proof.Machine
end

