-- ==== Sys2Proof/Machine/Geo.lean ====
section
/-! DEFINITION. The geometry words of major 0x1A: ray tests (06 R129-R131) and the words that feed the chart (13 R290-R293). -/

namespace Sys2Proof.Machine

/-- A block of n registers lies wholly in v0-v95 or wholly in s1-s31 (06 R129). -/
def blockOk (f : BitVec 7) (n : Nat) : Bool := decide (f.toNat + n ≤ 96) || (decide (97 ≤ f.toNat) && decide (f.toNat + n ≤ 128))

/-- Blocks: the destination of nd registers and the sources with their lengths; an s destination needs every source block in s registers. -/
def blockSig (d : BitVec 7) (nd : Nat) (src : List (BitVec 7 × Nat)) : Sig :=
  { priv := false, opnd := blockOk d nd && (src.all fun e => blockOk e.1 e.2) && (!isS d || src.all fun e => isS e.1),
    uses := useN d nd :: src.map fun e => useN e.1 e.2 }

/-- A long-latency word on blocks: it signals nothing. -/
def Ops.geo (sig : Sig) (d : BitVec 7) (nd : Nat) (f : Ctx → Nat → List Word) : State → Host.Outcome State Fault Refusal :=
  Ops.word sig fun c s =>
    let op := (c.longOp.marks d nd).results c d (f c)
    s.issueLong c op

/-- Register i of a block, as a number. -/
def Ctx.at (c : Ctx) (f : BitVec 7) (i l : Nat) : Nat := (c.rdN (f.toNat + i) l).toNat

/-! Ray tests, every operation to nearest even. -/

def rSub (a b : Nat) : Nat := (Fmt.f32.sub .rne a b).bits
def rAdd (a b : Nat) : Nat := (Fmt.f32.add .rne a b).bits
def rMul (a b : Nat) : Nat := (Fmt.f32.mul .rne a b).bits
def rFma (a b d : Nat) : Nat := (Fmt.f32.fma .rne a b d).bits
def rMin (a b : Nat) : Nat := (Fmt.f32.min a b).bits
def rMax (a b : Nat) : Nat := (Fmt.f32.max a b).bits

/-- One slab of `rbox`. -/
def slab (o i lo hi : Nat) (t : Nat × Nat) : Nat × Nat :=
  let p := rMul (rSub lo o) i
  let q := rMul (rSub hi o) i
  (rMax t.1 (rMin p q), rMin t.2 (rMax p q))

def rboxOf (ray box : Nat → Nat) : Nat :=
  let t := slab (ray 2) (ray 8) (box 2) (box 5) (slab (ray 1) (ray 7) (box 1) (box 4) (slab (ray 0) (ray 6) (box 0) (box 3) (ray 9, ray 10)))
  if Fmt.f32.le t.1 t.2 then t.1 else Fmt.f32.canon

def execRbox (d a b : BitVec 7) (s : State) : Host.Outcome State Fault Refusal :=
  Ops.geo (blockSig d 1 [(a, 11), (b, 6)]) d 1 (fun c l => [BitVec.ofNat 32 (rboxOf (fun i => c.at a i l) (fun i => c.at b i l))]) s

/-- The triangle test: t, u, v of a hit, the canonical NaN of a miss (06 R131). -/
def rtriOf (ray m : Nat → Nat) : List Nat :=
  let oo (i : Nat) : Nat := rFma (m (4 * i + 2)) (ray 2) (rFma (m (4 * i + 1)) (ray 1) (rFma (m (4 * i)) (ray 0) (m (4 * i + 3))))
  let dd (i : Nat) : Nat := rFma (m (4 * i + 2)) (ray 5) (rFma (m (4 * i + 1)) (ray 4) (rMul (m (4 * i)) (ray 3)))
  let t := (Fmt.f32.div .rne (Fmt.f32.neg (oo 2)).bits (dd 2)).bits
  let u := rFma (dd 0) t (oo 0)
  let v := rFma (dd 1) t (oo 1)
  let f := Fmt.f32
  let hit := !f.eq (dd 2) 0 && !f.isNan t && !f.isNan u && !f.isNan v && f.le 0 u && f.le 0 v && f.le (rAdd u v) f.one && f.le (ray 9) t && f.le t (ray 10)
  if hit then [t, u, v] else [f.canon, f.canon, f.canon]

def execRtri (d a b : BitVec 7) (s : State) : Host.Outcome State Fault Refusal :=
  Ops.geo (blockSig d 3 [(a, 11), (b, 12)]) d 3 (fun c l => (rtriOf (fun i => c.at a i l) (fun i => c.at b i l)).map (BitVec.ofNat 32)) s

/-! Edges and culling. -/

/-- A vertex coordinate. -/
def Ctx.coord (c : Ctx) (f : BitVec 7) (i l : Nat) : Int := (c.rdN (f.toNat + i) l).toInt

/-- `edgec`: K, A and B (13 R291). -/
def edgeOf (x0 y0 x1 y1 : Int) : List Word :=
  let far (x : Int) : Bool := decide (x < -2 ^ 22) || decide (2 ^ 22 - 1 < x)
  if far x0 || far y0 || far x1 || far y1 then pairList (BitVec.ofInt 64 (-2 ^ 18)) ++ [0, 0]
  else pairList (BitVec.ofInt 64 ((x0 * y1 - x1 * y0) * 4)) ++ [BitVec.ofInt 32 ((y0 - y1) * 256), BitVec.ofInt 32 ((x1 - x0) * 256)]

def execEdgec (d a b : BitVec 7) (s : State) : Host.Outcome State Fault Refusal :=
  let sig := blockSig d 4 [(a, 2), (b, 2)]
  Ops.geo { sig with opnd := sig.opnd && isEven d } d 4 (fun c l => edgeOf (c.coord a 0 l) (c.coord a 1 l) (c.coord b 0 l) (c.coord b 1 l)) s

def execCullbf (d a : BitVec 7) (s : State) : Host.Outcome State Fault Refusal :=
  Ops.geo (blockSig d 1 [(a, 6)]) d 1 (fun c l =>
    let v (i : Nat) := c.coord a i l
    let w := (v 2 - v 0) * (v 5 - v 1) - (v 4 - v 0) * (v 3 - v 1)
    [if 0 < w then 1 else if w < 0 then 0xFFFFFFFF else 0]) s

/-- Some cell's sample point lies within the three coordinates' range. -/
def coversSample (a b c : Int) : Bool :=
  (List.range 32).any fun (i : Nat) => decide (min a (min b c) ≤ 256 * (i : Int) + 128) && decide (256 * (i : Int) + 128 ≤ max a (max b c))

def execCullbx (d a : BitVec 7) (s : State) : Host.Outcome State Fault Refusal :=
  Ops.geo (blockSig d 1 [(a, 6)]) d 1 (fun c l =>
    let v (i : Nat) := c.coord a i l
    [if coversSample (v 0) (v 2) (v 4) && coversSample (v 1) (v 3) (v 5) then 1 else 0]) s

end Sys2Proof.Machine
end

