-- ==== Sys2Proof/Machine/Integer.lean ====
section
/-! DEFINITION. The integer words of majors 0x08 to 0x11 (05 R94-R102) and the removed word of major 0x13 (03 R62). -/

namespace Sys2Proof.Machine

/-! 32-bit arithmetic on words (Table INT-1). -/

def bit5 (b : Word) : Nat := b.toNat % 32
def popcount (a : Word) : Word := BitVec.ofNat 32 (size a)
def leadingZeros (a : Word) : Word := BitVec.ofNat 32 (if a = 0 then 32 else 31 - a.toNat.log2)
def reverseBits (a : Word) : Word := bitSet 32 fun i => a.getLsbD (31 - i)

/-- The bits of a in the field b names (05 R95): position b[4:0], length b[13:8], cut at bit 31. -/
def fieldPos (b : Word) : Nat := b.toNat % 32
def fieldLen (b : Word) : Nat := min (fieldPos b + bitsAt b.toNat 8 6) 32 - fieldPos b

def bfeU (a b : Word) : Word := BitVec.ofNat 32 (bitsAt a.toNat (fieldPos b) (fieldLen b))
def bfeS (a b : Word) : Word := if fieldLen b = 0 then 0 else BitVec.ofInt 32 (sextN (a.toNat / 2 ^ fieldPos b) (fieldLen b))
def bfiOf (d a b : Word) : Word :=
  let hole : Word := BitVec.ofNat 32 (2 ^ fieldLen b - 1) <<< fieldPos b
  (d &&& ~~~hole) ||| ((a <<< fieldPos b) &&& hole)

def minSigned (a b : Word) : Word := if a.toInt ≤ b.toInt then a else b
def maxSigned (a b : Word) : Word := if a.toInt ≤ b.toInt then b else a
def minUnsigned (a b : Word) : Word := if a.toNat ≤ b.toNat then a else b
def maxUnsigned (a b : Word) : Word := if a.toNat ≤ b.toNat then b else a

def execAddI32 (d a b : BitVec 7) (s : State) : Host.Outcome State Fault Refusal := Ops.alu2 d a b (· + ·) s
def execSubI32 (d a b : BitVec 7) (s : State) : Host.Outcome State Fault Refusal := Ops.alu2 d a b (· - ·) s
def execMulloI32 (d a b : BitVec 7) (s : State) : Host.Outcome State Fault Refusal := Ops.alu2 d a b (· * ·) s
def execMulhiI32 (d a b : BitVec 7) (s : State) : Host.Outcome State Fault Refusal :=
  Ops.alu2 d a b (fun x y => BitVec.ofInt 32 (x.toInt * y.toInt / 2 ^ 32)) s
def execMulhiN32 (d a b : BitVec 7) (s : State) : Host.Outcome State Fault Refusal :=
  Ops.alu2 d a b (fun x y => BitVec.ofNat 32 (x.toNat * y.toNat / 2 ^ 32)) s
def execAnd (d a b : BitVec 7) (s : State) : Host.Outcome State Fault Refusal := Ops.alu2 d a b (· &&& ·) s
def execOr (d a b : BitVec 7) (s : State) : Host.Outcome State Fault Refusal := Ops.alu2 d a b (· ||| ·) s
def execXor (d a b : BitVec 7) (s : State) : Host.Outcome State Fault Refusal := Ops.alu2 d a b (· ^^^ ·) s
def execAndn (d a b : BitVec 7) (s : State) : Host.Outcome State Fault Refusal := Ops.alu2 d a b (fun x y => x &&& ~~~y) s
def execShl (d a b : BitVec 7) (s : State) : Host.Outcome State Fault Refusal := Ops.alu2 d a b (fun x y => x <<< bit5 y) s
def execShrN32 (d a b : BitVec 7) (s : State) : Host.Outcome State Fault Refusal := Ops.alu2 d a b (fun x y => x >>> bit5 y) s
def execShrI32 (d a b : BitVec 7) (s : State) : Host.Outcome State Fault Refusal := Ops.alu2 d a b (fun x y => x.sshiftRight (bit5 y)) s
def execRotl (d a b : BitVec 7) (s : State) : Host.Outcome State Fault Refusal := Ops.alu2 d a b (fun x y => x.rotateLeft (bit5 y)) s
def execMinI32 (d a b : BitVec 7) (s : State) : Host.Outcome State Fault Refusal := Ops.alu2 d a b minSigned s
def execMaxI32 (d a b : BitVec 7) (s : State) : Host.Outcome State Fault Refusal := Ops.alu2 d a b maxSigned s
def execMinN32 (d a b : BitVec 7) (s : State) : Host.Outcome State Fault Refusal := Ops.alu2 d a b minUnsigned s
def execMaxN32 (d a b : BitVec 7) (s : State) : Host.Outcome State Fault Refusal := Ops.alu2 d a b maxUnsigned s
def execAbsI32 (d a : BitVec 7) (s : State) : Host.Outcome State Fault Refusal :=
  Ops.alu1 d a (fun x => if x.toInt < 0 then -x else x) s
def execPopc (d a : BitVec 7) (s : State) : Host.Outcome State Fault Refusal := Ops.alu1 d a popcount s
def execClz (d a : BitVec 7) (s : State) : Host.Outcome State Fault Refusal := Ops.alu1 d a leadingZeros s
def execBrev (d a : BitVec 7) (s : State) : Host.Outcome State Fault Refusal := Ops.alu1 d a reverseBits s
def execBfeN32 (d a b : BitVec 7) (s : State) : Host.Outcome State Fault Refusal := Ops.alu2 d a b bfeU s
def execBfeI32 (d a b : BitVec 7) (s : State) : Host.Outcome State Fault Refusal := Ops.alu2 d a b bfeS s
/-- `bfi` reads D as well (05 R95). -/
def execBfi (d a b : BitVec 7) (s : State) : Host.Outcome State Fault Refusal := Ops.alu3 d a b bfiOf s

/-- `sel` (05 R96): the lane's bit of mk, or the first lane's on the uniform datapath. -/
def execSel (k : BitVec 3) (d a b : BitVec 7) (s : State) : Host.Outcome State Fault Refusal :=
  Ops.word (rrrSig d 1 [(a, 1), (b, 1)]) (fun c s =>
    let m := c.g.readM c.exec k.toNat
    .ok (s.putRegs c d.toNat fun l => [if m.getLsbD (if isS d then c.firstLane else l) then c.rd a l else c.rd b l])) s

/-! Immediates (05 R97, R98). -/

def execAddi (d a : BitVec 7) (i : BitVec 11) (s : State) : Host.Outcome State Fault Refusal := Ops.alu1 d a (fun x => x + i.signExtend 32) s
def execAndi (d a : BitVec 7) (i : BitVec 11) (s : State) : Host.Outcome State Fault Refusal := Ops.alu1 d a (fun x => x &&& i.signExtend 32) s
def execOri (d a : BitVec 7) (i : BitVec 11) (s : State) : Host.Outcome State Fault Refusal := Ops.alu1 d a (fun x => x ||| i.signExtend 32) s
def execXori (d a : BitVec 7) (i : BitVec 11) (s : State) : Host.Outcome State Fault Refusal := Ops.alu1 d a (fun x => x ^^^ i.signExtend 32) s
def execMovzLo (d : BitVec 7) (i : BitVec 16) (s : State) : Host.Outcome State Fault Refusal := Ops.alu0 d (fun _ => i.setWidth 32) s
def execMovzHi (d : BitVec 7) (i : BitVec 16) (s : State) : Host.Outcome State Fault Refusal := Ops.alu0 d (fun _ => i.setWidth 32 <<< 16) s
def execMovkLo (d : BitVec 7) (i : BitVec 16) (s : State) : Host.Outcome State Fault Refusal :=
  Ops.alu0 d (fun x => (x &&& 0xFFFF0000) ||| i.setWidth 32) s
def execMovkHi (d : BitVec 7) (i : BitVec 16) (s : State) : Host.Outcome State Fault Refusal :=
  Ops.alu0 d (fun x => (x &&& 0x0000FFFF) ||| (i.setWidth 32 <<< 16)) s

/-! Compares (05 R99). -/

def execIcmpEq (d : BitVec 3) (a b : BitVec 7) (s : State) : Host.Outcome State Fault Refusal := Ops.cmp d a b (· == ·) s
def execIcmpNe (d : BitVec 3) (a b : BitVec 7) (s : State) : Host.Outcome State Fault Refusal := Ops.cmp d a b (· != ·) s
def execIcmpLtI32 (d : BitVec 3) (a b : BitVec 7) (s : State) : Host.Outcome State Fault Refusal := Ops.cmp d a b (fun x y => decide (x.toInt < y.toInt)) s
def execIcmpLeI32 (d : BitVec 3) (a b : BitVec 7) (s : State) : Host.Outcome State Fault Refusal := Ops.cmp d a b (fun x y => decide (x.toInt ≤ y.toInt)) s
def execIcmpGtI32 (d : BitVec 3) (a b : BitVec 7) (s : State) : Host.Outcome State Fault Refusal := Ops.cmp d a b (fun x y => decide (y.toInt < x.toInt)) s
def execIcmpGeI32 (d : BitVec 3) (a b : BitVec 7) (s : State) : Host.Outcome State Fault Refusal := Ops.cmp d a b (fun x y => decide (y.toInt ≤ x.toInt)) s
def execIcmpLtN32 (d : BitVec 3) (a b : BitVec 7) (s : State) : Host.Outcome State Fault Refusal := Ops.cmp d a b (fun x y => decide (x.toNat < y.toNat)) s
def execIcmpLeN32 (d : BitVec 3) (a b : BitVec 7) (s : State) : Host.Outcome State Fault Refusal := Ops.cmp d a b (fun x y => decide (x.toNat ≤ y.toNat)) s
def execIcmpGtN32 (d : BitVec 3) (a b : BitVec 7) (s : State) : Host.Outcome State Fault Refusal := Ops.cmp d a b (fun x y => decide (y.toNat < x.toNat)) s
def execIcmpGeN32 (d : BitVec 3) (a b : BitVec 7) (s : State) : Host.Outcome State Fault Refusal := Ops.cmp d a b (fun x y => decide (y.toNat ≤ x.toNat)) s
def execIcmpEqI64 (d : BitVec 3) (a b : BitVec 7) (s : State) : Host.Outcome State Fault Refusal := Ops.cmp64 d a b (· == ·) s
def execIcmpLtI64 (d : BitVec 3) (a b : BitVec 7) (s : State) : Host.Outcome State Fault Refusal := Ops.cmp64 d a b (fun x y => decide (x.toInt < y.toInt)) s
def execIcmpLtN64 (d : BitVec 3) (a b : BitVec 7) (s : State) : Host.Outcome State Fault Refusal := Ops.cmp64 d a b (fun x y => decide (x.toNat < y.toNat)) s

/-! 64-bit integers and addresses (05 R100, R101). -/

def execAddI64 (d a b : BitVec 7) (s : State) : Host.Outcome State Fault Refusal := Ops.pair2 d a b (· + ·) s
def execSubI64 (d a b : BitVec 7) (s : State) : Host.Outcome State Fault Refusal := Ops.pair2 d a b (· - ·) s
def execMulI64 (d a b : BitVec 7) (s : State) : Host.Outcome State Fault Refusal := Ops.pair2 d a b (· * ·) s
def execShlI64 (d a b : BitVec 7) (s : State) : Host.Outcome State Fault Refusal := Ops.pairWord d a b (fun x y => x <<< (y.toNat % 64)) s
def execShrN64 (d a b : BitVec 7) (s : State) : Host.Outcome State Fault Refusal := Ops.pairWord d a b (fun x y => x >>> (y.toNat % 64)) s
def execShrI64 (d a b : BitVec 7) (s : State) : Host.Outcome State Fault Refusal := Ops.pairWord d a b (fun x y => x.sshiftRight (y.toNat % 64)) s
def execSextI64 (d a : BitVec 7) (s : State) : Host.Outcome State Fault Refusal := Ops.widen d a (fun x => x.signExtend 64) s
def execZextI64 (d a : BitVec 7) (s : State) : Host.Outcome State Fault Refusal := Ops.widen d a (fun x => x.setWidth 64) s

/-- A pointer moved by n times a signed index: the tag bits [63:57] are kept, the address bits wrap (05 R101). -/
def lea (n : Nat) (base : DWord) (i : Word) : DWord :=
  ((base >>> 57) <<< 57) ||| ((base + BitVec.ofNat 64 n * i.signExtend 64) &&& 0x01FFFFFFFFFFFFFF)

def execLeaX1 (d a b : BitVec 7) (s : State) : Host.Outcome State Fault Refusal := Ops.pairWord d a b (lea 1) s
def execLeaX2 (d a b : BitVec 7) (s : State) : Host.Outcome State Fault Refusal := Ops.pairWord d a b (lea 2) s
def execLeaX4 (d a b : BitVec 7) (s : State) : Host.Outcome State Fault Refusal := Ops.pairWord d a b (lea 4) s
def execLeaX8 (d a b : BitVec 7) (s : State) : Host.Outcome State Fault Refusal := Ops.pairWord d a b (lea 8) s
def execLeaX16 (d a b : BitVec 7) (s : State) : Host.Outcome State Fault Refusal := Ops.pairWord d a b (lea 16) s

/-! Packed 16-bit and narrow extension (05 R102). -/

def loHalf16 (x : Word) : BitVec 16 := x.setWidth 16
def hiHalf16 (x : Word) : BitVec 16 := (x >>> 16).setWidth 16
/-- The operation on each signed half. -/
def halves (f : BitVec 16 → BitVec 16 → BitVec 16) (a b : Word) : Word := f (hiHalf16 a) (hiHalf16 b) ++ f (loHalf16 a) (loHalf16 b)
def clamp16 (x : Int) : BitVec 16 := BitVec.ofInt 16 (max (-32768) (min 32767 x))

def execAddI16x2 (d a b : BitVec 7) (s : State) : Host.Outcome State Fault Refusal := Ops.alu2 d a b (halves (· + ·)) s
def execSubI16x2 (d a b : BitVec 7) (s : State) : Host.Outcome State Fault Refusal := Ops.alu2 d a b (halves (· - ·)) s
def execAddsI16x2 (d a b : BitVec 7) (s : State) : Host.Outcome State Fault Refusal :=
  Ops.alu2 d a b (halves fun x y => clamp16 (x.toInt + y.toInt)) s
def execSubsI16x2 (d a b : BitVec 7) (s : State) : Host.Outcome State Fault Refusal :=
  Ops.alu2 d a b (halves fun x y => clamp16 (x.toInt - y.toInt)) s
def execMinI16x2 (d a b : BitVec 7) (s : State) : Host.Outcome State Fault Refusal :=
  Ops.alu2 d a b (halves fun x y => if x.toInt ≤ y.toInt then x else y) s
def execMaxI16x2 (d a b : BitVec 7) (s : State) : Host.Outcome State Fault Refusal :=
  Ops.alu2 d a b (halves fun x y => if x.toInt ≤ y.toInt then y else x) s
def execGtbitsI16x2 (d a b : BitVec 7) (s : State) : Host.Outcome State Fault Refusal :=
  Ops.alu2 d a b (halves fun x y => if y.toInt < x.toInt then 0xFFFF else 0) s
def execShrI16x2 (d a b : BitVec 7) (s : State) : Host.Outcome State Fault Refusal :=
  Ops.alu2 d a b (halves fun x y => x.sshiftRight (y.toNat % 16)) s
def execPackI16x2 (d a b : BitVec 7) (s : State) : Host.Outcome State Fault Refusal := Ops.alu2 d a b (fun x y => loHalf16 y ++ loHalf16 x) s
def execSext8 (d a : BitVec 7) (s : State) : Host.Outcome State Fault Refusal := Ops.alu1 d a (fun x => (x.setWidth 8).signExtend 32) s
def execSext16 (d a : BitVec 7) (s : State) : Host.Outcome State Fault Refusal := Ops.alu1 d a (fun x => (x.setWidth 16).signExtend 32) s
def execZext8 (d a : BitVec 7) (s : State) : Host.Outcome State Fault Refusal := Ops.alu1 d a (fun x => x &&& 0xFF) s
def execZext16 (d a : BitVec 7) (s : State) : Host.Outcome State Fault Refusal := Ops.alu1 d a (fun x => x &&& 0xFFFF) s

/-- The removed Mewin word (03 R62): REMOVED, with no register written, before any operand is looked at (Table ENC-9 step 2). -/
def execMsadB4 (_min : BitVec 4) (_d _a _b : BitVec 7) (s : State) : Host.Outcome State Fault Refusal :=
  Ops.word { priv := false, opnd := true, uses := [] } (fun c _ => .trap (c.trap 2 0x02)) s

end Sys2Proof.Machine
end

