-- ==== Sys2Proof/Machine/Lodestar.lean ====
section
/-! DEFINITION. Measured start (17 R349, R350): SHAKE256, the measurement registers, device reset and the DOE mailbox. -/

namespace Sys2Proof.Machine

/-! SHAKE256 (FIPS 202, which R349 names). The sponge's state is 25 words, word x + 5·y at (x, y). -/

def Keccak.at' (a : List DWord) (x y : Nat) : DWord := a.getD (x % 5 + 5 * (y % 5)) 0

/-- A state from its words by position. -/
def Keccak.make (f : Nat → Nat → DWord) : List DWord := (List.range 25).map fun i => f (i % 5) (i / 5)

/-- Rotation of each word, at x + 5·y. -/
def Keccak.turns : List Nat := [0, 1, 62, 28, 27, 36, 44, 6, 55, 20, 3, 10, 43, 25, 39, 41, 45, 15, 21, 8, 18, 2, 61, 56, 14]

def Keccak.roundConstants : List DWord :=
  [0x0000000000000001, 0x0000000000008082, 0x800000000000808A, 0x8000000080008000, 0x000000000000808B, 0x0000000080000001,
   0x8000000080008081, 0x8000000000008009, 0x000000000000008A, 0x0000000000000088, 0x0000000080008009, 0x000000008000000A]
  ++ [0x000000008000808B, 0x800000000000008B, 0x8000000000008089, 0x8000000000008003, 0x8000000000008002, 0x8000000000000080,
   0x000000000000800A, 0x800000008000000A, 0x8000000080008081, 0x8000000000008080, 0x0000000080000001, 0x8000000080008008]

/-- One round. -/
def Keccak.round (rc : DWord) (a : List DWord) : List DWord :=
  let c := (List.range 5).map fun x => (List.range 5).foldl (fun acc y => acc ^^^ Keccak.at' a x y) 0
  let b := Keccak.make fun x y => Keccak.at' a x y ^^^ c.getD ((x + 4) % 5) 0 ^^^ (c.getD ((x + 1) % 5) 0).rotateLeft 1
  let r := Keccak.make fun x y =>
    let from' := (x + 3 * y) % 5
    (Keccak.at' b from' x).rotateLeft (Keccak.turns.getD (from' + 5 * x) 0)
  Keccak.make fun x y => Keccak.at' r x y ^^^ (~~~(Keccak.at' r (x + 1) y) &&& Keccak.at' r (x + 2) y) ^^^ (if x = 0 ∧ y = 0 then rc else 0)

def Keccak.permute (a : List DWord) : List DWord := Keccak.roundConstants.foldl (fun a rc => Keccak.round rc a) a

/-- One block of 136 bytes taken in. -/
def Keccak.absorb (block : List Byte) (a : List DWord) : List DWord :=
  Keccak.permute (Keccak.make fun x y =>
    Keccak.at' a x y ^^^ BitVec.ofNat 64 (bytesToNat ((List.range 8).map fun j => block.getD (8 * (x + 5 * y) + j) 0)))

/-- SHAKE256 with 64 bytes of output. -/
def shake256 (image : List Byte) : List Byte :=
  let n := image.length / 136 + 1
  let byte (i : Nat) : Byte := image.getD i 0 ^^^ (if i = image.length then 0x1F else 0) ^^^ (if i = 136 * n - 1 then 0x80 else 0)
  let a := (List.range n).foldl (fun a k => Keccak.absorb ((List.range 136).map fun i => byte (136 * k + i)) a) (List.replicate 25 0)
  (a.take 8).flatMap fun w => natToBytes 8 w.toNat

/-! Measurement registers (R349). Byte 0 of a register is its lowest. -/

def State.measured (s : State) (i : Nat) : List Byte := natToBytes 64 (Tab.get 0 s.measure i).toNat

/-- Register i is extended by an image. -/
def State.extendBy (s : State) (i : Nat) (image : List Byte) : State :=
  let m : BitVec 512 := BitVec.ofNat 512 (bytesToNat (shake256 (s.measured i ++ shake256 image)))
  let n := (Tab.get 0 s.extCount i).toNat
  { s with measure := Tab.set 0 s.measure i m, extCount := Tab.set 0 s.extCount i (BitVec.ofNat 16 (min (n + 1) 65535)) }

/-- DEVICE_RESET (R349): everything is as State.reset says but what the reset does not reach: device, host and peer memory (log entry 4), the count of
resets, routes and number of this device, what has been loaded from outside (log entry 21), and the model's own choices. The images of the stages are
measured into M0 to M5 in turn (log entry 16). -/
def execDeviceReset (images : List (List (BitVec 8))) (s : State) : Host.Outcome State Fault Refusal :=
  let r : State :=
    { State.reset with mem := s.mem.filter fun e => decide (e.1 < 3 * 2 ^ 64), resets := s.resets + 1, device := s.device,
                       routes := s.routes, stepB0 := s.stepB0, stowage := s.stowage, free := s.free, oracle := s.oracle, nextId := s.nextId,
                       inputs := s.inputs.map fun e => { e with due := e.due - s.cycle, came := e.came.map (· - s.cycle) }, answers := s.answers }
  .next (each (images.take 6).zipIdx (fun e s => s.extendBy e.2 e.1) r)

/-- MANAGEMENT_FIRMWARE_STAGE_LOAD: management firmware extends only M6 to M15. -/
def execManagementFirmwareStageLoad (reg : BitVec 4) (image : List (BitVec 8)) (s : State) : Host.Outcome State Fault Refusal :=
  .next (if 6 ≤ reg.toNat then s.extendBy reg.toNat image else s)

/-! The DOE mailbox (R350). -/

/-- The signed part of the report (Table MGT-4). -/
def State.reportHead (s : State) (nonce : List Byte) : List Byte :=
  natToBytes 2 1 ++ natToBytes 2 0 ++ natToBytes 4 s.resets.toNat ++ (List.range 32).map (fun i => nonce.getD i 0)
    ++ (List.range 16).flatMap (fun i => natToBytes 2 (Tab.get 0 s.extCount i).toNat) ++ (List.range 16).flatMap s.measured

/-- DOE_MEASUREMENT_REQUEST: the report, signed (log entry 15). -/
def execDoeMeasurementRequest (nonce : List (BitVec 8)) (s : State) : Host.Outcome State Fault Refusal :=
  let head := s.reportHead nonce
  .next { s with answers := s.answers ++ [head ++ (List.range 1280).map fun i => Config.signature head i] }

/-- DOE_KEY_REQUEST: the public identity key. -/
def execDoeKeyRequest (s : State) : Host.Outcome State Fault Refusal :=
  .next { s with answers := s.answers ++ [(List.range 1793).map Config.identityKey] }

end Sys2Proof.Machine
end

