-- ==== Sys2Proof/Machine/Pilot.lean ====
section
/-! DEFINITION. The Pilot: launch queues and records, placement, completion, and the answers to `fetchw` and `launch` (10 R206-R217, R225, R226, R372). -/

namespace Sys2Proof.Machine

/-! Records (Table WRK-3). -/

def LaunchRec.total (r : LaunchRec) : Nat := r.gridx * r.gridy * r.gridz

/-- An entry pointer has bits [63:57] and [3:0] zero. -/
def entryOk (p : DWord) : Bool := bitsAt p.toNat 57 7 == 0 && bitsAt p.toNat 0 4 == 0

/-- Blocks a core takes when it holds nothing. -/
def LaunchRec.coreTakes (r : LaunchRec) (core : Nat) : Nat :=
  let ctx := (if Ops.hostsService core then 31 else 32) / r.groups
  let regs := Ops.regPool core / (48 * r.width * r.groups)
  let byBoth := min ctx regs
  if r.range = 0 then byBoth else min byBoth (Ops.scratchPool core / r.range)

/-- The whole grid can be resident at once: its clusters, each within one of the 48 pods (01 R12, 10 R212). -/
def LaunchRec.gridFits (r : LaunchRec) : Bool :=
  let pod := (r.coreTakes 0 + 11 * r.coreTakes 1) / r.cluster
  decide (r.total / r.cluster ≤ 48 * pod)

/-- The first check that a record fails, 0x0C apart; `device` tells a record issued by an unprivileged launch. -/
def LaunchRec.why (r : LaunchRec) (zeros unprivileged : Bool) : Option (BitVec 8) :=
  let ptr := r.compPtr
  if !zeros then some 0x01
  else if !entryOk r.entry || r.entry == 0 || !entryOk r.trap || !entryOk r.pre then some 0x02
  else if !([16, 32, 64, 128].contains r.width) || decide (r.groups < 1) || decide (32 < r.groups) || decide (r.cluster < 1) || decide (12 < r.cluster) then some 0x03
  else if r.gridx = 0 ∨ r.gridy = 0 ∨ r.gridz = 0 ∨ r.gridx % r.cluster ≠ 0 ∨ 2 ^ 32 - 1 < r.total then some 0x04
  else if 360448 < r.scratch ∨ r.scratch % 16 ≠ 0 then some 0x05
  else if bitsAt r.localBase.toNat 57 7 ≠ 0 ∨ r.localBase.toNat % 4096 ≠ 0 ∨ r.localSize % 4096 ≠ 0 then some 0x06
  else if ptr ≠ 0 ∧ !(decide (ptrSpace ptr ≤ 1) && decide (ptrPol ptr ≤ 4) && ptrAddr ptr % 8 == 0) then some 0x0A
  else if r.coreTakes 1 = 0 then some 0x07
  else if r.flags.getLsbD 2 && !r.gridFits then some 0x08
  else if r.flags.getLsbD 1 && unprivileged then some 0x09
  else none

/-! Queues (10 R206-R209). -/

/-- Slots of a queue's ring. -/
def Queue.ring (q : Queue) : Nat := 2 ^ (min q.logn 12 + 4)
def State.qHead (s : State) (q : Queue) : Nat := s.readNat q.base 8

/-- The tail line differs from the Pilot's copy of it. -/
def State.tailChanged (s : State) (q : Queue) : Bool := decide (s.readNat (q.base + 128) 8 ≠ q.tail.toNat)

/-- A kill record of a launch of the queue has not been written. -/
def State.killsDue (s : State) (n : Nat) : Bool := s.launches.any fun e => e.2.host == n && !e.2.kills.isEmpty

/-- The Pilot's copy of the tail can be taken anew. -/
def State.tailDue (s : State) (n : Nat) : Bool :=
  let q := s.queue n
  decide (n < 64) && q.en && !q.stop && q.headDue.isNone && !s.heldAt q.base && s.tailChanged q

/-- An access of the Pilot to the first line pair of an enabled queue waits: the head index, a look at the changed tail, or a kill record. The queue is not
served until it is performed (10 R372). -/
def State.qWaits (s : State) (n : Nat) : Bool :=
  let q := s.queue n
  q.headDue.isSome || (s.heldAt q.base && (s.tailChanged q || s.killsDue n))

/-- QUEUE_TAIL_WRITE (10 R207): the tail is read again; one more than the ring ahead of the head stops the queue. -/
def execQueueTailWrite (queue : Nat) (s : State) : Host.Outcome State Fault Refusal :=
  if !s.tailDue queue then .next s
  else
    let q := s.queue queue
    let t : DWord := BitVec.ofNat 64 (s.readNat (q.base + 128) 8)
    let far := decide (q.ring < (t - BitVec.ofNat 64 (s.qHead q)).toNat)
    .next (s.onQueue queue fun q => if far then { q with tail := t, stop := true, why := 0x0C } else { q with tail := t })

/-- The launch whose record holds the queue: blocks of it are still to be placed or withdrawn. -/
def State.holding (s : State) (n : Nat) : Option (Nat × Launch) :=
  match (s.queue n).current with
  | none => none
  | some id => match Tab.find s.launches id with
    | none => none
    | some l => if l.nextBlock < l.card.total then some (id, l) else none

/-- A new launch, its record copied and checked. -/
def Launch.new (card : LaunchRec) (queue host index ctx : Nat) : Launch :=
  { card := card, queue := queue, host := host, index := index, ctx := ctx, nextBlock := 0, ended := 0, coop := none, grid := WideBarrier.empty,
    kills := [], counted := false, silent := false, resided := 0 }

/-- The roots in effect for a context from its first use on (08 R165). -/
def Context.pin (c : Context) : Context := { c with eff0 := some (c.eff0.getD c.root0), eff1 := some (c.eff1.getD c.root1), eff2 := some (c.eff2.getD c.root2) }

def State.startLaunch (s : State) (n : Nat) (l : Launch) : State :=
  (State.onQueue { s with nextId := s.nextId + 1, launches := Tab.put s.launches s.nextId l } n fun q => { q with current := some s.nextId }).onContext l.ctx
    Context.pin

/-- Where the record at a queue's head stands. -/
def State.headSlot (s : State) (q : Queue) : Nat := q.base + 256 + 128 * (s.qHead q % q.ring)

/-- A head index that waited can be written, or a record may be copied: the queue is served, no record holds it, one stands at its head, and its read
does not wait. -/
def State.copyDue (s : State) (n : Nat) : Bool :=
  let q := s.queue n
  match q.headDue with
  | some x => !s.heldAt x.1
  | none => (s.holding n).isNone && if n < 64 then q.en && !q.stop && !s.qWaits n && !s.tailChanged q && decide (q.tail.toNat ≠ s.qHead q) && !s.heldAt (s.headSlot q)
      else decide (Tab.get [] s.devQueues n ≠ [])

/-- The head index of a queue is written, or waits for its home slice (10 R207, R372). -/
def State.writeHead (s : State) (n loc head : Nat) : State :=
  if s.heldAt loc then s.onQueue n fun q => { q with headDue := some (loc, head) }
  else (s.writeNat loc 8 head).onQueue n fun q => { q with headDue := none }

/-- LAUNCH_RECORD_COPY (10 R207, R209): the record at the head is copied and checked; it is refused, or the head moves on, at once or, where that write
waits, later. -/
def execLaunchRecordCopy (queue : Nat) (s : State) : Host.Outcome State Fault Refusal :=
  let q := s.queue queue
  if !s.copyDue queue then .next s
  else if let some x := q.headDue then .next (s.writeHead queue x.1 x.2)
  else if queue < 64 then
    let h := s.qHead q
    let r := LaunchRec.parse (s.readNat (s.headSlot q) 128)
    match r.1.why r.2 false with
    | some w => .next (s.onQueue queue fun q => { q with stop := true, why := w })
    | none => .next ((s.writeHead queue q.base (h + 1)).startLaunch queue (Launch.new r.1 queue queue h q.ctx))
  else match Tab.get [] s.devQueues queue with
    | [] => .next s
    | d :: rest => .next (State.startLaunch { s with devQueues := Tab.set [] s.devQueues queue rest } queue (Launch.new d.card queue d.host d.index d.ctx))

/-- QSTAT_STOP_CLEAR (10 R209): service goes on with a fresh look at the queue. -/
def Queue.goOn (s : State) (q : Queue) : Queue := { q with stop := false, tail := BitVec.ofNat 64 (s.qHead q) }
def execQstatStopClear (queue : Nat) (s : State) : Host.Outcome State Fault Refusal := .next (s.onQueue queue (Queue.goOn s))

/-- QSTAT_CFAULT_CLEAR (10 R206). -/
def execQstatCfaultClear (queue : Nat) (s : State) : Host.Outcome State Fault Refusal := .next (s.onQueue queue fun q => { q with cfault := false })

/-! Placement (10 R210-R213). -/

/-- Every valid dependence of the record is met (10 R210). -/
def State.eligible (s : State) (r : LaunchRec) : Bool :=
  r.deps.all fun d => !d.getLsbD 7 ||
    decide ((Tab.get 0 s.counters (d.toNat % 64) - BitVec.ofNat 32 (d.toNat / 2 ^ 32)).toNat < 2 ^ 31)

/-- The core has room for a block (01 R18, R19). -/
def State.coreFits (s : State) (r : LaunchRec) (core : Nat) : Bool :=
  decide (r.groups ≤ (s.contextsFree core).length) && decide (48 * r.width * r.groups ≤ s.regsFree core) && decide (r.range ≤ s.scratchFree core)

/-- Places a block on a core: its groups in the state of Table WRK-4. -/
def State.placeBlock (s : State) (launch : Nat) (r : LaunchRec) (core cluster linear rank : Nat) : State :=
  let id := s.nextId
  let bar0 : Barrier := { Barrier.free with alloc := true }
  let b : Block :=
    { launch := launch, x := linear % r.gridx, y := linear / r.gridx % r.gridy, z := linear / (r.gridx * r.gridy), linear := linear, clrank := rank,
      cluster := cluster, core := core, away := false, placed := s.now core, stayed := 0, barriers := [(0, bar0)], bindings := [], fetchws := [],
      drawn := 0, halt := none, unit := none, ended := false, kept := [], keptClaims := [], keptChart := none, keptBanks := [] }
  let free := s.contextsFree core
  let s1 := { s with nextId := id + 1 + r.groups, blocks := Tab.put s.blocks id b }
  let s2 := { s1 with groups := each (List.range r.groups) (fun g t => Tab.put t (id + 1 + g) (r.group id (free.getD g 0) g s.cycle (s.now core))) s1.groups }
  ((s2.onCluster cluster fun k => { k with blocks := k.blocks ++ [id] }).onCore core fun k => { k with l1 := [] }).setScratch core

/-- Places n more blocks of a cluster, each on the lowest of the cores with room; none where one does not fit. -/
def State.placeRest (s : State) (launch : Nat) (r : LaunchRec) (cores : List Nat) (cluster : Nat) : Nat → Nat → Nat → Option State
  | 0, _, _ => some s
  | n + 1, linear, rank => match cores.find? (s.coreFits r) with
    | none => none
    | some c => (s.placeBlock launch r c cluster linear rank).placeRest launch r cores cluster n (linear + 1) (rank + 1)

/-- Places the cluster whose first block is `linear`, a single block anywhere, a larger one in the lowest pod that takes it (log entry 12). -/
def State.placeCluster (s : State) (launch : Nat) (r : LaunchRec) (linear : Nat) : Option State :=
  let id := s.nextId
  let s1 := { s with nextId := id + 1, clusters := Tab.put s.clusters id { blocks := [], barriers := [] } }
  if r.cluster = 1 then s1.placeRest launch r (List.range 576) id 1 linear 0
  else (List.range 48).findSome? fun p => s1.placeRest launch r ((List.range 12).map (12 * p + ·)) id r.cluster linear 0

/-- Places a whole grid. -/
def State.placeGrid (s : State) (launch : Nat) (r : LaunchRec) : Nat → Nat → Option State
  | 0, _ => some s
  | n + 1, linear => match s.placeCluster launch r linear with
    | none => none
    | some s1 => s1.placeGrid launch r n (linear + r.cluster)

/-- Grid barriers in use; the lowest free one. -/
def State.gridBarrier (s : State) : Option Nat := (List.range 4).find? fun i => !(s.launches.any fun e => e.2.coop = some i)

/-- The next placement of a launch, where it can be made now. -/
def State.tryPlace (s : State) (launch : Nat) (l : Launch) : Option State :=
  if l.card.flags.getLsbD 2 then
    match s.gridBarrier with
    | none => none
    | some i => (s.placeGrid launch l.card (l.card.total / l.card.cluster) 0).map fun t =>
        t.onLaunch launch fun l => { l with nextBlock := l.card.total, coop := some i }
  else (s.placeCluster launch l.card l.nextBlock).map fun t => t.onLaunch launch fun l => { l with nextBlock := l.nextBlock + l.card.cluster }

/-- The queue is ready (10 R211): the placement it would make. One with a waiting access is not, so its count begins anew afterwards (log entry 82). -/
def State.readyPlace (s : State) (n : Nat) : Option State :=
  let q := s.queue n
  if decide (n < 64) && (!q.en || q.stop || s.qWaits n) then none
  else match s.holding n with
    | none => none
    | some (id, l) => if s.eligible l.card then s.tryPlace id l else none

/-- Priority of a queue; device queue 64 + p has priority p. -/
def State.prioOf (s : State) (n : Nat) : Nat := if n < 64 then (s.queue n).prio else n - 64

/-- The queue the next placement serves (10 R211), among the ready ones. -/
def State.pilotChoice (s : State) (ready : List Nat) : Option Nat :=
  let longest := (ready.filter fun n => decide (64 ≤ (s.queue n).waited)).foldl (fun best n => match best with
    | none => some n
    | some b => if (s.queue b).waited < (s.queue n).waited then some n else some b) none
  match longest with
  | some n => some n
  | none =>
    let p := ready.foldl (fun m n => min m (s.prioOf n)) 4
    let same := ready.filter fun n => s.prioOf n == p
    match Tab.find s.lastServed p with
    | none => same.head?
    | some k => ((same.find? fun n => decide (k < n)).or same.head?)

/-- Queues that hold a record with blocks to place. -/
def State.holders (s : State) : List Nat := (List.range 68).filter fun n => (s.holding n).isSome
def State.readyQueues (s : State) : List Nat := s.holders.filter fun n => (s.readyPlace n).isSome

/-- A queue that has stopped being ready starts its count again when it next is (10 R211). -/
def State.noteReady (s : State) : State :=
  each (s.queues.filter fun e => e.2.wasReady && (s.readyPlace e.1).isNone) (fun e s => s.onQueue e.1 fun q => { q with waited := 0, wasReady := false }) s

/-- A half of a 64-bit register replaced: the low one, or the high one. -/
def setHalf (old : Nat) (high : Bool) (v : Word) : Nat :=
  if high then v.toNat * 2 ^ 32 + old % 2 ^ 32 else old / 2 ^ 32 * 2 ^ 32 + v.toNat

/-- Bits [hi:lo] of a value in their places. -/
def keepBits (hi lo x : Nat) : Nat := bitsAt x lo (hi + 1 - lo) * 2 ^ lo

/-- A 4-byte write to QBASE (offsets 0 and 4), QCTL (8) or QSTAT (12) takes effect (10 Table WRK-1). Where it enables the queue or moves it, the Pilot's
copy of the tail is taken anew. -/
def Queue.setReg (s : State) (o : Nat) (v : Word) (q : Queue) : Queue :=
  let anew (q : Queue) : Queue := { q with tail := BitVec.ofNat 64 (s.qHead q) }
  if o = 12 then
    let q1 := if v.getLsbD 8 then { q with cfault := false } else q
    if v.getLsbD 31 then Queue.goOn s q1 else q1
  else if o = 8 then
    let q1 := { q with en := v.getLsbD 31, ctx := bitsAt v.toNat 16 6, prio := bitsAt v.toNat 8 2, logn := bitsAt v.toNat 0 4 }
    if q.en then q1 else anew q1
  else anew { q with base := keepBits 51 12 (setHalf q.base (o == 4) v) }

/-- The writes to queue registers that awaited a placement take effect (17 R344). -/
def State.takeWrites (s : State) : State :=
  each (s.queues.filter fun e => !e.2.pending.isEmpty) (fun e s =>
    s.onQueue e.1 fun q => each q.pending (fun w q => q.setReg s w.1 w.2) { q with pending := [] }) s

/-- BLOCK_PLACEMENT (10 R211): the chosen queue's next placement; the waits of the other queues are counted, and then the writes to queue registers take
effect. -/
def execBlockPlacement (queue : Nat) (s : State) : Host.Outcome State Fault Refusal :=
  let ready := s.readyQueues
  if s.pilotChoice ready ≠ some queue then .next s
  else match s.readyPlace queue with
    | none => .next s
    | some s1 =>
      let count (n : Nat) (s : State) : State := s.onQueue n fun q =>
        if n = queue then { q with waited := 0, wasReady := true }
        else if ready.contains n then { q with waited := (if q.wasReady then q.waited else 0) + 1, wasReady := true }
        else { q with waited := 0, wasReady := false }
      .next (each (List.range 68) count { s1 with lastServed := Tab.put s1.lastServed (s.prioOf queue) queue }).takeWrites

/-! Completion (10 R217). -/

/-- Every block has been placed or withdrawn and has ended, and every kill record is written. -/
def State.launchDone (s : State) (id : Nat) (l : Launch) : Bool :=
  decide (l.card.total ≤ l.nextBlock) && l.kills.isEmpty && !(s.blocks.any fun e => e.2.launch == id && !e.2.ended)

/-- Where the completion value goes: none without a pointer, an error where its translation faults. -/
def State.completionLoc (s : State) (l : Launch) : Except PtrFault (Option Nat) :=
  if l.card.compPtr = 0 then .ok none
  else match s.walk l.ctx (ptrSpace l.card.compPtr) (ptrAddr l.card.compPtr) .write (l.card.flags.getLsbD 1) with
    | .error f => .error f
    | .ok x => .ok (some (if ptrSpace l.card.compPtr = 1 then Ops.hostLoc x.pa else Ops.devLoc x.pa))

/-- The soundings' record waits at its home slice. -/
def State.recordHeld (s : State) (id : Nat) (l : Launch) : Bool := (Tab.find s.soundings id).isSome && s.heldAt (s.context l.ctx).saveBase
/-- The completion value waits at its home slice. -/
def State.completionHeld (s : State) (l : Launch) : Bool :=
  match s.completionLoc l with
  | .ok (some x) => s.heldAt x
  | _ => false

/-- The next part of a launch's completion can be performed: the soundings' record and the counter, then the completion value. -/
def State.completes (s : State) (id : Nat) (l : Launch) : Bool :=
  s.launchDone id l && (l.silent || if l.counted then !s.completionHeld l else !s.recordHeld id l)

/-- The soundings' record of a launch (17 R353), then its counter (10 R217 step 2). -/
def State.countLaunch (s : State) (id : Nat) (l : Launch) : State :=
  let s1 := match Tab.find s.soundings id with
    | some x =>
      let cells : List (Nat × Byte) := x.stop.bytes.zipIdx.map fun (b : Byte × Nat) => ((s.context l.ctx).saveBase + b.2, b.1)
      { s.writeBytes cells with soundings := Tab.erase s.soundings id }
    | none => s
  let s2 := if l.card.counter.getLsbD 7
    then { s1 with counters := Tab.set 0 s1.counters (l.card.counter.toNat % 64) (Tab.get 0 s1.counters (l.card.counter.toNat % 64) + 1) } else s1
  s2.onLaunch id fun l => { l with counted := true }

/-- The entries the walk of the completion pointer reads, as the slice logs see them (17 R354). -/
def State.logCompletion (s : State) (l : Launch) : State :=
  let sp := ptrSpace l.card.compPtr
  if s.logRegs = [] ∨ l.card.compPtr = 0 then s
  else each (s.walkReads (ptrAddr l.card.compPtr) [1, 2, 3, 4, 5] ((s.context l.ctx).rootOf sp)) (fun x s => s.logRequest 0 (Asker.walker l.ctx) x) s

/-- The completion value (10 R217 step 3): a fault drops it and sets CFAULT. -/
def State.tellCompletion (s0 : State) (l : Launch) : State :=
  let s := s0.logCompletion l
  match s.completionLoc l with
  | .error _ => s.onQueue l.host fun q => { q with cfault := true }
  | .ok none => s
  | .ok (some x) => s.writeNat x 8 l.card.compVal.toNat

/-- The launch is gone, with its blocks. -/
def State.dropLaunch (s : State) (id : Nat) : State :=
  let mine (b : Nat) : Bool := (Tab.find s.blocks b).any fun k => k.launch == id
  { s with launches := Tab.erase s.launches id, soundings := Tab.erase s.soundings id, groups := s.groups.filter fun e => !mine e.2.block,
           clusters := s.clusters.filter fun e => !(e.2.blocks.any mine), units := s.units.filter fun e => !(e.2.blocks.any mine),
           blocks := s.blocks.filter fun e => !mine e.1 }

/-- LAUNCH_COMPLETE (10 R217): the soundings' record, the counter, the completion value, each once it can be performed; the launch is gone. One that a
function-level reset has killed leaves no trace (log entry 57). -/
def execLaunchComplete (launch : Nat) (s : State) : Host.Outcome State Fault Refusal :=
  match Tab.find s.launches launch with
  | none => .next s
  | some l =>
    if !s.completes launch l then .next s
    else if l.silent then .next (s.dropLaunch launch)
    else
      let s1 := if l.counted then s else s.countLaunch launch l
      if s1.completionHeld l then .next s1 else .next ((s1.tellCompletion l).dropLaunch launch)

/-! Answers to programs. -/

/-- FETCHW_FILL (10 R225): one outstanding mailbox of a block, the flag last. -/
def execFetchwFill (block : Nat) (s : State) : Host.Outcome State Fault Refusal :=
  match Tab.find s.blocks block with
  | none => .next s
  | some b => match b.fetchws[s.pick % b.fetchws.length]?, Tab.find s.launches b.launch with
    | some m, some l =>
      if b.away || b.ended then .next s
      else
        let at' (o : Nat) : Nat := Ops.scratchLoc block (m + o)
        let s1 := s.onBlock block fun b => { b with fetchws := b.fetchws.erase m }
        if 1 < l.card.cluster then .next (s1.writeNat (at' 12) 4 3)
        else if l.card.total ≤ l.nextBlock then .next (s1.writeNat (at' 12) 4 2)
        else
          let i := l.nextBlock
          let s2 := (s1.onLaunch b.launch fun l => { l with nextBlock := i + 1 }).onBlock block fun b => { b with drawn := b.drawn + 1 }
          let s3 := (s2.writeNat (at' 0) 4 (i % l.card.gridx)).writeNat (at' 4) 4 (i / l.card.gridx % l.card.gridy)
          .next ((s3.writeNat (at' 8) 4 (i / (l.card.gridx * l.card.gridy))).writeNat (at' 12) 4 1)
    | _, _ => .next s

/-- LAUNCH_ANSWER (10 R226): the record is checked and appended to its device queue; the status goes to the pair's even register. -/
def execLaunchAnswer (group op : Nat) (s : State) : Host.Outcome State Fault Refusal :=
  match s.launchReqs.find? fun r => r.group = group ∧ r.op = op with
  | none => .next s
  | some r => match Tab.find s.groups group with
    | none => .next s
    | some g =>
      let n := 64 + r.prio
      let l := s.launchOf g
      let queued := Tab.get [] s.devQueues n
      let rec1 : DevRecord := { card := r.card, ctx := s.ctxOf g, host := (l.map (·.host)).getD 0, index := (l.map (·.index)).getD 0 }
      let out : Word × State := match r.card.why r.zeros (!s.privOf g) with
        | some w => (0x100 + w.setWidth 32, s)
        | none => if 256 ≤ queued.length then (1, s) else (0, { s with devQueues := Tab.set [] s.devQueues n (queued ++ [rec1]) })
      let s1 := { out.2 with launchReqs := s.launchReqs.filter fun q => !(q.group == group && q.op == op) }
      .next (s1.onGroup group fun g => Group.wake (fun w => w == .launch op) (g.writeLate r.epoch r.slices r.reg out.1))

end Sys2Proof.Machine
end

