-- ==== Sys2Proof/Machine/Preempt.lean ====
section
/-! DEFINITION. Pre-emption (16 R334-R341): the request, the handler path, the fall-back's courses, swapping out and restoring. Which blocks are asked and
when a unit is placed again is the Pilot's choice. -/

namespace Sys2Proof.Machine

/-! The unit. -/

/-- Blocks of a unit that have not ended. -/
def State.unitBlocks (s : State) (u : PreUnit) : List (Nat × Block) :=
  u.blocks.filterMap fun n => (Tab.find s.blocks n).bind fun b => if b.ended then none else some (n, b)

/-- Groups of a unit with a lane that has not exited. -/
def State.unitGroups (s : State) (u : PreUnit) : List (Nat × Group) :=
  s.groups.filter fun e => u.blocks.contains e.2.block && !e.2.ended && !e.2.finished

def State.unitLaunch (s : State) (u : PreUnit) : Option Launch := ((s.unitBlocks u).head?).bind fun b => Tab.find s.launches b.2.launch
def State.unitCtx (s : State) (u : PreUnit) : Nat := ((s.unitLaunch u).map (·.ctx)).getD 0

/-- The blocks pre-empted together with a block: its cooperative grid, else its cluster (R334). -/
def State.mates (s : State) (b : Block) : List Nat :=
  let coop := ((Tab.find s.launches b.launch).map (·.coop.isSome)).getD false
  (s.blocks.filter fun e => !e.2.ended && (if coop then e.2.launch == b.launch else e.2.cluster == b.cluster)).map (·.1)

/-- PREEMPT_REQUEST (R334): the unit's groups stop; it waits until a halted block is released. A unit already asked or swapped out is left alone. -/
def execPreemptRequest (block : Nat) (s : State) : Host.Outcome State Fault Refusal :=
  match Tab.find s.blocks block with
  | none => .next s
  | some b =>
    let bs := s.mates b
    let some' (p : Block → Bool) : Bool := bs.any fun n => (Tab.find s.blocks n).any p
    if b.ended || some' (fun k => k.away || k.unit.isSome) then .next s
    else if some' (fun k => k.halt.isSome) then .next (s.again (.preemptRequest block))
    else
      let id := s.nextId
      let u : PreUnit :=
        { blocks := bs, bound := ((Tab.find s.launches b.launch).map fun l => l.card.preBound.toNat).getD 0, t0 := 0, path := false,
          entered := false, course := none, handed := false, away := false, byPreok := false, size := 0, missed := false }
      let path := (s.unitGroups u).all fun e => e.2.preEn && e.2.handler.isNone
      let drop (g : Group) : Group := match g.trap with
        | some t => Group.setBack t { g with trap := none }
        | none => g
      let s1 : State := { s with nextId := id + 1, units := Tab.put s.units id { u with path := path, t0 := s.unitNow u },
                                 groups := Tab.each s.groups fun _ g => if bs.contains g.block then drop g else g }
      .next (each bs (fun n s => (s.onBlock n fun k => { k with unit := some id }).stopBlock n) s1)

/-! The handler path (R335). -/

/-- A group enters its pre-emption handler. -/
def Group.enterPre (id : Nat) (g : Group) : Group :=
  let h := bitSet 32 fun i => decide (i < g.slices.length) && decide ((g.slice i).exited ≠ 15)
  let lanes := g.lanesOf h &&& ~~~g.exitedLanes
  let t : Trap := { stage := 0, cause := 0x18, pc := (g.slice (lowest 0 h)).seq.pc, word := 0, faddr := 0, level := 0, kind := 0, async := false, lanes := lanes,
                    slices := h, born := 0 }
  let g1 : Group :=
    { g with tpc := t.pc, tcause := t.tcause t.cause, tword := 0, faddr := 0, m := Tab.set 0 g.m 7 lanes,
             handler := some { id := id, kind := .pre, h := h, s := h, banked := [], before := g.longs.map (·.1) ++ g.ways.map (·.1),
                               frame := (members h).map fun i => (i, (g.slice i).seq) } }
  g1.onSlices h fun i x => { x with gang := 0, seq := { Seq.empty with pc := g.preBase, m := laneNib lanes i, a := laneNib lanes i } }

def State.unitStopped (s : State) (u : PreUnit) : Bool :=
  u.blocks.all fun n => s.blockStopped n && !((Tab.find s.blocks n).any fun b => b.halt.isSome)

/-- The handlers of the unit can be entered. -/
def State.preEntryDue (s : State) (u : PreUnit) : Bool :=
  u.path && !u.entered && u.course.isNone && !u.away && !u.expired (s.unitNow u) && s.unitStopped u

/-- PREEMPT_HANDLER_ENTRY; what a split has begun to wait for since the request ends as the stop ends it (16 R327). -/
def execPreemptHandlerEntry (unit : Nat) (s : State) : Host.Outcome State Fault Refusal :=
  match Tab.find s.units unit with
  | none => .next s
  | some u =>
    if !s.preEntryDue u then .next s
    else
      let enter (e : Nat × Group) (s : State) : State := s.fresh.2.onGroup e.1 (Group.enterPre s.nextId)
      let s1 := each u.blocks (fun n s => s.stopBlock n) s
      .next ((each (s1.unitGroups u) enter s1).onUnit unit fun u => { u with entered := true })

/-! What a save keeps (R338, R340). -/

/-- The stowage entry's v registers for a code address of a group, with those the clause's words name where it lies inside the clause. -/
def State.liveAt (s : State) (gid : Nat) (g : Group) (pc : Pc) : List Nat :=
  let clause := clauseOf pc
  let e := Tab.get 0 s.stowage (s.ctxOf g * 2 ^ 57 + clause.toNat)
  let named := if pc = clause then [] else match s.fetchClause gid g 0 8 clause with
    | .words w => (headSlots (decodeHead (w.getD 0 0))).flatMap fun i => Word.vNames (w.getD i 0)
    | _ => []
  (List.range 96).filter fun r => e.getLsbD r || named.contains r

/-- The code addresses a sequencer holds. -/
def Seq.pcs (q : Seq) : List Pc :=
  (if q.m = 0 then [] else [q.pc]) ++ q.parked.map (·.1) ++ q.releases.map (·.1) ++ q.susp.map (·.2.1)

/-- The v registers live in a group, over its slices and the sequencers its handler keeps; v48-v95 only while they are in the register file. -/
def State.liveRegs (s : State) (gid : Nat) (g : Group) : List Nat :=
  let frame := match g.handler with
    | some h => (if h.kind = .trap then [g.tpc] else []) ++ h.frame.flatMap fun e => e.2.pcs
    | none => []
  let pcs := (g.slices.flatMap fun x => x.seq.pcs) ++ frame
  let live := pcs.map (s.liveAt gid g)
  (List.range (if g.held then 96 else 48)).filter fun r => live.any fun l => l.contains r

/-- The pseudo-channels a block holds in all-bank mode. -/
def State.banksOf (s : State) (bn : Nat) : List (Nat × PChannel) := s.pchannels.filter fun e => e.2.holder = some bn

/-- The commands queued on a core for a block. -/
def Core.cmdsOf (k : Core) (bn : Nat) : List (Engine × EngCmd) :=
  engines.flatMap fun e => ((k.queueOf e).filter fun x => x.block == bn).map fun x => (e, x)

/-- The save count of one block (Table TRP-8). -/
def State.saveCount (s : State) (bn : Nat) (b : Block) : Nat :=
  let gs := (s.groupsOf bn).filter fun e => !e.2.ended && !e.2.finished
  let regs := (gs.map fun e => 2048 + 4 * e.2.width * (s.liveRegs e.1 e.2).length).foldl (· + ·) 0
  let k := s.core b.core
  regs + ((Tab.find s.launches b.launch).map fun l => l.card.range).getD 0 + 4096 * b.bindings.length
    + (if k.chart.owner = some bn then 67648 else 0) + 12288 * (s.banksOf bn).length + 64 * (k.cmdsOf bn).length

def State.unitCount (s : State) (u : PreUnit) : Nat := ((s.unitBlocks u).map fun e => s.saveCount e.1 e.2).foldl (· + ·) 0

/-- Bytes of a context's save region that units swapped out take. -/
def State.saveUsed (s : State) (ctx : Nat) : Nat :=
  ((s.units.filter fun e => e.2.away && s.unitCtx e.2 == ctx).map fun e => e.2.size).foldl (· + ·) 0

/-- The unit's record fits in what remains of its context's save region (R339 step 4; log entry 18). -/
def State.saveFits (s : State) (u : PreUnit) : Bool :=
  let ctx := s.unitCtx u
  decide (4096 + s.saveUsed ctx + s.unitCount u ≤ (s.context ctx).saveSize)

/-! Swapping out (R339). -/

/-- A block's scratchpad reads 0 again. -/
def State.clearScratch (s : State) (bn : Nat) : State :=
  let lo := Ops.scratchLoc bn 0
  { s with mem := s.mem.filter fun e => !(decide (lo ≤ e.1) && decide (e.1 < lo + 2 ^ 20)) }

/-- What a core holds for a block leaves it; commands queued on an owned chart that another block has released run on (13 R273). -/
def Core.forget (k : Core) (bn : Nat) (gids : List Nat) : Core :=
  let other (x : EngCmd) : Bool := x.block != bn
  let apart (x : Claim) : Bool := x.block != bn
  { k with copyQ := k.copyQ.filter other, tileQ := k.tileQ.filter other, chartQ := k.chartQ.filter other, bankQ := k.bankQ.filter other,
           linkQ := k.linkQ.filter other, slotLine := k.slotLine.filter apart, accLine := k.accLine.filter apart,
           regLine := k.regLine.filter fun n => !gids.contains n,
           chart := if k.chart.owner = some bn then { k.chart with owner := none } else k.chart }

/-- A command as it is kept: from where it has come to; a calibration begins anew. -/
def EngCmd.stowed (x : EngCmd) : EngCmd :=
  match x.cmd with
  | .bkcal _ => { x with done := 0, waits := none }
  | _ => { x with waits := none }

/-- A block leaves its core with its commands, claims, chart and all-bank modes kept. -/
def State.stowBlock (s : State) (preok : Bool) (bn : Nat) : State :=
  match Tab.find s.blocks bn with
  | none => s
  | some b =>
    if b.ended then s
    else
      let k := s.core b.core
      let gids := (s.groupsOf bn).map (·.1)
      let banks := s.banksOf bn
      let s1 := ((s.stopBlock bn).stopCal ((k.cmdsOf bn).map (·.2.id))).onCore b.core fun k => k.forget bn gids
      let s2 := each banks (fun e s => s.leaveBankMode e.1) s1
      let s3 := s2.onBlock bn fun b =>
        { b with away := true, stayed := b.stayed + (s.now b.core - b.placed), kept := (k.cmdsOf bn).map fun e => (e.1, e.2.stowed),
                 keptClaims := (k.slotLine ++ k.accLine).filter fun x => x.block == bn,
                 keptChart := if k.chart.owner = some bn then some k.chart else none, keptBanks := banks.map fun e => (e.1, e.2.b, e.2.p) }
      let lose (g : Group) : Group := if g.block = bn && preok then { g.dropExt with v := [] } else g
      let s4 := (({ s3 with groups := Tab.each s3.groups fun _ g => lose g } : State).setTimers bn).setScratch b.core
      if preok then s4.clearScratch bn else s4

/-- A location in a pseudo-channel that a block of the unit holds, so that what waits there goes on once the unit is swapped out. -/
def State.ownHeld (s : State) (u : PreUnit) (l : Nat) : Bool :=
  (Ops.pchOf l).any fun p => (s.pchannel p).holder.any u.blocks.contains

/-- A word or request of the unit is under way: it writes its results, receives its replies or is set back before the unit is swapped out (16 R339 steps 1
and 2), but one that waits for the unit itself. -/
def State.unitBusy (s : State) (u : PreUnit) : Bool :=
  let mine (n : Nat) : Bool := (Tab.find s.groups n).any fun g => u.blocks.contains g.block
  let waits (r : Request) : Bool := match r.ask with
    | .atom _ locs _ _ => locs.any (s.ownHeld u)
    | _ => false
  let sent := s.net ++ s.podQ.flatMap (·.2)
  let word (gid : Nat) (g : Group) (o : Nat × LongOp) : Bool :=
    !(g.awaitsBlock o.2) && !(o.2.reads.any fun r => r.cells.any fun c => c.2.isNone && s.ownHeld u c.1)
      && !(sent.any fun r => r.group == gid && r.op == o.1 && waits r)
  (sent.any fun r => mine r.group && !waits r) || (s.replies.any fun r => mine r.group)
    || (s.unitGroups u).any fun e => !e.2.ways.isEmpty || e.2.longs.any (word e.1 e.2)

/-- n bytes of device memory from lo on take values the spec leaves open: the record of a unit, whose layout is not architectural (log entry 18). -/
def State.writeFree (s : State) (lo n : Nat) : State :=
  let cells := ((List.range n).map fun i => (lo + i, (Config.freeWord (s.free + i)).setWidth 8)).filter fun (c : Nat × Byte) => c.2 ≠ 0
  { s with free := s.free + n, mem := (s.mem.filter fun e => decide (e.1 < lo)) ++ cells ++ s.mem.filter fun e => decide (lo + n ≤ e.1) }

/-- A miss in the unit's context, which saturates (17 R344). -/
def State.countMiss (s : State) (ctx : Nat) : State :=
  s.onContext ctx fun c => { c with miss := BitVec.ofNat 32 (min (c.miss.toNat + 1) (2 ^ 32 - 1)) }

/-- A course is chosen: splits that wait in `preok` go on, once their block does. -/
def State.setCourse (s : State) (unit : Nat) (u : PreUnit) (course : Nat) : State :=
  let s1 := s.onUnit unit fun v => { v with course := some course, t0 := s.unitNow u }
  each u.blocks (fun n s => s.wakeBlock n fun w => w == .preok) s1

/-- The unit swapped out (16 R339): its words and requests are done, every chart command of its has run (13 R294), every store of its has been performed and
its record written; none while one of these is not. A unit whose record does not fit drains instead, which counts a miss. -/
def State.swapOut (s : State) (unit : Nat) (u : PreUnit) (preok : Bool) : Option State :=
  let bs := s.unitBlocks u
  if s.unitBusy u || bs.any fun e => (s.core e.2.core).chartQ.any fun x => x.block == e.1 then none
  else if !s.saveFits u then some ((s.setCourse unit u 0).countMiss (s.unitCtx u))
  else
    let size := s.unitCount u
    let s1 := each u.blocks (fun n s => s.stowBlock preok n) s
    let s2 := each bs (fun e s => s.drainFree e.2.core) s1
    let mine (n : Nat) : Bool := (Tab.find s2.groups n).any fun g => u.blocks.contains g.block
    let lo := (s.context (s.unitCtx u)).saveBase + 4096 + s.saveUsed (s.unitCtx u)
    if (bs.any fun e => (s2.core e.2.core).stores.any fun p => mine p.group) || s2.heldAt (lo + size - 1) || (List.range (size / 512 + 1)).any fun i => s2.heldAt (lo + 512 * i) then none
    else some ((s2.writeFree lo size).onUnit unit fun u => { u with away := true, byPreok := preok, size := size })

/-- `preok` (16 R336): while the handler path is open the split waits. -/
def execPreok (s : State) : Host.Outcome State Fault Refusal :=
  Ops.word noSig (fun c s =>
    if (c.g.handler.map fun h => h.kind) ≠ some .pre then .trap (c.trap 7 0x05)
    else match (c.block s).bind fun b => b.unit.bind fun n => Tab.find s.units n with
      | none => .ok s
      | some u =>
        if !u.path || u.away || u.course.isSome then .ok s
        else .jump (((s.advance c.u).waitFor c.u .preok).noteHanded c.g.block)) s

/-! The fall-back (R337). -/

/-- Cycles a block has been resident. -/
def State.resided (s : State) (b : Block) : Nat := b.stayed + (s.now b.core - b.placed)

/-- A flush is permitted (Table TRP-4); a lane that has exited holds its sections until they are poisoned (09 R203). -/
def State.mayFlush (s : State) (u : PreUnit) (l : Launch) : Bool :=
  let sent (e : Nat × Block) : Bool := ((s.core e.2.core).cmdsOf e.1).any fun x => x.2.sent
  l.card.flags.getLsbD 0 && s.groups.all (fun e => !u.blocks.contains e.2.block || e.2.sections.isEmpty) && !(s.unitBlocks u).any sent

/-- The course with the lowest estimate within the bound: 0 drain, 1 flush, 2 save; whether it is a miss, since none fits. Estimates are multiplied by the
count of ended blocks, so that the mean residence is exact. -/
def State.chooseCourse (s : State) (u : PreUnit) : Nat × Bool :=
  match s.unitLaunch u with
  | none => (0, false)
  | some l =>
    let n := max 1 l.ended
    let rs := (s.unitBlocks u).map fun e => s.resided e.2
    let sum (f : Nat → Nat) : Nat := (rs.map f).foldl (· + ·) 0
    let drain := if l.ended = 0 || rs.any (fun r => decide (l.resided ≤ n * r)) then none else some (sum fun r => l.resided - n * r)
    let flush := if s.mayFlush u l then some (n * sum fun r => 256 + r) else none
    let save := some (n * (512 + (s.unitCount u + 127) / 128))
    let fits (x : Nat) : Bool := u.bound == 0 || decide (x ≤ n * u.bound)
    let cands : List (Nat × Nat) := [(0, drain), (1, flush), (2, save)].filterMap fun e => e.2.bind fun x => if fits x then some (e.1, x) else none
    let best := cands.foldl (fun best e => match best with
      | none => some e
      | some b => if e.2 < b.2 then some e else some b) none
    match best with
    | some b => (b.1, false)
    | none => (2, true)

/-- A block is discarded, to be placed again from the state of Table WRK-4. -/
def State.flushBlock (s : State) (bn : Nat) : State :=
  match Tab.find s.blocks bn with
  | none => s
  | some b =>
    if b.ended then s
    else
      let gs := s.groupsOf bn
      let gids := gs.map (·.1)
      let s1 := each gs (fun e s => each e.2.ways (fun w s => s.withdrawKeys e.1 w.1 w.2.keys) s) s
      let s2 := (s1.stopCal (((s1.core b.core).cmdsOf bn).map (·.2.id))).onCore b.core fun k => k.forget bn gids
      let s3 := each (s2.banksOf bn) (fun e s => s.leaveBankMode e.1) s2
      let s4 := s3.onCluster b.cluster fun k => { k with barriers := [] }
      let s5 := s4.onLaunch b.launch fun l => { l with grid := if l.coop.isSome then WideBarrier.empty else l.grid }
      let s6 := s5.onBlock bn fun b => { b with away := true, stayed := 0, barriers := [(0, { Barrier.free with alloc := true })], bindings := [], fetchws := [] }
      let here (r : Request) : Bool := gids.contains r.group && match r.ask with
        | .atom _ locs _ _ => locs.any fun l => l / 2 ^ 64 == 3
        | _ => false
      let s7 := s6.setScratch b.core
      State.clearScratch { s7 with groups := s7.groups.filter fun e => !gids.contains e.1,
                                   net := s7.net.filter fun r => !here r,
                                   podQ := Tab.each s7.podQ fun _ q => q.filter fun r => !here r,
                                   launchReqs := s7.launchReqs.filter fun r => !gids.contains r.group,
                                   probes := s7.probes.filter fun p => !gids.contains p.1 } bn

/-- What comes of a unit now: the swap once every group has issued `preok` or a save has been chosen, the choice of a course once the path is closed and the
groups have stopped, or the miss of a drain that runs past its bound. Each ground for a miss counts one (log entry 88). -/
def State.expiry (s : State) (unit : Nat) (u : PreUnit) : Option State :=
  if u.away then none
  else match u.course with
    | some 0 => if u.bound ≠ 0 && !u.missed && decide (u.t0 + u.bound < s.unitNow u) then
        some ((s.countMiss (s.unitCtx u)).onUnit unit fun u => { u with missed := true }) else none
    | some 2 => s.swapOut unit u false
    | some _ => none
    | none =>
      if u.handed then s.swapOut unit u true
      else if !u.expired (s.unitNow u) || !s.unitStopped u then none
      else
        let s1 := each u.blocks (fun n s => s.stopBlock n) s
        let c := s1.chooseCourse u
        let s2 := s1.setCourse unit u c.1
        let s3 := if c.2 then s2.countMiss (s.unitCtx u) else s2
        some (if c.1 = 1 then (each u.blocks (fun n s => s.flushBlock n) s3).onUnit unit fun u => { u with away := true } else s3)

/-- PREBOUND_EXPIRY. -/
def execPreboundExpiry (unit : Nat) (s : State) : Host.Outcome State Fault Refusal :=
  match Tab.find s.units unit with
  | none => .next s
  | some u => .next ((s.expiry unit u).getD s)

/-! Restoring (R341). -/

/-- Groups of a swapped-out block that hold a context. -/
def State.groupsAway (s : State) (bn : Nat) : List (Nat × Group) := (s.groupsOf bn).filter fun e => !e.2.ended

/-- The core has room for a block that was swapped out. -/
def State.roomFor (s : State) (flushed : Bool) (bn : Nat) (b : Block) (core : Nat) : Bool :=
  match Tab.find s.launches b.launch with
  | none => false
  | some l =>
    if flushed then s.coreFits l.card core
    else
      let gs := s.groupsAway bn
      let bound (acc : Bool) : Nat := (b.bindings.filter fun x => x.acc == acc).length
      decide (gs.length ≤ (s.contextsFree core).length) && decide ((gs.map fun e => e.2.regs).foldl (· + ·) 0 ≤ s.regsFree core)
        && decide (l.card.range ≤ s.scratchFree core)
        && (b.keptChart.isNone || ((s.core core).chart.owner.isNone && (s.core core).chartQ.isEmpty))
        && decide (bound false ≤ s.unitsFree core false) && decide (bound true ≤ s.unitsFree core true)

/-- Registers a save did not keep have unspecified values (log entry 11). -/
def State.scramble (s : State) (gid : Nat) : State :=
  match Tab.find s.groups gid with
  | none => s
  | some g =>
    let live := s.liveRegs gid g
    let dead := g.exitedLanes
    let kept (r l : Nat) : Bool := live.contains r && !dead.getLsbD l
    let v := each (List.range (if g.held then 96 else 48)) (fun r v => each (List.range g.width) (fun l v =>
      if kept r l then v else Tab.set 0 v (r * 128 + l) (Config.freeWord (s.free + r * 128 + l))) v) g.v
    State.onGroup { s with free := s.free + 96 * 128 } gid fun g => { g with v := v }

/-- A slice on another core: what it keeps in cycles of a core begins anew. -/
def Slice.moved (x : Slice) : Slice := { x with exitNow := 0, passTo := 0, after := 0 }

/-- A group takes up its work on a core again, in a cycle of that core. -/
def Group.unstow (now context : Nat) (preok : Bool) (g : Group) : Group :=
  Group.wake (fun w => w == .preok)
    { g with context := context, fetched := [], v := if preok then [] else g.v, slices := g.slices.map Slice.moved, flagTil := [], fpNew := 0,
             longs := Tab.each g.longs fun _ o => { o with since := now } }

/-- A swapped-out block is placed on a core. Its groups read no copy of memory older than one they have read or made (07 R154); its kept commands follow
those the core's queues hold, past 16 where they are full (log entry 83); the mode of each pseudo-channel it held is entered again (14 R311). -/
def State.unstowBlock (s : State) (flushed preok : Bool) (bn : Nat) (b : Block) (core : Nat) : State :=
  let ctx := s.contextsFree core
  let place (s : State) : State :=
    let s1 := (s.onBlock bn fun b =>
      { b with core := core, away := false, placed := s.now core, unit := none, kept := [], keptClaims := [], keptChart := none, keptBanks := [] }).onCore core
        fun k => { k with l1 := [], kc := [] }
    (s1.setScratch core).setTimers bn
  if flushed then
    match Tab.find s.launches b.launch with
    | none => s
    | some l =>
      let id := s.nextId
      place { s with nextId := id + l.card.groups,
                     groups := each (List.range l.card.groups) (fun g t => Tab.put t (id + g) (l.card.group bn (ctx.getD g 0) g s.cycle (s.now core))) s.groups }
  else
    let gs := s.groupsAway bn
    let s1 := each gs.zipIdx (fun e s => (if preok then s else s.scramble e.1.1).onGroup e.1.1 (Group.unstow (s.now core) (ctx.getD e.2 0) preok)) s
    let line := (gs.filter fun e => e.2.waitReg || e.2.spilled).map (·.1)
    let back (e : Engine × EngCmd) (k : Core) : Core := k.setQueue e.1 (k.queueOf e.1 ++ [e.2])
    let s2 := s1.onCore core fun k =>
      let k1 := each b.kept back k
      { k1 with slotLine := k1.slotLine ++ b.keptClaims.filter (fun x => !x.acc), accLine := k1.accLine ++ b.keptClaims.filter (fun x => x.acc),
                regLine := k1.regLine ++ line, chart := b.keptChart.getD k1.chart }
    let who : Asker := { core := core, gctx := 0xFF, ctx := ((Tab.find s.launches b.launch).map (·.ctx)).getD 0xFF }
    let enter (e : Nat × Tab BReg × Tab Word) (s : State) : State :=
      (s.enterBankMode who e.1 bn).onPchannel e.1 fun c => { c with b := e.2.1, p := e.2.2 }
    place (each b.keptBanks enter s2)

/-- Blocks placed in turn, each on the lowest of the cores with room. -/
def State.unstowOn (s : State) (flushed preok : Bool) (cores : List Nat) : List (Nat × Block) → Option State
  | [] => some s
  | e :: rest => match cores.find? (s.roomFor flushed e.1 e.2) with
    | none => none
    | some c => (s.unstowBlock flushed preok e.1 e.2 c).unstowOn flushed preok cores rest

/-- A cluster's blocks placed in one pod, a block without mates anywhere (log entry 12). -/
def State.unstowCluster (s : State) (flushed preok : Bool) (bs : List (Nat × Block)) : Option State :=
  let alone := bs.all fun e => (Tab.find s.launches e.2.launch).any fun l => l.card.cluster == 1
  if alone then s.unstowOn flushed preok (List.range 576) bs
  else (List.range 48).findSome? fun p => s.unstowOn flushed preok ((List.range 12).map (12 * p + ·)) bs

/-- The unit placed again: room for all of it, its words in flight complete, its pseudo-channels free. -/
def State.restore (s : State) (unit : Nat) (u : PreUnit) : Option State :=
  if !u.away then none
  else
    let bs := s.unitBlocks u
    let flushed := u.course == some 1
    let open' (e : Nat × Block) : Bool := (s.net ++ s.podQ.flatMap (·.2)).any fun r => (s.groupsAway e.1).any fun g => g.1 == r.group
    let settled := bs.all fun e => !open' e && (s.groupsAway e.1).all (fun g => g.2.longs.all fun o => g.2.awaitsBlock o.2) && e.2.keptBanks.all fun p => (s.pchannel p.1).holder.isNone && (s.pchannel p.1).calBy.isNone
    if !settled then none
    else
      let clusters := (bs.map fun e => e.2.cluster).eraseDups
      let go (s : Option State) (c : Nat) : Option State := s.bind fun s => s.unstowCluster flushed u.byPreok (bs.filter fun e => e.2.cluster == c)
      (clusters.foldl go (some s)).map fun t => { t with units := Tab.erase t.units unit }

/-- UNIT_RESTORE. -/
def execUnitRestore (unit : Nat) (s : State) : Host.Outcome State Fault Refusal :=
  match Tab.find s.units unit with
  | none => .next s
  | some u => .next ((s.restore unit u).getD s)

end Sys2Proof.Machine
end

