-- ==== Sys2Proof/Machine/Manage.lean ====
section
/-! DEFINITION. The management register file (17 R343-R346), rest states (R347, R348), reckoning trials (R355), the host's own accesses (R343, 07 R140), and
`tlbinv` (08 R178). Events from outside reach a device under way: see State.deliver. -/

namespace Sys2Proof.Machine

/-! Register writes (Table MGT-1). -/

/-- A 4-byte write to a context's entry (Table MGT-7). -/
def Context.write (c : Context) (o : Nat) (v : Word) : Context :=
  let root (old : Nat) : Nat := keepBits 51 12 (setHalf old (o % 8 == 4) v)
  match o with
  | 0x00 | 0x04 => { c with root0 := root c.root0 }
  | 0x08 | 0x0C => { c with root1 := root c.root1 }
  | 0x10 | 0x14 => { c with root2 := root c.root2 }
  | 0x18 | 0x1C => { c with saveBase := root c.saveBase }
  | 0x20 => { c with saveSize := keepBits 31 12 v.toNat }
  | 0x24 => { c with dbgctl := v.setWidth 3 }
  | 0x28 | 0x2C => { c with dbgBase := keepBits 51 16 (setHalf c.dbgBase (o % 8 == 4) v) }
  | 0x34 => { c with miss := v }
  | _ => c

/-- A 4-byte write to a launch queue's registers (10 Table WRK-1). One to those of an enabled queue takes effect at the Pilot's next placement (17 R344;
log entry 5). -/
def State.writeQueue (s : State) (n o : Nat) (v : Word) : State :=
  s.onQueue n fun q => if q.en then { q with pending := q.pending ++ [(o, v)] } else q.setReg s o v

/-- Progress counters of a context go into the trial record's first or second half. -/
def State.snapshot (s : State) (ctx half : Nat) : Tab DWord :=
  each (List.range 16) (fun i t => Tab.set 0 t (16 * half + i) (Tab.get 0 s.progress (ctx * 16 + i))) s.trial.record

/-- TRCTX as a context number. -/
def Trial.context (t : Trial) : Nat := t.ctx.toNat % 64

/-- A write to TRGO (R355). -/
def State.writeTrgo (s : State) (v : Word) : State :=
  if v.getLsbD 0 && !s.trial.go then
    { s with trial := { s.trial with go := true, endAt := s.cycle + s.trial.len.toNat * Ops.perMicro, record := s.snapshot s.trial.context 0 } }
  else s

/-- A 4-byte write to the trial registers. TRCTX keeps a context number and TRDLY a count up to 255; the record is the device's (log entry 5). -/
def State.writeTrial (s : State) (o : Nat) (v : Word) : State :=
  let t := s.trial
  let addr (old : DWord) : DWord := BitVec.ofNat 64 (keepBits 56 4 (setHalf old.toNat (o % 8 == 4) v))
  match o with
  | 0x00 => { s with trial := { t with ctx := v &&& 63 } }
  | 0x04 => { s with trial := { t with dly := v &&& 255 } }
  | 0x08 => { s with trial := { t with len := v } }
  | 0x0C => s.writeTrgo v
  | 0x10 | 0x14 => { s with trial := { t with lo := addr t.lo } }
  | 0x18 | 0x1C => { s with trial := { t with hi := addr t.hi } }
  | _ => s

/-- A write to RESTCTL (R346). -/
def State.writeRestctl (s : State) (v : Word) : State := { s with ltol := v }

/-- A 4-byte write at an offset of BAR0; what holds no register ignores it. -/
def State.writeReg (s : State) (off : Nat) (v : Word) : State :=
  if off = 0 then s.writeRestctl v
  else if 0x1000 ≤ off ∧ off < 0x1000 + 4 * 576 then s.onCore ((off - 0x1000) / 4) fun k => { k with tgate := v }
  else if 0x10000 ≤ off ∧ off < 0x10000 + 16 * 64 then s.writeQueue ((off - 0x10000) / 16) (off % 16) v
  else if 0x20000 ≤ off ∧ off < 0x20000 + 4 * 64 then { s with counters := Tab.set 0 s.counters ((off - 0x20000) / 4) v }
  else if 0x30000 ≤ off ∧ off < 0x30000 + 64 * 64 then
    let x := (off - 0x30000) / 64
    if off % 64 = 0x30 then s.writeResume x v else s.onContext x fun c => c.write (off % 64) v
  else if 0x40000 ≤ off ∧ off < 0x40000 + 128 * 64 then
    let i := (off - 0x40000) / 8
    { s with progress := Tab.set 0 s.progress i (BitVec.ofNat 64 (setHalf (Tab.get 0 s.progress i).toNat (off % 8 == 4) v)) }
  else if 0x80000 ≤ off ∧ off < 0x80020 then s.writeTrial (off - 0x80000) v
  else if 0x90000 ≤ off ∧ off < 0x90000 + 64 * 192 then
    { s with logRegs := each (List.range 4) (fun i t => Tab.set 0 t (off - 0x90000 + i) (BitVec.ofNat 8 (v.toNat / 2 ^ (8 * i)))) s.logRegs }
  else s

/-! Register reads. -/

/-- A half of a 64-bit register. -/
def half (x : Nat) (off : Nat) : Word := BitVec.ofNat 32 (if off % 8 = 4 then x / 2 ^ 32 else x)

/-- A context's entry as it reads (Table MGT-7). -/
def Context.read (c : Context) (o : Nat) : Word :=
  match o / 8 with
  | 0 => half c.root0 o
  | 1 => half c.root1 o
  | 2 => half c.root2 o
  | 3 => half c.saveBase o
  | 4 => if o % 8 = 4 then c.dbgctl.setWidth 32 else BitVec.ofNat 32 c.saveSize
  | 5 => half c.dbgBase o
  | 6 => if o % 8 = 4 then c.miss else c.resume
  | _ => 0

/-- A launch queue's registers as they read (10 Table WRK-1). -/
def Queue.read (q : Queue) (o : Nat) : Word :=
  match o with
  | 0 => half q.base 0
  | 4 => half q.base 4
  | 8 => BitVec.ofNat 32 (q.en.toNat * 2 ^ 31 + q.ctx * 2 ^ 16 + q.prio * 2 ^ 8 + q.logn)
  | _ => BitVec.ofNat 32 (q.stop.toNat * 2 ^ 31 + q.cfault.toNat * 2 ^ 8 + q.why.toNat)

/-- The trial registers and the trial record as they read (R355). -/
def Trial.read (t : Trial) (o : Nat) : Word :=
  match o with
  | 0x00 => t.ctx
  | 0x04 => t.dly
  | 0x08 => t.len
  | 0x0C => if t.go then 1 else 0
  | 0x10 | 0x14 => half t.lo.toNat o
  | 0x18 | 0x1C => half t.hi.toNat o
  | _ => if 0x100 ≤ o then half (Tab.get 0 t.record ((o - 0x100) / 8)).toNat o else 0

/-- What a 4-byte read at an offset of BAR0 gives; 0 where there is no register, or the offset is not a multiple of 4 (R344, Table MGT-1). -/
def State.readReg (s : State) (off : Nat) : Word :=
  if off % 4 ≠ 0 then 0
  else if off = 0 then s.ltol
  else if off = 4 then BitVec.ofNat 32 s.rest
  else if 0x1000 ≤ off ∧ off < 0x1000 + 4 * 576 then (s.core ((off - 0x1000) / 4)).tgate
  else if 0x10000 ≤ off ∧ off < 0x10000 + 16 * 64 then (s.queue ((off - 0x10000) / 16)).read (off % 16)
  else if 0x20000 ≤ off ∧ off < 0x20000 + 4 * 64 then Tab.get 0 s.counters ((off - 0x20000) / 4)
  else if 0x30000 ≤ off ∧ off < 0x30000 + 64 * 64 then (s.context ((off - 0x30000) / 64)).read (off % 64)
  else if 0x40000 ≤ off ∧ off < 0x40000 + 128 * 64 then half (Tab.get 0 s.progress ((off - 0x40000) / 8)).toNat off
  else if 0x80000 ≤ off ∧ off < 0x80200 then s.trial.read (off - 0x80000)
  else if 0x90000 ≤ off ∧ off < 0x90000 + 64 * 192 then
    BitVec.ofNat 32 (bytesToNat ((List.range 4).map fun i => Tab.get 0 s.logRegs (off - 0x90000 + i)))
  else 0

/-- MGMT_REGISTER_WRITE (R344), a CXL.io access of 4 or 8 bytes, naturally aligned; any other is ignored and reads 0. A read changes nothing: what it
gives is State.readReg's. -/
def execMgmtRegisterWrite (off : BitVec 24) (wide : Bool) (v : Option (BitVec 64)) (s : State) : Host.Outcome State Fault Refusal :=
  let o := off.toNat
  match v with
  | none => .next s
  | some x =>
    if wide then .next (if o % 8 = 0 then (s.writeReg o (loHalf x)).writeReg (o + 4) (hiHalf x) else s)
    else .next (if o % 4 = 0 then s.writeReg o (loHalf x) else s)

/-- RESTCTL_WRITE. -/
def execRestctlWrite (v : BitVec 32) (s : State) : Host.Outcome State Fault Refusal := .next (s.writeRestctl v)

/-- TRGO_WRITE. -/
def execTrgoWrite (v : BitVec 32) (s : State) : Host.Outcome State Fault Refusal := .next (s.writeTrgo v)

/-- TRIAL_END (R355). -/
def execTrialEnd (s : State) : Host.Outcome State Fault Refusal :=
  if s.trial.go && decide (s.trial.endAt ≤ s.cycle) then .next { s with trial := { s.trial with go := false, record := s.snapshot s.trial.context 1 } }
  else .next s

/-- The cycles a split of a context is not ready after a step from a clause (R355). -/
def State.trialDelay (s : State) (ctx : Nat) (clause : Pc) : Nat :=
  let t := s.trial
  if t.go && t.context == ctx && !(decide (t.lo.toNat ≤ clause.toNat) && decide (clause.toNat < t.hi.toNat)) then t.dly.toNat else 0

/-- A launch killed by a function-level reset leaves no kill record and no completion, a halted block of it no debug record. -/
def Launch.hush (l : Launch) : Launch := { l with silent := true, kills := [] }

/-- FUNCTION_LEVEL_RESET (R343): every resident launch is killed without a trace, and the queue, counter and context registers are cleared. The roots in
effect go with the context registers: those written afterwards count from the next launch on (log entry 74). The progress counters stand (log entry 87). -/
def execFunctionLevelReset (s : State) : Host.Outcome State Fault Refusal :=
  let s1 := each (s.launches.map (·.1)) (fun l s => s.killLaunch l false) s
  .next { s1 with launches := Tab.each s1.launches fun _ l => l.hush, blocks := Tab.each s1.blocks fun _ b => { b with halt := none },
                  launchReqs := [], queues := s1.queues.filter fun e => decide (64 ≤ e.1), counters := [], contexts := [] }

/-! Rest states (R347, R348). -/

/-- Exit latency and entry delay in cycles of each state (Table MGT-3). -/
def Rest.exit' (n : Nat) : Nat := ([0, 2, 40, 1500, 90000].getD n 0) * Ops.perMicro
def Rest.delay (n : Nat) : Nat := ([0, 10, 200, 5000, 100000].getD n 0) * Ops.perMicro

/-- A queue, or a device queue, is empty or holds at its head only a record that waits on a dependence. -/
def State.queueQuiet (s : State) (n : Nat) : Bool :=
  let q := s.queue n
  (decide (n < 64) && !q.en) || (q.headDue.isNone && match s.holding n with
    | some (_, l) => !s.eligible l.card
    | none => if n < 64 then s.readNat (q.base + 128) 8 == s.qHead q else decide (Tab.get [] s.devQueues n = []))

/-- An outstanding CXL.mem or DOE request, or Byuth traffic (R347). -/
def isRequest : Instr → Bool
  | .cxlMemAccess _ _ => true
  | .doeMeasurementRequest _ => true
  | .doeKeyRequest => true
  | .peerRequest _ _ => true
  | .collectiveContribution _ => true
  | _ => false

/-- The device is idle (R347); a block swapped out still waits for its place (log entry 75). -/
def State.isIdle (s : State) : Bool :=
  s.blocks.all (fun e => e.2.ended) && s.launches.all (fun e => decide (e.2.nextBlock < e.2.card.total) && !s.eligible e.2.card)
  && s.net.isEmpty && s.podQ.isEmpty && s.replies.isEmpty && s.poisons.isEmpty && s.probes.isEmpty && s.launchReqs.isEmpty && s.collectives.isEmpty
  && s.inputs.all (fun e => decide (s.cycle < e.due) || !isRequest e.event) && s.soundings.all (fun e => !e.2.on) && !s.trial.go
  && (List.range 192).all (fun i => s.logRegs.isEmpty || !(s.logFilter i).en) && (List.range 68).all s.queueQuiet

/-- Idle times are counted from the cycle the device became idle. -/
def State.noteIdle (s : State) : State :=
  if s.isIdle then (if s.idleFrom.isSome then s else { s with idleFrom := some s.cycle }) else (if s.idleFrom.isNone then s else { s with idleFrom := none })

/-- The state further down that the device enters now. -/
def State.restGoal (s : State) : Option Nat :=
  match s.idleFrom with
  | none => none
  | some t =>
    let may (n : Nat) : Bool := decide (s.rest < n) && decide (Rest.exit' n ≤ s.ltol.toNat * Ops.perMicro) && decide (t + Rest.delay n ≤ s.cycle)
      && (decide (n ≤ 2) || s.waypoints.isEmpty)
    if s.wake.isSome then none else [4, 3, 2, 1].find? may

/-- REST_STATE_ENTRY: what the state loses on entry (Table MGT-3); the L2 cache ways are written back first. -/
def execRestStateEntry (s : State) : Host.Outcome State Fault Refusal :=
  match s.restGoal with
  | none => .next s
  | some n =>
    let cold (k : Core) : Core := { k with l1 := [], kc := [], ic := [] }
    let s1 := { s with rest := n }
    let s2 := if n < 2 then s1 else { s1 with cores := Tab.each s1.cores fun _ k => cold k }
    .next (if n < 3 then s2 else
      let s3 := s2.writeBack Asker.host fun _ => true
      { s3 with replicas := [], mem := s3.mem.filter fun e => !(decide (4 * 2 ^ 64 ≤ e.1) && decide (e.1 < 5 * 2 ^ 64)) })

/-- REST_EXIT: the exit latency after a wake event has passed. -/
def execRestExit (s : State) : Host.Outcome State Fault Refusal :=
  match s.wake with
  | some t => .next (if t ≤ s.cycle then { s with rest := 0, wake := none, idleFrom := none } else s)
  | none => .next s

/-- A wake event: the device is under way within the exit latency of its state (R348). -/
def State.awaken (s : State) : State := if s.rest = 0 || s.wake.isSome then s else { s with wake := some (s.cycle + Rest.exit' s.rest) }

/-- The tail line of an enabled queue has been written. -/
def State.tailWake (s : State) : Bool := s.rest ≠ 0 && s.wake.isNone && (List.range 64).any s.tailDue

/-- A write of a tail line wakes the device. -/
def State.noteWake (s : State) : State := if s.tailWake then s.awaken else s

/-- What an event from outside is to a device at rest: a request that wakes it and waits. -/
def wakesRest : Instr → Bool
  | .mgmtLaunchKill _ => true
  | .qstatStopClear _ => true
  | .qstatCfaultClear _ => true
  | .mgmtRegisterWrite _ _ _ => true
  | .resumeWrite _ _ => true
  | .restctlWrite _ => true
  | .trgoWrite _ => true
  | .functionLevelReset => true
  | .doeMeasurementRequest _ => true
  | .doeKeyRequest => true
  | .cxlMemAccess _ _ => true
  | .peerRequest _ _ => true
  | .collectiveContribution _ => true
  | _ => false

/-! The host's accesses. -/

/-- CXL_MEM_ACCESS (R343): an access to device memory at its home; it waits while its pseudo-channel is in all-bank mode. -/
def execCxlMemAccess (pa : BitVec 39) (write : Option (List (BitVec 8))) (s : State) : Host.Outcome State Fault Refusal :=
  match write with
  | none => .next (s.logRequest 0 Asker.host pa.toNat)
  | some data =>
    if 2 ^ 39 < pa.toNat + data.length then .next s
    else if (List.range data.length).any fun i => s.heldAt (pa.toNat + i) then .next (s.again (.cxlMemAccess pa write))
    else .next ((s.logWrites 1 Asker.host [] ((List.range data.length).map fun i => pa.toNat + i)).writeBytes
      (data.zipIdx.map fun b => (Ops.devLoc (pa.toNat + b.2), b.1)))

/-- CXL_CACHE_COHERENCE_REQUEST (07 R140): the device's copy of a host line is withdrawn, and the host's new bytes of the line stand. -/
def execCxlCacheCoherenceRequest (line : Nat) (write : Option (List (BitVec 8))) (s : State) : Host.Outcome State Fault Refusal :=
  match write with
  | none => .next s
  | some data =>
    if 2 ^ 45 ≤ line then .next s
    else .next (s.writeBytes ((data.take 128).zipIdx.map fun b => (Ops.hostLoc (line * 128 + b.2), b.1)))

/-! `tlbinv` (08 R178, R179). -/

/-- The space and VA a pointer is translated in. -/
def Agent.vaOf (a : Agent) (p : DWord) : Option (Nat × Nat) :=
  match ptrSpace p with
  | 8 => some (0, (a.base + ptrAddr p) % 2 ^ 57)
  | sp => if sp ≤ 2 then some (sp, ptrAddr p) else none

/-- One of the pointers of a group's access is translated by a selected entry: `sel` takes context, space and VA. -/
def State.selects (s : State) (sel : Nat → Nat → Nat → Bool) (gid : Nat) (ps : List DWord) : Bool :=
  match Tab.find s.groups gid with
  | none => false
  | some g => ps.any fun p => ((s.agentOf gid g).vaOf p).any fun v => sel (s.ctxOf g) v.1 v.2

/-- A long-latency word still has an access to perform. -/
def State.wordOpen (s : State) (gid op : Nat) : Bool :=
  let sent (r : Request) : Bool := r.group == gid && r.op == op
  (((Tab.find s.groups gid).bind fun g => Tab.find g.longs op).any fun o => o.reads.any fun r => r.cells.any fun c => c.2.isNone)
    || s.net.any sent || s.podQ.any fun q => q.2.any sent
/-- A store is in flight. -/
def State.storeOpen (s : State) (core id : Nat) : Bool := (s.core core).stores.any fun p => p.id == id

/-- The accesses under way that a `tlbinv` waits for (08 R178 step 3). -/
def State.invalOf (s : State) (op : Nat) (sel : Nat → Nat → Nat → Bool) : Inval :=
  { op := op, stores := s.cores.flatMap fun e => (e.2.stores.filter fun p => s.selects sel p.group p.ptrs).map fun p => (e.1, p.id),
    words := s.groups.flatMap fun e => (e.2.longs.filter fun o => s.wordOpen e.1 o.1 && s.selects sel e.1 (o.2.ptrs.map (·.2))).map fun o => (e.1, o.1) }

/-- What a `tlbinv` still waits for. -/
def Inval.left (s : State) (x : Inval) : Inval :=
  { x with stores := x.stores.filter fun p => s.storeOpen p.1 p.2, words := x.words.filter fun w => s.wordOpen w.1 w.2 }
def Inval.over (x : Inval) : Bool := x.stores.isEmpty && x.words.isEmpty

/-- A `tlbinv` whose accesses have all been performed is complete. -/
def State.settleInvals (s : State) : State :=
  if s.invals.isEmpty then s
  else
    let now := s.invals.map fun x => x.left s
    let done (w : Wait) : Bool := now.any fun x => x.over && w == .inval x.op
    { s with invals := now.filter fun x => !x.over, groups := Tab.each s.groups fun _ g => g.wake done }

/-- The steps of a `tlbinv` that selects entries (08 R178), and what it does to the roots in effect: a release, the invalidation, and the wait for the
accesses translated with a selected entry (log entry 61). -/
def Ops.tlbinv (sig : Sig) (sel : Ctx → Nat → Nat → Nat → Bool) (tlb : Ctx → TlbEntry → Bool) (walk : Ctx → WalkEntry → Bool) (ctxs : Nat → Bool) (roots : Bool) :
    State → Host.Outcome State Fault Refusal :=
  Ops.word sig fun c s =>
    match s.release c.u.group (s.coreOf c.g) 2 with
    | none => .stall
    | some s1 =>
      let s2 := s1.dropXlats (tlb c) (walk c)
      let clear (g : Group) : Group := if ctxs (s.ctxOf g) then { g with fetched := [] } else g
      let take (e : Nat × Context) : Nat × Context := if roots && ctxs e.1
        then (e.1, { e.2 with eff0 := e.2.eff0.map fun _ => e.2.root0, eff1 := e.2.eff1.map fun _ => e.2.root1, eff2 := e.2.eff2.map fun _ => e.2.root2 }) else e
      let s3 := { s2 with groups := Tab.each s2.groups fun _ g => clear g, contexts := s2.contexts.map take }
      let gone := ((s1.cores.flatMap fun e => e.2.tlb) ++ s1.sectorTlb.flatMap (·.2)).filter (tlb c)
      let by' (e : TlbEntry) (ctx space va : Nat) : Bool := e.ctx == ctx && e.space == space && decide (e.va ≤ va) && decide (va < e.va + e.size)
      let x := s3.invalOf s3.nextId fun ctx space va => sel c ctx space va || gone.any fun e => by' e ctx space va
      if x.over then .ok s3 else .ok (State.waitFor { s3 with nextId := s3.nextId + 1, invals := s3.invals ++ [x] } c.u (.inval x.op))

/-- `tlbinv.page`; a space without a table invalidates nothing. -/
def execTlbinvPage (o : BitVec 7) (n : BitVec 6) (s : State) : Host.Outcome State Fault Refusal :=
  let p (c : Ctx) : DWord := c.rd64 o 0
  let mine (c : Ctx) (ctx space : Nat) : Bool := ctx == n.toNat && space == ptrSpace (p c) && decide (space ≤ 2)
  Ops.tlbinv { priv := true, opnd := isS o && isEven o, uses := [useN o 2] }
    (fun c ctx space va => mine c ctx space && va / 2 ^ 12 == ptrAddr (p c) / 2 ^ 12)
    (fun c e => mine c e.ctx e.space && decide (e.va ≤ ptrAddr (p c)) && decide (ptrAddr (p c) < e.va + e.size))
    (fun c e => mine c e.ctx e.space && e.path == ptrAddr (p c) / 2 ^ Xlat.shift e.level) (· == n.toNat) false s

/-- `tlbinv.ctx`. -/
def execTlbinvCtx (n : BitVec 6) (s : State) : Host.Outcome State Fault Refusal :=
  Ops.tlbinv { noSig with priv := true } (fun _ ctx _ _ => ctx == n.toNat) (fun _ e => e.ctx == n.toNat) (fun _ e => e.ctx == n.toNat) (· == n.toNat) true s

/-- `tlbinv.all`. -/
def execTlbinvAll (s : State) : Host.Outcome State Fault Refusal :=
  Ops.tlbinv { noSig with priv := true } (fun _ _ _ _ => true) (fun _ _ => true) (fun _ _ => true) (fun _ => true) true s

end Sys2Proof.Machine
end

