-- ==== Sys2Proof/Machine/Mask.lean ====
section
/-! DEFINITION. The mask words of major 0x04 (04 R88). Each executes once per split, whatever EXEC holds. -/

namespace Sys2Proof.Machine

def plainSig : Sig := { priv := false, opnd := true, uses := [] }

/-- md := f of two masks, each read as its full 128 bits. -/
def Ops.mask2 (d a b : BitVec 3) (f : LaneSet → LaneSet → LaneSet) : State → Host.Outcome State Fault Refusal :=
  Ops.word plainSig fun c s => .ok (s.putMask c d.toNat (f (c.g.readM c.exec a.toNat) (c.g.readM c.exec b.toNat)))

def execMand (d a b : BitVec 3) (s : State) : Host.Outcome State Fault Refusal := Ops.mask2 d a b (· &&& ·) s
def execMor (d a b : BitVec 3) (s : State) : Host.Outcome State Fault Refusal := Ops.mask2 d a b (· ||| ·) s
def execMxor (d a b : BitVec 3) (s : State) : Host.Outcome State Fault Refusal := Ops.mask2 d a b (· ^^^ ·) s
def execMandn (d a b : BitVec 3) (s : State) : Host.Outcome State Fault Refusal := Ops.mask2 d a b (fun x y => x &&& ~~~y) s
def execMnot (d a : BitVec 3) (s : State) : Host.Outcome State Fault Refusal := Ops.mask2 d a a (fun x _ => ~~~x) s
def execMmov (d a : BitVec 3) (s : State) : Host.Outcome State Fault Refusal := Ops.mask2 d a a (fun x _ => x) s
def execMall (d : BitVec 3) (s : State) : Host.Outcome State Fault Refusal := Ops.mask2 d 0 0 (fun _ _ => BitVec.allOnes 128) s
def execMnone (d : BitVec 3) (s : State) : Host.Outcome State Fault Refusal := Ops.mask2 d 0 0 (fun _ _ => 0) s

/-- sd := f of a mask; the destination must be an s register. -/
def Ops.maskToS (d : BitVec 7) (a : BitVec 3) (f : LaneSet → Word) : State → Host.Outcome State Fault Refusal :=
  Ops.word { plainSig with opnd := isS d, uses := [use d] } fun c s =>
    .ok (s.putRegs c d.toNat fun _ => [f (c.g.readM c.exec a.toNat)])

def execMpopc (d : BitVec 7) (a : BitVec 3) (s : State) : Host.Outcome State Fault Refusal :=
  Ops.maskToS d a (fun x => BitVec.ofNat 32 (size x)) s
def execMfirst (d : BitVec 7) (a : BitVec 3) (s : State) : Host.Outcome State Fault Refusal :=
  Ops.maskToS d a (fun x => BitVec.ofNat 32 (lowest 128 x)) s
def execMtos (d : BitVec 7) (a : BitVec 3) (q : BitVec 2) (s : State) : Host.Outcome State Fault Refusal :=
  Ops.maskToS d a (fun x => (x >>> (32 * q.toNat)).setWidth 32) s

/-- `stom`: quarter q of md, in the lanes of the split's slices. -/
def execStom (d : BitVec 3) (a : BitVec 7) (q : BitVec 2) (s : State) : Host.Outcome State Fault Refusal :=
  Ops.word { plainSig with opnd := isS a, uses := [use a] } (fun c s =>
    let old := c.g.readM c.exec d.toNat
    let hole : LaneSet := (0xFFFFFFFF : LaneSet) <<< (32 * q.toNat)
    .ok (s.putMask c d.toNat ((old &&& ~~~hole) ||| ((c.rd a 0).setWidth 128 <<< (32 * q.toNat))))) s

def execMlanes (d : BitVec 3) (a : BitVec 7) (s : State) : Host.Outcome State Fault Refusal :=
  Ops.word { plainSig with opnd := isS a, uses := [use a] } (fun c s =>
    .ok (s.putMask c d.toNat (bitSet 128 fun l => decide (l < (c.rd a 0).toNat)))) s

end Sys2Proof.Machine
end

