-- ==== Sys2Proof/Machine/Xlane.lean ====
section
/-! DEFINITION. The cross-lane words of major 0x1C (05 R103-R110). -/

namespace Sys2Proof.Machine

/-- R104: the source lane of lane l for index or distance and segment from b. -/
def segLane (pick : Nat → Nat → Nat → Nat) (l : Nat) (b : Word) : Nat :=
  let k := bitsAt b.toNat 0 7
  let g := 4 * 2 ^ min (bitsAt b.toNat 8 3) 5
  l - l % g + pick (l % g) k g % g

/-- A lane-moving word: each active lane with a usable source takes it when its results are written (R104). -/
def Ops.moveLanes (d a b : BitVec 7) (pick : Nat → Nat → Nat → Nat) : State → Host.Outcome State Fault Refusal :=
  Ops.word { priv := false, opnd := !isS d, uses := [use d, use a, use b] } fun c s =>
    let moved := (members c.exec).filterMap fun l =>
      let j := segLane pick l (c.rd b l)
      if c.exec.getLsbD j then some (d.toNat * 128 + l, c.rd a j) else none
    let op := c.longOp.marks d 1
    s.issueLong c { op with vWrites := moved }

def execLpick (d a b : BitVec 7) (s : State) : Host.Outcome State Fault Refusal := Ops.moveLanes d a b (fun _ k _ => k) s
def execLswap (d a b : BitVec 7) (s : State) : Host.Outcome State Fault Refusal := Ops.moveLanes d a b (fun r k _ => r ^^^ k) s
def execLrotu (d a b : BitVec 7) (s : State) : Host.Outcome State Fault Refusal := Ops.moveLanes d a b (fun r k g => r + g - k % g) s
def execLrotd (d a b : BitVec 7) (s : State) : Host.Outcome State Fault Refusal := Ops.moveLanes d a b (fun r k _ => r + k) s

/-- The lane an s register names (R105). -/
def Ctx.laneOf (c : Ctx) (b : BitVec 7) : Nat := (c.rd b 0).toNat % 128

/-- A lane of the split's slices, below W, that has not exited (R105). -/
def Ctx.standing (c : Ctx) (j : Nat) : Bool := (c.g.lanesOf c.u.slices).getLsbD j && !c.g.exitedLanes.getLsbD j

def laneSet (j : Nat) : LaneSet := bitSet 128 (· == j)

/-- The lanes whose copy `rdlane` or `wrlane` uses: EXEC, and lane j where b can be read and the lane is one the word reaches (03 R50, R105). -/
def Ctx.usedLanes (c : Ctx) (s : State) (b : BitVec 7) : LaneSet :=
  if c.readable s b && c.standing (c.laneOf b) then c.exec ||| laneSet (c.laneOf b) else c.exec

/-- `bcast`: from lane j, or the lowest active lane where j is not usable. -/
def execBcast (d a b : BitVec 7) (s : State) : Host.Outcome State Fault Refusal :=
  Ops.word { priv := false, opnd := !isS d && !isS a && isS b, uses := [use d, use a, use b] } (fun c s =>
    let j := if c.exec.getLsbD (c.laneOf b) then c.laneOf b else c.firstLane
    .ok (s.putRegs c d.toNat fun _ => [c.rd a j])) s

/-- `rdlane`: reads lane j, active or not; 0 from a lane that has exited or is not the split's. -/
def execRdlane (d a b : BitVec 7) (s : State) : Host.Outcome State Fault Refusal :=
  Ops.wordBy (fun c s => { priv := false, opnd := isS d && !isS a && isS b, uses := [use d, use b, { use a with lanes := some (c.usedLanes s b) }] }) (fun c s =>
    let j := c.laneOf b
    .ok (s.putRegs c d.toNat fun _ => [if c.standing j then c.rd a j else 0])) s

/-- `wrlane`: writes lane j, active or not, and no other. -/
def execWrlane (d a b : BitVec 7) (s : State) : Host.Outcome State Fault Refusal :=
  Ops.wordBy (fun c s => { priv := false, opnd := !isS d && isS a && isS b, uses := [use a, use b, { use d with lanes := some (c.usedLanes s b) }] }) (fun c s =>
    let j := c.laneOf b
    .ok (if c.standing j then s.onGroup c.u.group fun g => g.writeV d.toNat j (c.rd a 0) else s)) s

/-- The difference along a quad from lane `p` to lane `q`: derivative-invalid where one of them is not active (R106). -/
def Ctx.deriv (c : Ctx) (a : BitVec 7) (p q : Nat) : FOut :=
  if c.exec.getLsbD p && c.exec.getLsbD q then (Fmt.f32.sub c.rm (c.rd a q).toNat (c.rd a p).toNat).one
  else (Fmt.f32.nanRes Fp.di).one

/-- A derivative word; `near l` and `far l` are the lanes of the quad it subtracts. -/
def Ops.derive (d a : BitVec 7) (near far : Nat → Nat) : State → Host.Outcome State Fault Refusal :=
  Ops.word { priv := false, opnd := !isS d, uses := [use d, use a] } fun c s =>
    let out (l : Nat) := c.deriv a (near l) (far l)
    let sigs := (members c.exec).map fun l => (l, (out l).flags)
    match c.fpe sigs with
    | some t => .trap t
    | none => .ok ((s.putRegs c d.toNat fun l => (out l).words).orFlags c (orAll (sigs.map (·.2))))

def execDdxF32 (d a : BitVec 7) (s : State) : Host.Outcome State Fault Refusal :=
  Ops.derive d a (fun l => l - l % 2) (fun l => l - l % 2 + 1) s
def execDdyF32 (d a : BitVec 7) (s : State) : Host.Outcome State Fault Refusal :=
  Ops.derive d a (fun l => l / 4 * 4 + l % 2) (fun l => l / 4 * 4 + l % 2 + 2) s

/-! Registers by number (R107). -/

/-- The interrupted program's copies of s24-s27 are pending, which `vrdi` 120 to 123 reads inside a handler (R107, 16 R330). -/
def Ctx.outerPending (c : Ctx) (r : Nat) : Bool :=
  c.g.longs.any fun e => e.2.epoch == 0 && e.2.sMarks.contains r && decide (e.2.slices &&& c.u.slices ≠ 0)
def Ctx.outerToken (c : Ctx) (s : State) (r : Nat) : Bool :=
  ((s.core (s.coreOf c.g)).marks c.u.group).any fun t => t.1 == r && t.2.2 == 0 && decide (t.2.1 &&& c.u.slices ≠ 0)

/-- The word runs in a handler and names an interrupted copy. -/
def Ctx.outer (c : Ctx) (i : Nat) : Bool := decide (c.g.epochOf c.u.slices ≠ 0) && decide (120 ≤ i) && decide (i ≤ 123)

def execVrdi (d a : BitVec 7) (s : State) : Host.Outcome State Fault Refusal :=
  Ops.wordBy (fun c s =>
    let i := (c.rd a 0).toNat
    let named := c.readable s a && isS a
    { priv := false, opnd := !isS d && isS a,
      uses := [use d, use a] ++ if named && decide (i < 128) && !c.outer i then [{ reg := i, n := 1, lanes := none }] else [] }) (fun c s =>
    let i := (c.rd a 0).toNat
    if 128 ≤ i then .trap (c.trap 7 0x05)
    else if c.outer i then
      if c.outerPending (i - 96) then .trap (c.trap 6 0x04)
      else if c.outerToken s (i - 96) then .stall
      else .ok (s.putRegs c d.toNat fun _ => [Tab.get 0 (c.g.slice c.low).s (i - 96)])
    else .ok (s.putRegs c d.toNat fun l => [c.rdN i l])) s

def execVwri (a b : BitVec 7) (s : State) : Host.Outcome State Fault Refusal :=
  Ops.wordBy (fun c s =>
    let i := (c.rd a 0).toNat
    let named := c.readable s a && isS a
    { priv := false, opnd := isS a,
      uses := [use a, use b] ++ if named && decide (i < 96) then [{ reg := i, n := 1, lanes := none }] else [] }) (fun c s =>
    if 96 ≤ (c.rd a 0).toNat then .trap (c.trap 7 0x05)
    else .ok (s.putRegs c (c.rd a 0).toNat fun l => [c.rd b l])) s

/-! Reductions (R108, R109) and `ballot` (R110). -/

/-- A result that is the same for every destination: an s register, or every active lane. -/
def Ops.reduce (d a : BitVec 7) (f : List Word → Word) : State → Host.Outcome State Fault Refusal :=
  Ops.word { priv := false, opnd := true, uses := [use d, use a] } fun c s =>
    .ok (s.putRegs c d.toNat fun _ => [f ((members c.exec).map (c.rd a))])

def execRaddI32 (d a : BitVec 7) (s : State) : Host.Outcome State Fault Refusal := Ops.reduce d a (fun l => l.foldl (· + ·) 0) s
def execRmaxI32 (d a : BitVec 7) (s : State) : Host.Outcome State Fault Refusal :=
  Ops.reduce d a (fun l => l.foldl (fun x y => if x.toInt ≤ y.toInt then y else x) 0x80000000) s
def execRminI32 (d a : BitVec 7) (s : State) : Host.Outcome State Fault Refusal :=
  Ops.reduce d a (fun l => l.foldl (fun x y => if x.toInt ≤ y.toInt then x else y) 0x7FFFFFFF) s

/-- A node of the tree that signals: its first lane position, how many lie below it, its exceptions. -/
structure TreeSig where
  first : Nat
  size  : Nat
  flags : Nat

/-- One level of the tree: neighbours added, each node over `size` positions. -/
def raddLevel (rm : RMode) (size : Nat) : List Nat → Nat → List Nat × List TreeSig
  | a :: b :: t, i =>
    let r := Fmt.f32.add rm a b
    let rest := raddLevel rm size t (i + 1)
    (r.bits :: rest.1, { first := i * size, size := size, flags := r.flags } :: rest.2)
  | _, _ => ([], [])

/-- The levels from node size `size` on. -/
def raddTree (rm : RMode) : Nat → Nat → List Nat → Nat × List TreeSig
  | 0, _, xs => (xs.headD 0, [])
  | n + 1, size, xs =>
    let r := raddLevel rm size xs 0
    let rest := raddTree rm n (2 * size) r.1
    (rest.1, r.2 ++ rest.2)

/-- `radd.f32`: the fixed tree over the 128 lane positions (R109). -/
def execRaddF32 (d a : BitVec 7) (s : State) : Host.Outcome State Fault Refusal :=
  Ops.word { priv := false, opnd := true, uses := [use d, use a] } (fun c s =>
    let r := raddTree c.rm 7 2 ((List.range 128).map fun j => if c.exec.getLsbD j then (c.rd a j).toNat else 0)
    let all := orAll (r.2.map (·.flags))
    let hot := r.2.filter fun t => c.enabled t.flags ≠ 0
    let below (j : Nat) : Bool := hot.any fun t => decide (t.first ≤ j) && decide (j < t.first + t.size)
    if c.enabled all ≠ 0 then
      .trap { c.trap 7 0x19 with faddr := fpeAddr (c.enabled all) (((members c.exec).find? below).getD 0) }
    else .ok ((s.putRegs c d.toNat fun _ => [BitVec.ofNat 32 r.1]).orFlags c all)) s

def execBallot (d : BitVec 3) (a : BitVec 7) (s : State) : Host.Outcome State Fault Refusal :=
  Ops.word { priv := false, opnd := true, uses := [use a] } (fun c s =>
    .ok (s.putMask c d.toNat (c.whereIn fun l => c.rd a l ≠ 0))) s

end Sys2Proof.Machine
end

