-- ==== Sys2Proof/Machine/Dispatch.lean ====
section
/-! DEFINITION. Which meaning each instruction and step has. -/

namespace Sys2Proof.Machine

def exec (i : Instr) (s : State) : Host.Outcome State Fault Refusal :=
  match i with
  | .clauseDecode x1 x2 => Sys2Proof.Machine.execClauseDecode x1 x2 s
  | .resultWriteback x1 x2 => Sys2Proof.Machine.execResultWriteback x1 x2 s
  | .asyncFault x1 x2 => Sys2Proof.Machine.execAsyncFault x1 x2 s
  | .trapEntry x1 => Sys2Proof.Machine.execTrapEntry x1 s
  | .killRecordWrite x1 => Sys2Proof.Machine.execKillRecordWrite x1 s
  | .mgmtLaunchKill x1 => Sys2Proof.Machine.execMgmtLaunchKill x1 s
  | .groupEnd x1 => Sys2Proof.Machine.execGroupEnd x1 s
  | .launchComplete x1 => Sys2Proof.Machine.execLaunchComplete x1 s
  | .queueTailWrite x1 => Sys2Proof.Machine.execQueueTailWrite x1 s
  | .launchRecordCopy x1 => Sys2Proof.Machine.execLaunchRecordCopy x1 s
  | .blockPlacement x1 => Sys2Proof.Machine.execBlockPlacement x1 s
  | .qstatStopClear x1 => Sys2Proof.Machine.execQstatStopClear x1 s
  | .qstatCfaultClear x1 => Sys2Proof.Machine.execQstatCfaultClear x1 s
  | .mgmtRegisterWrite x1 x2 x3 => Sys2Proof.Machine.execMgmtRegisterWrite x1 x2 x3 s
  | .resumeWrite x1 x2 => Sys2Proof.Machine.execResumeWrite x1 x2 s
  | .restctlWrite x1 => Sys2Proof.Machine.execRestctlWrite x1 s
  | .trgoWrite x1 => Sys2Proof.Machine.execTrgoWrite x1 s
  | .trialEnd => Sys2Proof.Machine.execTrialEnd s
  | .restStateEntry => Sys2Proof.Machine.execRestStateEntry s
  | .restExit => Sys2Proof.Machine.execRestExit s
  | .functionLevelReset => Sys2Proof.Machine.execFunctionLevelReset s
  | .deviceReset x1 => Sys2Proof.Machine.execDeviceReset x1 s
  | .doeMeasurementRequest x1 => Sys2Proof.Machine.execDoeMeasurementRequest x1 s
  | .doeKeyRequest => Sys2Proof.Machine.execDoeKeyRequest s
  | .cxlMemAccess x1 x2 => Sys2Proof.Machine.execCxlMemAccess x1 x2 s
  | .linkFlitRetry x1 => Sys2Proof.Machine.execLinkFlitRetry x1 s
  | .linkRetryExhausted x1 => Sys2Proof.Machine.execLinkRetryExhausted x1 s
  | .peerReset x1 => Sys2Proof.Machine.execPeerReset x1 s
  | .peerRequest x1 x2 => Sys2Proof.Machine.execPeerRequest x1 x2 s
  | .collectiveContribution x1 => Sys2Proof.Machine.execCollectiveContribution x1 s
  | .serviceRequestEnqueue x1 => Sys2Proof.Machine.execServiceRequestEnqueue x1 s
  | .serviceRound x1 => Sys2Proof.Machine.execServiceRound x1 s
  | .serviceReply x1 => Sys2Proof.Machine.execServiceReply x1 s
  | .wayinComplete x1 x2 => Sys2Proof.Machine.execWayinComplete x1 x2 s
  | .wayinTimeout x1 x2 => Sys2Proof.Machine.execWayinTimeout x1 x2 s
  | .waypointProbe x1 x2 => Sys2Proof.Machine.execWaypointProbe x1 x2 s
  | .waypointPoison x1 x2 => Sys2Proof.Machine.execWaypointPoison x1 x2 s
  | .wayskipFirm x1 x2 => Sys2Proof.Machine.execWayskipFirm x1 x2 s
  | .wayskipRemove x1 x2 => Sys2Proof.Machine.execWayskipRemove x1 x2 s
  | .joinComplete x1 x2 => Sys2Proof.Machine.execJoinComplete x1 x2 s
  | .joinTimeout x1 x2 => Sys2Proof.Machine.execJoinTimeout x1 x2 s
  | .sleepEnd x1 x2 => Sys2Proof.Machine.execSleepEnd x1 x2 s
  | .regacqGrant x1 => Sys2Proof.Machine.execRegacqGrant x1 s
  | .spill x1 => Sys2Proof.Machine.execSpill x1 s
  | .tclaimGrant x1 x2 => Sys2Proof.Machine.execTclaimGrant x1 x2 s
  | .fetchwFill x1 => Sys2Proof.Machine.execFetchwFill x1 s
  | .launchAnswer x1 x2 => Sys2Proof.Machine.execLaunchAnswer x1 x2 s
  | .engineCommandComplete x1 x2 => Sys2Proof.Machine.execEngineCommandComplete x1 x2 s
  | .engineBusyTimeout x1 x2 => Sys2Proof.Machine.execEngineBusyTimeout x1 x2 s
  | .chartReset x1 => Sys2Proof.Machine.execChartReset x1 s
  | .tlbWalk x1 x2 x3 x4 => Sys2Proof.Machine.execTlbWalk x1 x2 x3 x4 s
  | .runaheadFetch x1 x2 => Sys2Proof.Machine.execRunaheadFetch x1 x2 s
  | .clockStep x1 x2 => Sys2Proof.Machine.execClockStep x1 x2 s
  | .subarrayGate x1 x2 => Sys2Proof.Machine.execSubarrayGate x1 x2 s
  | .preemptRequest x1 => Sys2Proof.Machine.execPreemptRequest x1 s
  | .preemptHandlerEntry x1 => Sys2Proof.Machine.execPreemptHandlerEntry x1 s
  | .preboundExpiry x1 => Sys2Proof.Machine.execPreboundExpiry x1 s
  | .unitRestore x1 => Sys2Proof.Machine.execUnitRestore x1 s
  | .debugRecordWrite x1 => Sys2Proof.Machine.execDebugRecordWrite x1 s
  | .wordNotAnInstruction x1 => Sys2Proof.Machine.execWordNotAnInstruction x1 s
  | .writeAcknowledgedAtHome x1 x2 => Sys2Proof.Machine.execWriteAcknowledgedAtHome x1 x2 s
  | .virtualChannelPause x1 x2 x3 => Sys2Proof.Machine.execVirtualChannelPause x1 x2 x3 s
  | .correctedError x1 x2 => Sys2Proof.Machine.execCorrectedError x1 x2 s
  | .managementFirmwareStageLoad x1 x2 => Sys2Proof.Machine.execManagementFirmwareStageLoad x1 x2 s
  | .cxlCacheCoherenceRequest x1 x2 => Sys2Proof.Machine.execCxlCacheCoherenceRequest x1 x2 s
  | .br x1 x2 x3 => Sys2Proof.Machine.execBr x1 x2 x3 s
  | .call x1 => Sys2Proof.Machine.execCall x1 s
  | .ret => Sys2Proof.Machine.execRet s
  | .jmpi x1 => Sys2Proof.Machine.execJmpi x1 s
  | .calli x1 => Sys2Proof.Machine.execCalli x1 s
  | .join x1 x2 => Sys2Proof.Machine.execJoin x1 x2 s
  | .exit => Sys2Proof.Machine.execExit s
  | .yield x1 => Sys2Proof.Machine.execYield x1 s
  | .sleep x1 => Sys2Proof.Machine.execSleep x1 s
  | .progress x1 => Sys2Proof.Machine.execProgress x1 s
  | .brkpt x1 => Sys2Proof.Machine.execBrkpt x1 s
  | .mand x1 x2 x3 => Sys2Proof.Machine.execMand x1 x2 x3 s
  | .mor x1 x2 x3 => Sys2Proof.Machine.execMor x1 x2 x3 s
  | .mxor x1 x2 x3 => Sys2Proof.Machine.execMxor x1 x2 x3 s
  | .mandn x1 x2 x3 => Sys2Proof.Machine.execMandn x1 x2 x3 s
  | .mnot x1 x2 => Sys2Proof.Machine.execMnot x1 x2 s
  | .mmov x1 x2 => Sys2Proof.Machine.execMmov x1 x2 s
  | .mall x1 => Sys2Proof.Machine.execMall x1 s
  | .mnone x1 => Sys2Proof.Machine.execMnone x1 s
  | .mpopc x1 x2 => Sys2Proof.Machine.execMpopc x1 x2 s
  | .mfirst x1 x2 => Sys2Proof.Machine.execMfirst x1 x2 s
  | .mtos x1 x2 x3 => Sys2Proof.Machine.execMtos x1 x2 x3 s
  | .stom x1 x2 x3 => Sys2Proof.Machine.execStom x1 x2 x3 s
  | .mlanes x1 x2 => Sys2Proof.Machine.execMlanes x1 x2 s
  | .addI32 x1 x2 x3 => Sys2Proof.Machine.execAddI32 x1 x2 x3 s
  | .subI32 x1 x2 x3 => Sys2Proof.Machine.execSubI32 x1 x2 x3 s
  | .mulloI32 x1 x2 x3 => Sys2Proof.Machine.execMulloI32 x1 x2 x3 s
  | .mulhiI32 x1 x2 x3 => Sys2Proof.Machine.execMulhiI32 x1 x2 x3 s
  | .mulhiN32 x1 x2 x3 => Sys2Proof.Machine.execMulhiN32 x1 x2 x3 s
  | .and x1 x2 x3 => Sys2Proof.Machine.execAnd x1 x2 x3 s
  | .or x1 x2 x3 => Sys2Proof.Machine.execOr x1 x2 x3 s
  | .xor x1 x2 x3 => Sys2Proof.Machine.execXor x1 x2 x3 s
  | .andn x1 x2 x3 => Sys2Proof.Machine.execAndn x1 x2 x3 s
  | .shl x1 x2 x3 => Sys2Proof.Machine.execShl x1 x2 x3 s
  | .shrN32 x1 x2 x3 => Sys2Proof.Machine.execShrN32 x1 x2 x3 s
  | .shrI32 x1 x2 x3 => Sys2Proof.Machine.execShrI32 x1 x2 x3 s
  | .rotl x1 x2 x3 => Sys2Proof.Machine.execRotl x1 x2 x3 s
  | .minI32 x1 x2 x3 => Sys2Proof.Machine.execMinI32 x1 x2 x3 s
  | .maxI32 x1 x2 x3 => Sys2Proof.Machine.execMaxI32 x1 x2 x3 s
  | .minN32 x1 x2 x3 => Sys2Proof.Machine.execMinN32 x1 x2 x3 s
  | .maxN32 x1 x2 x3 => Sys2Proof.Machine.execMaxN32 x1 x2 x3 s
  | .absI32 x1 x2 => Sys2Proof.Machine.execAbsI32 x1 x2 s
  | .popc x1 x2 => Sys2Proof.Machine.execPopc x1 x2 s
  | .clz x1 x2 => Sys2Proof.Machine.execClz x1 x2 s
  | .brev x1 x2 => Sys2Proof.Machine.execBrev x1 x2 s
  | .bfeN32 x1 x2 x3 => Sys2Proof.Machine.execBfeN32 x1 x2 x3 s
  | .bfeI32 x1 x2 x3 => Sys2Proof.Machine.execBfeI32 x1 x2 x3 s
  | .bfi x1 x2 x3 => Sys2Proof.Machine.execBfi x1 x2 x3 s
  | .sel x1 x2 x3 x4 => Sys2Proof.Machine.execSel x1 x2 x3 x4 s
  | .addi x1 x2 x3 => Sys2Proof.Machine.execAddi x1 x2 x3 s
  | .andi x1 x2 x3 => Sys2Proof.Machine.execAndi x1 x2 x3 s
  | .ori x1 x2 x3 => Sys2Proof.Machine.execOri x1 x2 x3 s
  | .xori x1 x2 x3 => Sys2Proof.Machine.execXori x1 x2 x3 s
  | .movzLo x1 x2 => Sys2Proof.Machine.execMovzLo x1 x2 s
  | .movzHi x1 x2 => Sys2Proof.Machine.execMovzHi x1 x2 s
  | .movkLo x1 x2 => Sys2Proof.Machine.execMovkLo x1 x2 s
  | .movkHi x1 x2 => Sys2Proof.Machine.execMovkHi x1 x2 s
  | .icmpEq x1 x2 x3 => Sys2Proof.Machine.execIcmpEq x1 x2 x3 s
  | .icmpNe x1 x2 x3 => Sys2Proof.Machine.execIcmpNe x1 x2 x3 s
  | .icmpLtI32 x1 x2 x3 => Sys2Proof.Machine.execIcmpLtI32 x1 x2 x3 s
  | .icmpLeI32 x1 x2 x3 => Sys2Proof.Machine.execIcmpLeI32 x1 x2 x3 s
  | .icmpGtI32 x1 x2 x3 => Sys2Proof.Machine.execIcmpGtI32 x1 x2 x3 s
  | .icmpGeI32 x1 x2 x3 => Sys2Proof.Machine.execIcmpGeI32 x1 x2 x3 s
  | .icmpLtN32 x1 x2 x3 => Sys2Proof.Machine.execIcmpLtN32 x1 x2 x3 s
  | .icmpLeN32 x1 x2 x3 => Sys2Proof.Machine.execIcmpLeN32 x1 x2 x3 s
  | .icmpGtN32 x1 x2 x3 => Sys2Proof.Machine.execIcmpGtN32 x1 x2 x3 s
  | .icmpGeN32 x1 x2 x3 => Sys2Proof.Machine.execIcmpGeN32 x1 x2 x3 s
  | .icmpEqI64 x1 x2 x3 => Sys2Proof.Machine.execIcmpEqI64 x1 x2 x3 s
  | .icmpLtI64 x1 x2 x3 => Sys2Proof.Machine.execIcmpLtI64 x1 x2 x3 s
  | .icmpLtN64 x1 x2 x3 => Sys2Proof.Machine.execIcmpLtN64 x1 x2 x3 s
  | .addI64 x1 x2 x3 => Sys2Proof.Machine.execAddI64 x1 x2 x3 s
  | .subI64 x1 x2 x3 => Sys2Proof.Machine.execSubI64 x1 x2 x3 s
  | .mulI64 x1 x2 x3 => Sys2Proof.Machine.execMulI64 x1 x2 x3 s
  | .shlI64 x1 x2 x3 => Sys2Proof.Machine.execShlI64 x1 x2 x3 s
  | .shrN64 x1 x2 x3 => Sys2Proof.Machine.execShrN64 x1 x2 x3 s
  | .shrI64 x1 x2 x3 => Sys2Proof.Machine.execShrI64 x1 x2 x3 s
  | .sextI64 x1 x2 => Sys2Proof.Machine.execSextI64 x1 x2 s
  | .zextI64 x1 x2 => Sys2Proof.Machine.execZextI64 x1 x2 s
  | .leaX1 x1 x2 x3 => Sys2Proof.Machine.execLeaX1 x1 x2 x3 s
  | .leaX2 x1 x2 x3 => Sys2Proof.Machine.execLeaX2 x1 x2 x3 s
  | .leaX4 x1 x2 x3 => Sys2Proof.Machine.execLeaX4 x1 x2 x3 s
  | .leaX8 x1 x2 x3 => Sys2Proof.Machine.execLeaX8 x1 x2 x3 s
  | .leaX16 x1 x2 x3 => Sys2Proof.Machine.execLeaX16 x1 x2 x3 s
  | .addI16x2 x1 x2 x3 => Sys2Proof.Machine.execAddI16x2 x1 x2 x3 s
  | .subI16x2 x1 x2 x3 => Sys2Proof.Machine.execSubI16x2 x1 x2 x3 s
  | .addsI16x2 x1 x2 x3 => Sys2Proof.Machine.execAddsI16x2 x1 x2 x3 s
  | .subsI16x2 x1 x2 x3 => Sys2Proof.Machine.execSubsI16x2 x1 x2 x3 s
  | .minI16x2 x1 x2 x3 => Sys2Proof.Machine.execMinI16x2 x1 x2 x3 s
  | .maxI16x2 x1 x2 x3 => Sys2Proof.Machine.execMaxI16x2 x1 x2 x3 s
  | .gtbitsI16x2 x1 x2 x3 => Sys2Proof.Machine.execGtbitsI16x2 x1 x2 x3 s
  | .shrI16x2 x1 x2 x3 => Sys2Proof.Machine.execShrI16x2 x1 x2 x3 s
  | .packI16x2 x1 x2 x3 => Sys2Proof.Machine.execPackI16x2 x1 x2 x3 s
  | .sext8 x1 x2 => Sys2Proof.Machine.execSext8 x1 x2 s
  | .sext16 x1 x2 => Sys2Proof.Machine.execSext16 x1 x2 s
  | .zext8 x1 x2 => Sys2Proof.Machine.execZext8 x1 x2 s
  | .zext16 x1 x2 => Sys2Proof.Machine.execZext16 x1 x2 s
  | .msadB4 x1 x2 x3 x4 => Sys2Proof.Machine.execMsadB4 x1 x2 x3 x4 s
  | .addF32 x1 x2 x3 => Sys2Proof.Machine.execAddF32 x1 x2 x3 s
  | .subF32 x1 x2 x3 => Sys2Proof.Machine.execSubF32 x1 x2 x3 s
  | .mulF32 x1 x2 x3 => Sys2Proof.Machine.execMulF32 x1 x2 x3 s
  | .fmaF32 x1 x2 x3 => Sys2Proof.Machine.execFmaF32 x1 x2 x3 s
  | .fmsF32 x1 x2 x3 => Sys2Proof.Machine.execFmsF32 x1 x2 x3 s
  | .minF32 x1 x2 x3 => Sys2Proof.Machine.execMinF32 x1 x2 x3 s
  | .maxF32 x1 x2 x3 => Sys2Proof.Machine.execMaxF32 x1 x2 x3 s
  | .absF32 x1 x2 => Sys2Proof.Machine.execAbsF32 x1 x2 s
  | .negF32 x1 x2 => Sys2Proof.Machine.execNegF32 x1 x2 s
  | .copysignF32 x1 x2 x3 => Sys2Proof.Machine.execCopysignF32 x1 x2 x3 s
  | .floorF32 x1 x2 => Sys2Proof.Machine.execFloorF32 x1 x2 s
  | .ceilF32 x1 x2 => Sys2Proof.Machine.execCeilF32 x1 x2 s
  | .truncF32 x1 x2 => Sys2Proof.Machine.execTruncF32 x1 x2 s
  | .rintF32 x1 x2 => Sys2Proof.Machine.execRintF32 x1 x2 s
  | .fractF32 x1 x2 => Sys2Proof.Machine.execFractF32 x1 x2 s
  | .addF64 x1 x2 x3 => Sys2Proof.Machine.execAddF64 x1 x2 x3 s
  | .subF64 x1 x2 x3 => Sys2Proof.Machine.execSubF64 x1 x2 x3 s
  | .mulF64 x1 x2 x3 => Sys2Proof.Machine.execMulF64 x1 x2 x3 s
  | .fmaF64 x1 x2 x3 => Sys2Proof.Machine.execFmaF64 x1 x2 x3 s
  | .fmsF64 x1 x2 x3 => Sys2Proof.Machine.execFmsF64 x1 x2 x3 s
  | .minF64 x1 x2 x3 => Sys2Proof.Machine.execMinF64 x1 x2 x3 s
  | .maxF64 x1 x2 x3 => Sys2Proof.Machine.execMaxF64 x1 x2 x3 s
  | .absF64 x1 x2 => Sys2Proof.Machine.execAbsF64 x1 x2 s
  | .negF64 x1 x2 => Sys2Proof.Machine.execNegF64 x1 x2 s
  | .floorF64 x1 x2 => Sys2Proof.Machine.execFloorF64 x1 x2 s
  | .ceilF64 x1 x2 => Sys2Proof.Machine.execCeilF64 x1 x2 s
  | .truncF64 x1 x2 => Sys2Proof.Machine.execTruncF64 x1 x2 s
  | .rintF64 x1 x2 => Sys2Proof.Machine.execRintF64 x1 x2 s
  | .divF64 x1 x2 x3 => Sys2Proof.Machine.execDivF64 x1 x2 x3 s
  | .sqrtF64 x1 x2 => Sys2Proof.Machine.execSqrtF64 x1 x2 s
  | .addF16x2 x1 x2 x3 => Sys2Proof.Machine.execAddF16x2 x1 x2 x3 s
  | .mulF16x2 x1 x2 x3 => Sys2Proof.Machine.execMulF16x2 x1 x2 x3 s
  | .fmaF16x2 x1 x2 x3 => Sys2Proof.Machine.execFmaF16x2 x1 x2 x3 s
  | .minF16x2 x1 x2 x3 => Sys2Proof.Machine.execMinF16x2 x1 x2 x3 s
  | .maxF16x2 x1 x2 x3 => Sys2Proof.Machine.execMaxF16x2 x1 x2 x3 s
  | .addBf16x2 x1 x2 x3 => Sys2Proof.Machine.execAddBf16x2 x1 x2 x3 s
  | .mulBf16x2 x1 x2 x3 => Sys2Proof.Machine.execMulBf16x2 x1 x2 x3 s
  | .fmaBf16x2 x1 x2 x3 => Sys2Proof.Machine.execFmaBf16x2 x1 x2 x3 s
  | .dot2F32F16 x1 x2 x3 => Sys2Proof.Machine.execDot2F32F16 x1 x2 x3 s
  | .dot2F32Bf16 x1 x2 x3 => Sys2Proof.Machine.execDot2F32Bf16 x1 x2 x3 s
  | .fcmpEqF32 x1 x2 x3 => Sys2Proof.Machine.execFcmpEqF32 x1 x2 x3 s
  | .fcmpNeF32 x1 x2 x3 => Sys2Proof.Machine.execFcmpNeF32 x1 x2 x3 s
  | .fcmpLtF32 x1 x2 x3 => Sys2Proof.Machine.execFcmpLtF32 x1 x2 x3 s
  | .fcmpLeF32 x1 x2 x3 => Sys2Proof.Machine.execFcmpLeF32 x1 x2 x3 s
  | .fcmpGtF32 x1 x2 x3 => Sys2Proof.Machine.execFcmpGtF32 x1 x2 x3 s
  | .fcmpGeF32 x1 x2 x3 => Sys2Proof.Machine.execFcmpGeF32 x1 x2 x3 s
  | .fcmpOrdF32 x1 x2 x3 => Sys2Proof.Machine.execFcmpOrdF32 x1 x2 x3 s
  | .fcmpUnordF32 x1 x2 x3 => Sys2Proof.Machine.execFcmpUnordF32 x1 x2 x3 s
  | .fcmpEqF64 x1 x2 x3 => Sys2Proof.Machine.execFcmpEqF64 x1 x2 x3 s
  | .fcmpNeF64 x1 x2 x3 => Sys2Proof.Machine.execFcmpNeF64 x1 x2 x3 s
  | .fcmpLtF64 x1 x2 x3 => Sys2Proof.Machine.execFcmpLtF64 x1 x2 x3 s
  | .fcmpLeF64 x1 x2 x3 => Sys2Proof.Machine.execFcmpLeF64 x1 x2 x3 s
  | .fcmpGtF64 x1 x2 x3 => Sys2Proof.Machine.execFcmpGtF64 x1 x2 x3 s
  | .fcmpGeF64 x1 x2 x3 => Sys2Proof.Machine.execFcmpGeF64 x1 x2 x3 s
  | .fcmpOrdF64 x1 x2 x3 => Sys2Proof.Machine.execFcmpOrdF64 x1 x2 x3 s
  | .fcmpUnordF64 x1 x2 x3 => Sys2Proof.Machine.execFcmpUnordF64 x1 x2 x3 s
  | .exp2F32 x1 x2 => Sys2Proof.Machine.execExp2F32 x1 x2 s
  | .log2F32 x1 x2 => Sys2Proof.Machine.execLog2F32 x1 x2 s
  | .rcpF32 x1 x2 => Sys2Proof.Machine.execRcpF32 x1 x2 s
  | .rsqF32 x1 x2 => Sys2Proof.Machine.execRsqF32 x1 x2 s
  | .sqrtF32 x1 x2 => Sys2Proof.Machine.execSqrtF32 x1 x2 s
  | .divF32 x1 x2 x3 => Sys2Proof.Machine.execDivF32 x1 x2 x3 s
  | .sin2piF32 x1 x2 => Sys2Proof.Machine.execSin2piF32 x1 x2 s
  | .cos2piF32 x1 x2 => Sys2Proof.Machine.execCos2piF32 x1 x2 s
  | .cvtF32F16lo x1 x2 => Sys2Proof.Machine.execCvtF32F16lo x1 x2 s
  | .cvtF32F16hi x1 x2 => Sys2Proof.Machine.execCvtF32F16hi x1 x2 s
  | .cvtF16x2F32 x1 x2 x3 => Sys2Proof.Machine.execCvtF16x2F32 x1 x2 x3 s
  | .cvtF32Bf16lo x1 x2 => Sys2Proof.Machine.execCvtF32Bf16lo x1 x2 s
  | .cvtF32Bf16hi x1 x2 => Sys2Proof.Machine.execCvtF32Bf16hi x1 x2 s
  | .cvtBf16x2F32 x1 x2 x3 => Sys2Proof.Machine.execCvtBf16x2F32 x1 x2 x3 s
  | .cvtF64F32 x1 x2 => Sys2Proof.Machine.execCvtF64F32 x1 x2 s
  | .cvtF32F64 x1 x2 => Sys2Proof.Machine.execCvtF32F64 x1 x2 s
  | .cvtF32I32 x1 x2 => Sys2Proof.Machine.execCvtF32I32 x1 x2 s
  | .cvtF32N32 x1 x2 => Sys2Proof.Machine.execCvtF32N32 x1 x2 s
  | .cvtI32F32 x1 x2 => Sys2Proof.Machine.execCvtI32F32 x1 x2 s
  | .cvtN32F32 x1 x2 => Sys2Proof.Machine.execCvtN32F32 x1 x2 s
  | .cvtF64I64 x1 x2 => Sys2Proof.Machine.execCvtF64I64 x1 x2 s
  | .cvtI64F64 x1 x2 => Sys2Proof.Machine.execCvtI64F64 x1 x2 s
  | .cvtF64I32 x1 x2 => Sys2Proof.Machine.execCvtF64I32 x1 x2 s
  | .cvtI32F64 x1 x2 => Sys2Proof.Machine.execCvtI32F64 x1 x2 s
  | .rbox x1 x2 x3 => Sys2Proof.Machine.execRbox x1 x2 x3 s
  | .rtri x1 x2 x3 => Sys2Proof.Machine.execRtri x1 x2 x3 s
  | .edgec x1 x2 x3 => Sys2Proof.Machine.execEdgec x1 x2 x3 s
  | .cullbf x1 x2 => Sys2Proof.Machine.execCullbf x1 x2 s
  | .cullbx x1 x2 => Sys2Proof.Machine.execCullbx x1 x2 s
  | .lpick x1 x2 x3 => Sys2Proof.Machine.execLpick x1 x2 x3 s
  | .lswap x1 x2 x3 => Sys2Proof.Machine.execLswap x1 x2 x3 s
  | .lrotu x1 x2 x3 => Sys2Proof.Machine.execLrotu x1 x2 x3 s
  | .lrotd x1 x2 x3 => Sys2Proof.Machine.execLrotd x1 x2 x3 s
  | .bcast x1 x2 x3 => Sys2Proof.Machine.execBcast x1 x2 x3 s
  | .ddxF32 x1 x2 => Sys2Proof.Machine.execDdxF32 x1 x2 s
  | .ddyF32 x1 x2 => Sys2Proof.Machine.execDdyF32 x1 x2 s
  | .vrdi x1 x2 => Sys2Proof.Machine.execVrdi x1 x2 s
  | .vwri x1 x2 => Sys2Proof.Machine.execVwri x1 x2 s
  | .rdlane x1 x2 x3 => Sys2Proof.Machine.execRdlane x1 x2 x3 s
  | .wrlane x1 x2 x3 => Sys2Proof.Machine.execWrlane x1 x2 x3 s
  | .raddI32 x1 x2 => Sys2Proof.Machine.execRaddI32 x1 x2 s
  | .rmaxI32 x1 x2 => Sys2Proof.Machine.execRmaxI32 x1 x2 s
  | .rminI32 x1 x2 => Sys2Proof.Machine.execRminI32 x1 x2 s
  | .raddF32 x1 x2 => Sys2Proof.Machine.execRaddF32 x1 x2 s
  | .ballot x1 x2 => Sys2Proof.Machine.execBallot x1 x2 s
  | .ld8n x1 x2 x3 => Sys2Proof.Machine.execLd8n x1 x2 x3 s
  | .ld8i x1 x2 x3 => Sys2Proof.Machine.execLd8i x1 x2 x3 s
  | .ld16n x1 x2 x3 => Sys2Proof.Machine.execLd16n x1 x2 x3 s
  | .ld16i x1 x2 x3 => Sys2Proof.Machine.execLd16i x1 x2 x3 s
  | .ld32 x1 x2 x3 => Sys2Proof.Machine.execLd32 x1 x2 x3 s
  | .ld64 x1 x2 x3 => Sys2Proof.Machine.execLd64 x1 x2 x3 s
  | .ld128 x1 x2 x3 => Sys2Proof.Machine.execLd128 x1 x2 x3 s
  | .ldx8n x1 x2 x3 => Sys2Proof.Machine.execLdx8n x1 x2 x3 s
  | .ldx8i x1 x2 x3 => Sys2Proof.Machine.execLdx8i x1 x2 x3 s
  | .ldx16n x1 x2 x3 => Sys2Proof.Machine.execLdx16n x1 x2 x3 s
  | .ldx16i x1 x2 x3 => Sys2Proof.Machine.execLdx16i x1 x2 x3 s
  | .ldx32 x1 x2 x3 => Sys2Proof.Machine.execLdx32 x1 x2 x3 s
  | .ldx64 x1 x2 x3 => Sys2Proof.Machine.execLdx64 x1 x2 x3 s
  | .ldx128 x1 x2 x3 => Sys2Proof.Machine.execLdx128 x1 x2 x3 s
  | .st8 x1 x2 x3 => Sys2Proof.Machine.execSt8 x1 x2 x3 s
  | .st16 x1 x2 x3 => Sys2Proof.Machine.execSt16 x1 x2 x3 s
  | .st32 x1 x2 x3 => Sys2Proof.Machine.execSt32 x1 x2 x3 s
  | .st64 x1 x2 x3 => Sys2Proof.Machine.execSt64 x1 x2 x3 s
  | .st128 x1 x2 x3 => Sys2Proof.Machine.execSt128 x1 x2 x3 s
  | .stx8 x1 x2 x3 => Sys2Proof.Machine.execStx8 x1 x2 x3 s
  | .stx16 x1 x2 x3 => Sys2Proof.Machine.execStx16 x1 x2 x3 s
  | .stx32 x1 x2 x3 => Sys2Proof.Machine.execStx32 x1 x2 x3 s
  | .stx64 x1 x2 x3 => Sys2Proof.Machine.execStx64 x1 x2 x3 s
  | .stx128 x1 x2 x3 => Sys2Proof.Machine.execStx128 x1 x2 x3 s
  | .ldk32 x1 x2 x3 => Sys2Proof.Machine.execLdk32 x1 x2 x3 s
  | .ldk64 x1 x2 x3 => Sys2Proof.Machine.execLdk64 x1 x2 x3 s
  | .ldk128 x1 x2 x3 => Sys2Proof.Machine.execLdk128 x1 x2 x3 s
  | .lda32 x1 x2 x3 => Sys2Proof.Machine.execLda32 x1 x2 x3 s
  | .lda64 x1 x2 x3 => Sys2Proof.Machine.execLda64 x1 x2 x3 s
  | .stl32 x1 x2 x3 => Sys2Proof.Machine.execStl32 x1 x2 x3 s
  | .stl64 x1 x2 x3 => Sys2Proof.Machine.execStl64 x1 x2 x3 s
  | .fence x1 x2 x3 => Sys2Proof.Machine.execFence x1 x2 x3 s
  | .pfence x1 => Sys2Proof.Machine.execPfence x1 s
  | .icinv x1 => Sys2Proof.Machine.execIcinv x1 s
  | .icinvAll => Sys2Proof.Machine.execIcinvAll s
  | .prefL1 x1 x2 => Sys2Proof.Machine.execPrefL1 x1 x2 s
  | .prefL2 x1 x2 => Sys2Proof.Machine.execPrefL2 x1 x2 s
  | .atomAddI32 x1 x2 x3 => Sys2Proof.Machine.execAtomAddI32 x1 x2 x3 s
  | .atomAddI64 x1 x2 x3 => Sys2Proof.Machine.execAtomAddI64 x1 x2 x3 s
  | .atomMinI32 x1 x2 x3 => Sys2Proof.Machine.execAtomMinI32 x1 x2 x3 s
  | .atomMaxI32 x1 x2 x3 => Sys2Proof.Machine.execAtomMaxI32 x1 x2 x3 s
  | .atomMinN32 x1 x2 x3 => Sys2Proof.Machine.execAtomMinN32 x1 x2 x3 s
  | .atomMaxN32 x1 x2 x3 => Sys2Proof.Machine.execAtomMaxN32 x1 x2 x3 s
  | .atomAnd32 x1 x2 x3 => Sys2Proof.Machine.execAtomAnd32 x1 x2 x3 s
  | .atomOr32 x1 x2 x3 => Sys2Proof.Machine.execAtomOr32 x1 x2 x3 s
  | .atomXor32 x1 x2 x3 => Sys2Proof.Machine.execAtomXor32 x1 x2 x3 s
  | .atomXchg32 x1 x2 x3 => Sys2Proof.Machine.execAtomXchg32 x1 x2 x3 s
  | .atomXchg64 x1 x2 x3 => Sys2Proof.Machine.execAtomXchg64 x1 x2 x3 s
  | .atomCas32 x1 x2 x3 => Sys2Proof.Machine.execAtomCas32 x1 x2 x3 s
  | .atomCas64 x1 x2 x3 => Sys2Proof.Machine.execAtomCas64 x1 x2 x3 s
  | .atomAddF32 x1 x2 x3 => Sys2Proof.Machine.execAtomAddF32 x1 x2 x3 s
  | .atomIncN32 x1 x2 x3 => Sys2Proof.Machine.execAtomIncN32 x1 x2 x3 s
  | .atomDecN32 x1 x2 x3 => Sys2Proof.Machine.execAtomDecN32 x1 x2 x3 s
  | .wayin x1 x2 => Sys2Proof.Machine.execWayin x1 x2 s
  | .wayout x1 => Sys2Proof.Machine.execWayout x1 s
  | .wayskip x1 x2 => Sys2Proof.Machine.execWayskip x1 x2 s
  | .waytry x1 x2 x3 => Sys2Proof.Machine.execWaytry x1 x2 x3 s
  | .wayclose x1 => Sys2Proof.Machine.execWayclose x1 s
  | .wayqry x1 x2 => Sys2Proof.Machine.execWayqry x1 x2 s
  | .barArrive x1 => Sys2Proof.Machine.execBarArrive x1 s
  | .barWait x1 => Sys2Proof.Machine.execBarWait x1 s
  | .barSync x1 => Sys2Proof.Machine.execBarSync x1 s
  | .barAlloc x1 x2 => Sys2Proof.Machine.execBarAlloc x1 x2 s
  | .barFree x1 => Sys2Proof.Machine.execBarFree x1 s
  | .cbarArrive x1 => Sys2Proof.Machine.execCbarArrive x1 s
  | .cbarWait x1 => Sys2Proof.Machine.execCbarWait x1 s
  | .cbarSync x1 => Sys2Proof.Machine.execCbarSync x1 s
  | .gbarSync => Sys2Proof.Machine.execGbarSync s
  | .spawn x1 x2 => Sys2Proof.Machine.execSpawn x1 x2 s
  | .fetchw x1 => Sys2Proof.Machine.execFetchw x1 s
  | .regacq => Sys2Proof.Machine.execRegacq s
  | .regrel => Sys2Proof.Machine.execRegrel s
  | .regroup x1 => Sys2Proof.Machine.execRegroup x1 s
  | .launch x1 x2 => Sys2Proof.Machine.execLaunch x1 x2 s
  | .preok => Sys2Proof.Machine.execPreok s
  | .srd x1 x2 => Sys2Proof.Machine.execSrd x1 x2 s
  | .swr x1 x2 => Sys2Proof.Machine.execSwr x1 x2 s
  | .copyG2s x1 x2 x3 x4 x5 => Sys2Proof.Machine.execCopyG2s x1 x2 x3 x4 x5 s
  | .copyS2g x1 x2 x3 x4 x5 => Sys2Proof.Machine.execCopyS2g x1 x2 x3 x4 x5 s
  | .copyG2o x1 x2 x3 x4 x5 => Sys2Proof.Machine.execCopyG2o x1 x2 x3 x4 x5 s
  | .copyS2o x1 x2 x3 x4 x5 => Sys2Proof.Machine.execCopyS2o x1 x2 x3 x4 x5 s
  | .copyG2g x1 x2 x3 x4 x5 => Sys2Proof.Machine.execCopyG2g x1 x2 x3 x4 x5 s
  | .copyFill x1 x2 x3 x4 x5 => Sys2Proof.Machine.execCopyFill x1 x2 x3 x4 x5 s
  | .tmma x1 x2 x3 x4 x5 => Sys2Proof.Machine.execTmma x1 x2 x3 x4 x5 s
  | .tmms x1 x2 x3 x4 x5 => Sys2Proof.Machine.execTmms x1 x2 x3 x4 x5 s
  | .tzero x1 x2 => Sys2Proof.Machine.execTzero x1 x2 s
  | .tld x1 x2 x3 x4 => Sys2Proof.Machine.execTld x1 x2 x3 x4 s
  | .tst x1 x2 x3 x4 => Sys2Proof.Machine.execTst x1 x2 x3 x4 s
  | .tclaim x1 x2 x3 => Sys2Proof.Machine.execTclaim x1 x2 x3 s
  | .tclaimAcc x1 x2 x3 => Sys2Proof.Machine.execTclaimAcc x1 x2 x3 s
  | .trelSlot x1 x2 => Sys2Proof.Machine.execTrelSlot x1 x2 s
  | .trelAcc x1 x2 => Sys2Proof.Machine.execTrelAcc x1 x2 s
  | .tcfg x1 x2 x3 x4 => Sys2Proof.Machine.execTcfg x1 x2 x3 x4 s
  | .chexp x1 x2 x3 x4 => Sys2Proof.Machine.execChexp x1 x2 x3 x4 s
  | .chopAdd x1 x2 x3 => Sys2Proof.Machine.execChopAdd x1 x2 x3 s
  | .chopSub x1 x2 x3 => Sys2Proof.Machine.execChopSub x1 x2 x3 s
  | .chopMul x1 x2 x3 => Sys2Proof.Machine.execChopMul x1 x2 x3 s
  | .chopFma x1 x2 x3 => Sys2Proof.Machine.execChopFma x1 x2 x3 s
  | .chopMin x1 x2 x3 => Sys2Proof.Machine.execChopMin x1 x2 x3 s
  | .chopMax x1 x2 x3 => Sys2Proof.Machine.execChopMax x1 x2 x3 s
  | .chopExp2 x1 x2 => Sys2Proof.Machine.execChopExp2 x1 x2 s
  | .chopRcp x1 x2 => Sys2Proof.Machine.execChopRcp x1 x2 s
  | .chopMov x1 x2 => Sys2Proof.Machine.execChopMov x1 x2 s
  | .chopSel x1 x2 x3 => Sys2Proof.Machine.execChopSel x1 x2 x3 s
  | .chopLt x1 x2 => Sys2Proof.Machine.execChopLt x1 x2 s
  | .chopLe x1 x2 => Sys2Proof.Machine.execChopLe x1 x2 s
  | .chopEq x1 x2 => Sys2Proof.Machine.execChopEq x1 x2 s
  | .chopNe x1 x2 => Sys2Proof.Machine.execChopNe x1 x2 s
  | .chenabPush => Sys2Proof.Machine.execChenabPush s
  | .chenabPop => Sys2Proof.Machine.execChenabPop s
  | .chenabElse => Sys2Proof.Machine.execChenabElse s
  | .chenabAll => Sys2Proof.Machine.execChenabAll s
  | .chld x1 x2 x3 x4 => Sys2Proof.Machine.execChld x1 x2 x3 x4 s
  | .chst x1 x2 x3 x4 x5 => Sys2Proof.Machine.execChst x1 x2 x3 x4 x5 s
  | .chvis x1 x2 => Sys2Proof.Machine.execChvis x1 x2 s
  | .chown x1 x2 => Sys2Proof.Machine.execChown x1 x2 s
  | .chrel => Sys2Proof.Machine.execChrel s
  | .chorg x1 => Sys2Proof.Machine.execChorg x1 s
  | .chorgRd x1 => Sys2Proof.Machine.execChorgRd x1 s
  | .chset x1 x2 x3 => Sys2Proof.Machine.execChset x1 x2 x3 s
  | .chcubic x1 x2 x3 => Sys2Proof.Machine.execChcubic x1 x2 x3 s
  | .bkmodeOn x1 x2 x3 x4 x5 => Sys2Proof.Machine.execBkmodeOn x1 x2 x3 x4 x5 s
  | .bkmodeOff x1 x2 x3 x4 x5 => Sys2Proof.Machine.execBkmodeOff x1 x2 x3 x4 x5 s
  | .bkload x1 x2 x3 x4 x5 x6 x7 => Sys2Proof.Machine.execBkload x1 x2 x3 x4 x5 x6 x7 s
  | .bkmac x1 x2 x3 x4 x5 x6 x7 => Sys2Proof.Machine.execBkmac x1 x2 x3 x4 x5 x6 x7 s
  | .bkread x1 x2 x3 x4 x5 => Sys2Proof.Machine.execBkread x1 x2 x3 x4 x5 s
  | .bkcalCal x1 x2 x3 x4 x5 => Sys2Proof.Machine.execBkcalCal x1 x2 x3 x4 x5 s
  | .bkcalBist x1 x2 x3 x4 x5 => Sys2Proof.Machine.execBkcalBist x1 x2 x3 x4 x5 s
  | .bkcalRemap x1 x2 x3 x4 x5 => Sys2Proof.Machine.execBkcalRemap x1 x2 x3 x4 x5 s
  | .bkstat x1 x2 x3 x4 x5 => Sys2Proof.Machine.execBkstat x1 x2 x3 x4 x5 s
  | .collRed x1 x2 x3 x4 x5 => Sys2Proof.Machine.execCollRed x1 x2 x3 x4 x5 s
  | .collRedq x1 x2 x3 x4 x5 => Sys2Proof.Machine.execCollRedq x1 x2 x3 x4 x5 s
  | .collBcast x1 x2 x3 x4 x5 => Sys2Proof.Machine.execCollBcast x1 x2 x3 x4 x5 s
  | .collGather x1 x2 x3 x4 x5 => Sys2Proof.Machine.execCollGather x1 x2 x3 x4 x5 s
  | .lput x1 x2 x3 x4 x5 => Sys2Proof.Machine.execLput x1 x2 x3 x4 x5 s
  | .lget x1 x2 x3 x4 x5 => Sys2Proof.Machine.execLget x1 x2 x3 x4 x5 s
  | .trap x1 => Sys2Proof.Machine.execTrap x1 s
  | .tret => Sys2Proof.Machine.execTret s
  | .tlbinvPage x1 x2 => Sys2Proof.Machine.execTlbinvPage x1 x2 s
  | .tlbinvCtx x1 => Sys2Proof.Machine.execTlbinvCtx x1 s
  | .tlbinvAll => Sys2Proof.Machine.execTlbinvAll s
  | .l2way x1 => Sys2Proof.Machine.execL2way x1 s
  | .l2wayRd x1 => Sys2Proof.Machine.execL2wayRd x1 s
  | .stop => Sys2Proof.Machine.execStop s
  | .sndgOn x1 => Sys2Proof.Machine.execSndgOn x1 s
  | .sndgOff => Sys2Proof.Machine.execSndgOff s
  | .sndgRd x1 => Sys2Proof.Machine.execSndgRd x1 s

end Sys2Proof.Machine
end

