-- ==== Sys2Proof/Machine/Schedule.lean ====
section
/-! DEFINITION. What the machine does next: events from outside, steps of its own that are due, and the issue of clause steps (03 R42-R54, R60; 10 R218).
Where several things could come next, the oracle picks; its default is the first (log entry 3). -/

namespace Sys2Proof.Machine

/-- What runs an instruction word. -/
abbrev Runner := Word → State → Host.Outcome State Fault Refusal

/-- A word is run as the instruction it decodes to; what decodes to none raises ILLOP (03 R59). -/
noncomputable def runWord (w : Word) (s : State) : Host.Outcome State Fault Refusal :=
  match decodeWord w with
  | .ok i => exec i s
  | .error _ => execWordNotAnInstruction w s

def mapNext (f : State → State) : Host.Outcome State Fault Refusal → Host.Outcome State Fault Refusal
  | .next s => .next (f s)
  | o => o

/-- The issue record that lends an event its choice. -/
def Issue.ofChoice (choice : Nat) : Issue :=
  { group := 0, slices := 0, pc := 0, chain := 0, next := 0, split := 0, gang := 0, word := 0, flag := 0, snap := none, choice := choice, probe := false,
    verdict := .pending }

/-! Issuing one clause step. -/

/-- The issue record of slot k of a begun clause, in the chain that begins at slot i; `last` is the chain's last slot. -/
def Ops.issueOf (gid gang : Nat) (slices : SliceSet) (c : Gang) (i last k choice : Nat) : Issue :=
  let later := (headSlots (decodeHead (c.words.getD 0 0))).find? fun j => decide (last < j)
  { group := gid, slices := slices, pc := c.clause + BitVec.ofNat 57 (4 * k), chain := c.clause + BitVec.ofNat 57 (4 * i),
    next := match later with
      | some j => c.clause + BitVec.ofNat 57 (4 * j)
      | none => c.clause + 16,
    split := gang, gang := if later.isSome then gang else 0, word := c.words.getD k 0, flag := flagOf c.words k, snap := none, choice := choice,
    probe := false, verdict := .pending }

/-- A trap of a probe before another: by step of Table ENC-9; of one step the lower slot, which comes first, is kept (03 R60). -/
def earlierTrap (a : Option Trap) (t : Trap) : Option Trap :=
  match a with
  | none => some t
  | some x => if t.stage < x.stage then some t else some x

/-- What the words of a chain come to one by one (03 R54): the first trap with the state its word's walks have left, and whether one stalls. -/
structure Probe where
  trap  : Option Trap
  left  : State
  stall : Bool
  deriving DecidableEq, Repr

def Probe.note (p : Probe) (s : State) : Verdict → Probe
  | .stall => { p with stall := true }
  | .trap t => if earlierTrap p.trap t = p.trap then p else { p with trap := some t, left := { s with cur := none } }
  | _ => p

def State.probe (run : Runner) (s : State) (us : List Issue) : Probe :=
  us.foldl (fun p u => match run u.word { s with cur := some { u with probe := true } } with
    | .next t => p.note t ((t.cur.map (·.verdict)).getD .pending)
    | _ => p) { trap := none, left := s, stall := false }

/-- Runs the words of a chain that all may issue, each with its operands as they stood before the chain; none where one waits after all. -/
def runAll (run : Runner) (s0 : State) (g : Group) : List Issue → State → Option (Host.Outcome State Fault Refusal)
  | [], s => some (.next s)
  | u :: us, s => match run u.word { s with cur := some { u with snap := some g } } with
    | .next t => match t.cur.map (·.verdict) with
      | some Verdict.stall => none
      | some (Verdict.trap x) => some (.next ((s0.linkUsed u.group x.cause).presentTrap u.group x none))
      | _ => runAll run s0 g us t
    | o => some o

/-- Words of a chain have their effect in slot order (07 R154), but for a `regroup`, which moves the lanes the others write (log entry 39). -/
def chainOrder (us : List Issue) : List Issue :=
  let moves (u : Issue) : Bool := Word.major u.word == 0x2D && Word.min u.word == 4
  (us.filter fun u => !moves u) ++ us.filter moves

/-- The effect of one chain, or of one word that is joined to no other; none where it stalls. -/
def State.runChain (run : Runner) (s : State) (gid : Nat) (g : Group) (us : List Issue) : Option (Host.Outcome State Fault Refusal) :=
  match us with
  | [u] => match run u.word { s with cur := some u } with
    | .next t => if t.cur.map (·.verdict) = some Verdict.stall then none else some (.next t)
    | o => some o
  | _ =>
    let p := s.probe run us
    match p.trap with
    | some t => if p.stall && decide (7 ≤ t.stage) then none else some (.next ((p.left.linkUsed gid t.cause).presentTrap gid t none))
    | none => if p.stall then none else runAll run s g (chainOrder us) s

/-- After a step: what it leaves its slices to be passed over or delayed by, what a transfer that it has completed leaves in the predictors, the clauses
fetched ahead that are off the path (04 R90), and gangs nobody goes on in. `last` tells the last step of a clause. -/
def State.afterStep (s : State) (gid : Nat) (slices : SliceSet) (core : Nat) (c : Gang) (last : Bool) : State :=
  let hint := (decodeHead (c.words.getD 0 0)).yield.toNat
  let now := s.now core
  let k := s.core core
  let delay := s.trialDelay (((Tab.find s.groups gid).map s.ctxOf).getD 0) c.clause
  let goes := last && s.cur.any fun u => u.verdict == .done
  let touch (wrong : SliceSet) (i : Nat) (x : Slice) : Slice :=
    let til := if delay = 0 then x.after else now + delay + 1
    { x with passTo := if last && decide (hint ≠ 0) then max x.passTo (k.issues + 4 * hint) else x.passTo, after := if wrong.getLsbD i then max til (now + 6) else til }
  let settle (g : Group) : Group :=
    let wrong := if goes then g.mispredicted k slices c.clause c.words else 0
    let h := g.onSlices slices (touch wrong)
    let h1 := if goes then h.noteTransfer slices c.clause c.words else h
    let h2 := { h1 with gangs := h1.gangs.filter fun e => h1.slices.any fun x => x.gang == e.1 }
    if h2.fetched.isEmpty then h2 else h2.dropStrays k slices wrong
  let learn (k : Core) : Core := match Tab.find s.groups gid with
    | some g => if goes then k.noteBranch g slices c.clause c.words else k
    | none => k
  { (s.onGroup gid settle).onCore core learn with cur := none }

/-- A flag a waiting clause sees set (03 R47). -/
def Group.flagBusy (g : Group) (now f : Nat) : Bool := decide (g.flagCount f ≠ 0) || decide (now < Tab.get 0 g.flagTil f)

/-- A flag the head waits for is set, or a flag of its long-latency words would pass 63 (03 R47, R48). -/
def Group.flagsWait (g : Group) (now : Nat) (words : List Word) (from' : Nat) : Bool :=
  let h := decodeHead (words.getD 0 0)
  let long := (headSlots h).filter fun i => decide (from' ≤ i) && Word.isLong (words.getD i 0)
  (members h.wait).any (g.flagBusy now) || long.any fun i => decide (63 ≤ g.flagCount (flagOf words i))

/-- The slot a gang goes on at. -/
def Group.gangSlot (g : Group) (gang : Nat) : Nat := slotOf (g.slice (lowest 0 (g.gangSlices gang))).seq.pc

/-- The next step of a begun clause, whose first step honours the head's WAIT (03 R42); none where it waits. -/
def State.issueGang (run : Runner) (s : State) (gid gang choice : Nat) : Option (Host.Outcome State Fault Refusal) :=
  match Tab.find s.groups gid with
  | none => none
  | some g => match Tab.find g.gangs gang with
    | none => none
    | some c =>
      let slices := g.gangSlices gang
      let i := g.gangSlot gang
      let chain := chainFrom c.words i
      let us := chain.map fun k => Ops.issueOf gid gang slices c i (chain.getLastD i) k choice
      if c.fresh && g.flagsWait (s.nowOf g) c.words i then none
      else match (s.onGroup gid fun g => { g with gangs := Tab.put g.gangs gang { c with fresh := false } }).runChain run gid g us with
        | none => none
        | some o => some (mapNext (fun t => t.afterStep gid slices (s.coreOf g) c (us.all fun u => u.gang == 0)) o)

/-- The words of the clause a split at a clause boundary is about to issue, and the first slot it issues of them; none where the clause raises a trap, or
holds no valid slot from there on (03 R42). -/
def State.headOf (s : State) (gid : Nat) (g : Group) (slices : SliceSet) (choice : Nat) : Option (List Word × Nat) :=
  let pc := (g.slice (lowest 0 slices)).seq.pc
  match s.fetchClause gid g slices choice (clauseOf pc) with
  | .words w => if clauseOk s.stepB0 w then ((headSlots (decodeHead (w.getD 0 0))).find? fun i => decide (slotOf pc ≤ i)).map fun i => (w, i) else none
  | _ => none

/-- A split whose clause is to be begun without an issue: it raises a trap, or holds no valid slot from where the split stands on. -/
def State.beginsIdle (s : State) (gid : Nat) (g : Group) (slices : SliceSet) : Bool :=
  (s.headOf gid g slices 0).isNone && s.fetchClause gid g slices 0 (clauseOf (g.slice (lowest 0 slices)).seq.pc) != .waits

/-- A split at a clause boundary begins its clause and issues its first step; none where it waits. -/
def State.issueNew (run : Runner) (s : State) (gid : Nat) (g : Group) (slices : SliceSet) (choice : Nat) : Option (Host.Outcome State Fault Refusal) :=
  match s.headOf gid g slices choice with
  | none => none
  | some x => if g.flagsWait (s.nowOf g) x.1 x.2 then none else (s.beginClause gid g slices choice).issueGang run gid s.nextId choice

/-! The candidate window (10 R218). -/

/-- The group may be given a step, as far as its own state goes: a spawned group waits for the atomics its spawner made before it (10 R224). -/
def State.groupMay (s : State) (g : Group) : Bool := !g.killed && !g.ended && !g.spilled && !(g.startAfter.any fun a => s.atomsBefore a.1 a.2)

/-- Slices that are not held back for a time: by a handler of others, a reckoning trial or a wrong prediction. -/
def State.slicesMay (s : State) (g : Group) (set : SliceSet) : Bool :=
  set ≠ 0 && (members set).all fun i => g.sliceMay i && decide ((g.slice i).after ≤ s.nowOf g)

/-- The splits of a group that stand at a clause boundary. -/
def State.headsOf (s : State) (g : Group) : List SliceSet :=
  if s.groupMay g && s.groupRuns g then ((((List.range g.slices.length).filter g.atBoundary).map g.splitAt).eraseDups).filter (s.slicesMay g) else []

/-- The splits of a group that do not wait, inside a clause or at a clause boundary; and whether the head's WAIT is clear, so that one may enter the
window. -/
def State.splitsOf (s : State) (gid : Nat) (g : Group) : List (Candidate × Bool) :=
  let entry (gang : Nat) (set : SliceSet) : Candidate := { group := gid, gang := gang, slices := set, passed := 0 }
  let inside := g.gangs.filter fun e => s.groupMay g && s.slicesMay g (g.gangSlices e.1)
  let heads := (s.headsOf g).filterMap fun set => (s.headOf gid g set 0).map fun x => (entry 0 set, !g.flagsWait (s.nowOf g) x.1 x.2)
  (inside.map fun e => (entry e.1 (g.gangSlices e.1), !(e.2.fresh && g.flagsWait (s.nowOf g) e.2.words (g.gangSlot e.1)))) ++ heads

/-- The pod of a core's service group has a request its home slice can serve. -/
def State.serviceReady (s : State) (core : Nat) : Bool :=
  Ops.hostsService core && ((Tab.get [] s.podQ (core / 12)).take 64).any fun r => !s.asksHeld r

/-- Every split of a core that does not wait, the service group's step under group 0. -/
def State.candidatesOn (s : State) (core : Nat) : List (Candidate × Bool) :=
  (if s.serviceReady core then [(({ group := 0, gang := 0, slices := 0, passed := 0 } : Candidate), true)] else [])
    ++ (s.groupsOn core).flatMap fun e => s.splitsOf e.1 e.2

/-- Two entries for one split, which may have grown at its clause boundary (04 R72). -/
def Candidate.same (a b : Candidate) : Bool := a.group == b.group && a.gang == b.gang && (a.group == 0 || a.slices &&& b.slices != 0)

/-- The line of candidates as it stands in this cycle: who does not wait keeps its place, and who has become a candidate, its head's WAIT being clear, comes to
the tail. -/
def State.lineOf (s : State) (core : Nat) : List Candidate :=
  let all := s.candidatesOn core
  let old := ((s.core core).window.filterMap fun e => (all.find? fun x => e.same x.1).map fun x => { x.1 with passed := e.passed }).foldl
    (fun l e => if l.any e.same then l else l ++ [e]) []
  old ++ (all.filter fun x => x.2 && !(old.any x.1.same)).map (·.1)

/-- The candidate window: the head of the line (log entry 89). -/
def State.windowOf (s : State) (core : Nat) : List Candidate := (s.lineOf core).take 32

/-- The core's line takes in those that have become candidates. -/
def State.fillWindow (s : State) (core : Nat) : State :=
  let w := s.lineOf core
  if w = (s.core core).window then s else s.onCore core fun k => { k with window := w }

/-- Runs a step that is no word. -/
def State.runEvent (s : State) (e : Instr) (choice : Nat) : Host.Outcome State Fault Refusal :=
  if e.isWord then .next s else exec e { s with cur := some (Issue.ofChoice choice) }

/-- What the step of a candidate comes to; none where it is not ready. -/
def State.tryEntry (run : Runner) (s : State) (core choice : Nat) (e : Candidate) : Option (Host.Outcome State Fault Refusal) :=
  if e.group = 0 then some (s.runEvent (.serviceRound (core / 12)) choice)
  else if e.gang ≠ 0 then s.issueGang run e.group e.gang choice
  else match Tab.find s.groups e.group with
    | none => none
    | some g => s.issueNew run e.group g e.slices choice

/-- A yield hint has the core pass over the candidate (03 R45, 04 R86). -/
def State.passes (s : State) (core : Nat) (e : Candidate) : Bool :=
  match Tab.find s.groups e.group with
  | none => false
  | some g => decide ((s.core core).issues < (g.slice (lowest 0 e.slices)).passTo)

/-- How many issue cycles a candidate that is ready may still wait, this one included. -/
def Candidate.left (e : Candidate) : Nat := 32 - e.passed

/-- The ready candidates of which one must issue now, so that each issues within its bound: as many as there are issue cycles left to them. -/
def mustIssue (es : List Candidate) : List Candidate :=
  match ((List.range 32).map (· + 1)).find? fun r => decide (r ≤ (es.filter fun e => decide (e.left ≤ r)).length) with
  | some r => es.filter fun e => decide (e.left ≤ r)
  | none => es

/-- The choice among the ready candidates, in the order of the window: the first that no hint passes over, else the first. -/
def State.chosen (s : State) (core : Nat) (ready : List Candidate) : Option Candidate :=
  ((mustIssue ready).find? fun e => !s.passes core e).or (mustIssue ready).head?

/-- The words of a candidate's next step. -/
def State.stepWords (s : State) (choice : Nat) (e : Candidate) : List Word :=
  match Tab.find s.groups e.group with
  | none => []
  | some g =>
    let head : Option (List Word × Nat) := if e.gang = 0 then s.headOf e.group g e.slices choice else (Tab.find g.gangs e.gang).map fun c => (c.words, g.gangSlot e.gang)
    match head with
    | some (w, i) => (chainFrom w i).map fun k => w.getD k 0
    | none => []

/-- The step passes through both halves of the lanes, and so takes two cycles (01 R17); one of mask words and words on the uniform datapath alone takes one
(04 R88, 05 R91). -/
def State.twoPasses (s : State) (choice : Nat) (e : Candidate) : Bool :=
  match Tab.find s.groups e.group with
  | none => false
  | some g => decide ((g.execOf e.slices).setWidth 64 ≠ 0#64) && decide ((g.execOf e.slices >>> 64).setWidth 64 ≠ 0#64)
      && !(s.stepWords choice e).all Word.onePass

/-- What an issue leaves in the core: the line without the entry that issued, and when it last issued and may again. -/
def Core.issued (now : Nat) (two : Bool) (line ready : List Candidate) (e : Candidate) (k : Core) : Core :=
  let count (x : Candidate) : Candidate := { x with passed := if ready.contains x then x.passed + 1 else 0 }
  { k with window := (line.filter fun x => x != e).map count, free := now + (if two then 2 else 1), lastIssue := if e.group = 0 then k.lastIssue else now }

/-- A core's next clause step. -/
def State.issueOn (run : Runner) (s : State) (core choice : Nat) : Option (Host.Outcome State Fault Refusal) :=
  if s.now core < (s.core core).free then none
  else
    let line := s.lineOf core
    let s1 := s.onCore core fun k => { k with issues := k.issues + 1 }
    let tries := (line.take 32).filterMap fun e => (s1.tryEntry run core choice e).map fun o => (e, o)
    let ready := tries.map (·.1)
    (s.chosen core ready).bind fun e => (tries.find? fun t => t.1 == e).map fun t =>
      mapNext (fun u => u.onCore core (Core.issued (s.now core) (s.twoPasses choice e) line ready e)) t.2

/-! The steps of the machine's own that are due. -/

/-- The ends of a group's long-latency words that are ready: of those that fault, that of the lowest slice alone. -/
def longsDue (gid : Nat) (g : Group) (longs : Tab LongOp) : List Instr :=
  let faults := longs.filter fun e => e.2.fault.isSome
  let lowestOf (e : Nat × LongOp) : Nat := lowest 32 e.2.slices
  let first := faults.foldl (fun b e => match b with
    | none => some e
    | some x => if lowestOf e < lowestOf x then some e else some x) (none : Option (Nat × LongOp))
  (first.map fun e => Instr.asyncFault gid e.1).toList ++ (longs.filter fun e => e.2.fault.isNone && e.2.ready && !g.awaitsBlock e.2).map fun e => .resultWriteback gid e.1

/-- A long-latency word that the default order still leaves under way. -/
def State.isFresh (s : State) (g : Group) (op : LongOp) : Bool := decide (s.nowOf g < op.since + Config.usualWait)

/-- What ends in this very cycle, before anything else comes: joins and `wayin`s that complete or whose time has run out, and sleeps
(04 R81, R87; 09 R193, R202). -/
def State.groupNow (s : State) (gid : Nat) (g : Group) : List Instr :=
  let now := s.nowOf g
  let late := g.lateJoins (now - 1)
  let joins := if late = [] then g.spots.filter fun j => g.fullAt now j || g.staleAt now j else []
  let sleeps := (List.range g.slices.length).filter fun i => match (g.slice i).seq.wait with
    | .sleep til => decide (til ≤ now)
    | _ => false
  let way (e : Nat × WayOp) : List Instr :=
    if e.2.minor ≠ 0 then [] else if e.2.waiting = 0 ∧ e.2.failed = [] then [.wayinComplete gid e.1] else if e.2.timedOut g (now - 1) then [.wayinTimeout gid e.1] else []
  late.map (fun j => .joinTimeout gid j) ++ joins.map (fun j => .joinComplete gid j) ++ g.ways.flatMap way
    ++ (sleeps.take 1).map (fun i => .sleepEnd gid i)

/-- The steps due for a group. -/
def State.groupDue (s : State) (gid : Nat) (g : Group) : List Instr :=
  let way (e : Nat × WayOp) : List Instr :=
    if e.2.minor = 2 ∧ e.2.waiting = 0 then [if e.2.failed.isEmpty then .wayskipFirm gid e.1 else .wayskipRemove gid e.1] else []
  longsDue gid g (g.longs.filter fun e => !s.isFresh g e.2)
    ++ (if g.trap.any fun t => decide (t.born < s.nowOf g) && (!t.en || g.hasStopped t.slices) then [.trapEntry gid] else [])
    ++ g.ways.flatMap way ++ ((s.headsOf g).filter (s.beginsIdle gid g)).map (fun set => .clauseDecode gid set)
    ++ (if s.groupDone gid g then [.groupEnd gid] else [])

/-- The steps due on a core. -/
def State.coreDue (s : State) (n : Nat) (k : Core) : List Instr :=
  let acks := k.stores.filter fun p => p.cells.any fun c => !s.heldAt c.1
  let claims := [false, true].filter fun acc => (s.claimReady n acc).isSome
  let engines := [Engine.copy, .tile, .chart, .bank, .link].filter fun e => (k.queueOf e).length ≠ 0
  let contributions := match s.collReady n 0 with
    | some (_, c) => if c.home = s.device then [Instr.collectiveContribution c] else []
    | none => []
  acks.map (fun p => .writeAcknowledgedAtHome n p.id)
    ++ (if (s.grantable n).isSome then [.regacqGrant n] else []) ++ (if s.spillDue n then [.spill n] else [])
    ++ claims.map (fun acc => .tclaimGrant n acc) ++ (if (k.chartQ.head?).any fun x => x.cmd == .chreset then [.chartReset n] else []) ++ contributions
    ++ (engines.filter fun e => s.engineDue n e).map (fun e => .engineCommandComplete n e)
    ++ (engines.filter fun e => (s.busyTurn n e).isSome).map (fun e => .engineBusyTimeout n e)
    ++ ((List.range 4).filter fun i => s.gateDue n i).map fun i => .subarrayGate n (BitVec.ofNat 2 i)

/-- The steps due around the services, whose own steps their cores issue (09 R181, 10 R218). -/
def State.servicesDue (s : State) : List Instr :=
  let enter := ((s.net.map (·.pod)).eraseDups).filter fun p => decide ((Tab.get [] s.podQ p).length < 256)
  enter.map (fun p => .serviceRequestEnqueue p) ++ ((s.replies.map (·.pod)).eraseDups).map (fun p => .serviceReply p)
    ++ s.probes.reverse.map (fun p => .waypointProbe p.1 p.2) ++ s.poisons.map fun p => .waypointPoison p.1 p.2

/-- The steps due of the Pilot. -/
def State.pilotDue (s : State) : List Instr :=
  let kills := s.launches.filter fun e => !e.2.kills.isEmpty && !s.heldAt (s.queue e.2.host).base
  let ends := s.launches.filter fun e => s.completes e.1 e.2
  let fills := s.blocks.filter fun e => !e.2.fetchws.isEmpty && !e.2.away && !e.2.ended
  kills.map (fun e => .killRecordWrite e.1) ++ ends.map (fun e => .launchComplete e.1) ++ fills.map (fun e => .fetchwFill e.1)
    ++ s.launchReqs.map (fun r => .launchAnswer r.group r.op)
    ++ ((List.range 64).filter s.tailDue).map (fun n => .queueTailWrite n)
    ++ ((List.range 68).filter s.copyDue).map (fun n => .launchRecordCopy n)
    ++ ((s.pilotChoice s.readyQueues).map fun n => Instr.blockPlacement n).toList

/-- The steps due for debugging and pre-emption. -/
def State.unitsDue (s : State) : List Instr :=
  let records := s.blocks.filter fun e => e.2.halt.any fun h => s.recordMay e.1 e.2 h
  records.map (fun e => .debugRecordWrite e.1)
    ++ (s.units.filter fun e => s.preEntryDue e.2).map (fun e => .preemptHandlerEntry e.1)
    ++ (s.units.filter fun e => (s.expiry e.1 e.2).isSome).map (fun e => .preboundExpiry e.1)
    ++ (s.units.filter fun e => (s.restore e.1 e.2).isSome).map fun e => .unitRestore e.1

/-- Everything that is due; at rest only the exit from rest and a deeper state. -/
def State.due (s : State) : List Instr :=
  if s.rest ≠ 0 ∨ s.restGoal.isSome then
    (if s.wake.any fun t => decide (t ≤ s.cycle) then [.restExit] else []) ++ (if s.restGoal.isSome then [.restStateEntry] else [])
  else
    (if s.trial.go && decide (s.trial.endAt ≤ s.cycle) then [.trialEnd] else []) ++ s.groups.flatMap (fun e => s.groupDue e.1 e.2)
      ++ s.cores.flatMap (fun e => s.coreDue e.1 e.2) ++ s.servicesDue ++ s.pilotDue ++ s.unitsDue

/-- Ends of long-latency words that could come at once, and that the default order puts off. -/
def State.dueLater (s : State) : List Instr :=
  if s.rest ≠ 0 ∨ s.restGoal.isSome then [] else s.groups.flatMap fun e => longsDue e.1 e.2 (e.2.longs.filter fun x => s.isFresh e.2 x.2)

/-- What ends in this very cycle, a calibration, a test slice or a remap included (14 R309). -/
def State.urgent (s : State) : List Instr :=
  if s.rest ≠ 0 then []
  else s.groups.flatMap (fun e => s.groupNow e.1 e.2)
    ++ (s.cores.filter fun e => s.calEnds e.1 && s.engineDue e.1 .bank).map fun e => .engineCommandComplete e.1 .bank

/-! One step. -/

/-- After every step: no issue is under way, what has become possible or complete is noted, and a written tail line wakes the device. -/
def State.settleStep (s : State) : State :=
  State.noteWake (State.noteIdle (State.noteReady (State.settleInvals (State.settleFences { s with cur := none }))))

/-- A DOE request, and the cycle an event came in. -/
def Input.isDoe (x : Input) : Bool :=
  match x.event with
  | .doeMeasurementRequest _ => true
  | .doeKeyRequest => true
  | _ => false
def Input.arrived (x : Input) : Nat := x.came.getD x.due

/-- An event from outside may be taken: its cycle has come, and a DOE request is the first to have come of those still to be served (17 R350). -/
def State.mayTake (s : State) (x : Input) : Bool :=
  let before (y : Input) : Bool := y.isDoe && decide (y.arrived < x.arrived)
  let first (y : Input) : Bool := y.isDoe && decide (y.arrived ≤ x.arrived)
  decide (x.due ≤ s.cycle) && !(x.isDoe && (s.inputs.any before || (s.inputs.takeWhile fun y => y != x).any first))

/-- An event from outside is taken; one that finds the device at rest wakes it and waits (17 R348). -/
def State.deliver (s : State) (x : Input) (choice : Nat) : Host.Outcome State Fault Refusal :=
  let s1 := { s with inputs := s.inputs.erase x }
  if s.rest ≠ 0 && wakesRest x.event then
    let s2 := s1.awaken
    .next { s2 with inputs := s2.inputs ++ [{ x with due := max (s.cycle + 1) (s2.wake.getD 0), came := some x.arrived }] }
  else s1.runEvent x.event choice

/-- Things that can come next: events from outside, steps due, issues by core, and the passing of a cycle. -/
inductive Happening where
  | input (x : Input)
  | event (e : Instr)
  | issue (core : Nat)
  | tick

/-- The cores that have clause steps to look for. -/
def State.coresUp (s : State) : List Nat :=
  let homes : List Nat := (s.blocks.filter fun e => !e.2.ended && !e.2.away).map fun e => e.2.core
  let firsts : List Nat := s.podQ.map fun q => 12 * q.1
  (homes ++ firsts).eraseDups

/-- A network cycle passes; the cores' clocks run while the device is under way. -/
def State.tick (s : State) : State :=
  if s.rest ≠ 0 then { s with cycle := s.cycle + 1 }
  else each s.coresUp (fun n s => s.fillWindow n) { s with cycle := s.cycle + 1, awake := s.awake + 1 }

/-- The cores that have a clause step to issue. -/
def State.issuing (run : Runner) (s : State) : List Nat := if s.rest ≠ 0 then [] else s.coresUp.filter fun c => (s.issueOn run c 0).isSome

def State.happenings (run : Runner) (s : State) : List Happening :=
  match s.urgent with
  | [] => (s.inputs.filter s.mayTake).map .input ++ s.due.map .event ++ (s.issuing run).map .issue ++ [.tick] ++ s.dueLater.map .event
  | l => l.map .event

def State.happen (run : Runner) (s : State) (choice : Nat) : Happening → Host.Outcome State Fault Refusal
  | .input x => s.deliver x choice
  | .event e => s.runEvent e choice
  | .issue c => (s.issueOn run c choice).getD (.next s.tick)
  | .tick => .next s.tick

/-- One step, with what runs a word. -/
def State.stepBy (run : Runner) (s : State) : Host.Outcome State Fault Refusal :=
  let s1 := { s with oracle := s.oracle.drop 1 }
  let all := s1.happenings run
  let pick := s.oracle.headD 0
  mapNext State.settleStep (s1.happen run (pick / all.length) (all.getD (pick % all.length) .tick))

end Sys2Proof.Machine
end

