-- ==== Sys2Proof/Machine/Load.lean ====
section
/-! DEFINITION. A program placed from outside (log entry 21): one instruction word in a clause of its own, the page tables that map it, and a
privileged launch of one group that is about to begin that clause. -/

namespace Sys2Proof.Machine

/-- The clause of the placed word: 2 MiB, mapped to the same physical address. -/
def Load.clause : Pc := 0x200000

/-- The head of the placed clause: version 10, slot 1 valid, set-flag F0 for a long-latency word (Table ENC-1). -/
def Load.head : Word := encodeHead { version := 10, yield := 0, valid := 1, sbValid := false, sb := 0, saValid := true, sa := 0, zero := false, wait := 0 }

/-- The tables: levels 1 to 4 at 4 KiB to 16 KiB, whose level-4 entry 1 maps VA 2 MiB to PA 2 MiB with V, L, W, X and U set (Table XLT-2). -/
def Load.tables (s : State) : State :=
  (((s.writeNat 0x1000 8 0x2001).writeNat 0x2000 8 0x3001).writeNat 0x3000 8 0x4001).writeNat 0x4008 8 0x20001F

/-- The launch record of the placed program: privileged, one block of one group of width 16 (Table WRK-2). -/
def Load.card : LaunchRec :=
  { entry := Load.clause.setWidth 64, trap := 0, pre := 0, param := 0, localBase := 0, localSize := 0, scratch := 0, preBound := 0, width := 16,
    groups := 1, cluster := 1, gridx := 1, gridy := 1, gridz := 1, flags := 2, counter := 0, deps := [], compPtr := 0, compVal := 0 }

/-- The block of the placed program, on core 1. -/
def Load.block (now : Nat) : Block :=
  { launch := 1, x := 0, y := 0, z := 0, linear := 0, clrank := 0, cluster := 2, core := 1, away := false, placed := now, stayed := 0,
    barriers := [(0, { Barrier.free with alloc := true })], bindings := [], fetchws := [], drawn := 0, halt := none, unit := none, ended := false, kept := [],
    keptClaims := [], keptChart := none, keptBanks := [] }

/-- The machine with the word w placed so, and nothing else under way. The chain bit of w belongs to its slot (03 R55) and is left clear. -/
def State.withWord (s : State) (w : Nat) : State :=
  let l := { Launch.new Load.card 0 0 0 0 with nextBlock := 1 }
  let now := Core.reset.now s.awake
  let s1 : State :=
    { s with oracle := [], inputs := [], cur := none, nextId := 5, cores := [], sectorTlb := [], walkCache := [], pchannels := [], rest := 0, wake := none,
             idleFrom := none, trial := { s.trial with go := false }, queues := [], devQueues := [], launchReqs := [], net := [], podQ := [], replies := [],
             probes := [], poisons := [], units := [], soundings := [], invals := [],
             contexts := [(0, { Context.reset with root0 := 0x1000, eff0 := some 0x1000 })],
             launches := [(1, l)], clusters := [(2, { blocks := [3], barriers := [] })], blocks := [(3, Load.block now)],
             groups := [(4, Load.card.group 3 0 0 s.cycle now)] }
  (Load.tables s1).writeNat 0x200000 8 (Load.head.toNat + w % 2 ^ 31 * 2 ^ 32)

end Sys2Proof.Machine
end

