-- ==== Sys2Proof/Safety.lean ====
section
/-! DEFINITION. What every state of a run keeps, when an instruction word is under issue and nothing holds it back, and what "nothing else
changes" means for a group: the terms the statements use. -/

namespace Sys2Proof.Machine

/-! What every step keeps. -/

/-- s0 is held by no slice: it reads 0 (01 R21). -/
def Slice.zeroKept (x : Slice) : Prop := Tab.find x.s 0 = none

def Group.zeroKept (g : Group) : Prop := ∀ x ∈ g.slices, x.zeroKept

/-- Every core's clock lies within its range (01 R11). -/
def State.clocksKept (s : State) : Prop := ∀ e ∈ s.cores, 940 ≤ e.2.clock ∧ e.2.clock ≤ 1080

/-- The memory is in canonical form: addresses strictly rising, and no byte listed that an unlisted address reads as. -/
def State.memoryKept (s : State) : Prop := Memory.wf s.mem = true

/-! A word under issue. -/

/-- The word of u issues for the split u names of group g, and this is no trial run of a chain (03 R54). -/
abbrev Issuing (s : State) (u : Issue) (g : Group) : Prop :=
  s.cur = some u ∧ Tab.find s.groups u.group = some g ∧ u.probe = false

/-- Nothing keeps the word from its effect: none of the registers it names is pending (03 R50) or the token of a queued command (03 R51), v48-v95
are held where it names them (10 R229), and no fence nor ordered load of its group holds it back (07 R148, R155). -/
abbrev Clear (s : State) (c : Ctx) (uses : List Use) : Prop :=
  (∀ x ∈ uses, c.pending x = false) ∧ (∀ x ∈ uses, c.tokenPending s x = false)
  ∧ (c.g.held = true ∨ ∀ x ∈ uses, ∀ r ∈ x.list, r < 48 ∨ 96 ≤ r) ∧ ((c.g.fencing = none ∧ c.g.acquiring = false) ∨ Word.waitsFence c.u.word = false)

/-- An s destination needs every source in s registers: the uniform datapath (05 R91). -/
abbrev uniformOk (d : BitVec 7) (src : List (BitVec 7)) : Prop := isS d = true → ∀ a ∈ src, isS a = true

/-- The word has had its effect t, and its split goes on at the next word. -/
def State.wordDone (u : Issue) (t : State) : State := { t.advance u with cur := some { u with verdict := .done } }

/-- The word has had its effect t, which says itself where its split goes on. -/
def State.wordJumped (u : Issue) (t : State) : State := { t with cur := some { u with verdict := .done } }

/-- The word has presented a trap and has no other effect (03 R54, 16 R327); where its access to a peer failed, that failure is over (15 R313). -/
def State.wordTrapped (u : Issue) (t : Trap) (s : State) : State :=
  { (s.linkUsed u.group t.cause).presentTrap u.group t none with cur := some { u with verdict := .trap t } }

/-- The word waits, and nothing has changed. -/
def State.wordWaits (u : Issue) (s : State) : State := { s with cur := some { u with verdict := .stall } }

/-! Nothing else changes. -/

/-- Every byte of memory reads as before, and so do the stores in flight to it, the caches and the engines of every core. -/
abbrev sameMemory (s t : State) : Prop := (∀ l, t.readByte l = s.readByte l) ∧ t.cores = s.cores

/-- The groups other than one. -/
abbrev otherGroups (s t : State) (n : Nat) : Prop := ∀ m, m ≠ n → Tab.find t.groups m = Tab.find s.groups m

/-- The special, status and exception registers of a group, FPFLAGS apart (Table WRK-10, 16 R326). -/
abbrev sameSpecials (g h : Group) : Prop :=
  h.rmode = g.rmode ∧ h.joinst = g.joinst ∧ h.wayto = g.wayto ∧ h.trapBase = g.trapBase ∧ h.trapEn = g.trapEn ∧ h.preBase = g.preBase
  ∧ h.preEn = g.preEn ∧ h.preBound = g.preBound ∧ h.tpc = g.tpc ∧ h.tcause = g.tcause ∧ h.tword = g.tword ∧ h.faddr = g.faddr ∧ h.tsave = g.tsave
  ∧ h.held = g.held ∧ h.spilled = g.spilled ∧ h.spills = g.spills ∧ h.waitReg = g.waitReg

/-- Every v register and lane outside n registers from r on in the active lanes, and every s register outside them or outside the split's slices,
reads as before. -/
abbrev otherRegisters (c : Ctx) (g h : Group) (r n : Nat) : Prop :=
  (∀ k l, l < 128 → ¬ (r ≤ k ∧ k < r + n ∧ r < 96 ∧ c.exec.getLsbD l = true) → h.readV k l = g.readV k l)
  ∧ ∀ i k, ¬ (r ≤ k + 96 ∧ k + 96 < r + n ∧ c.u.slices.getLsbD i = true) → h.readS i k = g.readS i k

end Sys2Proof.Machine
end

