-- ==== Sys2Proof/Certificates/Slice0/Obligations.lean ====
section
/-! DEFINITION. The statements. Each of the tables under Sys2Proof.Claims pairs the instructions of one shape with the results the spec's
table gives them, written from that table's arithmetic. -/

namespace Sys2Proof.Claims

open Sys2Proof Sys2Proof.Machine

/-! Results of Table INT-1 and of R95 to R102, over the integers. -/

/-- Bit by bit. -/
def bitwise (f : Bool → Bool → Bool) (x y : Word) : Word := bitSet 32 fun i => f (x.getLsbD i) (y.getLsbD i)
/-- The width of the field b names, inside the word (05 R95). -/
def fieldWidth (b : Word) : Nat := min (b.toNat % 32 + b.toNat / 2 ^ 8 % 2 ^ 6) 32 - b.toNat % 32
/-- The field of a that b names. -/
def fieldOf (a b : Word) : Nat := a.toNat / 2 ^ (b.toNat % 32) % 2 ^ fieldWidth b
/-- The low n bits, 0 < n, as a signed number (00 R6). -/
def signed (n x : Nat) : Int := if x % 2 ^ n < 2 ^ (n - 1) then (x % 2 ^ n : Nat) else (x % 2 ^ n : Nat) - (2 : Int) ^ n

abbrev Two := BitVec 7 → BitVec 7 → BitVec 7 → Instr
abbrev One := BitVec 7 → BitVec 7 → Instr

/-- Words of one register result from two registers (05 R94, R95). -/
def intTwo : List (Two × (Word → Word → Word)) :=
  [(Instr.addI32, fun a b => .ofInt 32 (a.toInt + b.toInt)), (Instr.subI32, fun a b => .ofInt 32 (a.toInt - b.toInt)),
   (Instr.mulloI32, fun a b => .ofInt 32 (a.toInt * b.toInt)), (Instr.mulhiI32, fun a b => .ofInt 32 (a.toInt * b.toInt / 2 ^ 32)),
   (Instr.mulhiN32, fun a b => .ofNat 32 (a.toNat * b.toNat / 2 ^ 32)),
   (Instr.and, bitwise fun x y => x && y), (Instr.or, bitwise fun x y => x || y), (Instr.xor, bitwise fun x y => x != y),
   (Instr.andn, bitwise fun x y => x && !y),
   (Instr.shl, fun a b => .ofNat 32 (a.toNat * 2 ^ (b.toNat % 32))), (Instr.shrN32, fun a b => .ofNat 32 (a.toNat / 2 ^ (b.toNat % 32))),
   (Instr.shrI32, fun a b => .ofInt 32 (a.toInt / 2 ^ (b.toNat % 32))),
   (Instr.rotl, fun a b => bitSet 32 fun i => a.getLsbD ((i + 32 - b.toNat % 32) % 32)),
   (Instr.minI32, fun a b => .ofInt 32 (min a.toInt b.toInt)), (Instr.maxI32, fun a b => .ofInt 32 (max a.toInt b.toInt)),
   (Instr.minN32, fun a b => .ofNat 32 (min a.toNat b.toNat)), (Instr.maxN32, fun a b => .ofNat 32 (max a.toNat b.toNat)),
   (Instr.bfeN32, fun a b => .ofNat 32 (fieldOf a b)),
   (Instr.bfeI32, fun a b => if fieldWidth b = 0 then 0 else .ofInt 32 (signed (fieldWidth b) (fieldOf a b)))]

/-- Words of one register result from one register, and those with an immediate (05 R94, R97, R102). -/
def intOne : List (One × (Word → Word)) :=
  [(Instr.absI32, fun a => .ofInt 32 a.toInt.natAbs), (Instr.popc, fun a => .ofNat 32 ((List.range 32).filter fun i => a.getLsbD i).length),
   (Instr.clz, fun a => .ofNat 32 ((List.range 32).filter fun i => decide (a.toNat < 2 ^ i)).length),
   (Instr.brev, fun a => bitSet 32 fun i => a.getLsbD (31 - i)),
   (Instr.sext8, fun a => .ofInt 32 (signed 8 a.toNat)), (Instr.sext16, fun a => .ofInt 32 (signed 16 a.toNat)),
   (Instr.zext8, fun a => .ofNat 32 (a.toNat % 2 ^ 8)), (Instr.zext16, fun a => .ofNat 32 (a.toNat % 2 ^ 16))]

def intImm : List ((BitVec 7 → BitVec 7 → BitVec 11 → Instr) × (Word → Int → Word)) :=
  [(Instr.addi, fun a i => .ofInt 32 (a.toInt + i)), (Instr.andi, fun a i => bitwise (fun x y => x && y) a (.ofInt 32 i)),
   (Instr.ori, fun a i => bitwise (fun x y => x || y) a (.ofInt 32 i)), (Instr.xori, fun a i => bitwise (fun x y => x != y) a (.ofInt 32 i))]

/-- Constants (05 R98): the result from what D held and the immediate. -/
def constants : List ((BitVec 7 → BitVec 16 → Instr) × (Nat → Nat → Nat)) :=
  [(Instr.movzLo, fun _ i => i), (Instr.movzHi, fun _ i => i * 2 ^ 16), (Instr.movkLo, fun d i => d / 2 ^ 16 * 2 ^ 16 + i),
   (Instr.movkHi, fun d i => i * 2 ^ 16 + d % 2 ^ 16)]

/-- Pairs from two pairs (05 R100). -/
def pairTwo : List (Two × (DWord → DWord → DWord)) :=
  [(Instr.addI64, fun a b => .ofInt 64 (a.toInt + b.toInt)), (Instr.subI64, fun a b => .ofInt 64 (a.toInt - b.toInt)),
   (Instr.mulI64, fun a b => .ofInt 64 (a.toInt * b.toInt))]

/-- Words that move a pointer by n times an index (05 R101). -/
def leas : List (Two × Nat) := [(Instr.leaX1, 1), (Instr.leaX2, 2), (Instr.leaX4, 4), (Instr.leaX8, 8), (Instr.leaX16, 16)]

/-- Pairs from a pair and a count (05 R100). -/
def pairWordOf : List (Two × (DWord → Word → DWord)) :=
  [(Instr.shlI64, fun a b => .ofNat 64 (a.toNat * 2 ^ (b.toNat % 64))), (Instr.shrN64, fun a b => .ofNat 64 (a.toNat / 2 ^ (b.toNat % 64))),
   (Instr.shrI64, fun a b => .ofInt 64 (a.toInt / 2 ^ (b.toNat % 64)))]

/-- Pairs from one register (05 R100). -/
def pairOne : List (One × (Word → DWord)) :=
  [(Instr.sextI64, fun a => .ofInt 64 a.toInt), (Instr.zextI64, fun a => .ofNat 64 a.toNat)]

/-- One half from the signed halves of a and b, and b's half as a count. -/
def ofHalves (f : Int → Int → Nat → Int) (a b : Word) : Word :=
  let half (i : Nat) : Nat := (f (signed 16 (a.toNat / 2 ^ (16 * i))) (signed 16 (b.toNat / 2 ^ (16 * i))) (b.toNat / 2 ^ (16 * i) % 2 ^ 4) % 2 ^ 16).toNat
  .ofNat 32 (half 0 + half 1 * 2 ^ 16)
def clamped (x : Int) : Int := max (-32768) (min 32767 x)

/-- Packed halves (05 R102). -/
def packedTwo : List (Two × (Word → Word → Word)) :=
  [(Instr.addI16x2, ofHalves fun x y _ => x + y), (Instr.subI16x2, ofHalves fun x y _ => x - y),
   (Instr.addsI16x2, ofHalves fun x y _ => clamped (x + y)), (Instr.subsI16x2, ofHalves fun x y _ => clamped (x - y)),
   (Instr.minI16x2, ofHalves fun x y _ => min x y), (Instr.maxI16x2, ofHalves fun x y _ => max x y),
   (Instr.gtbitsI16x2, ofHalves fun x y _ => if x > y then -1 else 0), (Instr.shrI16x2, ofHalves fun x _ k => x / 2 ^ k),
   (Instr.packI16x2, fun a b => .ofNat 32 (a.toNat % 2 ^ 16 + b.toNat % 2 ^ 16 * 2 ^ 16))]

/-! Compares (05 R99). -/

abbrev Compare := BitVec 3 → BitVec 7 → BitVec 7 → Instr

def compares : List (Compare × (Word → Word → Bool)) :=
  [(Instr.icmpEq, fun a b => decide (a.toNat = b.toNat)), (Instr.icmpNe, fun a b => decide (a.toNat ≠ b.toNat)),
   (Instr.icmpLtI32, fun a b => decide (a.toInt < b.toInt)), (Instr.icmpLeI32, fun a b => decide (a.toInt ≤ b.toInt)),
   (Instr.icmpGtI32, fun a b => decide (a.toInt > b.toInt)), (Instr.icmpGeI32, fun a b => decide (a.toInt ≥ b.toInt)),
   (Instr.icmpLtN32, fun a b => decide (a.toNat < b.toNat)), (Instr.icmpLeN32, fun a b => decide (a.toNat ≤ b.toNat)),
   (Instr.icmpGtN32, fun a b => decide (a.toNat > b.toNat)), (Instr.icmpGeN32, fun a b => decide (a.toNat ≥ b.toNat))]

def compares64 : List (Compare × (DWord → DWord → Bool)) :=
  [(Instr.icmpEqI64, fun a b => decide (a.toNat = b.toNat)), (Instr.icmpLtI64, fun a b => decide (a.toInt < b.toInt)),
   (Instr.icmpLtN64, fun a b => decide (a.toNat < b.toNat))]

/-! Masks (04 R88). -/

abbrev MaskTwo := BitVec 3 → BitVec 3 → BitVec 3 → Instr

/-- Words of a mask from masks, bit by bit; a word of one mask ignores the second. -/
def maskWords : List (MaskTwo × (Bool → Bool → Bool)) :=
  [(Instr.mand, fun x y => x && y), (Instr.mor, fun x y => x || y), (Instr.mxor, fun x y => x != y), (Instr.mandn, fun x y => x && !y),
   (fun d a _ => Instr.mnot d a, fun x _ => !x), (fun d a _ => Instr.mmov d a, fun x _ => x),
   (fun d _ _ => Instr.mall d, fun _ _ => true), (fun d _ _ => Instr.mnone d, fun _ _ => false)]

/-- Words of an s register from a mask; only `mtos` has a quarter. -/
def maskReads : List ((BitVec 7 → BitVec 3 → BitVec 2 → Instr) × (LaneSet → Nat → Nat)) :=
  [(fun d a _ => Instr.mpopc d a, fun x _ => ((List.range 128).filter fun i => x.getLsbD i).length),
   (fun d a _ => Instr.mfirst d a, fun x _ => ((List.range 128).find? fun i => x.getLsbD i).getD 128),
   (Instr.mtos, fun x q => x.toNat / 2 ^ (32 * q) % 2 ^ 32)]

end Sys2Proof.Claims

open Sys2Proof Sys2Proof.Machine Sys2Proof.Claims

/-! Integer, address and mask words. -/

/-- 05 R94, R95 with Table INT-1: a word of two sources writes its result in every active lane, or once on the uniform datapath; `bfi` reads D and
replaces the field of it that b names. -/
def Sys2Proof.Claims.integerWordsOfTwoSources : Prop :=
  (∀ e ∈ intTwo, ∀ (d a b : BitVec 7) (s : State) (u : Issue) (g : Group),
    Issuing s u g → uniformOk d [a, b] → Clear s (u.ctx g) [use d, use a, use b] →
    exec (e.1 d a b) s = .next (State.wordDone u (s.putRegs (u.ctx g) d.toNat fun l => [e.2 ((u.ctx g).rd a l) ((u.ctx g).rd b l)])))
  ∧ ∀ (d a b : BitVec 7) (s : State) (u : Issue) (g : Group),
    Issuing s u g → uniformOk d [a, b] → Clear s (u.ctx g) [use d, use a, use b] →
    exec (.bfi d a b) s = .next (State.wordDone u (s.putRegs (u.ctx g) d.toNat fun l =>
      [bitSet 32 fun i =>
        let f := (u.ctx g).rd b l
        if f.toNat % 32 ≤ i ∧ i < f.toNat % 32 + fieldWidth f then ((u.ctx g).rd a l).getLsbD (i - f.toNat % 32) else ((u.ctx g).rd d l).getLsbD i]))

/-- 05 R94, R102: words of one source. -/
def Sys2Proof.Claims.integerWordsOfOneSource : Prop :=
  ∀ e ∈ intOne, ∀ (d a : BitVec 7) (s : State) (u : Issue) (g : Group),
    Issuing s u g → uniformOk d [a] → Clear s (u.ctx g) [use d, use a] →
    exec (e.1 d a) s = .next (State.wordDone u (s.putRegs (u.ctx g) d.toNat fun l => [e.2 ((u.ctx g).rd a l)]))

/-- 05 R97: an immediate is always sign-extended; with A = s0, `addi` loads it. -/
def Sys2Proof.Claims.immediateWords : Prop :=
  (∀ e ∈ intImm, ∀ (d a : BitVec 7) (i : BitVec 11) (s : State) (u : Issue) (g : Group),
    Issuing s u g → uniformOk d [a] → Clear s (u.ctx g) [use d, use a] →
    exec (e.1 d a i) s = .next (State.wordDone u (s.putRegs (u.ctx g) d.toNat fun l => [e.2 ((u.ctx g).rd a l) i.toInt])))
  ∧ (∀ (d : BitVec 7) (i : BitVec 11) (s : State) (u : Issue) (g : Group), Issuing s u g → Clear s (u.ctx g) [use d, use 96] →
    exec (.addi d 96 i) s = .next (State.wordDone u (s.putRegs (u.ctx g) d.toNat fun _ => [.ofInt 32 i.toInt])))
  ∧ ∀ (c : BitVec 1) (d a : BitVec 7) (i : BitVec 11) (major : Nat) (w : Word), w = .ofNat 32 (c.toNat * 2 ^ 31 + major * 2 ^ 25 + d.toNat * 2 ^ 18 + a.toNat * 2 ^ 11 + i.toNat) →
    (major = 0x0A → encode c (.addi d a i) = w) ∧ (major = 0x0B → encode c (.andi d a i) = w) ∧ (major = 0x0C → encode c (.ori d a i) = w)
    ∧ (major = 0x0D → encode c (.xori d a i) = w)

/-- 05 R98: the words of a 16-bit constant. -/
def Sys2Proof.Claims.constantWords : Prop :=
  (∀ e ∈ constants, ∀ (d : BitVec 7) (i : BitVec 16) (s : State) (u : Issue) (g : Group),
    Issuing s u g → Clear s (u.ctx g) [use d] →
    exec (e.1 d i) s = .next (State.wordDone u (s.putRegs (u.ctx g) d.toNat fun l => [.ofNat 32 (e.2 ((u.ctx g).rd d l).toNat i.toNat)])))
  ∧ ∀ (c : BitVec 1) (d : BitVec 7) (i : BitVec 16) (h : Nat) (w : Word), w = .ofNat 32 (c.toNat * 2 ^ 31 + 0x0E * 2 ^ 25 + d.toNat * 2 ^ 18 + h * 2 ^ 16 + i.toNat) →
    (h = 0 → encode c (.movzLo d i) = w) ∧ (h = 1 → encode c (.movzHi d i) = w) ∧ (h = 2 → encode c (.movkLo d i) = w) ∧ (h = 3 → encode c (.movkHi d i) = w)

/-- 05 R96: `sel` takes A where the lane's bit of mk is 1 and B where it is 0; on the uniform datapath the bit of the split's first lane decides; with
m0 every active lane takes A. -/
def Obligations.SelectWord : Prop :=
  (∀ (k : BitVec 3) (d a b : BitVec 7) (s : State) (u : Issue) (g : Group),
    Issuing s u g → uniformOk d [a, b] → Clear s (u.ctx g) [use d, use a, use b] →
    exec (.sel k d a b) s = .next (State.wordDone u (s.putRegs (u.ctx g) d.toNat fun l =>
      [if ((u.ctx g).g.readM (u.ctx g).exec k.toNat).getLsbD (if isS d = true then (u.ctx g).firstLane else l)
        then (u.ctx g).rd a l else (u.ctx g).rd b l])))
  ∧ (∀ (d a b : BitVec 7) (s : State) (u : Issue) (g : Group),
    Issuing s u g → isS d = false → Clear s (u.ctx g) [use d, use a, use b] →
    exec (.sel 0 d a b) s = .next (State.wordDone u (s.putRegs (u.ctx g) d.toNat fun l => [(u.ctx g).rd a l])))
  ∧ ∀ (k : BitVec 3) (d a b : BitVec 7), encode 0 (.sel k d a b) = .ofNat 32 (0x09 * 2 ^ 25 + (8 + k.toNat) * 2 ^ 21 + d.toNat * 2 ^ 14 + a.toNat * 2 ^ 7 + b.toNat)

/-- 05 R100: 64-bit words on even pairs; where the word is checked at issue, an odd pair field raises OPND. -/
def Sys2Proof.Claims.pairWordResults : Prop :=
  (∀ e ∈ pairTwo, ∀ (d a b : BitVec 7) (s : State) (u : Issue) (g : Group), Issuing s u g →
    (isEven d = true → isEven a = true → isEven b = true → uniformOk d [a, b] → Clear s (u.ctx g) [useN d 2, useN a 2, useN b 2] →
      exec (e.1 d a b) s =
        .next (State.wordDone u (s.putRegs (u.ctx g) d.toNat fun l => pairList (e.2 ((u.ctx g).rd64 a l) ((u.ctx g).rd64 b l)))))
    ∧ (u.snap = none → isEven d = false ∨ isEven a = false ∨ isEven b = false → exec (e.1 d a b) s = .next (s.wordTrapped u ((u.ctx g).trap 5 0x05))))
  ∧ (∀ e ∈ pairWordOf, ∀ (d a b : BitVec 7) (s : State) (u : Issue) (g : Group), Issuing s u g →
    (isEven d = true → isEven a = true → uniformOk d [a, b] → Clear s (u.ctx g) [useN d 2, useN a 2, use b] →
      exec (e.1 d a b) s =
        .next (State.wordDone u (s.putRegs (u.ctx g) d.toNat fun l => pairList (e.2 ((u.ctx g).rd64 a l) ((u.ctx g).rd b l)))))
    ∧ (u.snap = none → isEven d = false ∨ isEven a = false → exec (e.1 d a b) s = .next (s.wordTrapped u ((u.ctx g).trap 5 0x05))))
  ∧ ∀ e ∈ pairOne, ∀ (d a : BitVec 7) (s : State) (u : Issue) (g : Group), Issuing s u g →
    (isEven d = true → uniformOk d [a] → Clear s (u.ctx g) [useN d 2, use a] →
      exec (e.1 d a) s = .next (State.wordDone u (s.putRegs (u.ctx g) d.toNat fun l => pairList (e.2 ((u.ctx g).rd a l)))))
    ∧ (u.snap = none → isEven d = false → exec (e.1 d a) s = .next (s.wordTrapped u ((u.ctx g).trap 5 0x05)))

/-- 05 R101: `lea` keeps the tag bits [63:57] of its base, wraps the address bits, and never faults on the value it forms. -/
def Obligations.PointersMovedByLea : Prop :=
  ∀ e ∈ leas, ∀ (d a b : BitVec 7) (s : State) (u : Issue) (g : Group), Issuing s u g →
    isEven d = true → isEven a = true → uniformOk d [a, b] → Clear s (u.ctx g) [useN d 2, useN a 2, use b] →
    exec (e.1 d a b) s = .next (State.wordDone u (s.putRegs (u.ctx g) d.toNat fun l =>
      let base := ((u.ctx g).rd64 a l).toNat
      pairList (.ofNat 64 (base / 2 ^ 57 * 2 ^ 57 + (((base % 2 ^ 57 : Nat) + e.2 * ((u.ctx g).rd b l).toInt) % 2 ^ 57).toNat))))

/-- 05 R102: packed 16-bit words treat each half as a signed number. -/
def Sys2Proof.Claims.packedIntegerWords : Prop :=
  ∀ e ∈ packedTwo, ∀ (d a b : BitVec 7) (s : State) (u : Issue) (g : Group),
    Issuing s u g → uniformOk d [a, b] → Clear s (u.ctx g) [use d, use a, use b] →
    exec (e.1 d a b) s = .next (State.wordDone u (s.putRegs (u.ctx g) d.toNat fun l => [e.2 ((u.ctx g).rd a l) ((u.ctx g).rd b l)]))

/-- 05 R93, R99: a compare gives each active lane its outcome and every other lane of the split's slices 0. -/
def Obligations.IntegerCompares : Prop :=
  (∀ e ∈ compares, ∀ (d : BitVec 3) (a b : BitVec 7) (s : State) (u : Issue) (g : Group),
    Issuing s u g → Clear s (u.ctx g) [use a, use b] →
    exec (e.1 d a b) s = .next (State.wordDone u (s.putMask (u.ctx g) d.toNat
      (bitSet 128 fun l => (u.ctx g).exec.getLsbD l && e.2 ((u.ctx g).rd a l) ((u.ctx g).rd b l)))))
  ∧ ∀ e ∈ compares64, ∀ (d : BitVec 3) (a b : BitVec 7) (s : State) (u : Issue) (g : Group),
    Issuing s u g → isEven a = true → isEven b = true → Clear s (u.ctx g) [useN a 2, useN b 2] →
    exec (e.1 d a b) s = .next (State.wordDone u (s.putMask (u.ctx g) d.toNat
      (bitSet 128 fun l => (u.ctx g).exec.getLsbD l && e.2 ((u.ctx g).rd64 a l) ((u.ctx g).rd64 b l))))

/-- 04 R88: the mask words, and the words between masks and s registers. -/
def Sys2Proof.Claims.maskWordResults : Prop :=
  (∀ e ∈ maskWords, ∀ (d a b : BitVec 3) (s : State) (u : Issue) (g : Group), Issuing s u g → Clear s (u.ctx g) [] →
    exec (e.1 d a b) s = .next (State.wordDone u (s.putMask (u.ctx g) d.toNat (bitSet 128 fun l =>
      e.2 (((u.ctx g).g.readM (u.ctx g).exec a.toNat).getLsbD l) (((u.ctx g).g.readM (u.ctx g).exec b.toNat).getLsbD l)))))
  ∧ (∀ e ∈ maskReads, ∀ (d : BitVec 7) (a : BitVec 3) (q : BitVec 2) (s : State) (u : Issue) (g : Group),
    Issuing s u g → isS d = true → Clear s (u.ctx g) [use d] →
    exec (e.1 d a q) s =
      .next (State.wordDone u (s.putRegs (u.ctx g) d.toNat fun _ => [.ofNat 32 (e.2 ((u.ctx g).g.readM (u.ctx g).exec a.toNat) q.toNat)])))
  ∧ (∀ (d : BitVec 3) (a : BitVec 7) (q : BitVec 2) (s : State) (u : Issue) (g : Group), Issuing s u g → isS a = true → Clear s (u.ctx g) [use a] →
    exec (.stom d a q) s = .next (State.wordDone u (s.putMask (u.ctx g) d.toNat (bitSet 128 fun l =>
      if l / 32 = q.toNat then ((u.ctx g).rd a 0).getLsbD (l % 32) else ((u.ctx g).g.readM (u.ctx g).exec d.toNat).getLsbD l))))
  ∧ ∀ (d : BitVec 3) (a : BitVec 7) (s : State) (u : Issue) (g : Group), Issuing s u g → isS a = true → Clear s (u.ctx g) [use a] →
    exec (.mlanes d a) s = .next (State.wordDone u (s.putMask (u.ctx g) d.toNat (bitSet 128 fun l => decide (l < ((u.ctx g).rd a 0).toNat))))


/-! What a register write and a mask write do (01 R21, 04 R73, R75). -/

/-- 01 R21, 04 R73: a write to v registers reaches the active lanes alone; a write to s registers reaches the copy of every slice of the split, and
one to s0 is discarded. Every other register reads as before. -/
def Sys2Proof.Claims.registerWriteReach : Prop :=
  ∀ (s : State) (c : Ctx) (r : Nat) (xs : Nat → List Word) (g : Group), Tab.find s.groups c.u.group = some g →
    ∃ h, Tab.find (s.putRegs c r xs).groups c.u.group = some h
      ∧ (r < 96 → (∀ k l, l < 128 → h.readV k l =
            if r ≤ k ∧ k < r + (xs l).length ∧ c.exec.getLsbD l = true then (xs l).getD (k - r) 0 else g.readV k l)
          ∧ ∀ i k, h.readS i k = g.readS i k)
      ∧ (96 ≤ r → (∀ k l, h.readV k l = g.readV k l)
          ∧ ∀ i k, i < g.slices.length → h.readS i k =
            if k = 0 then 0 else if r ≤ k + 96 ∧ k + 96 < r + (xs 0).length ∧ c.u.slices.getLsbD i = true then (xs 0).getD (k + 96 - r) 0
            else g.readS i k)

/-- 04 R75: a write to m1 to m7 reaches the lanes of the split's slices and no other. A write to m0 makes exactly those of its lanes active that are
neither exited, suspended nor held in a release, and takes no lane out of the split. -/
def Sys2Proof.Claims.maskWriteReach : Prop :=
  ∀ (s : State) (c : Ctx) (k : Nat) (x : LaneSet) (g : Group), Tab.find s.groups c.u.group = some g →
    ∃ h, Tab.find (s.putMask c k x).groups c.u.group = some h
      ∧ (0 < k → (∀ e, h.readM e k = (g.readM e k &&& ~~~g.lanesOf c.u.slices) ||| (x &&& g.lanesOf c.u.slices))
          ∧ (∀ e j, j ≠ k → h.readM e j = g.readM e j) ∧ h.slices = g.slices)
      ∧ (k = 0 → h.m = g.m ∧ ∀ i, i < g.slices.length →
          (h.slice i).seq.a = (if c.u.slices.getLsbD i = true then laneNib x i &&& (g.slice i).freeLanes else (g.slice i).seq.a)
          ∧ (h.slice i).seq.m = (if c.u.slices.getLsbD i = true then (g.slice i).seq.m ||| (laneNib x i &&& (g.slice i).freeLanes) else (g.slice i).seq.m))

/-! Decoding and stepping. -/

/-- 03 R55, R57: every well-formed instruction is what the decoder reads from its own word, with either chain bit. -/
def Obligations.EncodedWordsDecode : Prop :=
  ∀ (i : Instr) (c : BitVec 1), i.wellFormed = true → decodeWord (encode c i) = .ok i ∧ chainBit (encode c i) = c.getLsbD 0

/-- 03 R57, R59: a word the decoder accepts is the word of the instruction it gives, bit for bit, and that instruction is well-formed: no bit of a word
that is an instruction is ignored. -/
def Obligations.DecodedWordsEncode : Prop :=
  ∀ (w : Word) (i : Instr), decodeWord w = .ok i → i.wellFormed = true ∧ encode (BitVec.ofBool (chainBit w)) i = w

/-- The words the spec writes out (04 Table CTL-7, 05 R96, R99, R101), one instruction each. -/
def Obligations.WrittenOutWords : Prop :=
  decodeWord 0x13414307 = .ok (.sel 2 5 6 7) ∧ decodeWord 0x1E204160 = .ok (.icmpNe 1 2 96) ∧ decodeWord 0x21013303 = .ok (.leaX1 4 102 3)

namespace Sys2Proof.Claims

/-- The state in which a candidate's next word issues: at a clause boundary the clause is first begun. -/
def begun (s : State) (x : Candidate) (g : Group) (choice : Nat) : State := if x.gang ≠ 0 then s else s.beginClause x.group g x.slices choice
/-- The begun clause it issues from. -/
def gangFor (s : State) (x : Candidate) : Nat := if x.gang ≠ 0 then x.gang else s.nextId

/-- At a clause boundary: the words at the program counter are fetched and pass the checks of R46, slot k is the first to execute, and no completion
flag holds the clause back (03 R42-R48). -/
def mayBegin (s : State) (x : Candidate) (g : Group) (choice k : Nat) : Prop :=
  let pc := (g.slice (lowest 0 x.slices)).seq.pc
  ∃ w, s.fetchClause x.group g x.slices choice (clauseOf pc) = .words w ∧ clauseOk s.stepB0 w = true
    ∧ (headSlots (decodeHead (w.getD 0 0))).find? (fun j => decide (slotOf pc ≤ j)) = some k ∧ g.flagsWait (s.nowOf g) w k = false

end Sys2Proof.Claims

/-- A step that issues the candidate chosen among those of a core's window that are ready runs the instruction its next word decodes to, on the state as
it stands, and adds only what follows every issue: what the head leaves its slices, the core's window and next issue cycle, and the settling of the step
(03 R42, R52, R60; 10 R218). At a clause boundary the clause at the program counter has been fetched, checked and begun first, and a clause's first step
issues only where no completion flag its head waits for is set. The line of candidates and the cycles an issue takes are those of log entries 89 and 91. -/
def Obligations.StepRunsTheDecodedWord : Prop :=
  ∀ (s s1 s2 s3 t : State) (core choice k : Nat) (x : Candidate) (win ready : List Candidate) (g h : Group) (cl : Gang) (i : Instr) (set : SliceSet) (u : Issue),
    s1 = { s with oracle := s.oracle.drop 1 } →
    (s1.happenings runWord).getD (s.oracle.headD 0 % (s1.happenings runWord).length) .tick = .issue core →
    choice = s.oracle.headD 0 / (s1.happenings runWord).length →
    (s1.core core).free ≤ s1.now core → win = s1.windowOf core → s2 = s1.onCore core (fun c => { c with issues := c.issues + 1 }) →
    ready = win.filter (fun e => (s2.tryEntry runWord core choice e).isSome) → s1.chosen core ready = some x → x.group ≠ 0 →
    Tab.find s2.groups x.group = some g → s3 = begun s2 x g choice →
    Tab.find s3.groups x.group = some h → Tab.find h.gangs (gangFor s2 x) = some cl →
    set = h.gangSlices (gangFor s2 x) → k = slotOf (h.slice (lowest 0 set)).seq.pc → chainFrom cl.words k = [k] →
    decodeWord (cl.words.getD k 0) = .ok i → u = Ops.issueOf x.group (gangFor s2 x) set cl k k k choice →
    exec i { s3.onGroup x.group (fun r => { r with gangs := Tab.put r.gangs (gangFor s2 x) { cl with fresh := false } }) with cur := some u } = .next t →
    (x.gang = 0 → mayBegin s2 x g choice k) ∧ (cl.fresh = true → h.flagsWait (s3.nowOf h) cl.words k = false)
    ∧ step s = .next (State.settleStep ((t.afterStep x.group set (s3.coreOf h) cl (u.gang == 0)).onCore core
        (Core.issued (s1.now core) (s1.twoPasses choice x) (s1.lineOf core) ready x)))

/-! Frames. -/

namespace Sys2Proof.Claims

/-- The register-only words of this chapter's tables: their destination and how many registers it is. -/
def RegisterWord (i : Instr) (d : BitVec 7) (n : Nat) : Prop :=
  (n = 1 ∧ ((∃ e ∈ intTwo, ∃ a b, i = e.1 d a b) ∨ (∃ e ∈ intOne, ∃ a, i = e.1 d a) ∨ (∃ e ∈ intImm, ∃ a x, i = e.1 d a x)
    ∨ (∃ e ∈ constants, ∃ x, i = e.1 d x) ∨ (∃ a b, i = .bfi d a b) ∨ (∃ k a b, i = .sel k d a b) ∨ (∃ e ∈ packedTwo, ∃ a b, i = e.1 d a b)
    ∨ (∃ e ∈ maskReads, ∃ a q, i = e.1 d a q)))
  ∨ (n = 2 ∧ ((∃ e ∈ pairTwo, ∃ a b, i = e.1 d a b) ∨ (∃ e ∈ pairWordOf, ∃ a b, i = e.1 d a b)
    ∨ (∃ e ∈ leas, ∃ a b, i = e.1 d a b) ∨ ∃ e ∈ pairOne, ∃ a, i = e.1 d a))

/-- The words that write one mask register, and which. -/
def MaskWord (i : Instr) (d : BitVec 3) : Prop :=
  (∃ e ∈ maskWords, ∃ a b, i = e.1 d a b) ∨ (∃ a q, i = .stom d a q) ∨ (∃ a, i = .mlanes d a) ∨ (∃ e ∈ compares, ∃ a b, i = e.1 d a b)
  ∨ (∃ e ∈ compares64, ∃ a b, i = e.1 d a b) ∨ ∃ a, i = .ballot d a

end Sys2Proof.Claims

/-- 05 R91, R92: a register word that has its effect changes its destination registers, in its active lanes or its split's slices, and where its split
goes on; every byte of memory, every other register, every mask, flag and special register stays. -/
def Obligations.RegisterWordsChangeNothingElse : Prop :=
  ∀ (i : Instr) (d : BitVec 7) (n : Nat) (s t : State) (u : Issue) (g : Group), RegisterWord i d n → Issuing s u g →
    exec i s = .next t → t.cur = some { u with verdict := .done } →
    sameMemory s t ∧ otherGroups s t u.group ∧ ∃ h, Tab.find t.groups u.group = some h
      ∧ otherRegisters (u.ctx g) g h d.toNat n ∧ h.m = g.m ∧ h.fpflags = g.fpflags ∧ sameSpecials g h
      ∧ h.execOf u.slices = g.execOf u.slices ∧ h.exitedLanes = g.exitedLanes

/-- 04 R75, R88, 05 R93: a word that writes a mask register changes that mask and no register, flag, special register or byte of memory. -/
def Obligations.MaskWordsChangeNothingElse : Prop :=
  ∀ (i : Instr) (d : BitVec 3) (s t : State) (u : Issue) (g : Group), MaskWord i d → Issuing s u g →
    exec i s = .next t → t.cur = some { u with verdict := .done } →
    sameMemory s t ∧ otherGroups s t u.group ∧ ∃ h, Tab.find t.groups u.group = some h
      ∧ (∀ k l, h.readV k l = g.readV k l) ∧ (∀ j k, h.readS j k = g.readS j k) ∧ (∀ k, k ≠ d.toNat → 0 < k → h.readM 0 k = g.readM 0 k)
      ∧ h.fpflags = g.fpflags ∧ sameSpecials g h ∧ (d ≠ 0 → h.execOf u.slices = g.execOf u.slices) ∧ h.exitedLanes = g.exitedLanes

/-! Floating-point words (06 R112-R128). -/

namespace Sys2Proof.Claims

/-- What a lane computes under a rounding mode from up to three operands, as numbers: a, b, and D as it stood. -/
abbrev FloatFn := RMode → Nat → Nat → Nat → FRes

/-- Table FLT-5: binary32 words of two sources (`fma` and `fms` read D as well). -/
def f32Two : List (Two × FloatFn) :=
  [(Instr.addF32, fun rm a b _ => Fmt.f32.add rm a b), (Instr.subF32, fun rm a b _ => Fmt.f32.sub rm a b),
   (Instr.mulF32, fun rm a b _ => Fmt.f32.mul rm a b), (Instr.fmaF32, fun rm a b d => Fmt.f32.fma rm a b d),
   (Instr.fmsF32, fun rm a b d => Fmt.f32.fms rm a b d), (Instr.minF32, fun _ a b _ => Fmt.f32.min a b),
   (Instr.maxF32, fun _ a b _ => Fmt.f32.max a b), (Instr.copysignF32, fun _ a b _ => Fmt.f32.copysign a b),
   (Instr.dot2F32F16, fun rm a b d => Fmt.f16.dot2 Fmt.f32 rm a b d), (Instr.dot2F32Bf16, fun rm a b d => Fmt.bf16.dot2 Fmt.f32 rm a b d)]

/-- Binary32 words of one source, and the conversions of one register to one (Tables FLT-5, FLT-11). -/
def f32One : List (One × FloatFn) :=
  [(Instr.absF32, fun _ a _ _ => Fmt.f32.abs a), (Instr.negF32, fun _ a _ _ => Fmt.f32.neg a),
   (Instr.floorF32, fun _ a _ _ => Fmt.f32.toIntegral .rd false a), (Instr.ceilF32, fun _ a _ _ => Fmt.f32.toIntegral .ru false a),
   (Instr.truncF32, fun _ a _ _ => Fmt.f32.toIntegral .rz false a), (Instr.rintF32, fun rm a _ _ => Fmt.f32.toIntegral rm true a),
   (Instr.fractF32, fun rm a _ _ => fractF32 rm a),
   (Instr.cvtF32F16lo, fun rm a _ _ => Fmt.f16.convert .f32 rm (a % 2 ^ 16)), (Instr.cvtF32F16hi, fun rm a _ _ => Fmt.f16.convert .f32 rm (a / 2 ^ 16)),
   (Instr.cvtF32Bf16lo, fun rm a _ _ => Fmt.bf16.convert .f32 rm (a % 2 ^ 16)), (Instr.cvtF32Bf16hi, fun rm a _ _ => Fmt.bf16.convert .f32 rm (a / 2 ^ 16)),
   (Instr.cvtF32I32, fun rm a _ _ => Fmt.f32.ofInt rm (signed 32 a)), (Instr.cvtF32N32, fun rm a _ _ => Fmt.f32.ofInt rm a),
   (Instr.cvtI32F32, fun rm a _ _ => Fmt.f32.toInt rm (-2 ^ 31) (2 ^ 31 - 1) 32 a), (Instr.cvtN32F32, fun rm a _ _ => Fmt.f32.toInt rm 0 (2 ^ 32 - 1) 32 a)]

/-- Table FLT-7: binary64 words of two sources. -/
def f64Two : List (Two × FloatFn) :=
  [(Instr.addF64, fun rm a b _ => Fmt.f64.add rm a b), (Instr.subF64, fun rm a b _ => Fmt.f64.sub rm a b),
   (Instr.mulF64, fun rm a b _ => Fmt.f64.mul rm a b), (Instr.fmaF64, fun rm a b d => Fmt.f64.fma rm a b d),
   (Instr.fmsF64, fun rm a b d => Fmt.f64.fms rm a b d), (Instr.minF64, fun _ a b _ => Fmt.f64.min a b), (Instr.maxF64, fun _ a b _ => Fmt.f64.max a b)]

/-- Words whose source, result or both are pairs: registers of the source, registers of the result (Tables FLT-7, FLT-11). -/
def f64One : List (One × Nat × Nat × FloatFn) :=
  [(Instr.absF64, 2, 2, fun _ a _ _ => Fmt.f64.abs a), (Instr.negF64, 2, 2, fun _ a _ _ => Fmt.f64.neg a),
   (Instr.floorF64, 2, 2, fun _ a _ _ => Fmt.f64.toIntegral .rd false a), (Instr.ceilF64, 2, 2, fun _ a _ _ => Fmt.f64.toIntegral .ru false a),
   (Instr.truncF64, 2, 2, fun _ a _ _ => Fmt.f64.toIntegral .rz false a), (Instr.rintF64, 2, 2, fun rm a _ _ => Fmt.f64.toIntegral rm true a),
   (Instr.cvtF64F32, 1, 2, fun rm a _ _ => Fmt.f32.convert .f64 rm a), (Instr.cvtF32F64, 2, 1, fun rm a _ _ => Fmt.f64.convert .f32 rm a),
   (Instr.cvtF64I64, 2, 2, fun rm a _ _ => Fmt.f64.ofInt rm (signed 64 a)),
   (Instr.cvtI64F64, 2, 2, fun rm a _ _ => Fmt.f64.toInt rm (-2 ^ 63) (2 ^ 63 - 1) 64 a),
   (Instr.cvtF64I32, 1, 2, fun rm a _ _ => Fmt.f64.ofInt rm (signed 32 a)),
   (Instr.cvtI32F64, 2, 1, fun rm a _ _ => Fmt.f64.toInt rm (-2 ^ 31) (2 ^ 31 - 1) 32 a)]

/-- Table FLT-8: the operation on each half, and Table FLT-11: two binary32 values to halves. -/
def halfTwo : List (Two × (RMode → Nat → Nat → Nat → FRes × FRes)) :=
  let each2 (f : FloatFn) (rm : RMode) (a b d : Nat) : FRes × FRes :=
    (f rm (a % 2 ^ 16) (b % 2 ^ 16) (d % 2 ^ 16), f rm (a / 2 ^ 16) (b / 2 ^ 16) (d / 2 ^ 16))
  [(Instr.addF16x2, each2 fun rm a b _ => Fmt.f16.add rm a b), (Instr.mulF16x2, each2 fun rm a b _ => Fmt.f16.mul rm a b),
   (Instr.fmaF16x2, each2 fun rm a b d => Fmt.f16.fma rm a b d), (Instr.minF16x2, each2 fun _ a b _ => Fmt.f16.min a b),
   (Instr.maxF16x2, each2 fun _ a b _ => Fmt.f16.max a b), (Instr.addBf16x2, each2 fun rm a b _ => Fmt.bf16.add rm a b),
   (Instr.mulBf16x2, each2 fun rm a b _ => Fmt.bf16.mul rm a b), (Instr.fmaBf16x2, each2 fun rm a b d => Fmt.bf16.fma rm a b d),
   (Instr.cvtF16x2F32, fun rm a b _ => (Fmt.f32.convert .f16 rm a, Fmt.f32.convert .f16 rm b)),
   (Instr.cvtBf16x2F32, fun rm a b _ => (Fmt.f32.convert .bf16 rm a, Fmt.f32.convert .bf16 rm b))]

/-- The exact order of two finite or infinite values of a format; false beside a NaN. -/
def inOrder (f : Fmt) (strict : Bool) (a b : Nat) : Bool :=
  !f.isNan a && !f.isNan b && (if strict then decide (f.value a < f.value b) else decide (f.value a ≤ f.value b))

/-- Table FLT-9: registers of a source, the relation, and whether a quiet NaN is invalid. -/
def floatCompares : List (Compare × Nat × Fmt × (Nat → Nat → Bool) × Bool) :=
  let rel (n : Nat) (f : Fmt) (c : List Compare) : List (Compare × Nat × Fmt × (Nat → Nat → Bool) × Bool) :=
    c.zip [(n, f, (fun a b => inOrder f false a b && inOrder f false b a), false), (n, f, (fun a b => !(inOrder f false a b && inOrder f false b a)), false),
           (n, f, inOrder f true, true), (n, f, inOrder f false, true), (n, f, (fun a b => inOrder f true b a), true),
           (n, f, (fun a b => inOrder f false b a), true), (n, f, (fun a b => !f.isNan a && !f.isNan b), false), (n, f, (fun a b => f.isNan a || f.isNan b), false)]
  rel 1 .f32 [Instr.fcmpEqF32, Instr.fcmpNeF32, Instr.fcmpLtF32, Instr.fcmpLeF32, Instr.fcmpGtF32, Instr.fcmpGeF32, Instr.fcmpOrdF32, Instr.fcmpUnordF32]
    ++ rel 2 .f64 [Instr.fcmpEqF64, Instr.fcmpNeF64, Instr.fcmpLtF64, Instr.fcmpLeF64, Instr.fcmpGtF64, Instr.fcmpGeF64, Instr.fcmpOrdF64, Instr.fcmpUnordF64]

/-- What a compare of two operands signals (06 R115, R125). -/
def compareFlags (f : Fmt) (ordered : Bool) (a b : Nat) : Nat :=
  if (f.num a).isSig || (f.num b).isSig || (ordered && (f.isNan a || f.isNan b)) then 1 else 0

/-- The long-latency words of one and two sources: registers of each operand and the result (Tables FLT-7, FLT-10). -/
def slowOne : List (One × Nat × (RMode → Nat → FRes)) :=
  [(Instr.exp2F32, 1, fun _ a => Machine.exp2F32 a), (Instr.log2F32, 1, fun _ a => Machine.log2F32 a),
   (Instr.rcpF32, 1, fun _ a => Fmt.f32.div .rne Fmt.f32.one a), (Instr.rsqF32, 1, fun _ a => Fmt.f32.rsqrt .rne a),
   (Instr.sqrtF32, 1, fun _ a => Fmt.f32.sqrt .rne a), (Instr.sin2piF32, 1, fun _ a => Machine.sin2piF32 a), (Instr.cos2piF32, 1, fun _ a => Machine.cos2piF32 a),
   (Instr.sqrtF64, 2, fun rm a => Fmt.f64.sqrt rm a)]
def slowTwo : List (Two × Nat × (RMode → Nat → Nat → FRes)) :=
  [(Instr.divF32, 1, fun _ a b => Fmt.f32.div .rne a b), (Instr.divF64, 2, fun rm a b => Fmt.f64.div rm a b)]

/-- The registers of a result of n registers. -/
def regsOf (n x : Nat) : List Word := (List.range n).map fun i => .ofNat 32 (x / 2 ^ (32 * i))

/-- The effect of a short floating word: its results in the destination, and what its lanes signal ORed into FPFLAGS (06 R114). -/
def floatEffect (s : State) (c : Ctx) (d : BitVec 7) (n : Nat) (f : Nat → Nat × Nat) : State :=
  State.orFlags (s.putRegs c d.toNat fun l => regsOf n (f l).1) c (((c.sigLanes (isS d)).map fun l => (f l).2).foldl (fun x y => x ||| y) 0)

/-- No lane of the word signals an exception whose trap RMODE[9:4] enables (06 R116). -/
abbrev noTrap (c : Ctx) (uniform : Bool) (flags : Nat → Nat) : Prop := ∀ l ∈ c.sigLanes uniform, flags l &&& (c.g.rmode.toNat / 2 ^ 4 % 2 ^ 6) = 0

/-- One long-latency word more under way in its group: what it will write, OR and fault with when it ends (03 R48, R50). -/
def slowEffect (s : State) (c : Ctx) (op : LongOp) : State :=
  State.onGroup { s with nextId := s.nextId + 1 } c.u.group fun g => { g with longs := Tab.put g.longs s.nextId { op with since := s.nowOf g } }

/-- The set-flag's count of the group leaves room for one more (03 R48). -/
abbrev flagRoom (s : State) (c : Ctx) : Prop := ∀ g, Tab.find s.groups c.u.group = some g → (g.longs.filter fun e => e.2.flag == c.u.flag).length < 63

/-- What a word that will write registers d to d + n - 1 holds while it is under way: its destinations marked, its results by lane or slice. -/
def slowOp (c : Ctx) (d : BitVec 7) (n : Nat) (xs : Nat → List Word) (flags : Nat) (fault : Option Trap) : LongOp :=
  { word := c.u.word, pc := c.u.pc, flag := c.u.flag, slices := c.u.slices, exec := c.exec, epoch := c.g.epochOf c.u.slices,
    vMarks := if isS d then [] else (List.range n).map (d.toNat + ·), sMarks := if isS d then (List.range n).map (d.toNat - 96 + ·) else [],
    vWrites := if isS d then [] else (members c.exec).flatMap fun l => (xs l).zipIdx.map fun w => ((d.toNat + w.2) * 128 + l, w.1),
    sWrites := if isS d then (xs 0).zipIdx.map fun w => (d.toNat - 96 + w.2, w.1) else [],
    mask := none, fpflags := .ofNat 32 flags, acquire := none, fault := fault, waiting := 0, ptrs := [], dest := 0, code := 0, reads := [], since := 0 }

end Sys2Proof.Claims

/-- 06 R114, R119, R120, R123, R127 with Tables FLT-5, FLT-8, FLT-11: words with single registers and one result. -/
def Sys2Proof.Claims.binary32Words : Prop :=
  (∀ e ∈ f32Two, ∀ (d a b : BitVec 7) (s : State) (u : Issue) (g : Group) (f : Nat → FRes),
    Issuing s u g → uniformOk d [a, b] → Clear s (u.ctx g) [use d, use a, use b] →
    (∀ l, f l = e.2 (u.ctx g).rm ((u.ctx g).rd a l).toNat ((u.ctx g).rd b l).toNat ((u.ctx g).rd d l).toNat) →
    noTrap (u.ctx g) (isS d) (fun l => (f l).flags) →
    exec (e.1 d a b) s = .next (State.wordDone u (floatEffect s (u.ctx g) d 1 fun l => ((f l).bits, (f l).flags))))
  ∧ ∀ e ∈ f32One, ∀ (d a : BitVec 7) (s : State) (u : Issue) (g : Group) (f : Nat → FRes),
    Issuing s u g → uniformOk d [a] → Clear s (u.ctx g) [use d, use a] →
    (∀ l, f l = e.2 (u.ctx g).rm ((u.ctx g).rd a l).toNat 0 0) → noTrap (u.ctx g) (isS d) (fun l => (f l).flags) →
    exec (e.1 d a) s = .next (State.wordDone u (floatEffect s (u.ctx g) d 1 fun l => ((f l).bits, (f l).flags)))

/-- 06 R114, R121, R127 with Tables FLT-7, FLT-11: words on pairs, and the conversions between a pair and a register. -/
def Obligations.Binary64Words : Prop :=
  (∀ e ∈ f64Two, ∀ (d a b : BitVec 7) (s : State) (u : Issue) (g : Group) (f : Nat → FRes),
    Issuing s u g → isEven d = true → isEven a = true → isEven b = true → uniformOk d [a, b] →
    Clear s (u.ctx g) [useN d 2, useN a 2, useN b 2] →
    (∀ l, f l = e.2 (u.ctx g).rm ((u.ctx g).rd64 a l).toNat ((u.ctx g).rd64 b l).toNat ((u.ctx g).rd64 d l).toNat) →
    noTrap (u.ctx g) (isS d) (fun l => (f l).flags) →
    exec (e.1 d a b) s = .next (State.wordDone u (floatEffect s (u.ctx g) d 2 fun l => ((f l).bits, (f l).flags))))
  ∧ ∀ e ∈ f64One, ∀ (d a : BitVec 7) (s : State) (u : Issue) (g : Group) (f : Nat → FRes),
    Issuing s u g → (e.2.2.1 = 2 → isEven d = true) → (e.2.1 = 2 → isEven a = true) → uniformOk d [a] →
    Clear s (u.ctx g) [useN d e.2.2.1, useN a e.2.1] →
    (∀ l, f l = e.2.2.2 (u.ctx g).rm (if e.2.1 = 2 then ((u.ctx g).rd64 a l).toNat else ((u.ctx g).rd a l).toNat) 0 0) →
    noTrap (u.ctx g) (isS d) (fun l => (f l).flags) →
    exec (e.1 d a) s = .next (State.wordDone u (floatEffect s (u.ctx g) d e.2.2.1 fun l => ((f l).bits, (f l).flags)))

/-- 06 R114, R122, R127 with Tables FLT-8, FLT-11: each half by itself, the exceptions of both halves signalled. -/
def Sys2Proof.Claims.packedHalfWords : Prop :=
  ∀ e ∈ halfTwo, ∀ (d a b : BitVec 7) (s : State) (u : Issue) (g : Group) (f : Nat → FRes × FRes),
    Issuing s u g → uniformOk d [a, b] → Clear s (u.ctx g) [use d, use a, use b] →
    (∀ l, f l = e.2 (u.ctx g).rm ((u.ctx g).rd a l).toNat ((u.ctx g).rd b l).toNat ((u.ctx g).rd d l).toNat) →
    noTrap (u.ctx g) (isS d) (fun l => (f l).1.flags ||| (f l).2.flags) →
    exec (e.1 d a b) s = .next (State.wordDone u
      (floatEffect s (u.ctx g) d 1 fun l => ((f l).1.bits + (f l).2.bits * 2 ^ 16, (f l).1.flags ||| (f l).2.flags)))

/-- 06 R114, R124, R125 with Table FLT-9: the compares to a mask; -0 and +0 are equal, a NaN is in no order. -/
def Obligations.FloatCompares : Prop :=
  ∀ e ∈ floatCompares, ∀ (d : BitVec 3) (a b : BitVec 7) (s : State) (u : Issue) (g : Group) (fl : Nat → Nat),
    Issuing s u g → (e.2.1 = 2 → isEven a = true ∧ isEven b = true) → Clear s (u.ctx g) [useN a e.2.1, useN b e.2.1] →
    (∀ l, fl l = compareFlags e.2.2.1 e.2.2.2.2 ((u.ctx g).num a e.2.1 l) ((u.ctx g).num b e.2.1 l)) →
    noTrap (u.ctx g) (isS a && isS b) fl →
    exec (e.1 d a b) s = .next (State.wordDone u (State.orFlags
      (s.putMask (u.ctx g) d.toNat (bitSet 128 fun l => (u.ctx g).exec.getLsbD l && e.2.2.2.1 ((u.ctx g).num a e.2.1 l) ((u.ctx g).num b e.2.1 l)))
      (u.ctx g) ((((u.ctx g).sigLanes (isS a && isS b)).map fl).foldl (fun x y => x ||| y) 0)))

/-- 06 R113, R116, R121, R126 with Table FLT-10: a long-latency floating word goes under way with its results, the exceptions it will OR and the FPE it
will raise in their place, all by the RMODE of its issue. -/
def Obligations.LongFloatingWords : Prop :=
  (∀ e ∈ slowOne, ∀ (d a : BitVec 7) (s : State) (u : Issue) (g : Group) (f : Nat → FRes),
    Issuing s u g → (e.2.1 = 2 → isEven d = true ∧ isEven a = true) → uniformOk d [a] → Clear s (u.ctx g) [useN d e.2.1, useN a e.2.1] →
    flagRoom s (u.ctx g) → (∀ l, f l = e.2.2 (u.ctx g).rm ((u.ctx g).num a e.2.1 l)) →
    exec (e.1 d a) s = .next (State.wordDone u (slowEffect s (u.ctx g) (slowOp (u.ctx g) d e.2.1 (fun l => regsOf e.2.1 (f l).bits)
      ((((u.ctx g).sigLanes (isS d)).map fun l => (f l).flags).foldl (fun x y => x ||| y) 0)
      (((u.ctx g).fpe (((u.ctx g).sigLanes (isS d)).map fun l => (l, (f l).flags))).map fun t => { t with pc := u.pc, async := true })))))
  ∧ ∀ e ∈ slowTwo, ∀ (d a b : BitVec 7) (s : State) (u : Issue) (g : Group) (f : Nat → FRes),
    Issuing s u g → (e.2.1 = 2 → isEven d = true ∧ isEven a = true ∧ isEven b = true) → uniformOk d [a, b] →
    Clear s (u.ctx g) [useN d e.2.1, useN a e.2.1, useN b e.2.1] →
    flagRoom s (u.ctx g) → (∀ l, f l = e.2.2 (u.ctx g).rm ((u.ctx g).num a e.2.1 l) ((u.ctx g).num b e.2.1 l)) →
    exec (e.1 d a b) s = .next (State.wordDone u (slowEffect s (u.ctx g) (slowOp (u.ctx g) d e.2.1 (fun l => regsOf e.2.1 (f l).bits)
      ((((u.ctx g).sigLanes (isS d)).map fun l => (f l).flags).foldl (fun x y => x ||| y) 0)
      (((u.ctx g).fpe (((u.ctx g).sigLanes (isS d)).map fun l => (l, (f l).flags))).map fun t => { t with pc := u.pc, async := true }))))

namespace Sys2Proof.Claims

/-- The value of a finite bit pattern; 0 for the others. -/
def valueOf (f : Fmt) (x : Nat) : Rat :=
  match f.num x with
  | .fin n m e => (if n then -(m : Rat) else m) * (2 : Rat) ^ e
  | _ => 0
/-- A bit pattern of the format that is no infinity and no NaN. -/
abbrev isFinite (f : Fmt) (x : Nat) : Prop := x % 2 ^ (f.eb + f.fb) < f.top

end Sys2Proof.Claims

/-- 00 R6, 06 R115: `Round` of a nonzero exact value has its sign. Where it is finite, under RNE it lies no farther from the exact value than any other
value of the format, and where another lies as near its significand is even; under RZ it is the value of largest magnitude not beyond it, under RU the
least value not below it and under RD the greatest not above it. -/
def Obligations.RoundingPicksTheNearestValue : Prop :=
  ∀ f ∈ [Fmt.f16, Fmt.bf16, Fmt.f32, Fmt.f64], ∀ (neg : Bool) (m : Nat) (e : Int) (y : Nat) (x : Rat), 0 < m → isFinite f y →
    x = (if neg then -(m : Rat) else m) * (2 : Rat) ^ e →
    (∀ rm, (f.round rm neg m e false).bits / 2 ^ (f.eb + f.fb) = neg.toNat)
    ∧ (isFinite f (f.round .rne neg m e false).bits → |valueOf f (f.round .rne neg m e false).bits - x| ≤ |valueOf f y - x|
        ∧ (|valueOf f (f.round .rne neg m e false).bits - x| = |valueOf f y - x| → valueOf f y ≠ valueOf f (f.round .rne neg m e false).bits →
          (f.round .rne neg m e false).bits % 2 = 0))
    ∧ (|valueOf f (f.round .rz neg m e false).bits| ≤ |x| ∧ (|valueOf f y| ≤ |x| → |valueOf f y| ≤ |valueOf f (f.round .rz neg m e false).bits|))
    ∧ (isFinite f (f.round .ru neg m e false).bits →
        x ≤ valueOf f (f.round .ru neg m e false).bits ∧ (x ≤ valueOf f y → valueOf f (f.round .ru neg m e false).bits ≤ valueOf f y))
    ∧ (isFinite f (f.round .rd neg m e false).bits →
        valueOf f (f.round .rd neg m e false).bits ≤ x ∧ (valueOf f y ≤ x → valueOf f y ≤ valueOf f (f.round .rd neg m e false).bits))

namespace Sys2Proof.Claims

/-- Lane (x, y) of lane l's quad (Table INT-4). -/
def quad (l x y : Nat) : Nat := l / 4 * 4 + x + 2 * y
noncomputable def derivatives : List (One × (Nat → Nat) × (Nat → Nat)) :=
  [(Instr.ddxF32, (fun l => quad l 0 (l % 4 / 2)), fun l => quad l 1 (l % 4 / 2)), (Instr.ddyF32, (fun l => quad l (l % 2) 0), fun l => quad l (l % 2) 1)]

/-- The short-latency floating words of one or two results, with the registers each names, the limits on its operands, whether it issues on the uniform
datapath, and what it signals in each lane (Tables FLT-5, FLT-7 to FLT-9, FLT-11; 05 R106). -/
def FloatWord (i : Instr) (c : Ctx) (uses : List Use) (uniform : Bool) (fl : Nat → Nat) : Prop :=
  (∃ e ∈ f32Two, ∃ d a b, i = e.1 d a b ∧ uniformOk d [a, b] ∧ uses = [use d, use a, use b] ∧ uniform = isS d
    ∧ ∀ l, fl l = (e.2 c.rm (c.rd a l).toNat (c.rd b l).toNat (c.rd d l).toNat).flags)
  ∨ (∃ e ∈ f32One, ∃ d a, i = e.1 d a ∧ uniformOk d [a] ∧ uses = [use d, use a] ∧ uniform = isS d ∧ ∀ l, fl l = (e.2 c.rm (c.rd a l).toNat 0 0).flags)
  ∨ (∃ e ∈ f64Two, ∃ d a b, i = e.1 d a b ∧ isEven d = true ∧ isEven a = true ∧ isEven b = true ∧ uniformOk d [a, b]
    ∧ uses = [useN d 2, useN a 2, useN b 2] ∧ uniform = isS d ∧ ∀ l, fl l = (e.2 c.rm (c.rd64 a l).toNat (c.rd64 b l).toNat (c.rd64 d l).toNat).flags)
  ∨ (∃ e ∈ f64One, ∃ d a, i = e.1 d a ∧ (e.2.2.1 = 2 → isEven d = true) ∧ (e.2.1 = 2 → isEven a = true) ∧ uniformOk d [a]
    ∧ uses = [useN d e.2.2.1, useN a e.2.1] ∧ uniform = isS d
    ∧ ∀ l, fl l = (e.2.2.2 c.rm (if e.2.1 = 2 then (c.rd64 a l).toNat else (c.rd a l).toNat) 0 0).flags)
  ∨ (∃ e ∈ halfTwo, ∃ d a b, ∃ f : Nat → FRes × FRes, i = e.1 d a b ∧ uniformOk d [a, b] ∧ uses = [use d, use a, use b] ∧ uniform = isS d
    ∧ (∀ l, f l = e.2 c.rm (c.rd a l).toNat (c.rd b l).toNat (c.rd d l).toNat) ∧ ∀ l, fl l = (f l).1.flags ||| (f l).2.flags)
  ∨ (∃ e ∈ floatCompares, ∃ d a b, i = e.1 d a b ∧ (e.2.1 = 2 → isEven a = true ∧ isEven b = true) ∧ uses = [useN a e.2.1, useN b e.2.1]
    ∧ uniform = (isS a && isS b) ∧ ∀ l, fl l = compareFlags e.2.2.1 e.2.2.2.2 (c.num a e.2.1 l) (c.num b e.2.1 l))
  ∨ ∃ e ∈ derivatives, ∃ d a, i = e.1 d a ∧ isS d = false ∧ uses = [use d, use a] ∧ uniform = false
    ∧ ∀ l, fl l = if c.exec.getLsbD (e.2.1 l) = true ∧ c.exec.getLsbD (e.2.2 l) = true
      then (Fmt.f32.sub c.rm (c.rd a (e.2.2 l)).toNat (c.rd a (e.2.1 l)).toNat).flags else 0x20

end Sys2Proof.Claims

/-- 06 R116: a short-latency floating word, a compare or a derivative included, one of whose lanes signals an exception with its trap bit set performs FPE
in place of its effect: FADDR holds the enabled exceptions of all lanes and the lowest lane that signalled one, m7 EXEC; nothing is written or flagged. -/
def Obligations.FloatingTraps : Prop :=
  ∀ (i : Instr) (uses : List Use) (uniform : Bool) (s : State) (u : Issue) (g : Group) (fl : Nat → Nat) (en lane : Nat),
    Issuing s u g → FloatWord i (u.ctx g) uses uniform fl → Clear s (u.ctx g) uses → en = (u.ctx g).g.rmode.toNat / 2 ^ 4 % 2 ^ 6 →
    ((u.ctx g).sigLanes uniform).find? (fun l => decide (fl l &&& en ≠ 0)) = some lane →
    exec i s = .next (s.wordTrapped u
      { stage := 7, cause := 0x19, pc := u.chain, word := u.word,
        faddr := .ofNat 64 (((((u.ctx g).sigLanes uniform).map fl).foldl (fun x y => x ||| y) 0 &&& en) + lane * 2 ^ 8), level := 0, kind := 0,
        async := false, lanes := (u.ctx g).exec, slices := u.slices, born := 0 })

namespace Sys2Proof.Claims

/-- The words with a register destination whose operands are registers: the destination, its registers, and the sources with theirs. -/
def RegisterForm (i : Instr) (d : BitVec 7) (n : Nat) (src : List (BitVec 7 × Nat)) : Prop :=
  (n = 1 ∧ src = [] ∧ ∃ e ∈ constants, ∃ x, i = e.1 d x)
  ∨ (∃ a, n = 1 ∧ src = [(a, 1)] ∧ ((∃ e ∈ intOne, i = e.1 d a) ∨ (∃ e ∈ intImm, ∃ x, i = e.1 d a x) ∨ ∃ e ∈ f32One, i = e.1 d a))
  ∨ (∃ a, n = 2 ∧ src = [(a, 1)] ∧ ∃ e ∈ pairOne, i = e.1 d a)
  ∨ (∃ a, ∃ e ∈ f64One, i = e.1 d a ∧ n = e.2.2.1 ∧ src = [(a, e.2.1)])
  ∨ (∃ a, ∃ e ∈ slowOne, i = e.1 d a ∧ n = e.2.1 ∧ src = [(a, e.2.1)])
  ∨ (∃ a b, n = 1 ∧ src = [(a, 1), (b, 1)] ∧ ((∃ e ∈ intTwo, i = e.1 d a b) ∨ (∃ e ∈ packedTwo, i = e.1 d a b) ∨ i = .bfi d a b ∨ (∃ k, i = .sel k d a b)
    ∨ (∃ e ∈ f32Two, i = e.1 d a b) ∨ ∃ e ∈ halfTwo, i = e.1 d a b))
  ∨ (∃ a b, n = 2 ∧ src = [(a, 2), (b, 1)] ∧ ((∃ e ∈ pairWordOf, i = e.1 d a b) ∨ ∃ e ∈ leas, i = e.1 d a b))
  ∨ (∃ a b, n = 2 ∧ src = [(a, 2), (b, 2)] ∧ ((∃ e ∈ pairTwo, i = e.1 d a b) ∨ ∃ e ∈ f64Two, i = e.1 d a b))
  ∨ ∃ a b, ∃ e ∈ slowTwo, i = e.1 d a b ∧ n = e.2.1 ∧ src = [(a, e.2.1), (b, e.2.1)]

/-- The compares to a mask, and the registers of each source. -/
def CompareForm (i : Instr) (a b : BitVec 7) (n : Nat) : Prop :=
  (n = 1 ∧ ∃ e ∈ compares, ∃ d, i = e.1 d a b) ∨ (n = 2 ∧ ∃ e ∈ compares64, ∃ d, i = e.1 d a b) ∨ ∃ e ∈ floatCompares, n = e.2.1 ∧ ∃ d, i = e.1 d a b

/-- The registers a word of those names, and the limits on its operands: a pair on an even field (03 R56), an s destination beside s sources alone
(05 R91). -/
def Named (i : Instr) (uses : List Use) (limits : Prop) : Prop :=
  (∃ d n src, RegisterForm i d n src ∧ uses = useN d n :: src.map (fun e => useN e.1 e.2)
    ∧ (limits ↔ (n = 2 → isEven d = true) ∧ (∀ e ∈ src, e.2 = 2 → isEven e.1 = true) ∧ uniformOk d (src.map (·.1))))
  ∨ ∃ a b n, CompareForm i a b n ∧ uses = [useN a n, useN b n] ∧ (limits ↔ (n = 2 → isEven a = true ∧ isEven b = true))

end Sys2Proof.Claims

/-- Table ENC-9 steps 5 and 6 for the integer, address, select, compare and floating words outside a chain already checked: an operand limit that fails
raises OPND (03 R56, 05 R91); else a register of v48-v95 that the group does not hold raises REGX (10 R229); else a marked register raises HAZ (03 R50);
else a pending token makes the word wait (03 R51). -/
def Sys2Proof.Claims.operandChecks : Prop :=
  ∀ (i : Instr) (uses : List Use) (limits : Prop) (s : State) (u : Issue) (g : Group), Named i uses limits → Issuing s u g → u.snap = none →
    (¬ limits → exec i s = .next (s.wordTrapped u ((u.ctx g).trap 5 0x05)))
    ∧ (limits → (u.ctx g).g.held = false → (∃ x ∈ uses, ∃ r ∈ x.list, 48 ≤ r ∧ r < 96) → exec i s = .next (s.wordTrapped u ((u.ctx g).trap 5 0x1D)))
    ∧ (limits → ((u.ctx g).g.held = true ∨ ∀ x ∈ uses, ∀ r ∈ x.list, r < 48 ∨ 96 ≤ r) →
        ((∃ x ∈ uses, (u.ctx g).pending x = true) → exec i s = .next (s.wordTrapped u ((u.ctx g).trap 6 0x04)))
        ∧ ((∀ x ∈ uses, (u.ctx g).pending x = false) → (∃ x ∈ uses, (u.ctx g).tokenPending s x = true) → exec i s = .next (s.wordWaits u)))

/-! Geometry words (06 R129-R131, 13 R290-R293) and cross-lane words (05 R103-R110). -/

namespace Sys2Proof.Claims

/-- A block of n registers lies wholly in v0-v95 or wholly in s1-s31. -/
abbrev inBlock (f : BitVec 7) (n : Nat) : Prop := f.toNat + n ≤ 96 ∨ (97 ≤ f.toNat ∧ f.toNat + n ≤ 128)

/-- Table FLT-13 and 06 R130: the entry distance of the ray into the box, or the canonical NaN. -/
def boxHit (ray box : Nat → Nat) : Nat :=
  let f := Fmt.f32
  let t := [0, 1, 2].foldl (fun (t : Nat × Nat) k =>
    let p := (f.mul .rne (f.sub .rne (box k) (ray k)).bits (ray (6 + k))).bits
    let q := (f.mul .rne (f.sub .rne (box (3 + k)) (ray k)).bits (ray (6 + k))).bits
    ((f.max t.1 (f.min p q).bits).bits, (f.min t.2 (f.max p q).bits).bits)) (ray 9, ray 10)
  if f.isNan t.1 = false ∧ f.isNan t.2 = false ∧ f.value t.1 ≤ f.value t.2 then t.1 else f.canon

/-- 06 R131: distance and barycentric coordinates of the hit, or three canonical NaNs. -/
def triangleHit (ray m : Nat → Nat) : List Nat :=
  let f := Fmt.f32
  let fma (a b c : Nat) : Nat := (f.fma .rne a b c).bits
  let row (i : Nat) (x y z last : Nat) : Nat := fma (m (4 * i + 2)) z (fma (m (4 * i + 1)) y (if last = 1 then fma (m (4 * i)) x (m (4 * i + 3)) else (f.mul .rne (m (4 * i)) x).bits))
  let oo (i : Nat) : Nat := row i (ray 0) (ray 1) (ray 2) 1
  let dd (i : Nat) : Nat := row i (ray 3) (ray 4) (ray 5) 0
  let t := (f.div .rne (f.neg (oo 2)).bits (dd 2)).bits
  let u := fma (dd 0) t (oo 0)
  let v := fma (dd 1) t (oo 1)
  let le (a b : Nat) : Bool := inOrder f false a b
  if !(le (dd 2) 0 && le 0 (dd 2)) && !f.isNan t && !f.isNan u && !f.isNan v && le 0 u && le 0 v && le (f.add .rne u v).bits 0x3F800000 && le (ray 9) t && le t (ray 10)
  then [t, u, v] else [0x7FC00000, 0x7FC00000, 0x7FC00000]

/-- 13 R291: K, A and B of an edge. -/
def edgeCoefficients (p q : Nat → Int) : List Nat :=
  let inside := [p 0, p 1, q 0, q 1].all fun x => decide (-2 ^ 22 ≤ x) && decide (x ≤ 2 ^ 22 - 1)
  let k := if inside then (p 0 * q 1 - q 0 * p 1) * 4 else -2 ^ 18
  let a := if inside then (p 1 - q 1) * 256 else 0
  let b := if inside then (q 0 - p 0) * 256 else 0
  [(k % 2 ^ 32).toNat, (k / 2 ^ 32 % 2 ^ 32).toNat, (a % 2 ^ 32).toNat, (b % 2 ^ 32).toNat]

def signedOf (f : Nat → Nat) (i : Nat) : Int := signed 32 (f i)

/-- Words of two blocks: registers of the result and of each block. -/
noncomputable def blockTwo : List (Two × Nat × Nat × Nat × ((Nat → Nat) → (Nat → Nat) → List Nat)) :=
  [(Instr.rbox, 1, 11, 6, fun a b => [boxHit a b]), (Instr.rtri, 3, 11, 12, triangleHit),
   (Instr.edgec, 4, 2, 2, fun a b => edgeCoefficients (signedOf a) (signedOf b))]

/-- Words of one block of three vertices (13 R292, R293). -/
noncomputable def blockOne : List (One × ((Nat → Int) → Nat)) :=
  [(Instr.cullbf, fun v => (((v 2 - v 0) * (v 5 - v 1) - (v 4 - v 0) * (v 3 - v 1)).sign % 2 ^ 32).toNat),
   (Instr.cullbx, fun v =>
      let hit (x y z : Int) : Bool := (List.range 32).any fun i => decide (min x (min y z) ≤ 256 * (i : Int) + 128) && decide (256 * (i : Int) + 128 ≤ max x (max y z))
      if hit (v 0) (v 2) (v 4) && hit (v 1) (v 3) (v 5) then 1 else 0)]

/-- 05 R104: the source lane of r in a segment of n lanes, by index or distance k. -/
noncomputable def moves : List (Two × (Nat → Nat → Nat → Int)) :=
  [(Instr.lpick, fun _ k _ => k), (Instr.lswap, fun r k _ => (r ^^^ k : Nat)), (Instr.lrotu, fun r k _ => (r : Int) - k), (Instr.lrotd, fun r k _ => (r : Int) + k)]

/-- 05 R108: the reductions over the active lanes' values. -/
noncomputable def reductions : List (One × (List Int → Int)) :=
  [(Instr.raddI32, List.sum), (Instr.rmaxI32, fun xs => xs.foldl max (-2 ^ 31)), (Instr.rminI32, fun xs => xs.foldl min (2 ^ 31 - 1))]

/-- 05 R109: node i of a level of the tree over the lane positions; level 0 holds the lanes. -/
def node (rm : RMode) (x : Nat → Nat) : Nat → Nat → Nat
  | 0, i => x i
  | n + 1, i => (Fmt.f32.add rm (node rm x n (2 * i)) (node rm x n (2 * i + 1))).bits
/-- What that node signals, above level 0. -/
def nodeFlags (rm : RMode) (x : Nat → Nat) (n i : Nat) : Nat :=
  match n with
  | 0 => 0
  | n + 1 => (Fmt.f32.add rm (node rm x n (2 * i)) (node rm x n (2 * i + 1))).flags
def treeFlags (rm : RMode) (x : Nat → Nat) : Nat :=
  ((List.range 7).flatMap fun n => (List.range (2 ^ (6 - n))).map fun i => nodeFlags rm x (n + 1) i).foldl (fun x y => x ||| y) 0

end Sys2Proof.Claims

/-- 06 R129-R131, 13 R290-R293: the geometry words go under way with their results, every operation rounded to nearest even whatever RMODE holds, and
signal nothing; a block outside v0-v95 and s1-s31 raises OPND, and so do an s destination beside a v block and an odd destination of `edgec`,
all at step 5, before HAZ (log entry 44, DEDUCED). -/
def Obligations.GeometryWords : Prop :=
  (∀ e ∈ blockTwo, ∀ (d a b : BitVec 7) (s : State) (u : Issue) (g : Group), Issuing s u g →
    (inBlock d e.2.1 → inBlock a e.2.2.1 → inBlock b e.2.2.2.1 → uniformOk d [a, b] → (e.2.1 = 4 → isEven d = true) →
      Clear s (u.ctx g) [useN d e.2.1, useN a e.2.2.1, useN b e.2.2.2.1] → flagRoom s (u.ctx g) →
      exec (e.1 d a b) s = .next (State.wordDone u (slowEffect s (u.ctx g) (slowOp (u.ctx g) d e.2.1 (fun l =>
        (e.2.2.2.2 (fun i => ((u.ctx g).rdN (a.toNat + i) l).toNat) (fun i => ((u.ctx g).rdN (b.toNat + i) l).toNat)).map (BitVec.ofNat 32)) 0 none))))
    ∧ (u.snap = none → ¬ (inBlock d e.2.1 ∧ inBlock a e.2.2.1 ∧ inBlock b e.2.2.2.1) ∨ (isS d = true ∧ (isS a = false ∨ isS b = false)) ∨ (e.2.1 = 4 ∧ isEven d = false) →
      exec (e.1 d a b) s = .next (s.wordTrapped u ((u.ctx g).trap 5 0x05))))
  ∧ ∀ e ∈ blockOne, ∀ (d a : BitVec 7) (s : State) (u : Issue) (g : Group), Issuing s u g →
    (inBlock d 1 → inBlock a 6 → uniformOk d [a] → Clear s (u.ctx g) [useN d 1, useN a 6] → flagRoom s (u.ctx g) →
      exec (e.1 d a) s = .next (State.wordDone u (slowEffect s (u.ctx g) (slowOp (u.ctx g) d 1 (fun l =>
        [.ofNat 32 (e.2 (signedOf fun i => ((u.ctx g).rdN (a.toNat + i) l).toNat))]) 0 none))))
    ∧ (u.snap = none → ¬ (inBlock d 1 ∧ inBlock a 6) ∨ (isS d = true ∧ isS a = false) → exec (e.1 d a) s = .next (s.wordTrapped u ((u.ctx g).trap 5 0x05)))

/-- 05 R104: the words that move values between lanes go under way; each active lane whose source lane, in its own segment, is active too takes A of that
lane as it stands now, and every other lane keeps what D held. -/
def Obligations.LaneMovingWords : Prop :=
  ∀ e ∈ moves, ∀ (d a b : BitVec 7) (s : State) (u : Issue) (g : Group) (source : Nat → Nat),
    Issuing s u g → isS d = false → Clear s (u.ctx g) [use d, use a, use b] → flagRoom s (u.ctx g) →
    (∀ l, source l =
      let x := ((u.ctx g).rd b l).toNat
      let n := 4 * 2 ^ min (x / 2 ^ 8 % 8) 5
      l / n * n + (e.2 (l % n) (x % 2 ^ 7) n % n).toNat) →
    exec (e.1 d a b) s = .next (State.wordDone u (slowEffect s (u.ctx g) { slowOp (u.ctx g) d 1 (fun _ => []) 0 none with
      vWrites := ((members (u.ctx g).exec).filter fun l => (u.ctx g).exec.getLsbD (source l)).map fun l => (d.toNat * 128 + l, (u.ctx g).rd a (source l)) }))

/-- 05 R105: the words that reach one named lane. `bcast` falls back to the lowest active lane; `rdlane` and `wrlane` reach any lane of the split's slices
that has not exited, active or not, and no other; they wait for marks in EXEC and in the lane so reached (log entry 34). -/
def Sys2Proof.Claims.namedLaneWords : Prop :=
  ∀ (d a b : BitVec 7) (s : State) (u : Issue) (g : Group) (j : Nat) (lanes : LaneSet), Issuing s u g → j = ((u.ctx g).rd b 0).toNat % 128 →
    lanes = (if u.slices.getLsbD (j / 4) = true ∧ j / 4 < (u.ctx g).g.slices.length ∧ ((u.ctx g).g.slice (j / 4)).exited.getLsbD (j % 4) = false
      then (u.ctx g).exec ||| bitSet 128 (fun l => l == j) else (u.ctx g).exec) → isS b = true →
    (isS d = false → isS a = false → Clear s (u.ctx g) [use d, use a, use b] →
      exec (.bcast d a b) s = .next (State.wordDone u (s.putRegs (u.ctx g) d.toNat fun _ =>
        [(u.ctx g).rd a (if (u.ctx g).exec.getLsbD j = true then j else (u.ctx g).firstLane)])))
    ∧ (isS d = true → isS a = false → Clear s (u.ctx g) [use d, use b, { use a with lanes := some lanes }] →
      exec (.rdlane d a b) s = .next (State.wordDone u (s.putRegs (u.ctx g) d.toNat fun _ =>
        [if u.slices.getLsbD (j / 4) = true ∧ j / 4 < (u.ctx g).g.slices.length ∧ ((u.ctx g).g.slice (j / 4)).exited.getLsbD (j % 4) = false
          then (u.ctx g).rd a j else 0])))
    ∧ (isS d = false → isS a = true → Clear s (u.ctx g) [use a, use b, { use d with lanes := some lanes }] →
      exec (.wrlane d a b) s = .next (State.wordDone u
        (if u.slices.getLsbD (j / 4) = true ∧ j / 4 < (u.ctx g).g.slices.length ∧ ((u.ctx g).g.slice (j / 4)).exited.getLsbD (j % 4) = false
          then s.onGroup u.group fun h => h.writeV d.toNat j ((u.ctx g).rd a 0) else s)))

/-- 05 R106: each derivative subtracts across the lane's quad as `sub.f32` does; where one of the two lanes is not active the lane receives the canonical
NaN and signals derivative-invalid. -/
def Sys2Proof.Claims.derivativeWords : Prop :=
  ∀ e ∈ derivatives, ∀ (d a : BitVec 7) (s : State) (u : Issue) (g : Group) (f : Nat → FRes),
    Issuing s u g → isS d = false → Clear s (u.ctx g) [use d, use a] →
    (∀ l, f l = if (u.ctx g).exec.getLsbD (e.2.1 l) = true ∧ (u.ctx g).exec.getLsbD (e.2.2 l) = true
      then Fmt.f32.sub (u.ctx g).rm ((u.ctx g).rd a (e.2.2 l)).toNat ((u.ctx g).rd a (e.2.1 l)).toNat
      else { bits := 0x7FC00000, flags := 0x20 }) →
    noTrap (u.ctx g) false (fun l => (f l).flags) →
    exec (e.1 d a) s = .next (State.wordDone u (floatEffect s (u.ctx g) d 1 fun l => ((f l).bits, (f l).flags)))

/-- 05 R107: a register by number. Outside a handler `vrdi` reads, per active lane, v0-v95 and the split's s registers, and in a handler's slices 120 to
123 are the interrupted program's s24-s27; `vwri` writes v registers alone; any other number raises OPND. -/
def Sys2Proof.Claims.registersByNumber : Prop :=
  (∀ (d a : BitVec 7) (s : State) (u : Issue) (g : Group) (i : Nat), Issuing s u g → isS d = false → isS a = true → i = ((u.ctx g).rd a 0).toNat →
    Clear s (u.ctx g) [use d, use a] →
    ((u.ctx g).g.epochOf u.slices = 0 ∨ i < 120 ∨ 123 < i → i < 128 → Clear s (u.ctx g) [⟨i, 1, none⟩] →
      exec (.vrdi d a) s = .next (State.wordDone u (s.putRegs (u.ctx g) d.toNat fun l =>
        [if i < 96 then (u.ctx g).g.readV i l else (u.ctx g).g.readS (lowest 0 u.slices) (i - 96)])))
    ∧ ((u.ctx g).g.epochOf u.slices ≠ 0 → 120 ≤ i → i ≤ 123 → (u.ctx g).outerPending (i - 96) = false → (u.ctx g).outerToken s (i - 96) = false →
      exec (.vrdi d a) s = .next (State.wordDone u (s.putRegs (u.ctx g) d.toNat fun _ => [Tab.get 0 ((u.ctx g).g.slice (lowest 0 u.slices)).s (i - 96)])))
    ∧ (128 ≤ i → exec (.vrdi d a) s = .next (s.wordTrapped u ((u.ctx g).trap 7 0x05))))
  ∧ ∀ (a b : BitVec 7) (s : State) (u : Issue) (g : Group) (i : Nat), Issuing s u g → isS a = true → i = ((u.ctx g).rd a 0).toNat →
    Clear s (u.ctx g) [use a, use b] →
    (i < 96 → Clear s (u.ctx g) [⟨i, 1, none⟩] → exec (.vwri a b) s = .next (State.wordDone u (s.putRegs (u.ctx g) i fun l => [(u.ctx g).rd b l])))
    ∧ (96 ≤ i → exec (.vwri a b) s = .next (s.wordTrapped u ((u.ctx g).trap 7 0x05)))

/-- 05 R108: a reduction combines A over the active lanes, the same result for every destination. -/
def Sys2Proof.Claims.reductionWords : Prop :=
  ∀ e ∈ reductions, ∀ (d a : BitVec 7) (s : State) (u : Issue) (g : Group), Issuing s u g → Clear s (u.ctx g) [use d, use a] →
    exec (e.1 d a) s =
      .next (State.wordDone u (s.putRegs (u.ctx g) d.toNat fun _ => [.ofInt 32 (e.2 ((members (u.ctx g).exec).map fun l => ((u.ctx g).rd a l).toInt))]))

/-- 05 R109: `radd.f32` sums by the fixed tree over the 128 lane positions, +0 where a lane is absent, one rounding per addition; an exception whose trap
is enabled raises FPE with the lowest active lane below a node that signalled it. -/
def Sys2Proof.Claims.treeSum : Prop :=
  ∀ (d a : BitVec 7) (s : State) (u : Issue) (g : Group) (x : Nat → Nat) (rm : RMode) (en : Nat), Issuing s u g → Clear s (u.ctx g) [use d, use a] →
    (∀ j, x j = if (u.ctx g).exec.getLsbD j = true then ((u.ctx g).rd a j).toNat else 0) → rm = (u.ctx g).rm → en = (u.ctx g).g.rmode.toNat / 2 ^ 4 % 2 ^ 6 →
    (treeFlags rm x &&& en = 0 → exec (.raddF32 d a) s = .next (State.wordDone u (State.orFlags
      (s.putRegs (u.ctx g) d.toNat fun _ => [.ofNat 32 (node rm x 7 0)]) (u.ctx g) (treeFlags rm x))))
    ∧ ∀ lane, (members (u.ctx g).exec).find? (fun l => (List.range 7).any fun n => decide (nodeFlags rm x (n + 1) (l / 2 ^ (n + 1)) &&& en ≠ 0)) = some lane →
      exec (.raddF32 d a) s = .next (s.wordTrapped u { (u.ctx g).trap 7 0x19 with faddr := .ofNat 64 ((treeFlags rm x &&& en) + lane * 2 ^ 8) })

/-- 05 R110: `ballot` sets the bit of each active lane whose operand is nonzero. -/
def Sys2Proof.Claims.ballotWord : Prop :=
  ∀ (d : BitVec 3) (a : BitVec 7) (s : State) (u : Issue) (g : Group), Issuing s u g → Clear s (u.ctx g) [use a] →
    exec (.ballot d a) s = .next (State.wordDone u (s.putMask (u.ctx g) d.toNat
      (bitSet 128 fun l => (u.ctx g).exec.getLsbD l && decide ((u.ctx g).rd a l ≠ 0))))

/-! Control words, joins and what ends a wait (04 R76-R87, 03 R46, 01 R11). -/

namespace Sys2Proof.Claims

/-- Slice i of a group stands at a clause boundary at a code address. -/
abbrev standsAt (h : Group) (i : Nat) (pc : Pc) : Prop := (h.slice i).seq.pc = pc ∧ (h.slice i).gang = 0
/-- The clause after the word's, and the clause n on from it. -/
def nextClause (u : Issue) : Pc := clauseOf u.pc + 16
def clauseBy (u : Issue) (d : BitVec 21) : Pc := .ofInt 57 ((clauseOf u.pc).toNat + 16 * d.toInt)

/-- Every slice of the split stands at a code address and every other slice stands where it stood; no memory, mask, v register or active lane changes. -/
def transferred (s t : State) (u : Issue) (g : Group) (pc : Pc) : Prop :=
  sameMemory s t ∧ otherGroups s t u.group ∧ ∃ h, Tab.find t.groups u.group = some h ∧ h.v = g.v ∧ h.m = g.m ∧ h.exitedLanes = g.exitedLanes
    ∧ ∀ i, i < g.slices.length → (h.slice i).seq.a = (g.slice i).seq.a
      ∧ if u.slices.getLsbD i = true then standsAt h i pc else (h.slice i).seq = (g.slice i).seq ∧ (h.slice i).gang = (g.slice i).gang

/-- s30:s31 of every slice of the split hold the link, and no other s register changes. -/
def linked (t : State) (u : Issue) (g : Group) : Prop :=
  ∃ h, Tab.find t.groups u.group = some h ∧ ∀ i k, i < g.slices.length → h.readS i k =
    if u.slices.getLsbD i = true ∧ k = 30 then (nextClause u).setWidth 32
    else if u.slices.getLsbD i = true ∧ k = 31 then ((nextClause u) >>> 32).setWidth 32 else g.readS i k

/-- What a slice whose current entry became empty goes on with (04 R80): its oldest release, else its newest parked entry with a lane that has not
exited, else nothing. -/
def takesNext (x y : Slice) : Prop :=
  match x.seq.releases with
  | (pc, m, a) :: rest => y.seq.pc = pc ∧ y.seq.m = m ∧ y.seq.a = a ∧ y.seq.releases = rest ∧ y.seq.parked = x.seq.parked
  | [] => match x.seq.parked.dropWhile fun e => decide (e.2 &&& ~~~y.exited = 0) with
    | (pc, k) :: rest => y.seq.pc = pc ∧ y.seq.m = k &&& ~~~y.exited ∧ y.seq.a = k &&& ~~~y.exited ∧ y.seq.parked = rest ∧ y.seq.releases = []
    | [] => y.seq.m = 0 ∧ y.seq.a = 0 ∧ y.seq.parked = [] ∧ y.seq.releases = []

/-- Lane l is suspended at the join at j. -/
abbrev heldAtJoin (g : Group) (j : Pc) (l : Nat) : Prop := ∃ active, Tab.find (g.slice (l / 4)).seq.susp (l % 4) = some (j, active)
/-- Every lane that has not exited stands at j, and one does. -/
def fullArrival (g : Group) (view : Nat) (j : Pc) : Prop :=
  (∀ l, l < 4 * g.slices.length → g.gone view l = true ∨ heldAtJoin g j l) ∧ ∃ l, l < 4 * g.slices.length ∧ heldAtJoin g j l
/-- Every lane that has not exited stands at a join, at two addresses or more, of which j is the lowest. -/
def stalemate (g : Group) (view : Nat) (j : Pc) : Prop :=
  (∀ l, l < 4 * g.slices.length → g.gone view l = true ∨ ∃ p, heldAtJoin g p l)
  ∧ (∃ l, l < 4 * g.slices.length ∧ heldAtJoin g j l) ∧ (∃ l p, l < 4 * g.slices.length ∧ p ≠ j ∧ heldAtJoin g p l)
  ∧ ∀ l p, l < 4 * g.slices.length → heldAtJoin g p l → j.toNat ≤ p.toNat

/-- The timer of the instance at j has run out by cycle `view`, and a lane waits there (04 R81). -/
def timerOut (g : Group) (view : Nat) (j : Pc) (e : JoinTimer) : Prop :=
  0 < e.n ∧ e.start + 16 * e.n ≤ g.time view ∧ ∃ l, l < 4 * g.slices.length ∧ heldAtJoin g j l

/-- What an instance that completes in cycle `view` leaves (04 R82, Table CTL-4): JOINST, the mask it names, and each slice's lanes released at the word after
the join, which issue in a later cycle. -/
def joined (g h : Group) (view : Nat) (j : Pc) (timeout stale : Bool) : Prop :=
  let k := ((Tab.find g.joins j.toNat).map (·.k)).getD 0
  let arrived (l : Nat) : Bool := decide (heldAtJoin g j l)
  let active (l : Nat) : Bool := decide (Tab.find (g.slice (l / 4)).seq.susp (l % 4) = some (j, true))
  h.joinst.toNat = timeout.toNat * 2 ^ 31 + stale.toNat * 2 ^ 30 + ((List.range (4 * g.slices.length)).filter fun l => !g.gone view l && !arrived l).length
  ∧ (∀ n l, 0 < n → (h.readM 0 n).getLsbD l = if n = k ∧ l < 128 then decide (l < 4 * g.slices.length) && active l else (g.readM 0 n).getLsbD l)
  ∧ Tab.find h.joins j.toNat = none
  ∧ ∀ i, i < g.slices.length → i < 32 →
      let lanes : BitVec 4 := bitSet 4 fun b => arrived (4 * i + b)
      let on : BitVec 4 := bitSet 4 fun b => active (4 * i + b)
      (lanes = 0 → (h.slice i).seq = (g.slice i).seq)
      ∧ (lanes ≠ 0 → (h.slice i).seq.susp = (g.slice i).seq.susp.filter fun e => decide (e.2.1 ≠ j))
      ∧ (lanes ≠ 0 → (g.slice i).seq.m = 0 → standsAt h i (j + 4) ∧ (h.slice i).seq.m = lanes ∧ (h.slice i).seq.a = on ∧ view < (h.slice i).after)
      ∧ (lanes ≠ 0 → (g.slice i).seq.m ≠ 0 → (h.slice i).seq.pc = (g.slice i).seq.pc ∧ (h.slice i).seq.m = (g.slice i).seq.m
          ∧ (h.slice i).seq.releases = (g.slice i).seq.releases ++ [(j + 4, lanes, on)])

end Sys2Proof.Claims

/-- 04 R76: `br` sends each slice to the target where all its active lanes take, to the next clause where none does, and divides it where some do, the
others parked; a slice without active lanes follows whether any lane of the split takes. Where a slice that must divide holds three parked entries the
word raises PARKOVF and no slice changes. -/
def Obligations.BranchWord : Prop :=
  (∀ (c n : BitVec 1) (k : BitVec 3) (d : BitVec 21),
    encode c (.br n k d) = .ofNat 32 (c.toNat * 2 ^ 31 + 2 ^ 25 + n.toNat * 2 ^ 24 + k.toNat * 2 ^ 21 + d.toNat))
  ∧ ∀ (n : BitVec 1) (k : BitVec 3) (d : BitVec 21) (s : State) (u : Issue) (g : Group) (take : Nat → Bool) (a T : Nat → BitVec 4), Issuing s u g →
    Clear s (u.ctx g) [] → (∀ l, take l = (((u.ctx g).g.readM (u.ctx g).exec k.toNat).getLsbD l != n.getLsbD 0)) →
    (∀ i, a i = ((u.ctx g).g.slice i).seq.a) → (∀ i, T i = bitSet 4 fun b => (a i).getLsbD b && take (4 * i + b)) →
    ((∃ i, u.slices.getLsbD i = true ∧ T i ≠ 0 ∧ T i ≠ a i ∧ 3 ≤ ((u.ctx g).g.slice i).seq.parked.length) →
      exec (.br n k d) s = .next (s.wordTrapped u ((u.ctx g).trap 7 0x0C)))
    ∧ ((∀ i, u.slices.getLsbD i = true → T i ≠ 0 → T i ≠ a i → ((u.ctx g).g.slice i).seq.parked.length < 3) →
      ∃ t h, exec (.br n k d) s = .next (State.wordJumped u t) ∧ sameMemory s t ∧ otherGroups s t u.group ∧ Tab.find t.groups u.group = some h
        ∧ h.v = g.v ∧ h.m = g.m ∧ (∀ i k, h.readS i k = g.readS i k) ∧ h.fpflags = g.fpflags ∧ sameSpecials g h ∧ h.exitedLanes = g.exitedLanes
        ∧ ∀ i, i < g.slices.length →
          if u.slices.getLsbD i = false then h.slice i = g.slice i
          else if a i = 0 then
            standsAt h i (if (members u.slices).any (fun j => decide (T j ≠ 0)) = true then clauseBy u d else nextClause u) ∧ (h.slice i).seq.m = (g.slice i).seq.m
          else if T i = a i then standsAt h i (clauseBy u d) ∧ (h.slice i).seq.m = (g.slice i).seq.m ∧ (h.slice i).seq.parked = (g.slice i).seq.parked
          else if T i = 0 then standsAt h i (nextClause u) ∧ (h.slice i).seq.m = (g.slice i).seq.m ∧ (h.slice i).seq.parked = (g.slice i).seq.parked
          else standsAt h i (clauseBy u d) ∧ (h.slice i).seq.a = T i ∧ (h.slice i).seq.m = (g.slice i).seq.m &&& ~~~(a i &&& ~~~T i)
            ∧ (h.slice i).seq.parked = (nextClause u, a i &&& ~~~T i) :: (g.slice i).seq.parked)

/-- 04 R77-R79: `call` writes the link and transfers by clauses; `ret`, `jmpi` and `calli` transfer to the address in an s pair, `calli` reading it before it
writes the link. Bits [63:57] raise SPACE and bits [1:0] ALIGN, FADDR holding the target; an odd pair or a v register raises OPND. -/
def Obligations.TransferWords : Prop :=
  ∀ (s : State) (u : Issue) (g : Group), Issuing s u g →
    (∀ d, Clear s (u.ctx g) [useS 30 2] → ∃ t, exec (.call d) s = .next (State.wordJumped u t) ∧ transferred s t u g (clauseBy u d) ∧ linked t u g)
    ∧ (∀ (p : BitVec 7) (i : Instr) (link : Bool) (x : DWord),
      (i = .ret ∧ link = false ∧ p = 126) ∨ (i = .jmpi p ∧ link = false) ∨ (i = .calli p ∧ link = true) →
      isS p = true → isEven p = true → Clear s (u.ctx g) (if link = true then [useN p 2, useS 30 2] else [useN p 2]) → x = (u.ctx g).rd64 p 0 →
      (x.toNat < 2 ^ 57 → x.toNat % 4 = 0 → ∃ t, exec i s = .next (State.wordJumped u t) ∧ transferred s t u g (x.setWidth 57)
        ∧ if link = true then linked t u g else ∃ h, Tab.find t.groups u.group = some h ∧ ∀ j k, j < g.slices.length → h.readS j k = g.readS j k)
      ∧ (2 ^ 57 ≤ x.toNat → exec i s = .next (s.wordTrapped u { (u.ctx g).trap 7 0x08 with faddr := x }))
      ∧ (x.toNat < 2 ^ 57 → x.toNat % 4 ≠ 0 → exec i s = .next (s.wordTrapped u { (u.ctx g).trap 7 0x07 with faddr := x })))
    ∧ ∀ p : BitVec 7, u.snap = none → isS p = false ∨ isEven p = false →
      exec (.jmpi p) s = .next (s.wordTrapped u ((u.ctx g).trap 5 0x05)) ∧ exec (.calli p) s = .next (s.wordTrapped u ((u.ctx g).trap 5 0x05))

/-- 04 R80, R81: at `join` every lane of the current entry of each slice of the split is suspended, arrived active or dormant; the slice takes its next
work; the first arrival at the address starts the instance's timer, in the group's running time, with the word's k and n. -/
def Sys2Proof.Claims.joinWord : Prop :=
  ∀ (k : BitVec 3) (n : BitVec 14) (s : State) (u : Issue) (g : Group), Issuing s u g → Clear s (u.ctx g) [] →
    ∃ t h, exec (.join k n) s = .next (State.wordJumped u t) ∧ sameMemory s t ∧ otherGroups s t u.group ∧ Tab.find t.groups u.group = some h
      ∧ h.v = g.v ∧ h.m = g.m
      ∧ (∀ c, Tab.find h.joins c = if c = u.pc.toNat ∧ Tab.find g.joins c = none then some { k := k.toNat, n := n.toNat, start := g.time (s.nowOf g) } else Tab.find g.joins c)
      ∧ ∀ i, i < g.slices.length →
        if u.slices.getLsbD i = false then h.slice i = g.slice i
        else (∀ b, b < 4 → Tab.find (h.slice i).seq.susp b =
            if (g.slice i).seq.m.getLsbD b = true then some (u.pc, (g.slice i).seq.a.getLsbD b) else Tab.find (g.slice i).seq.susp b)
          ∧ (h.slice i).gang = 0 ∧ (h.slice i).exited = (g.slice i).exited ∧ takesNext (g.slice i) (h.slice i)

/-- 04 R85, 09 R203: `exit` marks the active lanes of the split exited; dormant lanes of a slice become active at the next clause, a slice without them
takes its next work, and each exiting lane that holds a section is announced to be poisoned. The barriers and the `regroup` of the block that waited
for it alone then complete. -/
def Obligations.ExitWord : Prop :=
  ∀ (s : State) (u : Issue) (g : Group) (a : Nat → BitVec 4), Issuing s u g → Clear s (u.ctx g) [] → (∀ i, a i = ((u.ctx g).g.slice i).seq.a) →
    ∃ t h, exec .exit s = .next (State.wordJumped u (t.settleEnd (u.ctx g).g.block)) ∧ sameMemory s t ∧ otherGroups s t u.group
      ∧ Tab.find t.groups u.group = some h ∧ h.v = g.v ∧ h.m = g.m
      ∧ t.poisons = s.poisons ++
        ((members (u.ctx g).exec).filter fun l => decide (Tab.get 0 g.sections l ≠ 0) && !s.poisons.contains (u.group, l)).map (fun l => (u.group, l))
      ∧ ∀ i, i < g.slices.length →
        if u.slices.getLsbD i = false then h.slice i = g.slice i
        else (h.slice i).exited = (g.slice i).exited ||| a i ∧ (h.slice i).exitAt = s.nowOf g ∧ (h.slice i).exitNow = a i ∧ (h.slice i).gang = 0
          ∧ if (g.slice i).seq.m &&& ~~~a i = 0 then takesNext (g.slice i) (h.slice i)
            else (h.slice i).seq = { (g.slice i).seq with pc := nextClause u, m := (g.slice i).seq.m &&& ~~~a i, a := (g.slice i).seq.m &&& ~~~a i }

/-- 04 R86, R87: `yield n` and `sleep 0` change nothing but the issue cycles of the core that pass over the split, n + 1 of them; `sleep n` makes it wait for
16·n cycles of the core. Both go on at the next word. SLEEP_END wakes the slices whose time has come. -/
def Sys2Proof.Claims.yieldAndSleep : Prop :=
  (∀ (i : Instr) (n : Nat) (s : State) (u : Issue) (g : Group), (∃ k : BitVec 5, i = .yield k ∧ n = k.toNat) ∨ (i = .sleep 0 ∧ n = 0) →
    Issuing s u g → Clear s (u.ctx g) [] →
    exec i s = .next (State.wordDone u (s.onGroup u.group fun h => h.onSlices u.slices fun _ x => { x with passTo := max x.passTo ((s.core (s.coreOf h)).issues + (n + 1)) })))
  ∧ (∀ (n : BitVec 14) (s : State) (u : Issue) (g : Group), n ≠ 0 → Issuing s u g → Clear s (u.ctx g) [] →
    exec (.sleep n) s = .next (State.wordDone u (s.onGroup u.group fun h => h.onSlices u.slices fun _ x =>
      { x with seq := { x.seq with wait := .sleep (s.nowOf (u.ctx g).g + 16 * n.toNat) } })))
  ∧ ∀ (n i til : Nat) (s : State) (g : Group), Tab.find s.groups n = some g → (g.slice i).seq.wait = .sleep til → til ≤ s.nowOf g →
    ∃ t h, exec (.sleepEnd n i) s = .next t ∧ sameMemory s t ∧ otherGroups s t n ∧ Tab.find t.groups n = some h ∧ h.v = g.v ∧ h.m = g.m
      ∧ ∀ j, j < g.slices.length → j < 32 → (h.slice j).seq =
        if (g.slice j).seq.wait = .sleep til then { (g.slice j).seq with wait := .none } else (g.slice j).seq

/-- 04 R81-R83: an instance completes by full arrival, by stalemate at the lowest address, or by its timeout where full arrival does not hold, tested on
the cycle just over; each leaves the mask, the released entries and JOINST. A lane counts as exited from the cycle after its `exit`, and an instance whose
timer ran out in the cycle before completes first. -/
def Sys2Proof.Claims.joinsComplete : Prop :=
  ∀ (n : Nat) (j : Pc) (s : State) (g : Group) (early : Prop), Tab.find s.groups n = some g →
    (early ↔ ∃ p e, Tab.find g.joins p.toNat = some e ∧ timerOut g (s.nowOf g - 1) p e ∧ ¬ fullArrival g (s.nowOf g - 1) p) →
    (¬ early → fullArrival g (s.nowOf g) j → ∃ t h, exec (.joinComplete n j) s = .next t ∧ sameMemory s t ∧ otherGroups s t n ∧ Tab.find t.groups n = some h
      ∧ joined g h (s.nowOf g) j false false)
    ∧ (¬ early → stalemate g (s.nowOf g) j → ¬ fullArrival g (s.nowOf g) j → ∃ t h, exec (.joinComplete n j) s = .next t ∧ sameMemory s t ∧ otherGroups s t n ∧ Tab.find t.groups n = some h
      ∧ joined g h (s.nowOf g) j false true)
    ∧ ∀ e, Tab.find g.joins j.toNat = some e → timerOut g (s.nowOf g - 1) j e → ¬ fullArrival g (s.nowOf g - 1) j →
      ∃ t h, exec (.joinTimeout n j) s = .next t ∧ sameMemory s t ∧ otherGroups s t n ∧ Tab.find t.groups n = some h ∧ joined g h (s.nowOf g - 1) j true false

/-- 03 R42-R46, 04 R72, R90: a whole split at a clause boundary begins its clause: its slices gang at the first valid slot from where they stand, with the
four words as fetched, and the head's WAIT still to be honoured; a malformed clause raises CLAUSE with TPC at the clause and TWORD its head.
RUNAHEAD_FETCH keeps the clause at the end of a split's predicted path so far (predictors: log entry 78) for that split, four of one split at most, until the
split begins it. -/
def Sys2Proof.Claims.clausesBegin : Prop :=
  ∀ (n choice : Nat) (set : SliceSet) (s : State) (g : Group) (w : List Word) (pc : Pc), Tab.find s.groups n = some g → s.groupRuns g = true →
    set ≠ 0 → set = g.splitAt (lowest 0 set) → pc = (g.slice (lowest 0 set)).seq.pc → choice = ((s.cur).map (·.choice)).getD 0 →
    s.fetchClause n g set choice (clauseOf pc) = .words w →
    (clauseOk s.stepB0 w = false → exec (.clauseDecode n set) s = .next (s.presentTrap n
      { stage := 1, cause := 0x03, pc := clauseOf pc, word := w.getD 0 0, faddr := 0, level := 0, kind := 0, async := false, lanes := g.execOf set, slices := set,
        born := 0 } none))
    ∧ (∀ k, clauseOk s.stepB0 w = true → (headSlots (decodeHead (w.getD 0 0))).find? (fun j => decide (slotOf pc ≤ j)) = some k →
      ∃ t h, exec (.clauseDecode n set) s = .next t ∧ Tab.find t.groups n = some h ∧ h.v = g.v ∧ h.m = g.m
        ∧ Tab.find h.gangs s.nextId = some { clause := clauseOf pc, words := w, fresh := true }
        ∧ h.fetched = (g.fetched.filter fun e => !(set.getLsbD e.slice && decide (e.clause = clauseOf pc)))
        ∧ ∀ i, i < g.slices.length → if set.getLsbD i = true
          then (h.slice i).gang = s.nextId ∧ (h.slice i).seq = { (g.slice i).seq with pc := clauseOf pc + .ofNat 57 (4 * k) } else h.slice i = g.slice i)
    ∧ ∀ (a : Pc) (w : List Word) (i : Nat) (split : SliceSet), g.ended = false → g.killed = false → i = choice / 2 ^ 16 % max 1 g.slices.length →
      split = (if (g.slice i).gang = 0 then g.splitAt i else g.gangSlices (g.slice i).gang) → split ≠ 0 →
      (g.fetched.filter fun e => split.getLsbD e.slice).length < 4 → s.fetchClause n g split choice (clauseOf a) = .words w →
      (g.pathOf (s.core (s.coreOf g)) i).2.map clauseOf = some (clauseOf a) →
      ∃ t, exec (.runaheadFetch n a) s = .next t ∧ otherGroups s t n ∧ (s.logRegs = [] → ∀ l, t.readByte l = s.readByte l)
        ∧ Tab.find t.groups n = some { g with fetched := g.fetched ++ [{ slice := lowest 0 split, clause := clauseOf a, words := w }] }

/-- 01 R11: the governor's step moves a core's clock by 20 MHz and no further than 940 and 1,080; every core is in the cycle it was in. -/
def Sys2Proof.Claims.clockSteps : Prop :=
  ∀ (core : Nat) (up : Bool) (s : State), ∃ t, exec (.clockStep core up) s = .next t
    ∧ (t.core core).clock = (if up = true then min 1080 ((s.core core).clock + 20) else max 940 ((s.core core).clock - 20))
    ∧ (t.core core).chart = (s.core core).chart ∧ (∀ k, k ≠ core → t.core k = s.core k) ∧ (∀ k, t.now k = s.now k) ∧ t.groups = s.groups ∧ t.mem = s.mem

/-! Memory words (07 R133-R162) and the completion of long-latency words (03 R48-R54). -/

namespace Sys2Proof.Claims

/-- Bytes and registers of the size codes of Table MEM-5, and the registers a value of one fills. -/
def bytesOfCode (code : Nat) : Nat := [1, 1, 2, 2, 4, 8, 16].getD code 16
def regsOfCode (code : Nat) : Nat := [1, 1, 1, 1, 1, 2, 4].getD code 1
def loaded (code v : Nat) : List Word :=
  match code with
  | 1 => [.ofInt 32 (signed 8 v)]
  | 3 => [.ofInt 32 (signed 16 v)]
  | _ => regsOf (regsOfCode code) v

/-- What a load or store is: destination or data registers, base pair, the other registers it reads, its size code, whether it accesses once for the
split, its operand limits, the bytes it adds to a lane's base, the spaces it takes, its path, and the scope of its acquire or release. -/
structure MemForm where
  d      : BitVec 7
  a      : BitVec 7
  more   : List Use
  code   : Nat
  once   : Bool
  limits : Bool
  off    : Ctx → Nat → Int
  spaces : List Nat
  path   : Path
  order  : Option Nat

noncomputable def lds : List ((BitVec 7 → BitVec 7 → BitVec 8 → Instr) × Nat) :=
  [(Instr.ld8n, 0), (Instr.ld8i, 1), (Instr.ld16n, 2), (Instr.ld16i, 3), (Instr.ld32, 4), (Instr.ld64, 5), (Instr.ld128, 6)]
noncomputable def ldxs : List (Two × Nat) :=
  [(Instr.ldx8n, 0), (Instr.ldx8i, 1), (Instr.ldx16n, 2), (Instr.ldx16i, 3), (Instr.ldx32, 4), (Instr.ldx64, 5), (Instr.ldx128, 6)]
noncomputable def ldks : List ((BitVec 7 → BitVec 7 → BitVec 8 → Instr) × Nat) := [(Instr.ldk32, 4), (Instr.ldk64, 5), (Instr.ldk128, 6)]
noncomputable def ldas : List ((BitVec 2 → BitVec 7 → BitVec 7 → Instr) × Nat) := [(Instr.lda32, 4), (Instr.lda64, 5)]
noncomputable def sts : List ((BitVec 7 → BitVec 7 → BitVec 8 → Instr) × Nat) := [(Instr.st8, 0), (Instr.st16, 2), (Instr.st32, 4), (Instr.st64, 5), (Instr.st128, 6)]
noncomputable def stxs : List (Two × Nat) := [(Instr.stx8, 0), (Instr.stx16, 2), (Instr.stx32, 4), (Instr.stx64, 5), (Instr.stx128, 6)]
noncomputable def stls : List ((BitVec 2 → BitVec 7 → BitVec 7 → Instr) × Nat) := [(Instr.stl32, 4), (Instr.stl64, 5)]

/-- D of a code is its multiple, and the base is an even pair. -/
def shaped (code : Nat) (d a : BitVec 7) : Bool := decide (d.toNat % regsOfCode code = 0) && decide (a.toNat % 2 = 0)

/-- The loads of Tables MEM-5 to MEM-7: `ld` and `lda` with an s destination need an s base, `ldx` an s base and then an s index, `ldk` an s base. -/
def LoadWord (i : Instr) (x : MemForm) : Prop :=
  (∃ e ∈ lds, ∃ d a o, i = e.1 d a o ∧ x = ⟨d, a, [], e.2, isS d && isS a, shaped e.2 d a && (!isS d || isS a), fun _ _ => o.toInt * bytesOfCode e.2, [0, 1, 2, 4, 5, 6, 8, 10], .ls, none⟩)
  ∨ (∃ e ∈ ldxs, ∃ d a b, i = e.1 d a b ∧ x = ⟨d, a, [use b], e.2, isS d && isS b, shaped e.2 d a && isS a && (!isS d || isS b), fun c l => (c.rd b l).toInt * bytesOfCode e.2, [0, 1, 2, 4, 5, 6, 8, 10], .ls, none⟩)
  ∨ (∃ e ∈ ldks, ∃ d a o, i = e.1 d a o ∧ x = ⟨d, a, [], e.2, isS d, shaped e.2 d a && isS a, fun _ _ => o.toInt * bytesOfCode e.2, [0, 1], .k, none⟩)
  ∨ (∃ e ∈ ldas, ∃ sc d a, i = e.1 sc d a ∧ x = ⟨d, a, [], e.2, isS d && isS a, shaped e.2 d a && (!isS d || isS a), fun _ _ => 0, [0, 1, 2, 4, 5, 6, 8, 10],
      if sc = 0 then .ls else .fresh, some sc.toNat⟩)

/-- The stores: one of s data through s pointers accesses once, and not at all with EXEC empty. -/
def StoreWord (i : Instr) (x : MemForm) : Prop :=
  (∃ e ∈ sts, ∃ d a o, i = e.1 d a o ∧ x = ⟨d, a, [], e.2, isS d && isS a, shaped e.2 d a, fun _ _ => o.toInt * bytesOfCode e.2, [0, 1, 2, 4, 5, 6, 8, 10], .ls, none⟩)
  ∨ (∃ e ∈ stxs, ∃ d a b, i = e.1 d a b ∧ x = ⟨d, a, [use b], e.2, isS d && isS b, shaped e.2 d a && isS a, fun c l => (c.rd b l).toInt * bytesOfCode e.2, [0, 1, 2, 4, 5, 6, 8, 10], .ls, none⟩)
  ∨ (∃ e ∈ stls, ∃ sc d a, i = e.1 sc d a ∧ x = ⟨d, a, [], e.2, isS d && isS a, shaped e.2 d a, fun _ _ => 0, [0, 1, 2, 4, 5, 6, 8, 10], .ls, some sc.toNat⟩)

/-- The pointer an access forms for a lane, or for the split. -/
def MemForm.ptr (x : MemForm) (c : Ctx) (l : Option Nat) : DWord := ptrAdd (c.rd64 x.a (l.getD 0)) (x.off c (l.getD 0))
def MemForm.uses (x : MemForm) : List Use := [useN x.d (regsOfCode x.code), useN x.a 2] ++ x.more
/-- What a load holds while it is under way: per lane its pointer and the bytes it reads, with their locations, through its path; a leaf of type 2 takes
an LS access past L1 (08 R169). -/
def MemForm.loadOp (x : MemForm) (s : State) (c : Ctx) (core : Nat) (ptrs : List (Option Nat × DWord)) (place : Option Nat → Target) : LongOp :=
  let op := slowOp c x.d (regsOfCode x.code) (fun _ => []) 0 none
  let bytes (l : Option Nat) : List Nat := (List.range (bytesOfCode x.code)).map fun k => (place l).locs.headD 0 + k
  let path (l : Option Nat) : Path := if x.path = .ls ∧ (place l).type = 2 then .fresh else x.path
  { op with acquire := x.order, dest := x.d.toNat, code := x.code, ptrs := ptrs.map fun e => (e.1.getD 0, e.2),
            reads := ptrs.map fun e => { lane := e.1, cells := (bytes e.1).map fun l => (l, s.pathByte (path e.1) core c.u.choice l) } }
/-- The lanes a load accesses for, and those a store does. -/
def MemForm.loadLanes (x : MemForm) (c : Ctx) : List (Option Nat) := if x.once then [none] else (members c.exec).map some
def MemForm.storeLanes (x : MemForm) (c : Ctx) : List (Option Nat) := if x.once then (if c.exec = 0 then [] else [none]) else (members c.exec).map some

/-- The bytes a store writes, by location: the pointer of each lane, in lane order, names the first byte of each copy. -/
def MemForm.stored (x : MemForm) (c : Ctx) (place : Option Nat → Target) : List (Nat × Byte) :=
  (x.storeLanes c).flatMap fun l => (place l).locs.flatMap fun base => (List.range (bytesOfCode x.code)).map fun i =>
    (base + i, .ofNat 8 ((c.rdN (x.d.toNat + i / 4) (l.getD 0)).toNat / 2 ^ (8 * (i % 4))))

/-- What the last of some cells gives a location. -/
def lastAt (cells : List (Nat × Byte)) (l : Nat) : Option Byte := ((cells.filter fun c => decide (c.1 = l)).getLast?).map (·.2)

/-- The location lies in the ring a slice log writes its records to (17 R354). -/
def inLogRing (s : State) (l : Nat) : Prop := ∃ n, (s.logFilter n).en = true ∧ (s.logFilter n).ring ≤ l ∧ l < (s.logFilter n).ring + 16 * (s.logFilter n).size

/-- The group stands as before, with one more long-latency word under way, under a fresh name. -/
def underway (s t : State) (u : Issue) (g : Group) (op : LongOp) : Prop :=
  (∃ n, s.nextId ≤ n ∧ (s.logRegs = [] → n = s.nextId)
    ∧ Tab.find t.groups u.group = some { g with longs := Tab.put g.longs n { op with since := s.nowOf g } }) ∧ otherGroups s t u.group

/-- The translation of no pointer reads a table entry that the write of an `stl` of the core still in flight covers (08 R177), and where the word acquires
the group's atomics and the writes of its `stl`s have been performed (07 R158, 09 R186). -/
abbrev mayAccess (s : State) (gid : Nat) (ag : Agent) (acquires : Bool) (ptrs : List (Option Nat × DWord)) : Prop :=
  (∀ e ∈ ptrs, s.entryHeld ag e.2 = false) ∧ (acquires = true → s.acquireWaits gid ag.core = false)

end Sys2Proof.Claims

/-- 07 R135, R143-R147: a load checks every pointer, in lane order, and goes under way with its destinations marked and the bytes each lane reads; a failing
pointer is a fault found after issue, with FADDR the pointer, and no lane then reads; what its walks passed stays held (log entry 10). No byte of memory
changes outside the slice logs' rings. A load whose operands break the limits raises OPND (an indexed load with an s destination and a v index among them,
log entry 33). That the bytes are those the path gives as the word issues is log entry 1 (DESIGN CHOICE). -/
def Obligations.LoadWords : Prop :=
  ∀ (i : Instr) (x : MemForm) (s : State) (u : Issue) (g : Group) (ag : Agent) (ptrs : List (Option Nat × DWord)), LoadWord i x → Issuing s u g →
    ag = s.agentOf u.group (u.ctx g).g → ptrs = (x.loadLanes (u.ctx g)).map (fun l => (l, x.ptr (u.ctx g) l)) →
    (u.snap = none → x.limits = false → exec i s = .next (s.wordTrapped u ((u.ctx g).trap 5 0x05)))
    ∧ (x.limits = true → Clear s (u.ctx g) x.uses → flagRoom s (u.ctx g) → mayAccess s u.group ag x.order.isSome ptrs →
      (∀ place : Option Nat → Target, (∀ e ∈ ptrs, s.checkPtr ag x.spaces e.2 (bytesOfCode x.code) .read = .ok (place e.1)) →
        (∀ e ∈ ptrs, s.atomBusy u.group ((List.range (bytesOfCode x.code)).map ((place e.1).locs.headD 0 + ·)) = false) →
        ∃ t, exec i s = .next (State.wordDone u t)
          ∧ underway s t u g (x.loadOp s (u.ctx g) ag.core ptrs place)
          ∧ ∀ l, ¬ inLogRing s l → t.readByte l = s.readByte l)
      ∧ (∀ before l p f after, ptrs = before ++ (l, p) :: after → (∀ e ∈ before, ∃ y, s.checkPtr ag x.spaces e.2 (bytesOfCode x.code) .read = .ok y) →
        s.checkPtr ag x.spaces p (bytesOfCode x.code) .read = .error f →
        exec i s = .next (State.wordDone u (slowEffect ((s.walks ag x.spaces (bytesOfCode x.code) .read (ptrs.map (·.2))).linkUsed u.group f.cause) (u.ctx g)
          { slowOp (u.ctx g) x.d (regsOfCode x.code) (fun _ => []) 0
              (some { stage := 7, cause := f.cause, pc := u.pc, word := u.word, faddr := p, level := f.level, kind := f.kind, async := true,
                      lanes := (u.ctx g).exec, slices := u.slices, born := 0 })
            with ptrs := ptrs.map fun e => (e.1.getD 0, e.2) }))))

/-- 07 R134, R135, R142, R143, R149: a store checks every pointer before any byte is written. Its bytes are, by location, those of the data registers, the
highest lane's last; scratchpads and L2 scratch hold them at once, and elsewhere the issuing core reads them at once and the home memory keeps its bytes
until the store is performed, which the write of an `stl` of cluster scope or wider is at once where no pseudo-channel holds it back. No register changes.
A failing pointer traps and nothing is written, and what its walks passed stays held (log entry 10). When which bytes are seen is the model's choice: log
entries 1 and 67. -/
def Obligations.StoreWords : Prop :=
  ∀ (i : Instr) (x : MemForm) (s s1 : State) (u : Issue) (g : Group) (ag : Agent) (ptrs : List (Option Nat × DWord)), StoreWord i x → Issuing s u g →
    ag = s.agentOf u.group (u.ctx g).g → ptrs = (x.storeLanes (u.ctx g)).map (fun l => (l, x.ptr (u.ctx g) l)) →
    (u.snap = none → x.limits = false → exec i s = .next (s.wordTrapped u ((u.ctx g).trap 5 0x05)))
    ∧ (x.limits = true → Clear s (u.ctx g) x.uses → (∀ e ∈ ptrs, s.entryHeld ag e.2 = false) →
      (∀ place : Option Nat → Target, (∀ e ∈ ptrs, s.checkPtr ag x.spaces e.2 (bytesOfCode x.code) .write = .ok (place e.1)) →
        s.atomBusy u.group ((x.stored (u.ctx g) place).map (·.1)) = false →
        (match x.order with | some sc => s.release u.group ag.core sc = some s1 | none => s1 = s) →
        ∃ t, exec i s = .next (State.wordDone u t) ∧ t.groups = s.groups
          ∧ (∀ l, 3 * 2 ^ 64 ≤ l → t.readByte l = (lastAt (x.stored (u.ctx g) place) l).getD (s1.readByte l))
          ∧ ∀ l, l < 3 * 2 ^ 64 → ¬ inLogRing s l →
            t.readByte l = (if (∃ sc, x.order = some sc ∧ sc ≠ 0) ∧ ∀ c ∈ x.stored (u.ctx g) place, c.1 < 3 * 2 ^ 64 → s.heldAt c.1 = false
              then (lastAt (x.stored (u.ctx g) place) l).getD (s1.readByte l) else s1.readByte l)
            ∧ t.freshByte ag.core l = (lastAt (x.stored (u.ctx g) place) l).getD (s1.freshByte ag.core l))
      ∧ (∀ before l p f after, ptrs = before ++ (l, p) :: after → (∀ e ∈ before, ∃ y, s.checkPtr ag x.spaces e.2 (bytesOfCode x.code) .write = .ok y) →
        s.checkPtr ag x.spaces p (bytesOfCode x.code) .write = .error f →
        exec i s = .next ((s.walks ag x.spaces (bytesOfCode x.code) .write (ptrs.map (·.2))).wordTrapped u
          { stage := 7, cause := f.cause, pc := u.chain, word := u.word, faddr := p, level := f.level, kind := f.kind, async := false,
            lanes := (u.ctx g).exec, slices := u.slices, born := 0 })))

/-- 03 R47, R48, R50, R54, 07 R158: a long-latency word that is ready writes its results, its marks go and its flag's count falls by one, a flag so cleared
lets a waiting clause issue from the next cycle on, and an ordered load acquires; one that faulted writes nothing and presents its trap. -/
def Obligations.LongWordsEnd : Prop :=
  ∀ (n op : Nat) (s : State) (g : Group) (o : LongOp), Tab.find s.groups n = some g → Tab.find g.longs op = some o →
    (o.fault = none → o.waiting = 0 → (∀ r ∈ o.reads, ∀ c ∈ r.cells, c.2 ≠ none) → (g.spilled = true → g.killed = false → ∀ r ∈ o.vMarks, r < 48) →
      ∃ t h, exec (.resultWriteback n op) s = .next t ∧ t.mem = s.mem ∧ otherGroups s t n ∧ Tab.find t.groups n = some h
        ∧ Tab.find h.longs op = none ∧ (∀ k, k ≠ op → Tab.find h.longs k = Tab.find g.longs k) ∧ h.fpflags = g.fpflags ||| o.fpflags
        ∧ (h.flagCount o.flag = 0 → Tab.get 0 h.flagTil o.flag = s.nowOf g + 1)
        ∧ (o.reads = [] → (∀ w ∈ o.vWrites, w.1 % 128 < 128) → ∀ r l, l < 128 →
            h.readV r l = (((o.vWrites.filter fun w => decide (w.1 = r * 128 + l)).getLast?).map (·.2)).getD (g.readV r l))
        ∧ (o.vWrites = [] → o.dest < 96 → (o.reads.map (·.lane)).Nodup → ∀ r ∈ o.reads, ∀ l, r.lane = some l → l < 128 → (∀ q ∈ o.reads, ∃ k, q.lane = some k ∧ k < 128) →
            ∀ k, k < regsOfCode o.code → o.code < 7 →
            h.readV (o.dest + k) l = (loaded o.code (bytesToNat (r.cells.map fun c => c.2.getD 0))).getD k 0)
        ∧ (∀ sc, o.acquire = some sc → sc ≠ 0 → (t.core (s.coreOf g)).l1 = [])
        ∧ (o.acquire = none → t.cores = s.cores))
    ∧ ∀ tr, o.fault = some tr →
      exec (.asyncFault n op) s = .next ((s.onGroup n fun h => h.endLong (s.nowOf h) op).presentTrap n tr (some op))

/-- 07 R149, R154, 08 R168: a store in flight is performed at its home, whole or, as the choice has it, one lane's access of it: those bytes replace the
memory's (log entry 92), the last cell winning, and leave the core's list, but for those in a pseudo-channel held back, which stay; they wait for an earlier store of the
core to one of their locations. -/
def Sys2Proof.Claims.storesArePerformed : Prop :=
  ∀ (core op : Nat) (s : State) (before after : List PendingStore) (p : PendingStore) (now rest : List (Nat × Byte)),
    (s.core core).stores = before ++ p :: after → p.id = op → (∀ q ∈ before ++ after, q.id ≠ op) →
    now = p.cells.filter (fun c => p.takes s.pick c && !s.heldAt c.1) → rest = p.cells.filter (fun c => !(p.takes s.pick c && !s.heldAt c.1)) →
    (now ≠ [] → (∀ c ∈ now, ∀ q ∈ before, ∀ d ∈ q.cells, d.1 ≠ c.1) →
      ∃ t, exec (.writeAcknowledgedAtHome core op) s = .next t ∧ t.groups = s.groups
        ∧ (s.logRegs = [] → (t.core core).stores = before ++ (if rest = [] then [] else [{ p with cells := rest }]) ++ after)
        ∧ (rest = [] → ∀ q ∈ (t.core core).stores, q.id ≠ op) ∧ (∀ q ∈ before ++ after, q ∈ (t.core core).stores)
        ∧ ∀ l, ¬ inLogRing s l → t.readByte l = (lastAt now l).getD (s.readByte l))
    ∧ ((now = [] ∨ ∃ c ∈ now, ∃ q ∈ before, ∃ d ∈ q.cells, d.1 = c.1) → exec (.writeAcknowledgedAtHome core op) s = .next s)
    ∧ ((∀ c ∈ p.cells, p.takes s.pick c = true) ∨ ∃ x, ∀ c ∈ p.cells, p.takes s.pick c = decide (c.1 / p.unit = x))
    ∧ (s.pick % 2 ^ 16 = 0 → ∀ c ∈ p.cells, p.takes s.pick c = true)

/-- 07 R155, R159: a release at cluster scope or wider leaves no store of the core in flight, and the memory then holds what the core read. 07 R149: what
`pfence.ls` waits for leaves none of the group's own, wherever the memory is not held back. -/
def Sys2Proof.Claims.releasesPerformStores : Prop :=
  ∀ (s t : State) (gid core : Nat),
    (∀ scope, s.release gid core scope = some t → s.atomsOpen gid = false
      ∧ (scope ≠ 0 → (s.logRegs = [] → (t.core core).stores = []) ∧ (∀ l, ¬ inLogRing s l → t.readByte l = s.freshByte core l) ∧ t.groups = s.groups)
      ∧ (scope = 0 → t = s))
    ∧ (s.ownWrites gid core = some t → s.atomsOpen gid = false ∧ (∀ p ∈ (t.core core).stores, p.group ≠ gid) ∧ t.groups = s.groups
      ∧ ∀ l, s.heldAt l = false → ¬ inLogRing s l → t.readByte l = s.freshByte core l)

/-- 07 R148-R151: `fence` releases and acquires in that order; one whose release cannot be performed yet, or whose acquire would come before an atomic or
`stl` of the group, issues and holds back later words of its group, and in a chain it waits (log entry 29). `pfence` waits for the group's own writes (.ls),
with it, where another path is named, empties L1 and puts the core's stores that still wait before what the other paths read, empties the K cache (.k) and
drops clauses fetched ahead (.i). `icinv` drops the line of its address from the core's instruction cache, and a pointer elsewhere does nothing, as does one
without a translation (log entry 79). `pref` changes no register and no byte of memory outside the slice logs' rings. -/
def Obligations.FencesAndCacheWords : Prop :=
  ∀ (s s1 : State) (u : Issue) (g : Group) (core : Nat) (ag : Agent), Issuing s u g → core = s.coreOf (u.ctx g).g → ag = s.agentOf u.group (u.ctx g).g →
    (∀ (r q : BitVec 1) (sc : BitVec 2), Clear s (u.ctx g) [] →
      ((if r = 1 then s.release u.group core sc.toNat = some s1 else s1 = s) → (q = 1 → s1.acquireWaits u.group core = false) →
        exec (.fence r q sc) s = .next (State.wordDone u (if q = 1 ∧ sc ≠ 0 then s1.onCore core fun k => { k with l1 := [] } else s1)))
      ∧ ((r = 1 ∧ s.release u.group core sc.toNat = none)
          ∨ ((if r = 1 then s.release u.group core sc.toNat = some s1 else s1 = s) ∧ q = 1 ∧ s1.acquireWaits u.group core = true) →
        exec (.fence r q sc) s = .next (if u.snap = none
          then State.wordDone u (s.onGroup u.group fun h =>
            { h with fencing := some (if r = 1 then sc.toNat else 4, if q = 1 then some sc.toNat else none) }) else s.wordWaits u)))
    ∧ (∀ p : BitVec 4, Clear s (u.ctx g) [] → (if p.getLsbD 0 = true then s.ownWrites u.group core = some s1 else s1 = s) →
      ∃ t h, exec (.pfence p) s = .next (State.wordDone u t) ∧ t.mem = s1.mem ∧ Tab.find t.groups u.group = some h
        ∧ h = (if p.getLsbD 3 = true then { g with fetched := [] } else g)
        ∧ t.core core = { s1.core core with
            l1 := if p.getLsbD 0 = true ∧ 1 < p.toNat then [] else (s1.core core).l1, kc := if p.getLsbD 1 = true then [] else (s1.core core).kc,
            stores := if p.getLsbD 0 = true ∧ 1 < p.toNat then (s1.core core).stores.map (fun q => { q with fenced := true }) else (s1.core core).stores })
    ∧ (∀ p : BitVec 7, isS p = true → isEven p = true → Clear s (u.ctx g) [useN p 2] → s.entryHeld ag ((u.ctx g).rd64 p 0) = false →
      let q := ((u.ctx g).rd64 p 0).toNat
      let walked := s.walks { ag with priv := true } [0] 1 .read [(u.ctx g).rd64 p 0]
      (∀ x, q < 2 ^ 57 → s.translate ag.core ag.ctx 0 q .read true = .ok x →
        exec (.icinv p) s = .next (State.wordDone u (walked.onCore ag.core fun k => { k with ic := Tab.erase k.ic (x.pa / 128) })))
      ∧ (∀ f, q < 2 ^ 57 → s.translate ag.core ag.ctx 0 q .read true = .error f → exec (.icinv p) s = .next (State.wordDone u walked))
      ∧ (2 ^ 57 ≤ q → exec (.icinv p) s = .next (State.wordDone u s)))
    ∧ (Clear s (u.ctx g) [] → exec .icinvAll s = .next (State.wordDone u (s.onCore core fun k => { k with ic := [] })))
    ∧ ∀ (i : Instr) (a : BitVec 7) (o : BitVec 8), i = .prefL1 a o ∨ i = .prefL2 a o → isEven a = true → Clear s (u.ctx g) [useN a 2] →
      ∃ t, exec i s = .next (State.wordDone u t) ∧ t.groups = s.groups ∧ (∀ l, ¬ inLogRing s l → t.readByte l = s.readByte l)
        ∧ (i = .prefL2 a o → s.logRegs = [] → t.cores = s.cores)

namespace Sys2Proof.Claims

/-- What a leaf of a level gives an access (08 R168, R170, R171): XPERM where it does not permit it, else XRSV where the physical address lies past device
memory in a space of it, else the address and the leaf's type. -/
def leafGives (r : Except PtrFault Xlat) (lvl space pa type : Nat) (k : Access) (allowed : Prop) : Prop :=
  (¬ allowed → r = .error { cause := 0x0B, level := .ofNat 3 lvl, kind := k.code })
  ∧ (allowed → ¬ (space = 1 ∨ space = 2) → 2 ^ 39 ≤ pa → r = .error { cause := 0x0A, level := .ofNat 3 lvl, kind := k.code })
  ∧ (allowed → space = 1 ∨ space = 2 ∨ pa < 2 ^ 39 → ∃ x, r = .ok x ∧ x.pa = pa ∧ x.type = type)

end Sys2Proof.Claims

/-- 08 R168, R170-R172, R174 with Tables XLT-2 and XLT-4: where no TLB of the core holds the address, table entries translate it from the level the walk
cache gives, the root's where it holds nothing of the context, each level indexed by its nine bits of the VA; an entry without V stops the walk with XNP,
one with a reserved bit set with XRSV, and a leaf gives the address or its fault, each with the level and the kind of access. A translation that a TLB
holds answers as its leaf does, and the walk of an access leaves its translation held, which stores to the table then do not change (log entry 10). -/
def Sys2Proof.Claims.translationByWalk : Prop :=
  (∀ (s : State) (core ctx space va : Nat) (k : Access) (priv : Bool) (entry : Nat → Nat) (table : Nat → Nat) (first lvl : Nat),
    s.heldXlat core ctx space va = none → 1 ≤ first → s.walkStart (core / 144) ctx space va = ((List.range 6).drop first, table first) →
    (∀ n, 1 ≤ n → entry n = s.readNat (table n + 8 * (va / 2 ^ (57 - 9 * n) % 2 ^ 9)) 8) →
    (∀ n, 1 ≤ n → table (n + 1) = entry n / 2 ^ 12 % 2 ^ 40 * 2 ^ 12) → first ≤ lvl → lvl ≤ 5 →
    (∀ n, first ≤ n → n < lvl → (entry n).testBit 0 = true ∧ Xlat.reserved n (entry n) = false ∧ ¬ (n = 4 ∧ (entry n).testBit 1 = true)) →
    ((entry lvl).testBit 0 = false → s.translate core ctx space va k priv = .error { cause := 0x09, level := .ofNat 3 lvl, kind := k.code })
    ∧ ((entry lvl).testBit 0 = true → Xlat.reserved lvl (entry lvl) = true →
      s.translate core ctx space va k priv = .error { cause := 0x0A, level := .ofNat 3 lvl, kind := k.code })
    ∧ ((entry lvl).testBit 0 = true → Xlat.reserved lvl (entry lvl) = false → lvl = 5 ∨ (lvl = 4 ∧ (entry lvl).testBit 1 = true) →
      let n := 57 - 9 * lvl
      leafGives (s.translate core ctx space va k priv) lvl space (entry lvl / 2 ^ n % 2 ^ (52 - n) * 2 ^ n + va % 2 ^ n) (entry lvl / 2 ^ 6 % 2 ^ 2) k
        ((priv = true ∨ (entry lvl).testBit 4 = true) ∧ (k = .write ∨ k = .atomic → (entry lvl).testBit 2 = true) ∧ (k = .fetch → (entry lvl).testBit 3 = true))))
  ∧ (∀ (s : State) (die ctx space va : Nat), (∀ e ∈ Tab.get [] s.walkCache die, ¬ (e.ctx = ctx ∧ e.space = space ∧ e.root = (s.context ctx).rootOf space)) →
    s.walkStart die ctx space va = ([1, 2, 3, 4, 5], (s.context ctx).rootOf space))
  ∧ (∀ (s : State) (core ctx space va : Nat) (k : Access) (priv : Bool) (e : TlbEntry), s.heldXlat core ctx space va = some e →
    leafGives (s.translate core ctx space va k priv) e.level space ((e.pa + (va - e.va)) % 2 ^ 52) e.type k
      ((priv = true ∨ e.u = true) ∧ (k = .write ∨ k = .atomic → e.w = true) ∧ (k = .fetch → e.x = true)))
  ∧ ∀ (s : State) (a : Agent) (k : Access) (space va : Nat) (cells : List (Nat × Byte)) (x : Xlat), s.translate a.core a.ctx space va k a.priv = .ok x →
    ∃ y, ((s.walkPage a k space va).writeBytes cells).translate a.core a.ctx space va k a.priv = .ok y ∧ y.pa = x.pa ∧ y.type = x.type

/-! Atomics and waypoint sections (09 R180-R204). -/

namespace Sys2Proof.Claims

noncomputable def atoms : List ((BitVec 7 → BitVec 7 → BitVec 7 → Instr) × AtomOp × Nat × Nat) :=
  [(Instr.atomAddI32, .add32, 4, 1), (Instr.atomAddI64, .add64, 8, 2), (Instr.atomMinI32, .minS, 4, 1), (Instr.atomMaxI32, .maxS, 4, 1),
   (Instr.atomMinN32, .minU, 4, 1), (Instr.atomMaxN32, .maxU, 4, 1), (Instr.atomAnd32, .and, 4, 1), (Instr.atomOr32, .or, 4, 1), (Instr.atomXor32, .xor, 4, 1),
   (Instr.atomXchg32, .xchg32, 4, 1), (Instr.atomXchg64, .xchg64, 8, 2), (Instr.atomCas32, .cas32, 4, 2), (Instr.atomCas64, .cas64, 8, 4),
   (Instr.atomAddF32, .addF32, 4, 1), (Instr.atomIncN32, .inc, 4, 1), (Instr.atomDecN32, .dec, 4, 1)]

/-- Table ATM-1: what the location holds afterwards, from what it held, the operand and the swap value; none where a `cas` writes nothing. -/
def atomResult (o : AtomOp) (old b swap : Nat) : Option Nat :=
  let bits (f : Bool → Bool → Bool) : Nat := (bitwise f (.ofNat 32 old) (.ofNat 32 b)).toNat
  match o with
  | .add32 => some ((old + b) % 2 ^ 32)
  | .add64 => some ((old + b) % 2 ^ 64)
  | .minS => some (if signed 32 old ≤ signed 32 b then old else b)
  | .maxS => some (if signed 32 old ≤ signed 32 b then b else old)
  | .minU => some (min old b)
  | .maxU => some (max old b)
  | .and => some (bits fun x y => x && y)
  | .or => some (bits fun x y => x || y)
  | .xor => some (bits fun x y => x != y)
  | .xchg32 => some b
  | .xchg64 => some b
  | .cas32 => if old = b then some swap else none
  | .cas64 => if old = b then some swap else none
  | .addF32 => some (Fmt.f32.add .rne old b).bits
  | .inc => some (if b ≤ old then 0 else old + 1)
  | .dec => some (if old = 0 ∨ b < old then b else old - 1)

/-- The value of n registers from field b on in a lane, register r of them and on. -/
def argOf (c : Ctx) (b : BitVec 7) (r n l : Nat) : DWord :=
  if n = 2 then pairOf (c.rdN (b.toNat + r) l) (c.rdN (b.toNat + r + 1) l) else (c.rdN (b.toNat + r) l).setWidth 64
/-- Operand and swap value of a lane. -/
def operandOf (c : Ctx) (o : AtomOp) (b : BitVec 7) (l : Nat) : DWord × DWord :=
  match o with
  | .cas32 => (argOf c b 0 1 l, argOf c b 1 1 l)
  | .cas64 => (argOf c b 0 2 l, argOf c b 2 2 l)
  | .add64 => (argOf c b 0 2 l, 0)
  | .xchg64 => (argOf c b 0 2 l, 0)
  | _ => (argOf c b 0 1 l, 0)

/-- The requests of a way word: each active lane with its own key, or the lowest one for an s pair (R192). -/
def wayRequests (c : Ctx) (a : BitVec 7) : Tab DWord :=
  if isS a = true then (if c.exec = 0 then [] else [(c.firstLane, c.rd64 a 0)]) else (members c.exec).map fun l => (l, c.rd64 a l)
/-- No two requesting lanes name one key. -/
def distinctKeys (ks : Tab DWord) : Prop := ∀ e ∈ ks, ∀ f ∈ ks, e.2 = f.2 → e.1 = f.1

/-- The word's requests are on their way, in lane order, and the group keeps what it will need when they are answered. -/
def wayUnderway (s t : State) (u : Issue) (g : Group) (c : Ctx) (minor : Nat) (ks : Tab DWord) (ask : Nat → DWord → Ask) : Prop :=
  t.net = s.net ++ ks.map (fun e => { pod := Ops.podOfKey e.2, group := u.group, op := s.nextId, lane := e.1, ask := ask e.1 e.2 })
  ∧ t.mem = s.mem ∧ otherGroups s t u.group ∧ ∃ h, Tab.find t.groups u.group = some h ∧ h.v = g.v ∧ h.m = g.m
    ∧ Tab.find h.ways s.nextId = some
      { minor := minor, word := u.word, pc := u.pc, slices := u.slices, exec := c.exec, keys := ks, start := c.g.time (s.nowOf c.g),
        limit := c.g.wayto.toNat, waiting := ks.length, granted := [], failed := [] }
/-- Its split waits for them. -/
def heldByWay (s t : State) (u : Issue) : Prop :=
  ∃ h, Tab.find t.groups u.group = some h ∧ ∀ i, i < h.slices.length → u.slices.getLsbD i = true → (h.slice i).seq.wait = .way s.nextId

/-- A request of a word is on its way or queued at its home. -/
def requestsOpen (s : State) (n op : Nat) : Prop := (∃ q ∈ s.net, q.group = n ∧ q.op = op) ∨ ∃ e ∈ s.podQ, ∃ q ∈ e.2, q.group = n ∧ q.op = op
/-- A reply on its way that refuses a lane of a word. -/
def lateFailure (n op : Nat) (q : Reply) : Option (Nat × BitVec 8) :=
  match q.answer with
  | .failed d => if q.group = n ∧ q.op = op then some (q.lane, d) else none
  | _ => none

/-- The state with a pod's queue replaced. -/
def withQueue (s : State) (pod : Nat) (q : List Request) : State := { s with podQ := Tab.set [] s.podQ pod q }

end Sys2Proof.Claims

/-- 09 R182-R185: an atomic checks every pointer at issue and goes under way with one request per active lane, in lane order, for the home pod of its
location; D as s0 asks for no old value; a failing pointer traps and nothing is sent, and what its walks passed stays held (log entry 10). -/
def Sys2Proof.Claims.atomicWordsIssue : Prop :=
  ∀ e ∈ atoms, ∀ (d a b : BitVec 7) (s s1 : State) (u : Issue) (g : Group) (ag : Agent) (ptrs : List (Option Nat × DWord)) (limits : Bool), Issuing s u g →
    limits = (isEven a && decide (b.toNat % e.2.2.2 = 0) && (decide (d.toNat = 96) || (decide (d.toNat < 96) && decide (d.toNat % (e.2.2.1 / 4) = 0)))) →
    ag = s.agentOf u.group (u.ctx g).g → ptrs = (members (u.ctx g).exec).map (fun l => (some l, (u.ctx g).rd64 a l)) →
    (u.snap = none → limits = false → exec (e.1 d a b) s = .next (s.wordTrapped u ((u.ctx g).trap 5 0x05)))
    ∧ (limits = true → Clear s (u.ctx g) [useN a 2, useN b e.2.2.2, useN d (if d.toNat = 96 then 1 else e.2.2.1 / 4)] → (∀ p ∈ ptrs, s.entryHeld ag p.2 = false) →
      (∀ (place : Option Nat → Target) (locs : Option Nat → List Nat), flagRoom s (u.ctx g) →
        (∀ p ∈ ptrs, s.checkPtr ag [0, 1, 2, 4, 5, 8, 10] p.2 e.2.2.1 .atomic = .ok (place p.1)) → (∀ l, locs l = (List.range e.2.2.1).map ((place l).locs.headD 0 + ·)) →
        s.drainFor ag.core (ptrs.flatMap fun p => locs p.1) = some s1 →
        ∃ t h n op, exec (e.1 d a b) s = .next (State.wordDone u t) ∧ Tab.find t.groups u.group = some h ∧ h = { g with longs := Tab.put g.longs n op }
          ∧ s.nextId ≤ n ∧ (s.logRegs = [] → n = s.nextId) ∧ op.ptrs = ptrs.map (fun p => (p.1.getD 0, p.2))
          ∧ op.vMarks = (if d.toNat = 96 then [] else (List.range (e.2.2.1 / 4)).map (d.toNat + ·)) ∧ op.sMarks = [] ∧ op.waiting = ptrs.length
          ∧ op.dest = d.toNat ∧ op.code = e.2.2.1 ∧ op.fault = none ∧ op.vWrites = [] ∧ op.sWrites = [] ∧ op.reads = [] ∧ op.flag = u.flag
          ∧ op.exec = (u.ctx g).exec ∧ op.slices = u.slices
          ∧ t.net = s.net ++ ptrs.map (fun p =>
            { pod := Ops.podOfLoc ag.core ((place p.1).locs.headD 0), group := u.group, op := n, lane := p.1.getD 0,
              ask := .atom e.2.1 (locs p.1) (operandOf (u.ctx g) e.2.1 b (p.1.getD 0)).1 (operandOf (u.ctx g) e.2.1 b (p.1.getD 0)).2,
              through := (place p.1).type == 2 })
          ∧ ∀ l, ¬ inLogRing s l → t.readByte l = s1.readByte l)
      ∧ (∀ before l p f after, ptrs = before ++ (l, p) :: after → (∀ q ∈ before, ∃ y, s.checkPtr ag [0, 1, 2, 4, 5, 8, 10] q.2 e.2.2.1 .atomic = .ok y) →
        s.checkPtr ag [0, 1, 2, 4, 5, 8, 10] p e.2.2.1 .atomic = .error f →
        exec (e.1 d a b) s = .next ((s.walks ag [0, 1, 2, 4, 5, 8, 10] e.2.2.1 .atomic (ptrs.map (·.2))).wordTrapped u { (u.ctx g).trap 7 f.cause with faddr := p, level := f.level, kind := f.kind })))

/-- 09 R181, R182, R184, R187 with Table ATM-1: the service group reads a location and writes it in one step and answers with what it held; a `cas` whose
compare fails writes nothing; a round serves up to 64 requests one after another in queue order (of `wayin`s too, but that a refused one fails only once
every home has taken up its requests). -/
def Sys2Proof.Claims.atomicsAreServed : Prop :=
  (∀ (pod base old : Nat) (r : Request) (o : AtomOp) (b c : DWord) (s : State), Tab.get [] s.podQ pod = [r] →
    r.ask = .atom o ((List.range o.size).map (base + ·)) b c → (∀ k, k < o.size → s.heldAt (base + k) = false) → old = s.readNat base o.size →
    b.toNat < 2 ^ (8 * o.size) → c.toNat < 2 ^ (8 * o.size) →
    ∃ t, exec (.serviceRound pod) s = .next t ∧ t.groups = s.groups ∧ Tab.get [] t.podQ pod = []
      ∧ t.replies = s.replies ++ [{ pod := r.pod, group := r.group, op := r.op, lane := r.lane, answer := .old (.ofNat 64 old) }]
      ∧ (s.logRegs = [] → t.readNat base o.size = (atomResult o old b.toNat c.toNat).getD old)
      ∧ ∀ l, l < base ∨ base + o.size ≤ l → ¬ inLogRing s l → t.readByte l = s.readByte l)
  ∧ ∀ (pod : Nat) (r : Request) (rest : List Request) (s t : State), rest.length ≤ 63 → (∀ q ∈ r :: rest, s.asksHeld q = false) →
    (∀ q ∈ r :: rest, ∀ key seq, q.ask ≠ .wayin key seq) →
    exec (.serviceRound pod) (withQueue s pod [r]) = .next t → exec (.serviceRound pod) (withQueue s pod (r :: rest)) = exec (.serviceRound pod) (withQueue t pod rest)

/-- 09 R191-R198: the words on waypoint sections. Where two requesting lanes of `wayin`, `wayskip` or `waytry` name one key the word raises WAYDUP before
anything is sent, with that key in FADDR (of the lowest such lane, log entry 36); a word without a requesting lane sends nothing; `wayout` releases at device scope before it sends. -/
def Obligations.WaypointWords : Prop :=
  ∀ (d : BitVec 3) (v a b : BitVec 7) (s : State) (u : Issue) (g : Group) (c : Ctx) (ks : Tab DWord), Issuing s u g → c = u.ctx g → ks = wayRequests c a → isEven a = true →
    (Clear s c [useN a 2, use b] →
      (∀ k, sharedKey ks = some k → ∀ i ∈ [Instr.wayin a b, .wayskip a b, .waytry d a b], exec i s = .next (s.wordTrapped u { c.trap 7 0x12 with faddr := k.2 }))
      ∧ (distinctKeys ks → ks ≠ [] →
        (∃ t, exec (.wayin a b) s = .next (State.wordDone u t) ∧ wayUnderway s t u g c 0 ks (fun l k => .wayin k (c.rd b l)) ∧ heldByWay s t u)
        ∧ (∃ t, exec (.wayskip a b) s = .next (State.wordDone u t) ∧ wayUnderway s t u g c 2 ks (fun l k => .wayskip k (c.rd b l)) ∧ heldByWay s t u)
        ∧ (flagRoom s c → ∃ t h op, exec (.waytry d a b) s = .next (State.wordDone u t) ∧ wayUnderway s t u g c 3 ks (fun l k => .waytry k (c.rd b l))
            ∧ Tab.find t.groups u.group = some h ∧ Tab.find h.longs s.nextId = some op ∧ op.mask = some (d.toNat, 0) ∧ op.waiting = ks.length))
      ∧ (isS a = true → c.exec = 0 → exec (.wayin a b) s = .next (State.wordDone u s) ∧ exec (.wayskip a b) s = .next (State.wordDone u s)
        ∧ (flagRoom s c → exec (.waytry d a b) s = .next (State.wordDone u (slowEffect s c (slowOp c 96 0 (fun _ => []) 0 none))))))
    ∧ (Clear s c [useN a 2] →
      (∀ s1, ks ≠ [] → s.release u.group (s.coreOf c.g) 2 = some s1 →
        ∃ t, exec (.wayout a) s = .next (State.wordDone u t) ∧ wayUnderway s1 t u g c 1 ks (fun _ k => .wayout k) ∧ heldByWay s1 t u)
      ∧ (ks ≠ [] → ∃ t, exec (.wayclose a) s = .next (State.wordDone u t) ∧ wayUnderway s t u g c 4 ks (fun _ k => .wayclose k) ∧ heldByWay s t u)
      ∧ (isS a = true → c.exec = 0 → exec (.wayout a) s = .next (State.wordDone u s) ∧ exec (.wayclose a) s = .next (State.wordDone u s)))
    ∧ (isS v = false → isEven v = true → Clear s c [useN a 2, useN v 2] → flagRoom s c →
      (ks = [] → exec (.wayqry v a) s = .next (State.wordDone u (slowEffect s c { slowOp c v 2 (fun _ => []) 0 none with dest := v.toNat })))
      ∧ (ks ≠ [] → ∃ t h op, exec (.wayqry v a) s = .next (State.wordDone u t) ∧ wayUnderway s t u g c 5 ks (fun _ k => .wayqry k)
        ∧ Tab.find t.groups u.group = some h ∧ Tab.find h.longs s.nextId = some op ∧ op.dest = v.toNat ∧ op.vMarks = [v.toNat, v.toNat + 1] ∧ op.waiting = ks.length))

/-- 09 R188-R198: what the service group makes of one waypoint request. A request on a poisoned key fails WAYPOISON, one with a number in use WAYDUP, one for
a lane that holds 15 sections, those it waits for counted (log entry 80), WAYFULL, in that order. A wait is recorded and the key settled; a `waytry` is granted only where its number is current on a
free section; the holder's `wayout` frees the section at the next number; a skip is recorded as tentative; `wayclose` and `wayqry` follow the entry. -/
def Sys2Proof.Claims.waypointRequests : Prop :=
  ∀ (pod : Nat) (r : Request) (s q : State) (key : DWord) (seq : Word) (e : WayEntry) (g : Group) (answer : Answer → State → State),
    Tab.get [] s.podQ pod = [r] → q = withQueue s pod [] → s.way key = some e → Tab.find s.groups r.group = some g →
    (∀ w, Tab.find g.ways r.op = some w → w.failed = []) →
    (∀ x t, answer x t = { t with replies := t.replies ++ [{ pod := r.pod, group := r.group, op := r.op, lane := r.lane, answer := x }] }) →
    let used := 2 ^ 31 ≤ (seq - e.next).toNat ∨ (∃ w ∈ e.waits, w.seq = seq) ∨ (∃ k ∈ e.skips, k.seq = seq) ∨ (e.holder ≠ none ∧ seq = e.next)
    let taken := Tab.get 0 g.sections r.lane + (s.waypoints.map fun x => (x.2.waits.filter fun w => w.group == r.group && w.lane == r.lane).length).sum
    (∀ takes : Bool, (takes = true ∧ (r.ask = .wayin key seq ∨ r.ask = .waytry key seq)) ∨ (takes = false ∧ r.ask = .wayskip key seq) →
      (e.poison = true → exec (.serviceRound pod) s = .next (answer (.failed 0x10) q))
      ∧ (e.poison = false → used → exec (.serviceRound pod) s = .next (answer (.failed 0x12) q))
      ∧ (e.poison = false → ¬ used → takes = true → 15 ≤ taken → exec (.serviceRound pod) s = .next (answer (.failed 0x11) q)))
    ∧ (e.poison = false → ¬ used → s.recordsFull key = false →
      (r.ask = .wayin key seq → taken < 15 → exec (.serviceRound pod) s = .next (State.settleKey
        { q with waypoints := Tab.put q.waypoints key.toNat { e with waits := e.waits ++ [{ seq := seq, group := r.group, op := r.op, lane := r.lane }] },
                 probes := q.probes ++ if e.holder = none then [] else [(r.group, r.op)] } key))
      ∧ (r.ask = .wayskip key seq → exec (.serviceRound pod) s = .next (answer .done
        { q with waypoints := Tab.put q.waypoints key.toNat { e with skips := e.skips ++ [{ seq := seq, firm := false, group := r.group, op := r.op, lane := r.lane }] } })))
    ∧ (r.ask = .waytry key seq → e.poison = false → ¬ used → taken < 15 →
      ∃ t x, exec (.serviceRound pod) s = .next t ∧ t.way key = some x
        ∧ if e.holder = none ∧ seq = e.next then x = { e with holder := some (r.group, r.lane, r.op) } ∧ t.replies = s.replies ++ [⟨r.pod, r.group, r.op, r.lane, .granted⟩]
          else x = e ∧ t.replies = s.replies ++ [⟨r.pod, r.group, r.op, r.lane, .notGranted⟩])
    ∧ (r.ask = .wayout key →
      (∀ op, e.holder = some (r.group, r.lane, op) → exec (.serviceRound pod) s = .next (answer .done (State.settleKey
        (State.onGroup { q with waypoints := Tab.put q.waypoints key.toNat { e with holder := none, next := e.next + 1 } } r.group fun h => h.dropSection r.lane) key)))
      ∧ ((∀ op, e.holder ≠ some (r.group, r.lane, op)) → exec (.serviceRound pod) s = .next (answer (.failed 0x12) q)))
    ∧ (r.ask = .wayclose key →
      (e.poison = true ∨ (e.holder = none ∧ e.waits = [] ∧ e.skips = []) →
        exec (.serviceRound pod) s = .next (answer .done { q with waypoints := Tab.erase q.waypoints key.toNat }))
      ∧ (e.poison = false → e.holder ≠ none ∨ e.waits ≠ [] ∨ e.skips ≠ [] → exec (.serviceRound pod) s = .next (answer (.failed 0x12) q)))
    ∧ (r.ask = .wayqry key → exec (.serviceRound pod) s = .next (answer (.status e.next (.ofNat 32 (2 ^ 31 + (if e.holder = none then 0 else 2 ^ 30)
        + (if e.poison = true then 2 ^ 29 else 0) + (if e.ext = true then 2 ^ 28 else 0) + min 255 e.waits.length * 2 ^ 8 + min 255 e.skips.length))) q))

/-- 09 R181, R182, R193-R196, R200, R202, R203: the steps that carry requests and end way words. A request enters its pod's queue, oldest of its group first,
where there is room. A reply of an atomic brings its lane's old value. A `wayin` all of whose lanes are granted acquires and goes on; one past its timeout
is withdrawn with WAYTO, presented in the cycle in which it runs out; one of which a lane was refused fails, once every home has taken up its requests, by its lowest failing lane, one whose wait closes a cycle among them. A lane announced to the pods has every key it holds poisoned and freed, in one step (log entry 81). The skips of a word become firm together, or are removed. -/
def Sys2Proof.Claims.waypointSteps : Prop :=
  (∀ (pod : Nat) (s : State), (∃ r ∈ s.net, r.pod = pod) → (Tab.get [] s.podQ pod).length < 256 →
    ∃ before r after, s.net = before ++ r :: after ∧ r.pod = pod ∧ (∀ q ∈ before, ¬ (q.pod = pod ∧ q.group = r.group))
      ∧ exec (.serviceRequestEnqueue pod) s = .next { s with net := before ++ after, podQ := Tab.set [] s.podQ pod (Tab.get [] s.podQ pod ++ [r]) })
  ∧ (∀ (pod : Nat) (s : State) (before after : List Reply) (r : Reply) (g : Group) (o : LongOp) (x : DWord), s.replies = before ++ r :: after → (∀ q ∈ before, q.pod ≠ pod) →
    r.pod = pod → r.answer = .old x → Tab.find s.groups r.group = some g → Tab.find g.longs r.op = some o →
    ∃ t h p, exec (.serviceReply pod) s = .next t ∧ t.replies = before ++ after ∧ t.mem = s.mem ∧ Tab.find t.groups r.group = some h ∧ Tab.find h.longs r.op = some p
      ∧ p.waiting = o.waiting - 1 ∧ h.v = g.v
      ∧ p.vWrites = o.vWrites ++ if o.dest = 96 then [] else if o.code = 8 then [(o.dest * 128 + r.lane, loHalf x), ((o.dest + 1) * 128 + r.lane, hiHalf x)]
          else [(o.dest * 128 + r.lane, loHalf x)])
  ∧ (∀ (n op : Nat) (s : State) (g : Group) (w : WayOp), Tab.find s.groups n = some g → Tab.find g.ways op = some w → w.minor = 0 →
    (w.waiting = 0 → w.failed = [] → ∃ t h, exec (.wayinComplete n op) s = .next t ∧ Tab.find t.groups n = some h ∧ Tab.find h.ways op = none ∧ (t.core (s.coreOf g)).l1 = []
      ∧ t.waypoints = s.waypoints ∧ ∀ i, i < g.slices.length → (h.slice i).seq.wait = if (g.slice i).seq.wait = .way op then .none else (g.slice i).seq.wait)
    ∧ (0 < w.waiting → 0 < w.limit → w.start + w.limit ≤ g.time (s.nowOf g - 1) → exec (.wayinTimeout n op) s =
        .next (((s.withdrawKeys n op w.keys).endWay n op).presentTrapAt n
          { stage := 7, cause := 0x0F, pc := w.pc, word := w.word, faddr := Tab.get 0 w.keys (((w.keys.map (·.1)).find? fun l => !w.granted.contains l).getD 0), level := 0,
            kind := 0, async := false, lanes := w.exec, slices := w.slices, born := 0 } (some op) (s.nowOf g - 1))))
  ∧ (∀ (n op : Nat) (s : State) (g : Group) (w : WayOp), Tab.find s.groups n = some g → Tab.find g.ways op = some w → w.minor = 0 →
    let q := { s with probes := s.probes.erase (n, op) }
    let closes (e : Nat × DWord) : Prop := ∃ x h, s.way e.2 = some x ∧ x.holder = some h ∧ (∃ y ∈ x.waits, y.group = n ∧ y.op = op ∧ y.lane = e.1) ∧ s.leadsBack n 3 h.1 = true
    ((∀ e ∈ w.keys, ¬ closes e) → exec (.waypointProbe n op) s = .next q)
    ∧ ∀ before e after, w.keys = before ++ e :: after → (∀ k ∈ before, ¬ closes k) → closes e →
      let x := { w with failed := Tab.put w.failed e.1 0x0E }
      let s1 := q.onGroup n fun h => { h with ways := Tab.change h.ways op fun _ => x }
      (requestsOpen s n op → exec (.waypointProbe n op) s = .next s1)
      ∧ (¬ requestsOpen s n op → ∀ l cause, lowestFailure (x.failed ++ s.replies.filterMap (lateFailure n op)) = some (l, cause) →
          exec (.waypointProbe n op) s = .next (s1.failWayin n op x cause l (s.nowOf g))))
  ∧ (∀ (n lane : Nat) (s : State), ∃ t, exec (.waypointPoison n lane) s = .next t ∧ t.mem = s.mem ∧ t.poisons = s.poisons.erase (n, lane)
      ∧ ((s.waypoints.map (·.1)).Nodup → (∀ e ∈ s.waypoints, e.1 < 2 ^ 64) → ∀ (k : DWord) (e : WayEntry), s.way k = some e → ∃ x, t.way k = some x
        ∧ ((∃ op, e.holder = some (n, lane, op)) → x.poison = true ∧ x.holder = none ∧ x.waits = []) ∧ ((∀ op, e.holder ≠ some (n, lane, op)) → x = e)))
  ∧ (∀ (n op : Nat) (s : State) (g : Group) (w : WayOp), Tab.find s.groups n = some g → Tab.find g.ways op = some w → w.minor = 2 → w.waiting = 0 →
    (w.failed = [] → exec (.wayskipFirm n op) s = .next ((s.onSkips n op w fun k => some { k with firm := true }).endWay n op))
    ∧ ∀ l cause, lowestFailure w.failed = some (l, cause) → exec (.wayskipRemove n op) s = .next (((s.onSkips n op w fun _ => none).endWay n op).presentTrap n
        { stage := 7, cause := cause, pc := w.pc, word := w.word, faddr := Tab.get 0 w.keys l, level := 0, kind := 0, async := false, lanes := w.exec, slices := w.slices,
          born := 0 } (some op)))
  ∧ ∀ (pod : Nat) (s s1 : State) (before after : List Reply) (r : Reply) (g : Group) (w x : WayOp) (c : BitVec 8), s.replies = before ++ r :: after →
    (∀ q ∈ before, q.pod ≠ pod) → r.pod = pod → r.answer = .failed c → Tab.find s.groups r.group = some g → Tab.find g.ways r.op = some w → w.minor = 0 →
    x = { w with waiting := w.waiting - 1, failed := if Tab.find w.failed r.lane = none then Tab.put w.failed r.lane c else w.failed } →
    s1 = ({ s with replies := before ++ after } : State).onGroup r.group (fun h => { h with ways := Tab.put h.ways r.op x }) →
    (requestsOpen s r.group r.op → exec (.serviceReply pod) s = .next s1)
    ∧ (¬ requestsOpen s r.group r.op → ∀ l cause, lowestFailure (x.failed ++ (before ++ after).filterMap (lateFailure r.group r.op)) = some (l, cause) →
        exec (.serviceReply pod) s = .next (s1.failWayin r.group r.op x cause l (s.nowOf g)))

/-! Barriers, work created from inside, extended registers and special registers (10 R219-R232). -/

namespace Sys2Proof.Claims

/-- Barrier i of a block, and what a handle names of it. -/
def barrierOf (k : Block) (i : Nat) : Barrier := Tab.get Barrier.free k.barriers i
def staleHandle (k : Block) (g : Group) (x : Nat) : Prop :=
  2 ^ 16 ≤ x ∨ x / 2 ^ 4 % 2 ^ 4 ≠ 0 ∨ (barrierOf k (x % 16)).alloc = false ∨ (barrierOf k (x % 16)).gen ≠ x / 2 ^ 8 % 2 ^ 8 ∨ (x % 16 = 0 ∧ g.spawned = true)
def withBarrier (s : State) (n i : Nat) (x : Barrier) : State := s.onBlock n fun k => { k with barriers := Tab.put k.barriers i x }
/-- The group's arrival is counted in the barrier's phase. -/
def Counted (x : Barrier) (n : Nat) : Barrier := { x with arrived := x.arrived ++ [n], last := Tab.put x.last n x.phase }
/-- The group's arrival at its cluster's barrier, or at the grid's, and what it completes. -/
def clusterCounted (s : State) (u : Issue) (k : Block) (x : WideBarrier) (i : Nat) : State :=
  let y : WideBarrier := { x with arrived := x.arrived ++ [u.group], last := Tab.put x.last u.group x.phase }
  (s.onCluster k.cluster fun c => { c with barriers := Tab.put c.barriers i y }).settleCluster k.cluster i
def gridCounted (s : State) (u : Issue) (k : Block) : State :=
  let next (x : WideBarrier) : WideBarrier := { x with arrived := x.arrived ++ [u.group], last := Tab.put x.last u.group x.phase }
  (s.onLaunch k.launch fun l => { l with grid := next l.grid }).settleGrid k.launch
/-- The split waits. -/
def waiting (s : State) (u : Issue) (w : Wait) : State := s.onGroup u.group fun h => h.onSlices u.slices fun _ x => { x with seq := { x.seq with wait := w } }

/-- A group after its slices' waits of one kind have ended, in the sequencers a handler keeps as well. -/
def wokenFrom (g h : Group) (w : Wait) : Prop :=
  h.slices.length = g.slices.length ∧ h.v = g.v ∧ h.m = g.m
  ∧ ∀ i, i < g.slices.length → (h.slice i).seq = if (g.slice i).seq.wait = w then { (g.slice i).seq with wait := .none } else (g.slice i).seq

end Sys2Proof.Claims

/-- 10 R219-R221: the block barrier words. A handle that is not of an allocated barrier's present generation raises BARSTALE, and so does barrier 0 in a
spawned group. An arrival counts once a phase, and its count may complete it; a wait holds the split until the phase of the group's latest arrival is
complete, and is over at once where it is or none was made. -/
def Sys2Proof.Claims.blockBarrierWords : Prop :=
  ∀ (o : BitVec 7) (s : State) (u : Issue) (g : Group) (k : Block) (v i : Nat) (x : Barrier) (n : Nat), Issuing s u g → isS o = true → Clear s (u.ctx g) [use o] →
    n = (u.ctx g).g.block → Tab.find s.blocks n = some k → v = ((u.ctx g).rd o 0).toNat → i = v % 16 → x = barrierOf k i →
    (staleHandle k (u.ctx g).g v → ∀ w ∈ [Instr.barArrive o, .barWait o, .barSync o, .barFree o], exec w s = .next (s.wordTrapped u ((u.ctx g).trap 7 0x0D)))
    ∧ (¬ staleHandle k (u.ctx g).g v →
      (u.group ∈ x.arrived → exec (.barArrive o) s = .next (State.wordDone u s))
      ∧ (u.group ∉ x.arrived → s.atomsOpen u.group = false →
        exec (.barArrive o) s = .next (State.wordDone u ((withBarrier s n i (Counted x u.group)).settleBarrier n i)))
      ∧ (∀ p, Tab.find x.last u.group = some p → x.phase ≤ p → exec (.barWait o) s = .next (State.wordDone u (waiting s u (.barrier i p))))
      ∧ ((∀ p, Tab.find x.last u.group = some p → p < x.phase) → exec (.barWait o) s = .next (State.wordDone u s))
      ∧ (∀ t k' p, t = (if u.group ∈ x.arrived then s else (withBarrier s n i (Counted x u.group)).settleBarrier n i) →
          u.group ∈ x.arrived ∨ s.atomsOpen u.group = false → Tab.find t.blocks n = some k' →
          Tab.find (barrierOf k' i).last u.group = some p →
          exec (.barSync o) s = .next (State.wordDone u (if p < (barrierOf k' i).phase then t else waiting t u (.barrier i p))))
      ∧ (i = 0 ∨ x.arrived ≠ [] → exec (.barFree o) s = .next (s.wordTrapped u ((u.ctx g).trap 7 0x0D)))
      ∧ (i ≠ 0 → x.arrived = [] → exec (.barFree o) s = .next (State.wordDone u (withBarrier s n i { x with alloc := false, gen := (x.gen + 1) % 256 }))))
    ∧ ∀ (m : BitVec 6), o ≠ 96 → 1 ≤ m.toNat → m.toNat ≤ 32 →
      (∀ j, 1 ≤ j → j < 16 → (barrierOf k j).alloc = false → (∀ l, 1 ≤ l → l < j → (barrierOf k l).alloc = true) →
        exec (.barAlloc o m) s = .next (State.wordDone u ((withBarrier s n j
          { barrierOf k j with alloc := true, count := m.toNat, phase := 0, arrived := [], last := [] }).putRegs (u.ctx g) o.toNat
            fun _ => [.ofNat 32 ((barrierOf k j).gen * 2 ^ 8 + j)])))
      ∧ ((∀ j, 1 ≤ j → j < 16 → (barrierOf k j).alloc = true) →
        exec (.barAlloc o m) s = .next (State.wordDone u (s.putRegs (u.ctx g) o.toNat fun _ => [0x80000000])))

/-- 10 R219: the phase of an allocated barrier completes with the arrivals it expects: of barrier 0 every member group that has not ended, of another the
count it was allocated with. The arrivals are then cleared, the phase is the next one, and the block's splits that wait for it go on; else nothing
changes. -/
def Sys2Proof.Claims.barrierPhasesComplete : Prop :=
  ∀ (s : State) (n i : Nat) (k : Block) (x : Barrier) (full : Prop), Tab.find s.blocks n = some k → x = barrierOf k i →
    (full ↔ if i = 0 then (∃ e ∈ s.groups, e.2.block = n ∧ e.2.spawned = false ∧ e.2.allExited = false)
        ∧ (∀ e ∈ s.groups, e.2.block = n → e.2.spawned = false → e.2.allExited = false → e.1 ∈ x.arrived) else 0 < x.count ∧ x.count ≤ x.arrived.length) →
    (x.alloc = true → full → ∃ k', Tab.find (s.settleBarrier n i).blocks n = some k' ∧ barrierOf k' i = { x with phase := x.phase + 1, arrived := [] }
      ∧ (∀ j, j ≠ i → barrierOf k' j = barrierOf k j) ∧ (s.settleBarrier n i).mem = s.mem
      ∧ ∀ m g, Tab.find s.groups m = some g → ∃ h, Tab.find (s.settleBarrier n i).groups m = some h
        ∧ if g.block = n then wokenFrom g h (.barrier i x.phase) else h = g)
    ∧ (x.alloc = false ∨ ¬ full → s.settleBarrier n i = s)

/-- 10 R222, R223: the words on cluster barriers and the grid barrier. A spawned group, and `gbar.sync` in a launch that is not cooperative, raise BARSTALE.
An arrival counts once a phase, with a release at cluster or device scope; a wait over at once acquires at that scope. -/
def Obligations.WideBarrierWords : Prop :=
  ∀ (n : BitVec 2) (s s1 : State) (u : Issue) (g : Group) (c : Ctx) (k : Block), Issuing s u g → c = u.ctx g → Clear s c [] → Tab.find s.blocks c.g.block = some k →
    (c.g.spawned = true → ∀ w ∈ [Instr.cbarArrive n, .cbarWait n, .cbarSync n, .gbarSync], exec w s = .next (s.wordTrapped u (c.trap 7 0x0D)))
    ∧ (c.g.spawned = false → ∀ cl x, Tab.find s.clusters k.cluster = some cl → x = Tab.get WideBarrier.empty cl.barriers n.toNat →
      (u.group ∈ x.arrived → exec (.cbarArrive n) s = .next (State.wordDone u s))
      ∧ (u.group ∉ x.arrived → s.release u.group (s.coreOf c.g) 1 = some s1 → exec (.cbarArrive n) s = .next (State.wordDone u (clusterCounted s1 u k x n.toNat)))
      ∧ (∀ p, Tab.find x.last u.group = some p → x.phase ≤ p → exec (.cbarWait n) s = .next (State.wordDone u (waiting s u (.cluster n.toNat p))))
      ∧ ((∀ p, Tab.find x.last u.group = some p → p < x.phase) →
        exec (.cbarWait n) s = .next (State.wordDone u (s.onCore (s.coreOf c.g) fun y => { y with l1 := [] })))
      ∧ ∀ t cl' p, t = (if u.group ∈ x.arrived then s else clusterCounted s1 u k x n.toNat) →
          u.group ∈ x.arrived ∨ s.release u.group (s.coreOf c.g) 1 = some s1 → Tab.find t.clusters k.cluster = some cl' → Tab.find (Tab.get WideBarrier.empty cl'.barriers n.toNat).last u.group = some p →
          exec (.cbarSync n) s = .next (State.wordDone u (if p < (Tab.get WideBarrier.empty cl'.barriers n.toNat).phase
            then t.onCore (t.coreOf c.g) fun y => { y with l1 := [] } else waiting t u (.cluster n.toNat p))))
    ∧ (c.g.spawned = false → ∀ l, Tab.find s.launches k.launch = some l →
      (l.card.flags.getLsbD 2 = false → exec .gbarSync s = .next (s.wordTrapped u (c.trap 7 0x0D)))
      ∧ (l.card.flags.getLsbD 2 = true → ∀ t l' p, u.group ∈ l.grid.arrived ∨ s.release u.group (s.coreOf c.g) 2 = some s1 →
          t = (if u.group ∈ l.grid.arrived then s else gridCounted s1 u k) → Tab.find t.launches k.launch = some l' → Tab.find l'.grid.last u.group = some p →
          exec .gbarSync s = .next (State.wordDone u (if p < l'.grid.phase then t.onCore (t.coreOf c.g) fun y => { y with l1 := [] } else waiting t u (.grid p)))))

/-- 10 R224: `spawn` makes one group on the issuing core where EXEC is not empty and a context and 48·W lane-registers are free, and writes 1; else it makes
nothing and writes 0. It never waits: where the spawner has atomics not yet served, the new group's first issue comes after them. The new group stands at the target with the lanes of EXEC active, v0-v7 copied, v8 on 0, the split's s registers, and the state the
rule lists. -/
def Obligations.SpawnWord : Prop :=
  ∀ (d : BitVec 7) (i : BitVec 14) (s : State) (u : Issue) (g : Group) (c : Ctx), Issuing s u g → c = u.ctx g → isS d = true → Clear s c [use d] →
    (c.exec = 0 ∨ s.contextsFree (s.coreOf c.g) = [] ∨ s.regsFree (s.coreOf c.g) < 48 * c.g.width →
      exec (.spawn d i) s = .next (State.wordDone u (s.putRegs c d.toNat fun _ => [0])))
    ∧ ∀ n rest, c.exec ≠ 0 → s.contextsFree (s.coreOf c.g) = n :: rest → 48 * c.g.width ≤ s.regsFree (s.coreOf c.g) →
      ∃ (t : State) (h : Group), exec (.spawn d i) s = .next (State.wordDone u (t.putRegs c d.toNat fun _ => [1])) ∧ Tab.find t.groups s.nextId = some h ∧ t.mem = s.mem
        ∧ (∀ m, m ≠ s.nextId → Tab.find t.groups m = Tab.find s.groups m)
        ∧ h.block = c.g.block ∧ h.context = n ∧ h.gid = 32 + n ∧ h.width = c.g.width ∧ h.spawned = true ∧ h.born = s.cycle ∧ h.slices.length = c.g.width / 4
        ∧ (∀ r l, l < 128 → h.readV r l = if r < 8 then c.g.readV r l else 0) ∧ (∀ j r, j < c.g.width / 4 → r < 32 → h.readS j r = c.g.readS c.low r)
        ∧ (∀ k e, 0 < k → h.readM e k = 0) ∧ h.rmode = c.g.rmode ∧ h.wayto = c.g.wayto ∧ h.trapBase = c.g.trapBase ∧ h.trapEn = c.g.trapEn ∧ h.preBase = c.g.preBase
        ∧ h.preEn = c.g.preEn ∧ h.preBound = c.g.preBound ∧ h.fpflags = 0 ∧ h.joinst = 0 ∧ h.held = false ∧ h.spilled = false ∧ h.spills = 0 ∧ h.longs = []
        ∧ h.startAfter = (if s.atomsOpen u.group = true then some (u.group, s.nextId) else none)
        ∧ ∀ j, j < c.g.width / 4 → j < 32 → (h.slice j).seq.a = laneNib c.exec j ∧ (h.slice j).seq.m = laneNib c.exec j ∧ (h.slice j).exited = ~~~(laneNib c.exec j)
          ∧ (laneNib c.exec j ≠ 0 → (h.slice j).seq.pc = .ofInt 57 ((clauseOf u.pc).toNat + 16 * i.toInt))

/-- 10 R225-R227, R229: `fetchw` asks for a block, with its mailbox offset checked at issue and at most four requests of a block outstanding; `launch` releases,
reads the record's 128 bytes and waits for the Pilot, a privileged record from an unprivileged launch raising PRIV; `regacq` joins the core's waiters, or
is over at once where the group has an extended block, or raises REGX where group-local space is too small; `regrel` gives the block back, HAZ while one
of its registers is pending. -/
def Sys2Proof.Claims.workWordsIssue : Prop :=
  ∀ (s s1 : State) (u : Issue) (g : Group) (c : Ctx) (k : Block) (l : Launch), Issuing s u g → c = u.ctx g → Tab.find s.blocks c.g.block = some k →
    Tab.find s.launches k.launch = some l →
    (∀ o : BitVec 7, isS o = true → Clear s c [use o] →
      let m := (c.rd o 0).toNat
      (l.card.scratch < m + 16 → exec (.fetchw o) s = .next (s.wordTrapped u (c.trap 7 0x08)))
      ∧ (m + 16 ≤ l.card.scratch → m % 16 ≠ 0 → exec (.fetchw o) s = .next (s.wordTrapped u (c.trap 7 0x07)))
      ∧ (m + 16 ≤ l.card.scratch → m % 16 = 0 → k.fetchws.length < 4 →
        exec (.fetchw o) s = .next (State.wordDone u (s.onBlock c.g.block fun b => { b with fetchws := b.fetchws ++ [m] })))
      ∧ (m + 16 ≤ l.card.scratch → m % 16 = 0 → 4 ≤ k.fetchws.length → exec (.fetchw o) s = .next (s.wordWaits u)))
    ∧ (Clear s c [] →
      (c.g.held = true ∨ c.g.spilled = true → exec .regacq s = .next (State.wordDone u s))
      ∧ (c.g.held = false → c.g.spilled = false → l.card.localSize < 192 * c.g.width → exec .regacq s = .next (s.wordTrapped u (c.trap 5 0x1D)))
      ∧ (c.g.held = false → c.g.spilled = false → 192 * c.g.width ≤ l.card.localSize → ∃ (t : State) (h : Group), exec .regacq s = .next (State.wordDone u t) ∧ t.mem = s.mem
        ∧ (t.core k.core).regLine = (s.core k.core).regLine ++ (if u.group ∈ (s.core k.core).regLine then [] else [u.group])
        ∧ Tab.find t.groups u.group = some h ∧ h.waitReg = true ∧ h.v = g.v
        ∧ ∀ i, i < g.slices.length → (h.slice i).seq.wait = if u.slices.getLsbD i = true then .regacq else (g.slice i).seq.wait)
      ∧ ((∃ e ∈ c.g.longs, ∃ r ∈ e.2.vMarks, 48 ≤ r) → exec .regrel s = .next (s.wordTrapped u (c.trap 6 0x04)))
      ∧ ((∀ e ∈ c.g.longs, ∀ r ∈ e.2.vMarks, r < 48) → ∃ (t : State) (h : Group), exec .regrel s = .next (State.wordDone u t) ∧ sameMemory s t ∧ Tab.find t.groups u.group = some h
        ∧ h.held = false ∧ (∀ r n, n < 128 → h.readV r n = if r < 48 then g.readV r n else 0) ∧ h.slices = g.slices))
    ∧ ∀ (p : BitVec 7) (n : BitVec 2) (place : Target) (r : LaunchRec) (z : Bool), isS p = true → isEven p = true → Clear s c [useN p 2] →
      s.entryHeld (s.agentOf u.group c.g) (c.rd64 p 0) = false → s.release u.group k.core 2 = some s1 → s1.checkPtr (s.agentOf u.group c.g) [0] (c.rd64 p 0) 128 .read = .ok place → s1.heldAt (place.locs.headD 0) = false →
      LaunchRec.parse (bytesToNat ((List.range 128).map fun i => s1.freshByte k.core (place.locs.headD 0 + i))) = (r, z) →
      (r.flags.getLsbD 1 = true → l.card.flags.getLsbD 1 = false → exec (.launch p n) s = .next (s.wordTrapped u (c.trap 7 0x06)))
      ∧ (r.flags.getLsbD 1 = false ∨ l.card.flags.getLsbD 1 = true → ∃ (t : State) (h : Group) (q : LaunchReq), exec (.launch p n) s = .next (State.wordDone u t)
        ∧ (∀ l, ¬ inLogRing s l → t.readByte l = s1.readByte l)
        ∧ t.launchReqs = s.launchReqs ++ [q] ∧ s1.nextId ≤ q.op ∧ (s.logRegs = [] → q.op = s1.nextId) ∧ q.group = u.group ∧ q.slices = u.slices ∧ q.reg = p.toNat - 96 ∧ q.prio = n.toNat ∧ q.card = r ∧ q.zeros = z
        ∧ Tab.find t.groups u.group = some h ∧ h.v = g.v
        ∧ ∀ i, i < g.slices.length → (h.slice i).seq.wait = if u.slices.getLsbD i = true then .launch q.op else (g.slice i).seq.wait)

/-- 10 R230: `regroup` from a split of every lane of a plain group waits for the block's other groups, and with the last of them the lanes are dealt and
what a group so ended completes is settled (R219); from any other split, in a spawned group, and with an s
operand it raises OPND, there at step 5, before HAZ (log entry 44, DEDUCED). -/
def Sys2Proof.Claims.regroupWord : Prop :=
  ∀ (o : BitVec 7) (s : State) (u : Issue) (g : Group) (c : Ctx) (plain : Prop), Issuing s u g → c = u.ctx g →
    (u.snap = none → isS o = true → exec (.regroup o) s = .next (s.wordTrapped u (c.trap 5 0x05)))
    ∧ (isS o = false → Clear s c [use o] →
      (plain ↔ (∀ i, i < c.g.slices.length → (c.g.slice i).seq.parked = [] ∧ (c.g.slice i).seq.releases = [] ∧ (c.g.slice i).seq.susp = [])
        ∧ c.exec = c.g.lanesOf c.g.allSlices &&& ~~~c.g.exitedLanes ∧ c.g.held = false ∧ c.g.spilled = false ∧ c.g.spawned = false ∧ c.g.sections = []) →
      (¬ plain → exec (.regroup o) s = .next (s.wordTrapped u (c.trap 7 0x05)))
      ∧ (plain → s.atomsOpen u.group = false → exec (.regroup o) s = .next (State.wordJumped u ((waiting (s.advance u) u (.regroup o.toNat)).settleEnd c.g.block))))

/-- 10 R227, R228: the oldest waiter of a core takes an extended block once 48·W lane-registers are free: v48-v95 read 0 for a block new to the group, and what
the spill engine put into group-local space for one spilled. The spill engine takes the block of a waiting group: its words go to the top of the
group's group-local space, and it joins the waiters at the tail. -/
def Obligations.ExtendedBlocks : Prop :=
  (∀ (core n : Nat) (rest : List Nat) (s : State) (g : Group), (s.core core).regLine = n :: rest → Tab.find s.groups n = some g → 48 * g.width ≤ s.regsFree core →
    (g.spilled = false → ∃ (t : State) (h : Group), exec (.regacqGrant core) s = .next t ∧ (t.core core).regLine = rest ∧ t.mem = s.mem ∧ Tab.find t.groups n = some h
      ∧ h.held = true ∧ h.waitReg = false ∧ (∀ r l, l < 128 → h.readV r l = if r < 48 then g.readV r l else 0)
      ∧ ∀ i, i < g.slices.length → (h.slice i).seq.wait = if (g.slice i).seq.wait = .regacq then .none else (g.slice i).seq.wait)
    ∧ (∀ ts, g.spilled = true → g.width ≤ 128 → s.extTargets n g .read = some ts → ∃ (t : State) (h : Group), exec (.regacqGrant core) s = .next t ∧ Tab.find t.groups n = some h ∧ h.held = true ∧ h.spilled = false
      ∧ (ts.map fun x => (x.1, x.2.1)) = (List.range 48).flatMap (fun r => (List.range g.width).map fun l => (48 + r, l))
      ∧ ∀ x ∈ ts, h.readV x.1 x.2.1 = .ofNat 32 (bytesToNat ((List.range 4).map fun i => s.freshByte core (x.2.2 + i)))))
  ∧ ∀ (core n : Nat) (s : State) (g : Group) (ts : List (Nat × Nat × Nat)), s.spillDue core = true → s.spillVictim core = some (n, g, ts) → Tab.find s.groups n = some g →
    (s.agentOf n g).core = core → (∀ x ∈ ts, x.2.2 + 4 ≤ 2 ^ 64) → (ts.map (·.2.2)).Pairwise (fun x y => x + 4 ≤ y ∨ y + 4 ≤ x) →
    ∃ (t : State) (h : Group), exec (.spill core) s = .next t ∧ (t.core core).regLine = (s.core core).regLine ++ [n] ∧ Tab.find t.groups n = some h ∧ h.held = false ∧ h.spilled = true
      ∧ h.spills = min 65535 (g.spills + 1) ∧ (∀ r l, r < 48 → l < 128 → h.readV r l = g.readV r l)
      ∧ ∀ x ∈ ts, ∀ i, i < 4 → t.freshByte core (x.2.2 + i) = .ofNat 8 ((g.readV x.1 x.2.1).toNat / 2 ^ (8 * i))

namespace Sys2Proof.Claims

/-- Table WRK-10: what special register n of a group reads as in lane l. -/
def specials (s : State) (c : Ctx) (k : Block) (r : Launch) (n l : Nat) : Nat :=
  let g := c.g
  let base (pc : Pc) (on : Bool) : Nat := pc.toNat / 16 * 16 % 2 ^ 32 + (if on = true then 1 else 0)
  [l, g.width, g.gid, r.card.groups, k.x, k.y, k.z, r.card.gridx, r.card.gridy, r.card.gridz, k.clrank, k.core, k.core / 144, g.rmode.toNat, g.fpflags.toNat,
   base g.trapBase g.trapEn, g.tpc.toNat % 2 ^ 32, g.tpc.toNat / 2 ^ 32, g.tcause.toNat, g.tword.toNat, g.faddr.toNat % 2 ^ 32, g.faddr.toNat / 2 ^ 32,
   base g.preBase g.preEn, g.preBound.toNat, 0x6040841F, s.nowOf g % 2 ^ 32, (g.slice (lowest 0 c.u.slices)).cycleh.toNat,
   r.grid.phase % 256 * 2 ^ 24 + ((Tab.find s.clusters k.cluster).elim 0 fun y => (Tab.get WideBarrier.empty y.barriers 0).phase) % 256 * 2 ^ 16 + (barrierOf k 0).phase % 2 ^ 16,
   g.joinst.toNat, g.spills * 2 ^ 16 + (if g.spilled = true then 4 else 0) + (if g.waitReg = true then 2 else 0) + (if g.held = true then 1 else 0),
   g.wayto.toNat, g.tsave.toNat].getD n 0

end Sys2Proof.Claims

/-- 10 R231, R232 with Table WRK-10, 06 R113, R114, 16 R326: `srd` reads every special register, LANEID per lane, and a read of CYCLEL latches the high half of the
cycle count for CYCLEH in every slice of the split; `swr` writes the RW fields of RMODE, FPFLAGS, TRAPBASE, TPC, TPCH, PREBASE, WAYTO and TSAVE and leaves
every other register unchanged, FPFLAGS keeping what was ORed in in the same cycle. A number of 32 or more raises OPND, and so does LANEID into an s register and a v source
of `swr`, at step 5, before HAZ (log entry 44, DEDUCED). -/
def Obligations.SpecialRegisters : Prop :=
  ∀ (d a b : BitVec 7) (s : State) (u : Issue) (g : Group) (c : Ctx) (k : Block) (r : Launch), Issuing s u g → c = u.ctx g → Tab.find s.blocks c.g.block = some k →
    Tab.find s.launches k.launch = some r →
    (u.snap = none → 32 ≤ a.toNat ∨ (isS d = true ∧ a = 0) → exec (.srd d a) s = .next (s.wordTrapped u (c.trap 5 0x05)))
    ∧ (a.toNat < 32 → ¬ (isS d = true ∧ a = 0) → Clear s c [use d] →
      exec (.srd d a) s = .next (State.wordDone u (State.putRegs
        (if a = 25 then s.onGroup u.group fun h => h.onSlices u.slices fun _ x => { x with cycleh := .ofNat 32 (s.nowOf c.g / 2 ^ 32) } else s) c d.toNat
        fun l => [.ofNat 32 (specials s c k r a.toNat l)])))
    ∧ (u.snap = none → 32 ≤ a.toNat ∨ isS b = false → exec (.swr a b) s = .next (s.wordTrapped u (c.trap 5 0x05)))
    ∧ (a.toNat < 32 → isS b = true → Clear s c [use b] → ∃ (t : State) (h : Group), exec (.swr a b) s = .next (State.wordDone u t) ∧ sameMemory s t ∧ otherGroups s t u.group
      ∧ Tab.find t.groups u.group = some h ∧ h.slices = g.slices ∧ h.v = g.v ∧ h.m = g.m
      ∧ (let x := (c.rd b 0).toNat
        let base (old : Pc) : Nat := old.toNat / 2 ^ 32 * 2 ^ 32 + x / 16 * 16
        h.rmode.toNat = (if a = 13 then x % 2 ^ 2 + x / 2 ^ 4 % 2 ^ 6 * 2 ^ 4 else g.rmode.toNat)
        ∧ h.fpflags = (if a = 14 then .ofNat 32 (x % 2 ^ 6) ||| (if g.fpAt = s.nowOf c.g then g.fpNew else 0) else g.fpflags)
        ∧ h.trapBase.toNat = (if a = 15 then base g.trapBase else g.trapBase.toNat) ∧ h.trapEn = (if a = 15 then decide (x % 2 = 1) else g.trapEn)
        ∧ h.tpc.toNat = (if a = 16 then g.tpc.toNat / 2 ^ 32 * 2 ^ 32 + x / 4 * 4 + g.tpc.toNat % 4 else if a = 17 then x % 2 ^ 25 * 2 ^ 32 + g.tpc.toNat % 2 ^ 32 else g.tpc.toNat)
        ∧ h.preBase.toNat = (if a = 22 then base g.preBase else g.preBase.toNat) ∧ h.preEn = (if a = 22 then decide (x % 2 = 1) else g.preEn)
        ∧ h.wayto = (if a = 30 then c.rd b 0 else g.wayto) ∧ h.tsave = (if a = 31 then c.rd b 0 else g.tsave)
        ∧ h.tcause = g.tcause ∧ h.tword = g.tword ∧ h.faddr = g.faddr ∧ h.preBound = g.preBound ∧ h.joinst = g.joinst ∧ h.held = g.held ∧ h.spilled = g.spilled))

/-! Engine words and the engines (11, 12, 13, 14, 15). -/

namespace Sys2Proof.Claims

abbrev Eng := BitVec 5 → BitVec 5 → BitVec 2 → BitVec 1 → BitVec 1 → Instr

/-- Words of the common engine form: their engine, command, registers of the parameter block, and whether they are privileged (Tables CPY-3, BNK-3, LNK-1). -/
noncomputable def engWords : List (Eng × Engine × Cmd × Nat × Bool) :=
  [(Instr.copyG2s, .copy, .copy 0, 8, false), (Instr.copyS2g, .copy, .copy 1, 8, false), (Instr.copyG2o, .copy, .copy 2, 8, false), (Instr.copyS2o, .copy, .copy 3, 8, false),
   (Instr.copyG2g, .copy, .copy 4, 8, false), (Instr.copyFill, .copy, .copy 5, 8, false), (Instr.bkmodeOn, .bank, .bkmodeOn, 2, false), (Instr.bkmodeOff, .bank, .bkmodeOff, 2, false),
   (Instr.bkread, .bank, .bkread, 6, false), (Instr.bkcalCal, .bank, .bkcal 0, 4, true), (Instr.bkcalBist, .bank, .bkcal 1, 4, true),
   (Instr.bkcalRemap, .bank, .bkcal 2, 4, true), (Instr.bkstat, .bank, .bkstat, 4, false), (Instr.collRed, .link, .coll 0, 10, false), (Instr.collRedq, .link, .coll 1, 12, false),
   (Instr.collBcast, .link, .coll 2, 10, false), (Instr.collGather, .link, .coll 3, 10, false), (Instr.lput, .link, .lput, 5, false), (Instr.lget, .link, .lget, 5, false)]

/-- An engine word, and what it queues: engine, command, parameter registers, privilege, token, first parameter register, scope, AQ and RL. -/
structure EngForm where
  e    : Engine
  cmd  : Cmd
  n    : Nat
  priv : Bool
  t    : BitVec 5
  p    : BitVec 5
  sc   : BitVec 2
  aq   : Bool
  rl   : Bool

def EngWord (i : Instr) (x : EngForm) : Prop :=
  (∃ w ∈ engWords, ∃ t p sc q r, i = w.1 t p sc q r ∧ x = ⟨w.2.1, w.2.2.1, w.2.2.2.1, w.2.2.2.2, t, p, sc, decide (q = 1), decide (r = 1)⟩)
  ∨ (∃ t p sc q r f z, i = .bkload t p sc q r f z ∧ x = ⟨.bank, .bkload (decide (f = 1)) (decide (z = 1)), 5, false, t, p, sc, decide (q = 1), decide (r = 1)⟩)
  ∨ (∃ t p sc q r f z, i = .bkmac t p sc q r f z ∧ x = ⟨.bank, .bkmac (decide (f = 1)) (decide (z = 1)), 7, false, t, p, sc, decide (q = 1), decide (r = 1)⟩)
  ∨ (∃ t a p v, i = .tld t a p v ∧ x = ⟨.tile, .tld a.toNat v.toNat, 3, false, t, p, 0, true, true⟩)
  ∨ (∃ t a p v, i = .tst t a p v ∧ x = ⟨.tile, .tst a.toNat v.toNat, 3, false, t, p, 0, true, true⟩)

/-- The tile words without parameters. -/
def TileWord (i : Instr) (t : BitVec 5) (cmd : Cmd) : Prop :=
  (∃ a o b z, i = .tmma t a o b z ∧ cmd = .tmm false a.toNat o.toNat b.toNat (decide (z = 1))) ∨ (∃ a o b z, i = .tmms t a o b z ∧ cmd = .tmm true a.toNat o.toNat b.toNat (decide (z = 1)))
  ∨ (∃ a, i = .tzero t a ∧ cmd = .tzero a.toNat) ∨ ∃ a m k, i = .tcfg t a m k ∧ cmd = .tcfg a.toNat m.toNat k.toNat

/-- The engine holds as many commands as it can (11 R237, 12 R254, 13 R274, 15 R314). -/
def fullQueue (s : State) (core : Nat) (e : Engine) : Prop := (e = .link ∧ 8 ≤ ((s.core core).queueOf e).length) ∨ (e ≠ .link ∧ e ≠ .bank ∧ 16 ≤ ((s.core core).queueOf e).length)
/-- The command a word of the split queues. -/
def commandOf (s : State) (c : Ctx) (cmd : Cmd) (ps : List Word) (t : BitVec 5) (sc : BitVec 2) (aq rl : Bool) : EngCmd :=
  { id := s.nextId, cmd := cmd, params := ps, token := t.toNat, group := c.u.group, slices := c.u.slices, epoch := c.g.epochOf c.u.slices, block := c.g.block,
    scope := sc.toNat, aq := aq, rl := rl, done := 0, flag := false, waits := none, sent := false, answer := none }
/-- It stands at the end of its engine's queue. -/
def queued (s : State) (core : Nat) (e : Engine) (x : EngCmd) : State :=
  State.onCore { s with nextId := s.nextId + 1 } core fun k => k.setQueue e (((s.core core).queueOf e) ++ [x])
/-- The registers s[p] to s[p+n-1] of the split. -/
def blockAt (c : Ctx) (p : BitVec 5) (n : Nat) : List Word := (List.range n).map fun i => c.g.readS c.low (p.toNat + i)
abbrev goodBlock (p : BitVec 5) (n : Nat) : Prop := p.toNat % 2 = 0 ∧ 2 ≤ p.toNat ∧ p.toNat + n ≤ 32

/-- A chart word without parameters: its command, from TE as it stands. -/
noncomputable def chops : List ((BitVec 4 → BitVec 4 → BitVec 4 → Instr) × Nat × (BitVec 4 → BitVec 4 → BitVec 4 → Nat × Nat × Nat)) :=
  let all (d a b : BitVec 4) : Nat × Nat × Nat := (d.toNat, a.toNat, b.toNat)
  let two (d a _ : BitVec 4) : Nat × Nat × Nat := (d.toNat, a.toNat, 0)
  let cmp (_ a b : BitVec 4) : Nat × Nat × Nat := (0, a.toNat, b.toNat)
  [(Instr.chopAdd, 0, all), (Instr.chopSub, 1, all), (Instr.chopMul, 2, all), (Instr.chopFma, 3, all), (Instr.chopMin, 4, all), (Instr.chopMax, 5, all),
   (fun d a _ => Instr.chopExp2 d a, 6, two), (fun d a _ => Instr.chopRcp d a, 7, two), (fun d a _ => Instr.chopMov d a, 8, two), (Instr.chopSel, 9, all),
   (fun _ a b => Instr.chopLt a b, 10, cmp), (fun _ a b => Instr.chopLe a b, 11, cmp), (fun _ a b => Instr.chopEq a b, 12, cmp), (fun _ a b => Instr.chopNe a b, 13, cmp)]

/-- Words that change the depth of the enable stack: command, registers, and the depth they leave. -/
def DepthWord (i : Instr) (p : BitVec 5) (n top : Nat) (cmd : Cmd) (depth : Nat → Nat) : Prop :=
  (∃ d k e, i = .chexp p d k e ∧ n = (if k = 0 then 4 else 7) ∧ top = (if k = 0 then 28 else 24) ∧ cmd = .chexp d.toNat k.toNat e.toNat ∧ depth = fun x => if e = 2 then x + 1 else x)
  ∨ (∃ d e, i = .chcubic p d e ∧ n = 11 ∧ top = 20 ∧ cmd = .chcubic d.toNat e.toNat ∧ depth = fun x => if e = 2 then x + 1 else x)
  ∨ (n = 0 ∧ p = 2 ∧ top = 30 ∧ ((i = .chenabPush ∧ cmd = .chenab 0 ∧ depth = fun x => x + 1) ∨ (i = .chenabPop ∧ cmd = .chenab 1 ∧ depth = fun x => x - 1)
      ∨ (i = .chenabElse ∧ cmd = .chenab 2 ∧ depth = fun x => x) ∨ (i = .chenabAll ∧ cmd = .chenab 3 ∧ depth = fun _ => 1)))

/-- Every chart word but `chown`, with the registers it names; its fields pass their checks (Tables CHT-2 to CHT-6). -/
def OwnedWord (i : Instr) (uses : List Use) : Prop :=
  (∃ w ∈ chops, ∃ d a b, i = w.1 d a b ∧ uses = [])
  ∨ (∃ p n top cmd depth, DepthWord i p n top cmd depth ∧ p.toNat % 2 = 0 ∧ 2 ≤ p.toNat ∧ p.toNat ≤ top ∧ uses = [useS p.toNat n])
  ∨ (∃ p d t sel l, (i = .chld p d t sel ∨ i = .chst p d t sel l) ∧ goodBlock p 4 ∧ ¬ (sel = 1 ∧ d.toNat % 2 = 1) ∧ uses = [useS t.toNat 1, useS p.toNat 4])
  ∨ (∃ p d, i = .chvis p d ∧ goodBlock p 2 ∧ uses = [useS p.toNat 2])
  ∨ (∃ x d l, (i = .chset x d l ∨ i = .chorg x ∨ i = .chorgRd x) ∧ uses = [useS x.toNat 1])
  ∨ (i = .chrel ∧ uses = [])

/-- `chcubic` is a word in code loaded for stepping B0 only (13 R281). -/
abbrev experimental (s : State) (i : Instr) : Prop := ∀ p d e, i = .chcubic p d e → s.stepB0 = true

/-- The chart of a core changed. -/
def onChartOf (s : State) (core : Nat) (f : Chart → Chart) : State := s.onCore core fun k => { k with chart := f k.chart }
/-- The s register r of every slice of the split. -/
def setS (s : State) (u : Issue) (r : BitVec 5) (x : Word) : State := s.onGroup u.group fun h => h.writeS u.slices r.toNat x

end Sys2Proof.Claims

/-- 11 R234, R237, R239, 12 R254, R262-R265, 14 R299, 15 R314, R315: an engine word puts its command at the end of its engine's queue with the parameters as its s
registers stand, marks its token, and waits while the queue is full; the spec bounds no queue of bank commands, which never fills (log entry 19). A block
that is odd, below s2 or past s31 raises OPND; `bkcal` in an unprivileged launch raises PRIV. `trel` unbinds the name for every later command; `tclaim`
joins its claim line, or ends at once with OPND in its token where the block has too few names left, and like every tile command waits while the tile
queue is full. A word that no chain has checked before is meant where a check fails. -/
def Obligations.EngineWords : Prop :=
  ∀ (s : State) (u : Issue) (g : Group) (c : Ctx) (core : Nat), Issuing s u g → c = u.ctx g → core = s.coreOf c.g →
    (∀ (i : Instr) (x : EngForm), EngWord i x →
      (u.snap = none → x.priv = true → s.privOf c.g = false → exec i s = .next (s.wordTrapped u (c.trap 4 0x06)))
      ∧ (u.snap = none → x.priv = false ∨ s.privOf c.g = true → ¬ goodBlock x.p x.n → exec i s = .next (s.wordTrapped u (c.trap 5 0x05)))
      ∧ (x.priv = false ∨ s.privOf c.g = true → goodBlock x.p x.n → Clear s c [useS x.t.toNat 1, useS x.p.toNat x.n] →
        (fullQueue s core x.e → exec i s = .next (s.wordWaits u))
        ∧ (¬ fullQueue s core x.e → exec i s = .next (State.wordDone u (queued s core x.e (commandOf s c x.cmd (blockAt c x.p x.n) x.t x.sc x.aq x.rl))))))
    ∧ (∀ (i : Instr) (t : BitVec 5) (cmd : Cmd), TileWord i t cmd → Clear s c [useS t.toNat 1] →
      (fullQueue s core .tile → exec i s = .next (s.wordWaits u))
      ∧ (¬ fullQueue s core .tile → exec i s = .next (State.wordDone u (queued s core .tile (commandOf s c cmd [] t 0 true true)))))
    ∧ (∀ (i : Instr) (t : BitVec 5) (acc : Bool) (name : Nat) (cmd : Cmd), (∃ o, i = .trelSlot t o ∧ acc = false ∧ name = o.toNat ∧ cmd = .trelSlot name)
        ∨ (∃ a, i = .trelAcc t a ∧ acc = true ∧ name = a.toNat ∧ cmd = .trelAcc name) → Clear s c [useS t.toNat 1] →
      (fullQueue s core .tile → exec i s = .next (s.wordWaits u))
      ∧ (¬ fullQueue s core .tile → exec i s = .next (State.wordDone u (State.onUnitOf (queued s core .tile (commandOf s c cmd [] t 0 true true)) c.g.block acc name s.nextId fun b =>
        if b.freed = none then { b with freed := some s.nextId } else b))))
    ∧ ∀ (i : Instr) (t d : BitVec 5) (n : BitVec 6) (acc : Bool) (k : Block) (free : Nat), (i = .tclaim t d n ∧ acc = false) ∨ (i = .tclaimAcc t d n ∧ acc = true) →
        Tab.find s.blocks c.g.block = some k → free = (k.namesFree acc).length - (s.core core).promised acc c.g.block →
      (u.snap = none → acc = true → 8 < n.toNat + 1 → exec i s = .next (s.wordTrapped u (c.trap 5 0x05)))
      ∧ (acc = false ∨ n.toNat + 1 ≤ 8 → Clear s c [useS t.toNat 1, useS d.toNat 1] →
        (fullQueue s core .tile → exec i s = .next (s.wordWaits u))
        ∧ (¬ fullQueue s core .tile → free < n.toNat + 1 →
          exec i s = .next (State.wordDone u (s.writeToken u.group (c.g.epochOf u.slices) t.toNat u.slices 0x80000005)))
        ∧ (¬ fullQueue s core .tile → n.toNat + 1 ≤ free →
          exec i s = .next (State.wordDone u (State.onCore { s with nextId := s.nextId + 1 } core fun y => y.setClaimLine acc (y.claimLine acc ++
          [{ id := s.nextId, acc := acc, n := n.toNat + 1, dest := d.toNat, token := t.toNat, group := u.group, slices := u.slices, epoch := c.g.epochOf u.slices, block := c.g.block }])))))

/-- 13 R272-R275, R280-R288, R295: the chart words. From a block that does not own the core's chart every one but `chown` raises CHOWN; a push past depth 8
and a pop at depth 1, as counted at issue, raise OPND, which comes after CHOWN (log entry 44). `chown` takes a free chart, queues its reset and writes 1, or
writes 0 where another block owns it; `chrel` gives it up; `chorg` sets the origin and reads it as ORGY times 2^16 plus ORGX, of signed numbers. A word that no
chain has checked before is meant where its fields fail a check. -/
def Obligations.ChartWords : Prop :=
  ∀ (s : State) (u : Issue) (g : Group) (c : Ctx) (core : Nat) (k : Chart), Issuing s u g → c = u.ctx g → core = s.coreOf c.g → k = (s.core core).chart →
    (∀ (i : Instr) (uses : List Use), OwnedWord i uses → experimental s i → k.owner ≠ some c.g.block → Clear s c uses → exec i s = .next (s.wordTrapped u (c.trap 7 0x15)))
    ∧ (∀ w ∈ chops, ∀ d a b : BitVec 4, Clear s c [] → k.owner = some c.g.block →
      (fullQueue s core .chart → exec (w.1 d a b) s = .next (s.wordWaits u))
      ∧ (¬ fullQueue s core .chart → exec (w.1 d a b) s = .next (State.wordDone u
          (queued s core .chart (commandOf s c (.chop w.2.1 (w.2.2 d a b).1 (w.2.2 d a b).2.1 (w.2.2 d a b).2.2 k.te) [] 0 0 false false)))))
    ∧ (∀ (i : Instr) (p : BitVec 5) (n top : Nat) (cmd : Cmd) (depth : Nat → Nat), DepthWord i p n top cmd depth → experimental s i →
      (u.snap = none → ¬ (p.toNat % 2 = 0 ∧ 2 ≤ p.toNat ∧ p.toNat ≤ top) → exec i s = .next (s.wordTrapped u (c.trap 5 0x05)))
      ∧ (p.toNat % 2 = 0 → 2 ≤ p.toNat → p.toNat ≤ top → Clear s c [useS p.toNat n] → k.owner = some c.g.block →
        (depth k.depthIssued < 1 ∨ 8 < depth k.depthIssued → exec i s = .next (s.wordTrapped u (c.trap 7 0x05)))
        ∧ (1 ≤ depth k.depthIssued → depth k.depthIssued ≤ 8 → fullQueue s core .chart → exec i s = .next (s.wordWaits u))
        ∧ (1 ≤ depth k.depthIssued → depth k.depthIssued ≤ 8 → ¬ fullQueue s core .chart →
          exec i s = .next (State.wordDone u ((queued s core .chart (commandOf s c cmd (blockAt c p n) 0 0 false false)).onCore core fun y =>
            { y with chart := { y.chart with depthIssued := depth k.depthIssued } })))))
    ∧ (∀ (p : BitVec 5) (d : BitVec 4), s.stepB0 = false → Clear s c [] → ∀ e, exec (.chcubic p d e) s = .next (s.wordTrapped u (c.trap 3 0x01)))
    ∧ (k.owner = some c.g.block → ¬ fullQueue s core .chart →
      (∀ (p : BitVec 5) (d : BitVec 4) (t : BitVec 5) (sel : BitVec 2) (l : BitVec 1), goodBlock p 4 → ¬ (sel = 1 ∧ d.toNat % 2 = 1) → Clear s c [useS t.toNat 1, useS p.toNat 4] →
        exec (.chld p d t sel) s = .next (State.wordDone u (queued s core .chart (commandOf s c (.chld d.toNat sel.toNat) (blockAt c p 4) t 0 true true)))
        ∧ exec (.chst p d t sel l) s = .next (State.wordDone u (queued s core .chart (commandOf s c (.chst d.toNat sel.toNat (decide (l = 1))) (blockAt c p 4) t 0 true true))))
      ∧ (∀ (p : BitVec 5) (d : BitVec 4), goodBlock p 2 → Clear s c [useS p.toNat 2] →
        exec (.chvis p d) s = .next (State.wordDone u (queued s core .chart (commandOf s c (.chvis d.toNat) (blockAt c p 2) 0 0 false false))))
      ∧ ∀ (x : BitVec 5) (d : BitVec 4) (l : BitVec 1), Clear s c [useS x.toNat 1] →
        exec (.chset x d l) s = .next (State.wordDone u (queued s core .chart (commandOf s c (.chset d.toNat (decide (l = 1))) [c.g.readS c.low x.toNat] 0 0 false false))))
    ∧ (u.snap = none → ∀ (p : BitVec 5) (d : BitVec 4) (t : BitVec 5) (sel : BitVec 2) (l : BitVec 1),
      (¬ goodBlock p 4 ∨ (sel = 1 ∧ d.toNat % 2 = 1) → exec (.chld p d t sel) s = .next (s.wordTrapped u (c.trap 5 0x05)) ∧ exec (.chst p d t sel l) s = .next (s.wordTrapped u (c.trap 5 0x05)))
      ∧ (¬ goodBlock p 2 → exec (.chvis p d) s = .next (s.wordTrapped u (c.trap 5 0x05))))
    ∧ (k.owner = some c.g.block → (Clear s c [] → exec .chrel s = .next (State.wordDone u (onChartOf s core fun y => { y with owner := none })))
      ∧ ∀ x : BitVec 5, Clear s c [useS x.toNat 1] →
        exec (.chorg x) s = .next (State.wordDone u (onChartOf s core fun y =>
          { y with orgx := .ofNat 16 (c.g.readS c.low x.toNat).toNat, orgy := .ofNat 16 ((c.g.readS c.low x.toNat).toNat / 2 ^ 16) }))
        ∧ exec (.chorgRd x) s = .next (State.wordDone u (setS s u x (.ofInt 32 (k.orgy.toNat * 2 ^ 16 + k.orgx.toInt)))))
    ∧ ∀ d e : BitVec 5, Clear s c [useS d.toNat 1] →
      (k.owner = none → fullQueue s core .chart → exec (.chown d e) s = .next (s.wordWaits u))
      ∧ (k.owner = none → ¬ fullQueue s core .chart → exec (.chown d e) s = .next (State.wordDone u (setS (onChartOf (queued s core .chart (commandOf s c .chreset [] 0 0 false false)) core fun y =>
          { y with owner := some c.g.block, te := e, orgx := 0, orgy := 0, depthIssued := 1 }) u d 1)))
      ∧ (k.owner = some c.g.block → exec (.chown d e) s = .next (State.wordDone u (setS (onChartOf s core fun y => { y with te := e }) u d 1)))
      ∧ (∀ b, k.owner = some b → b ≠ c.g.block → exec (.chown d e) s = .next (State.wordDone u (setS s u d 0)))

namespace Sys2Proof.Claims

/-! What the commands of the engines compute. -/

/-- The command an engine performs next: it stands first in its queue, comes after no earlier command of the other queue on its slots and after no atomic or
held store of its group, and has no end yet (11 R249, 12 R265, 07 R160). -/
abbrev First (s : State) (core : Nat) (e : Engine) (x : EngCmd) (q : List EngCmd) : Prop :=
  (s.core core).queueOf e = x :: q ∧ x.cmd ≠ .chreset ∧ (s.core core).slotBusy x = false ∧ s.atomsMove x = false ∧ s.aqWaits core x = false ∧ x.final = none

/-- The bytes of a row's elements as the core's T path finds them, and the cells a row is written to: every copy of each element. -/
def rowBytes (s : State) (core unit : Nat) (ls : List Target) : List Byte :=
  ls.flatMap fun t => (List.range unit).map fun i => s.homeByte core s.nextId (t.locs.headD 0 + i)
def rowCells (unit : Nat) (ls : List Target) (bytes : List Byte) : List (Nat × Byte) :=
  ls.zipIdx.flatMap fun e => e.1.locs.flatMap fun base => (List.range unit).map fun i => (base + i, bytes.getD (e.2 * unit + i) 0)
/-- The pointers of a row's n elements. -/
def elements (p : DWord) (unit n : Nat) : List DWord := (List.range n).map fun (i : Nat) => ptrAdd p (i * unit)

/-- Table CPY-4: the codes of BFP storage and of BFP canonical; Table CPY-5: the pairs a copy accepts. -/
abbrev storageCode (c : Nat) : Prop := 0x12 ≤ c ∧ c ≤ 0x18
abbrev canonCode (c : Nat) : Prop := 0x32 ≤ c ∧ c ≤ 0x38
abbrev PairAllowed (sf df : Nat) : Prop :=
  ((sf ≤ 5 ∨ storageCode sf ∨ canonCode sf) ∧ df = sf) ∨ (storageCode sf ∧ df = sf + 0x20) ∨ (canonCode sf ∧ sf = df + 0x20)
  ∨ ((storageCode sf ∨ canonCode sf) ∧ df = 2) ∨ ((sf = 3 ∨ sf = 4) ∧ df = 2)
/-- 11 R248, step 1. -/
abbrev CopyBad (b : CopyPar) (kind : Nat) : Prop :=
  (kind = 5 ∧ (b.sf ≠ b.df ∨ 5 < b.sf)) ∨ (kind ≠ 5 ∧ ¬ PairAllowed b.sf b.df) ∨ b.zero ≠ 0 ∨ b.rows = 0 ∨ b.cols = 0
  ∨ ((storageCode b.sf ∨ canonCode b.sf ∨ storageCode b.df ∨ canonCode b.df) ∧ b.cols % 32 ≠ 0)
  ∨ ((kind = 2 ∨ kind = 3) ∧ (64 ≤ b.dst.toNat ∨ b.df = 0 ∨ storageCode b.df ∨ (canonCode b.df ∧ 3968 < b.rows * b.cols)
      ∨ (b.df ≤ 5 ∧ 4096 < b.rows * b.cols * fmtUnit b.df)))

/-- A command whose event does one row, and one that still has rows to do. -/
abbrev oneRow (x : EngCmd) (o : EngOut) (rows : Nat) (flag : Bool) : Prop :=
  o.done = x.done + 1 ∧ o.flag = flag ∧ o.ends = if x.done + 1 < rows then .more else .status (if flag = true then 2 else 1)

/-- Table TIL-2 but BFP: code, rows and columns of a slot's tile, bytes, format, accumulator mode. -/
structure Shape where
  code : Nat
  n    : Nat
  k    : Nat
  unit : Nat
  fmt  : Fmt
  mode : Nat
def shapes : List Shape := [⟨1, 16, 16, 8, Fmt.f64, 1⟩, ⟨2, 16, 16, 4, Fmt.f32, 0⟩, ⟨3, 32, 32, 2, Fmt.f16, 0⟩, ⟨4, 32, 32, 2, Fmt.bf16, 0⟩]
abbrev Shape.fits (h : Shape) (u a b : Binding) : Prop :=
  a.code = h.code ∧ a.rows = h.n ∧ a.cols = h.k ∧ b.code = h.code ∧ b.rows = h.n ∧ b.cols = h.k ∧ u.code = h.mode
abbrev bfpFits (u a b : Binding) : Prop :=
  canonCode a.code ∧ a.rows = 32 ∧ a.cols = 64 ∧ canonCode b.code ∧ b.rows = 32 ∧ b.cols = 64 ∧ u.code = 2
/-- Bytes of an accumulator's element, and elements to a row of it. -/
def Shape.bytes (h : Shape) : Nat := if h.mode = 1 then 8 else 4
def Shape.pitch (h : Shape) : Nat := if h.mode = 1 then 16 else 32
/-- Element (i, j) from c: fused additions in increasing k, or one exact sum rounded once and added once (12 R256, R258). -/
def Shape.element (h : Shape) (minus : Bool) (a b : Binding) (i j c : Nat) : Nat :=
  let at' (x : Binding) (r k : Nat) : FNum := h.fmt.num (x.rd (h.unit * (h.k * r + k)) h.unit)
  let prod (k : Nat) : FNum := if minus = true then ((at' a i k).mul (at' b j k)).negate else (at' a i k).mul (at' b j k)
  if h.unit = 2 then (Fmt.f32.add .rne c (Fmt.f32.sum .rne ((List.range h.k).map prod)).bits).bits
  else (List.range h.k).foldl (fun c k => (h.fmt.sum .rne [prod k, h.fmt.num c]).bits) c

/-- Block pair m of element (i, j): its exact sum S, and whether it has a NaN block, overflows, or used the residue (12 R253, R259, R260). -/
def blockSum (a b : Binding) (m i j : Nat) : Int :=
  ((List.range 32).map fun k => signed 8 (a.rd (64 * i + 32 * m + k) 1) * signed 8 (b.rd (64 * j + 32 * m + k) 1)).sum
abbrev blockNan (a b : Binding) (m i j : Nat) : Prop := a.rd (3968 + 2 * i + m) 1 = 255 ∨ b.rd (3968 + 2 * j + m) 1 = 255
abbrev blockOver (a b : Binding) (m i j : Nat) : Prop := ¬ blockNan a b m i j ∧ (32767 < blockSum a b m i j ∨ blockSum a b m i j < -32767)
abbrev blockUsed (a b : Binding) (m i j : Nat) : Prop :=
  (tackOf ((List.range 32).map fun k => signed 8 (a.rd (64 * i + 32 * m + k) 1) * signed 8 (b.rd (64 * j + 32 * m + k) 1))).2 = true
/-- What the block pair makes of c under a TACKMODE. -/
def blockAdd (minus : Bool) (tack : Nat) (a b : Binding) (m i j c : Nat) : Nat :=
  if blockNan a b m i j then 0x7FC00000
  else
    let x := if tack = 2 then max (-32767) (min 32767 (blockSum a b m i j)) else blockSum a b m i j
    let y := if minus = true then -x else x
    (Fmt.f32.sum .rne [Fmt.f32.num c, .fin (decide (y < 0)) y.natAbs
      (((a.rd (3968 + 2 * i + m) 1 : Int) - 127 - (a.code - 0x31)) + ((b.rd (3968 + 2 * j + m) 1 : Int) - 127 - (b.code - 0x31)))]).bits

/-- V of 13 R278, R281 at cell number n, from the registers of a parameter block. -/
def cellValue (kind : Nat) (ps : List Word) (n : Nat) : Int :=
  let q (i : Nat) : Int := (ps.getD i 0).toInt
  let x : Int := 2 * ((n % 32 : Nat) : Int) + 1
  let y : Int := 2 * ((n / 32 : Nat) : Int) + 1
  (BitVec.ofInt 64 ((pairOf (ps.getD 0 0) (ps.getD 1 0)).toInt + 2 * q 2 * x + 2 * q 3 * y
    + (if kind = 0 then 0 else q 4 * x * x + q 5 * x * y + q 6 * y * y)
    + if kind = 3 then q 7 * x * x * x + q 8 * x * x * y + q 9 * x * y * y + q 10 * y * y * y else 0)).toInt
/-- The value delivered (13 R278): V·2^-18, or 2 to it, rounded once. -/
def cellDelivered (kind : Nat) (v : Int) : Word :=
  .ofNat 32 (if kind = 2 then (exp2Fixed (v * 2 ^ 182)).bits else (Fmt.f32.round .rne (decide (v < 0)) v.natAbs (-18) false).bits)
/-- The cell is inside (13 R279). -/
abbrev cellInside (kind : Nat) (ps : List Word) (v : Int) : Prop :=
  0 < v ∨ (v = 0 ∧ kind = 0 ∧ (0 < (ps.getD 2 0).toInt ∨ ((ps.getD 2 0).toInt = 0 ∧ 0 < (ps.getD 3 0).toInt)))

/-- The arithmetic operations of Table CHT-4, on what cD, cA and cB hold. -/
def chopArith : List (Nat × (Nat → Nat → Nat → FRes)) :=
  [(0, fun _ a b => Fmt.f32.add .rne a b), (1, fun _ a b => Fmt.f32.sub .rne a b), (2, fun _ a b => Fmt.f32.mul .rne a b), (3, fun d a b => Fmt.f32.fma .rne a b d),
   (4, fun _ a b => Fmt.f32.min a b), (5, fun _ a b => Fmt.f32.max a b), (6, fun _ a _ => exp2F32 a), (7, fun _ a _ => Fmt.f32.div .rne Fmt.f32.one a),
   (8, fun _ a _ => ⟨a, 0⟩), (9, fun d a b => ⟨if d / 2 ^ 31 = 0 then a else b, 0⟩)]
/-- Its compares: the relation, and whether it is an ordered one. -/
def chopCompare : List (Nat × (Nat → Nat → Bool) × Bool) :=
  [(10, Fmt.f32.lt, true), (11, Fmt.f32.le, true), (12, Fmt.f32.eq, false), (13, fun a b => !Fmt.f32.eq a b, false)]

/-- Combine of 15 R319. -/
def combined (op fmt : Nat) (a b : Word) : Word :=
  if fmt = 2 then (if op = 0 then .ofInt 32 (a.toInt + b.toInt) else if op = 1 then .ofInt 32 (max a.toInt b.toInt) else .ofInt 32 (min a.toInt b.toInt))
  else .ofNat 32 (if op = 0 then Fmt.f32.add .rne a.toNat b.toNat else if op = 1 then Fmt.f32.max a.toNat b.toNat else Fmt.f32.min a.toNat b.toNat).bits

/-- The elements a contributor sent. -/
def sentBy (c : Collective) (i : Nat) : List Word := ((c.parts.find? fun p => decide (p.index = i)).map (·.data)).getD []

end Sys2Proof.Claims

/-- 11 R234, R235, 14 R300: an engine takes the commands of its queue in order, of a bank queue those of one pseudo-channel. The one it takes ends with the
status its performance comes to, after its release where it completes; one that goes on keeps the rows it has done, and one whose access waits keeps the
cycle since which it waits. It leaves its queue as its status stands in its token. One that has waited for more than 3 µs ends with BUSY, and no other
(µs of the model's clock: log entry 2). -/
def Sys2Proof.Claims.enginesInOrder : Prop :=
  (∀ (core : Nat) (e : Engine) (s : State) (x : EngCmd) (r : EngOut), s.engineTurn core e s.pick = some (x, r) →
    (∃ before after, (s.core core).queueOf e = before ++ x :: after ∧ (e ≠ .bank → before = [])
      ∧ ∀ p, e = .bank → s.bankChannel x = some p → ∀ y ∈ before, s.bankChannel y ≠ some p)
    ∧ exec (.engineCommandComplete core e) s = .next (State.settleCmd core e x r))
  ∧ (∀ (core : Nat) (e : Engine) (s : State) (x : EngCmd) (q : List EngCmd) (r : EngOut), First s core e x q → r = (s.beginAq core x.scope x.aq).runCmd x core s.pick →
    (∀ st, r.ends = .status st → x.releases st = false → exec (.engineCommandComplete core e) s = .next (r.s.endCmd core e x st))
    ∧ (∀ st t, r.ends = .status st → x.releases st = true → r.s.endRl core x.scope x.aq x.rl = some t → exec (.engineCommandComplete core e) s = .next (t.endCmd core e x st))
    ∧ ((r.ends = .waits ∧ (x.waits = none ∨ x.done < r.done)) ∨ (r.ends = .more ∧ x.done < r.done) → (∀ y ∈ (r.s.core core).queueOf e, y.id = x.id → y = x) →
      exec (.engineCommandComplete core e) s = .next (r.s.onCore core fun k => k.setQueue e ((k.queueOf e).map fun y =>
        if y.id = x.id then { y with done := r.done, flag := r.flag, waits := if r.ends = .waits then some r.s.cycle else none } else y))))
  ∧ (∀ (core : Nat) (e : Engine) (s : State) (x : EngCmd) (st : Word) (g : Group), e ≠ .bank → ((s.core core).queueOf e).map (·.id) = x.id :: ((((s.core core).queueOf e).drop 1).map (·.id)) →
    (((s.core core).queueOf e).map (·.id)).Nodup → x.token ≠ 0 → x.token < 24 ∨ 27 < x.token → Tab.find s.groups x.group = some g →
    (((s.endCmd core e x st).core core).queueOf e).map (·.id) = (((s.core core).queueOf e).drop 1).map (·.id)
    ∧ ∃ h, Tab.find (s.endCmd core e x st).groups x.group = some h ∧ h.v = g.v ∧ ∀ i k, i < g.slices.length →
        h.readS i k = if k = x.token ∧ x.slices.getLsbD i = true then st else g.readS i k)
  ∧ ∀ (core : Nat) (e : Engine) (s : State),
    (∀ (x : EngCmd) (q : List EngCmd) (t : Nat) (r : EngOut), First s core e x q → x.waits = some t → t + 3 * 1880 < s.cycle → r = (s.beginAq core x.scope x.aq).runCmd x core 0 →
      r.ends = .waits → r.done = x.done → exec (.engineBusyTimeout core e) s = .next (r.s.endCmd core e x 3))
    ∧ ((∀ x ∈ (s.core core).queueOf e, ∀ t, x.waits = some t → s.cycle ≤ t + 3 * 1880) → exec (.engineBusyTimeout core e) s = .next s)

/-- 12 R264, R268, 13 R272: the claim at the head of its line is granted once enough units are free: the lowest unbound names, the first of them in its
destination, 1 in its token. A sub-array that has done no work for TGATE cycles is gated, and no other. The chart's reset clears it and leaves its owner and TE. -/
def Sys2Proof.Claims.claimsGatesAndReset : Prop :=
  (∀ (core : Nat) (acc : Bool) (s : State) (x : Claim) (rest : List Claim) (k : Block) (names : List Nat), (s.core core).claimLine acc = x :: rest →
    Tab.find s.blocks x.block = some k → names = (k.namesFree acc).take x.n →
    (x.n ≤ s.unitsFree core acc → exec (.tclaimGrant core acc) s = .next (State.writeToken (State.writeToken (State.onBlock (s.onCore core fun y => y.setClaimLine acc rest) x.block fun b =>
        { b with bindings := b.bindings ++ names.map fun n => { name := n, acc := acc, freed := none, code := 0, rows := 0, cols := 0, bytes := [] } })
        x.group x.epoch x.dest x.slices (.ofNat 32 (names.headD 0))) x.group x.epoch x.token x.slices 1))
    ∧ (s.unitsFree core acc < x.n → exec (.tclaimGrant core acc) s = .next s))
  ∧ (∀ (core : Nat) (sub : BitVec 2) (s : State) (k : Core), k = s.core core →
    (k.tgate ≠ 0 → k.gated.getLsbD sub.toNat = false → Tab.get 0 k.worked sub.toNat + k.tgate.toNat ≤ s.now core →
      ∃ t, exec (.subarrayGate core sub) s = .next t ∧ (∀ i, (t.core core).gated.getLsbD i = (k.gated.getLsbD i || decide (i = sub.toNat))) ∧ t.groups = s.groups ∧ t.mem = s.mem)
    ∧ (k.tgate = 0 ∨ s.now core < Tab.get 0 k.worked sub.toNat + k.tgate.toNat → exec (.subarrayGate core sub) s = .next s))
  ∧ ∀ (core : Nat) (s : State) (x : EngCmd) (q : List EngCmd), (s.core core).chartQ = x :: q → x.cmd = .chreset →
    ∃ t k, exec (.chartReset core) s = .next t ∧ (t.core core).chartQ = q ∧ k = (t.core core).chart ∧ (∀ r n, k.rd r n = 0) ∧ k.enable = [BitVec.allOnes 1024] ∧ k.flags = []
      ∧ k.chflags = 0 ∧ k.trappend = false ∧ k.owner = (s.core core).chart.owner ∧ k.te = (s.core core).chart.te

/-- 15 R317-R319, R321: a contribution for another HOME changes nothing here. The first of an instance opens it, one that differs or comes twice changes nothing,
and the last gives every sender of this device the result. A command of this device sends once, when it stands at the head of its queue and its reads
are done. -/
def Sys2Proof.Claims.contributionsJoin : Prop :=
  ∀ (con : Contribution) (s : State),
    (con.home ≠ s.device → exec (.collectiveContribution con) s = .next s)
    ∧ (∀ p, con.home = s.device → con.peer = some p →
      ((∀ i ∈ s.collectives, ¬ (i.first.id = con.id ∧ i.first.home = con.home)) →
        (1024 ≤ s.collectives.length ∨ con.terms = 1 → exec (.collectiveContribution con) s = .next s)
        ∧ (s.collectives.length < 1024 → con.terms ≠ 1 →
          exec (.collectiveContribution con) s = .next { s with collectives := s.collectives ++ [{ first := con, parts := [con] }] }))
      ∧ ∀ i, s.collectives = [i] → i.first.id = con.id → i.first.home = con.home →
        (sameTerms i.first con = false ∨ (∃ y ∈ i.parts, y.index = con.index) → exec (.collectiveContribution con) s = .next s)
        ∧ (sameTerms i.first con = true → (∀ y ∈ i.parts, y.index ≠ con.index) → i.parts.length + 1 ≠ i.first.terms →
          exec (.collectiveContribution con) s = .next { s with collectives := [{ i with parts := i.parts ++ [con] }] })
        ∧ (sameTerms i.first con = true → (∀ y ∈ i.parts, y.index ≠ con.index) → i.parts.length + 1 = i.first.terms →
          ∃ t, exec (.collectiveContribution con) s = .next t ∧ t.collectives = [] ∧ t.mem = s.mem ∧ t.groups = s.groups ∧ ∀ y ∈ i.parts, y.peer = none →
            ∀ core x, x ∈ (s.core core).linkQ → x.id = y.cmd →
              ∃ z ∈ (t.core core).linkQ, z.id = x.id ∧ z.cmd = x.cmd ∧ z.answer = some (1, ({ i with parts := i.parts ++ [con] } : Collective).result)))
    ∧ ∀ (core : Nat) (x : EngCmd) (q : List EngCmd) (minor : Nat) (s1 : State), con.home = s.device → (s.core core).linkQ = x :: q → x.cmd = .coll minor → x.sent = false →
      x.collPar.ok minor = true → s.atomsMove x = false → s.aqWaits core x = false → s.contribution core x minor s.pick = .ok (s1, con) →
      ∃ t, exec (.collectiveContribution con) s = .next t ∧ t.groups = s1.groups ∧ (∀ l, t.readByte l = s1.readByte l) ∧ (∀ y ∈ (t.core core).linkQ, y.id = x.id → y.sent = true)
        ∧ ((∀ i ∈ s1.collectives, ¬ (i.first.id = con.id ∧ i.first.home = con.home)) → s1.collectives.length < 1024 → con.terms ≠ 1 →
          t.collectives = s1.collectives ++ [{ first := con, parts := [con] }])

/-- 11 R243-R248: a copy with bad parameters ends with OPND, one to a slot its block does not hold with SLOTFMT; else it goes row by row. A row is read whole
(what its walks pass stays held, log entry 10), converted, and written, to memory or to the slot's place for it; the slot is EMPTY until the last row gives it its tag. BFP mantissas and exponents go
from one layout to another bit for bit, and every value is converted exactly. -/
def Sys2Proof.Claims.copyCommands : Prop :=
  (∀ (s : State) (x : EngCmd) (kind core choice : Nat) (b : CopyPar), x.cmd = .copy kind → b = x.copyPar →
    (CopyBad b kind → s.runCmd x core choice = EngOut.fault s 0x05)
    ∧ (¬ CopyBad b kind → kind = 2 ∨ kind = 3 → s.unit x.block false b.dst.toNat x.id = none → s.runCmd x core choice = EngOut.fault s 0x14)
    ∧ ∀ (row out : List Byte) (nan : Bool) (ls : List Target) (s1 : State) (o : EngOut), ¬ CopyBad b kind → s.logRegs = [] → x.done < b.rows → rowsNow choice = some 1 →
      ((kind = 5 ∧ s1 = s ∧ row = (List.range b.cols).flatMap fun _ => natToBytes (fmtUnit b.sf) b.src.toNat)
        ∨ (kind ≠ 5 ∧ s.rowAccess (s.agentFor x) (copySrc kind) .read (fmtUnit b.sf) (rowPtr b.src b.sstr x.done) 0 (fmtRow b.sf b.cols / fmtUnit b.sf) = (ls, none)
            ∧ s1 = s.walks (s.agentFor x) (copySrc kind) (fmtUnit b.sf) .read (elements (rowPtr b.src b.sstr x.done) (fmtUnit b.sf) (fmtRow b.sf b.cols / fmtUnit b.sf))
            ∧ (∀ t ∈ ls, ∀ i, i < fmtUnit b.sf → s.heldAt (t.locs.headD 0 + i) = false) ∧ row = rowBytes s (s.agentFor x).core (fmtUnit b.sf) ls)) →
      (out, nan) = convertRow b.sf b.df b.cols row → o = s.runCmd x core choice →
      (∀ ws, kind ≠ 2 → kind ≠ 3 → s1.rowAccess (s.agentFor x) (copyDst kind) .write (fmtUnit b.df) (rowPtr b.dst b.dstr x.done) 0 (out.length / fmtUnit b.df) = (ws, none) →
        (∀ c ∈ rowCells (fmtUnit b.df) ws out, s.heldAt c.1 = false) →
        oneRow x o b.rows (x.flag || nan) ∧ o.s.groups = s.groups ∧ ∀ l, o.s.readByte l = (lastAt (rowCells (fmtUnit b.df) ws out) l).getD (s.readByte l))
      ∧ ∀ y, kind = 2 ∨ kind = 3 → s.unit x.block false b.dst.toNat x.id = some y → oneRow x o b.rows (x.flag || nan) ∧ (∀ l, o.s.readByte l = s.readByte l)
        ∧ ∃ v, o.s.unit x.block false b.dst.toNat x.id = some v
          ∧ (v.code, v.rows, v.cols) = (if x.done + 1 < b.rows then (0, 0, 0) else (b.df, b.rows, b.cols))
          ∧ ∀ i, Tab.get 0 v.bytes i =
            if canonCode b.df then (if x.done * b.cols ≤ i ∧ i < (x.done + 1) * b.cols then out.getD (i - x.done * b.cols) 0
              else if 3968 + x.done * b.cols / 32 ≤ i ∧ i < 3968 + (x.done + 1) * b.cols / 32 then out.getD (b.cols + (i - (3968 + x.done * b.cols / 32))) 0
              else Tab.get 0 y.bytes i)
            else if x.done * b.cols * fmtUnit b.df ≤ i ∧ i < (x.done + 1) * b.cols * fmtUnit b.df then out.getD (i - x.done * b.cols * fmtUnit b.df) 0 else Tab.get 0 y.bytes i)
  ∧ (∀ (k c b i : Nat) (row : List Byte), 2 ≤ k → k ≤ 8 → b < c / 32 → i < 32 →
    (∀ (m : Int) (e : Byte), row.length = c / 32 * (1 + 4 * k) → e = row.getD (b * (1 + 4 * k)) 0 →
      m = signed k (bytesToNat ((row.drop (b * (1 + 4 * k) + 1)).take (4 * k)) / 2 ^ (k * i)) →
      bytesToNat (((convertRow (0x10 + k) 2 c row).1.drop (4 * (32 * b + i))).take 4) = (bfpElement k e.toNat m).toNat
      ∧ (e = 0xFF → (convertRow (0x10 + k) 2 c row).2 = true)
      ∧ (c % 32 = 0 → (convertRow (0x10 + k) (0x30 + k) c row).1.getD (32 * b + i) 0 = .ofInt 8 m ∧ (convertRow (0x10 + k) (0x30 + k) c row).1.getD (c + b) 0 = e))
    ∧ (c % 32 = 0 → row.length = c + c / 32 →
      (convertRow (0x30 + k) (0x10 + k) c row).1.getD (b * (1 + 4 * k)) 0 = row.getD (c + b) 0
      ∧ bytesToNat (((convertRow (0x30 + k) (0x10 + k) c row).1.drop (b * (1 + 4 * k) + 1)).take (4 * k)) / 2 ^ (k * i) % 2 ^ k = (row.getD (32 * b + i) 0).toNat % 2 ^ k
      ∧ bytesToNat (((convertRow (0x30 + k) 2 c row).1.drop (4 * (32 * b + i))).take 4) = (bfpElement k (row.getD (c + b) 0).toNat (signed 8 (row.getD (32 * b + i) 0).toNat)).toNat))
  ∧ (∀ (k : Nat) (e m : Int), 2 ≤ k → k ≤ 8 →
    bfpElement k 255 m = 0x7FC00000#32
    ∧ (0 ≤ e → e ≤ 254 → -(2 : Int) ^ (k - 1) ≤ m → m < (2 : Int) ^ (k - 1) → isFinite Fmt.f32 (bfpElement k e m).toNat
      ∧ valueOf Fmt.f32 (bfpElement k e m).toNat = (m : Rat) * (2 : Rat) ^ (e - 127 - ((k : Int) - 1))))
  ∧ ∀ e ∈ [(3, Fmt.f16), (4, Fmt.bf16)], ∀ (c i h : Nat) (row : List Byte), row.length = 2 * c → i < c → h = bytesToNat ((row.drop (2 * i)).take 2) →
    ∃ y, y = bytesToNat (((convertRow e.1 2 c row).1.drop (4 * i)).take 4) ∧ (isFinite e.2 h → isFinite Fmt.f32 y ∧ valueOf Fmt.f32 y = valueOf e.2 h)
      ∧ (e.2.isNan h = true → y = 0x7FC00000)

/-- 12 R253, R256-R261: a matrix command whose tags and mode are no row of Table TIL-2, or that names something unbound, ends with SLOTFMT. Else each element of
the accumulator becomes what the table's arithmetic makes of it, or of +0 with Z, and nothing else of it changes. The tack stage's S is the exact sum
of the 32 products, of whole mantissa bytes (log entry 86). Under TRAP a block pair that overflows ends the command with TACKOVF before anything of that pair is added; the flag says that a
residue was used or that a block pair overflowed. -/
def Sys2Proof.Claims.matrixCommands : Prop :=
  (∀ (s : State) (x : EngCmd) (minus z : Bool) (acc oa ob core choice : Nat), x.cmd = .tmm minus acc oa ob z →
    (s.unit x.block true acc x.id = none ∨ s.unit x.block false oa x.id = none ∨ s.unit x.block false ob x.id = none → s.runCmd x core choice = EngOut.fault s 0x14)
    ∧ ∀ (u a b : Binding) (o : EngOut), s.unit x.block true acc x.id = some u → s.unit x.block false oa x.id = some a → s.unit x.block false ob x.id = some b →
      o = s.runCmd x core choice →
      ((∀ h ∈ shapes, ¬ h.fits u a b) → ¬ bfpFits u a b → o = EngOut.fault s 0x14)
      ∧ (∀ h ∈ shapes, h.fits u a b → o.ends = .status 1 ∧ ∃ v, o.s.unit x.block true acc x.id = some v ∧ v.code = u.code ∧ v.rows = u.rows
        ∧ (∀ i j, i < h.n → j < h.n → v.rd (h.bytes * (h.pitch * i + j)) h.bytes =
            h.element minus a b i j (if z = true then 0 else u.rd (h.bytes * (h.pitch * i + j)) h.bytes))
        ∧ ∀ n, (∀ i j, i < h.n → j < h.n → ¬ (h.bytes * (h.pitch * i + j) ≤ n ∧ n < h.bytes * (h.pitch * i + j) + h.bytes)) → Tab.get 0 v.bytes n = Tab.get 0 u.bytes n)
      ∧ (bfpFits u a b →
        (u.rows = 1 → (∃ i j, i < 32 ∧ j < 32 ∧ blockOver a b 0 i j) → o = EngOut.fault s 0x13)
        ∧ (u.rows = 1 → (∀ i j, i < 32 → j < 32 → ¬ blockOver a b 0 i j) → (∃ i j, i < 32 ∧ j < 32 ∧ blockOver a b 1 i j) → o.ends = .status 0x80000013
          ∧ ∃ v, o.s.unit x.block true acc x.id = some v ∧ ∀ i j, i < 32 → j < 32 →
              v.rd (4 * (32 * i + j)) 4 = blockAdd minus u.rows a b 0 i j (if z = true then 0 else u.rd (4 * (32 * i + j)) 4))
        ∧ (u.rows ≠ 1 ∨ (∀ m i j, m < 2 → i < 32 → j < 32 → ¬ blockOver a b m i j) →
          (∃ v, o.s.unit x.block true acc x.id = some v ∧ v.code = u.code ∧ v.rows = u.rows ∧ ∀ i j, i < 32 → j < 32 →
              v.rd (4 * (32 * i + j)) 4 = blockAdd minus u.rows a b 1 i j (blockAdd minus u.rows a b 0 i j (if z = true then 0 else u.rd (4 * (32 * i + j)) 4)))
          ∧ ((∃ m i j, m < 2 ∧ i < 32 ∧ j < 32 ∧ (blockUsed a b m i j ∨ blockOver a b m i j)) → o.ends = .status 2)
          ∧ ((∀ m i j, m < 2 → i < 32 → j < 32 → ¬ (blockUsed a b m i j ∨ blockOver a b m i j)) → o.ends = .status 1))))
  ∧ (∀ products : List Int, products.length = 32 → (tackOf products).1 = products.sum)
  ∧ ∀ (s : State) (x : EngCmd) (acc core choice : Nat) (o : EngOut), o = s.runCmd x core choice →
    (∀ mode tack, x.cmd = .tzero acc ∨ x.cmd = .tcfg acc mode tack → s.unit x.block true acc x.id = none → o = EngOut.fault s 0x14)
    ∧ ∀ u, s.unit x.block true acc x.id = some u →
      (x.cmd = .tzero acc → o.ends = .status 1 ∧ ∃ v, o.s.unit x.block true acc x.id = some v ∧ v.code = u.code ∧ v.rows = u.rows ∧ ∀ n, Tab.get 0 v.bytes n = 0)
      ∧ ∀ mode tack, x.cmd = .tcfg acc mode tack → o.ends = .status 1 ∧ ∃ v, o.s.unit x.block true acc x.id = some v ∧ v.code = mode
        ∧ v.rows = (if mode = 2 then tack else u.rows) ∧ v.bytes = u.bytes

/-- 13 R276-R286: what a chart command does at each cell, in the cells its top enable entry enables and in no other: an expression delivers its value and may
replace or push the enabled set by the cells inside it; an operation delivers its result and ORs what it signals into the cell's flags; a compare keeps
the cells where it holds; `chvis` is the depth test, and `chset.all` alone ignores the enable. -/
def Sys2Proof.Claims.chartCommands : Prop :=
  (∀ (s : State) (x : EngCmd) (core choice : Nat) (d : Nat),
    (∀ kind eop, x.cmd = .chexp d kind eop ∨ (x.cmd = .chcubic d eop ∧ kind = 3) → s.runCmd x core choice = EngOut.ok (onChartOf s core fun k => k.runExp d kind eop x.params))
    ∧ (∀ op a b te, x.cmd = .chop op d a b te → s.runCmd x core choice = EngOut.ok (onChartOf s core fun k => k.runChop op d a b te))
    ∧ (∀ op, x.cmd = .chenab op → s.runCmd x core choice = EngOut.ok (onChartOf s core fun k => k.runEnab op))
    ∧ (x.cmd = .chvis d → s.runCmd x core choice = EngOut.ok (onChartOf s core fun k => k.runVis d (x.par 0) (x.par 1)))
    ∧ ∀ all, x.cmd = .chset d all → s.runCmd x core choice = EngOut.ok (onChartOf s core fun k => k.runSet d all (x.par 0)))
  ∧ ∀ (k : Chart) (d r n : Nat), n < 1024 →
    (∀ (kind eop : Nat) (ps : List Word), kind < 4 →
      ((k.runExp d kind eop ps).rd r n = if r = d ∧ k.top.getLsbD n = true then cellDelivered kind (cellValue kind ps n) else k.rd r n)
      ∧ (eop = 1 ∨ eop = 2 → ((k.runExp d kind eop ps).top.getLsbD n = true ↔ k.top.getLsbD n = true ∧ cellInside kind ps (cellValue kind ps n)))
      ∧ (eop = 0 → (k.runExp d kind eop ps).enable = k.enable) ∧ (eop = 1 → (k.runExp d kind eop ps).enable.dropLast = k.enable.dropLast)
      ∧ (eop = 2 → (k.runExp d kind eop ps).enable.dropLast = k.enable) ∧ (k.runExp d kind eop ps).flags = k.flags)
    ∧ (∀ e ∈ chopArith, ∀ (a b : Nat) (te : BitVec 5) (y : FRes), y = e.2 (k.rd d n).toNat (k.rd a n).toNat (k.rd b n).toNat →
      (k.runChop e.1 d a b te).rd r n = (if r = d ∧ k.top.getLsbD n = true then .ofNat 32 y.bits else k.rd r n)
      ∧ Tab.get 0 (k.runChop e.1 d a b te).flags n = (if k.top.getLsbD n = true then Tab.get 0 k.flags n ||| .ofNat 5 y.flags else Tab.get 0 k.flags n)
      ∧ (k.runChop e.1 d a b te).enable = k.enable)
    ∧ (∀ e ∈ chopCompare, ∀ (a b : Nat) (te : BitVec 5),
      (k.runChop e.1 d a b te).rd r n = k.rd r n ∧ (k.runChop e.1 d a b te).top.getLsbD n = (k.top.getLsbD n && e.2.1 (k.rd a n).toNat (k.rd b n).toNat)
      ∧ Tab.get 0 (k.runChop e.1 d a b te).flags n = if k.top.getLsbD n = true
          then Tab.get 0 k.flags n ||| .ofNat 5 (Fmt.f32.cmpFlags e.2.2 (k.rd a n).toNat (k.rd b n).toNat) else Tab.get 0 k.flags n)
    ∧ ((k.runEnab 0).enable = k.enable ++ [k.top] ∧ (k.runEnab 1).enable = k.enable.dropLast ∧ (k.runEnab 3).enable = [BitVec.allOnes 1024]
      ∧ ∀ below, k.enable.dropLast.getLast? = below →
        (k.runEnab 2).top.getLsbD n = ((below.getD (BitVec.allOnes 1024)).getLsbD n && !k.top.getLsbD n) ∧ (k.runEnab 2).enable.dropLast = k.enable.dropLast)
    ∧ (∀ (all : Bool) (x : Word), (k.runSet d all x).rd r n = if r = d ∧ (all = true ∨ k.top.getLsbD n = true) then x else k.rd r n)
    ∧ ∀ lo hi : Word, (k.runVis d lo hi).rd r n =
        if k.top.getLsbD n = true ∧ Fmt.f32.lt (k.rd d n).toNat (k.rd 14 n).toNat = true then (if r = 14 then k.rd d n else if r = 12 then lo else if r = 13 then hi else k.rd r n)
        else k.rd r n

/-- 14 R303-R306: a `bkmac` for a pseudo-channel its block does not hold in all-bank mode ends with BKFAULT, one whose b register does not hold its format in some
bank with SLOTFMT. Each row pass replaces, in every bank, one partial sum by what the table's arithmetic makes of it, or of +0 with Z, and nothing else;
the flag says that one is an infinity or a NaN. -/
def Sys2Proof.Claims.bankPasses : Prop :=
  ∀ (s : State) (x : EngCmd) (bfp zero : Bool) (core choice p pa w rows first br : Nat), x.cmd = .bkmac bfp zero → s.calibrated x choice = false →
    w = (x.par 3).toNat → rows = w % 2 ^ 6 + 1 → first = w / 2 ^ 8 % 2 ^ 6 → br = w / 2 ^ 16 % 2 ^ 4 →
    w / 2 ^ 6 % 4 = 0 → w / 2 ^ 14 % 4 = 0 → w / 2 ^ 20 = 0 → first + rows ≤ 64 → s.bankPa (s.agentFor x) (x.ptr 0) = .ok pa → p = bankNum pa →
    ((s.pchannel p).holder ≠ some x.block → s.runCmd x core choice = EngOut.fault s 0x1A)
    ∧ ((s.pchannel p).holder = some x.block → (∃ b, b < 16 ∧ ((s.pchannel p).breg b br).code ≠ if bfp = true then 2 else 1) → s.runCmd x core choice = EngOut.fault s 0x14)
    ∧ ∀ (row ex : Nat) (o : EngOut), (s.pchannel p).holder = some x.block → (∀ b, b < 16 → ((s.pchannel p).breg b br).code = if bfp = true then 2 else 1) →
      x.done < rows → rowsNow choice = some 1 → s.stripe (s.agentFor x) p (rowPtr (x.ptr 0) (x.par 2) x.done) = .ok row →
      (bfp = true → s.stripe (s.agentFor x) p (rowPtr (x.ptr 4) (x.par 6) (x.done / 16)) = .ok ex) → o = s.runCmd x core choice →
      let col (q b : Nat) : Nat := s.readNat (q + 32 * b) 32
      let half (y k : Nat) : FNum := Fmt.f16.num (y / 2 ^ (16 * k) % 2 ^ 16)
      let start (b : Nat) : Nat := if zero = true then 0 else (Tab.get 0 (s.pchannel p).p (b * 64 + first + x.done)).toNat
      let reg (b : Nat) : BReg := (s.pchannel p).breg b br
      let eb (b m : Nat) : Nat := col ex b / 2 ^ (8 * (2 * (x.done % 16) + m)) % 2 ^ 8
      let xe (b m : Nat) : Nat := if m = 0 then (reg b).xe0.toNat else (reg b).xe1.toNat
      let dot (b m : Nat) : Int := ((List.range 32).map fun k => signed 4 (col row b / 2 ^ (4 * (32 * m + k))) * signed 4 ((reg b).bits.toNat / 2 ^ (4 * (32 * m + k)))).sum
      let add (b m c : Nat) : Nat := if eb b m = 255 ∨ xe b m = 255 then 0x7FC00000 else
        (Fmt.f32.sum .rne [Fmt.f32.num c, .fin (decide (dot b m < 0)) (dot b m).natAbs (((eb b m : Int) - 130) + ((xe b m : Int) - 130))]).bits
      let result (b : Nat) : Nat := if bfp = true then add b 1 (add b 0 (start b)) else
        (Fmt.f32.add .rne (start b) (Fmt.f32.sum .rne ((List.range 16).map fun k => (half (col row b) k).mul (half (reg b).bits.toNat k))).bits).bits
      (∀ b e, b < 16 → e < 64 → Tab.get 0 (o.s.pchannel p).p (b * 64 + e) = if e = first + x.done then .ofNat 32 (result b) else Tab.get 0 (s.pchannel p).p (b * 64 + e))
      ∧ (o.s.pchannel p).b = (s.pchannel p).b ∧ o.s.mem = s.mem ∧ o.s.groups = s.groups
      ∧ ((∃ b, b < 16 ∧ result b / 2 ^ 23 % 2 ^ 8 = 255) → oneRow x o rows true) ∧ ((∀ b, b < 16 → result b / 2 ^ 23 % 2 ^ 8 ≠ 255) → oneRow x o rows x.flag)

/-- 15 R317-R319, R321: what HOME sends of a complete instance. `coll.red` and `coll.redq` reduce element by element over the canonical tree, whatever the order
of arrival: integer sums wrap, integer maxima and minima are those of all contributions, and a bfloat16 root is rounded once (that the one leaf of a
collective gives the canonical NaN too is log entry 46, DEDUCED). `coll.bcast` sends what
ROOT contributed, `coll.gather` the contributions by increasing INDEX. -/
def Sys2Proof.Claims.reductionResults : Prop :=
  ∀ (c : Collective) (size : Nat), size = (if c.first.fmt = 1 then 2 else 4) →
    (c.first.minor = 2 → c.result = bytesOf size (sentBy c c.first.root))
    ∧ (c.first.minor = 3 → c.result = (List.range c.first.terms).flatMap fun i => bytesOf size (sentBy c i))
    ∧ (c.first.minor < 2 → 0 < c.first.terms → c.result.length = size * c.first.count ∧ ∀ (e y : Nat), e < c.first.count → y = bytesToNat ((c.result.drop (size * e)).take size) →
      (∀ (node : Nat → Nat → Option Word) (h : Nat),
        (∀ n, node 0 n = if n < c.first.terms then some (if c.first.fmt = 1 then .ofNat 32 (((sentBy c n).getD e 0).toNat * 2 ^ 16) else (sentBy c n).getD e 0) else none) →
        (∀ l n, node (l + 1) n = match node l (2 * n), node l (2 * n + 1) with
          | some a, some b => some (combined c.first.op c.first.fmt a b)
          | some a, none => some a
          | none, z => z) →
        c.first.terms ≤ 2 ^ h → (∀ k, c.first.terms ≤ 2 ^ k → h ≤ k) → ∃ root, node h 0 = some root
          ∧ (c.first.fmt = 0 → y = if Fmt.f32.isNan root.toNat = true then 0x7FC00000 else root.toNat)
          ∧ (c.first.fmt = 1 → y = (Fmt.f32.convert Fmt.bf16 .rne root.toNat).bits) ∧ (c.first.fmt = 2 → y = root.toNat))
      ∧ (c.first.fmt = 2 → c.first.op = 0 → BitVec.ofNat 32 y = ((List.range c.first.terms).map fun i => (sentBy c i).getD e 0).sum)
      ∧ (c.first.fmt = 2 → c.first.op = 1 ∨ c.first.op = 2 → (∃ i, i < c.first.terms ∧ BitVec.ofNat 32 y = (sentBy c i).getD e 0)
        ∧ ∀ i, i < c.first.terms → if c.first.op = 1 then ((sentBy c i).getD e 0).toInt ≤ (BitVec.ofNat 32 y).toInt else (BitVec.ofNat 32 y).toInt ≤ ((sentBy c i).getD e 0).toInt))

/-! Traps, stops and system words (16 R326-R333, 17 R351-R353, 07 R141, 08 R178). -/

namespace Sys2Proof.Claims

/-- 03 R59, 16 R331, R333: a word that is no instruction raises ILLOP, a removed one REMOVED, `trap n` SWT with n in FADDR; none has another effect. -/
def trappingWords : Prop :=
  ∀ (s : State) (u : Issue) (g : Group), Issuing s u g →
    (∀ (w : Word) (r : Reject), decodeWord w = .error r → Clear s (u.ctx g) [] → runWord w s = .next (s.wordTrapped u ((u.ctx g).trap 3 0x01)))
    ∧ (∀ w : BitVec 32, Clear s (u.ctx g) [] → exec (.wordNotAnInstruction w) s = .next (s.wordTrapped u ((u.ctx g).trap 3 0x01)))
    ∧ (∀ (m : BitVec 4) (d a b : BitVec 7), Clear s (u.ctx g) [] → exec (.msadB4 m d a b) s = .next (s.wordTrapped u ((u.ctx g).trap 2 0x02)))
    ∧ ∀ n : BitVec 14, Clear s (u.ctx g) [] → exec (.trap n) s = .next (s.wordTrapped u { (u.ctx g).trap 7 0x17 with faddr := n.setWidth 64 })

/-- 16 R331: `tret` outside a handler, or from a split that lacks a slice of H, raises OPND. Else every saved sequencer is restored less the lanes that have
exited, the trapped split at TPC after a trap and each slice at its own PC after a pre-emption, the banked registers are gone, and every other register stays. -/
def returnWord : Prop :=
  ∀ (s : State) (u : Issue) (g : Group), Issuing s u g → Clear s (u.ctx g) [] →
    ((u.ctx g).g.handler = none → exec .tret s = .next (s.wordTrapped u ((u.ctx g).trap 7 0x05)))
    ∧ ∀ h, (u.ctx g).g.handler = some h →
      ((∃ i, i < 32 ∧ h.h.getLsbD i = true ∧ u.slices.getLsbD i = false) → exec .tret s = .next (s.wordTrapped u ((u.ctx g).trap 7 0x05)))
      ∧ ((∀ i, h.h.getLsbD i = true → u.slices.getLsbD i = true) →
        ∃ t x, exec .tret s = .next (State.wordJumped u (t.settleEnd (u.ctx g).g.block)) ∧ sameMemory s t ∧ otherGroups s t u.group
          ∧ Tab.find t.groups u.group = some x ∧ x.handler = none ∧ x.v = g.v ∧ x.m = g.m ∧ x.tpc = g.tpc ∧ x.tcause = g.tcause
          ∧ (∀ i k, x.readS i k = if k = 0 then 0 else Tab.get 0 (g.slice i).s k)
          ∧ ∀ i, i < g.slices.length → i < 32 → match Tab.find h.frame i with
            | none => x.slice i = g.slice i
            | some q => (x.slice i).gang = 0 ∧ (x.slice i).exited = (g.slice i).exited ∧ (q.m &&& ~~~(g.slice i).exited ≠ 0 → (x.slice i).seq =
                { q with a := q.a &&& ~~~(g.slice i).exited, m := q.m &&& ~~~(g.slice i).exited,
                         pc := if h.kind = .trap ∧ h.s.getLsbD i = true then g.tpc else q.pc }))

/-- Every slice of the group outside a set has stopped: at a clause boundary, waiting, or with no current entry (16 R327). -/
abbrev othersStopped (g : Group) (set : SliceSet) : Prop :=
  ∀ i, i < g.slices.length → set.getLsbD i = false → (g.slice i).gang = 0 ∨ (g.slice i).seq.wait ≠ .none ∨ (g.slice i).seq.m = 0

/-- TCAUSE of a trap with a code (Table TRP-1). -/
def causeWord (t : Trap) (code : Nat) : Nat := t.async.toNat * 2 ^ 31 + lowest 0 t.slices * 2 ^ 16 + t.kind.toNat * 2 ^ 12 + t.level.toNat * 2 ^ 8 + code

/-- Slice i of the trapped split holds a lane of m7. -/
def trapsIn (t : Trap) (i : Nat) : Bool := decide (i < 32) && t.slices.getLsbD i && decide (laneNib t.lanes i ≠ 0)

/-- Trap entry (16 R327 step 4): the trap registers and m7 written, the trapped split saved, the slices of it with a trapped lane, else its lowest, at TRAPBASE. -/
def entered (g x : Group) (t : Trap) : Prop :=
  x.tpc = t.pc ∧ x.tcause.toNat = causeWord t t.cause.toNat ∧ x.tword = t.word ∧ x.faddr = t.faddr ∧ x.v = g.v ∧ x.trap = none
  ∧ (∀ e k, 0 < k → x.readM e k = if k = 7 then t.lanes else g.readM e k)
  ∧ ∃ h, x.handler = some h ∧ h.kind = .trap ∧ h.s = t.slices ∧ h.banked = []
    ∧ (∀ i, i < 32 → i < g.slices.length → h.h.getLsbD i = (if (List.range g.slices.length).any (trapsIn t) = true then trapsIn t i else decide (i = lowest 0 t.slices)))
    ∧ (∀ i, i < 32 → i < g.slices.length → h.h.getLsbD i = true → (x.slice i).seq.pc = g.trapBase ∧ (x.slice i).seq.a = laneNib t.lanes i
        ∧ (x.slice i).seq.m = (if laneNib t.lanes i = 0 then ~~~(g.slice i).exited else laneNib t.lanes i)
        ∧ (x.slice i).seq.parked = [] ∧ (x.slice i).seq.releases = [] ∧ (x.slice i).seq.susp = [])
    ∧ ∀ i, t.slices.getLsbD i = true → (∀ o, (g.slice i).seq.wait ≠ .way o) → Tab.find h.frame i = some { (g.slice i).seq with wait := .none }

/-- A split set back (16 R329): its slices stand at the trapping word, and every register stays. -/
def setBackTo (g x : Group) (t : Trap) : Prop :=
  x.v = g.v ∧ x.m = g.m ∧ x.tpc = g.tpc ∧ x.tcause = g.tcause ∧ x.faddr = g.faddr
  ∧ (g.handler = none → ∀ i, i < g.slices.length → if t.slices.getLsbD i = true then standsAt x i t.pc ∧ (x.slice i).seq.wait = .none else x.slice i = g.slice i)

/-- A group killed (16 R332), and the record its launch owes for it (Table TRP-2). -/
def killedFor (s t : State) (n : Nat) (g : Group) (tcause inner : Nat) (tr : Trap) : Prop :=
  (∃ x, Tab.find t.groups n = some x ∧ x.killed = true ∧ x.slices.length = g.slices.length ∧ ∀ i, i < g.slices.length → (x.slice i).exited = 15)
  ∧ (∀ l, t.readByte l = s.readByte l)
  ∧ ∀ k l, Tab.find s.blocks g.block = some k → Tab.find s.launches k.launch = some l → ∃ m, Tab.find t.launches k.launch = some m
    ∧ m.kills = l.kills ++ [{ tcause := .ofNat 32 tcause, tword := tr.word, inner := inner, pc := tr.pc, faddr := tr.faddr, blockx := k.x, blocky := k.y,
                              blockz := k.z, gid := g.gid, index := l.index }]

/-- The block of a group halted: its record names the issuing split, the timers of its groups stand, and the split stands at the next word (17 R352, 04 R84). -/
def halted (s t : State) (u : Issue) (bn kind n : Nat) : Prop :=
  (∀ l, t.readByte l = s.readByte l) ∧ t.cores = s.cores
  ∧ (∃ b k, Tab.find s.blocks bn = some b ∧ Tab.find t.blocks bn = some k
      ∧ (b.halt = none → k.halt = some { group := u.group, slices := u.slices, kind := kind, n := n, pc := u.pc, index := none }))
  ∧ (∀ m y, Tab.find t.groups m = some y → y.block = bn → y.runs = none)
  ∧ ∃ x, Tab.find t.groups u.group = some x ∧ ∀ i, i < x.slices.length → u.slices.getLsbD i = true → standsAt x i u.next

/-- The privileged system words of these chapters (07 R141, 08 R178, 17 R352). -/
def PrivilegedWord (i : Instr) : Prop :=
  (∃ o, i = .l2way o) ∨ (∃ o, i = .l2wayRd o) ∨ (∃ o n, i = .tlbinvPage o n) ∨ (∃ n, i = .tlbinvCtx n) ∨ i = .tlbinvAll ∨ (∃ o, i = .sndgOn o) ∨ i = .sndgOff ∨ ∃ o, i = .sndgRd o

/-- What the invalidation of a `tlbinv` leaves: of the translations held those it does not select, no clause of a selected context fetched ahead, and, where it
selects whole contexts, their roots in effect. -/
def invalidated (s t : State) (tlb : TlbEntry → Prop) (walk : WalkEntry → Prop) (ctxs : Nat → Prop) (roots : Prop) : Prop :=
  (∀ n e, e ∈ (t.core n).tlb ↔ e ∈ (s.core n).tlb ∧ ¬ tlb e) ∧ (∀ n e, e ∈ Tab.get [] t.sectorTlb n ↔ e ∈ Tab.get [] s.sectorTlb n ∧ ¬ tlb e)
  ∧ (∀ n e, e ∈ Tab.get [] t.walkCache n ↔ e ∈ Tab.get [] s.walkCache n ∧ ¬ walk e) ∧ (∀ l, t.readByte l = s.readByte l)
  ∧ (∀ m h, Tab.find t.groups m = some h → ctxs (t.ctxOf h) → h.fetched = [])
  ∧ (roots → ∀ n space, ctxs n →
      (t.context n).rootOf space = if space = 1 then (s.context n).root1 else if space = 2 then (s.context n).root2 else (s.context n).root0)

/-- The word of a `tlbinv` is over at once where nothing of the device is under way; where a store in flight was made through a pointer it selects, the split
waits, and the store is among what it waits for. -/
def awaited (s : State) (u : Issue) (sel : Nat → Nat → Nat → Bool) (t : State) : Prop :=
  ((∀ e ∈ s.cores, e.2.stores = []) → (∀ e ∈ s.groups, ∀ o ∈ e.2.longs, s.wordOpen e.1 o.1 = false) → t.invals = s.invals)
  ∧ ∀ e ∈ s.cores, ∀ p ∈ e.2.stores, s.selects sel p.group p.ptrs = true → ∃ x, t.invals = s.invals ++ [x] ∧ (e.1, p.id) ∈ x.stores
      ∧ ∀ h, Tab.find t.groups u.group = some h → ∀ i, i < h.slices.length → u.slices.getLsbD i = true → (h.slice i).seq.wait = .inval x.op

/-- The bytes of 32 sounding buckets. -/
def bucketByte (x : Sounding) (i : Nat) : Byte := .ofNat 8 (Tab.get 0 x.buckets (i / 4) / 2 ^ (8 * (i % 4)))

end Sys2Proof.Claims

/-- 03 R59 with Table ENC-8, 16 R331, R333: the words that only trap, and the return from a handler. -/
def Obligations.TrapAndReturnWords : Prop := trappingWords ∧ returnWord

/-- 16 R327, R328, R329, R332: how a trap of a group is delivered. Its split stops as it is presented, and it is pending with
TRAPBASE.EN as it then stands; where a `wayin` of a lower slice runs out of time in that cycle, its WAYTO is presented in its place. TRAP_ENTRY delivers it in
a later cycle: with a handler installed once every other split has stopped, and without one by killing the group, whose launch then owes the kill record. Of two presented
in one cycle the one with the lower slice is delivered and the other split is set back; a trap presented later than one pending, or while the block
stops, sets its split back. Inside a handler the handler's own trap, a late fault of the trapped split, and any late fault during a pre-emption
handler kill the group with DOUBLE and the inner code; a late fault of another split sets that split back. -/
def Obligations.TrapsAreDelivered : Prop :=
  ∀ (s : State) (n : Nat) (g : Group) (t : Trap) (op : Option Nat), Tab.find s.groups n = some g → g.killed = false →
    (g.handler = none → g.trap = none → s.blockStops g.block = false → g.lateWayin { t with born := s.nowOf g } = none →
      ∃ x, Tab.find (s.presentTrap n t op).groups n = some x ∧ x.trap = some { t with born := s.nowOf g, en := g.trapEn } ∧ x.handler = none ∧ x.tpc = g.tpc ∧ x.v = g.v ∧ x.m = g.m
        ∧ ∀ i, i < g.slices.length → t.slices.getLsbD i = true → (x.slice i).gang = 0)
    ∧ (∀ o w, g.handler = none → g.trap = none → s.blockStops g.block = false → g.lateWayin { t with born := s.nowOf g } = some (o, w) →
      ∃ x, Tab.find (s.presentTrap n t op).groups n = some x
        ∧ x.trap = some { w.trap 0x0F (Tab.get 0 w.keys w.lateLane) w.exec with born := s.nowOf g, en := g.trapEn }
        ∧ ∀ i, i < g.slices.length → t.slices.getLsbD i = true → w.slices.getLsbD i = false → standsAt x i t.pc)
    ∧ (g.trap = some t →
      (s.nowOf g ≤ t.born → exec (.trapEntry n) s = .next s)
      ∧ (t.born < s.nowOf g → t.en = true →
        (othersStopped g t.slices → ∃ y x, exec (.trapEntry n) s = .next y ∧ Tab.find y.groups n = some x ∧ entered g x t ∧ ∀ l, y.readByte l = s.readByte l)
        ∧ (¬ othersStopped g t.slices → exec (.trapEntry n) s = .next s))
      ∧ (t.born < s.nowOf g → t.en = false → ∃ y, exec (.trapEntry n) s = .next y ∧ killedFor s y n g (causeWord t t.cause.toNat) 0 t))
    ∧ (∀ y, g.handler = none → g.trap = some y →
      (y.born = s.nowOf g → lowest 32 t.slices < lowest 32 y.slices → ∃ x, Tab.find (s.presentTrap n t op).groups n = some x ∧ x.trap = some { t with born := s.nowOf g, en := g.trapEn }
        ∧ ∀ i, i < g.slices.length → y.slices.getLsbD i = true → t.slices.getLsbD i = false → standsAt x i y.pc)
      ∧ (y.born ≠ s.nowOf g ∨ lowest 32 y.slices ≤ lowest 32 t.slices → ∃ x, Tab.find (s.presentTrap n t op).groups n = some x ∧ x.trap = some y ∧ setBackTo g x t))
    ∧ (g.handler = none → g.trap = none → s.blockStops g.block = true → ∃ x, Tab.find (s.presentTrap n t op).groups n = some x ∧ x.trap = none ∧ setBackTo g x t)
    ∧ ∀ h, g.handler = some h →
      (op = none ∨ (∃ o, op = some o ∧ ((o ∉ h.before ∧ h.id ≤ o) ∨ (t.async = true ∧ (h.kind = .pre ∨ t.slices &&& h.s ≠ 0)))) →
        killedFor s (s.presentTrap n t op) n g (causeWord t 0x1E) t.cause.toNat t)
      ∧ (∀ o, op = some o → o ∈ h.before ∨ o < h.id → h.kind = .trap → t.slices &&& h.s = 0 → ∃ x, Tab.find (s.presentTrap n t op).groups n = some x ∧ setBackTo g x t)

/-- 03 R60, 07 R141, R152, 08 R178, R179, 17 R352: `l2way`, `tlbinv` and `sndg` in an unprivileged launch raise PRIV. `l2way` waits for the atomics under way in
the scratch of its die (log entry 67), then divides the ways: scratch bytes below both the old and the new size keep their contents and the others read 0
(log entry 35); `l2way.rd` reads the count. `tlbinv` waits until its release can be made, drops what it selects, and its split then waits for the accesses
translated with it (log entry 61). A word that no chain has checked before is meant where a check fails. -/
def Obligations.PrivilegedWords : Prop :=
  ∀ (s : State) (u : Issue) (g : Group) (c : Ctx) (die : Nat), Issuing s u g → c = u.ctx g → die = s.coreOf c.g / 144 →
    (u.snap = none → ∀ i, PrivilegedWord i → s.privOf c.g = false → exec i s = .next (s.wordTrapped u (c.trap 4 0x06)))
    ∧ (s.privOf c.g = true → ∀ o : BitVec 7, isS o = true → Clear s c [use o] →
      (15 < (c.rd o 0).toNat → exec (.l2way o) s = .next (s.wordTrapped u (c.trap 7 0x05)))
      ∧ ((c.rd o 0).toNat ≤ 15 → s.scratchAtom die = true → exec (.l2way o) s = .next (s.wordWaits u))
      ∧ ((c.rd o 0).toNat ≤ 15 → s.scratchAtom die = false → ∃ t, exec (.l2way o) s = .next (State.wordDone u t) ∧ t.groups = s.groups ∧ (s.logRegs = [] → t.cores = s.cores)
          ∧ (∀ d, Tab.get 0 t.l2way d = if d = die then (c.rd o 0).toNat else Tab.get 0 s.l2way d)
          ∧ ∀ l, ¬ inLogRing s l →
            t.readByte l = if Ops.l2Loc die 0 ≤ l ∧ l < Ops.l2Loc die (2 ^ 35) ∧ min (c.rd o 0).toNat (Tab.get 0 s.l2way die) * 50331648 ≤ l - Ops.l2Loc die 0
              then 0 else s.readByte l)
      ∧ exec (.l2wayRd o) s = .next (State.wordDone u (s.putRegs c o.toNat fun _ => [.ofNat 32 (Tab.get 0 s.l2way die)])))
    ∧ (s.privOf c.g = true → s.release u.group (s.coreOf c.g) 2 = none → Clear s c [] → (∀ n, exec (.tlbinvCtx n) s = .next (s.wordWaits u)) ∧ exec .tlbinvAll s = .next (s.wordWaits u))
    ∧ (∀ s1, s.privOf c.g = true → s.release u.group (s.coreOf c.g) 2 = some s1 →
      (∀ n : BitVec 6, Clear s c [] → ∃ t, exec (.tlbinvCtx n) s = .next (State.wordDone u t)
        ∧ invalidated s1 t (fun e => e.ctx = n.toNat) (fun e => e.ctx = n.toNat) (fun x => x = n.toNat) True ∧ awaited s1 u (fun x _ _ => decide (x = n.toNat)) t)
      ∧ (Clear s c [] → ∃ t, exec .tlbinvAll s = .next (State.wordDone u t) ∧ invalidated s1 t (fun _ => True) (fun _ => True) (fun _ => True) True ∧ awaited s1 u (fun _ _ _ => true) t)
      ∧ ∀ (o : BitVec 7) (n : BitVec 6), isS o = true → isEven o = true → Clear s c [useN o 2] →
        ∃ t, exec (.tlbinvPage o n) s = .next (State.wordDone u t) ∧ invalidated s1 t
          (fun e => e.ctx = n.toNat ∧ e.space = ptrSpace (c.rd64 o 0) ∧ e.space ≤ 2 ∧ e.va ≤ ptrAddr (c.rd64 o 0) ∧ ptrAddr (c.rd64 o 0) < e.va + e.size)
          (fun e => e.ctx = n.toNat ∧ e.space = ptrSpace (c.rd64 o 0) ∧ e.space ≤ 2 ∧ e.path = ptrAddr (c.rd64 o 0) / 2 ^ (57 - 9 * e.level)) (fun x => x = n.toNat) False
        ∧ awaited s1 u (fun x space va => decide (x = n.toNat ∧ space = ptrSpace (c.rd64 o 0) ∧ space ≤ 2 ∧ va / 2 ^ 12 = ptrAddr (c.rd64 o 0) / 2 ^ 12)) t)
    ∧ ∀ x, s.invals = [x] →
      ((x.left s).over = true → s.settleInvals.invals = [] ∧ ∀ m y i, Tab.find s.groups m = some y → i < y.slices.length → (y.slice i).seq.wait = .inval x.op →
          ∃ z, Tab.find s.settleInvals.groups m = some z ∧ (z.slice i).seq.wait = .none)
      ∧ ((x.left s).over = false → s.settleInvals.invals = [x.left s] ∧ ∀ m, (Tab.find s.settleInvals.groups m).map (·.slices) = (Tab.find s.groups m).map (·.slices))

/-- A sounding as `sndg.off` leaves it: every tag register clear, and the samples still held counted in bucket 31 (17 R353). -/
def Sys2Proof.Claims.soundingEnds (x y : Sounding) : Prop :=
  y.on = false ∧ y.tags = [] ∧ y.p = x.p ∧ y.counts = x.counts ∧ (∀ i, i ≠ 31 → Tab.get 0 y.buckets i = Tab.get 0 x.buckets i)
  ∧ Tab.get 0 y.buckets 31 = min (Tab.get 0 x.buckets 31 + (x.tags.map fun e => e.2.length).sum) (2 ^ 32 - 1)

/-- 17 R352, R353: the observation words. `progress` counts where a lane is active; `stop` and `brkpt` act by DBGCTL: nothing, the trap DBG with n in FADDR, or the
block halted. `sndg.on` starts the launch's soundings unless another launch's run, and says which; `sndg.off` stops the soundings under way, the samples
still held counted in bucket 31; `sndg.rd` writes the 32 buckets of the launch's soundings, or of the one under way where it has none (log entry 70), and
clears them; what the walks of its pointer pass stays held (log entry 10). -/
def Obligations.ObservationWords : Prop :=
  ∀ (s : State) (u : Issue) (g : Group) (c : Ctx) (dbg : BitVec 3), Issuing s u g → c = u.ctx g → dbg = (s.context (s.ctxOf c.g)).dbgctl →
    (∀ n : BitVec 4, Clear s c [] → exec (.progress n) s = .next (State.wordDone u (if c.exec = 0 then s else
      { s with progress := Tab.set 0 s.progress (s.ctxOf c.g * 16 + n.toNat) (Tab.get 0 s.progress (s.ctxOf c.g * 16 + n.toNat) + 1) })))
    ∧ (Clear s c [] → (dbg.getLsbD 0 = false → exec .stop s = .next (State.wordDone u s))
      ∧ (dbg.getLsbD 0 = true → Tab.find s.blocks c.g.block ≠ none → ∃ t, exec .stop s = .next (State.wordJumped u t) ∧ halted s t u c.g.block 1 0))
    ∧ (∀ n : BitVec 8, Clear s c [] → (dbg.toNat / 2 = 0 ∨ dbg.toNat / 2 = 3 → exec (.brkpt n) s = .next (State.wordDone u s))
      ∧ (dbg.toNat / 2 = 1 → exec (.brkpt n) s = .next (s.wordTrapped u { c.trap 7 0x1C with faddr := n.setWidth 64 }))
      ∧ (dbg.toNat / 2 = 2 → Tab.find s.blocks c.g.block ≠ none → ∃ t, exec (.brkpt n) s = .next (State.wordJumped u t) ∧ halted s t u c.g.block 2 n.toNat))
    ∧ ∀ (k : Block) (o : BitVec 7), Tab.find s.blocks c.g.block = some k → s.privOf c.g = true → isS o = true →
      (Clear s c [use o] →
        (16 ≤ (c.rd o 0).toNat → exec (.sndgOn o) s = .next (s.wordTrapped u (c.trap 7 0x05)))
        ∧ ((c.rd o 0).toNat < 16 → (∀ e ∈ s.soundings, e.2.on = true → e.1 = k.launch) →
          ∃ y, exec (.sndgOn o) s = .next (State.wordDone u (State.putRegs { s with soundings := Tab.put s.soundings k.launch y } c o.toNat fun _ => [1]))
            ∧ y.on = true ∧ y.p = (c.rd o 0).toNat ∧ y.tags = ((Tab.find s.soundings k.launch).map (·.tags)).getD []
            ∧ y.buckets = ((Tab.find s.soundings k.launch).map (·.buckets)).getD [])
        ∧ ((c.rd o 0).toNat < 16 → (∃ e ∈ s.soundings, e.2.on = true) → (∀ e ∈ s.soundings, e.2.on = true → e.1 ≠ k.launch) →
          exec (.sndgOn o) s = .next (State.wordDone u (s.putRegs c o.toNat fun _ => [0]))))
      ∧ (Clear s c [] → ∃ ys, exec .sndgOff s = .next (State.wordDone u { s with soundings := ys }) ∧ ∀ n,
          match Tab.find s.soundings n with
          | none => Tab.find ys n = none
          | some x => ∃ y, Tab.find ys n = some y ∧ (x.on = false → y = x) ∧ (x.on = true → soundingEnds x y))
      ∧ (isEven o = true → Clear s c [useN o 2] →
        (s.entryHeld (s.agentOf u.group c.g) (c.rd64 o 0) = true → exec (.sndgRd o) s = .next (s.wordWaits u))
        ∧ (s.entryHeld (s.agentOf u.group c.g) (c.rd64 o 0) = false →
          (∀ f, s.checkPtr (s.agentOf u.group c.g) allSpaces (c.rd64 o 0) 128 .write = .error f →
            exec (.sndgRd o) s = .next ((s.walks (s.agentOf u.group c.g) allSpaces 128 .write [c.rd64 o 0]).wordTrapped u { c.trap 7 f.cause with faddr := c.rd64 o 0, level := f.level, kind := f.kind }))
          ∧ ∀ (x : Sounding) (ln : Nat) (tg : Target), Tab.find s.soundings ln = some x →
            ln = k.launch ∨ (Tab.find s.soundings k.launch = none ∧ (s.soundings.find? fun e => e.2.on).map (·.1) = some ln) →
            s.checkPtr (s.agentOf u.group c.g) allSpaces (c.rd64 o 0) 128 .write = .ok tg →
            ∃ t, exec (.sndgRd o) s = .next (State.wordDone u t) ∧ t.groups = s.groups ∧ Tab.find t.soundings ln = some { x with buckets := [] }
              ∧ (∀ n, n ≠ ln → Tab.find t.soundings n = Tab.find s.soundings n)
              ∧ ∀ b i, tg.locs = [b] → i < 128 → (b + 128 ≤ 3 * 2 ^ 64 → t.freshByte (s.coreOf c.g) (b + i) = bucketByte x i)
                ∧ (3 * 2 ^ 64 ≤ b → t.readByte (b + i) = bucketByte x i)))

/-- 10 R372, 16 R332, 17 R351, R352: the events of kills and halts. A kill record counts in the queue's region and is written in full only when the count leaves 0; it waits while the region is held (10 R372). A
management kill kills every group of the launch that has not ended, and the launch places no more blocks. A debug record goes to slot i mod 511 and the index
advances, or it is dropped, counted, and the block goes on. RESUME keeps what is written; the halted block whose record it names goes on. -/
def Obligations.KillsAndHalts : Prop :=
  (∀ (s : State) (n : Nat) (l : Launch) (k : KillRecord) (rest : List KillRecord) (base : Nat), Tab.find s.launches n = some l → l.kills = k :: rest →
    base = (s.queue l.host).base → (s.heldAt base = true → exec (.killRecordWrite n) s = .next s) ∧ (s.heldAt base = false →
    ∃ t, exec (.killRecordWrite n) s = .next t ∧ Tab.find t.launches n = some { l with kills := rest } ∧ t.groups = s.groups
      ∧ t.readNat (base + 64) 4 = min (s.readNat (base + 64) 4 + 1) (2 ^ 32 - 1)
      ∧ (s.readNat (base + 64) 4 ≠ 0 → ∀ a, ¬ (base + 64 ≤ a ∧ a < base + 68) → t.readByte a = s.readByte a)
      ∧ (s.readNat (base + 64) 4 = 0 → t.readNat (base + 68) 4 = k.tcause.toNat ∧ t.readNat (base + 72) 4 = k.tword.toNat ∧ t.readNat (base + 76) 4 = k.inner % 2 ^ 32
          ∧ t.readNat (base + 80) 8 = k.pc.toNat ∧ t.readNat (base + 88) 8 = k.faddr.toNat ∧ t.readNat (base + 96) 4 = k.blockx % 2 ^ 32 ∧ t.readNat (base + 104) 4 = k.gid % 2 ^ 32
          ∧ t.readNat (base + 112) 8 = k.index % 2 ^ 64 ∧ ∀ a, ¬ (base + 64 ≤ a ∧ a < base + 128) → t.readByte a = s.readByte a)))
  ∧ (∀ (s : State) (n : Nat) (l : Launch), Tab.find s.launches n = some l → ∃ t m, exec (.mgmtLaunchKill n) s = .next t ∧ Tab.find t.launches n = some m
      ∧ m.card = l.card ∧ m.nextBlock = l.card.gridx * l.card.gridy * l.card.gridz
      ∧ ∀ i g k, Tab.find s.groups i = some g → Tab.find s.blocks g.block = some k → k.launch = n → g.ended = false → g.finished = false →
          ∃ x, Tab.find t.groups i = some x ∧ x.killed = true ∧ ∀ j, j < g.slices.length → (x.slice j).exited = 15)
  ∧ (∀ (s : State) (n : Nat) (k : Block) (h : Halt) (l : Launch) (base w : Nat), Tab.find s.blocks n = some k → k.halt = some h → h.index = none → Tab.find s.launches k.launch = some l →
      s.blockStopped n = true → base = (s.context l.ctx).dbgBase → w = s.readNat base 8 → w < 2 ^ 64 - 1 →
      (s.heldAt base = true ∨ s.heldAt (base + 128 + 128 * (w % 511)) = true → exec (.debugRecordWrite n) s = .next s)
      ∧ (s.heldAt base = false → s.heldAt (base + 128 + 128 * (w % 511)) = false → s.heldAt (base + 255 + 128 * (w % 511)) = false → (w < s.readNat (base + 8) 8 + 511 → ∃ t, exec (.debugRecordWrite n) s = .next t ∧ t.readNat base 8 = w + 1
        ∧ Tab.find t.blocks n = some { k with halt := some { h with index := some w } }
        ∧ (∀ m y, Tab.find s.groups m = some y → ∃ z, Tab.find t.groups m = some z ∧ z.v = y.v ∧ z.m = y.m)
        ∧ t.readNat (base + 128 + 128 * (w % 511)) 1 = h.kind % 256 ∧ t.readNat (base + 128 + 128 * (w % 511) + 1) 1 = h.n % 256
        ∧ t.readNat (base + 128 + 128 * (w % 511) + 4) 4 = k.x % 2 ^ 32 ∧ t.readNat (base + 128 + 128 * (w % 511) + 16) 8 = h.pc.toNat
        ∧ ∀ a, ¬ (base ≤ a ∧ a < base + 8) → ¬ (base + 128 + 128 * (w % 511) ≤ a ∧ a < base + 256 + 128 * (w % 511)) → t.readByte a = s.readByte a)
      ∧ (s.readNat (base + 8) 8 + 511 ≤ w → ∃ t, exec (.debugRecordWrite n) s = .next t ∧ t.readNat (base + 16) 4 = min (s.readNat (base + 16) 4 + 1) (2 ^ 32 - 1)
        ∧ Tab.find t.blocks n = some { k with halt := none } ∧ ∀ a, ¬ (base + 16 ≤ a ∧ a < base + 20) → t.readByte a = s.readByte a)))
  ∧ ∀ (s : State) (ctx : BitVec 6) (v : BitVec 32), ∃ t, exec (.resumeWrite ctx v) s = .next t ∧ (t.context ctx.toNat).resume = v ∧ (∀ l, t.readByte l = s.readByte l)
      ∧ ((∀ e ∈ s.blocks, ∀ h i, e.2.halt = some h → h.index = some i → BitVec.ofNat 32 i ≠ v) → t.blocks = s.blocks ∧ t.groups = s.groups)
      ∧ ∀ n k h i l, s.blocks = [(n, k)] → k.halt = some h → k.away = false → k.ended = false → h.index = some i → BitVec.ofNat 32 i = v → Tab.find s.launches k.launch = some l → l.ctx = ctx.toNat →
          t.blocks = [(n, { k with halt := none })] ∧ ∀ m g, Tab.find s.groups m = some g → g.block = n → g.handler = none →
            ∃ x, Tab.find t.groups m = some x ∧ x.runs ≠ none ∧ x.v = g.v ∧ x.m = g.m ∧ x.slices = g.slices

/-! The Pilot and pre-emption (10 R206-R217, R225, R226; 16 R334-R341). -/

namespace Sys2Proof.Claims

/-- A queue the Pilot serves (10 R206), and no write of its head index waits (10 R372). -/
abbrev served (s : State) (n : Nat) (q : Queue) : Prop := n < 64 ∧ s.queue n = q ∧ q.en = true ∧ q.stop = false ∧ q.headDue = none
/-- The head and the tail in a queue's region. -/
def headOf (s : State) (q : Queue) : Nat := s.readNat q.base 8
def tailOf (s : State) (q : Queue) : DWord := .ofNat 64 (s.readNat (q.base + 128) 8)

/-- Where the record at a queue's head stands. -/
def slotOf (s : State) (q : Queue) : Nat := q.base + 256 + 128 * (headOf s q % 2 ^ (min q.logn 12 + 4))
/-- The launch that a copied record becomes. -/
def becomes (s t : State) (n : Nat) (q : Queue) (r : LaunchRec) : Prop :=
  (t.queue n).current = some s.nextId ∧ ∃ l, Tab.find t.launches s.nextId = some l ∧ l.card = r ∧ l.queue = n ∧ l.host = n ∧ l.index = headOf s q ∧ l.ctx = q.ctx
    ∧ l.nextBlock = 0 ∧ l.kills = [] ∧ l.coop = none

/-- 10 R206, R207, R209, R372: a changed tail is copied, and stops the queue with 0x0C where it lies more than the ring ahead of the head. The record at the head is
copied whole and checked: refused with the first failing check's code, the head unmoved, or held as the queue's current record, the head one further. Each
access waits while its place is held back. -/
def queueSteps : Prop :=
  (∀ (s : State) (n : Nat) (q : Queue), served s n q → tailOf s q ≠ q.tail →
    (s.heldAt q.base = true → exec (.queueTailWrite n) s = .next s)
    ∧ (s.heldAt q.base = false → exec (.queueTailWrite n) s = .next (s.onQueue n fun _ =>
      if 2 ^ (min q.logn 12 + 4) < (tailOf s q - .ofNat 64 (headOf s q)).toNat then { q with tail := tailOf s q, stop := true, why := 0x0C } else { q with tail := tailOf s q })))
  ∧ (∀ (s : State) (n : Nat) (q : Queue) (r : LaunchRec) (zeros : Bool), served s n q → q.current = none → tailOf s q = q.tail → q.tail.toNat ≠ headOf s q →
    LaunchRec.parse (s.readNat (slotOf s q) 128) = (r, zeros) → s.heldAt q.base = false ∨ (∀ e ∈ s.launches, e.2.host = n → e.2.kills = []) →
    (s.heldAt (slotOf s q) = true → exec (.launchRecordCopy n) s = .next s)
    ∧ (s.heldAt (slotOf s q) = false → ∀ w, r.why zeros false = some w → exec (.launchRecordCopy n) s = .next (s.onQueue n fun _ => { q with stop := true, why := w }))
    ∧ (s.heldAt (slotOf s q) = false → r.why zeros false = none → ∃ t, exec (.launchRecordCopy n) s = .next t ∧ becomes s t n q r
        ∧ (s.heldAt q.base = false → headOf s q < 2 ^ 64 - 1 → headOf t q = headOf s q + 1 ∧ (t.queue n).headDue = none
            ∧ ∀ a, ¬ (q.base ≤ a ∧ a < q.base + 8) → t.readByte a = s.readByte a)
        ∧ (s.heldAt q.base = true → (t.queue n).headDue = some (q.base, headOf s q + 1) ∧ t.mem = s.mem)))
  ∧ (∀ (s : State) (n loc h : Nat), (s.queue n).headDue = some (loc, h) →
    (s.heldAt loc = true → exec (.launchRecordCopy n) s = .next s)
    ∧ (s.heldAt loc = false → h < 2 ^ 64 → ∃ t, exec (.launchRecordCopy n) s = .next t ∧ t.readNat loc 8 = h ∧ t.queue n = { s.queue n with headDue := none }
        ∧ t.launches = s.launches ∧ ∀ a, ¬ (loc ≤ a ∧ a < loc + 8) → t.readByte a = s.readByte a))
  ∧ (∀ (s : State) (n : Nat) (d : DevRecord) (rest : List DevRecord), 64 ≤ n → (s.queue n).current = none → (s.queue n).headDue = none → Tab.get [] s.devQueues n = d :: rest →
    ∃ t l, exec (.launchRecordCopy n) s = .next t ∧ Tab.get [] t.devQueues n = rest ∧ (t.queue n).current = some s.nextId ∧ Tab.find t.launches s.nextId = some l ∧ l.card = d.card
      ∧ l.queue = n ∧ l.host = d.host ∧ l.index = d.index ∧ l.ctx = d.ctx ∧ t.mem = s.mem)
  ∧ (∀ (r : LaunchRec) (zeros unpriv : Bool), (zeros = false → r.why zeros unpriv = some 0x01) ∧ (zeros = true → r.entry = 0 → r.why zeros unpriv = some 0x02)
    ∧ (r.why zeros unpriv = none → zeros = true ∧ r.entry.toNat % 16 = 0 ∧ r.entry.toNat < 2 ^ 57 ∧ r.entry ≠ 0 ∧ (r.width = 16 ∨ r.width = 32 ∨ r.width = 64 ∨ r.width = 128)
        ∧ 1 ≤ r.groups ∧ r.groups ≤ 32 ∧ 1 ≤ r.cluster ∧ r.cluster ≤ 12 ∧ r.gridx % r.cluster = 0 ∧ 0 < r.gridx * r.gridy * r.gridz ∧ r.gridx * r.gridy * r.gridz < 2 ^ 32
        ∧ r.scratch ≤ 360448 ∧ r.scratch % 16 = 0 ∧ r.localBase.toNat % 4096 = 0 ∧ r.localSize % 4096 = 0 ∧ ¬ (r.flags.getLsbD 1 = true ∧ unpriv = true)))
  ∧ ∀ (s : State) (n : Nat), exec (.qstatStopClear n) s = .next (s.onQueue n fun q => { q with stop := false, tail := .ofNat 64 (headOf s q) })
    ∧ exec (.qstatCfaultClear n) s = .next (s.onQueue n fun q => { q with cfault := false })

/-- The state of Table WRK-4 for group i of a block. -/
def startsAs (h : Group) (r : LaunchRec) (bn i : Nat) : Prop :=
  h.block = bn ∧ h.gid = i ∧ h.width = r.width ∧ h.spawned = false ∧ h.slices.length = r.width / 4 ∧ h.v = [] ∧ (∀ e k, 0 < k → h.readM e k = 0) ∧ h.held = false
  ∧ h.ran = 0 ∧ h.rmode = 0 ∧ h.fpflags = 0 ∧ h.wayto = 0x01000000 ∧ h.preBound = r.preBound ∧ h.trapEn = decide (r.trap ≠ 0) ∧ h.preEn = decide (r.pre ≠ 0) ∧ h.longs = [] ∧ h.handler = none
  ∧ ∀ j, j < r.width / 4 → (∀ k, h.readS j k = if k = 2 then r.param.setWidth 32 else if k = 3 then (r.param >>> 32).setWidth 32 else 0)
    ∧ (r.width ≤ 128 → (h.slice j).seq.pc = r.entry.setWidth 57 ∧ (h.slice j).seq.a = 15 ∧ (h.slice j).seq.m = 15 ∧ (h.slice j).seq.parked = [] ∧ (h.slice j).exited = 0)

/-- Scratchpad bytes that the blocks on a core have, and its service group (07 R136, 01 R19). -/
def rangesOn (s : State) (core : Nat) : Nat :=
  ((s.blocks.filter fun e => decide (e.2.core = core) && !e.2.ended && !e.2.away).map fun e =>
    (Tab.find s.launches e.2.launch).elim 0 fun l => (l.card.scratch + 15) / 16 * 16).sum + if core % 12 = 0 then 32768 else 0

/-- 10 R211-R213: the queue the Pilot's rule chooses gets its next placement. For a launch of single blocks that is the block of the next linear index, on a core
with room for it, its groups in the state of Table WRK-4, and the core's scratchpad, with the 32 KiB of a service group, is set anew (07 R136; that the placement
leaves its L1 empty is log entry 93, and which queues are ready log entry 82); where no wait has reached 64 placements, no ready queue
has a higher priority. Kept writes to enabled queues' registers take effect (17 R344; log entry 5). -/
def placementSteps : Prop :=
  ∀ (s : State) (n id : Nat) (l : Launch), s.pilotChoice s.readyQueues = some n → s.holding n = some (id, l) →
    ((∀ m, (s.queue m).waited < 64) → ∀ m ∈ s.readyQueues, s.prioOf n ≤ s.prioOf m)
    ∧ (l.card.flags.getLsbD 2 = false → l.card.cluster = 1 → ∃ t b, exec (.blockPlacement n) s = .next t ∧ Tab.find t.blocks (s.nextId + 1) = some b ∧ b.launch = id
      ∧ b.linear = l.nextBlock ∧ b.x = l.nextBlock % l.card.gridx ∧ b.y = l.nextBlock / l.card.gridx % l.card.gridy ∧ b.z = l.nextBlock / (l.card.gridx * l.card.gridy)
      ∧ b.core < 576 ∧ s.coreFits l.card b.core = true ∧ b.ended = false ∧ Tab.find t.launches id = some { l with nextBlock := l.nextBlock + 1 } ∧ t.mem = s.mem
      ∧ (t.core b.core).l1 = [] ∧ (t.core b.core).scratch + (if b.core % 12 = 0 then 32768 else 0) = (rangesOn t b.core + 32767) / 32768 * 32768 ∧ (t.queue n).waited = 0 ∧ (∀ m, (t.queue m).pending = [])
      ∧ ∀ i, i < l.card.groups → ∃ h, Tab.find t.groups (s.nextId + 2 + i) = some h ∧ startsAs h l.card (s.nextId + 1) i)

/-- Every block of the launch has been placed or withdrawn and has ended, and no kill record is owed (10 R217). -/
abbrev allEnded (s : State) (n : Nat) (l : Launch) : Prop :=
  l.card.gridx * l.card.gridy * l.card.gridz ≤ l.nextBlock ∧ l.kills = [] ∧ ∀ e ∈ s.blocks, e.2.launch = n → e.2.ended = true

/-- What a launch's completion leaves of the device: it is gone with its blocks (10 R217). -/
def launchGone (t : State) (n : Nat) : Prop :=
  Tab.find t.launches n = none ∧ Tab.find t.soundings n = none ∧ (∀ m k, Tab.find t.blocks m = some k → k.launch ≠ n)
/-- The completion counters after a launch has counted (10 R217 step 2), where it counts now. -/
def countsOnce (s t : State) (l : Launch) : Prop :=
  ∀ c, Tab.get 0 t.counters c = if l.card.counter.getLsbD 7 = true ∧ l.counted = false ∧ c = l.card.counter.toNat % 64 then Tab.get 0 s.counters c + 1 else Tab.get 0 s.counters c

/-- 10 R215-R217: a group whose work has all completed ends and gives back what it holds; with the last group of a block the block ends. A lane that still holds
a section is announced first (09 R203). A launch whose blocks have ended completes: its soundings' record is written (17 R353), the counter advances, the
completion value is written, the walk of its pointer seen by the slice logs (17 R354), a faulting completion sets CFAULT, and the launch is gone with its blocks. A completion value held back at its home does not
keep the counter back (log entry 51); a launch that a function-level reset has killed leaves no trace (log entry 57). -/
def endSteps : Prop :=
  (∀ (s : State) (n : Nat) (g : Group) (k : Block), Tab.find s.groups n = some g → s.groupDone n g = true → Tab.find s.blocks g.block = some k → k.ended = false →
    (g.sections ≠ [] → (∀ e ∈ g.sections, e.2 ≠ 0) → ∃ t, exec (.groupEnd n) s = .next t ∧ t.groups = s.groups ∧ t.blocks = s.blocks ∧ t.mem = s.mem ∧ ∀ e ∈ g.sections, (n, e.1) ∈ t.poisons)
    ∧ (g.sections = [] → ∃ t x b, exec (.groupEnd n) s = .next t ∧ Tab.find t.groups n = some x ∧ x.ended = true ∧ x.held = false ∧ x.spilled = false ∧ n ∉ (t.core k.core).regLine
      ∧ Tab.find t.blocks g.block = some b
      ∧ ((∃ m h, m ≠ n ∧ Tab.find s.groups m = some h ∧ h.block = g.block ∧ h.ended = false) → b.ended = false)
      ∧ ((∀ e ∈ s.groups, e.1 ≠ n → e.2.block = g.block → e.2.ended = true) → b.ended = true ∧ b.bindings = [] ∧ b.barriers = []
          ∧ (t.core k.core).chart.owner ≠ some g.block ∧ ∀ o, o < 2 ^ 20 → t.readByte (Ops.scratchLoc g.block o) = 0)))
  ∧ ∀ (s : State) (n : Nat) (l : Launch), Tab.find s.launches n = some l → allEnded s n l →
    (l.silent = true → ∃ t, exec (.launchComplete n) s = .next t ∧ launchGone t n ∧ t.counters = s.counters ∧ t.mem = s.mem ∧ t.cores = s.cores ∧ t.queues = s.queues)
    ∧ (l.silent = false → l.counted = true → s.completionHeld l = true → exec (.launchComplete n) s = .next s)
    ∧ (l.silent = false → l.counted = false → Tab.find s.soundings n = none → s.completionHeld l = true →
        ∃ t, exec (.launchComplete n) s = .next t ∧ Tab.find t.launches n = some { l with counted := true } ∧ countsOnce s t l ∧ t.mem = s.mem ∧ t.blocks = s.blocks)
    ∧ (l.silent = false → l.counted = false → s.heldAt (s.context l.ctx).saveBase = true → Tab.find s.soundings n ≠ none → exec (.launchComplete n) s = .next s)
    ∧ (∀ x base, l.silent = false → l.counted = false → Tab.find s.soundings n = some x → base = (s.context l.ctx).saveBase → s.heldAt base = false → l.card.compPtr = 0 →
        ∃ t, exec (.launchComplete n) s = .next t ∧ launchGone t n ∧ t.cores = s.cores ∧ countsOnce s t l ∧ (∀ b, ¬ (base ≤ b ∧ b < base + 128) → t.readByte b = s.readByte b)
          ∧ ∀ i, i < 32 → t.readNat (base + 4 * i) 4 = (if i = 31 then min (Tab.get 0 x.buckets 31 + (x.tags.map fun e => e.2.length).sum) (2 ^ 32 - 1) else Tab.get 0 x.buckets i) % 2 ^ 32)
    ∧ (l.silent = false → s.completionHeld l = false → Tab.find s.soundings n = none → ∃ t s1, exec (.launchComplete n) s = .next t ∧ launchGone t n ∧ countsOnce s t l
        ∧ s1 = s.logCompletion l ∧ (s.logRegs = [] → s1 = s ∧ t.cores = s.cores) ∧ (∀ b, ¬ inLogRing s b → s1.readByte b = s.readByte b)
        ∧ (l.card.compPtr = 0 → t.mem = s.mem)
        ∧ (l.card.compPtr ≠ 0 → (∀ x, s1.walk l.ctx (ptrSpace l.card.compPtr) (ptrAddr l.card.compPtr) .write (l.card.flags.getLsbD 1) = .ok x →
            ∃ a, a = (if ptrSpace l.card.compPtr = 1 then Ops.hostLoc x.pa else Ops.devLoc x.pa) ∧ t.readNat a 8 = l.card.compVal.toNat ∧ ∀ b, ¬ (a ≤ b ∧ b < a + 8) → t.readByte b = s1.readByte b)
          ∧ (∀ f, s1.walk l.ctx (ptrSpace l.card.compPtr) (ptrAddr l.card.compPtr) .write (l.card.flags.getLsbD 1) = .error f → t.mem = s1.mem ∧ (t.queue l.host).cfault = true)))

/-- 10 R225, R226: the mailbox of a `fetchw` gets flag 3 in a cluster, 2 where no block is left, else the next block's coordinates and flag 1, and the launch gives
that block up. A `launch` is answered with the refusal's code, 1 where its device queue holds 256 records, else 0 with the record appended. -/
def answerSteps : Prop :=
  (∀ (s : State) (n m : Nat) (b : Block) (l : Launch), Tab.find s.blocks n = some b → Tab.find s.launches b.launch = some l → b.away = false → b.ended = false →
    b.fetchws[(s.cur.map (·.choice)).getD 0 % b.fetchws.length]? = some m →
    ∃ t k, exec (.fetchwFill n) s = .next t ∧ Tab.find t.blocks n = some k ∧ k.fetchws = b.fetchws.erase m ∧ t.groups = s.groups
      ∧ (1 < l.card.cluster → t.readNat (Ops.scratchLoc n (m + 12)) 4 = 3 ∧ t.launches = s.launches)
      ∧ (l.card.cluster ≤ 1 → l.card.gridx * l.card.gridy * l.card.gridz ≤ l.nextBlock → t.readNat (Ops.scratchLoc n (m + 12)) 4 = 2 ∧ t.launches = s.launches)
      ∧ (l.card.cluster ≤ 1 → l.nextBlock < l.card.gridx * l.card.gridy * l.card.gridz → t.readNat (Ops.scratchLoc n (m + 12)) 4 = 1
          ∧ t.readNat (Ops.scratchLoc n m) 4 = l.nextBlock % l.card.gridx % 2 ^ 32 ∧ t.readNat (Ops.scratchLoc n (m + 4)) 4 = l.nextBlock / l.card.gridx % l.card.gridy % 2 ^ 32
          ∧ t.readNat (Ops.scratchLoc n (m + 8)) 4 = l.nextBlock / (l.card.gridx * l.card.gridy) % 2 ^ 32
          ∧ Tab.find t.launches b.launch = some { l with nextBlock := l.nextBlock + 1 } ∧ k.drawn = b.drawn + 1)
      ∧ ∀ a, ¬ (Ops.scratchLoc n m ≤ a ∧ a < Ops.scratchLoc n m + 16) → t.readByte a = s.readByte a)
  ∧ ∀ (s : State) (n op : Nat) (g : Group) (r : LaunchReq) (answer : Word), Tab.find s.groups n = some g → s.launchReqs = [r] → r.group = n → r.op = op → g.handler = none → r.epoch = 0 →
    answer = (match r.card.why r.zeros (!s.privOf g) with
      | some w => 0x100 + w.setWidth 32
      | none => if 256 ≤ (Tab.get [] s.devQueues (64 + r.prio)).length then 1 else 0) →
    ∃ t x, exec (.launchAnswer n op) s = .next t ∧ t.launchReqs = [] ∧ Tab.find t.groups n = some x ∧ t.mem = s.mem ∧ x.v = g.v
      ∧ (∀ i k, i < g.slices.length → x.readS i k = if k = 0 then 0 else if k = r.reg ∧ r.slices.getLsbD i = true then answer else g.readS i k)
      ∧ (∀ i, i < g.slices.length → (x.slice i).seq.wait = if (g.slice i).seq.wait = .launch op then .none else (g.slice i).seq.wait)
      ∧ (answer = 0 → ∃ d, Tab.get [] t.devQueues (64 + r.prio) = Tab.get [] s.devQueues (64 + r.prio) ++ [d] ∧ d.card = r.card ∧ d.ctx = s.ctxOf g)
      ∧ (answer ≠ 0 → t.devQueues = s.devQueues)

/-- Every slice of a group keeps its sequencer, but a `sleep` ends and a `wayin` that waits stands at its word again (16 R327, R334). Its timers run on: the
group is resident and not in a trap handler (04 R84). -/
def stoppedAs (g x : Group) : Prop :=
  x.v = g.v ∧ x.m = g.m ∧ (g.handler = none → x.runs ≠ none) ∧ ∀ i, i < g.slices.length → i < 32 → (∀ o, (g.slice i).seq.wait ≠ .way o) → (∀ til, (g.slice i).seq.wait ≠ .sleep til) →
    (x.slice i).seq = (g.slice i).seq

/-- 16 R334-R337: a request stops every group of the unit, a trap of it not yet delivered sets its split back, and it waits while a block is halted; a unit already
asked or swapped out is left alone. The handler path is open where every group that has not ended has a pre-emption handler and runs none (log entry 53);
entry ends what a split has begun to wait for since as the stop does, and saves every slice with a lane left, with TCAUSE's code 0x18, m7 the
lanes that have not exited and the PC at PREBASE. -/
def preemptionBegins : Prop :=
  (∀ (s : State) (n : Nat) (b : Block) (bs : List Nat), Tab.find s.blocks n = some b → b.ended = false → bs = s.mates b → b.away = false → b.unit = none →
    (∀ m ∈ bs, ∀ k, Tab.find s.blocks m = some k → k.away = false ∧ k.unit = none) →
    ((∃ m ∈ bs, ∃ k, Tab.find s.blocks m = some k ∧ k.halt ≠ none) →
      exec (.preemptRequest n) s = .next { s with inputs := s.inputs ++ [{ due := s.cycle + 1, event := .preemptRequest n }] })
    ∧ ((∀ m ∈ bs, ∀ k, Tab.find s.blocks m = some k → k.halt = none) → ∃ t v, exec (.preemptRequest n) s = .next t ∧ Tab.find t.units s.nextId = some v ∧ v.blocks = bs ∧ v.t0 = s.unitNow v
        ∧ v.entered = false ∧ v.course = none ∧ v.away = false ∧ v.handed = false
        ∧ (v.path = true ↔ ∀ e ∈ s.groups, e.2.block ∈ bs → e.2.ended = false → e.2.finished = false → e.2.preEn = true ∧ e.2.handler = none)
        ∧ (∀ m ∈ bs, ∀ k, Tab.find s.blocks m = some k → ∃ j, Tab.find t.blocks m = some j ∧ j.unit = some s.nextId)
        ∧ (∀ l, t.readByte l = s.readByte l)
        ∧ ∀ m g, Tab.find s.groups m = some g → g.block ∈ bs → (∀ k ∈ bs, Tab.find s.blocks k ≠ none) → ∃ x, Tab.find t.groups m = some x ∧ x.trap = none
          ∧ (g.trap = none → (∀ k ∈ bs, ∀ b, Tab.find s.blocks k = some b → b.ended = false) → stoppedAs g x)
          ∧ ∀ y, g.trap = some y → g.handler = none → x.v = g.v ∧ x.m = g.m ∧ ∀ i, i < g.slices.length → y.slices.getLsbD i = true → standsAt x i y.pc))
  ∧ (∀ (s : State) (n : Nat) (b : Block), Tab.find s.blocks n = some b → (b.ended = true ∨ ∃ m ∈ s.mates b, ∃ k, Tab.find s.blocks m = some k ∧ (k.away = true ∨ k.unit ≠ none)) →
    exec (.preemptRequest n) s = .next s)
  ∧ ∀ (s : State) (n m : Nat) (v : PreUnit) (g : Group), Tab.find s.units n = some v → s.preEntryDue v = true → (s.groups.map (·.1)).Nodup → Tab.find s.groups m = some g → g.block ∈ v.blocks →
    g.ended = false → g.finished = false → g.slices.length ≤ 32 →
    ∃ t x h, exec (.preemptHandlerEntry n) s = .next t ∧ t.mem = s.mem ∧ Tab.find t.groups m = some x ∧ x.v = g.v ∧ x.handler = some h ∧ h.kind = .pre ∧ h.banked = []
      ∧ x.tcause.toNat % 2 ^ 8 = 0x18 ∧ x.tword = 0 ∧ x.faddr = 0
      ∧ (∀ e l, l < 128 → (x.readM e 7).getLsbD l = (decide (l < 4 * g.slices.length) && !g.exitedLanes.getLsbD l)) ∧ (∀ e k, 0 < k → k ≠ 7 → x.readM e k = g.readM e k)
      ∧ ∀ i, i < g.slices.length → h.h.getLsbD i = decide ((g.slice i).exited ≠ 15) ∧ ((g.slice i).exited ≠ 15 →
          ((∀ o, (g.slice i).seq.wait ≠ .way o) → (∀ til, (g.slice i).seq.wait ≠ .sleep til) → Tab.find h.frame i = some (g.slice i).seq)
          ∧ (∀ til, (g.slice i).seq.wait = .sleep til → Tab.find h.frame i = some { (g.slice i).seq with wait := .none })
          ∧ (x.slice i).seq.pc = g.preBase ∧ (x.slice i).seq.m = ~~~(g.slice i).exited ∧ (x.slice i).seq.a = ~~~(g.slice i).exited)

/-- Bytes of a unit's save (16 R338): a block's share is 2,048 a group, 4·W a live register, its scratchpad, 4,096 a bound slot or accumulator, the chart, 12,288 a
pseudo-channel and 64 a command. -/
def blockBytes (s : State) (n : Nat) (b : Block) : Nat :=
  let gs := s.groups.filter fun e => decide (e.2.block = n) && !e.2.ended && !e.2.finished
  (gs.map fun e => 2048 + 4 * e.2.width * (s.liveRegs e.1 e.2).length).sum + ((Tab.find s.launches b.launch).elim 0 fun l => (l.card.scratch + 15) / 16 * 16)
    + 4096 * b.bindings.length + (if (s.core b.core).chart.owner = some n then 67648 else 0) + 12288 * (s.pchannels.filter fun e => decide (e.2.holder = some n)).length
    + 64 * (((s.core b.core).copyQ ++ (s.core b.core).tileQ ++ (s.core b.core).chartQ ++ (s.core b.core).bankQ ++ (s.core b.core).linkQ).filter fun x => x.block == n).length

/-- 16 R336: `preok` outside a pre-emption handler raises OPND; with a course chosen, or no handler path, it does nothing; else its split waits, and the last
group of the unit to issue it within the bound hands the unit over. -/
def preokWord : Prop :=
  ∀ (s : State) (u : Issue) (g : Group) (c : Ctx), Issuing s u g → c = u.ctx g → Clear s c [] →
    ((∀ h, c.g.handler = some h → h.kind = .trap) → exec .preok s = .next (s.wordTrapped u (c.trap 7 0x05)))
    ∧ ∀ h k, c.g.handler = some h → h.kind = .pre → Tab.find s.blocks c.g.block = some k →
      (k.unit = none → exec .preok s = .next (State.wordDone u s))
      ∧ ∀ n v, k.unit = some n → Tab.find s.units n = some v →
        (v.path = false ∨ v.away = true ∨ v.course ≠ none → exec .preok s = .next (State.wordDone u s))
        ∧ (v.path = true → v.away = false → v.course = none → (∃ m x, m ≠ u.group ∧ Tab.find s.groups m = some x ∧ x.block ∈ v.blocks ∧ x.ended = false ∧ x.finished = false
            ∧ ∀ i, i < x.slices.length → (x.slice i).seq.wait ≠ .preok) → exec .preok s = .next (State.wordJumped u (waiting (s.advance u) u .preok)))
        ∧ (v.path = true → v.away = false → v.course = none → v.entered = true → v.expired (s.unitNow v) = false → g.block ∈ v.blocks → g.ended = false → g.finished = false →
            (∃ i, i < g.slices.length ∧ u.slices.getLsbD i = true) → (s.groups.map (·.1)).Nodup →
            (∀ m x, m ≠ u.group → Tab.find s.groups m = some x → x.block ∈ v.blocks → x.ended = false → x.finished = false → ∃ i, i < x.slices.length ∧ (x.slice i).seq.wait = .preok) →
            ∃ t, exec .preok s = .next (State.wordJumped u t) ∧ t.groups = (waiting (s.advance u) u .preok).groups ∧ Tab.find t.units n = some { v with handed := true } ∧ t.mem = s.mem)

/-- Table TRP-4 for a unit of one block, multiplied by the count of ended blocks of its launch, so that the mean residence is exact: 0 drain, 1 flush, 2 save. -/
def courseCost (s : State) (n : Nat) (b : Block) (l : Launch) (c : Nat) : Nat :=
  let r := b.stayed + (s.now b.core - b.placed)
  if c = 0 then l.resided - max 1 l.ended * r else if c = 1 then max 1 l.ended * (256 + r) else max 1 l.ended * (512 + (blockBytes s n b + 127) / 128)
def courseFits (s : State) (v : PreUnit) (n : Nat) (b : Block) (l : Launch) (c : Nat) : Prop :=
  ((c = 0 ∧ 0 < l.ended ∧ l.ended * (b.stayed + (s.now b.core - b.placed)) < l.resided) ∨ (c = 1 ∧ s.mayFlush v l = true) ∨ c = 2)
  ∧ (v.bound = 0 ∨ courseCost s n b l c ≤ max 1 l.ended * v.bound)
/-- The permitted course of the lowest estimate, ties in the order drain, flush, save; a save with a miss where none fits. -/
def chosen (cost : Nat → Nat) (fits : Nat → Prop) (c : Nat) (miss : Bool) : Prop :=
  (fits c ∧ miss = false ∧ ∀ d, fits d → cost c < cost d ∨ (cost c = cost d ∧ c ≤ d)) ∨ ((∀ d, ¬ fits d) ∧ c = 2 ∧ miss = true)

/-- What the choice of a course, or a drain in place of a save, leaves of a unit: its course from this cycle on, its miss, and no split of its that waits in
`preok`. -/
def courseTaken (s t : State) (n ctx c : Nat) (miss : Bool) (v : PreUnit) : Prop :=
  (∃ w, Tab.find t.units n = some w ∧ w.course = some c ∧ w.t0 = s.unitNow v ∧ w.blocks = v.blocks ∧ w.away = decide (c = 1))
  ∧ (t.context ctx).miss.toNat = (if miss = true then min ((s.context ctx).miss.toNat + 1) (2 ^ 32 - 1) else (s.context ctx).miss.toNat)
  ∧ (c ≠ 1 → (∀ l, t.readByte l = s.readByte l) ∧ ∀ m g, Tab.find s.groups m = some g → g.block ∈ v.blocks → g.handler = none →
      ∃ x, Tab.find t.groups m = some x ∧ x.v = g.v ∧ x.m = g.m ∧ ∀ i, i < x.slices.length → (x.slice i).seq.wait ≠ .preok)
  ∧ (c = 1 → ∀ m ∈ v.blocks, ∀ b, Tab.find s.blocks m = some b → b.ended = false → ∀ i g, Tab.find t.groups i = some g → g.block ≠ m)

/-- 16 R336-R339, R341: the save count of a unit of one block (its live registers by log entry 48), the course its bound brings, kept while a save waits to be
made, a flush discarding the groups at once; a save without room drained with a miss, a drain past its bound, which counts from the choice (log entry 55),
a miss of its own (log entry 88); a unit saved or handed over by `preok` swapped out once its words are done (log entry 56), after `preok` its registers and
scratchpad lost, and its record's bytes whatever they may be, where log entry 18 has the record lie (DESIGN CHOICE: the layout is the part's); and its
return, on the lowest core with room (log entry 12): sequencers and s registers as they stood, its splits at the word after `preok`. The path is closed in
cycle t0 + PREBOUND itself (log entry 90). -/
def preemptionEnds : Prop :=
  (∀ (s : State) (n : Nat) (v : PreUnit) (b : Block), v.blocks = [n] → Tab.find s.blocks n = some b → b.ended = false → s.unitCount v = blockBytes s n b)
  ∧ (∀ (s : State) (n : Nat) (v : PreUnit), Tab.find s.units n = some v → v.away = true ∨ (v.course = none ∧ v.handed = false ∧ v.path = true ∧ (v.bound = 0 ∨ s.unitNow v < v.t0 + v.bound)) →
    exec (.preboundExpiry n) s = .next s)
  ∧ (∀ (s : State) (n c : Nat) (miss : Bool) (v : PreUnit) (b : Block) (l : Launch), v.blocks = [n] → Tab.find s.blocks n = some b → b.ended = false →
    Tab.find s.launches b.launch = some l → chosen (courseCost s n b l) (courseFits s v n b l) c miss →
    s.chooseCourse v = (c, miss))
  ∧ (∀ (s s1 : State) (n ctx c : Nat) (miss : Bool) (v : PreUnit), Tab.find s.units n = some v → v.away = false → ctx = s.unitCtx v →
    (v.course = none ∧ v.handed = false ∧ (v.path = false ∨ (v.bound ≠ 0 ∧ v.t0 + v.bound ≤ s.unitNow v)) ∧ s.unitStopped v = true
        ∧ s1 = each v.blocks (fun m s => s.stopBlock m) s ∧ s1.chooseCourse v = (c, miss))
      ∨ (((v.course = none ∧ v.handed = true) ∨ v.course = some 2) ∧ s.unitBusy v = false
        ∧ (∀ m ∈ v.blocks, ∀ b, Tab.find s.blocks m = some b → b.ended = false → ∀ x ∈ (s.core b.core).chartQ, x.block ≠ m)
        ∧ s.saveFits v = false ∧ c = 0 ∧ miss = true) →
    ∃ t, exec (.preboundExpiry n) s = .next t ∧ courseTaken s t n ctx c miss v)
  ∧ (∀ (s : State) (n : Nat) (v : PreUnit), Tab.find s.units n = some v → v.away = false → (v.course = none ∧ v.handed = true) ∨ v.course = some 2 → s.unitBusy v = true →
    exec (.preboundExpiry n) s = .next s)
  ∧ (∀ (s : State) (n m lo : Nat) (preok : Bool) (v : PreUnit) (b : Block), Tab.find s.units n = some v → v.away = false →
    (v.course = none ∧ v.handed = true ∧ preok = true) ∨ (v.course = some 2 ∧ preok = false) → s.saveFits v = true → v.blocks = [m] →
    Tab.find s.blocks m = some b → b.ended = false → s.unitBusy v = false → (∀ x ∈ (s.core b.core).chartQ, x.block ≠ m) → (s.core b.core).stores = [] → (∀ l, s.heldAt l = false) →
    lo = (s.context (s.unitCtx v)).saveBase + 4096 + s.saveUsed (s.unitCtx v) → lo + s.unitCount v ≤ 2 ^ 64 →
    ∃ t k, exec (.preboundExpiry n) s = .next t ∧ Tab.find t.units n = some { v with away := true, byPreok := preok, size := s.unitCount v } ∧ Tab.find t.blocks m = some k ∧ k.away = true
      ∧ (preok = true → ∀ o, o < 2 ^ 20 → t.readByte (Ops.scratchLoc m o) = 0)
      ∧ (∀ l, preok = false ∨ ¬ (Ops.scratchLoc m 0 ≤ l ∧ l < Ops.scratchLoc m 0 + 2 ^ 20) → ¬ (lo ≤ l ∧ l < lo + s.unitCount v) → t.readByte l = s.readByte l)
      ∧ ∀ i g, Tab.find s.groups i = some g → g.block = m → ∃ x, Tab.find t.groups i = some x ∧ x.v = (if preok = true then [] else g.v) ∧ x.m = g.m
          ∧ x.held = (!preok && g.held) ∧ ∀ j, j < g.slices.length → (x.slice j).s = (g.slice j).s ∧ (x.slice j).exited = (g.slice j).exited)
  ∧ (∀ (s : State) (n ctx : Nat) (v : PreUnit), Tab.find s.units n = some v → v.away = false → v.course = some 0 → v.bound ≠ 0 → v.missed = false → v.t0 + v.bound < s.unitNow v →
    ctx = s.unitCtx v → ∃ t w, exec (.preboundExpiry n) s = .next t ∧ (t.context ctx).miss.toNat = min ((s.context ctx).miss.toNat + 1) (2 ^ 32 - 1)
      ∧ Tab.find t.units n = some w ∧ w.missed = true ∧ t.groups = s.groups ∧ t.mem = s.mem)
  ∧ (∀ (s : State) (n : Nat) (v : PreUnit), Tab.find s.units n = some v → v.away = false → exec (.unitRestore n) s = .next s)
  ∧ ∀ (s : State) (n m : Nat) (v : PreUnit) (b : Block) (l : Launch) (free : List Nat), Tab.find s.units n = some v → v.away = true → v.course = none → v.byPreok = true → v.blocks = [m] →
    Tab.find s.blocks m = some b → b.ended = false → Tab.find s.launches b.launch = some l → l.card.cluster = 1 →
    b.bindings = [] → b.kept = [] → b.keptClaims = [] → b.keptChart = none → b.keptBanks = [] → (s.groups.map (·.1)).Nodup → free = s.contextsFree 0 →
    (∀ e ∈ s.groups, e.2.block = m → e.2.ended = false → e.2.longs = [] ∧ e.2.waitReg = false ∧ e.2.spilled = false) →
    (∀ r ∈ s.net ++ s.podQ.flatMap (·.2), ∀ e ∈ s.groups, e.2.block = m → e.1 ≠ r.group) →
    (s.groups.filter fun e => decide (e.2.block = m) && !e.2.ended).length ≤ free.length →
    ((s.groups.filter fun e => decide (e.2.block = m) && !e.2.ended).map fun e => e.2.regs).foldl (· + ·) 0 ≤ s.regsFree 0 → l.card.range ≤ s.scratchFree 0 →
    ∃ t k, exec (.unitRestore n) s = .next t ∧ Tab.find t.units n = none ∧ Tab.find t.blocks m = some k ∧ k.core = 0 ∧ k.away = false ∧ k.unit = none ∧ t.mem = s.mem
      ∧ ∀ i g, Tab.find s.groups i = some g → g.block = m → g.ended = false → ∃ x, Tab.find t.groups i = some x ∧ x.v = [] ∧ x.m = g.m ∧ x.context ∈ free
          ∧ ∀ j, j < g.slices.length → (x.slice j).s = (g.slice j).s ∧ (x.slice j).seq.pc = (g.slice j).seq.pc
            ∧ (x.slice j).seq.wait = if (g.slice j).seq.wait = .preok then .none else (g.slice j).seq.wait

end Sys2Proof.Claims

/-- 10 R206-R217, R225, R226, R372: the steps of the Pilot, from a queue's tail to the launch's completion, and its answers to `fetchw` and `launch`. -/
def Obligations.PilotSteps : Prop := queueSteps ∧ placementSteps ∧ endSteps ∧ answerSteps

/-- 16 R334-R339, R341: pre-emption: the request, the handlers' entry, `preok`, the save count, the bound, the swap, and the return of a unit. Which handlers close
the path, the live set, where a drain's bound counts from, the core that takes a unit, where its record lies, when its words are done, how misses count and
when the path closes are the model's (log entries 53, 48, 55, 12, 18, 56, 88 and 90). -/
def Obligations.Preemption : Prop := preemptionBegins ∧ preokWord ∧ preemptionEnds

/-! Management, the measured start, rest, and the link (17; 15 R313, R318, R323; 08 R172; 14 R308). -/

namespace Sys2Proof.Claims

/-- Nothing a program can see has changed: registers, memory, caches and engines. -/
def unseen (s t : State) : Prop := t.groups = s.groups ∧ t.blocks = s.blocks ∧ t.cores = s.cores ∧ ∀ l, t.readByte l = s.readByte l

/-- Bits [hi:lo] of x, in their places. -/
def inPlace (hi lo x : Nat) : Nat := x / 2 ^ lo % 2 ^ (hi + 1 - lo) * 2 ^ lo
/-- A 64-bit register whose low or high half is written. -/
def halfOf (old : Nat) (high : Bool) (v : Nat) : Nat := if high = true then v * 2 ^ 32 + old % 2 ^ 32 else old / 2 ^ 32 * 2 ^ 32 + v

/-- 17 R344-R346, R355, 10 R206 with Tables MGT-1, MGT-7, WRK-1: what a naturally aligned 4-byte write at an offset of BAR0 does; 8 bytes are two such writes, and
any other access is ignored. A write to QBASE, QCTL or QSTAT of an enabled queue is kept until the Pilot's next placement, where log entry 5 says which that
is. A read changes nothing, and gives 0 at an offset that is no multiple of 4. -/
def registerWrites : Prop :=
  ∀ (s : State) (off : BitVec 24) (v : BitVec 64) (x : Word) (o : Nat), o = off.toNat → x = v.setWidth 32 →
    (∀ wide, exec (.mgmtRegisterWrite off wide none) s = .next s) ∧ (o % 4 ≠ 0 → s.readReg o = 0)
    ∧ (o % 4 ≠ 0 → exec (.mgmtRegisterWrite off false (some v)) s = .next s)
    ∧ (o % 8 ≠ 0 → exec (.mgmtRegisterWrite off true (some v)) s = .next s)
    ∧ (o % 8 = 0 → ∀ t, exec (.mgmtRegisterWrite off false (some v)) s = .next t → exec (.mgmtRegisterWrite off true (some v)) s = exec (.mgmtRegisterWrite (off + 4) false (some (v >>> 32))) t)
    ∧ (o = 0 → exec (.mgmtRegisterWrite off false (some v)) s = .next { s with ltol := x })
    ∧ (o = 4 → exec (.mgmtRegisterWrite off false (some v)) s = .next s)
    ∧ (∀ c, c < 576 → o = 0x1000 + 4 * c → ∃ t, exec (.mgmtRegisterWrite off false (some v)) s = .next t ∧ (t.core c).tgate = x ∧ (∀ d, d ≠ c → t.core d = s.core d) ∧ t.groups = s.groups)
    ∧ (∀ n, n < 64 →
        (∀ k, k = 0 ∨ k = 4 ∨ k = 8 ∨ k = 12 → (s.queue n).en = true → o = 0x10000 + 16 * n + k → ∃ t, exec (.mgmtRegisterWrite off false (some v)) s = .next t ∧ unseen s t
            ∧ t.queue n = { s.queue n with pending := (s.queue n).pending ++ [(k, x)] } ∧ ∀ m, m ≠ n → t.queue m = s.queue m)
        ∧ ((s.queue n).en = false → o = 0x10000 + 16 * n + 8 → ∃ t, exec (.mgmtRegisterWrite off false (some v)) s = .next t ∧ (t.queue n).en = x.getLsbD 31
            ∧ (t.queue n).ctx = x.toNat / 2 ^ 16 % 2 ^ 6 ∧ (t.queue n).prio = x.toNat / 2 ^ 8 % 2 ^ 2 ∧ (t.queue n).logn = x.toNat % 2 ^ 4 ∧ (t.queue n).base = (s.queue n).base
            ∧ ∀ m, m ≠ n → t.queue m = s.queue m)
        ∧ ((s.queue n).en = false → o = 0x10000 + 16 * n + 12 → ∃ t, exec (.mgmtRegisterWrite off false (some v)) s = .next t ∧ (t.queue n).cfault = ((s.queue n).cfault && !x.getLsbD 8)
            ∧ (t.queue n).stop = ((s.queue n).stop && !x.getLsbD 31) ∧ (t.queue n).why = (s.queue n).why ∧ (t.queue n).pending = (s.queue n).pending)
        ∧ (∀ high : Bool, (s.queue n).en = false → o = 0x10000 + 16 * n + (if high = true then 4 else 0) → ∃ t, exec (.mgmtRegisterWrite off false (some v)) s = .next t
            ∧ (t.queue n).base = inPlace 51 12 (halfOf (s.queue n).base high x.toNat) ∧ (t.queue n).en = false)
        ∧ (o = 0x20000 + 4 * n → ∃ t, exec (.mgmtRegisterWrite off false (some v)) s = .next t ∧ (∀ c, Tab.get 0 t.counters c = if c = n then x else Tab.get 0 s.counters c) ∧ unseen s t))
    ∧ (∀ n f high, n < 64 → f < 4 → o = 0x30000 + 64 * n + 8 * f + (if high = true then 4 else 0) → ∃ t c, exec (.mgmtRegisterWrite off false (some v)) s = .next t ∧ c = s.context n
        ∧ t.context n = (let w (old : Nat) : Nat := inPlace 51 12 (halfOf old high x.toNat)
            if f = 0 then { c with root0 := w c.root0 } else if f = 1 then { c with root1 := w c.root1 } else if f = 2 then { c with root2 := w c.root2 } else { c with saveBase := w c.saveBase })
        ∧ unseen s t)
    ∧ (∀ n, n < 64 → (o = 0x30000 + 64 * n + 0x20 → ∃ t, exec (.mgmtRegisterWrite off false (some v)) s = .next t ∧ t.context n = { s.context n with saveSize := inPlace 31 12 x.toNat })
        ∧ (o = 0x30000 + 64 * n + 0x24 → ∃ t, exec (.mgmtRegisterWrite off false (some v)) s = .next t ∧ t.context n = { s.context n with dbgctl := x.setWidth 3 })
        ∧ (∀ high, o = 0x30000 + 64 * n + 0x28 + (if high = true then 4 else 0) → ∃ t, exec (.mgmtRegisterWrite off false (some v)) s = .next t
            ∧ t.context n = { s.context n with dbgBase := inPlace 51 16 (halfOf (s.context n).dbgBase high x.toNat) })
        ∧ (o = 0x30000 + 64 * n + 0x30 → exec (.mgmtRegisterWrite off false (some v)) s = exec (.resumeWrite (.ofNat 6 n) x) s)
        ∧ (o = 0x30000 + 64 * n + 0x34 → ∃ t, exec (.mgmtRegisterWrite off false (some v)) s = .next t ∧ t.context n = { s.context n with miss := x }))
    ∧ (∀ n k high, n < 64 → k < 16 → o = 0x40000 + 128 * n + 8 * k + (if high = true then 4 else 0) → ∃ t, exec (.mgmtRegisterWrite off false (some v)) s = .next t
        ∧ (Tab.get 0 t.progress (16 * n + k)).toNat = halfOf (Tab.get 0 s.progress (16 * n + k)).toNat high x.toNat ∧ unseen s t)
    ∧ (o = 0x80008 → exec (.mgmtRegisterWrite off false (some v)) s = .next { s with trial := { s.trial with len := x } })
    ∧ (o = 0x8000C → exec (.mgmtRegisterWrite off false (some v)) s = exec (.trgoWrite x) s)

/-- 17 R346, R355: RESTCTL, and the trials: writing 1 to TRGO while it reads 0 starts one, the context's 16 progress counters going into the record's first half;
at its end, TRLEN microseconds on, they go into the second and TRGO reads 0. Any other write changes nothing. A microsecond is 1,880 cycles of the network,
the clock of the model's step (log entry 2). -/
def trialSteps : Prop :=
  ∀ (s : State) (v : BitVec 32) (ctx : Nat), ctx = s.trial.ctx.toNat % 64 →
    exec (.restctlWrite v) s = .next { s with ltol := v }
    ∧ (v.getLsbD 0 = false ∨ s.trial.go = true → exec (.trgoWrite v) s = .next s)
    ∧ (v.getLsbD 0 = true → s.trial.go = false → ∃ t, exec (.trgoWrite v) s = .next t ∧ t.trial.go = true ∧ t.trial.endAt = s.cycle + 1880 * s.trial.len.toNat ∧ unseen s t
        ∧ ∀ i, i < 32 → Tab.get 0 t.trial.record i = if i < 16 then Tab.get 0 s.progress (16 * ctx + i) else Tab.get 0 s.trial.record i)
    ∧ (s.trial.go = true → s.trial.endAt ≤ s.cycle → ∃ t, exec .trialEnd s = .next t ∧ t.trial.go = false ∧ unseen s t
        ∧ ∀ i, i < 32 → Tab.get 0 t.trial.record i = if i < 16 then Tab.get 0 s.trial.record i else Tab.get 0 s.progress (16 * ctx + (i - 16)))
    ∧ (s.trial.go = false ∨ s.cycle < s.trial.endAt → exec .trialEnd s = .next s)

/-- Entry delay and exit latency in microseconds (Table MGT-3). -/
def restDelay (n : Nat) : Nat := [0, 10, 200, 5000, 100000].getD n 0
def restExit (n : Nat) : Nat := [0, 2, 40, 1500, 90000].getD n 0

/-- 17 R347, R348 with Table MGT-3: a state further down is entered only after its entry delay of idleness, with an exit latency within LTOL, and moored or laid up
only while no waypoint table holds an entry. Becalmed and below lose the L1, K and instruction caches, moored and below L2 scratch too, and the L2 cache ways, written back first, and nothing else.
A wake event has the device under way when its exit latency has passed. A microsecond is 1,880 cycles (log entry 2); that scratch reads 0 is log entry 60. -/
def restSteps : Prop :=
  (∀ (s : State) (n : Nat), s.restGoal = some n → s.rest < n ∧ n ≤ 4 ∧ restExit n ≤ s.ltol.toNat ∧ (∃ c, s.idleFrom = some c ∧ c + 1880 * restDelay n ≤ s.cycle)
    ∧ (3 ≤ n → s.waypoints = []) ∧ s.wake = none
    ∧ ∃ t, exec .restStateEntry s = .next t ∧ t.rest = n ∧ t.groups = s.groups ∧ t.measure = s.measure ∧ t.waypoints = s.waypoints ∧ t.contexts = s.contexts
      ∧ (n = 1 → t.cores = s.cores) ∧ (n = 2 ∨ (3 ≤ n ∧ s.logRegs = []) → ∀ c, t.core c = { s.core c with l1 := [], kc := [], ic := [] })
      ∧ (2 ≤ n → ∀ c, (t.core c).l1 = [] ∧ (t.core c).kc = [] ∧ (t.core c).ic = []) ∧ (3 ≤ n → t.dirty = [] ∧ t.replicas = [])
      ∧ ∀ l, (3 ≤ n → ¬ inLogRing s l) → t.readByte l = if 3 ≤ n ∧ 4 * 2 ^ 64 ≤ l ∧ l < 5 * 2 ^ 64 then 0 else s.readByte l)
  ∧ (∀ s : State, s.restGoal = none → exec .restStateEntry s = .next s)
  ∧ (∀ s : State, s.ltol = 0 → s.restGoal = none)
  ∧ ∀ (s : State), (∀ c, s.wake = some c → c ≤ s.cycle → exec .restExit s = .next { s with rest := 0, wake := none, idleFrom := none })
    ∧ ((∀ c, s.wake = some c → s.cycle < c) → exec .restExit s = .next s)

/-- What measuring an image makes of a register's 64 bytes (17 R349). -/
def extended (old : List Byte) (image : List Byte) : Nat := bytesToNat (shake256 (old ++ shake256 image))

/-- 17 R343, R349, R350: function-level reset clears the queue, counter and context registers, with which the roots in effect go at once (log entry 74, DESIGN
CHOICE; the progress counters stand: log entry 87), and no memory, and its launches leave no record (log entry 57). Device reset leaves the state of reset; device, host and
peer memory stand (the model's choice, log entry 4), and the images of the stages are measured into M0 to M5 from zero. Management firmware extends M6 to M15
only. A measurement request is answered by the report of Table MGT-4, signed over its first 1,096 bytes, and a key request by the public key; signature and key are
free values (log entry 15). -/
def resetAndMeasure : Prop :=
  (∀ s : State, s.launches = [] → ∃ t, exec .functionLevelReset s = .next t ∧ (∀ n, n < 64 → t.queue n = Queue.reset) ∧ t.counters = [] ∧ t.contexts = [] ∧ t.mem = s.mem
    ∧ t.measure = s.measure ∧ t.groups = s.groups)
  ∧ (∀ (s : State) (n : Nat) (l : Launch), s.launches = [(n, l)] → ∃ t m, exec .functionLevelReset s = .next t ∧ Tab.find t.launches n = some m ∧ m.kills = [] ∧ m.silent = true
    ∧ (∀ a, t.readByte a = s.readByte a) ∧ ∀ i g k, Tab.find s.groups i = some g → Tab.find s.blocks g.block = some k → k.launch = n → g.ended = false → g.finished = false →
        ∃ x, Tab.find t.groups i = some x ∧ x.killed = true)
  ∧ (∀ (s : State) (images : List (List Byte)), ∃ t, exec (.deviceReset images) s = .next t ∧ t.groups = [] ∧ t.blocks = [] ∧ t.launches = [] ∧ t.cores = [] ∧ t.queues = []
    ∧ t.counters = [] ∧ t.contexts = [] ∧ t.ltol = 0 ∧ t.rest = 0 ∧ t.cycle = 0 ∧ t.waypoints = [] ∧ t.l2way = [] ∧ t.resets = s.resets + 1
    ∧ (∀ l, t.readByte l = if l < 3 * 2 ^ 64 then s.readByte l else 0)
    ∧ ∀ i, Tab.get 0 t.measure i = (if i < 6 ∧ i < images.length then .ofNat 512 (extended (List.replicate 64 0) (images.getD i [])) else 0)
        ∧ Tab.get 0 t.extCount i = if i < 6 ∧ i < images.length then 1 else 0)
  ∧ (∀ (s : State) (r : BitVec 4) (image : List Byte), (r.toNat < 6 → exec (.managementFirmwareStageLoad r image) s = .next s)
    ∧ (6 ≤ r.toNat → ∃ t, exec (.managementFirmwareStageLoad r image) s = .next t ∧ unseen s t
      ∧ (∀ i, Tab.get 0 t.measure i = if i = r.toNat then .ofNat 512 (extended (natToBytes 64 (Tab.get 0 s.measure i).toNat) image) else Tab.get 0 s.measure i)
      ∧ ∀ i, (Tab.get 0 t.extCount i).toNat = if i = r.toNat then min ((Tab.get 0 s.extCount i).toNat + 1) 65535 else (Tab.get 0 s.extCount i).toNat))
  ∧ ∀ (s : State) (nonce : List Byte), nonce.length = 32 → ∃ t r, exec (.doeMeasurementRequest nonce) s = .next t ∧ unseen s t ∧ t.answers = s.answers ++ [r] ∧ r.length = 2376
    ∧ bytesToNat (r.take 4) = 1 ∧ bytesToNat ((r.drop 4).take 4) = s.resets.toNat ∧ (r.drop 8).take 32 = nonce
    ∧ (∀ i, i < 16 → bytesToNat ((r.drop (40 + 2 * i)).take 2) = (Tab.get 0 s.extCount i).toNat ∧ bytesToNat ((r.drop (72 + 64 * i)).take 64) = (Tab.get 0 s.measure i).toNat)
    ∧ r.drop 1096 = (List.range 1280).map (Config.signature (r.take 1096))
    ∧ ∃ v k, exec .doeKeyRequest s = .next v ∧ unseen s v ∧ v.answers = s.answers ++ [k] ∧ k.length = 1793 ∧ k = (List.range 1793).map Config.identityKey

/-- 07 R140, 14 R308, 17 R343: the host's accesses at their home, which wait while a pseudo-channel they reach is held back, its coherence requests, and a
corrected error counted, saturating. A read leaves no trace but in a slice's log (17 R354; log entry 62). -/
def hostAccesses : Prop :=
  (∀ (s : State) (pa : BitVec 39), (s.logRegs = [] → exec (.cxlMemAccess pa none) s = .next s)
    ∧ ∃ t, exec (.cxlMemAccess pa none) s = .next t ∧ t.groups = s.groups ∧ ∀ l, ¬ inLogRing s l → t.readByte l = s.readByte l)
  ∧ (∀ (s : State) (pa : BitVec 39) (data : List Byte), pa.toNat + data.length ≤ 2 ^ 39 →
    ((∀ i, i < data.length → s.heldAt (pa.toNat + i) = false) → ∃ t, exec (.cxlMemAccess pa (some data)) s = .next t ∧ t.groups = s.groups ∧ (s.logRegs = [] → t.cores = s.cores)
      ∧ ∀ l, ¬ inLogRing s l → t.readByte l = if pa.toNat ≤ l ∧ l < pa.toNat + data.length then data.getD (l - pa.toNat) 0 else s.readByte l)
    ∧ ((∃ i, i < data.length ∧ s.heldAt (pa.toNat + i) = true) →
      exec (.cxlMemAccess pa (some data)) s = .next { s with inputs := s.inputs ++ [{ due := s.cycle + 1, event := .cxlMemAccess pa (some data) }] }))
  ∧ (∀ (s : State) (line : Nat), exec (.cxlCacheCoherenceRequest line none) s = .next s)
  ∧ (∀ (s : State) (line : Nat) (data : List Byte), line < 2 ^ 45 → data.length = 128 → ∃ t, exec (.cxlCacheCoherenceRequest line (some data)) s = .next t ∧ t.groups = s.groups
    ∧ ∀ l, t.readByte l = if Ops.hostLoc (128 * line) ≤ l ∧ l < Ops.hostLoc (128 * line) + 128 then data.getD (l - Ops.hostLoc (128 * line)) 0 else s.readByte l)
  ∧ ∀ (s : State) (p b : Nat), ∃ t, exec (.correctedError p b) s = .next t ∧ unseen s t
    ∧ ∀ q a, Tab.get 0 (t.pchannel q).cerr a = if q = p ∧ a = b then min 255 (Tab.get 0 (s.pchannel q).cerr a + 1) else Tab.get 0 (s.pchannel q).cerr a

/-- 08 R170, R172: a walk is made for a launch with a group resident on the core, from the deepest level the walk cache holds; what it lets the core's TLB hold
translates the address it was made for as the walk does, over a page or the run its leaf promises, and a walk that faulted lets nothing be held. -/
def walksAreHeld : Prop :=
  ∀ (s : State) (core ctx : Nat) (space : BitVec 4) (va : BitVec 57) (sp : Nat), sp = (if space = 8 then 0 else space.toNat) →
    ∃ t, exec (.tlbWalk core ctx space va) s = .next t ∧ t.groups = s.groups ∧ (s.logRegs = [] → t.mem = s.mem) ∧ (∀ l, ¬ inLogRing s l → t.readByte l = s.readByte l)
      ∧ ((∀ p ∈ s.privsOn core ctx, ∃ f, s.walkOn core ctx sp va.toNat .read p = .error f) → (t.core core).tlb = (s.core core).tlb)
      ∧ (∀ e ∈ (t.core core).tlb, e ∈ (s.core core).tlb
        ∨ (∃ p ∈ s.privsOn core ctx, ∃ x, s.walkOn core ctx sp va.toNat .read p = .ok x ∧ e.ctx = ctx ∧ e.space = sp ∧ e.root = (s.context ctx).rootOf sp ∧ e.va ≤ va.toNat
            ∧ va.toNat < e.va + e.size ∧ (e.pa + (va.toNat - e.va)) % 2 ^ 52 = x.pa ∧ e.w = x.w ∧ e.x = x.x ∧ e.u = x.u ∧ e.level = x.level ∧ e.type = x.type))
      ∧ ∀ p ∈ s.privsOn core ctx, ∀ x, s.walkOn core ctx sp va.toNat .read p = .ok x → (t.core core).tlb.length ≤ 64
          ∧ ∃ e ∈ (t.core core).tlb, e.ctx = ctx ∧ e.space = sp ∧ e.va ≤ va.toNat ∧ va.toNat < e.va + e.size

/-- The location lies in a peer's memory. -/
def inPeers (l : Nat) : Prop := 2 * 2 ^ 64 ≤ l ∧ l < 3 * 2 ^ 64
/-- Outstanding at a peer: sent, not yet answered, its HOME one of those. -/
def outstanding (x : EngCmd) (home : Nat → Prop) : Prop := (∃ minor, x.cmd = .coll minor) ∧ x.sent = true ∧ x.answer = none ∧ home x.collPar.home
/-- The command ends with LINK. -/
def endsWithLink (t : State) (core id : Nat) : Prop := ∀ e, ∀ z ∈ (t.core core).queueOf e, z.id = id → z.answer = some (0x8000001B, [])
/-- The word of a group is to fail with LINK for a lane, and nothing else of the group is touched. -/
def failsWithLink (s t : State) (w : Nat × Nat × Nat) : Prop :=
  ∀ g o, Tab.find s.groups w.1 = some g → Tab.find g.longs w.2.1 = some o → ∃ h p tr, Tab.find t.groups w.1 = some h ∧ Tab.find h.longs w.2.1 = some p ∧ h.v = g.v ∧ h.slices = g.slices
    ∧ p.fault = some tr ∧ tr.cause = 0x1B ∧ tr.pc = o.pc ∧ tr.async = true ∧ tr.lanes = o.exec
/-- A core's store loses its bytes at locations of a kind, and goes where none is left. -/
def withoutPeerBytes (s : State) (core id : Nat) (far : Nat → Bool) : State :=
  s.onCore core fun k =>
    { k with stores := (k.stores.map fun p => if p.id = id then { p with cells := p.cells.filter fun c => !far c.1 } else p).filter fun p => !p.cells.isEmpty }

end Sys2Proof.Claims

/-- 10 R206, 17 R344-R346, R355: the management registers and the reckoning trials. -/
def Obligations.ManagementRegisters : Prop := registerWrites ∧ trialSteps

/-- 17 R343, R347-R350, 07 R140, 14 R308: rest states, resets and measurements, and the host's accesses. -/
def Obligations.RestResetAndHost : Prop := restSteps ∧ resetAndMeasure ∧ hostAccesses

/-- 15 R313, R318, R323: retries and pauses change timing alone. A link whose retries are exhausted ends with LINK one of what its core has under way at a peer, a
command, a long-latency word or a store in flight, whose FADDR is its lane's pointer, or the next access made; which one is log entry 62's choice. A peer's
reset drops its contributions, and ends with LINK the commands, words and stores under way there, a store's trap presented as a load's is (log entry 27,
DEDUCED), and what waits beside its contributions. A
peer's write, atomic or result takes effect at its home, and waits while that is held back; a peer's read leaves no trace but in a slice's log. -/
def Obligations.LinkSteps : Prop :=
  (∀ (s : State) (p : BitVec 4), ∃ t, exec (.linkFlitRetry p) s = .next t ∧ { t with retries := s.retries } = s)
  ∧ (∀ (s : State) (p c : BitVec 4) (on : Bool), ∃ t, exec (.virtualChannelPause p c on) s = .next t ∧ { t with paused := s.paused } = s
    ∧ ∀ e, e ∈ t.paused ↔ (e = (p.toNat, c.toNat) ∧ on = true) ∨ (e ≠ (p.toNat, c.toNat) ∧ e ∈ s.paused))
  ∧ (∀ (s : State) (core i : Nat) (cmds : List EngCmd) (words : List (Nat × Nat × Nat)) (stores : List (Nat × PendingStore)),
    cmds = (([.copy, .tile, .chart, .bank, .link] : List Engine).flatMap (s.queueHeads core)).filter (s.cmdFar fun _ => true) →
    words = s.wordsFar (Ops.atPeer fun _ => true) (fun g => s.coreOf g == core) → stores = s.storesFar (Ops.atPeer fun _ => true) (fun c => c == core) →
    i = s.pick % (cmds.length + words.length + stores.length + 1) →
    ∃ t, exec (.linkRetryExhausted core) s = .next t ∧ t.mem = s.mem
      ∧ (∀ x, cmds[i]? = some x → endsWithLink t core x.id ∧ t.groups = s.groups)
      ∧ (∀ n w, i = cmds.length + n → words[n]? = some w → t.cores = s.cores ∧ failsWithLink s t w
          ∧ ∀ h p tr, Tab.find t.groups w.1 = some h → Tab.find h.longs w.2.1 = some p → p.fault = some tr → tr.faddr = Tab.get 0 p.ptrs w.2.2)
      ∧ (∀ n x, i = cmds.length + words.length + n → stores[n]? = some x → ∀ s1, s1 = withoutPeerBytes s core x.2.id (Ops.atPeer fun _ => true) →
          (∀ q ∈ (s1.core core).stores, q.id = x.2.id → ∀ c ∈ q.cells, ¬ inPeers c.1)
          ∧ (∀ q ∈ (s.core core).stores, ∀ c ∈ q.cells, q.id ≠ x.2.id ∨ ¬ inPeers c.1 → ∃ r ∈ (s1.core core).stores, r.id = q.id ∧ c ∈ r.cells)
          ∧ (x.2.trap = none → t = s1)
          ∧ ∀ tr e, x.2.trap = some tr → (x.2.peers.find? fun e => Ops.atPeer (fun _ => true) e.1 && x.2.cells.any fun c => c.1 == e.1) = some e →
            t = s1.presentTrap x.2.group { tr with faddr := e.2 } (some x.2.id))
      ∧ (i = cmds.length + words.length + stores.length → (t.core core).linkBad = true ∧ t.groups = s.groups ∧ ∀ n, n ≠ core → t.core n = s.core n)
      ∧ ∀ w ∈ words, ∃ g o, (w.1, g) ∈ s.groups ∧ (w.2.1, o) ∈ g.longs ∧ s.coreOf g = core ∧ o.fault = none
          ∧ ((∃ r ∈ o.reads, r.lane.getD 0 = w.2.2 ∧ ∃ c ∈ r.cells, inPeers c.1) ∨ ∃ r ∈ s.net ++ s.podQ.flatMap (·.2), r.group = w.1 ∧ r.op = w.2.1 ∧ r.lane = w.2.2))
  ∧ (∀ (s : State) (p : BitVec 6), ∃ t, exec (.peerReset p) s = .next t ∧ t.mem = s.mem
    ∧ t.collectives = s.collectives.filter (fun i => !(i.parts.any fun c => c.peer == some p.toNat))
    ∧ (∀ core, ∀ q ∈ (t.core core).stores, ∀ c ∈ q.cells, ¬ (2 * 2 ^ 64 + p.toNat * 2 ^ 46 ≤ c.1 ∧ c.1 < 2 * 2 ^ 64 + (p.toNat + 1) * 2 ^ 46))
    ∧ (∀ core, ∀ x ∈ (s.core core).linkQ, outstanding x (fun h => h = p.toNat) → endsWithLink t core x.id)
    ∧ (∀ core e, ∀ x ∈ s.queueHeads core e, (∀ minor, x.cmd ≠ .coll minor) → s.cmdFar (fun n => n == p.toNat) x = true → endsWithLink t core x.id)
    ∧ (∀ stores, stores = s.storesFar (Ops.atPeer fun n => n == p.toNat) (fun _ => true) →
      ((∀ x ∈ stores, x.2.trap = none) → ∀ w ∈ s.wordsFar (Ops.atPeer fun n => n == p.toNat) (fun _ => true), failsWithLink s t w)
      ∧ ∀ x tr e g, stores = [x] → x.2.trap = some tr → (x.2.peers.find? fun e => Ops.atPeer (fun n => n == p.toNat) e.1 && x.2.cells.any fun c => c.1 == e.1) = some e →
        Tab.find s.groups x.2.group = some g → g.killed = false → g.handler = none → g.trap = none → s.blockStops g.block = false →
        g.lateWayin { tr with faddr := e.2, born := s.nowOf g } = none →
        ∃ h, Tab.find t.groups x.2.group = some h ∧ h.trap = some { tr with faddr := e.2, born := s.nowOf g, en := g.trapEn } ∧ h.v = g.v)
    ∧ ∀ i ∈ s.collectives, (∃ c ∈ i.parts, c.peer = some p.toNat) → ∀ c ∈ i.parts, c.peer = none → ∀ core, endsWithLink t core c.cmd)
  ∧ ∀ (s : State) (p : BitVec 6), (∀ pa n, (s.logRegs = [] → exec (.peerRequest p (.read pa n)) s = .next s)
      ∧ ∃ t, exec (.peerRequest p (.read pa n)) s = .next t ∧ t.groups = s.groups ∧ ∀ l, ¬ inLogRing s l → t.readByte l = s.readByte l)
    ∧ (∀ (pa : Nat) (data : List Byte), pa + data.length ≤ 2 ^ 39 →
      ((∀ i, i < data.length → s.heldAt (pa + i) = false) → ∃ t, exec (.peerRequest p (.write pa data)) s = .next t
        ∧ t.groups = s.groups ∧ ∀ l, ¬ inLogRing s l → t.readByte l = if pa ≤ l ∧ l < pa + data.length then data.getD (l - pa) 0 else s.readByte l)
      ∧ ((∃ i, i < data.length ∧ s.heldAt (pa + i) = true) →
        exec (.peerRequest p (.write pa data)) s = .next { s with inputs := s.inputs ++ [{ due := s.cycle + 1, event := .peerRequest p (.write pa data) }] }))
    ∧ (∀ (pa : Nat) (o : AtomOp) (b c : DWord), pa + o.size ≤ 2 ^ 39 → (∀ i, i < o.size → s.heldAt (pa + i) = false ∧ ¬ inLogRing s (pa + i)) → b.toNat < 2 ^ (8 * o.size) →
      c.toNat < 2 ^ (8 * o.size) →
      ∃ t, exec (.peerRequest p (.atomic pa o b c)) s = .next t ∧ t.groups = s.groups
        ∧ t.readNat pa o.size = (atomResult o (s.readNat pa o.size) b.toNat c.toNat).getD (s.readNat pa o.size)
        ∧ ∀ l, l < pa ∨ pa + o.size ≤ l → ¬ inLogRing s l → t.readByte l = s.readByte l)
    ∧ ∀ (core cmd : Nat) (st : Word) (data : List Byte), (∃ x ∈ (s.core core).linkQ, x.id = cmd ∧ outstanding x fun h => h = p.toNat) →
      ∃ t, exec (.peerRequest p (.result core cmd st data)) s = .next t ∧ t.groups = s.groups ∧ ∀ z ∈ (t.core core).linkQ, z.id = cmd → z.answer = some (st, data)

/-! Invariants and the state after reset. -/

/-- 07 R133 with log entry 4 (the form is the model's own): every step keeps the memory in its one canonical form, from every state that has it: no two states
that read alike at every byte differ in how they list their memory. -/
def Obligations.MemoryStaysCanonical : Prop := ∀ s t : State, step s = .next t → s.memoryKept → t.memoryKept

/-- 01 R11: every step keeps every core's clock between 940 and 1,080 MHz. -/
def Obligations.ClocksStayInRange : Prop := ∀ s t : State, step s = .next t → s.clocksKept → t.clocksKept

/-- 01 R11, 07 R141, 10 R210, 12 R268, 17 R344-R346, R349, R351, R352: device reset leaves no block, launch or group, clocks at 940 MHz, TGATE 2,048, L2WAY 0, the completion
counters, LTOL, DBGCTL, RESUME and the measurement registers 0. That memory reads 0 everywhere is the model's choice (log entry 4), and so is a chart without an
owner (log entry 6). -/
def Obligations.ResetState : Prop :=
  State.reset.memoryKept ∧ State.reset.clocksKept ∧ State.reset.groups = [] ∧ State.reset.blocks = [] ∧ State.reset.launches = [] ∧ (∀ l, State.reset.readByte l = 0)
  ∧ (∀ n, (State.reset.core n).clock = 940 ∧ (State.reset.core n).tgate = 2048 ∧ (State.reset.core n).stores = [] ∧ (State.reset.core n).l1 = [] ∧ (State.reset.core n).chart.owner = none)
  ∧ (∀ n, State.reset.ways n = 0 ∧ Tab.get 0 State.reset.counters n = 0 ∧ Tab.get 0 State.reset.measure n = 0 ∧ Tab.get 0 State.reset.extCount n = 0
      ∧ (State.reset.context n).dbgctl = 0 ∧ (State.reset.context n).resume = 0 ∧ State.reset.heldAt n = false)
  ∧ State.reset.ltol = 0 ∧ State.reset.rest = 0 ∧ State.reset.waypoints = [] ∧ ∃ t, step State.reset = .next t

/-! The statements made of several of the parts above. -/

/-- 05 R91-R95, R99, R102-R105: the integer words of one and two sources, and those of packed halves. -/
def Obligations.IntegerWords : Prop := integerWordsOfTwoSources ∧ integerWordsOfOneSource ∧ packedIntegerWords

/-- 05 R97, R98: the words with an immediate operand and those that form constants. -/
def Obligations.ImmediateAndConstantWords : Prop := immediateWords ∧ constantWords

/-- 04 R75, R88, 05 R93, R110: the words that compute masks from masks, and `ballot`. -/
def Obligations.MaskAndBallotWords : Prop := maskWordResults ∧ ballotWord

/-- 01 R21, 04 R73, R75: what a register write and a mask write reach, and that they reach nothing else. -/
def Obligations.RegisterAndMaskWrites : Prop := registerWriteReach ∧ maskWriteReach

/-- 06 R117-R123: the binary32 words and the words of packed binary16 halves. -/
def Obligations.Binary32AndHalfWords : Prop := binary32Words ∧ packedHalfWords

/-- 05 R107-R109: words that name a lane, and words that name a register by its number in a register. -/
def Obligations.NamedLaneAndRegisterWords : Prop := namedLaneWords ∧ registersByNumber

/-- 05 R106-R109, 06 R124: quad derivatives, reductions over the active lanes, and the tree sum. -/
def Obligations.DerivativesAndReductions : Prop := derivativeWords ∧ reductionWords ∧ treeSum

/-- 03 R42-R48, 04 R86, R87, 01 R11: how a clause begins, `yield` and `sleep`, and the steps of the clocks. -/
def Obligations.SchedulingSteps : Prop := clausesBegin ∧ yieldAndSleep ∧ clockSteps

/-- 04 R80-R83: arrival at a `join`, and the completion of its instance. -/
def Obligations.Joins : Prop := joinWord ∧ joinsComplete

/-- 07 R149, R154, R155, R159: stores in flight performed at their homes, and what a release leaves. -/
def Obligations.StoresAndReleases : Prop := storesArePerformed ∧ releasesPerformStores

/-- 09 R181-R187: the atomic words, and how a service group performs them. -/
def Obligations.AtomicWords : Prop := atomicWordsIssue ∧ atomicsAreServed

/-- 09 R188-R204: how a service group answers waypoint requests, and the steps that end the words. -/
def Obligations.WaypointService : Prop := waypointRequests ∧ waypointSteps

/-- 10 R219-R221: the block barrier words, and the completion of their phases. -/
def Obligations.BlockBarriers : Prop := blockBarrierWords ∧ barrierPhasesComplete

/-- 10 R225-R227, R229, R230: `fetchw`, `launch`, `regacq`, `regrel` and `regroup`. -/
def Obligations.WorkWords : Prop := workWordsIssue ∧ regroupWord

/-- 08 R168, R171, R172, R174: the walk of the tables, and the translations it lets the TLBs hold. -/
def Obligations.Translation : Prop := translationByWalk ∧ walksAreHeld

/-- 05 R91, R100, 03 R50, R56, 10 R229, Table ENC-9: the 64-bit integer words, and the checks of register fields that every word of a shape makes at issue. -/
def Obligations.PairWords : Prop := pairWordResults ∧ operandChecks

/-- 11 R234, R235, R243-R248, 12 R253-R264, R268, 13 R272, R276-R286, 14 R300-R306, 15 R317-R321: the engines take the commands of their queues in order, and what performing one of them computes. -/
def Obligations.EngineSteps : Prop := enginesInOrder ∧ claimsGatesAndReset ∧ contributionsJoin ∧ copyCommands ∧ matrixCommands ∧ chartCommands ∧ bankPasses ∧ reductionResults
end

