-- ==== Sys2Proof/Laws/Exec.lean ====
section
/-! SUPPORT. Which meaning `exec` gives each instruction, one equation per constructor. -/

set_option Elab.async false

namespace Sys2Proof.Machine

theorem exec_clauseDecode {s : State} (x1 x2) : exec (.clauseDecode x1 x2) s = execClauseDecode x1 x2 s := rfl
theorem exec_resultWriteback {s : State} (x1 x2) : exec (.resultWriteback x1 x2) s = execResultWriteback x1 x2 s := rfl
theorem exec_asyncFault {s : State} (x1 x2) : exec (.asyncFault x1 x2) s = execAsyncFault x1 x2 s := rfl
theorem exec_trapEntry {s : State} (x1) : exec (.trapEntry x1) s = execTrapEntry x1 s := rfl
theorem exec_killRecordWrite {s : State} (x1) : exec (.killRecordWrite x1) s = execKillRecordWrite x1 s := rfl
theorem exec_mgmtLaunchKill {s : State} (x1) : exec (.mgmtLaunchKill x1) s = execMgmtLaunchKill x1 s := rfl
theorem exec_groupEnd {s : State} (x1) : exec (.groupEnd x1) s = execGroupEnd x1 s := rfl
theorem exec_launchComplete {s : State} (x1) : exec (.launchComplete x1) s = execLaunchComplete x1 s := rfl
theorem exec_queueTailWrite {s : State} (x1) : exec (.queueTailWrite x1) s = execQueueTailWrite x1 s := rfl
theorem exec_launchRecordCopy {s : State} (x1) : exec (.launchRecordCopy x1) s = execLaunchRecordCopy x1 s := rfl
theorem exec_blockPlacement {s : State} (x1) : exec (.blockPlacement x1) s = execBlockPlacement x1 s := rfl
theorem exec_qstatStopClear {s : State} (x1) : exec (.qstatStopClear x1) s = execQstatStopClear x1 s := rfl
theorem exec_qstatCfaultClear {s : State} (x1) : exec (.qstatCfaultClear x1) s = execQstatCfaultClear x1 s := rfl
theorem exec_mgmtRegisterWrite {s : State} (x1 x2 x3) : exec (.mgmtRegisterWrite x1 x2 x3) s = execMgmtRegisterWrite x1 x2 x3 s := rfl
theorem exec_resumeWrite {s : State} (x1 x2) : exec (.resumeWrite x1 x2) s = execResumeWrite x1 x2 s := rfl
theorem exec_restctlWrite {s : State} (x1) : exec (.restctlWrite x1) s = execRestctlWrite x1 s := rfl
theorem exec_trgoWrite {s : State} (x1) : exec (.trgoWrite x1) s = execTrgoWrite x1 s := rfl
theorem exec_trialEnd (s : State) : exec .trialEnd s = execTrialEnd s := rfl
theorem exec_restStateEntry (s : State) : exec .restStateEntry s = execRestStateEntry s := rfl
theorem exec_restExit (s : State) : exec .restExit s = execRestExit s := rfl
theorem exec_functionLevelReset (s : State) : exec .functionLevelReset s = execFunctionLevelReset s := rfl
theorem exec_deviceReset {s : State} (x1) : exec (.deviceReset x1) s = execDeviceReset x1 s := rfl
theorem exec_doeMeasurementRequest {s : State} (x1) : exec (.doeMeasurementRequest x1) s = execDoeMeasurementRequest x1 s := rfl
theorem exec_doeKeyRequest (s : State) : exec .doeKeyRequest s = execDoeKeyRequest s := rfl
theorem exec_cxlMemAccess {s : State} (x1 x2) : exec (.cxlMemAccess x1 x2) s = execCxlMemAccess x1 x2 s := rfl
theorem exec_linkFlitRetry {s : State} (x1) : exec (.linkFlitRetry x1) s = execLinkFlitRetry x1 s := rfl
theorem exec_linkRetryExhausted {s : State} (x1) : exec (.linkRetryExhausted x1) s = execLinkRetryExhausted x1 s := rfl
theorem exec_peerReset {s : State} (x1) : exec (.peerReset x1) s = execPeerReset x1 s := rfl
theorem exec_peerRequest {s : State} (x1 x2) : exec (.peerRequest x1 x2) s = execPeerRequest x1 x2 s := rfl
theorem exec_collectiveContribution {s : State} (x1) : exec (.collectiveContribution x1) s = execCollectiveContribution x1 s := rfl
theorem exec_serviceRequestEnqueue {s : State} (x1) : exec (.serviceRequestEnqueue x1) s = execServiceRequestEnqueue x1 s := rfl
theorem exec_serviceRound {s : State} (x1) : exec (.serviceRound x1) s = execServiceRound x1 s := rfl
theorem exec_serviceReply {s : State} (x1) : exec (.serviceReply x1) s = execServiceReply x1 s := rfl
theorem exec_wayinComplete {s : State} (x1 x2) : exec (.wayinComplete x1 x2) s = execWayinComplete x1 x2 s := rfl
theorem exec_wayinTimeout {s : State} (x1 x2) : exec (.wayinTimeout x1 x2) s = execWayinTimeout x1 x2 s := rfl
theorem exec_waypointProbe {s : State} (x1 x2) : exec (.waypointProbe x1 x2) s = execWaypointProbe x1 x2 s := rfl
theorem exec_waypointPoison {s : State} (x1 x2) : exec (.waypointPoison x1 x2) s = execWaypointPoison x1 x2 s := rfl
theorem exec_wayskipFirm {s : State} (x1 x2) : exec (.wayskipFirm x1 x2) s = execWayskipFirm x1 x2 s := rfl
theorem exec_wayskipRemove {s : State} (x1 x2) : exec (.wayskipRemove x1 x2) s = execWayskipRemove x1 x2 s := rfl
theorem exec_joinComplete {s : State} (x1 x2) : exec (.joinComplete x1 x2) s = execJoinComplete x1 x2 s := rfl
theorem exec_joinTimeout {s : State} (x1 x2) : exec (.joinTimeout x1 x2) s = execJoinTimeout x1 x2 s := rfl
theorem exec_sleepEnd {s : State} (x1 x2) : exec (.sleepEnd x1 x2) s = execSleepEnd x1 x2 s := rfl
theorem exec_regacqGrant {s : State} (x1) : exec (.regacqGrant x1) s = execRegacqGrant x1 s := rfl
theorem exec_spill {s : State} (x1) : exec (.spill x1) s = execSpill x1 s := rfl
theorem exec_tclaimGrant {s : State} (x1 x2) : exec (.tclaimGrant x1 x2) s = execTclaimGrant x1 x2 s := rfl
theorem exec_fetchwFill {s : State} (x1) : exec (.fetchwFill x1) s = execFetchwFill x1 s := rfl
theorem exec_launchAnswer {s : State} (x1 x2) : exec (.launchAnswer x1 x2) s = execLaunchAnswer x1 x2 s := rfl
theorem exec_engineCommandComplete {s : State} (x1 x2) : exec (.engineCommandComplete x1 x2) s = execEngineCommandComplete x1 x2 s := rfl
theorem exec_engineBusyTimeout {s : State} (x1 x2) : exec (.engineBusyTimeout x1 x2) s = execEngineBusyTimeout x1 x2 s := rfl
theorem exec_chartReset {s : State} (x1) : exec (.chartReset x1) s = execChartReset x1 s := rfl
theorem exec_tlbWalk {s : State} (x1 x2 x3 x4) : exec (.tlbWalk x1 x2 x3 x4) s = execTlbWalk x1 x2 x3 x4 s := rfl
theorem exec_runaheadFetch {s : State} (x1 x2) : exec (.runaheadFetch x1 x2) s = execRunaheadFetch x1 x2 s := rfl
theorem exec_clockStep {s : State} (x1 x2) : exec (.clockStep x1 x2) s = execClockStep x1 x2 s := rfl
theorem exec_subarrayGate {s : State} (x1 x2) : exec (.subarrayGate x1 x2) s = execSubarrayGate x1 x2 s := rfl
theorem exec_preemptRequest {s : State} (x1) : exec (.preemptRequest x1) s = execPreemptRequest x1 s := rfl
theorem exec_preemptHandlerEntry {s : State} (x1) : exec (.preemptHandlerEntry x1) s = execPreemptHandlerEntry x1 s := rfl
theorem exec_preboundExpiry {s : State} (x1) : exec (.preboundExpiry x1) s = execPreboundExpiry x1 s := rfl
theorem exec_unitRestore {s : State} (x1) : exec (.unitRestore x1) s = execUnitRestore x1 s := rfl
theorem exec_debugRecordWrite {s : State} (x1) : exec (.debugRecordWrite x1) s = execDebugRecordWrite x1 s := rfl
theorem exec_wordNotAnInstruction {s : State} (x1) : exec (.wordNotAnInstruction x1) s = execWordNotAnInstruction x1 s := rfl
theorem exec_writeAcknowledgedAtHome {s : State} (x1 x2) : exec (.writeAcknowledgedAtHome x1 x2) s = execWriteAcknowledgedAtHome x1 x2 s := rfl
theorem exec_virtualChannelPause {s : State} (x1 x2 x3) : exec (.virtualChannelPause x1 x2 x3) s = execVirtualChannelPause x1 x2 x3 s := rfl
theorem exec_correctedError {s : State} (x1 x2) : exec (.correctedError x1 x2) s = execCorrectedError x1 x2 s := rfl
theorem exec_managementFirmwareStageLoad {s : State} (x1 x2) : exec (.managementFirmwareStageLoad x1 x2) s = execManagementFirmwareStageLoad x1 x2 s := rfl
theorem exec_cxlCacheCoherenceRequest {s : State} (x1 x2) : exec (.cxlCacheCoherenceRequest x1 x2) s = execCxlCacheCoherenceRequest x1 x2 s := rfl
theorem exec_br {s : State} (x1 x2 x3) : exec (.br x1 x2 x3) s = execBr x1 x2 x3 s := rfl
theorem exec_call {s : State} (x1) : exec (.call x1) s = execCall x1 s := rfl
theorem exec_ret (s : State) : exec .ret s = execRet s := rfl
theorem exec_jmpi {s : State} (x1) : exec (.jmpi x1) s = execJmpi x1 s := rfl
theorem exec_calli {s : State} (x1) : exec (.calli x1) s = execCalli x1 s := rfl
theorem exec_join {s : State} (x1 x2) : exec (.join x1 x2) s = execJoin x1 x2 s := rfl
theorem exec_exit (s : State) : exec .exit s = execExit s := rfl
theorem exec_yield {s : State} (x1) : exec (.yield x1) s = execYield x1 s := rfl
theorem exec_sleep {s : State} (x1) : exec (.sleep x1) s = execSleep x1 s := rfl
theorem exec_progress {s : State} (x1) : exec (.progress x1) s = execProgress x1 s := rfl
theorem exec_brkpt {s : State} (x1) : exec (.brkpt x1) s = execBrkpt x1 s := rfl
theorem exec_mand {s : State} (x1 x2 x3) : exec (.mand x1 x2 x3) s = execMand x1 x2 x3 s := rfl
theorem exec_mor {s : State} (x1 x2 x3) : exec (.mor x1 x2 x3) s = execMor x1 x2 x3 s := rfl
theorem exec_mxor {s : State} (x1 x2 x3) : exec (.mxor x1 x2 x3) s = execMxor x1 x2 x3 s := rfl
theorem exec_mandn {s : State} (x1 x2 x3) : exec (.mandn x1 x2 x3) s = execMandn x1 x2 x3 s := rfl
theorem exec_mnot {s : State} (x1 x2) : exec (.mnot x1 x2) s = execMnot x1 x2 s := rfl
theorem exec_mmov {s : State} (x1 x2) : exec (.mmov x1 x2) s = execMmov x1 x2 s := rfl
theorem exec_mall {s : State} (x1) : exec (.mall x1) s = execMall x1 s := rfl
theorem exec_mnone {s : State} (x1) : exec (.mnone x1) s = execMnone x1 s := rfl
theorem exec_mpopc {s : State} (x1 x2) : exec (.mpopc x1 x2) s = execMpopc x1 x2 s := rfl
theorem exec_mfirst {s : State} (x1 x2) : exec (.mfirst x1 x2) s = execMfirst x1 x2 s := rfl
theorem exec_mtos {s : State} (x1 x2 x3) : exec (.mtos x1 x2 x3) s = execMtos x1 x2 x3 s := rfl
theorem exec_stom {s : State} (x1 x2 x3) : exec (.stom x1 x2 x3) s = execStom x1 x2 x3 s := rfl
theorem exec_mlanes {s : State} (x1 x2) : exec (.mlanes x1 x2) s = execMlanes x1 x2 s := rfl
theorem exec_addI32 {s : State} (x1 x2 x3) : exec (.addI32 x1 x2 x3) s = execAddI32 x1 x2 x3 s := rfl
theorem exec_subI32 {s : State} (x1 x2 x3) : exec (.subI32 x1 x2 x3) s = execSubI32 x1 x2 x3 s := rfl
theorem exec_mulloI32 {s : State} (x1 x2 x3) : exec (.mulloI32 x1 x2 x3) s = execMulloI32 x1 x2 x3 s := rfl
theorem exec_mulhiI32 {s : State} (x1 x2 x3) : exec (.mulhiI32 x1 x2 x3) s = execMulhiI32 x1 x2 x3 s := rfl
theorem exec_mulhiN32 {s : State} (x1 x2 x3) : exec (.mulhiN32 x1 x2 x3) s = execMulhiN32 x1 x2 x3 s := rfl
theorem exec_and {s : State} (x1 x2 x3) : exec (.and x1 x2 x3) s = execAnd x1 x2 x3 s := rfl
theorem exec_or {s : State} (x1 x2 x3) : exec (.or x1 x2 x3) s = execOr x1 x2 x3 s := rfl
theorem exec_xor {s : State} (x1 x2 x3) : exec (.xor x1 x2 x3) s = execXor x1 x2 x3 s := rfl
theorem exec_andn {s : State} (x1 x2 x3) : exec (.andn x1 x2 x3) s = execAndn x1 x2 x3 s := rfl
theorem exec_shl {s : State} (x1 x2 x3) : exec (.shl x1 x2 x3) s = execShl x1 x2 x3 s := rfl
theorem exec_shrN32 {s : State} (x1 x2 x3) : exec (.shrN32 x1 x2 x3) s = execShrN32 x1 x2 x3 s := rfl
theorem exec_shrI32 {s : State} (x1 x2 x3) : exec (.shrI32 x1 x2 x3) s = execShrI32 x1 x2 x3 s := rfl
theorem exec_rotl {s : State} (x1 x2 x3) : exec (.rotl x1 x2 x3) s = execRotl x1 x2 x3 s := rfl
theorem exec_minI32 {s : State} (x1 x2 x3) : exec (.minI32 x1 x2 x3) s = execMinI32 x1 x2 x3 s := rfl
theorem exec_maxI32 {s : State} (x1 x2 x3) : exec (.maxI32 x1 x2 x3) s = execMaxI32 x1 x2 x3 s := rfl
theorem exec_minN32 {s : State} (x1 x2 x3) : exec (.minN32 x1 x2 x3) s = execMinN32 x1 x2 x3 s := rfl
theorem exec_maxN32 {s : State} (x1 x2 x3) : exec (.maxN32 x1 x2 x3) s = execMaxN32 x1 x2 x3 s := rfl
theorem exec_absI32 {s : State} (x1 x2) : exec (.absI32 x1 x2) s = execAbsI32 x1 x2 s := rfl
theorem exec_popc {s : State} (x1 x2) : exec (.popc x1 x2) s = execPopc x1 x2 s := rfl
theorem exec_clz {s : State} (x1 x2) : exec (.clz x1 x2) s = execClz x1 x2 s := rfl
theorem exec_brev {s : State} (x1 x2) : exec (.brev x1 x2) s = execBrev x1 x2 s := rfl
theorem exec_bfeN32 {s : State} (x1 x2 x3) : exec (.bfeN32 x1 x2 x3) s = execBfeN32 x1 x2 x3 s := rfl
theorem exec_bfeI32 {s : State} (x1 x2 x3) : exec (.bfeI32 x1 x2 x3) s = execBfeI32 x1 x2 x3 s := rfl
theorem exec_bfi {s : State} (x1 x2 x3) : exec (.bfi x1 x2 x3) s = execBfi x1 x2 x3 s := rfl
theorem exec_sel {s : State} (x1 x2 x3 x4) : exec (.sel x1 x2 x3 x4) s = execSel x1 x2 x3 x4 s := rfl
theorem exec_addi {s : State} (x1 x2 x3) : exec (.addi x1 x2 x3) s = execAddi x1 x2 x3 s := rfl
theorem exec_andi {s : State} (x1 x2 x3) : exec (.andi x1 x2 x3) s = execAndi x1 x2 x3 s := rfl
theorem exec_ori {s : State} (x1 x2 x3) : exec (.ori x1 x2 x3) s = execOri x1 x2 x3 s := rfl
theorem exec_xori {s : State} (x1 x2 x3) : exec (.xori x1 x2 x3) s = execXori x1 x2 x3 s := rfl
theorem exec_movzLo {s : State} (x1 x2) : exec (.movzLo x1 x2) s = execMovzLo x1 x2 s := rfl
theorem exec_movzHi {s : State} (x1 x2) : exec (.movzHi x1 x2) s = execMovzHi x1 x2 s := rfl
theorem exec_movkLo {s : State} (x1 x2) : exec (.movkLo x1 x2) s = execMovkLo x1 x2 s := rfl
theorem exec_movkHi {s : State} (x1 x2) : exec (.movkHi x1 x2) s = execMovkHi x1 x2 s := rfl
theorem exec_icmpEq {s : State} (x1 x2 x3) : exec (.icmpEq x1 x2 x3) s = execIcmpEq x1 x2 x3 s := rfl
theorem exec_icmpNe {s : State} (x1 x2 x3) : exec (.icmpNe x1 x2 x3) s = execIcmpNe x1 x2 x3 s := rfl
theorem exec_icmpLtI32 {s : State} (x1 x2 x3) : exec (.icmpLtI32 x1 x2 x3) s = execIcmpLtI32 x1 x2 x3 s := rfl
theorem exec_icmpLeI32 {s : State} (x1 x2 x3) : exec (.icmpLeI32 x1 x2 x3) s = execIcmpLeI32 x1 x2 x3 s := rfl
theorem exec_icmpGtI32 {s : State} (x1 x2 x3) : exec (.icmpGtI32 x1 x2 x3) s = execIcmpGtI32 x1 x2 x3 s := rfl
theorem exec_icmpGeI32 {s : State} (x1 x2 x3) : exec (.icmpGeI32 x1 x2 x3) s = execIcmpGeI32 x1 x2 x3 s := rfl
theorem exec_icmpLtN32 {s : State} (x1 x2 x3) : exec (.icmpLtN32 x1 x2 x3) s = execIcmpLtN32 x1 x2 x3 s := rfl
theorem exec_icmpLeN32 {s : State} (x1 x2 x3) : exec (.icmpLeN32 x1 x2 x3) s = execIcmpLeN32 x1 x2 x3 s := rfl
theorem exec_icmpGtN32 {s : State} (x1 x2 x3) : exec (.icmpGtN32 x1 x2 x3) s = execIcmpGtN32 x1 x2 x3 s := rfl
theorem exec_icmpGeN32 {s : State} (x1 x2 x3) : exec (.icmpGeN32 x1 x2 x3) s = execIcmpGeN32 x1 x2 x3 s := rfl
theorem exec_icmpEqI64 {s : State} (x1 x2 x3) : exec (.icmpEqI64 x1 x2 x3) s = execIcmpEqI64 x1 x2 x3 s := rfl
theorem exec_icmpLtI64 {s : State} (x1 x2 x3) : exec (.icmpLtI64 x1 x2 x3) s = execIcmpLtI64 x1 x2 x3 s := rfl
theorem exec_icmpLtN64 {s : State} (x1 x2 x3) : exec (.icmpLtN64 x1 x2 x3) s = execIcmpLtN64 x1 x2 x3 s := rfl
theorem exec_addI64 {s : State} (x1 x2 x3) : exec (.addI64 x1 x2 x3) s = execAddI64 x1 x2 x3 s := rfl
theorem exec_subI64 {s : State} (x1 x2 x3) : exec (.subI64 x1 x2 x3) s = execSubI64 x1 x2 x3 s := rfl
theorem exec_mulI64 {s : State} (x1 x2 x3) : exec (.mulI64 x1 x2 x3) s = execMulI64 x1 x2 x3 s := rfl
theorem exec_shlI64 {s : State} (x1 x2 x3) : exec (.shlI64 x1 x2 x3) s = execShlI64 x1 x2 x3 s := rfl
theorem exec_shrN64 {s : State} (x1 x2 x3) : exec (.shrN64 x1 x2 x3) s = execShrN64 x1 x2 x3 s := rfl
theorem exec_shrI64 {s : State} (x1 x2 x3) : exec (.shrI64 x1 x2 x3) s = execShrI64 x1 x2 x3 s := rfl
theorem exec_sextI64 {s : State} (x1 x2) : exec (.sextI64 x1 x2) s = execSextI64 x1 x2 s := rfl
theorem exec_zextI64 {s : State} (x1 x2) : exec (.zextI64 x1 x2) s = execZextI64 x1 x2 s := rfl
theorem exec_leaX1 {s : State} (x1 x2 x3) : exec (.leaX1 x1 x2 x3) s = execLeaX1 x1 x2 x3 s := rfl
theorem exec_leaX2 {s : State} (x1 x2 x3) : exec (.leaX2 x1 x2 x3) s = execLeaX2 x1 x2 x3 s := rfl
theorem exec_leaX4 {s : State} (x1 x2 x3) : exec (.leaX4 x1 x2 x3) s = execLeaX4 x1 x2 x3 s := rfl
theorem exec_leaX8 {s : State} (x1 x2 x3) : exec (.leaX8 x1 x2 x3) s = execLeaX8 x1 x2 x3 s := rfl
theorem exec_leaX16 {s : State} (x1 x2 x3) : exec (.leaX16 x1 x2 x3) s = execLeaX16 x1 x2 x3 s := rfl
theorem exec_addI16x2 {s : State} (x1 x2 x3) : exec (.addI16x2 x1 x2 x3) s = execAddI16x2 x1 x2 x3 s := rfl
theorem exec_subI16x2 {s : State} (x1 x2 x3) : exec (.subI16x2 x1 x2 x3) s = execSubI16x2 x1 x2 x3 s := rfl
theorem exec_addsI16x2 {s : State} (x1 x2 x3) : exec (.addsI16x2 x1 x2 x3) s = execAddsI16x2 x1 x2 x3 s := rfl
theorem exec_subsI16x2 {s : State} (x1 x2 x3) : exec (.subsI16x2 x1 x2 x3) s = execSubsI16x2 x1 x2 x3 s := rfl
theorem exec_minI16x2 {s : State} (x1 x2 x3) : exec (.minI16x2 x1 x2 x3) s = execMinI16x2 x1 x2 x3 s := rfl
theorem exec_maxI16x2 {s : State} (x1 x2 x3) : exec (.maxI16x2 x1 x2 x3) s = execMaxI16x2 x1 x2 x3 s := rfl
theorem exec_gtbitsI16x2 {s : State} (x1 x2 x3) : exec (.gtbitsI16x2 x1 x2 x3) s = execGtbitsI16x2 x1 x2 x3 s := rfl
theorem exec_shrI16x2 {s : State} (x1 x2 x3) : exec (.shrI16x2 x1 x2 x3) s = execShrI16x2 x1 x2 x3 s := rfl
theorem exec_packI16x2 {s : State} (x1 x2 x3) : exec (.packI16x2 x1 x2 x3) s = execPackI16x2 x1 x2 x3 s := rfl
theorem exec_sext8 {s : State} (x1 x2) : exec (.sext8 x1 x2) s = execSext8 x1 x2 s := rfl
theorem exec_sext16 {s : State} (x1 x2) : exec (.sext16 x1 x2) s = execSext16 x1 x2 s := rfl
theorem exec_zext8 {s : State} (x1 x2) : exec (.zext8 x1 x2) s = execZext8 x1 x2 s := rfl
theorem exec_zext16 {s : State} (x1 x2) : exec (.zext16 x1 x2) s = execZext16 x1 x2 s := rfl
theorem exec_msadB4 {s : State} (x1 x2 x3 x4) : exec (.msadB4 x1 x2 x3 x4) s = execMsadB4 x1 x2 x3 x4 s := rfl
theorem exec_addF32 {s : State} (x1 x2 x3) : exec (.addF32 x1 x2 x3) s = execAddF32 x1 x2 x3 s := rfl
theorem exec_subF32 {s : State} (x1 x2 x3) : exec (.subF32 x1 x2 x3) s = execSubF32 x1 x2 x3 s := rfl
theorem exec_mulF32 {s : State} (x1 x2 x3) : exec (.mulF32 x1 x2 x3) s = execMulF32 x1 x2 x3 s := rfl
theorem exec_fmaF32 {s : State} (x1 x2 x3) : exec (.fmaF32 x1 x2 x3) s = execFmaF32 x1 x2 x3 s := rfl
theorem exec_fmsF32 {s : State} (x1 x2 x3) : exec (.fmsF32 x1 x2 x3) s = execFmsF32 x1 x2 x3 s := rfl
theorem exec_minF32 {s : State} (x1 x2 x3) : exec (.minF32 x1 x2 x3) s = execMinF32 x1 x2 x3 s := rfl
theorem exec_maxF32 {s : State} (x1 x2 x3) : exec (.maxF32 x1 x2 x3) s = execMaxF32 x1 x2 x3 s := rfl
theorem exec_absF32 {s : State} (x1 x2) : exec (.absF32 x1 x2) s = execAbsF32 x1 x2 s := rfl
theorem exec_negF32 {s : State} (x1 x2) : exec (.negF32 x1 x2) s = execNegF32 x1 x2 s := rfl
theorem exec_copysignF32 {s : State} (x1 x2 x3) : exec (.copysignF32 x1 x2 x3) s = execCopysignF32 x1 x2 x3 s := rfl
theorem exec_floorF32 {s : State} (x1 x2) : exec (.floorF32 x1 x2) s = execFloorF32 x1 x2 s := rfl
theorem exec_ceilF32 {s : State} (x1 x2) : exec (.ceilF32 x1 x2) s = execCeilF32 x1 x2 s := rfl
theorem exec_truncF32 {s : State} (x1 x2) : exec (.truncF32 x1 x2) s = execTruncF32 x1 x2 s := rfl
theorem exec_rintF32 {s : State} (x1 x2) : exec (.rintF32 x1 x2) s = execRintF32 x1 x2 s := rfl
theorem exec_fractF32 {s : State} (x1 x2) : exec (.fractF32 x1 x2) s = execFractF32 x1 x2 s := rfl
theorem exec_addF64 {s : State} (x1 x2 x3) : exec (.addF64 x1 x2 x3) s = execAddF64 x1 x2 x3 s := rfl
theorem exec_subF64 {s : State} (x1 x2 x3) : exec (.subF64 x1 x2 x3) s = execSubF64 x1 x2 x3 s := rfl
theorem exec_mulF64 {s : State} (x1 x2 x3) : exec (.mulF64 x1 x2 x3) s = execMulF64 x1 x2 x3 s := rfl
theorem exec_fmaF64 {s : State} (x1 x2 x3) : exec (.fmaF64 x1 x2 x3) s = execFmaF64 x1 x2 x3 s := rfl
theorem exec_fmsF64 {s : State} (x1 x2 x3) : exec (.fmsF64 x1 x2 x3) s = execFmsF64 x1 x2 x3 s := rfl
theorem exec_minF64 {s : State} (x1 x2 x3) : exec (.minF64 x1 x2 x3) s = execMinF64 x1 x2 x3 s := rfl
theorem exec_maxF64 {s : State} (x1 x2 x3) : exec (.maxF64 x1 x2 x3) s = execMaxF64 x1 x2 x3 s := rfl
theorem exec_absF64 {s : State} (x1 x2) : exec (.absF64 x1 x2) s = execAbsF64 x1 x2 s := rfl
theorem exec_negF64 {s : State} (x1 x2) : exec (.negF64 x1 x2) s = execNegF64 x1 x2 s := rfl
theorem exec_floorF64 {s : State} (x1 x2) : exec (.floorF64 x1 x2) s = execFloorF64 x1 x2 s := rfl
theorem exec_ceilF64 {s : State} (x1 x2) : exec (.ceilF64 x1 x2) s = execCeilF64 x1 x2 s := rfl
theorem exec_truncF64 {s : State} (x1 x2) : exec (.truncF64 x1 x2) s = execTruncF64 x1 x2 s := rfl
theorem exec_rintF64 {s : State} (x1 x2) : exec (.rintF64 x1 x2) s = execRintF64 x1 x2 s := rfl
theorem exec_divF64 {s : State} (x1 x2 x3) : exec (.divF64 x1 x2 x3) s = execDivF64 x1 x2 x3 s := rfl
theorem exec_sqrtF64 {s : State} (x1 x2) : exec (.sqrtF64 x1 x2) s = execSqrtF64 x1 x2 s := rfl
theorem exec_addF16x2 {s : State} (x1 x2 x3) : exec (.addF16x2 x1 x2 x3) s = execAddF16x2 x1 x2 x3 s := rfl
theorem exec_mulF16x2 {s : State} (x1 x2 x3) : exec (.mulF16x2 x1 x2 x3) s = execMulF16x2 x1 x2 x3 s := rfl
theorem exec_fmaF16x2 {s : State} (x1 x2 x3) : exec (.fmaF16x2 x1 x2 x3) s = execFmaF16x2 x1 x2 x3 s := rfl
theorem exec_minF16x2 {s : State} (x1 x2 x3) : exec (.minF16x2 x1 x2 x3) s = execMinF16x2 x1 x2 x3 s := rfl
theorem exec_maxF16x2 {s : State} (x1 x2 x3) : exec (.maxF16x2 x1 x2 x3) s = execMaxF16x2 x1 x2 x3 s := rfl
theorem exec_addBf16x2 {s : State} (x1 x2 x3) : exec (.addBf16x2 x1 x2 x3) s = execAddBf16x2 x1 x2 x3 s := rfl
theorem exec_mulBf16x2 {s : State} (x1 x2 x3) : exec (.mulBf16x2 x1 x2 x3) s = execMulBf16x2 x1 x2 x3 s := rfl
theorem exec_fmaBf16x2 {s : State} (x1 x2 x3) : exec (.fmaBf16x2 x1 x2 x3) s = execFmaBf16x2 x1 x2 x3 s := rfl
theorem exec_dot2F32F16 {s : State} (x1 x2 x3) : exec (.dot2F32F16 x1 x2 x3) s = execDot2F32F16 x1 x2 x3 s := rfl
theorem exec_dot2F32Bf16 {s : State} (x1 x2 x3) : exec (.dot2F32Bf16 x1 x2 x3) s = execDot2F32Bf16 x1 x2 x3 s := rfl
theorem exec_fcmpEqF32 {s : State} (x1 x2 x3) : exec (.fcmpEqF32 x1 x2 x3) s = execFcmpEqF32 x1 x2 x3 s := rfl
theorem exec_fcmpNeF32 {s : State} (x1 x2 x3) : exec (.fcmpNeF32 x1 x2 x3) s = execFcmpNeF32 x1 x2 x3 s := rfl
theorem exec_fcmpLtF32 {s : State} (x1 x2 x3) : exec (.fcmpLtF32 x1 x2 x3) s = execFcmpLtF32 x1 x2 x3 s := rfl
theorem exec_fcmpLeF32 {s : State} (x1 x2 x3) : exec (.fcmpLeF32 x1 x2 x3) s = execFcmpLeF32 x1 x2 x3 s := rfl
theorem exec_fcmpGtF32 {s : State} (x1 x2 x3) : exec (.fcmpGtF32 x1 x2 x3) s = execFcmpGtF32 x1 x2 x3 s := rfl
theorem exec_fcmpGeF32 {s : State} (x1 x2 x3) : exec (.fcmpGeF32 x1 x2 x3) s = execFcmpGeF32 x1 x2 x3 s := rfl
theorem exec_fcmpOrdF32 {s : State} (x1 x2 x3) : exec (.fcmpOrdF32 x1 x2 x3) s = execFcmpOrdF32 x1 x2 x3 s := rfl
theorem exec_fcmpUnordF32 {s : State} (x1 x2 x3) : exec (.fcmpUnordF32 x1 x2 x3) s = execFcmpUnordF32 x1 x2 x3 s := rfl
theorem exec_fcmpEqF64 {s : State} (x1 x2 x3) : exec (.fcmpEqF64 x1 x2 x3) s = execFcmpEqF64 x1 x2 x3 s := rfl
theorem exec_fcmpNeF64 {s : State} (x1 x2 x3) : exec (.fcmpNeF64 x1 x2 x3) s = execFcmpNeF64 x1 x2 x3 s := rfl
theorem exec_fcmpLtF64 {s : State} (x1 x2 x3) : exec (.fcmpLtF64 x1 x2 x3) s = execFcmpLtF64 x1 x2 x3 s := rfl
theorem exec_fcmpLeF64 {s : State} (x1 x2 x3) : exec (.fcmpLeF64 x1 x2 x3) s = execFcmpLeF64 x1 x2 x3 s := rfl
theorem exec_fcmpGtF64 {s : State} (x1 x2 x3) : exec (.fcmpGtF64 x1 x2 x3) s = execFcmpGtF64 x1 x2 x3 s := rfl
theorem exec_fcmpGeF64 {s : State} (x1 x2 x3) : exec (.fcmpGeF64 x1 x2 x3) s = execFcmpGeF64 x1 x2 x3 s := rfl
theorem exec_fcmpOrdF64 {s : State} (x1 x2 x3) : exec (.fcmpOrdF64 x1 x2 x3) s = execFcmpOrdF64 x1 x2 x3 s := rfl
theorem exec_fcmpUnordF64 {s : State} (x1 x2 x3) : exec (.fcmpUnordF64 x1 x2 x3) s = execFcmpUnordF64 x1 x2 x3 s := rfl
theorem exec_exp2F32 {s : State} (x1 x2) : exec (.exp2F32 x1 x2) s = execExp2F32 x1 x2 s := rfl
theorem exec_log2F32 {s : State} (x1 x2) : exec (.log2F32 x1 x2) s = execLog2F32 x1 x2 s := rfl
theorem exec_rcpF32 {s : State} (x1 x2) : exec (.rcpF32 x1 x2) s = execRcpF32 x1 x2 s := rfl
theorem exec_rsqF32 {s : State} (x1 x2) : exec (.rsqF32 x1 x2) s = execRsqF32 x1 x2 s := rfl
theorem exec_sqrtF32 {s : State} (x1 x2) : exec (.sqrtF32 x1 x2) s = execSqrtF32 x1 x2 s := rfl
theorem exec_divF32 {s : State} (x1 x2 x3) : exec (.divF32 x1 x2 x3) s = execDivF32 x1 x2 x3 s := rfl
theorem exec_sin2piF32 {s : State} (x1 x2) : exec (.sin2piF32 x1 x2) s = execSin2piF32 x1 x2 s := rfl
theorem exec_cos2piF32 {s : State} (x1 x2) : exec (.cos2piF32 x1 x2) s = execCos2piF32 x1 x2 s := rfl
theorem exec_cvtF32F16lo {s : State} (x1 x2) : exec (.cvtF32F16lo x1 x2) s = execCvtF32F16lo x1 x2 s := rfl
theorem exec_cvtF32F16hi {s : State} (x1 x2) : exec (.cvtF32F16hi x1 x2) s = execCvtF32F16hi x1 x2 s := rfl
theorem exec_cvtF16x2F32 {s : State} (x1 x2 x3) : exec (.cvtF16x2F32 x1 x2 x3) s = execCvtF16x2F32 x1 x2 x3 s := rfl
theorem exec_cvtF32Bf16lo {s : State} (x1 x2) : exec (.cvtF32Bf16lo x1 x2) s = execCvtF32Bf16lo x1 x2 s := rfl
theorem exec_cvtF32Bf16hi {s : State} (x1 x2) : exec (.cvtF32Bf16hi x1 x2) s = execCvtF32Bf16hi x1 x2 s := rfl
theorem exec_cvtBf16x2F32 {s : State} (x1 x2 x3) : exec (.cvtBf16x2F32 x1 x2 x3) s = execCvtBf16x2F32 x1 x2 x3 s := rfl
theorem exec_cvtF64F32 {s : State} (x1 x2) : exec (.cvtF64F32 x1 x2) s = execCvtF64F32 x1 x2 s := rfl
theorem exec_cvtF32F64 {s : State} (x1 x2) : exec (.cvtF32F64 x1 x2) s = execCvtF32F64 x1 x2 s := rfl
theorem exec_cvtF32I32 {s : State} (x1 x2) : exec (.cvtF32I32 x1 x2) s = execCvtF32I32 x1 x2 s := rfl
theorem exec_cvtF32N32 {s : State} (x1 x2) : exec (.cvtF32N32 x1 x2) s = execCvtF32N32 x1 x2 s := rfl
theorem exec_cvtI32F32 {s : State} (x1 x2) : exec (.cvtI32F32 x1 x2) s = execCvtI32F32 x1 x2 s := rfl
theorem exec_cvtN32F32 {s : State} (x1 x2) : exec (.cvtN32F32 x1 x2) s = execCvtN32F32 x1 x2 s := rfl
theorem exec_cvtF64I64 {s : State} (x1 x2) : exec (.cvtF64I64 x1 x2) s = execCvtF64I64 x1 x2 s := rfl
theorem exec_cvtI64F64 {s : State} (x1 x2) : exec (.cvtI64F64 x1 x2) s = execCvtI64F64 x1 x2 s := rfl
theorem exec_cvtF64I32 {s : State} (x1 x2) : exec (.cvtF64I32 x1 x2) s = execCvtF64I32 x1 x2 s := rfl
theorem exec_cvtI32F64 {s : State} (x1 x2) : exec (.cvtI32F64 x1 x2) s = execCvtI32F64 x1 x2 s := rfl
theorem exec_rbox {s : State} (x1 x2 x3) : exec (.rbox x1 x2 x3) s = execRbox x1 x2 x3 s := rfl
theorem exec_rtri {s : State} (x1 x2 x3) : exec (.rtri x1 x2 x3) s = execRtri x1 x2 x3 s := rfl
theorem exec_edgec {s : State} (x1 x2 x3) : exec (.edgec x1 x2 x3) s = execEdgec x1 x2 x3 s := rfl
theorem exec_cullbf {s : State} (x1 x2) : exec (.cullbf x1 x2) s = execCullbf x1 x2 s := rfl
theorem exec_cullbx {s : State} (x1 x2) : exec (.cullbx x1 x2) s = execCullbx x1 x2 s := rfl
theorem exec_lpick {s : State} (x1 x2 x3) : exec (.lpick x1 x2 x3) s = execLpick x1 x2 x3 s := rfl
theorem exec_lswap {s : State} (x1 x2 x3) : exec (.lswap x1 x2 x3) s = execLswap x1 x2 x3 s := rfl
theorem exec_lrotu {s : State} (x1 x2 x3) : exec (.lrotu x1 x2 x3) s = execLrotu x1 x2 x3 s := rfl
theorem exec_lrotd {s : State} (x1 x2 x3) : exec (.lrotd x1 x2 x3) s = execLrotd x1 x2 x3 s := rfl
theorem exec_bcast {s : State} (x1 x2 x3) : exec (.bcast x1 x2 x3) s = execBcast x1 x2 x3 s := rfl
theorem exec_ddxF32 {s : State} (x1 x2) : exec (.ddxF32 x1 x2) s = execDdxF32 x1 x2 s := rfl
theorem exec_ddyF32 {s : State} (x1 x2) : exec (.ddyF32 x1 x2) s = execDdyF32 x1 x2 s := rfl
theorem exec_vrdi {s : State} (x1 x2) : exec (.vrdi x1 x2) s = execVrdi x1 x2 s := rfl
theorem exec_vwri {s : State} (x1 x2) : exec (.vwri x1 x2) s = execVwri x1 x2 s := rfl
theorem exec_rdlane {s : State} (x1 x2 x3) : exec (.rdlane x1 x2 x3) s = execRdlane x1 x2 x3 s := rfl
theorem exec_wrlane {s : State} (x1 x2 x3) : exec (.wrlane x1 x2 x3) s = execWrlane x1 x2 x3 s := rfl
theorem exec_raddI32 {s : State} (x1 x2) : exec (.raddI32 x1 x2) s = execRaddI32 x1 x2 s := rfl
theorem exec_rmaxI32 {s : State} (x1 x2) : exec (.rmaxI32 x1 x2) s = execRmaxI32 x1 x2 s := rfl
theorem exec_rminI32 {s : State} (x1 x2) : exec (.rminI32 x1 x2) s = execRminI32 x1 x2 s := rfl
theorem exec_raddF32 {s : State} (x1 x2) : exec (.raddF32 x1 x2) s = execRaddF32 x1 x2 s := rfl
theorem exec_ballot {s : State} (x1 x2) : exec (.ballot x1 x2) s = execBallot x1 x2 s := rfl
theorem exec_ld8n {s : State} (x1 x2 x3) : exec (.ld8n x1 x2 x3) s = execLd8n x1 x2 x3 s := rfl
theorem exec_ld8i {s : State} (x1 x2 x3) : exec (.ld8i x1 x2 x3) s = execLd8i x1 x2 x3 s := rfl
theorem exec_ld16n {s : State} (x1 x2 x3) : exec (.ld16n x1 x2 x3) s = execLd16n x1 x2 x3 s := rfl
theorem exec_ld16i {s : State} (x1 x2 x3) : exec (.ld16i x1 x2 x3) s = execLd16i x1 x2 x3 s := rfl
theorem exec_ld32 {s : State} (x1 x2 x3) : exec (.ld32 x1 x2 x3) s = execLd32 x1 x2 x3 s := rfl
theorem exec_ld64 {s : State} (x1 x2 x3) : exec (.ld64 x1 x2 x3) s = execLd64 x1 x2 x3 s := rfl
theorem exec_ld128 {s : State} (x1 x2 x3) : exec (.ld128 x1 x2 x3) s = execLd128 x1 x2 x3 s := rfl
theorem exec_ldx8n {s : State} (x1 x2 x3) : exec (.ldx8n x1 x2 x3) s = execLdx8n x1 x2 x3 s := rfl
theorem exec_ldx8i {s : State} (x1 x2 x3) : exec (.ldx8i x1 x2 x3) s = execLdx8i x1 x2 x3 s := rfl
theorem exec_ldx16n {s : State} (x1 x2 x3) : exec (.ldx16n x1 x2 x3) s = execLdx16n x1 x2 x3 s := rfl
theorem exec_ldx16i {s : State} (x1 x2 x3) : exec (.ldx16i x1 x2 x3) s = execLdx16i x1 x2 x3 s := rfl
theorem exec_ldx32 {s : State} (x1 x2 x3) : exec (.ldx32 x1 x2 x3) s = execLdx32 x1 x2 x3 s := rfl
theorem exec_ldx64 {s : State} (x1 x2 x3) : exec (.ldx64 x1 x2 x3) s = execLdx64 x1 x2 x3 s := rfl
theorem exec_ldx128 {s : State} (x1 x2 x3) : exec (.ldx128 x1 x2 x3) s = execLdx128 x1 x2 x3 s := rfl
theorem exec_st8 {s : State} (x1 x2 x3) : exec (.st8 x1 x2 x3) s = execSt8 x1 x2 x3 s := rfl
theorem exec_st16 {s : State} (x1 x2 x3) : exec (.st16 x1 x2 x3) s = execSt16 x1 x2 x3 s := rfl
theorem exec_st32 {s : State} (x1 x2 x3) : exec (.st32 x1 x2 x3) s = execSt32 x1 x2 x3 s := rfl
theorem exec_st64 {s : State} (x1 x2 x3) : exec (.st64 x1 x2 x3) s = execSt64 x1 x2 x3 s := rfl
theorem exec_st128 {s : State} (x1 x2 x3) : exec (.st128 x1 x2 x3) s = execSt128 x1 x2 x3 s := rfl
theorem exec_stx8 {s : State} (x1 x2 x3) : exec (.stx8 x1 x2 x3) s = execStx8 x1 x2 x3 s := rfl
theorem exec_stx16 {s : State} (x1 x2 x3) : exec (.stx16 x1 x2 x3) s = execStx16 x1 x2 x3 s := rfl
theorem exec_stx32 {s : State} (x1 x2 x3) : exec (.stx32 x1 x2 x3) s = execStx32 x1 x2 x3 s := rfl
theorem exec_stx64 {s : State} (x1 x2 x3) : exec (.stx64 x1 x2 x3) s = execStx64 x1 x2 x3 s := rfl
theorem exec_stx128 {s : State} (x1 x2 x3) : exec (.stx128 x1 x2 x3) s = execStx128 x1 x2 x3 s := rfl
theorem exec_ldk32 {s : State} (x1 x2 x3) : exec (.ldk32 x1 x2 x3) s = execLdk32 x1 x2 x3 s := rfl
theorem exec_ldk64 {s : State} (x1 x2 x3) : exec (.ldk64 x1 x2 x3) s = execLdk64 x1 x2 x3 s := rfl
theorem exec_ldk128 {s : State} (x1 x2 x3) : exec (.ldk128 x1 x2 x3) s = execLdk128 x1 x2 x3 s := rfl
theorem exec_lda32 {s : State} (x1 x2 x3) : exec (.lda32 x1 x2 x3) s = execLda32 x1 x2 x3 s := rfl
theorem exec_lda64 {s : State} (x1 x2 x3) : exec (.lda64 x1 x2 x3) s = execLda64 x1 x2 x3 s := rfl
theorem exec_stl32 {s : State} (x1 x2 x3) : exec (.stl32 x1 x2 x3) s = execStl32 x1 x2 x3 s := rfl
theorem exec_stl64 {s : State} (x1 x2 x3) : exec (.stl64 x1 x2 x3) s = execStl64 x1 x2 x3 s := rfl
theorem exec_fence {s : State} (x1 x2 x3) : exec (.fence x1 x2 x3) s = execFence x1 x2 x3 s := rfl
theorem exec_pfence {s : State} (x1) : exec (.pfence x1) s = execPfence x1 s := rfl
theorem exec_icinv {s : State} (x1) : exec (.icinv x1) s = execIcinv x1 s := rfl
theorem exec_icinvAll (s : State) : exec .icinvAll s = execIcinvAll s := rfl
theorem exec_prefL1 {s : State} (x1 x2) : exec (.prefL1 x1 x2) s = execPrefL1 x1 x2 s := rfl
theorem exec_prefL2 {s : State} (x1 x2) : exec (.prefL2 x1 x2) s = execPrefL2 x1 x2 s := rfl
theorem exec_atomAddI32 {s : State} (x1 x2 x3) : exec (.atomAddI32 x1 x2 x3) s = execAtomAddI32 x1 x2 x3 s := rfl
theorem exec_atomAddI64 {s : State} (x1 x2 x3) : exec (.atomAddI64 x1 x2 x3) s = execAtomAddI64 x1 x2 x3 s := rfl
theorem exec_atomMinI32 {s : State} (x1 x2 x3) : exec (.atomMinI32 x1 x2 x3) s = execAtomMinI32 x1 x2 x3 s := rfl
theorem exec_atomMaxI32 {s : State} (x1 x2 x3) : exec (.atomMaxI32 x1 x2 x3) s = execAtomMaxI32 x1 x2 x3 s := rfl
theorem exec_atomMinN32 {s : State} (x1 x2 x3) : exec (.atomMinN32 x1 x2 x3) s = execAtomMinN32 x1 x2 x3 s := rfl
theorem exec_atomMaxN32 {s : State} (x1 x2 x3) : exec (.atomMaxN32 x1 x2 x3) s = execAtomMaxN32 x1 x2 x3 s := rfl
theorem exec_atomAnd32 {s : State} (x1 x2 x3) : exec (.atomAnd32 x1 x2 x3) s = execAtomAnd32 x1 x2 x3 s := rfl
theorem exec_atomOr32 {s : State} (x1 x2 x3) : exec (.atomOr32 x1 x2 x3) s = execAtomOr32 x1 x2 x3 s := rfl
theorem exec_atomXor32 {s : State} (x1 x2 x3) : exec (.atomXor32 x1 x2 x3) s = execAtomXor32 x1 x2 x3 s := rfl
theorem exec_atomXchg32 {s : State} (x1 x2 x3) : exec (.atomXchg32 x1 x2 x3) s = execAtomXchg32 x1 x2 x3 s := rfl
theorem exec_atomXchg64 {s : State} (x1 x2 x3) : exec (.atomXchg64 x1 x2 x3) s = execAtomXchg64 x1 x2 x3 s := rfl
theorem exec_atomCas32 {s : State} (x1 x2 x3) : exec (.atomCas32 x1 x2 x3) s = execAtomCas32 x1 x2 x3 s := rfl
theorem exec_atomCas64 {s : State} (x1 x2 x3) : exec (.atomCas64 x1 x2 x3) s = execAtomCas64 x1 x2 x3 s := rfl
theorem exec_atomAddF32 {s : State} (x1 x2 x3) : exec (.atomAddF32 x1 x2 x3) s = execAtomAddF32 x1 x2 x3 s := rfl
theorem exec_atomIncN32 {s : State} (x1 x2 x3) : exec (.atomIncN32 x1 x2 x3) s = execAtomIncN32 x1 x2 x3 s := rfl
theorem exec_atomDecN32 {s : State} (x1 x2 x3) : exec (.atomDecN32 x1 x2 x3) s = execAtomDecN32 x1 x2 x3 s := rfl
theorem exec_wayin {s : State} (x1 x2) : exec (.wayin x1 x2) s = execWayin x1 x2 s := rfl
theorem exec_wayout {s : State} (x1) : exec (.wayout x1) s = execWayout x1 s := rfl
theorem exec_wayskip {s : State} (x1 x2) : exec (.wayskip x1 x2) s = execWayskip x1 x2 s := rfl
theorem exec_waytry {s : State} (x1 x2 x3) : exec (.waytry x1 x2 x3) s = execWaytry x1 x2 x3 s := rfl
theorem exec_wayclose {s : State} (x1) : exec (.wayclose x1) s = execWayclose x1 s := rfl
theorem exec_wayqry {s : State} (x1 x2) : exec (.wayqry x1 x2) s = execWayqry x1 x2 s := rfl
theorem exec_barArrive {s : State} (x1) : exec (.barArrive x1) s = execBarArrive x1 s := rfl
theorem exec_barWait {s : State} (x1) : exec (.barWait x1) s = execBarWait x1 s := rfl
theorem exec_barSync {s : State} (x1) : exec (.barSync x1) s = execBarSync x1 s := rfl
theorem exec_barAlloc {s : State} (x1 x2) : exec (.barAlloc x1 x2) s = execBarAlloc x1 x2 s := rfl
theorem exec_barFree {s : State} (x1) : exec (.barFree x1) s = execBarFree x1 s := rfl
theorem exec_cbarArrive {s : State} (x1) : exec (.cbarArrive x1) s = execCbarArrive x1 s := rfl
theorem exec_cbarWait {s : State} (x1) : exec (.cbarWait x1) s = execCbarWait x1 s := rfl
theorem exec_cbarSync {s : State} (x1) : exec (.cbarSync x1) s = execCbarSync x1 s := rfl
theorem exec_gbarSync (s : State) : exec .gbarSync s = execGbarSync s := rfl
theorem exec_spawn {s : State} (x1 x2) : exec (.spawn x1 x2) s = execSpawn x1 x2 s := rfl
theorem exec_fetchw {s : State} (x1) : exec (.fetchw x1) s = execFetchw x1 s := rfl
theorem exec_regacq (s : State) : exec .regacq s = execRegacq s := rfl
theorem exec_regrel (s : State) : exec .regrel s = execRegrel s := rfl
theorem exec_regroup {s : State} (x1) : exec (.regroup x1) s = execRegroup x1 s := rfl
theorem exec_launch {s : State} (x1 x2) : exec (.launch x1 x2) s = execLaunch x1 x2 s := rfl
theorem exec_preok (s : State) : exec .preok s = execPreok s := rfl
theorem exec_srd {s : State} (x1 x2) : exec (.srd x1 x2) s = execSrd x1 x2 s := rfl
theorem exec_swr {s : State} (x1 x2) : exec (.swr x1 x2) s = execSwr x1 x2 s := rfl
theorem exec_copyG2s {s : State} (x1 x2 x3 x4 x5) : exec (.copyG2s x1 x2 x3 x4 x5) s = execCopyG2s x1 x2 x3 x4 x5 s := rfl
theorem exec_copyS2g {s : State} (x1 x2 x3 x4 x5) : exec (.copyS2g x1 x2 x3 x4 x5) s = execCopyS2g x1 x2 x3 x4 x5 s := rfl
theorem exec_copyG2o {s : State} (x1 x2 x3 x4 x5) : exec (.copyG2o x1 x2 x3 x4 x5) s = execCopyG2o x1 x2 x3 x4 x5 s := rfl
theorem exec_copyS2o {s : State} (x1 x2 x3 x4 x5) : exec (.copyS2o x1 x2 x3 x4 x5) s = execCopyS2o x1 x2 x3 x4 x5 s := rfl
theorem exec_copyG2g {s : State} (x1 x2 x3 x4 x5) : exec (.copyG2g x1 x2 x3 x4 x5) s = execCopyG2g x1 x2 x3 x4 x5 s := rfl
theorem exec_copyFill {s : State} (x1 x2 x3 x4 x5) : exec (.copyFill x1 x2 x3 x4 x5) s = execCopyFill x1 x2 x3 x4 x5 s := rfl
theorem exec_tmma {s : State} (x1 x2 x3 x4 x5) : exec (.tmma x1 x2 x3 x4 x5) s = execTmma x1 x2 x3 x4 x5 s := rfl
theorem exec_tmms {s : State} (x1 x2 x3 x4 x5) : exec (.tmms x1 x2 x3 x4 x5) s = execTmms x1 x2 x3 x4 x5 s := rfl
theorem exec_tzero {s : State} (x1 x2) : exec (.tzero x1 x2) s = execTzero x1 x2 s := rfl
theorem exec_tld {s : State} (x1 x2 x3 x4) : exec (.tld x1 x2 x3 x4) s = execTld x1 x2 x3 x4 s := rfl
theorem exec_tst {s : State} (x1 x2 x3 x4) : exec (.tst x1 x2 x3 x4) s = execTst x1 x2 x3 x4 s := rfl
theorem exec_tclaim {s : State} (x1 x2 x3) : exec (.tclaim x1 x2 x3) s = execTclaim x1 x2 x3 s := rfl
theorem exec_tclaimAcc {s : State} (x1 x2 x3) : exec (.tclaimAcc x1 x2 x3) s = execTclaimAcc x1 x2 x3 s := rfl
theorem exec_trelSlot {s : State} (x1 x2) : exec (.trelSlot x1 x2) s = execTrelSlot x1 x2 s := rfl
theorem exec_trelAcc {s : State} (x1 x2) : exec (.trelAcc x1 x2) s = execTrelAcc x1 x2 s := rfl
theorem exec_tcfg {s : State} (x1 x2 x3 x4) : exec (.tcfg x1 x2 x3 x4) s = execTcfg x1 x2 x3 x4 s := rfl
theorem exec_chexp {s : State} (x1 x2 x3 x4) : exec (.chexp x1 x2 x3 x4) s = execChexp x1 x2 x3 x4 s := rfl
theorem exec_chopAdd {s : State} (x1 x2 x3) : exec (.chopAdd x1 x2 x3) s = execChopAdd x1 x2 x3 s := rfl
theorem exec_chopSub {s : State} (x1 x2 x3) : exec (.chopSub x1 x2 x3) s = execChopSub x1 x2 x3 s := rfl
theorem exec_chopMul {s : State} (x1 x2 x3) : exec (.chopMul x1 x2 x3) s = execChopMul x1 x2 x3 s := rfl
theorem exec_chopFma {s : State} (x1 x2 x3) : exec (.chopFma x1 x2 x3) s = execChopFma x1 x2 x3 s := rfl
theorem exec_chopMin {s : State} (x1 x2 x3) : exec (.chopMin x1 x2 x3) s = execChopMin x1 x2 x3 s := rfl
theorem exec_chopMax {s : State} (x1 x2 x3) : exec (.chopMax x1 x2 x3) s = execChopMax x1 x2 x3 s := rfl
theorem exec_chopExp2 {s : State} (x1 x2) : exec (.chopExp2 x1 x2) s = execChopExp2 x1 x2 s := rfl
theorem exec_chopRcp {s : State} (x1 x2) : exec (.chopRcp x1 x2) s = execChopRcp x1 x2 s := rfl
theorem exec_chopMov {s : State} (x1 x2) : exec (.chopMov x1 x2) s = execChopMov x1 x2 s := rfl
theorem exec_chopSel {s : State} (x1 x2 x3) : exec (.chopSel x1 x2 x3) s = execChopSel x1 x2 x3 s := rfl
theorem exec_chopLt {s : State} (x1 x2) : exec (.chopLt x1 x2) s = execChopLt x1 x2 s := rfl
theorem exec_chopLe {s : State} (x1 x2) : exec (.chopLe x1 x2) s = execChopLe x1 x2 s := rfl
theorem exec_chopEq {s : State} (x1 x2) : exec (.chopEq x1 x2) s = execChopEq x1 x2 s := rfl
theorem exec_chopNe {s : State} (x1 x2) : exec (.chopNe x1 x2) s = execChopNe x1 x2 s := rfl
theorem exec_chenabPush (s : State) : exec .chenabPush s = execChenabPush s := rfl
theorem exec_chenabPop (s : State) : exec .chenabPop s = execChenabPop s := rfl
theorem exec_chenabElse (s : State) : exec .chenabElse s = execChenabElse s := rfl
theorem exec_chenabAll (s : State) : exec .chenabAll s = execChenabAll s := rfl
theorem exec_chld {s : State} (x1 x2 x3 x4) : exec (.chld x1 x2 x3 x4) s = execChld x1 x2 x3 x4 s := rfl
theorem exec_chst {s : State} (x1 x2 x3 x4 x5) : exec (.chst x1 x2 x3 x4 x5) s = execChst x1 x2 x3 x4 x5 s := rfl
theorem exec_chvis {s : State} (x1 x2) : exec (.chvis x1 x2) s = execChvis x1 x2 s := rfl
theorem exec_chown {s : State} (x1 x2) : exec (.chown x1 x2) s = execChown x1 x2 s := rfl
theorem exec_chrel (s : State) : exec .chrel s = execChrel s := rfl
theorem exec_chorg {s : State} (x1) : exec (.chorg x1) s = execChorg x1 s := rfl
theorem exec_chorgRd {s : State} (x1) : exec (.chorgRd x1) s = execChorgRd x1 s := rfl
theorem exec_chset {s : State} (x1 x2 x3) : exec (.chset x1 x2 x3) s = execChset x1 x2 x3 s := rfl
theorem exec_chcubic {s : State} (x1 x2 x3) : exec (.chcubic x1 x2 x3) s = execChcubic x1 x2 x3 s := rfl
theorem exec_bkmodeOn {s : State} (x1 x2 x3 x4 x5) : exec (.bkmodeOn x1 x2 x3 x4 x5) s = execBkmodeOn x1 x2 x3 x4 x5 s := rfl
theorem exec_bkmodeOff {s : State} (x1 x2 x3 x4 x5) : exec (.bkmodeOff x1 x2 x3 x4 x5) s = execBkmodeOff x1 x2 x3 x4 x5 s := rfl
theorem exec_bkload {s : State} (x1 x2 x3 x4 x5 x6 x7) : exec (.bkload x1 x2 x3 x4 x5 x6 x7) s = execBkload x1 x2 x3 x4 x5 x6 x7 s := rfl
theorem exec_bkmac {s : State} (x1 x2 x3 x4 x5 x6 x7) : exec (.bkmac x1 x2 x3 x4 x5 x6 x7) s = execBkmac x1 x2 x3 x4 x5 x6 x7 s := rfl
theorem exec_bkread {s : State} (x1 x2 x3 x4 x5) : exec (.bkread x1 x2 x3 x4 x5) s = execBkread x1 x2 x3 x4 x5 s := rfl
theorem exec_bkcalCal {s : State} (x1 x2 x3 x4 x5) : exec (.bkcalCal x1 x2 x3 x4 x5) s = execBkcalCal x1 x2 x3 x4 x5 s := rfl
theorem exec_bkcalBist {s : State} (x1 x2 x3 x4 x5) : exec (.bkcalBist x1 x2 x3 x4 x5) s = execBkcalBist x1 x2 x3 x4 x5 s := rfl
theorem exec_bkcalRemap {s : State} (x1 x2 x3 x4 x5) : exec (.bkcalRemap x1 x2 x3 x4 x5) s = execBkcalRemap x1 x2 x3 x4 x5 s := rfl
theorem exec_bkstat {s : State} (x1 x2 x3 x4 x5) : exec (.bkstat x1 x2 x3 x4 x5) s = execBkstat x1 x2 x3 x4 x5 s := rfl
theorem exec_collRed {s : State} (x1 x2 x3 x4 x5) : exec (.collRed x1 x2 x3 x4 x5) s = execCollRed x1 x2 x3 x4 x5 s := rfl
theorem exec_collRedq {s : State} (x1 x2 x3 x4 x5) : exec (.collRedq x1 x2 x3 x4 x5) s = execCollRedq x1 x2 x3 x4 x5 s := rfl
theorem exec_collBcast {s : State} (x1 x2 x3 x4 x5) : exec (.collBcast x1 x2 x3 x4 x5) s = execCollBcast x1 x2 x3 x4 x5 s := rfl
theorem exec_collGather {s : State} (x1 x2 x3 x4 x5) : exec (.collGather x1 x2 x3 x4 x5) s = execCollGather x1 x2 x3 x4 x5 s := rfl
theorem exec_lput {s : State} (x1 x2 x3 x4 x5) : exec (.lput x1 x2 x3 x4 x5) s = execLput x1 x2 x3 x4 x5 s := rfl
theorem exec_lget {s : State} (x1 x2 x3 x4 x5) : exec (.lget x1 x2 x3 x4 x5) s = execLget x1 x2 x3 x4 x5 s := rfl
theorem exec_trap {s : State} (x1) : exec (.trap x1) s = execTrap x1 s := rfl
theorem exec_tret (s : State) : exec .tret s = execTret s := rfl
theorem exec_tlbinvPage {s : State} (x1 x2) : exec (.tlbinvPage x1 x2) s = execTlbinvPage x1 x2 s := rfl
theorem exec_tlbinvCtx {s : State} (x1) : exec (.tlbinvCtx x1) s = execTlbinvCtx x1 s := rfl
theorem exec_tlbinvAll (s : State) : exec .tlbinvAll s = execTlbinvAll s := rfl
theorem exec_l2way {s : State} (x1) : exec (.l2way x1) s = execL2way x1 s := rfl
theorem exec_l2wayRd {s : State} (x1) : exec (.l2wayRd x1) s = execL2wayRd x1 s := rfl
theorem exec_stop (s : State) : exec .stop s = execStop s := rfl
theorem exec_sndgOn {s : State} (x1) : exec (.sndgOn x1) s = execSndgOn x1 s := rfl
theorem exec_sndgOff (s : State) : exec .sndgOff s = execSndgOff s := rfl
theorem exec_sndgRd {s : State} (x1) : exec (.sndgRd x1) s = execSndgRd x1 s := rfl

end Sys2Proof.Machine
end

