-- ==== Sys2Proof/Laws/State.lean ====
section
/-! SUPPORT. What each update of the state does to each of its fields, so that no proof unfolds a record update. -/

namespace Sys2Proof.Machine

@[simp] theorem State.onGroup_cycle (s : State) (n : Nat) (f : Group → Group) : (s.onGroup n f).cycle = s.cycle := rfl
@[simp] theorem State.onGroup_awake (s : State) (n : Nat) (f : Group → Group) : (s.onGroup n f).awake = s.awake := rfl
@[simp] theorem State.onGroup_free (s : State) (n : Nat) (f : Group → Group) : (s.onGroup n f).free = s.free := rfl
@[simp] theorem State.onGroup_oracle (s : State) (n : Nat) (f : Group → Group) : (s.onGroup n f).oracle = s.oracle := rfl
@[simp] theorem State.onGroup_inputs (s : State) (n : Nat) (f : Group → Group) : (s.onGroup n f).inputs = s.inputs := rfl
@[simp] theorem State.onGroup_nextId (s : State) (n : Nat) (f : Group → Group) : (s.onGroup n f).nextId = s.nextId := rfl
@[simp] theorem State.onGroup_cur (s : State) (n : Nat) (f : Group → Group) : (s.onGroup n f).cur = s.cur := rfl
@[simp] theorem State.onGroup_stepB0 (s : State) (n : Nat) (f : Group → Group) : (s.onGroup n f).stepB0 = s.stepB0 := rfl
@[simp] theorem State.onGroup_mem (s : State) (n : Nat) (f : Group → Group) : (s.onGroup n f).mem = s.mem := rfl
@[simp] theorem State.onGroup_l2way (s : State) (n : Nat) (f : Group → Group) : (s.onGroup n f).l2way = s.l2way := rfl
@[simp] theorem State.onGroup_cores (s : State) (n : Nat) (f : Group → Group) : (s.onGroup n f).cores = s.cores := rfl
@[simp] theorem State.onGroup_sectorTlb (s : State) (n : Nat) (f : Group → Group) : (s.onGroup n f).sectorTlb = s.sectorTlb := rfl
@[simp] theorem State.onGroup_walkCache (s : State) (n : Nat) (f : Group → Group) : (s.onGroup n f).walkCache = s.walkCache := rfl
@[simp] theorem State.onGroup_contexts (s : State) (n : Nat) (f : Group → Group) : (s.onGroup n f).contexts = s.contexts := rfl
@[simp] theorem State.onGroup_groups (s : State) (n : Nat) (f : Group → Group) : (s.onGroup n f).groups = Tab.change s.groups n f := rfl
@[simp] theorem State.onGroup_blocks (s : State) (n : Nat) (f : Group → Group) : (s.onGroup n f).blocks = s.blocks := rfl
@[simp] theorem State.onGroup_clusters (s : State) (n : Nat) (f : Group → Group) : (s.onGroup n f).clusters = s.clusters := rfl
@[simp] theorem State.onGroup_launches (s : State) (n : Nat) (f : Group → Group) : (s.onGroup n f).launches = s.launches := rfl
@[simp] theorem State.onGroup_queues (s : State) (n : Nat) (f : Group → Group) : (s.onGroup n f).queues = s.queues := rfl
@[simp] theorem State.onGroup_devQueues (s : State) (n : Nat) (f : Group → Group) : (s.onGroup n f).devQueues = s.devQueues := rfl
@[simp] theorem State.onGroup_lastServed (s : State) (n : Nat) (f : Group → Group) : (s.onGroup n f).lastServed = s.lastServed := rfl
@[simp] theorem State.onGroup_launchReqs (s : State) (n : Nat) (f : Group → Group) : (s.onGroup n f).launchReqs = s.launchReqs := rfl
@[simp] theorem State.onGroup_counters (s : State) (n : Nat) (f : Group → Group) : (s.onGroup n f).counters = s.counters := rfl
@[simp] theorem State.onGroup_net (s : State) (n : Nat) (f : Group → Group) : (s.onGroup n f).net = s.net := rfl
@[simp] theorem State.onGroup_podQ (s : State) (n : Nat) (f : Group → Group) : (s.onGroup n f).podQ = s.podQ := rfl
@[simp] theorem State.onGroup_replies (s : State) (n : Nat) (f : Group → Group) : (s.onGroup n f).replies = s.replies := rfl
@[simp] theorem State.onGroup_waypoints (s : State) (n : Nat) (f : Group → Group) : (s.onGroup n f).waypoints = s.waypoints := rfl
@[simp] theorem State.onGroup_probes (s : State) (n : Nat) (f : Group → Group) : (s.onGroup n f).probes = s.probes := rfl
@[simp] theorem State.onGroup_poisons (s : State) (n : Nat) (f : Group → Group) : (s.onGroup n f).poisons = s.poisons := rfl
@[simp] theorem State.onGroup_pchannels (s : State) (n : Nat) (f : Group → Group) : (s.onGroup n f).pchannels = s.pchannels := rfl
@[simp] theorem State.onGroup_device (s : State) (n : Nat) (f : Group → Group) : (s.onGroup n f).device = s.device := rfl
@[simp] theorem State.onGroup_routes (s : State) (n : Nat) (f : Group → Group) : (s.onGroup n f).routes = s.routes := rfl
@[simp] theorem State.onGroup_paused (s : State) (n : Nat) (f : Group → Group) : (s.onGroup n f).paused = s.paused := rfl
@[simp] theorem State.onGroup_retries (s : State) (n : Nat) (f : Group → Group) : (s.onGroup n f).retries = s.retries := rfl
@[simp] theorem State.onGroup_collectives (s : State) (n : Nat) (f : Group → Group) : (s.onGroup n f).collectives = s.collectives := rfl
@[simp] theorem State.onGroup_ltol (s : State) (n : Nat) (f : Group → Group) : (s.onGroup n f).ltol = s.ltol := rfl
@[simp] theorem State.onGroup_rest (s : State) (n : Nat) (f : Group → Group) : (s.onGroup n f).rest = s.rest := rfl
@[simp] theorem State.onGroup_idleFrom (s : State) (n : Nat) (f : Group → Group) : (s.onGroup n f).idleFrom = s.idleFrom := rfl
@[simp] theorem State.onGroup_wake (s : State) (n : Nat) (f : Group → Group) : (s.onGroup n f).wake = s.wake := rfl
@[simp] theorem State.onGroup_progress (s : State) (n : Nat) (f : Group → Group) : (s.onGroup n f).progress = s.progress := rfl
@[simp] theorem State.onGroup_trial (s : State) (n : Nat) (f : Group → Group) : (s.onGroup n f).trial = s.trial := rfl
@[simp] theorem State.onGroup_soundings (s : State) (n : Nat) (f : Group → Group) : (s.onGroup n f).soundings = s.soundings := rfl
@[simp] theorem State.onGroup_logRegs (s : State) (n : Nat) (f : Group → Group) : (s.onGroup n f).logRegs = s.logRegs := rfl
@[simp] theorem State.onGroup_logHead (s : State) (n : Nat) (f : Group → Group) : (s.onGroup n f).logHead = s.logHead := rfl
@[simp] theorem State.onGroup_logDrops (s : State) (n : Nat) (f : Group → Group) : (s.onGroup n f).logDrops = s.logDrops := rfl
@[simp] theorem State.onGroup_dirty (s : State) (n : Nat) (f : Group → Group) : (s.onGroup n f).dirty = s.dirty := rfl
@[simp] theorem State.onGroup_replicas (s : State) (n : Nat) (f : Group → Group) : (s.onGroup n f).replicas = s.replicas := rfl
@[simp] theorem State.onGroup_invals (s : State) (n : Nat) (f : Group → Group) : (s.onGroup n f).invals = s.invals := rfl
@[simp] theorem State.onGroup_measure (s : State) (n : Nat) (f : Group → Group) : (s.onGroup n f).measure = s.measure := rfl
@[simp] theorem State.onGroup_extCount (s : State) (n : Nat) (f : Group → Group) : (s.onGroup n f).extCount = s.extCount := rfl
@[simp] theorem State.onGroup_resets (s : State) (n : Nat) (f : Group → Group) : (s.onGroup n f).resets = s.resets := rfl
@[simp] theorem State.onGroup_answers (s : State) (n : Nat) (f : Group → Group) : (s.onGroup n f).answers = s.answers := rfl
@[simp] theorem State.onGroup_units (s : State) (n : Nat) (f : Group → Group) : (s.onGroup n f).units = s.units := rfl
@[simp] theorem State.onGroup_stowage (s : State) (n : Nat) (f : Group → Group) : (s.onGroup n f).stowage = s.stowage := rfl

@[simp] theorem State.onCore_cycle (s : State) (n : Nat) (f : Core → Core) : (s.onCore n f).cycle = s.cycle := rfl
@[simp] theorem State.onCore_awake (s : State) (n : Nat) (f : Core → Core) : (s.onCore n f).awake = s.awake := rfl
@[simp] theorem State.onCore_free (s : State) (n : Nat) (f : Core → Core) : (s.onCore n f).free = s.free := rfl
@[simp] theorem State.onCore_oracle (s : State) (n : Nat) (f : Core → Core) : (s.onCore n f).oracle = s.oracle := rfl
@[simp] theorem State.onCore_inputs (s : State) (n : Nat) (f : Core → Core) : (s.onCore n f).inputs = s.inputs := rfl
@[simp] theorem State.onCore_nextId (s : State) (n : Nat) (f : Core → Core) : (s.onCore n f).nextId = s.nextId := rfl
@[simp] theorem State.onCore_cur (s : State) (n : Nat) (f : Core → Core) : (s.onCore n f).cur = s.cur := rfl
@[simp] theorem State.onCore_stepB0 (s : State) (n : Nat) (f : Core → Core) : (s.onCore n f).stepB0 = s.stepB0 := rfl
@[simp] theorem State.onCore_mem (s : State) (n : Nat) (f : Core → Core) : (s.onCore n f).mem = s.mem := rfl
@[simp] theorem State.onCore_l2way (s : State) (n : Nat) (f : Core → Core) : (s.onCore n f).l2way = s.l2way := rfl
@[simp] theorem State.onCore_cores (s : State) (n : Nat) (f : Core → Core) : (s.onCore n f).cores = Tab.set Core.reset s.cores n (f (s.core n)) := rfl
@[simp] theorem State.onCore_sectorTlb (s : State) (n : Nat) (f : Core → Core) : (s.onCore n f).sectorTlb = s.sectorTlb := rfl
@[simp] theorem State.onCore_walkCache (s : State) (n : Nat) (f : Core → Core) : (s.onCore n f).walkCache = s.walkCache := rfl
@[simp] theorem State.onCore_contexts (s : State) (n : Nat) (f : Core → Core) : (s.onCore n f).contexts = s.contexts := rfl
@[simp] theorem State.onCore_groups (s : State) (n : Nat) (f : Core → Core) : (s.onCore n f).groups = s.groups := rfl
@[simp] theorem State.onCore_blocks (s : State) (n : Nat) (f : Core → Core) : (s.onCore n f).blocks = s.blocks := rfl
@[simp] theorem State.onCore_clusters (s : State) (n : Nat) (f : Core → Core) : (s.onCore n f).clusters = s.clusters := rfl
@[simp] theorem State.onCore_launches (s : State) (n : Nat) (f : Core → Core) : (s.onCore n f).launches = s.launches := rfl
@[simp] theorem State.onCore_queues (s : State) (n : Nat) (f : Core → Core) : (s.onCore n f).queues = s.queues := rfl
@[simp] theorem State.onCore_devQueues (s : State) (n : Nat) (f : Core → Core) : (s.onCore n f).devQueues = s.devQueues := rfl
@[simp] theorem State.onCore_lastServed (s : State) (n : Nat) (f : Core → Core) : (s.onCore n f).lastServed = s.lastServed := rfl
@[simp] theorem State.onCore_launchReqs (s : State) (n : Nat) (f : Core → Core) : (s.onCore n f).launchReqs = s.launchReqs := rfl
@[simp] theorem State.onCore_counters (s : State) (n : Nat) (f : Core → Core) : (s.onCore n f).counters = s.counters := rfl
@[simp] theorem State.onCore_net (s : State) (n : Nat) (f : Core → Core) : (s.onCore n f).net = s.net := rfl
@[simp] theorem State.onCore_podQ (s : State) (n : Nat) (f : Core → Core) : (s.onCore n f).podQ = s.podQ := rfl
@[simp] theorem State.onCore_replies (s : State) (n : Nat) (f : Core → Core) : (s.onCore n f).replies = s.replies := rfl
@[simp] theorem State.onCore_waypoints (s : State) (n : Nat) (f : Core → Core) : (s.onCore n f).waypoints = s.waypoints := rfl
@[simp] theorem State.onCore_probes (s : State) (n : Nat) (f : Core → Core) : (s.onCore n f).probes = s.probes := rfl
@[simp] theorem State.onCore_poisons (s : State) (n : Nat) (f : Core → Core) : (s.onCore n f).poisons = s.poisons := rfl
@[simp] theorem State.onCore_pchannels (s : State) (n : Nat) (f : Core → Core) : (s.onCore n f).pchannels = s.pchannels := rfl
@[simp] theorem State.onCore_device (s : State) (n : Nat) (f : Core → Core) : (s.onCore n f).device = s.device := rfl
@[simp] theorem State.onCore_routes (s : State) (n : Nat) (f : Core → Core) : (s.onCore n f).routes = s.routes := rfl
@[simp] theorem State.onCore_paused (s : State) (n : Nat) (f : Core → Core) : (s.onCore n f).paused = s.paused := rfl
@[simp] theorem State.onCore_retries (s : State) (n : Nat) (f : Core → Core) : (s.onCore n f).retries = s.retries := rfl
@[simp] theorem State.onCore_collectives (s : State) (n : Nat) (f : Core → Core) : (s.onCore n f).collectives = s.collectives := rfl
@[simp] theorem State.onCore_ltol (s : State) (n : Nat) (f : Core → Core) : (s.onCore n f).ltol = s.ltol := rfl
@[simp] theorem State.onCore_rest (s : State) (n : Nat) (f : Core → Core) : (s.onCore n f).rest = s.rest := rfl
@[simp] theorem State.onCore_idleFrom (s : State) (n : Nat) (f : Core → Core) : (s.onCore n f).idleFrom = s.idleFrom := rfl
@[simp] theorem State.onCore_wake (s : State) (n : Nat) (f : Core → Core) : (s.onCore n f).wake = s.wake := rfl
@[simp] theorem State.onCore_progress (s : State) (n : Nat) (f : Core → Core) : (s.onCore n f).progress = s.progress := rfl
@[simp] theorem State.onCore_trial (s : State) (n : Nat) (f : Core → Core) : (s.onCore n f).trial = s.trial := rfl
@[simp] theorem State.onCore_soundings (s : State) (n : Nat) (f : Core → Core) : (s.onCore n f).soundings = s.soundings := rfl
@[simp] theorem State.onCore_logRegs (s : State) (n : Nat) (f : Core → Core) : (s.onCore n f).logRegs = s.logRegs := rfl
@[simp] theorem State.onCore_logHead (s : State) (n : Nat) (f : Core → Core) : (s.onCore n f).logHead = s.logHead := rfl
@[simp] theorem State.onCore_logDrops (s : State) (n : Nat) (f : Core → Core) : (s.onCore n f).logDrops = s.logDrops := rfl
@[simp] theorem State.onCore_dirty (s : State) (n : Nat) (f : Core → Core) : (s.onCore n f).dirty = s.dirty := rfl
@[simp] theorem State.onCore_replicas (s : State) (n : Nat) (f : Core → Core) : (s.onCore n f).replicas = s.replicas := rfl
@[simp] theorem State.onCore_invals (s : State) (n : Nat) (f : Core → Core) : (s.onCore n f).invals = s.invals := rfl
@[simp] theorem State.onCore_measure (s : State) (n : Nat) (f : Core → Core) : (s.onCore n f).measure = s.measure := rfl
@[simp] theorem State.onCore_extCount (s : State) (n : Nat) (f : Core → Core) : (s.onCore n f).extCount = s.extCount := rfl
@[simp] theorem State.onCore_resets (s : State) (n : Nat) (f : Core → Core) : (s.onCore n f).resets = s.resets := rfl
@[simp] theorem State.onCore_answers (s : State) (n : Nat) (f : Core → Core) : (s.onCore n f).answers = s.answers := rfl
@[simp] theorem State.onCore_units (s : State) (n : Nat) (f : Core → Core) : (s.onCore n f).units = s.units := rfl
@[simp] theorem State.onCore_stowage (s : State) (n : Nat) (f : Core → Core) : (s.onCore n f).stowage = s.stowage := rfl

@[simp] theorem State.onBlock_cycle (s : State) (n : Nat) (f : Block → Block) : (s.onBlock n f).cycle = s.cycle := rfl
@[simp] theorem State.onBlock_awake (s : State) (n : Nat) (f : Block → Block) : (s.onBlock n f).awake = s.awake := rfl
@[simp] theorem State.onBlock_free (s : State) (n : Nat) (f : Block → Block) : (s.onBlock n f).free = s.free := rfl
@[simp] theorem State.onBlock_oracle (s : State) (n : Nat) (f : Block → Block) : (s.onBlock n f).oracle = s.oracle := rfl
@[simp] theorem State.onBlock_inputs (s : State) (n : Nat) (f : Block → Block) : (s.onBlock n f).inputs = s.inputs := rfl
@[simp] theorem State.onBlock_nextId (s : State) (n : Nat) (f : Block → Block) : (s.onBlock n f).nextId = s.nextId := rfl
@[simp] theorem State.onBlock_cur (s : State) (n : Nat) (f : Block → Block) : (s.onBlock n f).cur = s.cur := rfl
@[simp] theorem State.onBlock_stepB0 (s : State) (n : Nat) (f : Block → Block) : (s.onBlock n f).stepB0 = s.stepB0 := rfl
@[simp] theorem State.onBlock_mem (s : State) (n : Nat) (f : Block → Block) : (s.onBlock n f).mem = s.mem := rfl
@[simp] theorem State.onBlock_l2way (s : State) (n : Nat) (f : Block → Block) : (s.onBlock n f).l2way = s.l2way := rfl
@[simp] theorem State.onBlock_cores (s : State) (n : Nat) (f : Block → Block) : (s.onBlock n f).cores = s.cores := rfl
@[simp] theorem State.onBlock_sectorTlb (s : State) (n : Nat) (f : Block → Block) : (s.onBlock n f).sectorTlb = s.sectorTlb := rfl
@[simp] theorem State.onBlock_walkCache (s : State) (n : Nat) (f : Block → Block) : (s.onBlock n f).walkCache = s.walkCache := rfl
@[simp] theorem State.onBlock_contexts (s : State) (n : Nat) (f : Block → Block) : (s.onBlock n f).contexts = s.contexts := rfl
@[simp] theorem State.onBlock_groups (s : State) (n : Nat) (f : Block → Block) : (s.onBlock n f).groups = s.groups := rfl
@[simp] theorem State.onBlock_blocks (s : State) (n : Nat) (f : Block → Block) : (s.onBlock n f).blocks = Tab.change s.blocks n f := rfl
@[simp] theorem State.onBlock_clusters (s : State) (n : Nat) (f : Block → Block) : (s.onBlock n f).clusters = s.clusters := rfl
@[simp] theorem State.onBlock_launches (s : State) (n : Nat) (f : Block → Block) : (s.onBlock n f).launches = s.launches := rfl
@[simp] theorem State.onBlock_queues (s : State) (n : Nat) (f : Block → Block) : (s.onBlock n f).queues = s.queues := rfl
@[simp] theorem State.onBlock_devQueues (s : State) (n : Nat) (f : Block → Block) : (s.onBlock n f).devQueues = s.devQueues := rfl
@[simp] theorem State.onBlock_lastServed (s : State) (n : Nat) (f : Block → Block) : (s.onBlock n f).lastServed = s.lastServed := rfl
@[simp] theorem State.onBlock_launchReqs (s : State) (n : Nat) (f : Block → Block) : (s.onBlock n f).launchReqs = s.launchReqs := rfl
@[simp] theorem State.onBlock_counters (s : State) (n : Nat) (f : Block → Block) : (s.onBlock n f).counters = s.counters := rfl
@[simp] theorem State.onBlock_net (s : State) (n : Nat) (f : Block → Block) : (s.onBlock n f).net = s.net := rfl
@[simp] theorem State.onBlock_podQ (s : State) (n : Nat) (f : Block → Block) : (s.onBlock n f).podQ = s.podQ := rfl
@[simp] theorem State.onBlock_replies (s : State) (n : Nat) (f : Block → Block) : (s.onBlock n f).replies = s.replies := rfl
@[simp] theorem State.onBlock_waypoints (s : State) (n : Nat) (f : Block → Block) : (s.onBlock n f).waypoints = s.waypoints := rfl
@[simp] theorem State.onBlock_probes (s : State) (n : Nat) (f : Block → Block) : (s.onBlock n f).probes = s.probes := rfl
@[simp] theorem State.onBlock_poisons (s : State) (n : Nat) (f : Block → Block) : (s.onBlock n f).poisons = s.poisons := rfl
@[simp] theorem State.onBlock_pchannels (s : State) (n : Nat) (f : Block → Block) : (s.onBlock n f).pchannels = s.pchannels := rfl
@[simp] theorem State.onBlock_device (s : State) (n : Nat) (f : Block → Block) : (s.onBlock n f).device = s.device := rfl
@[simp] theorem State.onBlock_routes (s : State) (n : Nat) (f : Block → Block) : (s.onBlock n f).routes = s.routes := rfl
@[simp] theorem State.onBlock_paused (s : State) (n : Nat) (f : Block → Block) : (s.onBlock n f).paused = s.paused := rfl
@[simp] theorem State.onBlock_retries (s : State) (n : Nat) (f : Block → Block) : (s.onBlock n f).retries = s.retries := rfl
@[simp] theorem State.onBlock_collectives (s : State) (n : Nat) (f : Block → Block) : (s.onBlock n f).collectives = s.collectives := rfl
@[simp] theorem State.onBlock_ltol (s : State) (n : Nat) (f : Block → Block) : (s.onBlock n f).ltol = s.ltol := rfl
@[simp] theorem State.onBlock_rest (s : State) (n : Nat) (f : Block → Block) : (s.onBlock n f).rest = s.rest := rfl
@[simp] theorem State.onBlock_idleFrom (s : State) (n : Nat) (f : Block → Block) : (s.onBlock n f).idleFrom = s.idleFrom := rfl
@[simp] theorem State.onBlock_wake (s : State) (n : Nat) (f : Block → Block) : (s.onBlock n f).wake = s.wake := rfl
@[simp] theorem State.onBlock_progress (s : State) (n : Nat) (f : Block → Block) : (s.onBlock n f).progress = s.progress := rfl
@[simp] theorem State.onBlock_trial (s : State) (n : Nat) (f : Block → Block) : (s.onBlock n f).trial = s.trial := rfl
@[simp] theorem State.onBlock_soundings (s : State) (n : Nat) (f : Block → Block) : (s.onBlock n f).soundings = s.soundings := rfl
@[simp] theorem State.onBlock_logRegs (s : State) (n : Nat) (f : Block → Block) : (s.onBlock n f).logRegs = s.logRegs := rfl
@[simp] theorem State.onBlock_logHead (s : State) (n : Nat) (f : Block → Block) : (s.onBlock n f).logHead = s.logHead := rfl
@[simp] theorem State.onBlock_logDrops (s : State) (n : Nat) (f : Block → Block) : (s.onBlock n f).logDrops = s.logDrops := rfl
@[simp] theorem State.onBlock_dirty (s : State) (n : Nat) (f : Block → Block) : (s.onBlock n f).dirty = s.dirty := rfl
@[simp] theorem State.onBlock_replicas (s : State) (n : Nat) (f : Block → Block) : (s.onBlock n f).replicas = s.replicas := rfl
@[simp] theorem State.onBlock_invals (s : State) (n : Nat) (f : Block → Block) : (s.onBlock n f).invals = s.invals := rfl
@[simp] theorem State.onBlock_measure (s : State) (n : Nat) (f : Block → Block) : (s.onBlock n f).measure = s.measure := rfl
@[simp] theorem State.onBlock_extCount (s : State) (n : Nat) (f : Block → Block) : (s.onBlock n f).extCount = s.extCount := rfl
@[simp] theorem State.onBlock_resets (s : State) (n : Nat) (f : Block → Block) : (s.onBlock n f).resets = s.resets := rfl
@[simp] theorem State.onBlock_answers (s : State) (n : Nat) (f : Block → Block) : (s.onBlock n f).answers = s.answers := rfl
@[simp] theorem State.onBlock_units (s : State) (n : Nat) (f : Block → Block) : (s.onBlock n f).units = s.units := rfl
@[simp] theorem State.onBlock_stowage (s : State) (n : Nat) (f : Block → Block) : (s.onBlock n f).stowage = s.stowage := rfl

@[simp] theorem State.onLaunch_cycle (s : State) (n : Nat) (f : Launch → Launch) : (s.onLaunch n f).cycle = s.cycle := rfl
@[simp] theorem State.onLaunch_awake (s : State) (n : Nat) (f : Launch → Launch) : (s.onLaunch n f).awake = s.awake := rfl
@[simp] theorem State.onLaunch_free (s : State) (n : Nat) (f : Launch → Launch) : (s.onLaunch n f).free = s.free := rfl
@[simp] theorem State.onLaunch_oracle (s : State) (n : Nat) (f : Launch → Launch) : (s.onLaunch n f).oracle = s.oracle := rfl
@[simp] theorem State.onLaunch_inputs (s : State) (n : Nat) (f : Launch → Launch) : (s.onLaunch n f).inputs = s.inputs := rfl
@[simp] theorem State.onLaunch_nextId (s : State) (n : Nat) (f : Launch → Launch) : (s.onLaunch n f).nextId = s.nextId := rfl
@[simp] theorem State.onLaunch_cur (s : State) (n : Nat) (f : Launch → Launch) : (s.onLaunch n f).cur = s.cur := rfl
@[simp] theorem State.onLaunch_stepB0 (s : State) (n : Nat) (f : Launch → Launch) : (s.onLaunch n f).stepB0 = s.stepB0 := rfl
@[simp] theorem State.onLaunch_mem (s : State) (n : Nat) (f : Launch → Launch) : (s.onLaunch n f).mem = s.mem := rfl
@[simp] theorem State.onLaunch_l2way (s : State) (n : Nat) (f : Launch → Launch) : (s.onLaunch n f).l2way = s.l2way := rfl
@[simp] theorem State.onLaunch_cores (s : State) (n : Nat) (f : Launch → Launch) : (s.onLaunch n f).cores = s.cores := rfl
@[simp] theorem State.onLaunch_sectorTlb (s : State) (n : Nat) (f : Launch → Launch) : (s.onLaunch n f).sectorTlb = s.sectorTlb := rfl
@[simp] theorem State.onLaunch_walkCache (s : State) (n : Nat) (f : Launch → Launch) : (s.onLaunch n f).walkCache = s.walkCache := rfl
@[simp] theorem State.onLaunch_contexts (s : State) (n : Nat) (f : Launch → Launch) : (s.onLaunch n f).contexts = s.contexts := rfl
@[simp] theorem State.onLaunch_groups (s : State) (n : Nat) (f : Launch → Launch) : (s.onLaunch n f).groups = s.groups := rfl
@[simp] theorem State.onLaunch_blocks (s : State) (n : Nat) (f : Launch → Launch) : (s.onLaunch n f).blocks = s.blocks := rfl
@[simp] theorem State.onLaunch_clusters (s : State) (n : Nat) (f : Launch → Launch) : (s.onLaunch n f).clusters = s.clusters := rfl
@[simp] theorem State.onLaunch_launches (s : State) (n : Nat) (f : Launch → Launch) : (s.onLaunch n f).launches = Tab.change s.launches n f := rfl
@[simp] theorem State.onLaunch_queues (s : State) (n : Nat) (f : Launch → Launch) : (s.onLaunch n f).queues = s.queues := rfl
@[simp] theorem State.onLaunch_devQueues (s : State) (n : Nat) (f : Launch → Launch) : (s.onLaunch n f).devQueues = s.devQueues := rfl
@[simp] theorem State.onLaunch_lastServed (s : State) (n : Nat) (f : Launch → Launch) : (s.onLaunch n f).lastServed = s.lastServed := rfl
@[simp] theorem State.onLaunch_launchReqs (s : State) (n : Nat) (f : Launch → Launch) : (s.onLaunch n f).launchReqs = s.launchReqs := rfl
@[simp] theorem State.onLaunch_counters (s : State) (n : Nat) (f : Launch → Launch) : (s.onLaunch n f).counters = s.counters := rfl
@[simp] theorem State.onLaunch_net (s : State) (n : Nat) (f : Launch → Launch) : (s.onLaunch n f).net = s.net := rfl
@[simp] theorem State.onLaunch_podQ (s : State) (n : Nat) (f : Launch → Launch) : (s.onLaunch n f).podQ = s.podQ := rfl
@[simp] theorem State.onLaunch_replies (s : State) (n : Nat) (f : Launch → Launch) : (s.onLaunch n f).replies = s.replies := rfl
@[simp] theorem State.onLaunch_waypoints (s : State) (n : Nat) (f : Launch → Launch) : (s.onLaunch n f).waypoints = s.waypoints := rfl
@[simp] theorem State.onLaunch_probes (s : State) (n : Nat) (f : Launch → Launch) : (s.onLaunch n f).probes = s.probes := rfl
@[simp] theorem State.onLaunch_poisons (s : State) (n : Nat) (f : Launch → Launch) : (s.onLaunch n f).poisons = s.poisons := rfl
@[simp] theorem State.onLaunch_pchannels (s : State) (n : Nat) (f : Launch → Launch) : (s.onLaunch n f).pchannels = s.pchannels := rfl
@[simp] theorem State.onLaunch_device (s : State) (n : Nat) (f : Launch → Launch) : (s.onLaunch n f).device = s.device := rfl
@[simp] theorem State.onLaunch_routes (s : State) (n : Nat) (f : Launch → Launch) : (s.onLaunch n f).routes = s.routes := rfl
@[simp] theorem State.onLaunch_paused (s : State) (n : Nat) (f : Launch → Launch) : (s.onLaunch n f).paused = s.paused := rfl
@[simp] theorem State.onLaunch_retries (s : State) (n : Nat) (f : Launch → Launch) : (s.onLaunch n f).retries = s.retries := rfl
@[simp] theorem State.onLaunch_collectives (s : State) (n : Nat) (f : Launch → Launch) : (s.onLaunch n f).collectives = s.collectives := rfl
@[simp] theorem State.onLaunch_ltol (s : State) (n : Nat) (f : Launch → Launch) : (s.onLaunch n f).ltol = s.ltol := rfl
@[simp] theorem State.onLaunch_rest (s : State) (n : Nat) (f : Launch → Launch) : (s.onLaunch n f).rest = s.rest := rfl
@[simp] theorem State.onLaunch_idleFrom (s : State) (n : Nat) (f : Launch → Launch) : (s.onLaunch n f).idleFrom = s.idleFrom := rfl
@[simp] theorem State.onLaunch_wake (s : State) (n : Nat) (f : Launch → Launch) : (s.onLaunch n f).wake = s.wake := rfl
@[simp] theorem State.onLaunch_progress (s : State) (n : Nat) (f : Launch → Launch) : (s.onLaunch n f).progress = s.progress := rfl
@[simp] theorem State.onLaunch_trial (s : State) (n : Nat) (f : Launch → Launch) : (s.onLaunch n f).trial = s.trial := rfl
@[simp] theorem State.onLaunch_soundings (s : State) (n : Nat) (f : Launch → Launch) : (s.onLaunch n f).soundings = s.soundings := rfl
@[simp] theorem State.onLaunch_logRegs (s : State) (n : Nat) (f : Launch → Launch) : (s.onLaunch n f).logRegs = s.logRegs := rfl
@[simp] theorem State.onLaunch_logHead (s : State) (n : Nat) (f : Launch → Launch) : (s.onLaunch n f).logHead = s.logHead := rfl
@[simp] theorem State.onLaunch_logDrops (s : State) (n : Nat) (f : Launch → Launch) : (s.onLaunch n f).logDrops = s.logDrops := rfl
@[simp] theorem State.onLaunch_dirty (s : State) (n : Nat) (f : Launch → Launch) : (s.onLaunch n f).dirty = s.dirty := rfl
@[simp] theorem State.onLaunch_replicas (s : State) (n : Nat) (f : Launch → Launch) : (s.onLaunch n f).replicas = s.replicas := rfl
@[simp] theorem State.onLaunch_invals (s : State) (n : Nat) (f : Launch → Launch) : (s.onLaunch n f).invals = s.invals := rfl
@[simp] theorem State.onLaunch_measure (s : State) (n : Nat) (f : Launch → Launch) : (s.onLaunch n f).measure = s.measure := rfl
@[simp] theorem State.onLaunch_extCount (s : State) (n : Nat) (f : Launch → Launch) : (s.onLaunch n f).extCount = s.extCount := rfl
@[simp] theorem State.onLaunch_resets (s : State) (n : Nat) (f : Launch → Launch) : (s.onLaunch n f).resets = s.resets := rfl
@[simp] theorem State.onLaunch_answers (s : State) (n : Nat) (f : Launch → Launch) : (s.onLaunch n f).answers = s.answers := rfl
@[simp] theorem State.onLaunch_units (s : State) (n : Nat) (f : Launch → Launch) : (s.onLaunch n f).units = s.units := rfl
@[simp] theorem State.onLaunch_stowage (s : State) (n : Nat) (f : Launch → Launch) : (s.onLaunch n f).stowage = s.stowage := rfl

@[simp] theorem State.onCluster_cycle (s : State) (n : Nat) (f : Cluster → Cluster) : (s.onCluster n f).cycle = s.cycle := rfl
@[simp] theorem State.onCluster_awake (s : State) (n : Nat) (f : Cluster → Cluster) : (s.onCluster n f).awake = s.awake := rfl
@[simp] theorem State.onCluster_free (s : State) (n : Nat) (f : Cluster → Cluster) : (s.onCluster n f).free = s.free := rfl
@[simp] theorem State.onCluster_oracle (s : State) (n : Nat) (f : Cluster → Cluster) : (s.onCluster n f).oracle = s.oracle := rfl
@[simp] theorem State.onCluster_inputs (s : State) (n : Nat) (f : Cluster → Cluster) : (s.onCluster n f).inputs = s.inputs := rfl
@[simp] theorem State.onCluster_nextId (s : State) (n : Nat) (f : Cluster → Cluster) : (s.onCluster n f).nextId = s.nextId := rfl
@[simp] theorem State.onCluster_cur (s : State) (n : Nat) (f : Cluster → Cluster) : (s.onCluster n f).cur = s.cur := rfl
@[simp] theorem State.onCluster_stepB0 (s : State) (n : Nat) (f : Cluster → Cluster) : (s.onCluster n f).stepB0 = s.stepB0 := rfl
@[simp] theorem State.onCluster_mem (s : State) (n : Nat) (f : Cluster → Cluster) : (s.onCluster n f).mem = s.mem := rfl
@[simp] theorem State.onCluster_l2way (s : State) (n : Nat) (f : Cluster → Cluster) : (s.onCluster n f).l2way = s.l2way := rfl
@[simp] theorem State.onCluster_cores (s : State) (n : Nat) (f : Cluster → Cluster) : (s.onCluster n f).cores = s.cores := rfl
@[simp] theorem State.onCluster_sectorTlb (s : State) (n : Nat) (f : Cluster → Cluster) : (s.onCluster n f).sectorTlb = s.sectorTlb := rfl
@[simp] theorem State.onCluster_walkCache (s : State) (n : Nat) (f : Cluster → Cluster) : (s.onCluster n f).walkCache = s.walkCache := rfl
@[simp] theorem State.onCluster_contexts (s : State) (n : Nat) (f : Cluster → Cluster) : (s.onCluster n f).contexts = s.contexts := rfl
@[simp] theorem State.onCluster_groups (s : State) (n : Nat) (f : Cluster → Cluster) : (s.onCluster n f).groups = s.groups := rfl
@[simp] theorem State.onCluster_blocks (s : State) (n : Nat) (f : Cluster → Cluster) : (s.onCluster n f).blocks = s.blocks := rfl
@[simp] theorem State.onCluster_clusters (s : State) (n : Nat) (f : Cluster → Cluster) : (s.onCluster n f).clusters = Tab.change s.clusters n f := rfl
@[simp] theorem State.onCluster_launches (s : State) (n : Nat) (f : Cluster → Cluster) : (s.onCluster n f).launches = s.launches := rfl
@[simp] theorem State.onCluster_queues (s : State) (n : Nat) (f : Cluster → Cluster) : (s.onCluster n f).queues = s.queues := rfl
@[simp] theorem State.onCluster_devQueues (s : State) (n : Nat) (f : Cluster → Cluster) : (s.onCluster n f).devQueues = s.devQueues := rfl
@[simp] theorem State.onCluster_lastServed (s : State) (n : Nat) (f : Cluster → Cluster) : (s.onCluster n f).lastServed = s.lastServed := rfl
@[simp] theorem State.onCluster_launchReqs (s : State) (n : Nat) (f : Cluster → Cluster) : (s.onCluster n f).launchReqs = s.launchReqs := rfl
@[simp] theorem State.onCluster_counters (s : State) (n : Nat) (f : Cluster → Cluster) : (s.onCluster n f).counters = s.counters := rfl
@[simp] theorem State.onCluster_net (s : State) (n : Nat) (f : Cluster → Cluster) : (s.onCluster n f).net = s.net := rfl
@[simp] theorem State.onCluster_podQ (s : State) (n : Nat) (f : Cluster → Cluster) : (s.onCluster n f).podQ = s.podQ := rfl
@[simp] theorem State.onCluster_replies (s : State) (n : Nat) (f : Cluster → Cluster) : (s.onCluster n f).replies = s.replies := rfl
@[simp] theorem State.onCluster_waypoints (s : State) (n : Nat) (f : Cluster → Cluster) : (s.onCluster n f).waypoints = s.waypoints := rfl
@[simp] theorem State.onCluster_probes (s : State) (n : Nat) (f : Cluster → Cluster) : (s.onCluster n f).probes = s.probes := rfl
@[simp] theorem State.onCluster_poisons (s : State) (n : Nat) (f : Cluster → Cluster) : (s.onCluster n f).poisons = s.poisons := rfl
@[simp] theorem State.onCluster_pchannels (s : State) (n : Nat) (f : Cluster → Cluster) : (s.onCluster n f).pchannels = s.pchannels := rfl
@[simp] theorem State.onCluster_device (s : State) (n : Nat) (f : Cluster → Cluster) : (s.onCluster n f).device = s.device := rfl
@[simp] theorem State.onCluster_routes (s : State) (n : Nat) (f : Cluster → Cluster) : (s.onCluster n f).routes = s.routes := rfl
@[simp] theorem State.onCluster_paused (s : State) (n : Nat) (f : Cluster → Cluster) : (s.onCluster n f).paused = s.paused := rfl
@[simp] theorem State.onCluster_retries (s : State) (n : Nat) (f : Cluster → Cluster) : (s.onCluster n f).retries = s.retries := rfl
@[simp] theorem State.onCluster_collectives (s : State) (n : Nat) (f : Cluster → Cluster) : (s.onCluster n f).collectives = s.collectives := rfl
@[simp] theorem State.onCluster_ltol (s : State) (n : Nat) (f : Cluster → Cluster) : (s.onCluster n f).ltol = s.ltol := rfl
@[simp] theorem State.onCluster_rest (s : State) (n : Nat) (f : Cluster → Cluster) : (s.onCluster n f).rest = s.rest := rfl
@[simp] theorem State.onCluster_idleFrom (s : State) (n : Nat) (f : Cluster → Cluster) : (s.onCluster n f).idleFrom = s.idleFrom := rfl
@[simp] theorem State.onCluster_wake (s : State) (n : Nat) (f : Cluster → Cluster) : (s.onCluster n f).wake = s.wake := rfl
@[simp] theorem State.onCluster_progress (s : State) (n : Nat) (f : Cluster → Cluster) : (s.onCluster n f).progress = s.progress := rfl
@[simp] theorem State.onCluster_trial (s : State) (n : Nat) (f : Cluster → Cluster) : (s.onCluster n f).trial = s.trial := rfl
@[simp] theorem State.onCluster_soundings (s : State) (n : Nat) (f : Cluster → Cluster) : (s.onCluster n f).soundings = s.soundings := rfl
@[simp] theorem State.onCluster_logRegs (s : State) (n : Nat) (f : Cluster → Cluster) : (s.onCluster n f).logRegs = s.logRegs := rfl
@[simp] theorem State.onCluster_logHead (s : State) (n : Nat) (f : Cluster → Cluster) : (s.onCluster n f).logHead = s.logHead := rfl
@[simp] theorem State.onCluster_logDrops (s : State) (n : Nat) (f : Cluster → Cluster) : (s.onCluster n f).logDrops = s.logDrops := rfl
@[simp] theorem State.onCluster_dirty (s : State) (n : Nat) (f : Cluster → Cluster) : (s.onCluster n f).dirty = s.dirty := rfl
@[simp] theorem State.onCluster_replicas (s : State) (n : Nat) (f : Cluster → Cluster) : (s.onCluster n f).replicas = s.replicas := rfl
@[simp] theorem State.onCluster_invals (s : State) (n : Nat) (f : Cluster → Cluster) : (s.onCluster n f).invals = s.invals := rfl
@[simp] theorem State.onCluster_measure (s : State) (n : Nat) (f : Cluster → Cluster) : (s.onCluster n f).measure = s.measure := rfl
@[simp] theorem State.onCluster_extCount (s : State) (n : Nat) (f : Cluster → Cluster) : (s.onCluster n f).extCount = s.extCount := rfl
@[simp] theorem State.onCluster_resets (s : State) (n : Nat) (f : Cluster → Cluster) : (s.onCluster n f).resets = s.resets := rfl
@[simp] theorem State.onCluster_answers (s : State) (n : Nat) (f : Cluster → Cluster) : (s.onCluster n f).answers = s.answers := rfl
@[simp] theorem State.onCluster_units (s : State) (n : Nat) (f : Cluster → Cluster) : (s.onCluster n f).units = s.units := rfl
@[simp] theorem State.onCluster_stowage (s : State) (n : Nat) (f : Cluster → Cluster) : (s.onCluster n f).stowage = s.stowage := rfl

@[simp] theorem State.onUnit_cycle (s : State) (n : Nat) (f : PreUnit → PreUnit) : (s.onUnit n f).cycle = s.cycle := rfl
@[simp] theorem State.onUnit_awake (s : State) (n : Nat) (f : PreUnit → PreUnit) : (s.onUnit n f).awake = s.awake := rfl
@[simp] theorem State.onUnit_free (s : State) (n : Nat) (f : PreUnit → PreUnit) : (s.onUnit n f).free = s.free := rfl
@[simp] theorem State.onUnit_oracle (s : State) (n : Nat) (f : PreUnit → PreUnit) : (s.onUnit n f).oracle = s.oracle := rfl
@[simp] theorem State.onUnit_inputs (s : State) (n : Nat) (f : PreUnit → PreUnit) : (s.onUnit n f).inputs = s.inputs := rfl
@[simp] theorem State.onUnit_nextId (s : State) (n : Nat) (f : PreUnit → PreUnit) : (s.onUnit n f).nextId = s.nextId := rfl
@[simp] theorem State.onUnit_cur (s : State) (n : Nat) (f : PreUnit → PreUnit) : (s.onUnit n f).cur = s.cur := rfl
@[simp] theorem State.onUnit_stepB0 (s : State) (n : Nat) (f : PreUnit → PreUnit) : (s.onUnit n f).stepB0 = s.stepB0 := rfl
@[simp] theorem State.onUnit_mem (s : State) (n : Nat) (f : PreUnit → PreUnit) : (s.onUnit n f).mem = s.mem := rfl
@[simp] theorem State.onUnit_l2way (s : State) (n : Nat) (f : PreUnit → PreUnit) : (s.onUnit n f).l2way = s.l2way := rfl
@[simp] theorem State.onUnit_cores (s : State) (n : Nat) (f : PreUnit → PreUnit) : (s.onUnit n f).cores = s.cores := rfl
@[simp] theorem State.onUnit_sectorTlb (s : State) (n : Nat) (f : PreUnit → PreUnit) : (s.onUnit n f).sectorTlb = s.sectorTlb := rfl
@[simp] theorem State.onUnit_walkCache (s : State) (n : Nat) (f : PreUnit → PreUnit) : (s.onUnit n f).walkCache = s.walkCache := rfl
@[simp] theorem State.onUnit_contexts (s : State) (n : Nat) (f : PreUnit → PreUnit) : (s.onUnit n f).contexts = s.contexts := rfl
@[simp] theorem State.onUnit_groups (s : State) (n : Nat) (f : PreUnit → PreUnit) : (s.onUnit n f).groups = s.groups := rfl
@[simp] theorem State.onUnit_blocks (s : State) (n : Nat) (f : PreUnit → PreUnit) : (s.onUnit n f).blocks = s.blocks := rfl
@[simp] theorem State.onUnit_clusters (s : State) (n : Nat) (f : PreUnit → PreUnit) : (s.onUnit n f).clusters = s.clusters := rfl
@[simp] theorem State.onUnit_launches (s : State) (n : Nat) (f : PreUnit → PreUnit) : (s.onUnit n f).launches = s.launches := rfl
@[simp] theorem State.onUnit_queues (s : State) (n : Nat) (f : PreUnit → PreUnit) : (s.onUnit n f).queues = s.queues := rfl
@[simp] theorem State.onUnit_devQueues (s : State) (n : Nat) (f : PreUnit → PreUnit) : (s.onUnit n f).devQueues = s.devQueues := rfl
@[simp] theorem State.onUnit_lastServed (s : State) (n : Nat) (f : PreUnit → PreUnit) : (s.onUnit n f).lastServed = s.lastServed := rfl
@[simp] theorem State.onUnit_launchReqs (s : State) (n : Nat) (f : PreUnit → PreUnit) : (s.onUnit n f).launchReqs = s.launchReqs := rfl
@[simp] theorem State.onUnit_counters (s : State) (n : Nat) (f : PreUnit → PreUnit) : (s.onUnit n f).counters = s.counters := rfl
@[simp] theorem State.onUnit_net (s : State) (n : Nat) (f : PreUnit → PreUnit) : (s.onUnit n f).net = s.net := rfl
@[simp] theorem State.onUnit_podQ (s : State) (n : Nat) (f : PreUnit → PreUnit) : (s.onUnit n f).podQ = s.podQ := rfl
@[simp] theorem State.onUnit_replies (s : State) (n : Nat) (f : PreUnit → PreUnit) : (s.onUnit n f).replies = s.replies := rfl
@[simp] theorem State.onUnit_waypoints (s : State) (n : Nat) (f : PreUnit → PreUnit) : (s.onUnit n f).waypoints = s.waypoints := rfl
@[simp] theorem State.onUnit_probes (s : State) (n : Nat) (f : PreUnit → PreUnit) : (s.onUnit n f).probes = s.probes := rfl
@[simp] theorem State.onUnit_poisons (s : State) (n : Nat) (f : PreUnit → PreUnit) : (s.onUnit n f).poisons = s.poisons := rfl
@[simp] theorem State.onUnit_pchannels (s : State) (n : Nat) (f : PreUnit → PreUnit) : (s.onUnit n f).pchannels = s.pchannels := rfl
@[simp] theorem State.onUnit_device (s : State) (n : Nat) (f : PreUnit → PreUnit) : (s.onUnit n f).device = s.device := rfl
@[simp] theorem State.onUnit_routes (s : State) (n : Nat) (f : PreUnit → PreUnit) : (s.onUnit n f).routes = s.routes := rfl
@[simp] theorem State.onUnit_paused (s : State) (n : Nat) (f : PreUnit → PreUnit) : (s.onUnit n f).paused = s.paused := rfl
@[simp] theorem State.onUnit_retries (s : State) (n : Nat) (f : PreUnit → PreUnit) : (s.onUnit n f).retries = s.retries := rfl
@[simp] theorem State.onUnit_collectives (s : State) (n : Nat) (f : PreUnit → PreUnit) : (s.onUnit n f).collectives = s.collectives := rfl
@[simp] theorem State.onUnit_ltol (s : State) (n : Nat) (f : PreUnit → PreUnit) : (s.onUnit n f).ltol = s.ltol := rfl
@[simp] theorem State.onUnit_rest (s : State) (n : Nat) (f : PreUnit → PreUnit) : (s.onUnit n f).rest = s.rest := rfl
@[simp] theorem State.onUnit_idleFrom (s : State) (n : Nat) (f : PreUnit → PreUnit) : (s.onUnit n f).idleFrom = s.idleFrom := rfl
@[simp] theorem State.onUnit_wake (s : State) (n : Nat) (f : PreUnit → PreUnit) : (s.onUnit n f).wake = s.wake := rfl
@[simp] theorem State.onUnit_progress (s : State) (n : Nat) (f : PreUnit → PreUnit) : (s.onUnit n f).progress = s.progress := rfl
@[simp] theorem State.onUnit_trial (s : State) (n : Nat) (f : PreUnit → PreUnit) : (s.onUnit n f).trial = s.trial := rfl
@[simp] theorem State.onUnit_soundings (s : State) (n : Nat) (f : PreUnit → PreUnit) : (s.onUnit n f).soundings = s.soundings := rfl
@[simp] theorem State.onUnit_logRegs (s : State) (n : Nat) (f : PreUnit → PreUnit) : (s.onUnit n f).logRegs = s.logRegs := rfl
@[simp] theorem State.onUnit_logHead (s : State) (n : Nat) (f : PreUnit → PreUnit) : (s.onUnit n f).logHead = s.logHead := rfl
@[simp] theorem State.onUnit_logDrops (s : State) (n : Nat) (f : PreUnit → PreUnit) : (s.onUnit n f).logDrops = s.logDrops := rfl
@[simp] theorem State.onUnit_dirty (s : State) (n : Nat) (f : PreUnit → PreUnit) : (s.onUnit n f).dirty = s.dirty := rfl
@[simp] theorem State.onUnit_replicas (s : State) (n : Nat) (f : PreUnit → PreUnit) : (s.onUnit n f).replicas = s.replicas := rfl
@[simp] theorem State.onUnit_invals (s : State) (n : Nat) (f : PreUnit → PreUnit) : (s.onUnit n f).invals = s.invals := rfl
@[simp] theorem State.onUnit_measure (s : State) (n : Nat) (f : PreUnit → PreUnit) : (s.onUnit n f).measure = s.measure := rfl
@[simp] theorem State.onUnit_extCount (s : State) (n : Nat) (f : PreUnit → PreUnit) : (s.onUnit n f).extCount = s.extCount := rfl
@[simp] theorem State.onUnit_resets (s : State) (n : Nat) (f : PreUnit → PreUnit) : (s.onUnit n f).resets = s.resets := rfl
@[simp] theorem State.onUnit_answers (s : State) (n : Nat) (f : PreUnit → PreUnit) : (s.onUnit n f).answers = s.answers := rfl
@[simp] theorem State.onUnit_units (s : State) (n : Nat) (f : PreUnit → PreUnit) : (s.onUnit n f).units = Tab.change s.units n f := rfl
@[simp] theorem State.onUnit_stowage (s : State) (n : Nat) (f : PreUnit → PreUnit) : (s.onUnit n f).stowage = s.stowage := rfl

@[simp] theorem State.onContext_cycle (s : State) (n : Nat) (f : Context → Context) : (s.onContext n f).cycle = s.cycle := rfl
@[simp] theorem State.onContext_awake (s : State) (n : Nat) (f : Context → Context) : (s.onContext n f).awake = s.awake := rfl
@[simp] theorem State.onContext_free (s : State) (n : Nat) (f : Context → Context) : (s.onContext n f).free = s.free := rfl
@[simp] theorem State.onContext_oracle (s : State) (n : Nat) (f : Context → Context) : (s.onContext n f).oracle = s.oracle := rfl
@[simp] theorem State.onContext_inputs (s : State) (n : Nat) (f : Context → Context) : (s.onContext n f).inputs = s.inputs := rfl
@[simp] theorem State.onContext_nextId (s : State) (n : Nat) (f : Context → Context) : (s.onContext n f).nextId = s.nextId := rfl
@[simp] theorem State.onContext_cur (s : State) (n : Nat) (f : Context → Context) : (s.onContext n f).cur = s.cur := rfl
@[simp] theorem State.onContext_stepB0 (s : State) (n : Nat) (f : Context → Context) : (s.onContext n f).stepB0 = s.stepB0 := rfl
@[simp] theorem State.onContext_mem (s : State) (n : Nat) (f : Context → Context) : (s.onContext n f).mem = s.mem := rfl
@[simp] theorem State.onContext_l2way (s : State) (n : Nat) (f : Context → Context) : (s.onContext n f).l2way = s.l2way := rfl
@[simp] theorem State.onContext_cores (s : State) (n : Nat) (f : Context → Context) : (s.onContext n f).cores = s.cores := rfl
@[simp] theorem State.onContext_sectorTlb (s : State) (n : Nat) (f : Context → Context) : (s.onContext n f).sectorTlb = s.sectorTlb := rfl
@[simp] theorem State.onContext_walkCache (s : State) (n : Nat) (f : Context → Context) : (s.onContext n f).walkCache = s.walkCache := rfl
@[simp] theorem State.onContext_contexts (s : State) (n : Nat) (f : Context → Context) : (s.onContext n f).contexts = Tab.set Context.reset s.contexts n (f (s.context n)) := rfl
@[simp] theorem State.onContext_groups (s : State) (n : Nat) (f : Context → Context) : (s.onContext n f).groups = s.groups := rfl
@[simp] theorem State.onContext_blocks (s : State) (n : Nat) (f : Context → Context) : (s.onContext n f).blocks = s.blocks := rfl
@[simp] theorem State.onContext_clusters (s : State) (n : Nat) (f : Context → Context) : (s.onContext n f).clusters = s.clusters := rfl
@[simp] theorem State.onContext_launches (s : State) (n : Nat) (f : Context → Context) : (s.onContext n f).launches = s.launches := rfl
@[simp] theorem State.onContext_queues (s : State) (n : Nat) (f : Context → Context) : (s.onContext n f).queues = s.queues := rfl
@[simp] theorem State.onContext_devQueues (s : State) (n : Nat) (f : Context → Context) : (s.onContext n f).devQueues = s.devQueues := rfl
@[simp] theorem State.onContext_lastServed (s : State) (n : Nat) (f : Context → Context) : (s.onContext n f).lastServed = s.lastServed := rfl
@[simp] theorem State.onContext_launchReqs (s : State) (n : Nat) (f : Context → Context) : (s.onContext n f).launchReqs = s.launchReqs := rfl
@[simp] theorem State.onContext_counters (s : State) (n : Nat) (f : Context → Context) : (s.onContext n f).counters = s.counters := rfl
@[simp] theorem State.onContext_net (s : State) (n : Nat) (f : Context → Context) : (s.onContext n f).net = s.net := rfl
@[simp] theorem State.onContext_podQ (s : State) (n : Nat) (f : Context → Context) : (s.onContext n f).podQ = s.podQ := rfl
@[simp] theorem State.onContext_replies (s : State) (n : Nat) (f : Context → Context) : (s.onContext n f).replies = s.replies := rfl
@[simp] theorem State.onContext_waypoints (s : State) (n : Nat) (f : Context → Context) : (s.onContext n f).waypoints = s.waypoints := rfl
@[simp] theorem State.onContext_probes (s : State) (n : Nat) (f : Context → Context) : (s.onContext n f).probes = s.probes := rfl
@[simp] theorem State.onContext_poisons (s : State) (n : Nat) (f : Context → Context) : (s.onContext n f).poisons = s.poisons := rfl
@[simp] theorem State.onContext_pchannels (s : State) (n : Nat) (f : Context → Context) : (s.onContext n f).pchannels = s.pchannels := rfl
@[simp] theorem State.onContext_device (s : State) (n : Nat) (f : Context → Context) : (s.onContext n f).device = s.device := rfl
@[simp] theorem State.onContext_routes (s : State) (n : Nat) (f : Context → Context) : (s.onContext n f).routes = s.routes := rfl
@[simp] theorem State.onContext_paused (s : State) (n : Nat) (f : Context → Context) : (s.onContext n f).paused = s.paused := rfl
@[simp] theorem State.onContext_retries (s : State) (n : Nat) (f : Context → Context) : (s.onContext n f).retries = s.retries := rfl
@[simp] theorem State.onContext_collectives (s : State) (n : Nat) (f : Context → Context) : (s.onContext n f).collectives = s.collectives := rfl
@[simp] theorem State.onContext_ltol (s : State) (n : Nat) (f : Context → Context) : (s.onContext n f).ltol = s.ltol := rfl
@[simp] theorem State.onContext_rest (s : State) (n : Nat) (f : Context → Context) : (s.onContext n f).rest = s.rest := rfl
@[simp] theorem State.onContext_idleFrom (s : State) (n : Nat) (f : Context → Context) : (s.onContext n f).idleFrom = s.idleFrom := rfl
@[simp] theorem State.onContext_wake (s : State) (n : Nat) (f : Context → Context) : (s.onContext n f).wake = s.wake := rfl
@[simp] theorem State.onContext_progress (s : State) (n : Nat) (f : Context → Context) : (s.onContext n f).progress = s.progress := rfl
@[simp] theorem State.onContext_trial (s : State) (n : Nat) (f : Context → Context) : (s.onContext n f).trial = s.trial := rfl
@[simp] theorem State.onContext_soundings (s : State) (n : Nat) (f : Context → Context) : (s.onContext n f).soundings = s.soundings := rfl
@[simp] theorem State.onContext_logRegs (s : State) (n : Nat) (f : Context → Context) : (s.onContext n f).logRegs = s.logRegs := rfl
@[simp] theorem State.onContext_logHead (s : State) (n : Nat) (f : Context → Context) : (s.onContext n f).logHead = s.logHead := rfl
@[simp] theorem State.onContext_logDrops (s : State) (n : Nat) (f : Context → Context) : (s.onContext n f).logDrops = s.logDrops := rfl
@[simp] theorem State.onContext_dirty (s : State) (n : Nat) (f : Context → Context) : (s.onContext n f).dirty = s.dirty := rfl
@[simp] theorem State.onContext_replicas (s : State) (n : Nat) (f : Context → Context) : (s.onContext n f).replicas = s.replicas := rfl
@[simp] theorem State.onContext_invals (s : State) (n : Nat) (f : Context → Context) : (s.onContext n f).invals = s.invals := rfl
@[simp] theorem State.onContext_measure (s : State) (n : Nat) (f : Context → Context) : (s.onContext n f).measure = s.measure := rfl
@[simp] theorem State.onContext_extCount (s : State) (n : Nat) (f : Context → Context) : (s.onContext n f).extCount = s.extCount := rfl
@[simp] theorem State.onContext_resets (s : State) (n : Nat) (f : Context → Context) : (s.onContext n f).resets = s.resets := rfl
@[simp] theorem State.onContext_answers (s : State) (n : Nat) (f : Context → Context) : (s.onContext n f).answers = s.answers := rfl
@[simp] theorem State.onContext_units (s : State) (n : Nat) (f : Context → Context) : (s.onContext n f).units = s.units := rfl
@[simp] theorem State.onContext_stowage (s : State) (n : Nat) (f : Context → Context) : (s.onContext n f).stowage = s.stowage := rfl

@[simp] theorem State.onQueue_cycle (s : State) (n : Nat) (f : Queue → Queue) : (s.onQueue n f).cycle = s.cycle := rfl
@[simp] theorem State.onQueue_awake (s : State) (n : Nat) (f : Queue → Queue) : (s.onQueue n f).awake = s.awake := rfl
@[simp] theorem State.onQueue_free (s : State) (n : Nat) (f : Queue → Queue) : (s.onQueue n f).free = s.free := rfl
@[simp] theorem State.onQueue_oracle (s : State) (n : Nat) (f : Queue → Queue) : (s.onQueue n f).oracle = s.oracle := rfl
@[simp] theorem State.onQueue_inputs (s : State) (n : Nat) (f : Queue → Queue) : (s.onQueue n f).inputs = s.inputs := rfl
@[simp] theorem State.onQueue_nextId (s : State) (n : Nat) (f : Queue → Queue) : (s.onQueue n f).nextId = s.nextId := rfl
@[simp] theorem State.onQueue_cur (s : State) (n : Nat) (f : Queue → Queue) : (s.onQueue n f).cur = s.cur := rfl
@[simp] theorem State.onQueue_stepB0 (s : State) (n : Nat) (f : Queue → Queue) : (s.onQueue n f).stepB0 = s.stepB0 := rfl
@[simp] theorem State.onQueue_mem (s : State) (n : Nat) (f : Queue → Queue) : (s.onQueue n f).mem = s.mem := rfl
@[simp] theorem State.onQueue_l2way (s : State) (n : Nat) (f : Queue → Queue) : (s.onQueue n f).l2way = s.l2way := rfl
@[simp] theorem State.onQueue_cores (s : State) (n : Nat) (f : Queue → Queue) : (s.onQueue n f).cores = s.cores := rfl
@[simp] theorem State.onQueue_sectorTlb (s : State) (n : Nat) (f : Queue → Queue) : (s.onQueue n f).sectorTlb = s.sectorTlb := rfl
@[simp] theorem State.onQueue_walkCache (s : State) (n : Nat) (f : Queue → Queue) : (s.onQueue n f).walkCache = s.walkCache := rfl
@[simp] theorem State.onQueue_contexts (s : State) (n : Nat) (f : Queue → Queue) : (s.onQueue n f).contexts = s.contexts := rfl
@[simp] theorem State.onQueue_groups (s : State) (n : Nat) (f : Queue → Queue) : (s.onQueue n f).groups = s.groups := rfl
@[simp] theorem State.onQueue_blocks (s : State) (n : Nat) (f : Queue → Queue) : (s.onQueue n f).blocks = s.blocks := rfl
@[simp] theorem State.onQueue_clusters (s : State) (n : Nat) (f : Queue → Queue) : (s.onQueue n f).clusters = s.clusters := rfl
@[simp] theorem State.onQueue_launches (s : State) (n : Nat) (f : Queue → Queue) : (s.onQueue n f).launches = s.launches := rfl
@[simp] theorem State.onQueue_queues (s : State) (n : Nat) (f : Queue → Queue) : (s.onQueue n f).queues = Tab.set Queue.reset s.queues n (f (s.queue n)) := rfl
@[simp] theorem State.onQueue_devQueues (s : State) (n : Nat) (f : Queue → Queue) : (s.onQueue n f).devQueues = s.devQueues := rfl
@[simp] theorem State.onQueue_lastServed (s : State) (n : Nat) (f : Queue → Queue) : (s.onQueue n f).lastServed = s.lastServed := rfl
@[simp] theorem State.onQueue_launchReqs (s : State) (n : Nat) (f : Queue → Queue) : (s.onQueue n f).launchReqs = s.launchReqs := rfl
@[simp] theorem State.onQueue_counters (s : State) (n : Nat) (f : Queue → Queue) : (s.onQueue n f).counters = s.counters := rfl
@[simp] theorem State.onQueue_net (s : State) (n : Nat) (f : Queue → Queue) : (s.onQueue n f).net = s.net := rfl
@[simp] theorem State.onQueue_podQ (s : State) (n : Nat) (f : Queue → Queue) : (s.onQueue n f).podQ = s.podQ := rfl
@[simp] theorem State.onQueue_replies (s : State) (n : Nat) (f : Queue → Queue) : (s.onQueue n f).replies = s.replies := rfl
@[simp] theorem State.onQueue_waypoints (s : State) (n : Nat) (f : Queue → Queue) : (s.onQueue n f).waypoints = s.waypoints := rfl
@[simp] theorem State.onQueue_probes (s : State) (n : Nat) (f : Queue → Queue) : (s.onQueue n f).probes = s.probes := rfl
@[simp] theorem State.onQueue_poisons (s : State) (n : Nat) (f : Queue → Queue) : (s.onQueue n f).poisons = s.poisons := rfl
@[simp] theorem State.onQueue_pchannels (s : State) (n : Nat) (f : Queue → Queue) : (s.onQueue n f).pchannels = s.pchannels := rfl
@[simp] theorem State.onQueue_device (s : State) (n : Nat) (f : Queue → Queue) : (s.onQueue n f).device = s.device := rfl
@[simp] theorem State.onQueue_routes (s : State) (n : Nat) (f : Queue → Queue) : (s.onQueue n f).routes = s.routes := rfl
@[simp] theorem State.onQueue_paused (s : State) (n : Nat) (f : Queue → Queue) : (s.onQueue n f).paused = s.paused := rfl
@[simp] theorem State.onQueue_retries (s : State) (n : Nat) (f : Queue → Queue) : (s.onQueue n f).retries = s.retries := rfl
@[simp] theorem State.onQueue_collectives (s : State) (n : Nat) (f : Queue → Queue) : (s.onQueue n f).collectives = s.collectives := rfl
@[simp] theorem State.onQueue_ltol (s : State) (n : Nat) (f : Queue → Queue) : (s.onQueue n f).ltol = s.ltol := rfl
@[simp] theorem State.onQueue_rest (s : State) (n : Nat) (f : Queue → Queue) : (s.onQueue n f).rest = s.rest := rfl
@[simp] theorem State.onQueue_idleFrom (s : State) (n : Nat) (f : Queue → Queue) : (s.onQueue n f).idleFrom = s.idleFrom := rfl
@[simp] theorem State.onQueue_wake (s : State) (n : Nat) (f : Queue → Queue) : (s.onQueue n f).wake = s.wake := rfl
@[simp] theorem State.onQueue_progress (s : State) (n : Nat) (f : Queue → Queue) : (s.onQueue n f).progress = s.progress := rfl
@[simp] theorem State.onQueue_trial (s : State) (n : Nat) (f : Queue → Queue) : (s.onQueue n f).trial = s.trial := rfl
@[simp] theorem State.onQueue_soundings (s : State) (n : Nat) (f : Queue → Queue) : (s.onQueue n f).soundings = s.soundings := rfl
@[simp] theorem State.onQueue_logRegs (s : State) (n : Nat) (f : Queue → Queue) : (s.onQueue n f).logRegs = s.logRegs := rfl
@[simp] theorem State.onQueue_logHead (s : State) (n : Nat) (f : Queue → Queue) : (s.onQueue n f).logHead = s.logHead := rfl
@[simp] theorem State.onQueue_logDrops (s : State) (n : Nat) (f : Queue → Queue) : (s.onQueue n f).logDrops = s.logDrops := rfl
@[simp] theorem State.onQueue_dirty (s : State) (n : Nat) (f : Queue → Queue) : (s.onQueue n f).dirty = s.dirty := rfl
@[simp] theorem State.onQueue_replicas (s : State) (n : Nat) (f : Queue → Queue) : (s.onQueue n f).replicas = s.replicas := rfl
@[simp] theorem State.onQueue_invals (s : State) (n : Nat) (f : Queue → Queue) : (s.onQueue n f).invals = s.invals := rfl
@[simp] theorem State.onQueue_measure (s : State) (n : Nat) (f : Queue → Queue) : (s.onQueue n f).measure = s.measure := rfl
@[simp] theorem State.onQueue_extCount (s : State) (n : Nat) (f : Queue → Queue) : (s.onQueue n f).extCount = s.extCount := rfl
@[simp] theorem State.onQueue_resets (s : State) (n : Nat) (f : Queue → Queue) : (s.onQueue n f).resets = s.resets := rfl
@[simp] theorem State.onQueue_answers (s : State) (n : Nat) (f : Queue → Queue) : (s.onQueue n f).answers = s.answers := rfl
@[simp] theorem State.onQueue_units (s : State) (n : Nat) (f : Queue → Queue) : (s.onQueue n f).units = s.units := rfl
@[simp] theorem State.onQueue_stowage (s : State) (n : Nat) (f : Queue → Queue) : (s.onQueue n f).stowage = s.stowage := rfl

@[simp] theorem State.onPchannel_cycle (s : State) (n : Nat) (f : PChannel → PChannel) : (s.onPchannel n f).cycle = s.cycle := rfl
@[simp] theorem State.onPchannel_awake (s : State) (n : Nat) (f : PChannel → PChannel) : (s.onPchannel n f).awake = s.awake := rfl
@[simp] theorem State.onPchannel_free (s : State) (n : Nat) (f : PChannel → PChannel) : (s.onPchannel n f).free = s.free := rfl
@[simp] theorem State.onPchannel_oracle (s : State) (n : Nat) (f : PChannel → PChannel) : (s.onPchannel n f).oracle = s.oracle := rfl
@[simp] theorem State.onPchannel_inputs (s : State) (n : Nat) (f : PChannel → PChannel) : (s.onPchannel n f).inputs = s.inputs := rfl
@[simp] theorem State.onPchannel_nextId (s : State) (n : Nat) (f : PChannel → PChannel) : (s.onPchannel n f).nextId = s.nextId := rfl
@[simp] theorem State.onPchannel_cur (s : State) (n : Nat) (f : PChannel → PChannel) : (s.onPchannel n f).cur = s.cur := rfl
@[simp] theorem State.onPchannel_stepB0 (s : State) (n : Nat) (f : PChannel → PChannel) : (s.onPchannel n f).stepB0 = s.stepB0 := rfl
@[simp] theorem State.onPchannel_mem (s : State) (n : Nat) (f : PChannel → PChannel) : (s.onPchannel n f).mem = s.mem := rfl
@[simp] theorem State.onPchannel_l2way (s : State) (n : Nat) (f : PChannel → PChannel) : (s.onPchannel n f).l2way = s.l2way := rfl
@[simp] theorem State.onPchannel_cores (s : State) (n : Nat) (f : PChannel → PChannel) : (s.onPchannel n f).cores = s.cores := rfl
@[simp] theorem State.onPchannel_sectorTlb (s : State) (n : Nat) (f : PChannel → PChannel) : (s.onPchannel n f).sectorTlb = s.sectorTlb := rfl
@[simp] theorem State.onPchannel_walkCache (s : State) (n : Nat) (f : PChannel → PChannel) : (s.onPchannel n f).walkCache = s.walkCache := rfl
@[simp] theorem State.onPchannel_contexts (s : State) (n : Nat) (f : PChannel → PChannel) : (s.onPchannel n f).contexts = s.contexts := rfl
@[simp] theorem State.onPchannel_groups (s : State) (n : Nat) (f : PChannel → PChannel) : (s.onPchannel n f).groups = s.groups := rfl
@[simp] theorem State.onPchannel_blocks (s : State) (n : Nat) (f : PChannel → PChannel) : (s.onPchannel n f).blocks = s.blocks := rfl
@[simp] theorem State.onPchannel_clusters (s : State) (n : Nat) (f : PChannel → PChannel) : (s.onPchannel n f).clusters = s.clusters := rfl
@[simp] theorem State.onPchannel_launches (s : State) (n : Nat) (f : PChannel → PChannel) : (s.onPchannel n f).launches = s.launches := rfl
@[simp] theorem State.onPchannel_queues (s : State) (n : Nat) (f : PChannel → PChannel) : (s.onPchannel n f).queues = s.queues := rfl
@[simp] theorem State.onPchannel_devQueues (s : State) (n : Nat) (f : PChannel → PChannel) : (s.onPchannel n f).devQueues = s.devQueues := rfl
@[simp] theorem State.onPchannel_lastServed (s : State) (n : Nat) (f : PChannel → PChannel) : (s.onPchannel n f).lastServed = s.lastServed := rfl
@[simp] theorem State.onPchannel_launchReqs (s : State) (n : Nat) (f : PChannel → PChannel) : (s.onPchannel n f).launchReqs = s.launchReqs := rfl
@[simp] theorem State.onPchannel_counters (s : State) (n : Nat) (f : PChannel → PChannel) : (s.onPchannel n f).counters = s.counters := rfl
@[simp] theorem State.onPchannel_net (s : State) (n : Nat) (f : PChannel → PChannel) : (s.onPchannel n f).net = s.net := rfl
@[simp] theorem State.onPchannel_podQ (s : State) (n : Nat) (f : PChannel → PChannel) : (s.onPchannel n f).podQ = s.podQ := rfl
@[simp] theorem State.onPchannel_replies (s : State) (n : Nat) (f : PChannel → PChannel) : (s.onPchannel n f).replies = s.replies := rfl
@[simp] theorem State.onPchannel_waypoints (s : State) (n : Nat) (f : PChannel → PChannel) : (s.onPchannel n f).waypoints = s.waypoints := rfl
@[simp] theorem State.onPchannel_probes (s : State) (n : Nat) (f : PChannel → PChannel) : (s.onPchannel n f).probes = s.probes := rfl
@[simp] theorem State.onPchannel_poisons (s : State) (n : Nat) (f : PChannel → PChannel) : (s.onPchannel n f).poisons = s.poisons := rfl
@[simp] theorem State.onPchannel_pchannels (s : State) (n : Nat) (f : PChannel → PChannel) : (s.onPchannel n f).pchannels = Tab.set PChannel.reset s.pchannels n (f (s.pchannel n)) := rfl
@[simp] theorem State.onPchannel_device (s : State) (n : Nat) (f : PChannel → PChannel) : (s.onPchannel n f).device = s.device := rfl
@[simp] theorem State.onPchannel_routes (s : State) (n : Nat) (f : PChannel → PChannel) : (s.onPchannel n f).routes = s.routes := rfl
@[simp] theorem State.onPchannel_paused (s : State) (n : Nat) (f : PChannel → PChannel) : (s.onPchannel n f).paused = s.paused := rfl
@[simp] theorem State.onPchannel_retries (s : State) (n : Nat) (f : PChannel → PChannel) : (s.onPchannel n f).retries = s.retries := rfl
@[simp] theorem State.onPchannel_collectives (s : State) (n : Nat) (f : PChannel → PChannel) : (s.onPchannel n f).collectives = s.collectives := rfl
@[simp] theorem State.onPchannel_ltol (s : State) (n : Nat) (f : PChannel → PChannel) : (s.onPchannel n f).ltol = s.ltol := rfl
@[simp] theorem State.onPchannel_rest (s : State) (n : Nat) (f : PChannel → PChannel) : (s.onPchannel n f).rest = s.rest := rfl
@[simp] theorem State.onPchannel_idleFrom (s : State) (n : Nat) (f : PChannel → PChannel) : (s.onPchannel n f).idleFrom = s.idleFrom := rfl
@[simp] theorem State.onPchannel_wake (s : State) (n : Nat) (f : PChannel → PChannel) : (s.onPchannel n f).wake = s.wake := rfl
@[simp] theorem State.onPchannel_progress (s : State) (n : Nat) (f : PChannel → PChannel) : (s.onPchannel n f).progress = s.progress := rfl
@[simp] theorem State.onPchannel_trial (s : State) (n : Nat) (f : PChannel → PChannel) : (s.onPchannel n f).trial = s.trial := rfl
@[simp] theorem State.onPchannel_soundings (s : State) (n : Nat) (f : PChannel → PChannel) : (s.onPchannel n f).soundings = s.soundings := rfl
@[simp] theorem State.onPchannel_logRegs (s : State) (n : Nat) (f : PChannel → PChannel) : (s.onPchannel n f).logRegs = s.logRegs := rfl
@[simp] theorem State.onPchannel_logHead (s : State) (n : Nat) (f : PChannel → PChannel) : (s.onPchannel n f).logHead = s.logHead := rfl
@[simp] theorem State.onPchannel_logDrops (s : State) (n : Nat) (f : PChannel → PChannel) : (s.onPchannel n f).logDrops = s.logDrops := rfl
@[simp] theorem State.onPchannel_dirty (s : State) (n : Nat) (f : PChannel → PChannel) : (s.onPchannel n f).dirty = s.dirty := rfl
@[simp] theorem State.onPchannel_replicas (s : State) (n : Nat) (f : PChannel → PChannel) : (s.onPchannel n f).replicas = s.replicas := rfl
@[simp] theorem State.onPchannel_invals (s : State) (n : Nat) (f : PChannel → PChannel) : (s.onPchannel n f).invals = s.invals := rfl
@[simp] theorem State.onPchannel_measure (s : State) (n : Nat) (f : PChannel → PChannel) : (s.onPchannel n f).measure = s.measure := rfl
@[simp] theorem State.onPchannel_extCount (s : State) (n : Nat) (f : PChannel → PChannel) : (s.onPchannel n f).extCount = s.extCount := rfl
@[simp] theorem State.onPchannel_resets (s : State) (n : Nat) (f : PChannel → PChannel) : (s.onPchannel n f).resets = s.resets := rfl
@[simp] theorem State.onPchannel_answers (s : State) (n : Nat) (f : PChannel → PChannel) : (s.onPchannel n f).answers = s.answers := rfl
@[simp] theorem State.onPchannel_units (s : State) (n : Nat) (f : PChannel → PChannel) : (s.onPchannel n f).units = s.units := rfl
@[simp] theorem State.onPchannel_stowage (s : State) (n : Nat) (f : PChannel → PChannel) : (s.onPchannel n f).stowage = s.stowage := rfl

@[simp] theorem State.writeByte_cycle (s : State) (l : Nat) (b : Byte) : (s.writeByte l b).cycle = s.cycle := rfl
@[simp] theorem State.writeByte_awake (s : State) (l : Nat) (b : Byte) : (s.writeByte l b).awake = s.awake := rfl
@[simp] theorem State.writeByte_free (s : State) (l : Nat) (b : Byte) : (s.writeByte l b).free = s.free := rfl
@[simp] theorem State.writeByte_oracle (s : State) (l : Nat) (b : Byte) : (s.writeByte l b).oracle = s.oracle := rfl
@[simp] theorem State.writeByte_inputs (s : State) (l : Nat) (b : Byte) : (s.writeByte l b).inputs = s.inputs := rfl
@[simp] theorem State.writeByte_nextId (s : State) (l : Nat) (b : Byte) : (s.writeByte l b).nextId = s.nextId := rfl
@[simp] theorem State.writeByte_cur (s : State) (l : Nat) (b : Byte) : (s.writeByte l b).cur = s.cur := rfl
@[simp] theorem State.writeByte_stepB0 (s : State) (l : Nat) (b : Byte) : (s.writeByte l b).stepB0 = s.stepB0 := rfl
@[simp] theorem State.writeByte_mem (s : State) (l : Nat) (b : Byte) : (s.writeByte l b).mem = Tab.set 0 s.mem l b := rfl
@[simp] theorem State.writeByte_l2way (s : State) (l : Nat) (b : Byte) : (s.writeByte l b).l2way = s.l2way := rfl
@[simp] theorem State.writeByte_cores (s : State) (l : Nat) (b : Byte) : (s.writeByte l b).cores = s.cores := rfl
@[simp] theorem State.writeByte_sectorTlb (s : State) (l : Nat) (b : Byte) : (s.writeByte l b).sectorTlb = s.sectorTlb := rfl
@[simp] theorem State.writeByte_walkCache (s : State) (l : Nat) (b : Byte) : (s.writeByte l b).walkCache = s.walkCache := rfl
@[simp] theorem State.writeByte_contexts (s : State) (l : Nat) (b : Byte) : (s.writeByte l b).contexts = s.contexts := rfl
@[simp] theorem State.writeByte_groups (s : State) (l : Nat) (b : Byte) : (s.writeByte l b).groups = s.groups := rfl
@[simp] theorem State.writeByte_blocks (s : State) (l : Nat) (b : Byte) : (s.writeByte l b).blocks = s.blocks := rfl
@[simp] theorem State.writeByte_clusters (s : State) (l : Nat) (b : Byte) : (s.writeByte l b).clusters = s.clusters := rfl
@[simp] theorem State.writeByte_launches (s : State) (l : Nat) (b : Byte) : (s.writeByte l b).launches = s.launches := rfl
@[simp] theorem State.writeByte_queues (s : State) (l : Nat) (b : Byte) : (s.writeByte l b).queues = s.queues := rfl
@[simp] theorem State.writeByte_devQueues (s : State) (l : Nat) (b : Byte) : (s.writeByte l b).devQueues = s.devQueues := rfl
@[simp] theorem State.writeByte_lastServed (s : State) (l : Nat) (b : Byte) : (s.writeByte l b).lastServed = s.lastServed := rfl
@[simp] theorem State.writeByte_launchReqs (s : State) (l : Nat) (b : Byte) : (s.writeByte l b).launchReqs = s.launchReqs := rfl
@[simp] theorem State.writeByte_counters (s : State) (l : Nat) (b : Byte) : (s.writeByte l b).counters = s.counters := rfl
@[simp] theorem State.writeByte_net (s : State) (l : Nat) (b : Byte) : (s.writeByte l b).net = s.net := rfl
@[simp] theorem State.writeByte_podQ (s : State) (l : Nat) (b : Byte) : (s.writeByte l b).podQ = s.podQ := rfl
@[simp] theorem State.writeByte_replies (s : State) (l : Nat) (b : Byte) : (s.writeByte l b).replies = s.replies := rfl
@[simp] theorem State.writeByte_waypoints (s : State) (l : Nat) (b : Byte) : (s.writeByte l b).waypoints = s.waypoints := rfl
@[simp] theorem State.writeByte_probes (s : State) (l : Nat) (b : Byte) : (s.writeByte l b).probes = s.probes := rfl
@[simp] theorem State.writeByte_poisons (s : State) (l : Nat) (b : Byte) : (s.writeByte l b).poisons = s.poisons := rfl
@[simp] theorem State.writeByte_pchannels (s : State) (l : Nat) (b : Byte) : (s.writeByte l b).pchannels = s.pchannels := rfl
@[simp] theorem State.writeByte_device (s : State) (l : Nat) (b : Byte) : (s.writeByte l b).device = s.device := rfl
@[simp] theorem State.writeByte_routes (s : State) (l : Nat) (b : Byte) : (s.writeByte l b).routes = s.routes := rfl
@[simp] theorem State.writeByte_paused (s : State) (l : Nat) (b : Byte) : (s.writeByte l b).paused = s.paused := rfl
@[simp] theorem State.writeByte_retries (s : State) (l : Nat) (b : Byte) : (s.writeByte l b).retries = s.retries := rfl
@[simp] theorem State.writeByte_collectives (s : State) (l : Nat) (b : Byte) : (s.writeByte l b).collectives = s.collectives := rfl
@[simp] theorem State.writeByte_ltol (s : State) (l : Nat) (b : Byte) : (s.writeByte l b).ltol = s.ltol := rfl
@[simp] theorem State.writeByte_rest (s : State) (l : Nat) (b : Byte) : (s.writeByte l b).rest = s.rest := rfl
@[simp] theorem State.writeByte_idleFrom (s : State) (l : Nat) (b : Byte) : (s.writeByte l b).idleFrom = s.idleFrom := rfl
@[simp] theorem State.writeByte_wake (s : State) (l : Nat) (b : Byte) : (s.writeByte l b).wake = s.wake := rfl
@[simp] theorem State.writeByte_progress (s : State) (l : Nat) (b : Byte) : (s.writeByte l b).progress = s.progress := rfl
@[simp] theorem State.writeByte_trial (s : State) (l : Nat) (b : Byte) : (s.writeByte l b).trial = s.trial := rfl
@[simp] theorem State.writeByte_soundings (s : State) (l : Nat) (b : Byte) : (s.writeByte l b).soundings = s.soundings := rfl
@[simp] theorem State.writeByte_logRegs (s : State) (l : Nat) (b : Byte) : (s.writeByte l b).logRegs = s.logRegs := rfl
@[simp] theorem State.writeByte_logHead (s : State) (l : Nat) (b : Byte) : (s.writeByte l b).logHead = s.logHead := rfl
@[simp] theorem State.writeByte_logDrops (s : State) (l : Nat) (b : Byte) : (s.writeByte l b).logDrops = s.logDrops := rfl
@[simp] theorem State.writeByte_dirty (s : State) (l : Nat) (b : Byte) : (s.writeByte l b).dirty = s.dirty := rfl
@[simp] theorem State.writeByte_replicas (s : State) (l : Nat) (b : Byte) : (s.writeByte l b).replicas = s.replicas := rfl
@[simp] theorem State.writeByte_invals (s : State) (l : Nat) (b : Byte) : (s.writeByte l b).invals = s.invals := rfl
@[simp] theorem State.writeByte_measure (s : State) (l : Nat) (b : Byte) : (s.writeByte l b).measure = s.measure := rfl
@[simp] theorem State.writeByte_extCount (s : State) (l : Nat) (b : Byte) : (s.writeByte l b).extCount = s.extCount := rfl
@[simp] theorem State.writeByte_resets (s : State) (l : Nat) (b : Byte) : (s.writeByte l b).resets = s.resets := rfl
@[simp] theorem State.writeByte_answers (s : State) (l : Nat) (b : Byte) : (s.writeByte l b).answers = s.answers := rfl
@[simp] theorem State.writeByte_units (s : State) (l : Nat) (b : Byte) : (s.writeByte l b).units = s.units := rfl
@[simp] theorem State.writeByte_stowage (s : State) (l : Nat) (b : Byte) : (s.writeByte l b).stowage = s.stowage := rfl

end Sys2Proof.Machine
end

