-- ==== Sys2Proof/Laws/Tab.lean ====
section
/-! SUPPORT. Sparse tables: what a key reads as after each operation, and that the canonical form is kept. -/

namespace Sys2Proof.Machine

variable {β : Type}

/-! Reading after writing. -/

@[simp] theorem Tab.find_nil (n : Nat) : Tab.find ([] : Tab β) n = none := rfl

theorem Tab.find_erase (t : Tab β) (n m : Nat) : Tab.find (Tab.erase t n) m = if m = n then none else Tab.find t m := by
  induction t with
  | nil => simp [Tab.erase, Tab.find]
  | cons e t ih =>
    obtain ⟨k, v⟩ := e
    simp only [Tab.erase]
    by_cases hk : k = n <;> by_cases hm : m = n <;> simp_all [Tab.find, eq_comm]

theorem Tab.find_ins (t : Tab β) (n m : Nat) (v : β) (h : Tab.find t n = none) :
    Tab.find (Tab.ins t n v) m = if m = n then some v else Tab.find t m := by
  induction t with
  | nil => simp [Tab.ins, Tab.find, eq_comm]
  | cons e t ih =>
    obtain ⟨k, w⟩ := e
    have hk : k ≠ n := by rintro rfl; simp [Tab.find] at h
    have ht : Tab.find t n = none := by simpa [Tab.find, hk] using h
    by_cases hlt : n < k
    · simp only [Tab.ins, hlt, if_true, Tab.find, eq_comm]
    · simp only [Tab.ins, hlt, if_false, Tab.find, ih ht]
      by_cases hm : m = n
      · subst hm; simp [hk]
      · simp [hm]

@[simp] theorem Tab.find_put (t : Tab β) (n m : Nat) (v : β) : Tab.find (Tab.put t n v) m = if m = n then some v else Tab.find t m := by
  rw [Tab.put, Tab.find_ins _ _ _ _ (by simp [Tab.find_erase]), Tab.find_erase]
  split <;> simp_all

theorem Tab.find_change (t : Tab β) (n m : Nat) (f : β → β) :
    Tab.find (Tab.change t n f) m = if m = n then (Tab.find t n).map f else Tab.find t m := by
  unfold Tab.change
  cases h : Tab.find t n <;> simp <;> intro hm <;> simp_all

theorem Tab.find_change_same (t : Tab β) (n : Nat) (f : β → β) (v : β) (h : Tab.find t n = some v) : Tab.find (Tab.change t n f) n = some (f v) := by
  simp [Tab.find_change, h]

theorem Tab.get_set [DecidableEq β] (d : β) (t : Tab β) (n m : Nat) (v : β) : Tab.get d (Tab.set d t n v) m = if m = n then v else Tab.get d t m := by
  unfold Tab.set Tab.get
  by_cases hv : v = d <;> by_cases hm : m = n <;> simp_all [Tab.find_erase]

@[simp] theorem Tab.get_set_same [DecidableEq β] (d : β) (t : Tab β) (n : Nat) (v : β) : Tab.get d (Tab.set d t n v) n = v := by
  simp [Tab.get_set]

theorem Tab.get_set_other [DecidableEq β] (d : β) (t : Tab β) (n m : Nat) (v : β) (h : m ≠ n) : Tab.get d (Tab.set d t n v) m = Tab.get d t m := by
  simp [Tab.get_set, h]

theorem Tab.find_each (t : Tab β) (f : Nat → β → β) (n : Nat) : Tab.find (Tab.each t f) n = (Tab.find t n).map (f n) := by
  induction t with
  | nil => rfl
  | cons e t ih =>
    obtain ⟨k, v⟩ := e
    by_cases hk : k = n <;> simp_all [Tab.each, Tab.find]

/-! The canonical form. -/

section Wf
variable [DecidableEq β]

/-- Canonical form, said by membership and order. -/
theorem Tab.wf_iff (d : β) (t : Tab β) : Tab.wf d t = true ↔ (∀ e ∈ t, e.2 ≠ d) ∧ t.Pairwise fun a b => a.1 < b.1 := by
  induction t with
  | nil => simp [Tab.wf]
  | cons e t ih =>
    obtain ⟨k, v⟩ := e
    cases t with
    | nil => simp [Tab.wf]
    | cons e' t =>
      obtain ⟨l, w⟩ := e'
      simp only [Tab.wf, Bool.and_eq_true, decide_eq_true_eq, ih]
      constructor
      · rintro ⟨⟨hv, hkl⟩, hd, hp⟩
        refine ⟨by simpa using ⟨hv, by simpa using hd⟩, ?_⟩
        rw [List.pairwise_cons]
        refine ⟨?_, hp⟩
        intro x hx
        rcases List.mem_cons.1 hx with rfl | hx
        · exact hkl
        · exact Nat.lt_trans hkl ((List.pairwise_cons.1 hp).1 x hx)
      · rintro ⟨hd, hp⟩
        rw [List.pairwise_cons] at hp
        refine ⟨⟨by simpa using hd (k, v) (by simp), hp.1 (l, w) (by simp)⟩, fun x hx => hd x (by simp [hx]), hp.2⟩

theorem Tab.wf_filter (d : β) (t : Tab β) (p : Nat × β → Bool) (h : Tab.wf d t = true) : Tab.wf d (t.filter p) = true := by
  rw [Tab.wf_iff] at h ⊢
  exact ⟨fun e he => h.1 e (List.mem_filter.1 he).1, h.2.filter p⟩

omit [DecidableEq β] in
theorem Tab.erase_eq_filter (t : Tab β) (n : Nat) : Tab.erase t n = t.filter fun e => decide (e.1 ≠ n) := by
  induction t with
  | nil => rfl
  | cons e t ih =>
    obtain ⟨k, v⟩ := e
    by_cases hk : k = n <;> simp_all [Tab.erase]

theorem Tab.wf_erase (d : β) (t : Tab β) (n : Nat) (h : Tab.wf d t = true) : Tab.wf d (Tab.erase t n) = true := by
  rw [Tab.erase_eq_filter]; exact Tab.wf_filter d t _ h

omit [DecidableEq β] in
theorem Tab.mem_ins (t : Tab β) (n : Nat) (v : β) (e : Nat × β) : e ∈ Tab.ins t n v ↔ e = (n, v) ∨ e ∈ t := by
  induction t with
  | nil => simp [Tab.ins]
  | cons x t ih =>
    obtain ⟨k, w⟩ := x
    by_cases h : n < k
    · simp [Tab.ins, h]
    · simp only [Tab.ins, h, if_false, List.mem_cons, ih]; tauto

theorem Tab.wf_ins (d : β) (t : Tab β) (n : Nat) (v : β) (hv : v ≠ d) (hn : ∀ e ∈ t, e.1 ≠ n) (h : Tab.wf d t = true) : Tab.wf d (Tab.ins t n v) = true := by
  rw [Tab.wf_iff] at h ⊢
  refine ⟨fun e he => ?_, ?_⟩
  · rcases (Tab.mem_ins t n v e).1 he with rfl | he
    · exact hv
    · exact h.1 e he
  · have hp := h.2
    clear h
    induction t with
    | nil => simp [Tab.ins]
    | cons x t ih =>
      obtain ⟨k, w⟩ := x
      rw [List.pairwise_cons] at hp
      by_cases hlt : n < k
      · simp only [Tab.ins, hlt, if_true]
        rw [List.pairwise_cons]
        refine ⟨fun y hy => ?_, by rw [List.pairwise_cons]; exact hp⟩
        rcases List.mem_cons.1 hy with rfl | hy
        · exact hlt
        · exact Nat.lt_trans hlt (hp.1 y hy)
      · simp only [Tab.ins, hlt, if_false]
        rw [List.pairwise_cons]
        refine ⟨fun y hy => ?_, ih (fun e he => hn e (by simp [he])) hp.2⟩
        have hk : k ≠ n := hn (k, w) (by simp)
        rcases (Tab.mem_ins t n v y).1 hy with rfl | hy
        · show k < n
          omega
        · exact hp.1 y hy

theorem Tab.wf_set (d : β) (t : Tab β) (n : Nat) (v : β) (h : Tab.wf d t = true) : Tab.wf d (Tab.set d t n v) = true := by
  unfold Tab.set
  split
  · exact Tab.wf_erase d t n h
  · refine Tab.wf_ins d _ n v ‹_› (fun e he => ?_) (Tab.wf_erase d t n h)
    rw [Tab.erase_eq_filter] at he
    simpa using (List.mem_filter.1 he).2

end Wf

/-! Small sets. -/

theorem bitsUpTo_lt (f : Nat → Bool) (n : Nat) : bitsUpTo f n < 2 ^ n := by
  induction n with
  | zero => simp [bitsUpTo]
  | succ n ih => simp only [bitsUpTo, Nat.pow_succ]; split <;> omega

theorem bitsUpTo_testBit (f : Nat → Bool) (n i : Nat) : (bitsUpTo f n).testBit i = (decide (i < n) && f i) := by
  induction n with
  | zero => simp [bitsUpTo]
  | succ n ih =>
    have hlt := bitsUpTo_lt f n
    simp only [bitsUpTo]
    by_cases hi : i = n
    · subst hi
      by_cases hf : f i
      · simp only [hf, if_true]; rw [Nat.add_comm, Nat.testBit_two_pow_add_eq, Nat.testBit_lt_two_pow hlt]; simp
      · simp [hf, Nat.testBit_lt_two_pow hlt]
    · by_cases hf : f n
      · simp only [hf, if_true]
        rw [Nat.add_comm]
        by_cases hlt2 : i < n
        · rw [Nat.testBit_two_pow_add_gt (by omega), ih]; simp [hlt2, Nat.lt_succ_of_lt hlt2]
        · have : bitsUpTo f n + 2 ^ n < 2 ^ i := by
            have : 2 ^ (n+1) ≤ 2 ^ i := Nat.pow_le_pow_right (by omega) (by omega)
            rw [Nat.pow_succ] at this; omega
          rw [Nat.add_comm, Nat.testBit_lt_two_pow this]; simp; omega
      · simp only [hf]; simp only [Bool.false_eq_true, if_false, Nat.add_zero, ih]
        have : (i < n ↔ i < n + 1) := by omega
        simp [this]

@[simp] theorem getLsbD_bitSet (n : Nat) (f : Nat → Bool) (i : Nat) : (bitSet n f).getLsbD i = (decide (i < n) && f i) := by
  simp only [bitSet, BitVec.getLsbD_ofNat, bitsUpTo_testBit]
  by_cases h : i < n <;> simp [h]


/-- Two sets with the same members are one set. -/
theorem bitSet_congr {n : Nat} {f f' : Nat → Bool} (h : ∀ i, i < n → f i = f' i) : bitSet n f = bitSet n f' := by
  apply BitVec.eq_of_getLsbD_eq
  intro i hi
  rw [getLsbD_bitSet, getLsbD_bitSet, h i hi]

@[simp] theorem mem_members {n i : Nat} (x : BitVec n) : i ∈ members x ↔ x.getLsbD i = true := by
  simp only [members, List.mem_filter, List.mem_range, and_iff_right_iff_imp]
  intro h
  by_contra hn
  rw [BitVec.getLsbD_of_ge x i (by omega)] at h
  exact Bool.noConfusion h

/-! Folds. -/

/-- What each step of a fold keeps, the fold keeps. -/
theorem each_induction {α σ : Type} {P : σ → Prop} (l : List α) (f : α → σ → σ) (s : σ) (h0 : P s) (hf : ∀ a s, P s → P (f a s)) : P (each l f s) := by
  unfold each
  induction l generalizing s with
  | nil => exact h0
  | cons a l ih => exact ih _ (hf a s h0)

@[simp] theorem each_nil {α σ : Type} (f : α → σ → σ) (s : σ) : each [] f s = s := rfl
@[simp] theorem each_cons {α σ : Type} (a : α) (l : List α) (f : α → σ → σ) (s : σ) : each (a :: l) f s = each l f (f a s) := rfl

end Sys2Proof.Machine
end

