-- ==== Sys2Proof/Laws/Memory.lean ====
section
/-! SUPPORT. Memory: what a write leaves to be read, that every memory operation keeps the canonical form, and which shared operations leave memory alone. -/

set_option Elab.async false

namespace Sys2Proof.Machine

/-! Reading after writing. -/

theorem State.readByte_writeByte (s : State) (l m : Nat) (b : Byte) : (s.writeByte l b).readByte m = if m = l then b else s.readByte m := by
  simp [State.readByte, Tab.get_set]

/-- A list of bytes written: the last one given to a location stands, and every other location keeps its byte. -/
theorem State.readByte_writeBytes (s : State) (cells : List (Nat × Byte)) (m : Nat) :
    (s.writeBytes cells).readByte m = (((cells.filter fun c => decide (c.1 = m)).getLast?).map (·.2)).getD (s.readByte m) := by
  induction cells generalizing s with
  | nil => rfl
  | cons c t ih =>
    have h : s.writeBytes (c :: t) = (s.writeByte c.1 c.2).writeBytes t := rfl
    rw [h, ih, State.readByte_writeByte]
    by_cases hc : c.1 = m
    · simp only [hc, decide_true, List.filter_cons_of_pos, List.getLast?_cons, Option.map_some, Option.getD_some, if_true]
      cases (List.filter (fun c => decide (c.1 = m)) t).getLast? <;> simp
    · have hm : ¬ m = c.1 := fun h => hc h.symm
      simp [hc, hm]

theorem Tab.find_filter {β : Type} (t : Tab β) (p : Nat → Bool) (m : Nat) :
    Tab.find (t.filter fun e => p e.1) m = if p m = true then Tab.find t m else none := by
  induction t with
  | nil => simp [Tab.find]
  | cons e t ih =>
    obtain ⟨k, b⟩ := e
    by_cases hp : p k = true
    · have : List.filter (fun e : Nat × β => p e.1) ((k, b) :: t) = (k, b) :: List.filter (fun e => p e.1) t := by simp [hp]
      rw [this]
      by_cases hk : k = m
      · subst hk; simp [Tab.find, hp]
      · simp only [Tab.find, hk, if_false]; exact ih
    · have : List.filter (fun e : Nat × β => p e.1) ((k, b) :: t) = List.filter (fun e => p e.1) t := by simp [hp]
      rw [this, ih]
      by_cases hk : k = m
      · subst hk; simp [hp]
      · simp [Tab.find, hk]

theorem State.readByte_filter (s : State) (p : Nat → Bool) (m : Nat) :
    State.readByte { s with mem := s.mem.filter fun e => p e.1 } m = if p m = true then s.readByte m else 0 := by
  show (Tab.find (s.mem.filter fun e => p e.1) m).getD 0 = _
  rw [Tab.find_filter]
  split <;> rfl

/-! The canonical form. -/

theorem State.reset_memoryKept : State.reset.memoryKept := rfl

theorem State.writeByte_kept {s : State} (l : Nat) (b : Byte) (h : s.memoryKept) : (s.writeByte l b).memoryKept := Tab.wf_set 0 s.mem l b h

theorem State.writeBytes_kept {s : State} (cells : List (Nat × Byte)) (h : s.memoryKept) : (s.writeBytes cells).memoryKept :=
  each_induction (P := State.memoryKept) cells _ s h fun c _ ht => State.writeByte_kept c.1 c.2 ht

theorem State.writeNat_kept {s : State} (l n v : Nat) (h : s.memoryKept) : (s.writeNat l n v).memoryKept := State.writeBytes_kept _ h

theorem State.filter_kept {s : State} (p : Nat × Byte → Bool) (h : s.memoryKept) : State.memoryKept { s with mem := s.mem.filter p } :=
  Tab.wf_filter 0 s.mem p h

/-! Operations the slice logs see: what a log writes keeps the form as well. -/

theorem ite_kept {p : Prop} [Decidable p] {a b : State} (ha : a.memoryKept) (hb : b.memoryKept) : (if p then a else b).memoryKept := by
  split <;> assumption

theorem State.writeLate_kept {s : State} (core : Nat) (cells : List (Nat × Byte)) (h : s.memoryKept) : (s.writeLate core cells).memoryKept := by
  unfold State.writeLate
  split
  · exact h
  · exact State.writeBytes_kept cells h

theorem State.logRequest_kept {s : State} (op : Nat) (x : Asker) (l : Nat) (h : s.memoryKept) : (s.logRequest op x l).memoryKept := by
  unfold State.logRequest
  exact ite_kept h (ite_kept (ite_kept h (State.writeLate_kept _ _ h)) h)

theorem State.logRead_kept {s : State} (x : Asker) (pol l : Nat) (h : s.memoryKept) : (s.logRead x pol l).memoryKept := by
  unfold State.logRead
  split
  · exact h
  · dsimp only
    split
    · exact State.logRequest_kept _ _ _ (State.logRequest_kept _ _ _ h)
    · exact State.logRequest_kept _ _ _ h

theorem State.logWrites_kept {s : State} (op : Nat) (x : Asker) (through ls : List Nat) (h : s.memoryKept) : (s.logWrites op x through ls).memoryKept := by
  unfold State.logWrites
  split
  · exact h
  · refine each_induction (P := State.memoryKept) _ _ s h fun l t ht => ?_
    exact State.logRequest_kept _ _ _ (each_induction (P := State.memoryKept) _ _ t ht fun _ _ hu => State.logRequest_kept _ _ _ hu)

theorem State.writeBack_kept {s : State} (x : Asker) (p : Nat → Bool) (h : s.memoryKept) : (s.writeBack x p).memoryKept :=
  each_induction (P := State.memoryKept) _ _ s h fun _ _ ht => State.logRequest_kept _ _ _ ht

theorem State.logWalk_kept {s : State} (core ctx space va : Nat) (h : s.memoryKept) : (s.logWalk core ctx space va).memoryKept := by
  unfold State.logWalk
  split
  · exact h
  · exact each_induction (P := State.memoryKept) _ _ s h fun _ _ ht => State.logRequest_kept _ _ _ ht

/-- What a walk leaves held is no memory. -/
theorem State.keepWalk_kept {s : State} (core ctx space va : Nat) (x : Option Xlat) (h : s.memoryKept) : (s.keepWalk core ctx space va x).memoryKept := by
  unfold State.keepWalk
  dsimp only
  split <;> exact h

theorem State.walkPage_kept {s : State} (a : Agent) (k : Access) (space va : Nat) (h : s.memoryKept) : (s.walkPage a k space va).memoryKept := by
  unfold State.walkPage
  split
  · exact h
  · exact State.keepWalk_kept _ _ _ _ _ (State.logWalk_kept _ _ _ _ h)

theorem State.walks_kept {s : State} (a : Agent) (spaces : List Nat) (n : Nat) (k : Access) (ps : List DWord) (h : s.memoryKept) :
    (s.walks a spaces n k ps).memoryKept :=
  each_induction (P := State.memoryKept) _ _ s h fun _ _ ht => State.walkPage_kept _ _ _ _ ht

theorem State.observe_kept {s : State} (a : Agent) (l : Nat) (h : s.memoryKept) : (s.observe a l).memoryKept := by
  unfold State.observe
  split
  · split
    · split <;> exact h
    · exact h
  · exact h

theorem State.lsTouch_kept {s : State} (a : Agent) (choice pol : Nat) (cached fills : Bool) (l : Nat) (h : s.memoryKept) :
    (s.lsTouch a choice pol cached fills l).memoryKept := by
  unfold State.lsTouch
  split
  · split
    · exact State.logRequest_kept _ _ _ h
    · exact h
  · dsimp only
    split
    · split
      · exact h
      · exact State.logRead_kept _ _ _ h
    · split <;> exact State.logRead_kept _ _ _ h

/-! Operations that write. -/

theorem State.homeWrite_kept {s : State} (op : Nat) (x : Asker) (through : List Nat) (cells : List (Nat × Byte)) (h : s.memoryKept) :
    (s.homeWrite op x through cells).memoryKept :=
  State.writeBytes_kept cells (State.logWrites_kept op x _ _ h)

theorem State.lsStore_kept {s : State} (a : Agent) (p : PendingStore) (drop : List Nat) (h : s.memoryKept) : (s.lsStore a p drop).memoryKept := by
  have h1 := State.writeBytes_kept (p.cells.filter fun c => !Ops.lined c.1)
    (State.logWrites_kept 1 a.asker [] ((p.cells.filter fun c => !Ops.lined c.1).map (·.1)) h)
  unfold State.lsStore
  dsimp only
  split
  · exact h1
  · split
    · exact State.writeBytes_kept (s := State.logWrites _ _ _ _ _) _ (State.logWrites_kept _ _ _ _ h1)
    · exact h1

theorem State.storeHome_kept {s : State} (core : Nat) (p : PendingStore) (h : s.memoryKept) : (State.storeHome core p s).memoryKept :=
  State.writeBytes_kept _ (State.logWrites_kept _ _ _ _ h)

theorem State.drain_kept {s t : State} (core : Nat) (h : s.memoryKept) (hd : s.drain core = some t) : t.memoryKept := by
  unfold State.drain at hd
  dsimp only at hd
  split at hd
  · cases hd
  · split at hd
    · cases hd; exact h
    · cases hd
      exact each_induction (P := State.memoryKept) _ _ s h fun p _ ht => State.storeHome_kept core p ht

theorem State.release_kept {s t : State} (gid core scope : Nat) (h : s.memoryKept) (hr : s.release gid core scope = some t) : t.memoryKept := by
  unfold State.release at hr
  split at hr
  · cases hr
  · split at hr
    · cases hr; exact h
    · exact State.drain_kept core h hr

theorem State.applyAtom_kept {s : State} (x : Asker) (o : AtomOp) (through : Bool) (locs : List Nat) (b1 b2 : DWord) (h : s.memoryKept) :
    (s.applyAtom x o through locs b1 b2).2.memoryKept := by
  unfold State.applyAtom
  dsimp only
  split
  · exact State.logRequest_kept _ _ _ h
  · exact State.homeWrite_kept _ _ _ _ h

theorem State.drainFree_kept {s : State} (core : Nat) (h : s.memoryKept) : (s.drainFree core).memoryKept := by
  unfold State.drainFree
  dsimp only
  split
  · exact h
  · exact each_induction (P := State.memoryKept) _ _ s h fun p _ ht => State.storeHome_kept core p ht

theorem State.ownWrites_kept {s t : State} (gid core : Nat) (h : s.memoryKept) (hw : s.ownWrites gid core = some t) : t.memoryKept := by
  unfold State.ownWrites at hw
  dsimp only at hw
  split at hw
  · cases hw
  · cases hw; exact State.drainFree_kept core h

theorem State.setWays_kept {s : State} (x : Asker) (die n choice : Nat) (h : s.memoryKept) : (s.setWays x die n choice).memoryKept :=
  Tab.wf_filter 0 _ _ (State.writeBack_kept x _ h)

theorem State.clearScratch_kept {s : State} (n : Nat) (h : s.memoryKept) : (s.clearScratch n).memoryKept := Tab.wf_filter 0 s.mem _ h

/-- Three parts in rising order, each in canonical form. -/
theorem Tab.wf_append {β : Type} [DecidableEq β] (d : β) (a b : Tab β) (ha : Tab.wf d a = true) (hb : Tab.wf d b = true)
    (h : ∀ x ∈ a, ∀ y ∈ b, x.1 < y.1) : Tab.wf d (a ++ b) = true := by
  rw [Tab.wf_iff] at ha hb ⊢
  refine ⟨fun e he => ?_, List.pairwise_append.2 ⟨ha.2, hb.2, h⟩⟩
  rcases List.mem_append.1 he with he | he
  · exact ha.1 e he
  · exact hb.1 e he

theorem State.writeFree_kept {s : State} (lo n : Nat) (h : s.memoryKept) : (s.writeFree lo n).memoryKept := by
  have key : ∀ (f : Nat → Byte), Tab.wf 0 (((List.range n).map fun i => (lo + i, f i)).filter fun c => decide (c.2 ≠ 0)) = true := fun f => by
    rw [Tab.wf_iff]
    refine ⟨fun e he => by simpa using (List.mem_filter.1 he).2, List.Pairwise.filter _ ?_⟩
    rw [List.pairwise_map]
    exact List.pairwise_lt_range.imp fun h => by simpa using h
  show Tab.wf 0 ((s.mem.filter fun e => decide (e.1 < lo)) ++ _ ++ s.mem.filter fun e => decide (lo + n ≤ e.1)) = true
  refine Tab.wf_append 0 _ _ (Tab.wf_append 0 _ _ (Tab.wf_filter 0 s.mem _ h) (key _) fun x hx y hy => ?_) (Tab.wf_filter 0 s.mem _ h) fun x hx y hy => ?_
  · have h1 : x.1 < lo := by simpa using (List.mem_filter.1 hx).2
    obtain ⟨i, -, rfl⟩ := List.mem_map.1 (List.mem_filter.1 hy).1
    exact Nat.lt_of_lt_of_le h1 (Nat.le_add_right _ _)
  · have h2 : lo + n ≤ y.1 := by simpa using (List.mem_filter.1 hy).2
    rcases List.mem_append.1 hx with hx | hx
    · have h1 : x.1 < lo := by simpa using (List.mem_filter.1 hx).2
      omega
    · obtain ⟨i, hi, rfl⟩ := List.mem_map.1 (List.mem_filter.1 hx).1
      have := List.mem_range.1 hi
      show lo + i < y.1
      omega

/-! What leaves memory alone. -/

theorem each_mem {α : Type} (l : List α) (f : α → State → State) (s : State) (hf : ∀ a t, (f a t).mem = t.mem) : (each l f s).mem = s.mem :=
  each_induction (P := fun t => t.mem = s.mem) l f s rfl fun a t ht => (hf a t).trans ht

@[simp] theorem State.wakeBlock_mem (s : State) (b : Nat) (p : Wait → Bool) : (s.wakeBlock b p).mem = s.mem := rfl
@[simp] theorem State.fresh_mem (s : State) : s.fresh.2.mem = s.mem := rfl

@[simp] theorem State.acquireBlocks_mem (s : State) (bs : List Nat) : (s.acquireBlocks bs).mem = s.mem :=
  each_mem _ _ _ fun b t => by split <;> rfl

@[simp] theorem State.settleKey_mem (s : State) (key : DWord) : (s.settleKey key).mem = s.mem := by
  unfold State.settleKey
  split
  · rfl
  · dsimp only
    split
    · rfl
    · split <;> rfl

@[simp] theorem State.undoKey_mem (gid op : Nat) (frees : Bool) (lk : Nat × DWord) (s : State) : (s.undoKey gid op frees lk).mem = s.mem := by
  unfold State.undoKey
  split
  · rfl
  · dsimp only
    rw [State.settleKey_mem]
    split <;> rfl

@[simp] theorem State.dropKeys_mem (s : State) (gid op : Nat) (frees : Bool) (keys : Tab DWord) : (s.dropKeys gid op frees keys).mem = s.mem := by
  unfold State.dropKeys
  dsimp only
  exact each_mem _ _ _ fun a t => State.undoKey_mem gid op frees a t

@[simp] theorem State.withdrawKeys_mem (s : State) (gid op : Nat) (keys : Tab DWord) : (s.withdrawKeys gid op keys).mem = s.mem := State.dropKeys_mem s gid op true keys

@[simp] theorem State.withdrawWayin_mem (s : State) (gid op : Nat) (w : WayOp) : (s.withdrawWayin gid op w).mem = s.mem := State.withdrawKeys_mem s gid op w.keys

@[simp] theorem State.settleRegroup_mem (s : State) (b : Nat) : (s.settleRegroup b).mem = s.mem := by
  unfold State.settleRegroup
  dsimp only
  split
  · rfl
  · exact each_mem _ _ _ fun _ _ => rfl

@[simp] theorem State.settleBarrier_mem (s : State) (b i : Nat) : (s.settleBarrier b i).mem = s.mem := by
  unfold State.settleBarrier
  split
  · rfl
  · dsimp only
    generalize (if i = 0 then _ else _ : Bool) = full
    split <;> rfl

@[simp] theorem State.settleCluster_mem (s : State) (cl i : Nat) : (s.settleCluster cl i).mem = s.mem := by
  unfold State.settleCluster
  split
  · rfl
  · dsimp only
    split
    · rw [State.acquireBlocks_mem]
      exact each_mem _ _ _ fun _ t => State.wakeBlock_mem t _ _
    · rfl

@[simp] theorem State.settleGrid_mem (s : State) (l : Nat) : (s.settleGrid l).mem = s.mem := by
  unfold State.settleGrid
  split
  · rfl
  · dsimp only
    split
    · rw [State.acquireBlocks_mem]
      exact each_mem _ _ _ fun _ t => State.wakeBlock_mem t _ _
    · rfl

@[simp] theorem State.noteHanded_mem (s : State) (b : Nat) : (s.noteHanded b).mem = s.mem := by
  unfold State.noteHanded
  split
  · rfl
  · split
    · rfl
    · dsimp only
      split <;> rfl

@[simp] theorem State.settleEnd_mem (s : State) (b : Nat) : (s.settleEnd b).mem = s.mem := by
  unfold State.settleEnd
  dsimp only
  split
  · rw [State.settleRegroup_mem, State.noteHanded_mem]
  · rw [State.settleGrid_mem]
    rw [each_mem _ _ _ fun i t => State.settleCluster_mem t _ i, State.settleBarrier_mem, State.settleRegroup_mem, State.noteHanded_mem]

@[simp] theorem State.stopWaits_mem (s : State) (gid : Nat) : (s.stopWaits gid).mem = s.mem := by
  unfold State.stopWaits
  split
  · rfl
  · exact each_mem _ _ _ fun e t => State.withdrawWayin_mem t gid e.1 e.2

@[simp] theorem State.reportKill_mem (s : State) (g : Group) (k : Word × Word × Nat × Pc × DWord) : (s.reportKill g k).mem = s.mem := by
  unfold State.reportKill
  split <;> rfl

@[simp] theorem State.killGroup_mem (s : State) (gid : Nat) : (s.killGroup gid).mem = s.mem := by
  unfold State.killGroup
  split
  · rfl
  · dsimp only
    rw [State.settleEnd_mem]
    exact each_mem _ _ _ fun e t => State.dropKeys_mem t gid e.1 false e.2.keys

@[simp] theorem State.tryEnter_mem (s : State) (gid : Nat) : (s.tryEnter gid).mem = s.mem := by
  unfold State.tryEnter
  split
  · rfl
  · split
    · rfl
    · split
      · rfl
      · split
        · exact (State.killGroup_mem _ _).trans (State.reportKill_mem _ _ _)
        · split
          · exact State.stopWaits_mem s gid
          · rfl

@[simp] theorem State.stopFor_mem (s : State) (gid : Nat) (t : Trap) : (s.stopFor gid t).mem = s.mem := by
  unfold State.stopFor
  dsimp only
  split
  · exact State.stopWaits_mem s gid
  · rfl

@[simp] theorem State.linkUsed_mem (s : State) (gid : Nat) (cause : BitVec 8) : (s.linkUsed gid cause).mem = s.mem := by
  unfold State.linkUsed
  split
  · split <;> rfl
  · rfl

@[simp] theorem State.deliverTrap_mem (s : State) (gid : Nat) (g : Group) (t : Trap) : (s.deliverTrap gid g t).mem = s.mem := by
  unfold State.deliverTrap
  split
  · exact State.stopFor_mem _ _ _
  · rw [State.stopFor_mem]
    exact State.withdrawKeys_mem _ _ _ _

@[simp] theorem State.presentTrapAt_mem (s : State) (gid : Nat) (t : Trap) (op : Option Nat) (born : Nat) : (s.presentTrapAt gid t op born).mem = s.mem := by
  unfold State.presentTrapAt
  split
  · rfl
  · dsimp only
    split
    · rfl
    · split
      · split <;> split
        · exact (State.killGroup_mem _ _).trans (State.reportKill_mem _ _ _)
        · rfl
        · exact (State.killGroup_mem _ _).trans (State.reportKill_mem _ _ _)
        · rfl
      · split
        · split
          · exact State.stopFor_mem _ _ _
          · rfl
        · split
          · rfl
          · exact State.deliverTrap_mem _ _ _ _

@[simp] theorem State.presentTrap_mem (s : State) (gid : Nat) (t : Trap) (op : Option Nat) : (s.presentTrap gid t op).mem = s.mem :=
  State.presentTrapAt_mem s gid t op _

/-- What a word comes to in memory: what its effect did, where it has one. -/
theorem Ops.settle_mem (u : Issue) (r : Res) (s : State) :
    (Ops.settle u r s).mem = match r with
      | .ok t => if u.probe = true then s.mem else t.mem
      | .jump t => if u.probe = true then s.mem else t.mem
      | .trapWalked w _ => w.mem
      | _ => s.mem := by
  cases r with
  | ok t => simp only [Ops.settle]; split <;> rfl
  | jump t => simp only [Ops.settle]; split <;> rfl
  | stall => rfl
  | trap t =>
    simp only [Ops.settle]
    split
    · rfl
    · exact (State.presentTrap_mem _ _ t none).trans (State.linkUsed_mem s _ _)
  | trapWalked w t =>
    simp only [Ops.settle]
    split
    · rfl
    · exact (State.presentTrap_mem _ _ t none).trans (State.linkUsed_mem w _ _)

end Sys2Proof.Machine
end

