-- ==== Sys2Proof/Laws/Ops.lean ====
section
/-! SUPPORT. What each shared operation can do: the frame of a word, the operand forms, register and memory writes. -/

set_option Elab.async false

namespace Sys2Proof.Machine

/-! The frame of a word. -/

theorem Ops.check_clear {sig : Sig} {c : Ctx} {s : State} (hp : sig.priv = true → s.privOf c.g = true) (ho : sig.opnd = true)
    (h : Clear s c sig.uses) : Ops.check sig c s = none := by
  obtain ⟨h1, h2, h3, h4⟩ := h
  have e1 : (sig.priv && !s.privOf c.g) = false := by cases hs : sig.priv <;> simp_all
  have e3 : (!c.g.held && sig.uses.any fun u => u.list.any fun r => decide (48 ≤ r) && decide (r < 96)) = false := by
    rcases h3 with h3 | h3
    · simp [h3]
    · have : (sig.uses.any fun u => u.list.any fun r => decide (48 ≤ r) && decide (r < 96)) = false := by
        simp only [List.any_eq_false]
        intro x hx
        simp only [Bool.not_eq_true, List.any_eq_false]
        intro r hr
        have := h3 x hx r hr
        simp; omega
      simp [this]
  have e4 : sig.uses.any c.pending = false := by simpa [List.any_eq_false] using h1
  have e5 : sig.uses.any (c.tokenPending s) = false := by simpa [List.any_eq_false] using h2
  have e6 : ((c.g.fencing.isSome || c.g.acquiring) && Word.waitsFence c.u.word) = false := by rcases h4 with ⟨h4, h5⟩ | h4 <;> simp [*]
  simp [Ops.check, e1, ho, e3, e4, e5, e6]

/-- A privileged word in an unprivileged launch (16 R326, Table ENC-9 step 4). -/
theorem Ops.check_priv {sig : Sig} {c : Ctx} {s : State} (hn : c.u.snap = none) (hp : sig.priv = true) (h : s.privOf c.g = false) :
    Ops.check sig c s = some (.trap (c.trap 4 0x06)) := by
  simp [Ops.check, hn, hp, h]

/-- Operands out of their limits (Table ENC-9 step 5). -/
theorem Ops.check_opnd {sig : Sig} {c : Ctx} {s : State} (hn : c.u.snap = none) (hp : sig.priv = true → s.privOf c.g = true) (ho : sig.opnd = false) :
    Ops.check sig c s = some (.trap (c.trap 5 0x05)) := by
  have e1 : (sig.priv && !s.privOf c.g) = false := by cases hs : sig.priv <;> simp_all
  simp [Ops.check, hn, e1, ho]

theorem Ops.wordBy_eq {sig : Ctx → State → Sig} {body : Ctx → State → Res} {s : State} {u : Issue} {g : Group} (hi : Issuing s u g) :
    Ops.wordBy sig body s = .next (Ops.settle u ((Ops.check (sig (u.ctx g) s) (u.ctx g) s).getD (body (u.ctx g) s)) s) := by
  obtain ⟨h1, h2, _⟩ := hi
  simp [Ops.wordBy, h1, h2]

theorem Ops.settle_ok {u : Issue} {s t : State} (h : u.probe = false) : Ops.settle u (.ok t) s = t.wordDone u := by
  simp [Ops.settle, h, State.wordDone]
theorem Ops.settle_jump {u : Issue} {s t : State} (h : u.probe = false) : Ops.settle u (.jump t) s = t.wordJumped u := by
  simp [Ops.settle, h, State.wordJumped]
theorem State.linkUsed_other {s : State} {gid : Nat} {cause : BitVec 8} (h : cause ≠ 0x1B) : s.linkUsed gid cause = s := if_neg h
theorem Ops.settle_trap {u : Issue} {s : State} {t : Trap} (h : u.probe = false) : Ops.settle u (.trap t) s = s.wordTrapped u t := by
  simp [Ops.settle, h, State.wordTrapped]
/-- A pointer's fault: the trap of a word whose walks have left what they passed held (08 R172). -/
theorem Ops.settle_trapWalked {u : Issue} {s w : State} {t : Trap} (h : u.probe = false) : Ops.settle u (.trapWalked w t) s = w.wordTrapped u t := by
  simp [Ops.settle, h, State.wordTrapped]
theorem Ops.settle_stall {u : Issue} {s : State} : Ops.settle u .stall s = s.wordWaits u := rfl

/-- A word that is not held back comes to what its body says. -/
theorem Ops.wordBy_clear {sig : Ctx → State → Sig} {body : Ctx → State → Res} {s : State} {u : Issue} {g : Group} (hi : Issuing s u g)
    (hp : (sig (u.ctx g) s).priv = true → s.privOf (u.ctx g).g = true) (ho : (sig (u.ctx g) s).opnd = true)
    (hc : Clear s (u.ctx g) (sig (u.ctx g) s).uses) : Ops.wordBy sig body s = .next (Ops.settle u (body (u.ctx g) s) s) := by
  rw [Ops.wordBy_eq hi, Ops.check_clear hp ho hc]; rfl

theorem Ops.word_clear {sig : Sig} {body : Ctx → State → Res} {s : State} {u : Issue} {g : Group} (hi : Issuing s u g)
    (hp : sig.priv = true → s.privOf (u.ctx g).g = true) (ho : sig.opnd = true) (hc : Clear s (u.ctx g) sig.uses) :
    Ops.word sig body s = .next (Ops.settle u (body (u.ctx g) s) s) :=
  Ops.wordBy_clear (sig := fun _ _ => sig) hi hp ho hc

theorem Ops.word_ok {sig : Sig} {body : Ctx → State → Res} {s t : State} {u : Issue} {g : Group} (hi : Issuing s u g)
    (hp : sig.priv = true → s.privOf (u.ctx g).g = true) (ho : sig.opnd = true) (hc : Clear s (u.ctx g) sig.uses)
    (hb : body (u.ctx g) s = .ok t) : Ops.word sig body s = .next (t.wordDone u) := by
  rw [Ops.word_clear hi hp ho hc, hb, Ops.settle_ok hi.2.2]

theorem Ops.word_jump {sig : Sig} {body : Ctx → State → Res} {s t : State} {u : Issue} {g : Group} (hi : Issuing s u g)
    (hp : sig.priv = true → s.privOf (u.ctx g).g = true) (ho : sig.opnd = true) (hc : Clear s (u.ctx g) sig.uses)
    (hb : body (u.ctx g) s = .jump t) : Ops.word sig body s = .next (t.wordJumped u) := by
  rw [Ops.word_clear hi hp ho hc, hb, Ops.settle_jump hi.2.2]

theorem Ops.word_trap {sig : Sig} {body : Ctx → State → Res} {s : State} {x : Trap} {u : Issue} {g : Group} (hi : Issuing s u g)
    (hp : sig.priv = true → s.privOf (u.ctx g).g = true) (ho : sig.opnd = true) (hc : Clear s (u.ctx g) sig.uses)
    (hb : body (u.ctx g) s = .trap x) : Ops.word sig body s = .next (s.wordTrapped u x) := by
  rw [Ops.word_clear hi hp ho hc, hb, Ops.settle_trap hi.2.2]

theorem Ops.word_trapWalked {sig : Sig} {body : Ctx → State → Res} {s w : State} {x : Trap} {u : Issue} {g : Group} (hi : Issuing s u g)
    (hp : sig.priv = true → s.privOf (u.ctx g).g = true) (ho : sig.opnd = true) (hc : Clear s (u.ctx g) sig.uses)
    (hb : body (u.ctx g) s = .trapWalked w x) : Ops.word sig body s = .next (w.wordTrapped u x) := by
  rw [Ops.word_clear hi hp ho hc, hb, Ops.settle_trapWalked hi.2.2]

/-- A word either finds no issue, or answers a next state: no instruction word refuses. -/
theorem Ops.wordBy_cases (sig : Ctx → State → Sig) (body : Ctx → State → Res) (s : State) :
    Ops.wordBy sig body s = .fault .noIssuer ∨
    ∃ u g, s.cur = some u ∧ Tab.find s.groups u.group = some g ∧
      Ops.wordBy sig body s = .next (Ops.settle u ((Ops.check (sig (u.ctx g) s) (u.ctx g) s).getD (body (u.ctx g) s)) s) := by
  unfold Ops.wordBy
  cases h1 : s.cur with
  | none => exact .inl rfl
  | some u => cases h2 : Tab.find s.groups u.group with
    | none => left; simp [h2]
    | some g => exact .inr ⟨u, g, rfl, h2, by simp [h2]⟩

end Sys2Proof.Machine
end

