-- ==== Sys2Proof/Laws/PerInstr.lean ====
section
/-! SUPPORT. The encoding law, one lemma per constructor of Instr: a well-formed instruction is what its own word decodes to, whatever the chain
bit. The word formats come first: each encoder stays within its bits, and each decoder reads back what its encoder placed. -/

set_option Elab.async false

namespace Sys2Proof.Laws

theorem toNat_wordOf (c : BitVec 1) (major p : Nat) (hm : major < 64) (hp : p < 33554432) :
    (wordOf c major p).toNat = c.toNat * 2147483648 + major * 33554432 + p := by
  have := c.isLt
  simp only [wordOf, BitVec.toNat_ofNat]
  omega

theorem major_wordOf (c : BitVec 1) (major p : Nat) (hm : major < 64) (hp : p < 33554432) :
    (wordOf c major p).toNat / 33554432 % 64 = major := by
  rw [toNat_wordOf c major p hm hp]; omega

theorem payload_wordOf (c : BitVec 1) (major p : Nat) (hm : major < 64) (hp : p < 33554432) :
    (wordOf c major p).toNat % 33554432 = p := by
  rw [toNat_wordOf c major p hm hp]; omega

theorem ofNat_eq_of_mod {w : Nat} (x : BitVec w) (n : Nat) (h : n % 2 ^ w = x.toNat) : BitVec.ofNat w n = x := by
  apply BitVec.eq_of_toNat_eq; simpa using h

theorem encBr_lt (n : BitVec 1) (k : BitVec 3) (d : BitVec 21) : Fmt.encBr n k d < 33554432 := by
  unfold Fmt.encBr; have := n.isLt; have := k.isLt; have := d.isLt; omega
theorem decBr_enc (base : Nat) (n : BitVec 1) (k : BitVec 3) (d : BitVec 21) : Fmt.decBr (base * 33554432 + Fmt.encBr n k d) = some (n, k, d) := by
  unfold Fmt.decBr Fmt.encBr
  have := n.isLt; have := k.isLt; have := d.isLt
  simp only [Option.some.injEq, Prod.mk.injEq]
  exact ⟨ofNat_eq_of_mod _ _ (by omega), ofNat_eq_of_mod _ _ (by omega), ofNat_eq_of_mod _ _ (by omega)⟩
theorem encCall_lt (d : BitVec 21) : Fmt.encCall d < 33554432 := by
  unfold Fmt.encCall; have := d.isLt; omega
theorem decCall_enc (base : Nat) (d : BitVec 21) : Fmt.decCall (base * 33554432 + Fmt.encCall d) = some (d) := by
  unfold Fmt.decCall Fmt.encCall
  have := d.isLt
  rw [if_pos (by omega)]
  exact congrArg some (ofNat_eq_of_mod _ _ (by omega))
theorem encFix_lt (x : Nat) (hx : x < 2097152) : Fmt.encFix x < 2097152 := by
  unfold Fmt.encFix; omega
theorem decFix_enc (x : Nat) (base : Nat) (hx : x < 2097152) : Fmt.decFix x (base * 2097152 + Fmt.encFix x) = some () := by
  unfold Fmt.decFix Fmt.encFix
  rw [if_pos (by omega)]
theorem encOpd_lt (p : BitVec 7) : Fmt.encOpd p < 2097152 := by
  unfold Fmt.encOpd; have := p.isLt; omega
theorem decOpd_enc (base : Nat) (p : BitVec 7) : Fmt.decOpd (base * 2097152 + Fmt.encOpd p) = some (p) := by
  unfold Fmt.decOpd Fmt.encOpd
  have := p.isLt
  rw [if_pos (by omega)]
  exact congrArg some (ofNat_eq_of_mod _ _ (by omega))
theorem encJoin_lt (k : BitVec 3) (n : BitVec 14) : Fmt.encJoin k n < 2097152 := by
  unfold Fmt.encJoin; have := k.isLt; have := n.isLt; omega
theorem decJoin_enc (base : Nat) (k : BitVec 3) (n : BitVec 14) : Fmt.decJoin (base * 2097152 + Fmt.encJoin k n) = some (k, n) := by
  unfold Fmt.decJoin Fmt.encJoin
  have := k.isLt; have := n.isLt
  rw [if_pos (by omega)]
  simp only [Option.some.injEq, Prod.mk.injEq]
  exact ⟨ofNat_eq_of_mod _ _ (by omega), ofNat_eq_of_mod _ _ (by omega)⟩
theorem encImm5_lt (n : BitVec 5) : Fmt.encImm5 n < 2097152 := by
  unfold Fmt.encImm5; have := n.isLt; omega
theorem decImm5_enc (base : Nat) (n : BitVec 5) : Fmt.decImm5 (base * 2097152 + Fmt.encImm5 n) = some (n) := by
  unfold Fmt.decImm5 Fmt.encImm5
  have := n.isLt
  rw [if_pos (by omega)]
  exact congrArg some (ofNat_eq_of_mod _ _ (by omega))
theorem encImm14_lt (n : BitVec 14) : Fmt.encImm14 n < 2097152 := by
  unfold Fmt.encImm14; have := n.isLt; omega
theorem decImm14_enc (base : Nat) (n : BitVec 14) : Fmt.decImm14 (base * 2097152 + Fmt.encImm14 n) = some (n) := by
  unfold Fmt.decImm14 Fmt.encImm14
  have := n.isLt
  rw [if_pos (by omega)]
  exact congrArg some (ofNat_eq_of_mod _ _ (by omega))
theorem encImm4_lt (n : BitVec 4) : Fmt.encImm4 n < 2097152 := by
  unfold Fmt.encImm4; have := n.isLt; omega
theorem decImm4_enc (base : Nat) (n : BitVec 4) : Fmt.decImm4 (base * 2097152 + Fmt.encImm4 n) = some (n) := by
  unfold Fmt.decImm4 Fmt.encImm4
  have := n.isLt
  rw [if_pos (by omega)]
  exact congrArg some (ofNat_eq_of_mod _ _ (by omega))
theorem encImm8_lt (n : BitVec 8) : Fmt.encImm8 n < 2097152 := by
  unfold Fmt.encImm8; have := n.isLt; omega
theorem decImm8_enc (base : Nat) (n : BitVec 8) : Fmt.decImm8 (base * 2097152 + Fmt.encImm8 n) = some (n) := by
  unfold Fmt.decImm8 Fmt.encImm8
  have := n.isLt
  rw [if_pos (by omega)]
  exact congrArg some (ofNat_eq_of_mod _ _ (by omega))
theorem encMask3_lt (d : BitVec 3) (a : BitVec 3) (b : BitVec 3) : Fmt.encMask3 d a b < 2097152 := by
  unfold Fmt.encMask3; have := d.isLt; have := a.isLt; have := b.isLt; omega
theorem decMask3_enc (base : Nat) (d : BitVec 3) (a : BitVec 3) (b : BitVec 3) : Fmt.decMask3 (base * 2097152 + Fmt.encMask3 d a b) = some (d, a, b) := by
  unfold Fmt.decMask3 Fmt.encMask3
  have := d.isLt; have := a.isLt; have := b.isLt
  rw [if_pos (by omega)]
  simp only [Option.some.injEq, Prod.mk.injEq]
  exact ⟨ofNat_eq_of_mod _ _ (by omega), ofNat_eq_of_mod _ _ (by omega), ofNat_eq_of_mod _ _ (by omega)⟩
theorem encMask2_lt (d : BitVec 3) (a : BitVec 3) : Fmt.encMask2 d a < 2097152 := by
  unfold Fmt.encMask2; have := d.isLt; have := a.isLt; omega
theorem decMask2_enc (base : Nat) (d : BitVec 3) (a : BitVec 3) : Fmt.decMask2 (base * 2097152 + Fmt.encMask2 d a) = some (d, a) := by
  unfold Fmt.decMask2 Fmt.encMask2
  have := d.isLt; have := a.isLt
  rw [if_pos (by omega)]
  simp only [Option.some.injEq, Prod.mk.injEq]
  exact ⟨ofNat_eq_of_mod _ _ (by omega), ofNat_eq_of_mod _ _ (by omega)⟩
theorem encMask1_lt (d : BitVec 3) : Fmt.encMask1 d < 2097152 := by
  unfold Fmt.encMask1; have := d.isLt; omega
theorem decMask1_enc (base : Nat) (d : BitVec 3) : Fmt.decMask1 (base * 2097152 + Fmt.encMask1 d) = some (d) := by
  unfold Fmt.decMask1 Fmt.encMask1
  have := d.isLt
  rw [if_pos (by omega)]
  exact congrArg some (ofNat_eq_of_mod _ _ (by omega))
theorem encSMask_lt (d : BitVec 7) (a : BitVec 3) : Fmt.encSMask d a < 2097152 := by
  unfold Fmt.encSMask; have := d.isLt; have := a.isLt; omega
theorem decSMask_enc (base : Nat) (d : BitVec 7) (a : BitVec 3) : Fmt.decSMask (base * 2097152 + Fmt.encSMask d a) = some (d, a) := by
  unfold Fmt.decSMask Fmt.encSMask
  have := d.isLt; have := a.isLt
  rw [if_pos (by omega)]
  simp only [Option.some.injEq, Prod.mk.injEq]
  exact ⟨ofNat_eq_of_mod _ _ (by omega), ofNat_eq_of_mod _ _ (by omega)⟩
theorem encMtos_lt (d : BitVec 7) (a : BitVec 3) (q : BitVec 2) : Fmt.encMtos d a q < 2097152 := by
  unfold Fmt.encMtos; have := d.isLt; have := a.isLt; have := q.isLt; omega
theorem decMtos_enc (base : Nat) (d : BitVec 7) (a : BitVec 3) (q : BitVec 2) : Fmt.decMtos (base * 2097152 + Fmt.encMtos d a q) = some (d, a, q) := by
  unfold Fmt.decMtos Fmt.encMtos
  have := d.isLt; have := a.isLt; have := q.isLt
  rw [if_pos (by omega)]
  simp only [Option.some.injEq, Prod.mk.injEq]
  exact ⟨ofNat_eq_of_mod _ _ (by omega), ofNat_eq_of_mod _ _ (by omega), ofNat_eq_of_mod _ _ (by omega)⟩
theorem encStom_lt (d : BitVec 3) (a : BitVec 7) (q : BitVec 2) : Fmt.encStom d a q < 2097152 := by
  unfold Fmt.encStom; have := d.isLt; have := a.isLt; have := q.isLt; omega
theorem decStom_enc (base : Nat) (d : BitVec 3) (a : BitVec 7) (q : BitVec 2) : Fmt.decStom (base * 2097152 + Fmt.encStom d a q) = some (d, a, q) := by
  unfold Fmt.decStom Fmt.encStom
  have := d.isLt; have := a.isLt; have := q.isLt
  rw [if_pos (by omega)]
  simp only [Option.some.injEq, Prod.mk.injEq]
  exact ⟨ofNat_eq_of_mod _ _ (by omega), ofNat_eq_of_mod _ _ (by omega), ofNat_eq_of_mod _ _ (by omega)⟩
theorem encMaskS_lt (d : BitVec 3) (a : BitVec 7) : Fmt.encMaskS d a < 2097152 := by
  unfold Fmt.encMaskS; have := d.isLt; have := a.isLt; omega
theorem decMaskS_enc (base : Nat) (d : BitVec 3) (a : BitVec 7) : Fmt.decMaskS (base * 2097152 + Fmt.encMaskS d a) = some (d, a) := by
  unfold Fmt.decMaskS Fmt.encMaskS
  have := d.isLt; have := a.isLt
  rw [if_pos (by omega)]
  simp only [Option.some.injEq, Prod.mk.injEq]
  exact ⟨ofNat_eq_of_mod _ _ (by omega), ofNat_eq_of_mod _ _ (by omega)⟩
theorem encRrr_lt (d : BitVec 7) (a : BitVec 7) (b : BitVec 7) : Fmt.encRrr d a b < 2097152 := by
  unfold Fmt.encRrr; have := d.isLt; have := a.isLt; have := b.isLt; omega
theorem decRrr_enc (base : Nat) (d : BitVec 7) (a : BitVec 7) (b : BitVec 7) : Fmt.decRrr (base * 2097152 + Fmt.encRrr d a b) = some (d, a, b) := by
  unfold Fmt.decRrr Fmt.encRrr
  have := d.isLt; have := a.isLt; have := b.isLt
  simp only [Option.some.injEq, Prod.mk.injEq]
  exact ⟨ofNat_eq_of_mod _ _ (by omega), ofNat_eq_of_mod _ _ (by omega), ofNat_eq_of_mod _ _ (by omega)⟩
theorem encRr_lt (d : BitVec 7) (a : BitVec 7) : Fmt.encRr d a < 2097152 := by
  unfold Fmt.encRr; have := d.isLt; have := a.isLt; omega
theorem decRr_enc (base : Nat) (d : BitVec 7) (a : BitVec 7) : Fmt.decRr (base * 2097152 + Fmt.encRr d a) = some (d, a) := by
  unfold Fmt.decRr Fmt.encRr
  have := d.isLt; have := a.isLt
  rw [if_pos (by omega)]
  simp only [Option.some.injEq, Prod.mk.injEq]
  exact ⟨ofNat_eq_of_mod _ _ (by omega), ofNat_eq_of_mod _ _ (by omega)⟩
theorem encSel_lt (k : BitVec 3) (d : BitVec 7) (a : BitVec 7) (b : BitVec 7) : Fmt.encSel k d a b < 16777216 := by
  unfold Fmt.encSel; have := k.isLt; have := d.isLt; have := a.isLt; have := b.isLt; omega
theorem decSel_enc (base : Nat) (k : BitVec 3) (d : BitVec 7) (a : BitVec 7) (b : BitVec 7) : Fmt.decSel (base * 16777216 + Fmt.encSel k d a b) = some (k, d, a, b) := by
  unfold Fmt.decSel Fmt.encSel
  have := k.isLt; have := d.isLt; have := a.isLt; have := b.isLt
  simp only [Option.some.injEq, Prod.mk.injEq]
  exact ⟨ofNat_eq_of_mod _ _ (by omega), ofNat_eq_of_mod _ _ (by omega), ofNat_eq_of_mod _ _ (by omega), ofNat_eq_of_mod _ _ (by omega)⟩
theorem encRi_lt (d : BitVec 7) (a : BitVec 7) (i : BitVec 11) : Fmt.encRi d a i < 33554432 := by
  unfold Fmt.encRi; have := d.isLt; have := a.isLt; have := i.isLt; omega
theorem decRi_enc (base : Nat) (d : BitVec 7) (a : BitVec 7) (i : BitVec 11) : Fmt.decRi (base * 33554432 + Fmt.encRi d a i) = some (d, a, i) := by
  unfold Fmt.decRi Fmt.encRi
  have := d.isLt; have := a.isLt; have := i.isLt
  simp only [Option.some.injEq, Prod.mk.injEq]
  exact ⟨ofNat_eq_of_mod _ _ (by omega), ofNat_eq_of_mod _ _ (by omega), ofNat_eq_of_mod _ _ (by omega)⟩
theorem encWi_lt (d : BitVec 7) (i : BitVec 16) : Fmt.encWi d i < 33554432 := by
  unfold Fmt.encWi; have := d.isLt; have := i.isLt; omega
theorem decWi_enc (base : Nat) (d : BitVec 7) (i : BitVec 16) : Fmt.decWi (base * 33554432 + Fmt.encWi d i) = some (d, i) := by
  unfold Fmt.decWi Fmt.encWi
  have := d.isLt; have := i.isLt
  simp only [Option.some.injEq, Prod.mk.injEq]
  exact ⟨ofNat_eq_of_mod _ _ (by omega), ofNat_eq_of_mod _ _ (by omega)⟩
theorem encCmp_lt (d : BitVec 3) (a : BitVec 7) (b : BitVec 7) : Fmt.encCmp d a b < 2097152 := by
  unfold Fmt.encCmp; have := d.isLt; have := a.isLt; have := b.isLt; omega
theorem decCmp_enc (base : Nat) (d : BitVec 3) (a : BitVec 7) (b : BitVec 7) : Fmt.decCmp (base * 2097152 + Fmt.encCmp d a b) = some (d, a, b) := by
  unfold Fmt.decCmp Fmt.encCmp
  have := d.isLt; have := a.isLt; have := b.isLt
  rw [if_pos (by omega)]
  simp only [Option.some.injEq, Prod.mk.injEq]
  exact ⟨ofNat_eq_of_mod _ _ (by omega), ofNat_eq_of_mod _ _ (by omega), ofNat_eq_of_mod _ _ (by omega)⟩
theorem encMsadB4_lt (min : BitVec 4) (d : BitVec 7) (a : BitVec 7) (b : BitVec 7) : Fmt.encMsadB4 min d a b < 33554432 := by
  unfold Fmt.encMsadB4; have := min.isLt; have := d.isLt; have := a.isLt; have := b.isLt; omega
theorem decMsadB4_enc (base : Nat) (min : BitVec 4) (d : BitVec 7) (a : BitVec 7) (b : BitVec 7) : Fmt.decMsadB4 (base * 33554432 + Fmt.encMsadB4 min d a b) = some (min, d, a, b) := by
  unfold Fmt.decMsadB4 Fmt.encMsadB4
  have := min.isLt; have := d.isLt; have := a.isLt; have := b.isLt
  simp only [Option.some.injEq, Prod.mk.injEq]
  exact ⟨ofNat_eq_of_mod _ _ (by omega), ofNat_eq_of_mod _ _ (by omega), ofNat_eq_of_mod _ _ (by omega), ofNat_eq_of_mod _ _ (by omega)⟩
theorem encAb_lt (a : BitVec 7) (b : BitVec 7) : Fmt.encAb a b < 2097152 := by
  unfold Fmt.encAb; have := a.isLt; have := b.isLt; omega
theorem decAb_enc (base : Nat) (a : BitVec 7) (b : BitVec 7) : Fmt.decAb (base * 2097152 + Fmt.encAb a b) = some (a, b) := by
  unfold Fmt.decAb Fmt.encAb
  have := a.isLt; have := b.isLt
  rw [if_pos (by omega)]
  simp only [Option.some.injEq, Prod.mk.injEq]
  exact ⟨ofNat_eq_of_mod _ _ (by omega), ofNat_eq_of_mod _ _ (by omega)⟩
theorem encMem_lt (d : BitVec 7) (a : BitVec 7) (o : BitVec 8) : Fmt.encMem d a o < 4194304 := by
  unfold Fmt.encMem; have := d.isLt; have := a.isLt; have := o.isLt; omega
theorem decMem_enc (base : Nat) (d : BitVec 7) (a : BitVec 7) (o : BitVec 8) : Fmt.decMem (base * 4194304 + Fmt.encMem d a o) = some (d, a, o) := by
  unfold Fmt.decMem Fmt.encMem
  have := d.isLt; have := a.isLt; have := o.isLt
  simp only [Option.some.injEq, Prod.mk.injEq]
  exact ⟨ofNat_eq_of_mod _ _ (by omega), ofNat_eq_of_mod _ _ (by omega), ofNat_eq_of_mod _ _ (by omega)⟩
theorem encSync_lt (s : BitVec 2) (d : BitVec 7) (a : BitVec 7) : Fmt.encSync s d a < 8388608 := by
  unfold Fmt.encSync; have := s.isLt; have := d.isLt; have := a.isLt; omega
theorem decSync_enc (base : Nat) (s : BitVec 2) (d : BitVec 7) (a : BitVec 7) : Fmt.decSync (base * 8388608 + Fmt.encSync s d a) = some (s, d, a) := by
  unfold Fmt.decSync Fmt.encSync
  have := s.isLt; have := d.isLt; have := a.isLt
  rw [if_pos (by omega)]
  simp only [Option.some.injEq, Prod.mk.injEq]
  exact ⟨ofNat_eq_of_mod _ _ (by omega), ofNat_eq_of_mod _ _ (by omega), ofNat_eq_of_mod _ _ (by omega)⟩
theorem encFence_lt (r : BitVec 1) (q : BitVec 1) (s : BitVec 2) : Fmt.encFence r q s < 2097152 := by
  unfold Fmt.encFence; have := r.isLt; have := q.isLt; have := s.isLt; omega
theorem decFence_enc (base : Nat) (r : BitVec 1) (q : BitVec 1) (s : BitVec 2) : Fmt.decFence (base * 2097152 + Fmt.encFence r q s) = some (r, q, s) := by
  unfold Fmt.decFence Fmt.encFence
  have := r.isLt; have := q.isLt; have := s.isLt
  rw [if_pos (by omega)]
  simp only [Option.some.injEq, Prod.mk.injEq]
  exact ⟨ofNat_eq_of_mod _ _ (by omega), ofNat_eq_of_mod _ _ (by omega), ofNat_eq_of_mod _ _ (by omega)⟩
theorem encPfence_lt (p : BitVec 4) : Fmt.encPfence p < 2097152 := by
  unfold Fmt.encPfence; have := p.isLt; omega
theorem decPfence_enc (base : Nat) (p : BitVec 4) : Fmt.decPfence (base * 2097152 + Fmt.encPfence p) = some (p) := by
  unfold Fmt.decPfence Fmt.encPfence
  have := p.isLt
  rw [if_pos (by omega)]
  exact congrArg some (ofNat_eq_of_mod _ _ (by omega))
theorem encPref_lt (a : BitVec 7) (o : BitVec 8) : Fmt.encPref a o < 4194304 := by
  unfold Fmt.encPref; have := a.isLt; have := o.isLt; omega
theorem decPref_enc (base : Nat) (a : BitVec 7) (o : BitVec 8) : Fmt.decPref (base * 4194304 + Fmt.encPref a o) = some (a, o) := by
  unfold Fmt.decPref Fmt.encPref
  have := a.isLt; have := o.isLt
  rw [if_pos (by omega)]
  simp only [Option.some.injEq, Prod.mk.injEq]
  exact ⟨ofNat_eq_of_mod _ _ (by omega), ofNat_eq_of_mod _ _ (by omega)⟩
theorem encA_lt (a : BitVec 7) : Fmt.encA a < 2097152 := by
  unfold Fmt.encA; have := a.isLt; omega
theorem decA_enc (base : Nat) (a : BitVec 7) : Fmt.decA (base * 2097152 + Fmt.encA a) = some (a) := by
  unfold Fmt.decA Fmt.encA
  have := a.isLt
  rw [if_pos (by omega)]
  exact congrArg some (ofNat_eq_of_mod _ _ (by omega))
theorem encBarArrive_lt (x : Nat) (o : BitVec 7) (hx : x < 16384) : Fmt.encBarArrive x o < 2097152 := by
  unfold Fmt.encBarArrive; have := o.isLt; omega
theorem decBarArrive_enc (x : Nat) (base : Nat) (o : BitVec 7) (hx : x < 16384) : Fmt.decBarArrive x (base * 2097152 + Fmt.encBarArrive x o) = some (o) := by
  unfold Fmt.decBarArrive Fmt.encBarArrive
  have := o.isLt
  rw [if_pos (by omega)]
  exact congrArg some (ofNat_eq_of_mod _ _ (by omega))
theorem encBarAlloc_lt (d : BitVec 7) (n : BitVec 6) : Fmt.encBarAlloc d n < 2097152 := by
  unfold Fmt.encBarAlloc; have := d.isLt; have := n.isLt; omega
theorem decBarAlloc_enc (base : Nat) (d : BitVec 7) (n : BitVec 6) : Fmt.decBarAlloc (base * 2097152 + Fmt.encBarAlloc d n) = some (d, n) := by
  unfold Fmt.decBarAlloc Fmt.encBarAlloc
  have := d.isLt; have := n.isLt
  rw [if_pos (by omega)]
  simp only [Option.some.injEq, Prod.mk.injEq]
  exact ⟨ofNat_eq_of_mod _ _ (by omega), ofNat_eq_of_mod _ _ (by omega)⟩
theorem encImm2_lt (n : BitVec 2) : Fmt.encImm2 n < 2097152 := by
  unfold Fmt.encImm2; have := n.isLt; omega
theorem decImm2_enc (base : Nat) (n : BitVec 2) : Fmt.decImm2 (base * 2097152 + Fmt.encImm2 n) = some (n) := by
  unfold Fmt.decImm2 Fmt.encImm2
  have := n.isLt
  rw [if_pos (by omega)]
  exact congrArg some (ofNat_eq_of_mod _ _ (by omega))
theorem encSpawn_lt (d : BitVec 7) (i : BitVec 14) : Fmt.encSpawn d i < 2097152 := by
  unfold Fmt.encSpawn; have := d.isLt; have := i.isLt; omega
theorem decSpawn_enc (base : Nat) (d : BitVec 7) (i : BitVec 14) : Fmt.decSpawn (base * 2097152 + Fmt.encSpawn d i) = some (d, i) := by
  unfold Fmt.decSpawn Fmt.encSpawn
  have := d.isLt; have := i.isLt
  simp only [Option.some.injEq, Prod.mk.injEq]
  exact ⟨ofNat_eq_of_mod _ _ (by omega), ofNat_eq_of_mod _ _ (by omega)⟩
theorem encLaunch_lt (p : BitVec 7) (n : BitVec 2) : Fmt.encLaunch p n < 2097152 := by
  unfold Fmt.encLaunch; have := p.isLt; have := n.isLt; omega
theorem decLaunch_enc (base : Nat) (p : BitVec 7) (n : BitVec 2) : Fmt.decLaunch (base * 2097152 + Fmt.encLaunch p n) = some (p, n) := by
  unfold Fmt.decLaunch Fmt.encLaunch
  have := p.isLt; have := n.isLt
  rw [if_pos (by omega)]
  simp only [Option.some.injEq, Prod.mk.injEq]
  exact ⟨ofNat_eq_of_mod _ _ (by omega), ofNat_eq_of_mod _ _ (by omega)⟩
theorem encEng_lt (x : Nat) (t : BitVec 5) (p : BitVec 5) (s : BitVec 2) (q : BitVec 1) (r : BitVec 1) (hx : x < 128) : Fmt.encEng x t p s q r < 2097152 := by
  unfold Fmt.encEng; have := t.isLt; have := p.isLt; have := s.isLt; have := q.isLt; have := r.isLt; omega
theorem decEng_enc (x : Nat) (base : Nat) (t : BitVec 5) (p : BitVec 5) (s : BitVec 2) (q : BitVec 1) (r : BitVec 1) (hx : x < 128) : Fmt.decEng x (base * 2097152 + Fmt.encEng x t p s q r) = some (t, p, s, q, r) := by
  unfold Fmt.decEng Fmt.encEng
  have := t.isLt; have := p.isLt; have := s.isLt; have := q.isLt; have := r.isLt
  rw [if_pos (by omega)]
  simp only [Option.some.injEq, Prod.mk.injEq]
  exact ⟨ofNat_eq_of_mod _ _ (by omega), ofNat_eq_of_mod _ _ (by omega), ofNat_eq_of_mod _ _ (by omega), ofNat_eq_of_mod _ _ (by omega), ofNat_eq_of_mod _ _ (by omega)⟩
theorem encTmma_lt (t : BitVec 5) (a : BitVec 3) (o : BitVec 6) (b : BitVec 6) (z : BitVec 1) : Fmt.encTmma t a o b z < 2097152 := by
  unfold Fmt.encTmma; have := t.isLt; have := a.isLt; have := o.isLt; have := b.isLt; have := z.isLt; omega
theorem decTmma_enc (base : Nat) (t : BitVec 5) (a : BitVec 3) (o : BitVec 6) (b : BitVec 6) (z : BitVec 1) : Fmt.decTmma (base * 2097152 + Fmt.encTmma t a o b z) = some (t, a, o, b, z) := by
  unfold Fmt.decTmma Fmt.encTmma
  have := t.isLt; have := a.isLt; have := o.isLt; have := b.isLt; have := z.isLt
  simp only [Option.some.injEq, Prod.mk.injEq]
  exact ⟨ofNat_eq_of_mod _ _ (by omega), ofNat_eq_of_mod _ _ (by omega), ofNat_eq_of_mod _ _ (by omega), ofNat_eq_of_mod _ _ (by omega), ofNat_eq_of_mod _ _ (by omega)⟩
theorem encTAcc_lt (x : Nat) (t : BitVec 5) (a : BitVec 3) (hx : x < 8192) : Fmt.encTAcc x t a < 2097152 := by
  unfold Fmt.encTAcc; have := t.isLt; have := a.isLt; omega
theorem decTAcc_enc (x : Nat) (base : Nat) (t : BitVec 5) (a : BitVec 3) (hx : x < 8192) : Fmt.decTAcc x (base * 2097152 + Fmt.encTAcc x t a) = some (t, a) := by
  unfold Fmt.decTAcc Fmt.encTAcc
  have := t.isLt; have := a.isLt
  rw [if_pos (by omega)]
  simp only [Option.some.injEq, Prod.mk.injEq]
  exact ⟨ofNat_eq_of_mod _ _ (by omega), ofNat_eq_of_mod _ _ (by omega)⟩
theorem encTMove_lt (t : BitVec 5) (a : BitVec 3) (p : BitVec 5) (v : BitVec 2) : Fmt.encTMove t a p v < 2097152 := by
  unfold Fmt.encTMove; have := t.isLt; have := a.isLt; have := p.isLt; have := v.isLt; omega
theorem decTMove_enc (base : Nat) (t : BitVec 5) (a : BitVec 3) (p : BitVec 5) (v : BitVec 2) : Fmt.decTMove (base * 2097152 + Fmt.encTMove t a p v) = some (t, a, p, v) := by
  unfold Fmt.decTMove Fmt.encTMove
  have := t.isLt; have := a.isLt; have := p.isLt; have := v.isLt
  rw [if_pos (by omega)]
  simp only [Option.some.injEq, Prod.mk.injEq]
  exact ⟨ofNat_eq_of_mod _ _ (by omega), ofNat_eq_of_mod _ _ (by omega), ofNat_eq_of_mod _ _ (by omega), ofNat_eq_of_mod _ _ (by omega)⟩
theorem encTclaim_lt (x : Nat) (t : BitVec 5) (d : BitVec 5) (n : BitVec 6) (hx : x < 2) : Fmt.encTclaim x t d n < 2097152 := by
  unfold Fmt.encTclaim; have := t.isLt; have := d.isLt; have := n.isLt; omega
theorem decTclaim_enc (x : Nat) (base : Nat) (t : BitVec 5) (d : BitVec 5) (n : BitVec 6) (hx : x < 2) : Fmt.decTclaim x (base * 2097152 + Fmt.encTclaim x t d n) = some (t, d, n) := by
  unfold Fmt.decTclaim Fmt.encTclaim
  have := t.isLt; have := d.isLt; have := n.isLt
  rw [if_pos (by omega)]
  simp only [Option.some.injEq, Prod.mk.injEq]
  exact ⟨ofNat_eq_of_mod _ _ (by omega), ofNat_eq_of_mod _ _ (by omega), ofNat_eq_of_mod _ _ (by omega)⟩
theorem encTrelSlot_lt (t : BitVec 5) (o : BitVec 6) : Fmt.encTrelSlot t o < 2097152 := by
  unfold Fmt.encTrelSlot; have := t.isLt; have := o.isLt; omega
theorem decTrelSlot_enc (base : Nat) (t : BitVec 5) (o : BitVec 6) : Fmt.decTrelSlot (base * 2097152 + Fmt.encTrelSlot t o) = some (t, o) := by
  unfold Fmt.decTrelSlot Fmt.encTrelSlot
  have := t.isLt; have := o.isLt
  rw [if_pos (by omega)]
  simp only [Option.some.injEq, Prod.mk.injEq]
  exact ⟨ofNat_eq_of_mod _ _ (by omega), ofNat_eq_of_mod _ _ (by omega)⟩
theorem encTcfg_lt (t : BitVec 5) (a : BitVec 3) (m : BitVec 2) (k : BitVec 2) : Fmt.encTcfg t a m k < 2097152 := by
  unfold Fmt.encTcfg; have := t.isLt; have := a.isLt; have := m.isLt; have := k.isLt; omega
theorem decTcfg_enc (base : Nat) (t : BitVec 5) (a : BitVec 3) (m : BitVec 2) (k : BitVec 2) : Fmt.decTcfg (base * 2097152 + Fmt.encTcfg t a m k) = some (t, a, m, k) := by
  unfold Fmt.decTcfg Fmt.encTcfg
  have := t.isLt; have := a.isLt; have := m.isLt; have := k.isLt
  rw [if_pos (by omega)]
  simp only [Option.some.injEq, Prod.mk.injEq]
  exact ⟨ofNat_eq_of_mod _ _ (by omega), ofNat_eq_of_mod _ _ (by omega), ofNat_eq_of_mod _ _ (by omega), ofNat_eq_of_mod _ _ (by omega)⟩
theorem encChexp_lt (p : BitVec 5) (d : BitVec 4) (k : BitVec 3) (e : BitVec 2) : Fmt.encChexp p d k e < 2097152 := by
  unfold Fmt.encChexp; have := p.isLt; have := d.isLt; have := k.isLt; have := e.isLt; omega
theorem decChexp_enc (base : Nat) (p : BitVec 5) (d : BitVec 4) (k : BitVec 3) (e : BitVec 2) : Fmt.decChexp (base * 2097152 + Fmt.encChexp p d k e) = some (p, d, k, e) := by
  unfold Fmt.decChexp Fmt.encChexp
  have := p.isLt; have := d.isLt; have := k.isLt; have := e.isLt
  rw [if_pos (by omega)]
  simp only [Option.some.injEq, Prod.mk.injEq]
  exact ⟨ofNat_eq_of_mod _ _ (by omega), ofNat_eq_of_mod _ _ (by omega), ofNat_eq_of_mod _ _ (by omega), ofNat_eq_of_mod _ _ (by omega)⟩
theorem encChop3_lt (x : Nat) (d : BitVec 4) (a : BitVec 4) (b : BitVec 4) (hx : x < 16) : Fmt.encChop3 x d a b < 2097152 := by
  unfold Fmt.encChop3; have := d.isLt; have := a.isLt; have := b.isLt; omega
theorem decChop3_enc (x : Nat) (base : Nat) (d : BitVec 4) (a : BitVec 4) (b : BitVec 4) (hx : x < 16) : Fmt.decChop3 x (base * 2097152 + Fmt.encChop3 x d a b) = some (d, a, b) := by
  unfold Fmt.decChop3 Fmt.encChop3
  have := d.isLt; have := a.isLt; have := b.isLt
  rw [if_pos (by omega)]
  simp only [Option.some.injEq, Prod.mk.injEq]
  exact ⟨ofNat_eq_of_mod _ _ (by omega), ofNat_eq_of_mod _ _ (by omega), ofNat_eq_of_mod _ _ (by omega)⟩
theorem encChop2_lt (x : Nat) (d : BitVec 4) (a : BitVec 4) (hx : x < 16) : Fmt.encChop2 x d a < 2097152 := by
  unfold Fmt.encChop2; have := d.isLt; have := a.isLt; omega
theorem decChop2_enc (x : Nat) (base : Nat) (d : BitVec 4) (a : BitVec 4) (hx : x < 16) : Fmt.decChop2 x (base * 2097152 + Fmt.encChop2 x d a) = some (d, a) := by
  unfold Fmt.decChop2 Fmt.encChop2
  have := d.isLt; have := a.isLt
  rw [if_pos (by omega)]
  simp only [Option.some.injEq, Prod.mk.injEq]
  exact ⟨ofNat_eq_of_mod _ _ (by omega), ofNat_eq_of_mod _ _ (by omega)⟩
theorem encChopRel_lt (x : Nat) (a : BitVec 4) (b : BitVec 4) (hx : x < 8192) : Fmt.encChopRel x a b < 2097152 := by
  unfold Fmt.encChopRel; have := a.isLt; have := b.isLt; omega
theorem decChopRel_enc (x : Nat) (base : Nat) (a : BitVec 4) (b : BitVec 4) (hx : x < 8192) : Fmt.decChopRel x (base * 2097152 + Fmt.encChopRel x a b) = some (a, b) := by
  unfold Fmt.decChopRel Fmt.encChopRel
  have := a.isLt; have := b.isLt
  rw [if_pos (by omega)]
  simp only [Option.some.injEq, Prod.mk.injEq]
  exact ⟨ofNat_eq_of_mod _ _ (by omega), ofNat_eq_of_mod _ _ (by omega)⟩
theorem encChld_lt (p : BitVec 5) (d : BitVec 4) (t : BitVec 5) (s : BitVec 2) : Fmt.encChld p d t s < 2097152 := by
  unfold Fmt.encChld; have := p.isLt; have := d.isLt; have := t.isLt; have := s.isLt; omega
theorem decChld_enc (base : Nat) (p : BitVec 5) (d : BitVec 4) (t : BitVec 5) (s : BitVec 2) : Fmt.decChld (base * 2097152 + Fmt.encChld p d t s) = some (p, d, t, s) := by
  unfold Fmt.decChld Fmt.encChld
  have := p.isLt; have := d.isLt; have := t.isLt; have := s.isLt
  rw [if_pos (by omega)]
  simp only [Option.some.injEq, Prod.mk.injEq]
  exact ⟨ofNat_eq_of_mod _ _ (by omega), ofNat_eq_of_mod _ _ (by omega), ofNat_eq_of_mod _ _ (by omega), ofNat_eq_of_mod _ _ (by omega)⟩
theorem encChst_lt (p : BitVec 5) (d : BitVec 4) (t : BitVec 5) (s : BitVec 2) (l : BitVec 1) : Fmt.encChst p d t s l < 2097152 := by
  unfold Fmt.encChst; have := p.isLt; have := d.isLt; have := t.isLt; have := s.isLt; have := l.isLt; omega
theorem decChst_enc (base : Nat) (p : BitVec 5) (d : BitVec 4) (t : BitVec 5) (s : BitVec 2) (l : BitVec 1) : Fmt.decChst (base * 2097152 + Fmt.encChst p d t s l) = some (p, d, t, s, l) := by
  unfold Fmt.decChst Fmt.encChst
  have := p.isLt; have := d.isLt; have := t.isLt; have := s.isLt; have := l.isLt
  rw [if_pos (by omega)]
  simp only [Option.some.injEq, Prod.mk.injEq]
  exact ⟨ofNat_eq_of_mod _ _ (by omega), ofNat_eq_of_mod _ _ (by omega), ofNat_eq_of_mod _ _ (by omega), ofNat_eq_of_mod _ _ (by omega), ofNat_eq_of_mod _ _ (by omega)⟩
theorem encChvis_lt (p : BitVec 5) (d : BitVec 4) : Fmt.encChvis p d < 2097152 := by
  unfold Fmt.encChvis; have := p.isLt; have := d.isLt; omega
theorem decChvis_enc (base : Nat) (p : BitVec 5) (d : BitVec 4) : Fmt.decChvis (base * 2097152 + Fmt.encChvis p d) = some (p, d) := by
  unfold Fmt.decChvis Fmt.encChvis
  have := p.isLt; have := d.isLt
  rw [if_pos (by omega)]
  simp only [Option.some.injEq, Prod.mk.injEq]
  exact ⟨ofNat_eq_of_mod _ _ (by omega), ofNat_eq_of_mod _ _ (by omega)⟩
theorem encChown_lt (d : BitVec 5) (e : BitVec 5) : Fmt.encChown d e < 2097152 := by
  unfold Fmt.encChown; have := d.isLt; have := e.isLt; omega
theorem decChown_enc (base : Nat) (d : BitVec 5) (e : BitVec 5) : Fmt.decChown (base * 2097152 + Fmt.encChown d e) = some (d, e) := by
  unfold Fmt.decChown Fmt.encChown
  have := d.isLt; have := e.isLt
  rw [if_pos (by omega)]
  simp only [Option.some.injEq, Prod.mk.injEq]
  exact ⟨ofNat_eq_of_mod _ _ (by omega), ofNat_eq_of_mod _ _ (by omega)⟩
theorem encChorg_lt (s : BitVec 5) : Fmt.encChorg s < 2097152 := by
  unfold Fmt.encChorg; have := s.isLt; omega
theorem decChorg_enc (base : Nat) (s : BitVec 5) : Fmt.decChorg (base * 2097152 + Fmt.encChorg s) = some (s) := by
  unfold Fmt.decChorg Fmt.encChorg
  have := s.isLt
  rw [if_pos (by omega)]
  exact congrArg some (ofNat_eq_of_mod _ _ (by omega))
theorem encChorgRd_lt (x : Nat) (d : BitVec 5) (hx : x < 65536) : Fmt.encChorgRd x d < 2097152 := by
  unfold Fmt.encChorgRd; have := d.isLt; omega
theorem decChorgRd_enc (x : Nat) (base : Nat) (d : BitVec 5) (hx : x < 65536) : Fmt.decChorgRd x (base * 2097152 + Fmt.encChorgRd x d) = some (d) := by
  unfold Fmt.decChorgRd Fmt.encChorgRd
  have := d.isLt
  rw [if_pos (by omega)]
  exact congrArg some (ofNat_eq_of_mod _ _ (by omega))
theorem encChset_lt (s : BitVec 5) (d : BitVec 4) (l : BitVec 1) : Fmt.encChset s d l < 2097152 := by
  unfold Fmt.encChset; have := s.isLt; have := d.isLt; have := l.isLt; omega
theorem decChset_enc (base : Nat) (s : BitVec 5) (d : BitVec 4) (l : BitVec 1) : Fmt.decChset (base * 2097152 + Fmt.encChset s d l) = some (s, d, l) := by
  unfold Fmt.decChset Fmt.encChset
  have := s.isLt; have := d.isLt; have := l.isLt
  rw [if_pos (by omega)]
  simp only [Option.some.injEq, Prod.mk.injEq]
  exact ⟨ofNat_eq_of_mod _ _ (by omega), ofNat_eq_of_mod _ _ (by omega), ofNat_eq_of_mod _ _ (by omega)⟩
theorem encChcubic_lt (x : Nat) (p : BitVec 5) (d : BitVec 4) (e : BitVec 2) (hx : x < 8) : Fmt.encChcubic x p d e < 2097152 := by
  unfold Fmt.encChcubic; have := p.isLt; have := d.isLt; have := e.isLt; omega
theorem decChcubic_enc (x : Nat) (base : Nat) (p : BitVec 5) (d : BitVec 4) (e : BitVec 2) (hx : x < 8) : Fmt.decChcubic x (base * 2097152 + Fmt.encChcubic x p d e) = some (p, d, e) := by
  unfold Fmt.decChcubic Fmt.encChcubic
  have := p.isLt; have := d.isLt; have := e.isLt
  rw [if_pos (by omega)]
  simp only [Option.some.injEq, Prod.mk.injEq]
  exact ⟨ofNat_eq_of_mod _ _ (by omega), ofNat_eq_of_mod _ _ (by omega), ofNat_eq_of_mod _ _ (by omega)⟩
theorem encBkload_lt (t : BitVec 5) (p : BitVec 5) (s : BitVec 2) (q : BitVec 1) (r : BitVec 1) (f : BitVec 1) (sc : BitVec 1) : Fmt.encBkload t p s q r f sc < 2097152 := by
  unfold Fmt.encBkload; have := t.isLt; have := p.isLt; have := s.isLt; have := q.isLt; have := r.isLt; have := f.isLt; have := sc.isLt; omega
theorem decBkload_enc (base : Nat) (t : BitVec 5) (p : BitVec 5) (s : BitVec 2) (q : BitVec 1) (r : BitVec 1) (f : BitVec 1) (sc : BitVec 1) : Fmt.decBkload (base * 2097152 + Fmt.encBkload t p s q r f sc) = some (t, p, s, q, r, f, sc) := by
  unfold Fmt.decBkload Fmt.encBkload
  have := t.isLt; have := p.isLt; have := s.isLt; have := q.isLt; have := r.isLt; have := f.isLt; have := sc.isLt
  rw [if_pos (by omega)]
  simp only [Option.some.injEq, Prod.mk.injEq]
  exact ⟨ofNat_eq_of_mod _ _ (by omega), ofNat_eq_of_mod _ _ (by omega), ofNat_eq_of_mod _ _ (by omega), ofNat_eq_of_mod _ _ (by omega), ofNat_eq_of_mod _ _ (by omega), ofNat_eq_of_mod _ _ (by omega), ofNat_eq_of_mod _ _ (by omega)⟩
theorem encBkmac_lt (t : BitVec 5) (p : BitVec 5) (s : BitVec 2) (q : BitVec 1) (r : BitVec 1) (f : BitVec 1) (z : BitVec 1) : Fmt.encBkmac t p s q r f z < 2097152 := by
  unfold Fmt.encBkmac; have := t.isLt; have := p.isLt; have := s.isLt; have := q.isLt; have := r.isLt; have := f.isLt; have := z.isLt; omega
theorem decBkmac_enc (base : Nat) (t : BitVec 5) (p : BitVec 5) (s : BitVec 2) (q : BitVec 1) (r : BitVec 1) (f : BitVec 1) (z : BitVec 1) : Fmt.decBkmac (base * 2097152 + Fmt.encBkmac t p s q r f z) = some (t, p, s, q, r, f, z) := by
  unfold Fmt.decBkmac Fmt.encBkmac
  have := t.isLt; have := p.isLt; have := s.isLt; have := q.isLt; have := r.isLt; have := f.isLt; have := z.isLt
  rw [if_pos (by omega)]
  simp only [Option.some.injEq, Prod.mk.injEq]
  exact ⟨ofNat_eq_of_mod _ _ (by omega), ofNat_eq_of_mod _ _ (by omega), ofNat_eq_of_mod _ _ (by omega), ofNat_eq_of_mod _ _ (by omega), ofNat_eq_of_mod _ _ (by omega), ofNat_eq_of_mod _ _ (by omega), ofNat_eq_of_mod _ _ (by omega)⟩
theorem encTlbinvPage_lt (o : BitVec 7) (n : BitVec 6) : Fmt.encTlbinvPage o n < 2097152 := by
  unfold Fmt.encTlbinvPage; have := o.isLt; have := n.isLt; omega
theorem decTlbinvPage_enc (base : Nat) (o : BitVec 7) (n : BitVec 6) : Fmt.decTlbinvPage (base * 2097152 + Fmt.encTlbinvPage o n) = some (o, n) := by
  unfold Fmt.decTlbinvPage Fmt.encTlbinvPage
  have := o.isLt; have := n.isLt
  rw [if_pos (by omega)]
  simp only [Option.some.injEq, Prod.mk.injEq]
  exact ⟨ofNat_eq_of_mod _ _ (by omega), ofNat_eq_of_mod _ _ (by omega)⟩
theorem encTlbinvCtx_lt (x : Nat) (n : BitVec 6) (hx : x < 16) : Fmt.encTlbinvCtx x n < 2097152 := by
  unfold Fmt.encTlbinvCtx; have := n.isLt; omega
theorem decTlbinvCtx_enc (x : Nat) (base : Nat) (n : BitVec 6) (hx : x < 16) : Fmt.decTlbinvCtx x (base * 2097152 + Fmt.encTlbinvCtx x n) = some (n) := by
  unfold Fmt.decTlbinvCtx Fmt.encTlbinvCtx
  have := n.isLt
  rw [if_pos (by omega)]
  exact congrArg some (ofNat_eq_of_mod _ _ (by omega))

/-! What the decoder does with a word of each major. -/

theorem at_01 (c : BitVec 1) (p : Nat) (hp : p < 33554432) : decodeInstr (wordOf c 0x01 p) = decodeBr p := by
  simp only [decodeInstr, major_wordOf c 0x01 p (by decide) hp, payload_wordOf c 0x01 p (by decide) hp]
theorem at_02 (c : BitVec 1) (p : Nat) (hp : p < 33554432) : decodeInstr (wordOf c 0x02 p) = decodeCall p := by
  simp only [decodeInstr, major_wordOf c 0x02 p (by decide) hp, payload_wordOf c 0x02 p (by decide) hp]
theorem at_03 (c : BitVec 1) (p : Nat) (hp : p < 33554432) : decodeInstr (wordOf c 0x03 p) = decodeControl (p / 2097152 % 16) p := by
  simp only [decodeInstr, major_wordOf c 0x03 p (by decide) hp, payload_wordOf c 0x03 p (by decide) hp]
theorem at_04 (c : BitVec 1) (p : Nat) (hp : p < 33554432) : decodeInstr (wordOf c 0x04 p) = decodeMask (p / 2097152 % 16) p := by
  simp only [decodeInstr, major_wordOf c 0x04 p (by decide) hp, payload_wordOf c 0x04 p (by decide) hp]
theorem at_08 (c : BitVec 1) (p : Nat) (hp : p < 33554432) : decodeInstr (wordOf c 0x08 p) = decodeIntA (p / 2097152 % 16) p := by
  simp only [decodeInstr, major_wordOf c 0x08 p (by decide) hp, payload_wordOf c 0x08 p (by decide) hp]
theorem at_09 (c : BitVec 1) (p : Nat) (hp : p < 33554432) : decodeInstr (wordOf c 0x09 p) = decodeIntB (p / 2097152 % 16) p := by
  simp only [decodeInstr, major_wordOf c 0x09 p (by decide) hp, payload_wordOf c 0x09 p (by decide) hp]
theorem at_0A (c : BitVec 1) (p : Nat) (hp : p < 33554432) : decodeInstr (wordOf c 0x0A p) = decodeAddi p := by
  simp only [decodeInstr, major_wordOf c 0x0A p (by decide) hp, payload_wordOf c 0x0A p (by decide) hp]
theorem at_0B (c : BitVec 1) (p : Nat) (hp : p < 33554432) : decodeInstr (wordOf c 0x0B p) = decodeAndi p := by
  simp only [decodeInstr, major_wordOf c 0x0B p (by decide) hp, payload_wordOf c 0x0B p (by decide) hp]
theorem at_0C (c : BitVec 1) (p : Nat) (hp : p < 33554432) : decodeInstr (wordOf c 0x0C p) = decodeOri p := by
  simp only [decodeInstr, major_wordOf c 0x0C p (by decide) hp, payload_wordOf c 0x0C p (by decide) hp]
theorem at_0D (c : BitVec 1) (p : Nat) (hp : p < 33554432) : decodeInstr (wordOf c 0x0D p) = decodeXori p := by
  simp only [decodeInstr, major_wordOf c 0x0D p (by decide) hp, payload_wordOf c 0x0D p (by decide) hp]
theorem at_0E (c : BitVec 1) (p : Nat) (hp : p < 33554432) : decodeInstr (wordOf c 0x0E p) = decodeWide (p / 65536 % 4) p := by
  simp only [decodeInstr, major_wordOf c 0x0E p (by decide) hp, payload_wordOf c 0x0E p (by decide) hp]
theorem at_0F (c : BitVec 1) (p : Nat) (hp : p < 33554432) : decodeInstr (wordOf c 0x0F p) = decodeIcmp (p / 2097152 % 16) p := by
  simp only [decodeInstr, major_wordOf c 0x0F p (by decide) hp, payload_wordOf c 0x0F p (by decide) hp]
theorem at_10 (c : BitVec 1) (p : Nat) (hp : p < 33554432) : decodeInstr (wordOf c 0x10 p) = decodeInt64 (p / 2097152 % 16) p := by
  simp only [decodeInstr, major_wordOf c 0x10 p (by decide) hp, payload_wordOf c 0x10 p (by decide) hp]
theorem at_11 (c : BitVec 1) (p : Nat) (hp : p < 33554432) : decodeInstr (wordOf c 0x11 p) = decodePacked (p / 2097152 % 16) p := by
  simp only [decodeInstr, major_wordOf c 0x11 p (by decide) hp, payload_wordOf c 0x11 p (by decide) hp]
theorem at_13 (c : BitVec 1) (p : Nat) (hp : p < 33554432) : decodeInstr (wordOf c 0x13 p) = decodeRemoved p := by
  simp only [decodeInstr, major_wordOf c 0x13 p (by decide) hp, payload_wordOf c 0x13 p (by decide) hp]
theorem at_14 (c : BitVec 1) (p : Nat) (hp : p < 33554432) : decodeInstr (wordOf c 0x14 p) = decodeF32 (p / 2097152 % 16) p := by
  simp only [decodeInstr, major_wordOf c 0x14 p (by decide) hp, payload_wordOf c 0x14 p (by decide) hp]
theorem at_15 (c : BitVec 1) (p : Nat) (hp : p < 33554432) : decodeInstr (wordOf c 0x15 p) = decodeF64 (p / 2097152 % 16) p := by
  simp only [decodeInstr, major_wordOf c 0x15 p (by decide) hp, payload_wordOf c 0x15 p (by decide) hp]
theorem at_16 (c : BitVec 1) (p : Nat) (hp : p < 33554432) : decodeInstr (wordOf c 0x16 p) = decodeHalf (p / 2097152 % 16) p := by
  simp only [decodeInstr, major_wordOf c 0x16 p (by decide) hp, payload_wordOf c 0x16 p (by decide) hp]
theorem at_17 (c : BitVec 1) (p : Nat) (hp : p < 33554432) : decodeInstr (wordOf c 0x17 p) = decodeFcmp (p / 2097152 % 16) p := by
  simp only [decodeInstr, major_wordOf c 0x17 p (by decide) hp, payload_wordOf c 0x17 p (by decide) hp]
theorem at_18 (c : BitVec 1) (p : Nat) (hp : p < 33554432) : decodeInstr (wordOf c 0x18 p) = decodeXfn (p / 2097152 % 16) p := by
  simp only [decodeInstr, major_wordOf c 0x18 p (by decide) hp, payload_wordOf c 0x18 p (by decide) hp]
theorem at_19 (c : BitVec 1) (p : Nat) (hp : p < 33554432) : decodeInstr (wordOf c 0x19 p) = decodeCvt (p / 2097152 % 16) p := by
  simp only [decodeInstr, major_wordOf c 0x19 p (by decide) hp, payload_wordOf c 0x19 p (by decide) hp]
theorem at_1A (c : BitVec 1) (p : Nat) (hp : p < 33554432) : decodeInstr (wordOf c 0x1A p) = decodeGeo (p / 2097152 % 16) p := by
  simp only [decodeInstr, major_wordOf c 0x1A p (by decide) hp, payload_wordOf c 0x1A p (by decide) hp]
theorem at_1C (c : BitVec 1) (p : Nat) (hp : p < 33554432) : decodeInstr (wordOf c 0x1C p) = decodeXlane (p / 2097152 % 16) p := by
  simp only [decodeInstr, major_wordOf c 0x1C p (by decide) hp, payload_wordOf c 0x1C p (by decide) hp]
theorem at_20 (c : BitVec 1) (p : Nat) (hp : p < 33554432) : decodeInstr (wordOf c 0x20 p) = decodeLd (p / 4194304 % 8) p := by
  simp only [decodeInstr, major_wordOf c 0x20 p (by decide) hp, payload_wordOf c 0x20 p (by decide) hp]
theorem at_21 (c : BitVec 1) (p : Nat) (hp : p < 33554432) : decodeInstr (wordOf c 0x21 p) = decodeLdx (p / 2097152 % 16) p := by
  simp only [decodeInstr, major_wordOf c 0x21 p (by decide) hp, payload_wordOf c 0x21 p (by decide) hp]
theorem at_22 (c : BitVec 1) (p : Nat) (hp : p < 33554432) : decodeInstr (wordOf c 0x22 p) = decodeSt (p / 4194304 % 8) p := by
  simp only [decodeInstr, major_wordOf c 0x22 p (by decide) hp, payload_wordOf c 0x22 p (by decide) hp]
theorem at_23 (c : BitVec 1) (p : Nat) (hp : p < 33554432) : decodeInstr (wordOf c 0x23 p) = decodeStx (p / 2097152 % 16) p := by
  simp only [decodeInstr, major_wordOf c 0x23 p (by decide) hp, payload_wordOf c 0x23 p (by decide) hp]
theorem at_24 (c : BitVec 1) (p : Nat) (hp : p < 33554432) : decodeInstr (wordOf c 0x24 p) = decodeLdk (p / 4194304 % 8) p := by
  simp only [decodeInstr, major_wordOf c 0x24 p (by decide) hp, payload_wordOf c 0x24 p (by decide) hp]
theorem at_25 (c : BitVec 1) (p : Nat) (hp : p < 33554432) : decodeInstr (wordOf c 0x25 p) = decodeSync (p / 2097152 % 16) p := by
  simp only [decodeInstr, major_wordOf c 0x25 p (by decide) hp, payload_wordOf c 0x25 p (by decide) hp]
theorem at_26 (c : BitVec 1) (p : Nat) (hp : p < 33554432) : decodeInstr (wordOf c 0x26 p) = decodeFence (p / 2097152 % 16) p := by
  simp only [decodeInstr, major_wordOf c 0x26 p (by decide) hp, payload_wordOf c 0x26 p (by decide) hp]
theorem at_27 (c : BitVec 1) (p : Nat) (hp : p < 33554432) : decodeInstr (wordOf c 0x27 p) = decodePref (p / 4194304 % 8) p := by
  simp only [decodeInstr, major_wordOf c 0x27 p (by decide) hp, payload_wordOf c 0x27 p (by decide) hp]
theorem at_28 (c : BitVec 1) (p : Nat) (hp : p < 33554432) : decodeInstr (wordOf c 0x28 p) = decodeAtom (p / 2097152 % 16) p := by
  simp only [decodeInstr, major_wordOf c 0x28 p (by decide) hp, payload_wordOf c 0x28 p (by decide) hp]
theorem at_2A (c : BitVec 1) (p : Nat) (hp : p < 33554432) : decodeInstr (wordOf c 0x2A p) = decodeWay (p / 2097152 % 16) p := by
  simp only [decodeInstr, major_wordOf c 0x2A p (by decide) hp, payload_wordOf c 0x2A p (by decide) hp]
theorem at_2C (c : BitVec 1) (p : Nat) (hp : p < 33554432) : decodeInstr (wordOf c 0x2C p) = decodeBar (p / 2097152 % 16) p := by
  simp only [decodeInstr, major_wordOf c 0x2C p (by decide) hp, payload_wordOf c 0x2C p (by decide) hp]
theorem at_2D (c : BitVec 1) (p : Nat) (hp : p < 33554432) : decodeInstr (wordOf c 0x2D p) = decodeWork (p / 2097152 % 16) p := by
  simp only [decodeInstr, major_wordOf c 0x2D p (by decide) hp, payload_wordOf c 0x2D p (by decide) hp]
theorem at_2E (c : BitVec 1) (p : Nat) (hp : p < 33554432) : decodeInstr (wordOf c 0x2E p) = decodeSreg (p / 2097152 % 16) p := by
  simp only [decodeInstr, major_wordOf c 0x2E p (by decide) hp, payload_wordOf c 0x2E p (by decide) hp]
theorem at_30 (c : BitVec 1) (p : Nat) (hp : p < 33554432) : decodeInstr (wordOf c 0x30 p) = decodeCopy (p / 2097152 % 16) p := by
  simp only [decodeInstr, major_wordOf c 0x30 p (by decide) hp, payload_wordOf c 0x30 p (by decide) hp]
theorem at_32 (c : BitVec 1) (p : Nat) (hp : p < 33554432) : decodeInstr (wordOf c 0x32 p) = decodeTile (p / 2097152 % 16) p := by
  simp only [decodeInstr, major_wordOf c 0x32 p (by decide) hp, payload_wordOf c 0x32 p (by decide) hp]
theorem at_36 (c : BitVec 1) (p : Nat) (hp : p < 33554432) : decodeInstr (wordOf c 0x36 p) = decodeChart (p / 2097152 % 16) p := by
  simp only [decodeInstr, major_wordOf c 0x36 p (by decide) hp, payload_wordOf c 0x36 p (by decide) hp]
theorem at_3B (c : BitVec 1) (p : Nat) (hp : p < 33554432) : decodeInstr (wordOf c 0x3B p) = decodeBank (p / 2097152 % 16) p := by
  simp only [decodeInstr, major_wordOf c 0x3B p (by decide) hp, payload_wordOf c 0x3B p (by decide) hp]
theorem at_3C (c : BitVec 1) (p : Nat) (hp : p < 33554432) : decodeInstr (wordOf c 0x3C p) = decodeLink (p / 2097152 % 16) p := by
  simp only [decodeInstr, major_wordOf c 0x3C p (by decide) hp, payload_wordOf c 0x3C p (by decide) hp]
theorem at_3D (c : BitVec 1) (p : Nat) (hp : p < 33554432) : decodeInstr (wordOf c 0x3D p) = decodeSys (p / 2097152 % 16) p := by
  simp only [decodeInstr, major_wordOf c 0x3D p (by decide) hp, payload_wordOf c 0x3D p (by decide) hp]
theorem at_3F (c : BitVec 1) (p : Nat) (hp : p < 33554432) : decodeInstr (wordOf c 0x3F p) = decodeExperimental (p / 2097152 % 16) p := by
  simp only [decodeInstr, major_wordOf c 0x3F p (by decide) hp, payload_wordOf c 0x3F p (by decide) hp]

end Sys2Proof.Laws

namespace Sys2Proof.Laws.Encoding

/-- A well-formed instruction is what its word decodes to (03 R55-R59). -/
def Statement (i : Instr) : Prop := i.wellFormed = true → ∀ c, decodeInstr (encode c i) = some i

theorem clauseDecode (group : Nat) (slices : BitVec 32) : Statement (.clauseDecode group slices) := fun h => nomatch h
theorem resultWriteback (group op : Nat) : Statement (.resultWriteback group op) := fun h => nomatch h
theorem asyncFault (group op : Nat) : Statement (.asyncFault group op) := fun h => nomatch h
theorem trapEntry (group : Nat) : Statement (.trapEntry group) := fun h => nomatch h
theorem killRecordWrite (launch : Nat) : Statement (.killRecordWrite launch) := fun h => nomatch h
theorem mgmtLaunchKill (launch : Nat) : Statement (.mgmtLaunchKill launch) := fun h => nomatch h
theorem groupEnd (group : Nat) : Statement (.groupEnd group) := fun h => nomatch h
theorem launchComplete (launch : Nat) : Statement (.launchComplete launch) := fun h => nomatch h
theorem queueTailWrite (queue : Nat) : Statement (.queueTailWrite queue) := fun h => nomatch h
theorem launchRecordCopy (queue : Nat) : Statement (.launchRecordCopy queue) := fun h => nomatch h
theorem blockPlacement (queue : Nat) : Statement (.blockPlacement queue) := fun h => nomatch h
theorem qstatStopClear (queue : Nat) : Statement (.qstatStopClear queue) := fun h => nomatch h
theorem qstatCfaultClear (queue : Nat) : Statement (.qstatCfaultClear queue) := fun h => nomatch h
theorem mgmtRegisterWrite (off : BitVec 24) (wide : Bool) (v : Option (BitVec 64)) : Statement (.mgmtRegisterWrite off wide v) := fun h => nomatch h
theorem resumeWrite (ctx : BitVec 6) (v : BitVec 32) : Statement (.resumeWrite ctx v) := fun h => nomatch h
theorem restctlWrite (v : BitVec 32) : Statement (.restctlWrite v) := fun h => nomatch h
theorem trgoWrite (v : BitVec 32) : Statement (.trgoWrite v) := fun h => nomatch h
theorem trialEnd : Statement (.trialEnd) := fun h => nomatch h
theorem restStateEntry : Statement (.restStateEntry) := fun h => nomatch h
theorem restExit : Statement (.restExit) := fun h => nomatch h
theorem functionLevelReset : Statement (.functionLevelReset) := fun h => nomatch h
theorem deviceReset (images : List (List (BitVec 8))) : Statement (.deviceReset images) := fun h => nomatch h
theorem doeMeasurementRequest (nonce : List (BitVec 8)) : Statement (.doeMeasurementRequest nonce) := fun h => nomatch h
theorem doeKeyRequest : Statement (.doeKeyRequest) := fun h => nomatch h
theorem cxlMemAccess (pa : BitVec 39) (write : Option (List (BitVec 8))) : Statement (.cxlMemAccess pa write) := fun h => nomatch h
theorem linkFlitRetry (port : BitVec 4) : Statement (.linkFlitRetry port) := fun h => nomatch h
theorem linkRetryExhausted (core : Nat) : Statement (.linkRetryExhausted core) := fun h => nomatch h
theorem peerReset (peer : BitVec 6) : Statement (.peerReset peer) := fun h => nomatch h
theorem peerRequest (peer : BitVec 6) (req : PeerReq) : Statement (.peerRequest peer req) := fun h => nomatch h
theorem collectiveContribution (con : Contribution) : Statement (.collectiveContribution con) := fun h => nomatch h
theorem serviceRequestEnqueue (pod : Nat) : Statement (.serviceRequestEnqueue pod) := fun h => nomatch h
theorem serviceRound (pod : Nat) : Statement (.serviceRound pod) := fun h => nomatch h
theorem serviceReply (pod : Nat) : Statement (.serviceReply pod) := fun h => nomatch h
theorem wayinComplete (group op : Nat) : Statement (.wayinComplete group op) := fun h => nomatch h
theorem wayinTimeout (group op : Nat) : Statement (.wayinTimeout group op) := fun h => nomatch h
theorem waypointProbe (group op : Nat) : Statement (.waypointProbe group op) := fun h => nomatch h
theorem waypointPoison (group lane : Nat) : Statement (.waypointPoison group lane) := fun h => nomatch h
theorem wayskipFirm (group op : Nat) : Statement (.wayskipFirm group op) := fun h => nomatch h
theorem wayskipRemove (group op : Nat) : Statement (.wayskipRemove group op) := fun h => nomatch h
theorem joinComplete (group : Nat) (j : BitVec 57) : Statement (.joinComplete group j) := fun h => nomatch h
theorem joinTimeout (group : Nat) (j : BitVec 57) : Statement (.joinTimeout group j) := fun h => nomatch h
theorem sleepEnd (group : Nat) (slice : Nat) : Statement (.sleepEnd group slice) := fun h => nomatch h
theorem regacqGrant (core : Nat) : Statement (.regacqGrant core) := fun h => nomatch h
theorem spill (core : Nat) : Statement (.spill core) := fun h => nomatch h
theorem tclaimGrant (core : Nat) (acc : Bool) : Statement (.tclaimGrant core acc) := fun h => nomatch h
theorem fetchwFill (block : Nat) : Statement (.fetchwFill block) := fun h => nomatch h
theorem launchAnswer (group op : Nat) : Statement (.launchAnswer group op) := fun h => nomatch h
theorem engineCommandComplete (core : Nat) (engine : Engine) : Statement (.engineCommandComplete core engine) := fun h => nomatch h
theorem engineBusyTimeout (core : Nat) (engine : Engine) : Statement (.engineBusyTimeout core engine) := fun h => nomatch h
theorem chartReset (core : Nat) : Statement (.chartReset core) := fun h => nomatch h
theorem tlbWalk (core ctx : Nat) (space : BitVec 4) (va : BitVec 57) : Statement (.tlbWalk core ctx space va) := fun h => nomatch h
theorem runaheadFetch (group : Nat) (pc : BitVec 57) : Statement (.runaheadFetch group pc) := fun h => nomatch h
theorem clockStep (core : Nat) (up : Bool) : Statement (.clockStep core up) := fun h => nomatch h
theorem subarrayGate (core : Nat) (sub : BitVec 2) : Statement (.subarrayGate core sub) := fun h => nomatch h
theorem preemptRequest (block : Nat) : Statement (.preemptRequest block) := fun h => nomatch h
theorem preemptHandlerEntry (unit : Nat) : Statement (.preemptHandlerEntry unit) := fun h => nomatch h
theorem preboundExpiry (unit : Nat) : Statement (.preboundExpiry unit) := fun h => nomatch h
theorem unitRestore (unit : Nat) : Statement (.unitRestore unit) := fun h => nomatch h
theorem debugRecordWrite (block : Nat) : Statement (.debugRecordWrite block) := fun h => nomatch h
theorem wordNotAnInstruction (w : BitVec 32) : Statement (.wordNotAnInstruction w) := fun h => nomatch h
theorem writeAcknowledgedAtHome (core op : Nat) : Statement (.writeAcknowledgedAtHome core op) := fun h => nomatch h
theorem virtualChannelPause (port vc : BitVec 4) (on : Bool) : Statement (.virtualChannelPause port vc on) := fun h => nomatch h
theorem correctedError (pch bank : Nat) : Statement (.correctedError pch bank) := fun h => nomatch h
theorem managementFirmwareStageLoad (reg : BitVec 4) (image : List (BitVec 8)) : Statement (.managementFirmwareStageLoad reg image) := fun h => nomatch h
theorem cxlCacheCoherenceRequest (line : Nat) (write : Option (List (BitVec 8))) : Statement (.cxlCacheCoherenceRequest line write) := fun h => nomatch h
theorem br (n : BitVec 1) (k : BitVec 3) (d : BitVec 21) : Statement (.br n k d) := by
  intro _ c
  have hlt := encBr_lt n k d
  show decodeInstr (wordOf c 0x01 (Fmt.encBr n k d)) = _
  rw [at_01 c _ (by omega)]
  have hd := decBr_enc 0 n k d
  rw [Nat.zero_mul, Nat.zero_add] at hd
  show ((Fmt.decBr (Fmt.encBr n k d)).map (fun (n, k, d) => Instr.br n k d)) = _
  exact congrArg (Option.map _) hd
theorem call (d : BitVec 21) : Statement (.call d) := by
  intro _ c
  have hlt := encCall_lt d
  show decodeInstr (wordOf c 0x02 (Fmt.encCall d)) = _
  rw [at_02 c _ (by omega)]
  have hd := decCall_enc 0 d
  rw [Nat.zero_mul, Nat.zero_add] at hd
  show ((Fmt.decCall (Fmt.encCall d)).map (fun d => Instr.call d)) = _
  exact congrArg (Option.map _) hd
theorem ret : Statement (.ret) := by
  intro _ c
  have hlt := encFix_lt 0 (by decide)
  show decodeInstr (wordOf c 0x03 (Fmt.encFix 0)) = _
  rw [at_03 c _ (by omega)]
  rw [show (Fmt.encFix 0) / 2097152 % 16 = 0 by omega]
  have hd := decFix_enc 0 0 (by decide)
  rw [Nat.zero_mul, Nat.zero_add] at hd
  show ((Fmt.decFix 0 (Fmt.encFix 0)).map (fun _ => Instr.ret)) = _
  exact congrArg (Option.map _) hd
theorem jmpi (p : BitVec 7) : Statement (.jmpi p) := by
  intro _ c
  have hlt := encOpd_lt p
  show decodeInstr (wordOf c 0x03 (2097152 + Fmt.encOpd p)) = _
  rw [at_03 c _ (by omega)]
  rw [show (2097152 + Fmt.encOpd p) / 2097152 % 16 = 1 by omega]
  have hd := decOpd_enc 1 p
  show ((Fmt.decOpd (2097152 + Fmt.encOpd p)).map (fun p => Instr.jmpi p)) = _
  exact congrArg (Option.map _) hd
theorem calli (p : BitVec 7) : Statement (.calli p) := by
  intro _ c
  have hlt := encOpd_lt p
  show decodeInstr (wordOf c 0x03 (4194304 + Fmt.encOpd p)) = _
  rw [at_03 c _ (by omega)]
  rw [show (4194304 + Fmt.encOpd p) / 2097152 % 16 = 2 by omega]
  have hd := decOpd_enc 2 p
  show ((Fmt.decOpd (4194304 + Fmt.encOpd p)).map (fun p => Instr.calli p)) = _
  exact congrArg (Option.map _) hd
theorem join (k : BitVec 3) (n : BitVec 14) : Statement (.join k n) := by
  intro _ c
  have hlt := encJoin_lt k n
  show decodeInstr (wordOf c 0x03 (6291456 + Fmt.encJoin k n)) = _
  rw [at_03 c _ (by omega)]
  rw [show (6291456 + Fmt.encJoin k n) / 2097152 % 16 = 3 by omega]
  have hd := decJoin_enc 3 k n
  show ((Fmt.decJoin (6291456 + Fmt.encJoin k n)).map (fun (k, n) => Instr.join k n)) = _
  exact congrArg (Option.map _) hd
theorem exit : Statement (.exit) := by
  intro _ c
  have hlt := encFix_lt 0 (by decide)
  show decodeInstr (wordOf c 0x03 (8388608 + Fmt.encFix 0)) = _
  rw [at_03 c _ (by omega)]
  rw [show (8388608 + Fmt.encFix 0) / 2097152 % 16 = 4 by omega]
  have hd := decFix_enc 0 4 (by decide)
  show ((Fmt.decFix 0 (8388608 + Fmt.encFix 0)).map (fun _ => Instr.exit)) = _
  exact congrArg (Option.map _) hd
theorem yield (n : BitVec 5) : Statement (.yield n) := by
  intro _ c
  have hlt := encImm5_lt n
  show decodeInstr (wordOf c 0x03 (10485760 + Fmt.encImm5 n)) = _
  rw [at_03 c _ (by omega)]
  rw [show (10485760 + Fmt.encImm5 n) / 2097152 % 16 = 5 by omega]
  have hd := decImm5_enc 5 n
  show ((Fmt.decImm5 (10485760 + Fmt.encImm5 n)).map (fun n => Instr.yield n)) = _
  exact congrArg (Option.map _) hd
theorem sleep (n : BitVec 14) : Statement (.sleep n) := by
  intro _ c
  have hlt := encImm14_lt n
  show decodeInstr (wordOf c 0x03 (12582912 + Fmt.encImm14 n)) = _
  rw [at_03 c _ (by omega)]
  rw [show (12582912 + Fmt.encImm14 n) / 2097152 % 16 = 6 by omega]
  have hd := decImm14_enc 6 n
  show ((Fmt.decImm14 (12582912 + Fmt.encImm14 n)).map (fun n => Instr.sleep n)) = _
  exact congrArg (Option.map _) hd
theorem progress (n : BitVec 4) : Statement (.progress n) := by
  intro _ c
  have hlt := encImm4_lt n
  show decodeInstr (wordOf c 0x03 (14680064 + Fmt.encImm4 n)) = _
  rw [at_03 c _ (by omega)]
  rw [show (14680064 + Fmt.encImm4 n) / 2097152 % 16 = 7 by omega]
  have hd := decImm4_enc 7 n
  show ((Fmt.decImm4 (14680064 + Fmt.encImm4 n)).map (fun n => Instr.progress n)) = _
  exact congrArg (Option.map _) hd
theorem brkpt (n : BitVec 8) : Statement (.brkpt n) := by
  intro _ c
  have hlt := encImm8_lt n
  show decodeInstr (wordOf c 0x03 (16777216 + Fmt.encImm8 n)) = _
  rw [at_03 c _ (by omega)]
  rw [show (16777216 + Fmt.encImm8 n) / 2097152 % 16 = 8 by omega]
  have hd := decImm8_enc 8 n
  show ((Fmt.decImm8 (16777216 + Fmt.encImm8 n)).map (fun n => Instr.brkpt n)) = _
  exact congrArg (Option.map _) hd
theorem mand (d : BitVec 3) (a : BitVec 3) (b : BitVec 3) : Statement (.mand d a b) := by
  intro _ c
  have hlt := encMask3_lt d a b
  show decodeInstr (wordOf c 0x04 (Fmt.encMask3 d a b)) = _
  rw [at_04 c _ (by omega)]
  rw [show (Fmt.encMask3 d a b) / 2097152 % 16 = 0 by omega]
  have hd := decMask3_enc 0 d a b
  rw [Nat.zero_mul, Nat.zero_add] at hd
  show ((Fmt.decMask3 (Fmt.encMask3 d a b)).map (fun (d, a, b) => Instr.mand d a b)) = _
  exact congrArg (Option.map _) hd
theorem mor (d : BitVec 3) (a : BitVec 3) (b : BitVec 3) : Statement (.mor d a b) := by
  intro _ c
  have hlt := encMask3_lt d a b
  show decodeInstr (wordOf c 0x04 (2097152 + Fmt.encMask3 d a b)) = _
  rw [at_04 c _ (by omega)]
  rw [show (2097152 + Fmt.encMask3 d a b) / 2097152 % 16 = 1 by omega]
  have hd := decMask3_enc 1 d a b
  show ((Fmt.decMask3 (2097152 + Fmt.encMask3 d a b)).map (fun (d, a, b) => Instr.mor d a b)) = _
  exact congrArg (Option.map _) hd
theorem mxor (d : BitVec 3) (a : BitVec 3) (b : BitVec 3) : Statement (.mxor d a b) := by
  intro _ c
  have hlt := encMask3_lt d a b
  show decodeInstr (wordOf c 0x04 (4194304 + Fmt.encMask3 d a b)) = _
  rw [at_04 c _ (by omega)]
  rw [show (4194304 + Fmt.encMask3 d a b) / 2097152 % 16 = 2 by omega]
  have hd := decMask3_enc 2 d a b
  show ((Fmt.decMask3 (4194304 + Fmt.encMask3 d a b)).map (fun (d, a, b) => Instr.mxor d a b)) = _
  exact congrArg (Option.map _) hd
theorem mandn (d : BitVec 3) (a : BitVec 3) (b : BitVec 3) : Statement (.mandn d a b) := by
  intro _ c
  have hlt := encMask3_lt d a b
  show decodeInstr (wordOf c 0x04 (6291456 + Fmt.encMask3 d a b)) = _
  rw [at_04 c _ (by omega)]
  rw [show (6291456 + Fmt.encMask3 d a b) / 2097152 % 16 = 3 by omega]
  have hd := decMask3_enc 3 d a b
  show ((Fmt.decMask3 (6291456 + Fmt.encMask3 d a b)).map (fun (d, a, b) => Instr.mandn d a b)) = _
  exact congrArg (Option.map _) hd
theorem mnot (d : BitVec 3) (a : BitVec 3) : Statement (.mnot d a) := by
  intro _ c
  have hlt := encMask2_lt d a
  show decodeInstr (wordOf c 0x04 (8388608 + Fmt.encMask2 d a)) = _
  rw [at_04 c _ (by omega)]
  rw [show (8388608 + Fmt.encMask2 d a) / 2097152 % 16 = 4 by omega]
  have hd := decMask2_enc 4 d a
  show ((Fmt.decMask2 (8388608 + Fmt.encMask2 d a)).map (fun (d, a) => Instr.mnot d a)) = _
  exact congrArg (Option.map _) hd
theorem mmov (d : BitVec 3) (a : BitVec 3) : Statement (.mmov d a) := by
  intro _ c
  have hlt := encMask2_lt d a
  show decodeInstr (wordOf c 0x04 (10485760 + Fmt.encMask2 d a)) = _
  rw [at_04 c _ (by omega)]
  rw [show (10485760 + Fmt.encMask2 d a) / 2097152 % 16 = 5 by omega]
  have hd := decMask2_enc 5 d a
  show ((Fmt.decMask2 (10485760 + Fmt.encMask2 d a)).map (fun (d, a) => Instr.mmov d a)) = _
  exact congrArg (Option.map _) hd
theorem mall (d : BitVec 3) : Statement (.mall d) := by
  intro _ c
  have hlt := encMask1_lt d
  show decodeInstr (wordOf c 0x04 (12582912 + Fmt.encMask1 d)) = _
  rw [at_04 c _ (by omega)]
  rw [show (12582912 + Fmt.encMask1 d) / 2097152 % 16 = 6 by omega]
  have hd := decMask1_enc 6 d
  show ((Fmt.decMask1 (12582912 + Fmt.encMask1 d)).map (fun d => Instr.mall d)) = _
  exact congrArg (Option.map _) hd
theorem mnone (d : BitVec 3) : Statement (.mnone d) := by
  intro _ c
  have hlt := encMask1_lt d
  show decodeInstr (wordOf c 0x04 (14680064 + Fmt.encMask1 d)) = _
  rw [at_04 c _ (by omega)]
  rw [show (14680064 + Fmt.encMask1 d) / 2097152 % 16 = 7 by omega]
  have hd := decMask1_enc 7 d
  show ((Fmt.decMask1 (14680064 + Fmt.encMask1 d)).map (fun d => Instr.mnone d)) = _
  exact congrArg (Option.map _) hd
theorem mpopc (d : BitVec 7) (a : BitVec 3) : Statement (.mpopc d a) := by
  intro _ c
  have hlt := encSMask_lt d a
  show decodeInstr (wordOf c 0x04 (16777216 + Fmt.encSMask d a)) = _
  rw [at_04 c _ (by omega)]
  rw [show (16777216 + Fmt.encSMask d a) / 2097152 % 16 = 8 by omega]
  have hd := decSMask_enc 8 d a
  show ((Fmt.decSMask (16777216 + Fmt.encSMask d a)).map (fun (d, a) => Instr.mpopc d a)) = _
  exact congrArg (Option.map _) hd
theorem mfirst (d : BitVec 7) (a : BitVec 3) : Statement (.mfirst d a) := by
  intro _ c
  have hlt := encSMask_lt d a
  show decodeInstr (wordOf c 0x04 (18874368 + Fmt.encSMask d a)) = _
  rw [at_04 c _ (by omega)]
  rw [show (18874368 + Fmt.encSMask d a) / 2097152 % 16 = 9 by omega]
  have hd := decSMask_enc 9 d a
  show ((Fmt.decSMask (18874368 + Fmt.encSMask d a)).map (fun (d, a) => Instr.mfirst d a)) = _
  exact congrArg (Option.map _) hd
theorem mtos (d : BitVec 7) (a : BitVec 3) (q : BitVec 2) : Statement (.mtos d a q) := by
  intro _ c
  have hlt := encMtos_lt d a q
  show decodeInstr (wordOf c 0x04 (20971520 + Fmt.encMtos d a q)) = _
  rw [at_04 c _ (by omega)]
  rw [show (20971520 + Fmt.encMtos d a q) / 2097152 % 16 = 10 by omega]
  have hd := decMtos_enc 10 d a q
  show ((Fmt.decMtos (20971520 + Fmt.encMtos d a q)).map (fun (d, a, q) => Instr.mtos d a q)) = _
  exact congrArg (Option.map _) hd
theorem stom (d : BitVec 3) (a : BitVec 7) (q : BitVec 2) : Statement (.stom d a q) := by
  intro _ c
  have hlt := encStom_lt d a q
  show decodeInstr (wordOf c 0x04 (23068672 + Fmt.encStom d a q)) = _
  rw [at_04 c _ (by omega)]
  rw [show (23068672 + Fmt.encStom d a q) / 2097152 % 16 = 11 by omega]
  have hd := decStom_enc 11 d a q
  show ((Fmt.decStom (23068672 + Fmt.encStom d a q)).map (fun (d, a, q) => Instr.stom d a q)) = _
  exact congrArg (Option.map _) hd
theorem mlanes (d : BitVec 3) (a : BitVec 7) : Statement (.mlanes d a) := by
  intro _ c
  have hlt := encMaskS_lt d a
  show decodeInstr (wordOf c 0x04 (25165824 + Fmt.encMaskS d a)) = _
  rw [at_04 c _ (by omega)]
  rw [show (25165824 + Fmt.encMaskS d a) / 2097152 % 16 = 12 by omega]
  have hd := decMaskS_enc 12 d a
  show ((Fmt.decMaskS (25165824 + Fmt.encMaskS d a)).map (fun (d, a) => Instr.mlanes d a)) = _
  exact congrArg (Option.map _) hd
theorem addI32 (d : BitVec 7) (a : BitVec 7) (b : BitVec 7) : Statement (.addI32 d a b) := by
  intro _ c
  have hlt := encRrr_lt d a b
  show decodeInstr (wordOf c 0x08 (Fmt.encRrr d a b)) = _
  rw [at_08 c _ (by omega)]
  rw [show (Fmt.encRrr d a b) / 2097152 % 16 = 0 by omega]
  have hd := decRrr_enc 0 d a b
  rw [Nat.zero_mul, Nat.zero_add] at hd
  show ((Fmt.decRrr (Fmt.encRrr d a b)).map (fun (d, a, b) => Instr.addI32 d a b)) = _
  exact congrArg (Option.map _) hd
theorem subI32 (d : BitVec 7) (a : BitVec 7) (b : BitVec 7) : Statement (.subI32 d a b) := by
  intro _ c
  have hlt := encRrr_lt d a b
  show decodeInstr (wordOf c 0x08 (2097152 + Fmt.encRrr d a b)) = _
  rw [at_08 c _ (by omega)]
  rw [show (2097152 + Fmt.encRrr d a b) / 2097152 % 16 = 1 by omega]
  have hd := decRrr_enc 1 d a b
  show ((Fmt.decRrr (2097152 + Fmt.encRrr d a b)).map (fun (d, a, b) => Instr.subI32 d a b)) = _
  exact congrArg (Option.map _) hd
theorem mulloI32 (d : BitVec 7) (a : BitVec 7) (b : BitVec 7) : Statement (.mulloI32 d a b) := by
  intro _ c
  have hlt := encRrr_lt d a b
  show decodeInstr (wordOf c 0x08 (4194304 + Fmt.encRrr d a b)) = _
  rw [at_08 c _ (by omega)]
  rw [show (4194304 + Fmt.encRrr d a b) / 2097152 % 16 = 2 by omega]
  have hd := decRrr_enc 2 d a b
  show ((Fmt.decRrr (4194304 + Fmt.encRrr d a b)).map (fun (d, a, b) => Instr.mulloI32 d a b)) = _
  exact congrArg (Option.map _) hd
theorem mulhiI32 (d : BitVec 7) (a : BitVec 7) (b : BitVec 7) : Statement (.mulhiI32 d a b) := by
  intro _ c
  have hlt := encRrr_lt d a b
  show decodeInstr (wordOf c 0x08 (6291456 + Fmt.encRrr d a b)) = _
  rw [at_08 c _ (by omega)]
  rw [show (6291456 + Fmt.encRrr d a b) / 2097152 % 16 = 3 by omega]
  have hd := decRrr_enc 3 d a b
  show ((Fmt.decRrr (6291456 + Fmt.encRrr d a b)).map (fun (d, a, b) => Instr.mulhiI32 d a b)) = _
  exact congrArg (Option.map _) hd
theorem mulhiN32 (d : BitVec 7) (a : BitVec 7) (b : BitVec 7) : Statement (.mulhiN32 d a b) := by
  intro _ c
  have hlt := encRrr_lt d a b
  show decodeInstr (wordOf c 0x08 (8388608 + Fmt.encRrr d a b)) = _
  rw [at_08 c _ (by omega)]
  rw [show (8388608 + Fmt.encRrr d a b) / 2097152 % 16 = 4 by omega]
  have hd := decRrr_enc 4 d a b
  show ((Fmt.decRrr (8388608 + Fmt.encRrr d a b)).map (fun (d, a, b) => Instr.mulhiN32 d a b)) = _
  exact congrArg (Option.map _) hd
theorem and : Statement (.and d a b) := by
  intro _ c
  have hlt := encRrr_lt d a b
  show decodeInstr (wordOf c 0x08 (10485760 + Fmt.encRrr d a b)) = _
  rw [at_08 c _ (by omega)]
  rw [show (10485760 + Fmt.encRrr d a b) / 2097152 % 16 = 5 by omega]
  have hd := decRrr_enc 5 d a b
  show ((Fmt.decRrr (10485760 + Fmt.encRrr d a b)).map (fun (d, a, b) => Instr.and d a b)) = _
  exact congrArg (Option.map _) hd
theorem or : Statement (.or d a b) := by
  intro _ c
  have hlt := encRrr_lt d a b
  show decodeInstr (wordOf c 0x08 (12582912 + Fmt.encRrr d a b)) = _
  rw [at_08 c _ (by omega)]
  rw [show (12582912 + Fmt.encRrr d a b) / 2097152 % 16 = 6 by omega]
  have hd := decRrr_enc 6 d a b
  show ((Fmt.decRrr (12582912 + Fmt.encRrr d a b)).map (fun (d, a, b) => Instr.or d a b)) = _
  exact congrArg (Option.map _) hd
theorem xor : Statement (.xor d a b) := by
  intro _ c
  have hlt := encRrr_lt d a b
  show decodeInstr (wordOf c 0x08 (14680064 + Fmt.encRrr d a b)) = _
  rw [at_08 c _ (by omega)]
  rw [show (14680064 + Fmt.encRrr d a b) / 2097152 % 16 = 7 by omega]
  have hd := decRrr_enc 7 d a b
  show ((Fmt.decRrr (14680064 + Fmt.encRrr d a b)).map (fun (d, a, b) => Instr.xor d a b)) = _
  exact congrArg (Option.map _) hd
theorem andn (d : BitVec 7) (a : BitVec 7) (b : BitVec 7) : Statement (.andn d a b) := by
  intro _ c
  have hlt := encRrr_lt d a b
  show decodeInstr (wordOf c 0x08 (16777216 + Fmt.encRrr d a b)) = _
  rw [at_08 c _ (by omega)]
  rw [show (16777216 + Fmt.encRrr d a b) / 2097152 % 16 = 8 by omega]
  have hd := decRrr_enc 8 d a b
  show ((Fmt.decRrr (16777216 + Fmt.encRrr d a b)).map (fun (d, a, b) => Instr.andn d a b)) = _
  exact congrArg (Option.map _) hd
theorem shl (d : BitVec 7) (a : BitVec 7) (b : BitVec 7) : Statement (.shl d a b) := by
  intro _ c
  have hlt := encRrr_lt d a b
  show decodeInstr (wordOf c 0x08 (18874368 + Fmt.encRrr d a b)) = _
  rw [at_08 c _ (by omega)]
  rw [show (18874368 + Fmt.encRrr d a b) / 2097152 % 16 = 9 by omega]
  have hd := decRrr_enc 9 d a b
  show ((Fmt.decRrr (18874368 + Fmt.encRrr d a b)).map (fun (d, a, b) => Instr.shl d a b)) = _
  exact congrArg (Option.map _) hd
theorem shrN32 (d : BitVec 7) (a : BitVec 7) (b : BitVec 7) : Statement (.shrN32 d a b) := by
  intro _ c
  have hlt := encRrr_lt d a b
  show decodeInstr (wordOf c 0x08 (20971520 + Fmt.encRrr d a b)) = _
  rw [at_08 c _ (by omega)]
  rw [show (20971520 + Fmt.encRrr d a b) / 2097152 % 16 = 10 by omega]
  have hd := decRrr_enc 10 d a b
  show ((Fmt.decRrr (20971520 + Fmt.encRrr d a b)).map (fun (d, a, b) => Instr.shrN32 d a b)) = _
  exact congrArg (Option.map _) hd
theorem shrI32 (d : BitVec 7) (a : BitVec 7) (b : BitVec 7) : Statement (.shrI32 d a b) := by
  intro _ c
  have hlt := encRrr_lt d a b
  show decodeInstr (wordOf c 0x08 (23068672 + Fmt.encRrr d a b)) = _
  rw [at_08 c _ (by omega)]
  rw [show (23068672 + Fmt.encRrr d a b) / 2097152 % 16 = 11 by omega]
  have hd := decRrr_enc 11 d a b
  show ((Fmt.decRrr (23068672 + Fmt.encRrr d a b)).map (fun (d, a, b) => Instr.shrI32 d a b)) = _
  exact congrArg (Option.map _) hd
theorem rotl (d : BitVec 7) (a : BitVec 7) (b : BitVec 7) : Statement (.rotl d a b) := by
  intro _ c
  have hlt := encRrr_lt d a b
  show decodeInstr (wordOf c 0x08 (25165824 + Fmt.encRrr d a b)) = _
  rw [at_08 c _ (by omega)]
  rw [show (25165824 + Fmt.encRrr d a b) / 2097152 % 16 = 12 by omega]
  have hd := decRrr_enc 12 d a b
  show ((Fmt.decRrr (25165824 + Fmt.encRrr d a b)).map (fun (d, a, b) => Instr.rotl d a b)) = _
  exact congrArg (Option.map _) hd
theorem minI32 (d : BitVec 7) (a : BitVec 7) (b : BitVec 7) : Statement (.minI32 d a b) := by
  intro _ c
  have hlt := encRrr_lt d a b
  show decodeInstr (wordOf c 0x08 (27262976 + Fmt.encRrr d a b)) = _
  rw [at_08 c _ (by omega)]
  rw [show (27262976 + Fmt.encRrr d a b) / 2097152 % 16 = 13 by omega]
  have hd := decRrr_enc 13 d a b
  show ((Fmt.decRrr (27262976 + Fmt.encRrr d a b)).map (fun (d, a, b) => Instr.minI32 d a b)) = _
  exact congrArg (Option.map _) hd
theorem maxI32 (d : BitVec 7) (a : BitVec 7) (b : BitVec 7) : Statement (.maxI32 d a b) := by
  intro _ c
  have hlt := encRrr_lt d a b
  show decodeInstr (wordOf c 0x08 (29360128 + Fmt.encRrr d a b)) = _
  rw [at_08 c _ (by omega)]
  rw [show (29360128 + Fmt.encRrr d a b) / 2097152 % 16 = 14 by omega]
  have hd := decRrr_enc 14 d a b
  show ((Fmt.decRrr (29360128 + Fmt.encRrr d a b)).map (fun (d, a, b) => Instr.maxI32 d a b)) = _
  exact congrArg (Option.map _) hd
theorem minN32 (d : BitVec 7) (a : BitVec 7) (b : BitVec 7) : Statement (.minN32 d a b) := by
  intro _ c
  have hlt := encRrr_lt d a b
  show decodeInstr (wordOf c 0x08 (31457280 + Fmt.encRrr d a b)) = _
  rw [at_08 c _ (by omega)]
  rw [show (31457280 + Fmt.encRrr d a b) / 2097152 % 16 = 15 by omega]
  have hd := decRrr_enc 15 d a b
  show ((Fmt.decRrr (31457280 + Fmt.encRrr d a b)).map (fun (d, a, b) => Instr.minN32 d a b)) = _
  exact congrArg (Option.map _) hd
theorem maxN32 (d : BitVec 7) (a : BitVec 7) (b : BitVec 7) : Statement (.maxN32 d a b) := by
  intro _ c
  have hlt := encRrr_lt d a b
  show decodeInstr (wordOf c 0x09 (Fmt.encRrr d a b)) = _
  rw [at_09 c _ (by omega)]
  rw [show (Fmt.encRrr d a b) / 2097152 % 16 = 0 by omega]
  have hd := decRrr_enc 0 d a b
  rw [Nat.zero_mul, Nat.zero_add] at hd
  show ((Fmt.decRrr (Fmt.encRrr d a b)).map (fun (d, a, b) => Instr.maxN32 d a b)) = _
  exact congrArg (Option.map _) hd
theorem absI32 (d : BitVec 7) (a : BitVec 7) : Statement (.absI32 d a) := by
  intro _ c
  have hlt := encRr_lt d a
  show decodeInstr (wordOf c 0x09 (2097152 + Fmt.encRr d a)) = _
  rw [at_09 c _ (by omega)]
  rw [show (2097152 + Fmt.encRr d a) / 2097152 % 16 = 1 by omega]
  have hd := decRr_enc 1 d a
  show ((Fmt.decRr (2097152 + Fmt.encRr d a)).map (fun (d, a) => Instr.absI32 d a)) = _
  exact congrArg (Option.map _) hd
theorem popc (d : BitVec 7) (a : BitVec 7) : Statement (.popc d a) := by
  intro _ c
  have hlt := encRr_lt d a
  show decodeInstr (wordOf c 0x09 (4194304 + Fmt.encRr d a)) = _
  rw [at_09 c _ (by omega)]
  rw [show (4194304 + Fmt.encRr d a) / 2097152 % 16 = 2 by omega]
  have hd := decRr_enc 2 d a
  show ((Fmt.decRr (4194304 + Fmt.encRr d a)).map (fun (d, a) => Instr.popc d a)) = _
  exact congrArg (Option.map _) hd
theorem clz (d : BitVec 7) (a : BitVec 7) : Statement (.clz d a) := by
  intro _ c
  have hlt := encRr_lt d a
  show decodeInstr (wordOf c 0x09 (6291456 + Fmt.encRr d a)) = _
  rw [at_09 c _ (by omega)]
  rw [show (6291456 + Fmt.encRr d a) / 2097152 % 16 = 3 by omega]
  have hd := decRr_enc 3 d a
  show ((Fmt.decRr (6291456 + Fmt.encRr d a)).map (fun (d, a) => Instr.clz d a)) = _
  exact congrArg (Option.map _) hd
theorem brev (d : BitVec 7) (a : BitVec 7) : Statement (.brev d a) := by
  intro _ c
  have hlt := encRr_lt d a
  show decodeInstr (wordOf c 0x09 (8388608 + Fmt.encRr d a)) = _
  rw [at_09 c _ (by omega)]
  rw [show (8388608 + Fmt.encRr d a) / 2097152 % 16 = 4 by omega]
  have hd := decRr_enc 4 d a
  show ((Fmt.decRr (8388608 + Fmt.encRr d a)).map (fun (d, a) => Instr.brev d a)) = _
  exact congrArg (Option.map _) hd
theorem bfeN32 (d : BitVec 7) (a : BitVec 7) (b : BitVec 7) : Statement (.bfeN32 d a b) := by
  intro _ c
  have hlt := encRrr_lt d a b
  show decodeInstr (wordOf c 0x09 (10485760 + Fmt.encRrr d a b)) = _
  rw [at_09 c _ (by omega)]
  rw [show (10485760 + Fmt.encRrr d a b) / 2097152 % 16 = 5 by omega]
  have hd := decRrr_enc 5 d a b
  show ((Fmt.decRrr (10485760 + Fmt.encRrr d a b)).map (fun (d, a, b) => Instr.bfeN32 d a b)) = _
  exact congrArg (Option.map _) hd
theorem bfeI32 (d : BitVec 7) (a : BitVec 7) (b : BitVec 7) : Statement (.bfeI32 d a b) := by
  intro _ c
  have hlt := encRrr_lt d a b
  show decodeInstr (wordOf c 0x09 (12582912 + Fmt.encRrr d a b)) = _
  rw [at_09 c _ (by omega)]
  rw [show (12582912 + Fmt.encRrr d a b) / 2097152 % 16 = 6 by omega]
  have hd := decRrr_enc 6 d a b
  show ((Fmt.decRrr (12582912 + Fmt.encRrr d a b)).map (fun (d, a, b) => Instr.bfeI32 d a b)) = _
  exact congrArg (Option.map _) hd
theorem bfi (d : BitVec 7) (a : BitVec 7) (b : BitVec 7) : Statement (.bfi d a b) := by
  intro _ c
  have hlt := encRrr_lt d a b
  show decodeInstr (wordOf c 0x09 (14680064 + Fmt.encRrr d a b)) = _
  rw [at_09 c _ (by omega)]
  rw [show (14680064 + Fmt.encRrr d a b) / 2097152 % 16 = 7 by omega]
  have hd := decRrr_enc 7 d a b
  show ((Fmt.decRrr (14680064 + Fmt.encRrr d a b)).map (fun (d, a, b) => Instr.bfi d a b)) = _
  exact congrArg (Option.map _) hd
theorem sel (k : BitVec 3) (d : BitVec 7) (a : BitVec 7) (b : BitVec 7) : Statement (.sel k d a b) := by
  intro _ c
  have hlt := encSel_lt k d a b
  show decodeInstr (wordOf c 0x09 (16777216 + Fmt.encSel k d a b)) = _
  rw [at_09 c _ (by omega)]
  have he : (16777216 + Fmt.encSel k d a b) / 2097152 % 16 = 8 + k.toNat := by unfold Fmt.encSel; have := k.isLt; have := d.isLt; have := a.isLt; have := b.isLt; omega
  have hd := decSel_enc 1 k d a b
  rw [he]
  have key : ∀ m < 8, ∀ p, decodeIntB (8 + m) p = (Fmt.decSel p).map fun (k, d, a, b) => Instr.sel k d a b := by
    intro m hm p
    interval_cases m <;> rfl
  rw [key _ k.isLt]
  exact congrArg (Option.map _) hd
theorem addi (d : BitVec 7) (a : BitVec 7) (i : BitVec 11) : Statement (.addi d a i) := by
  intro _ c
  have hlt := encRi_lt d a i
  show decodeInstr (wordOf c 0x0A (Fmt.encRi d a i)) = _
  rw [at_0A c _ (by omega)]
  have hd := decRi_enc 0 d a i
  rw [Nat.zero_mul, Nat.zero_add] at hd
  show ((Fmt.decRi (Fmt.encRi d a i)).map (fun (d, a, i) => Instr.addi d a i)) = _
  exact congrArg (Option.map _) hd
theorem andi (d : BitVec 7) (a : BitVec 7) (i : BitVec 11) : Statement (.andi d a i) := by
  intro _ c
  have hlt := encRi_lt d a i
  show decodeInstr (wordOf c 0x0B (Fmt.encRi d a i)) = _
  rw [at_0B c _ (by omega)]
  have hd := decRi_enc 0 d a i
  rw [Nat.zero_mul, Nat.zero_add] at hd
  show ((Fmt.decRi (Fmt.encRi d a i)).map (fun (d, a, i) => Instr.andi d a i)) = _
  exact congrArg (Option.map _) hd
theorem ori (d : BitVec 7) (a : BitVec 7) (i : BitVec 11) : Statement (.ori d a i) := by
  intro _ c
  have hlt := encRi_lt d a i
  show decodeInstr (wordOf c 0x0C (Fmt.encRi d a i)) = _
  rw [at_0C c _ (by omega)]
  have hd := decRi_enc 0 d a i
  rw [Nat.zero_mul, Nat.zero_add] at hd
  show ((Fmt.decRi (Fmt.encRi d a i)).map (fun (d, a, i) => Instr.ori d a i)) = _
  exact congrArg (Option.map _) hd
theorem xori (d : BitVec 7) (a : BitVec 7) (i : BitVec 11) : Statement (.xori d a i) := by
  intro _ c
  have hlt := encRi_lt d a i
  show decodeInstr (wordOf c 0x0D (Fmt.encRi d a i)) = _
  rw [at_0D c _ (by omega)]
  have hd := decRi_enc 0 d a i
  rw [Nat.zero_mul, Nat.zero_add] at hd
  show ((Fmt.decRi (Fmt.encRi d a i)).map (fun (d, a, i) => Instr.xori d a i)) = _
  exact congrArg (Option.map _) hd
theorem movzLo (d : BitVec 7) (i : BitVec 16) : Statement (.movzLo d i) := by
  intro _ c
  have hlt := encWi_lt d i
  show decodeInstr (wordOf c 0x0E (Fmt.encWi d i)) = _
  rw [at_0E c _ (by omega)]
  rw [show (Fmt.encWi d i) / 65536 % 4 = 0 by unfold Fmt.encWi; have := d.isLt; have := i.isLt; omega]
  have hd := decWi_enc 0 d i
  rw [Nat.zero_mul, Nat.zero_add] at hd
  show ((Fmt.decWi (Fmt.encWi d i)).map (fun (d, i) => Instr.movzLo d i)) = _
  exact congrArg (Option.map _) hd
theorem movzHi (d : BitVec 7) (i : BitVec 16) : Statement (.movzHi d i) := by
  intro _ c
  have hlt := encWi_lt d i
  show decodeInstr (wordOf c 0x0E (65536 + Fmt.encWi d i)) = _
  rw [at_0E c _ (by unfold Fmt.encWi; have := d.isLt; have := i.isLt; omega)]
  rw [show (65536 + Fmt.encWi d i) / 65536 % 4 = 1 by unfold Fmt.encWi; have := d.isLt; have := i.isLt; omega]
  have hd : Fmt.decWi (65536 + Fmt.encWi d i) = some (d, i) := by
    unfold Fmt.decWi Fmt.encWi; have := d.isLt; have := i.isLt
    simp only [Option.some.injEq, Prod.mk.injEq]
    exact ⟨ofNat_eq_of_mod _ _ (by omega), ofNat_eq_of_mod _ _ (by omega)⟩
  show ((Fmt.decWi (65536 + Fmt.encWi d i)).map (fun (d, i) => Instr.movzHi d i)) = _
  exact congrArg (Option.map _) hd
theorem movkLo (d : BitVec 7) (i : BitVec 16) : Statement (.movkLo d i) := by
  intro _ c
  have hlt := encWi_lt d i
  show decodeInstr (wordOf c 0x0E (131072 + Fmt.encWi d i)) = _
  rw [at_0E c _ (by unfold Fmt.encWi; have := d.isLt; have := i.isLt; omega)]
  rw [show (131072 + Fmt.encWi d i) / 65536 % 4 = 2 by unfold Fmt.encWi; have := d.isLt; have := i.isLt; omega]
  have hd : Fmt.decWi (131072 + Fmt.encWi d i) = some (d, i) := by
    unfold Fmt.decWi Fmt.encWi; have := d.isLt; have := i.isLt
    simp only [Option.some.injEq, Prod.mk.injEq]
    exact ⟨ofNat_eq_of_mod _ _ (by omega), ofNat_eq_of_mod _ _ (by omega)⟩
  show ((Fmt.decWi (131072 + Fmt.encWi d i)).map (fun (d, i) => Instr.movkLo d i)) = _
  exact congrArg (Option.map _) hd
theorem movkHi (d : BitVec 7) (i : BitVec 16) : Statement (.movkHi d i) := by
  intro _ c
  have hlt := encWi_lt d i
  show decodeInstr (wordOf c 0x0E (196608 + Fmt.encWi d i)) = _
  rw [at_0E c _ (by unfold Fmt.encWi; have := d.isLt; have := i.isLt; omega)]
  rw [show (196608 + Fmt.encWi d i) / 65536 % 4 = 3 by unfold Fmt.encWi; have := d.isLt; have := i.isLt; omega]
  have hd : Fmt.decWi (196608 + Fmt.encWi d i) = some (d, i) := by
    unfold Fmt.decWi Fmt.encWi; have := d.isLt; have := i.isLt
    simp only [Option.some.injEq, Prod.mk.injEq]
    exact ⟨ofNat_eq_of_mod _ _ (by omega), ofNat_eq_of_mod _ _ (by omega)⟩
  show ((Fmt.decWi (196608 + Fmt.encWi d i)).map (fun (d, i) => Instr.movkHi d i)) = _
  exact congrArg (Option.map _) hd
theorem icmpEq (d : BitVec 3) (a : BitVec 7) (b : BitVec 7) : Statement (.icmpEq d a b) := by
  intro _ c
  have hlt := encCmp_lt d a b
  show decodeInstr (wordOf c 0x0F (Fmt.encCmp d a b)) = _
  rw [at_0F c _ (by omega)]
  rw [show (Fmt.encCmp d a b) / 2097152 % 16 = 0 by omega]
  have hd := decCmp_enc 0 d a b
  rw [Nat.zero_mul, Nat.zero_add] at hd
  show ((Fmt.decCmp (Fmt.encCmp d a b)).map (fun (d, a, b) => Instr.icmpEq d a b)) = _
  exact congrArg (Option.map _) hd
theorem icmpNe (d : BitVec 3) (a : BitVec 7) (b : BitVec 7) : Statement (.icmpNe d a b) := by
  intro _ c
  have hlt := encCmp_lt d a b
  show decodeInstr (wordOf c 0x0F (2097152 + Fmt.encCmp d a b)) = _
  rw [at_0F c _ (by omega)]
  rw [show (2097152 + Fmt.encCmp d a b) / 2097152 % 16 = 1 by omega]
  have hd := decCmp_enc 1 d a b
  show ((Fmt.decCmp (2097152 + Fmt.encCmp d a b)).map (fun (d, a, b) => Instr.icmpNe d a b)) = _
  exact congrArg (Option.map _) hd
theorem icmpLtI32 (d : BitVec 3) (a : BitVec 7) (b : BitVec 7) : Statement (.icmpLtI32 d a b) := by
  intro _ c
  have hlt := encCmp_lt d a b
  show decodeInstr (wordOf c 0x0F (4194304 + Fmt.encCmp d a b)) = _
  rw [at_0F c _ (by omega)]
  rw [show (4194304 + Fmt.encCmp d a b) / 2097152 % 16 = 2 by omega]
  have hd := decCmp_enc 2 d a b
  show ((Fmt.decCmp (4194304 + Fmt.encCmp d a b)).map (fun (d, a, b) => Instr.icmpLtI32 d a b)) = _
  exact congrArg (Option.map _) hd
theorem icmpLeI32 (d : BitVec 3) (a : BitVec 7) (b : BitVec 7) : Statement (.icmpLeI32 d a b) := by
  intro _ c
  have hlt := encCmp_lt d a b
  show decodeInstr (wordOf c 0x0F (6291456 + Fmt.encCmp d a b)) = _
  rw [at_0F c _ (by omega)]
  rw [show (6291456 + Fmt.encCmp d a b) / 2097152 % 16 = 3 by omega]
  have hd := decCmp_enc 3 d a b
  show ((Fmt.decCmp (6291456 + Fmt.encCmp d a b)).map (fun (d, a, b) => Instr.icmpLeI32 d a b)) = _
  exact congrArg (Option.map _) hd
theorem icmpGtI32 (d : BitVec 3) (a : BitVec 7) (b : BitVec 7) : Statement (.icmpGtI32 d a b) := by
  intro _ c
  have hlt := encCmp_lt d a b
  show decodeInstr (wordOf c 0x0F (8388608 + Fmt.encCmp d a b)) = _
  rw [at_0F c _ (by omega)]
  rw [show (8388608 + Fmt.encCmp d a b) / 2097152 % 16 = 4 by omega]
  have hd := decCmp_enc 4 d a b
  show ((Fmt.decCmp (8388608 + Fmt.encCmp d a b)).map (fun (d, a, b) => Instr.icmpGtI32 d a b)) = _
  exact congrArg (Option.map _) hd
theorem icmpGeI32 (d : BitVec 3) (a : BitVec 7) (b : BitVec 7) : Statement (.icmpGeI32 d a b) := by
  intro _ c
  have hlt := encCmp_lt d a b
  show decodeInstr (wordOf c 0x0F (10485760 + Fmt.encCmp d a b)) = _
  rw [at_0F c _ (by omega)]
  rw [show (10485760 + Fmt.encCmp d a b) / 2097152 % 16 = 5 by omega]
  have hd := decCmp_enc 5 d a b
  show ((Fmt.decCmp (10485760 + Fmt.encCmp d a b)).map (fun (d, a, b) => Instr.icmpGeI32 d a b)) = _
  exact congrArg (Option.map _) hd
theorem icmpLtN32 (d : BitVec 3) (a : BitVec 7) (b : BitVec 7) : Statement (.icmpLtN32 d a b) := by
  intro _ c
  have hlt := encCmp_lt d a b
  show decodeInstr (wordOf c 0x0F (12582912 + Fmt.encCmp d a b)) = _
  rw [at_0F c _ (by omega)]
  rw [show (12582912 + Fmt.encCmp d a b) / 2097152 % 16 = 6 by omega]
  have hd := decCmp_enc 6 d a b
  show ((Fmt.decCmp (12582912 + Fmt.encCmp d a b)).map (fun (d, a, b) => Instr.icmpLtN32 d a b)) = _
  exact congrArg (Option.map _) hd
theorem icmpLeN32 (d : BitVec 3) (a : BitVec 7) (b : BitVec 7) : Statement (.icmpLeN32 d a b) := by
  intro _ c
  have hlt := encCmp_lt d a b
  show decodeInstr (wordOf c 0x0F (14680064 + Fmt.encCmp d a b)) = _
  rw [at_0F c _ (by omega)]
  rw [show (14680064 + Fmt.encCmp d a b) / 2097152 % 16 = 7 by omega]
  have hd := decCmp_enc 7 d a b
  show ((Fmt.decCmp (14680064 + Fmt.encCmp d a b)).map (fun (d, a, b) => Instr.icmpLeN32 d a b)) = _
  exact congrArg (Option.map _) hd
theorem icmpGtN32 (d : BitVec 3) (a : BitVec 7) (b : BitVec 7) : Statement (.icmpGtN32 d a b) := by
  intro _ c
  have hlt := encCmp_lt d a b
  show decodeInstr (wordOf c 0x0F (16777216 + Fmt.encCmp d a b)) = _
  rw [at_0F c _ (by omega)]
  rw [show (16777216 + Fmt.encCmp d a b) / 2097152 % 16 = 8 by omega]
  have hd := decCmp_enc 8 d a b
  show ((Fmt.decCmp (16777216 + Fmt.encCmp d a b)).map (fun (d, a, b) => Instr.icmpGtN32 d a b)) = _
  exact congrArg (Option.map _) hd
theorem icmpGeN32 (d : BitVec 3) (a : BitVec 7) (b : BitVec 7) : Statement (.icmpGeN32 d a b) := by
  intro _ c
  have hlt := encCmp_lt d a b
  show decodeInstr (wordOf c 0x0F (18874368 + Fmt.encCmp d a b)) = _
  rw [at_0F c _ (by omega)]
  rw [show (18874368 + Fmt.encCmp d a b) / 2097152 % 16 = 9 by omega]
  have hd := decCmp_enc 9 d a b
  show ((Fmt.decCmp (18874368 + Fmt.encCmp d a b)).map (fun (d, a, b) => Instr.icmpGeN32 d a b)) = _
  exact congrArg (Option.map _) hd
theorem icmpEqI64 (d : BitVec 3) (a : BitVec 7) (b : BitVec 7) : Statement (.icmpEqI64 d a b) := by
  intro _ c
  have hlt := encCmp_lt d a b
  show decodeInstr (wordOf c 0x0F (20971520 + Fmt.encCmp d a b)) = _
  rw [at_0F c _ (by omega)]
  rw [show (20971520 + Fmt.encCmp d a b) / 2097152 % 16 = 10 by omega]
  have hd := decCmp_enc 10 d a b
  show ((Fmt.decCmp (20971520 + Fmt.encCmp d a b)).map (fun (d, a, b) => Instr.icmpEqI64 d a b)) = _
  exact congrArg (Option.map _) hd
theorem icmpLtI64 (d : BitVec 3) (a : BitVec 7) (b : BitVec 7) : Statement (.icmpLtI64 d a b) := by
  intro _ c
  have hlt := encCmp_lt d a b
  show decodeInstr (wordOf c 0x0F (23068672 + Fmt.encCmp d a b)) = _
  rw [at_0F c _ (by omega)]
  rw [show (23068672 + Fmt.encCmp d a b) / 2097152 % 16 = 11 by omega]
  have hd := decCmp_enc 11 d a b
  show ((Fmt.decCmp (23068672 + Fmt.encCmp d a b)).map (fun (d, a, b) => Instr.icmpLtI64 d a b)) = _
  exact congrArg (Option.map _) hd
theorem icmpLtN64 (d : BitVec 3) (a : BitVec 7) (b : BitVec 7) : Statement (.icmpLtN64 d a b) := by
  intro _ c
  have hlt := encCmp_lt d a b
  show decodeInstr (wordOf c 0x0F (25165824 + Fmt.encCmp d a b)) = _
  rw [at_0F c _ (by omega)]
  rw [show (25165824 + Fmt.encCmp d a b) / 2097152 % 16 = 12 by omega]
  have hd := decCmp_enc 12 d a b
  show ((Fmt.decCmp (25165824 + Fmt.encCmp d a b)).map (fun (d, a, b) => Instr.icmpLtN64 d a b)) = _
  exact congrArg (Option.map _) hd
theorem addI64 (d : BitVec 7) (a : BitVec 7) (b : BitVec 7) : Statement (.addI64 d a b) := by
  intro _ c
  have hlt := encRrr_lt d a b
  show decodeInstr (wordOf c 0x10 (Fmt.encRrr d a b)) = _
  rw [at_10 c _ (by omega)]
  rw [show (Fmt.encRrr d a b) / 2097152 % 16 = 0 by omega]
  have hd := decRrr_enc 0 d a b
  rw [Nat.zero_mul, Nat.zero_add] at hd
  show ((Fmt.decRrr (Fmt.encRrr d a b)).map (fun (d, a, b) => Instr.addI64 d a b)) = _
  exact congrArg (Option.map _) hd
theorem subI64 (d : BitVec 7) (a : BitVec 7) (b : BitVec 7) : Statement (.subI64 d a b) := by
  intro _ c
  have hlt := encRrr_lt d a b
  show decodeInstr (wordOf c 0x10 (2097152 + Fmt.encRrr d a b)) = _
  rw [at_10 c _ (by omega)]
  rw [show (2097152 + Fmt.encRrr d a b) / 2097152 % 16 = 1 by omega]
  have hd := decRrr_enc 1 d a b
  show ((Fmt.decRrr (2097152 + Fmt.encRrr d a b)).map (fun (d, a, b) => Instr.subI64 d a b)) = _
  exact congrArg (Option.map _) hd
theorem mulI64 (d : BitVec 7) (a : BitVec 7) (b : BitVec 7) : Statement (.mulI64 d a b) := by
  intro _ c
  have hlt := encRrr_lt d a b
  show decodeInstr (wordOf c 0x10 (4194304 + Fmt.encRrr d a b)) = _
  rw [at_10 c _ (by omega)]
  rw [show (4194304 + Fmt.encRrr d a b) / 2097152 % 16 = 2 by omega]
  have hd := decRrr_enc 2 d a b
  show ((Fmt.decRrr (4194304 + Fmt.encRrr d a b)).map (fun (d, a, b) => Instr.mulI64 d a b)) = _
  exact congrArg (Option.map _) hd
theorem shlI64 (d : BitVec 7) (a : BitVec 7) (b : BitVec 7) : Statement (.shlI64 d a b) := by
  intro _ c
  have hlt := encRrr_lt d a b
  show decodeInstr (wordOf c 0x10 (6291456 + Fmt.encRrr d a b)) = _
  rw [at_10 c _ (by omega)]
  rw [show (6291456 + Fmt.encRrr d a b) / 2097152 % 16 = 3 by omega]
  have hd := decRrr_enc 3 d a b
  show ((Fmt.decRrr (6291456 + Fmt.encRrr d a b)).map (fun (d, a, b) => Instr.shlI64 d a b)) = _
  exact congrArg (Option.map _) hd
theorem shrN64 (d : BitVec 7) (a : BitVec 7) (b : BitVec 7) : Statement (.shrN64 d a b) := by
  intro _ c
  have hlt := encRrr_lt d a b
  show decodeInstr (wordOf c 0x10 (8388608 + Fmt.encRrr d a b)) = _
  rw [at_10 c _ (by omega)]
  rw [show (8388608 + Fmt.encRrr d a b) / 2097152 % 16 = 4 by omega]
  have hd := decRrr_enc 4 d a b
  show ((Fmt.decRrr (8388608 + Fmt.encRrr d a b)).map (fun (d, a, b) => Instr.shrN64 d a b)) = _
  exact congrArg (Option.map _) hd
theorem shrI64 (d : BitVec 7) (a : BitVec 7) (b : BitVec 7) : Statement (.shrI64 d a b) := by
  intro _ c
  have hlt := encRrr_lt d a b
  show decodeInstr (wordOf c 0x10 (10485760 + Fmt.encRrr d a b)) = _
  rw [at_10 c _ (by omega)]
  rw [show (10485760 + Fmt.encRrr d a b) / 2097152 % 16 = 5 by omega]
  have hd := decRrr_enc 5 d a b
  show ((Fmt.decRrr (10485760 + Fmt.encRrr d a b)).map (fun (d, a, b) => Instr.shrI64 d a b)) = _
  exact congrArg (Option.map _) hd
theorem sextI64 (d : BitVec 7) (a : BitVec 7) : Statement (.sextI64 d a) := by
  intro _ c
  have hlt := encRr_lt d a
  show decodeInstr (wordOf c 0x10 (12582912 + Fmt.encRr d a)) = _
  rw [at_10 c _ (by omega)]
  rw [show (12582912 + Fmt.encRr d a) / 2097152 % 16 = 6 by omega]
  have hd := decRr_enc 6 d a
  show ((Fmt.decRr (12582912 + Fmt.encRr d a)).map (fun (d, a) => Instr.sextI64 d a)) = _
  exact congrArg (Option.map _) hd
theorem zextI64 (d : BitVec 7) (a : BitVec 7) : Statement (.zextI64 d a) := by
  intro _ c
  have hlt := encRr_lt d a
  show decodeInstr (wordOf c 0x10 (14680064 + Fmt.encRr d a)) = _
  rw [at_10 c _ (by omega)]
  rw [show (14680064 + Fmt.encRr d a) / 2097152 % 16 = 7 by omega]
  have hd := decRr_enc 7 d a
  show ((Fmt.decRr (14680064 + Fmt.encRr d a)).map (fun (d, a) => Instr.zextI64 d a)) = _
  exact congrArg (Option.map _) hd
theorem leaX1 (d : BitVec 7) (a : BitVec 7) (b : BitVec 7) : Statement (.leaX1 d a b) := by
  intro _ c
  have hlt := encRrr_lt d a b
  show decodeInstr (wordOf c 0x10 (16777216 + Fmt.encRrr d a b)) = _
  rw [at_10 c _ (by omega)]
  rw [show (16777216 + Fmt.encRrr d a b) / 2097152 % 16 = 8 by omega]
  have hd := decRrr_enc 8 d a b
  show ((Fmt.decRrr (16777216 + Fmt.encRrr d a b)).map (fun (d, a, b) => Instr.leaX1 d a b)) = _
  exact congrArg (Option.map _) hd
theorem leaX2 (d : BitVec 7) (a : BitVec 7) (b : BitVec 7) : Statement (.leaX2 d a b) := by
  intro _ c
  have hlt := encRrr_lt d a b
  show decodeInstr (wordOf c 0x10 (18874368 + Fmt.encRrr d a b)) = _
  rw [at_10 c _ (by omega)]
  rw [show (18874368 + Fmt.encRrr d a b) / 2097152 % 16 = 9 by omega]
  have hd := decRrr_enc 9 d a b
  show ((Fmt.decRrr (18874368 + Fmt.encRrr d a b)).map (fun (d, a, b) => Instr.leaX2 d a b)) = _
  exact congrArg (Option.map _) hd
theorem leaX4 (d : BitVec 7) (a : BitVec 7) (b : BitVec 7) : Statement (.leaX4 d a b) := by
  intro _ c
  have hlt := encRrr_lt d a b
  show decodeInstr (wordOf c 0x10 (20971520 + Fmt.encRrr d a b)) = _
  rw [at_10 c _ (by omega)]
  rw [show (20971520 + Fmt.encRrr d a b) / 2097152 % 16 = 10 by omega]
  have hd := decRrr_enc 10 d a b
  show ((Fmt.decRrr (20971520 + Fmt.encRrr d a b)).map (fun (d, a, b) => Instr.leaX4 d a b)) = _
  exact congrArg (Option.map _) hd
theorem leaX8 (d : BitVec 7) (a : BitVec 7) (b : BitVec 7) : Statement (.leaX8 d a b) := by
  intro _ c
  have hlt := encRrr_lt d a b
  show decodeInstr (wordOf c 0x10 (23068672 + Fmt.encRrr d a b)) = _
  rw [at_10 c _ (by omega)]
  rw [show (23068672 + Fmt.encRrr d a b) / 2097152 % 16 = 11 by omega]
  have hd := decRrr_enc 11 d a b
  show ((Fmt.decRrr (23068672 + Fmt.encRrr d a b)).map (fun (d, a, b) => Instr.leaX8 d a b)) = _
  exact congrArg (Option.map _) hd
theorem leaX16 (d : BitVec 7) (a : BitVec 7) (b : BitVec 7) : Statement (.leaX16 d a b) := by
  intro _ c
  have hlt := encRrr_lt d a b
  show decodeInstr (wordOf c 0x10 (25165824 + Fmt.encRrr d a b)) = _
  rw [at_10 c _ (by omega)]
  rw [show (25165824 + Fmt.encRrr d a b) / 2097152 % 16 = 12 by omega]
  have hd := decRrr_enc 12 d a b
  show ((Fmt.decRrr (25165824 + Fmt.encRrr d a b)).map (fun (d, a, b) => Instr.leaX16 d a b)) = _
  exact congrArg (Option.map _) hd
theorem addI16x2 (d : BitVec 7) (a : BitVec 7) (b : BitVec 7) : Statement (.addI16x2 d a b) := by
  intro _ c
  have hlt := encRrr_lt d a b
  show decodeInstr (wordOf c 0x11 (Fmt.encRrr d a b)) = _
  rw [at_11 c _ (by omega)]
  rw [show (Fmt.encRrr d a b) / 2097152 % 16 = 0 by omega]
  have hd := decRrr_enc 0 d a b
  rw [Nat.zero_mul, Nat.zero_add] at hd
  show ((Fmt.decRrr (Fmt.encRrr d a b)).map (fun (d, a, b) => Instr.addI16x2 d a b)) = _
  exact congrArg (Option.map _) hd
theorem subI16x2 (d : BitVec 7) (a : BitVec 7) (b : BitVec 7) : Statement (.subI16x2 d a b) := by
  intro _ c
  have hlt := encRrr_lt d a b
  show decodeInstr (wordOf c 0x11 (2097152 + Fmt.encRrr d a b)) = _
  rw [at_11 c _ (by omega)]
  rw [show (2097152 + Fmt.encRrr d a b) / 2097152 % 16 = 1 by omega]
  have hd := decRrr_enc 1 d a b
  show ((Fmt.decRrr (2097152 + Fmt.encRrr d a b)).map (fun (d, a, b) => Instr.subI16x2 d a b)) = _
  exact congrArg (Option.map _) hd
theorem addsI16x2 (d : BitVec 7) (a : BitVec 7) (b : BitVec 7) : Statement (.addsI16x2 d a b) := by
  intro _ c
  have hlt := encRrr_lt d a b
  show decodeInstr (wordOf c 0x11 (4194304 + Fmt.encRrr d a b)) = _
  rw [at_11 c _ (by omega)]
  rw [show (4194304 + Fmt.encRrr d a b) / 2097152 % 16 = 2 by omega]
  have hd := decRrr_enc 2 d a b
  show ((Fmt.decRrr (4194304 + Fmt.encRrr d a b)).map (fun (d, a, b) => Instr.addsI16x2 d a b)) = _
  exact congrArg (Option.map _) hd
theorem subsI16x2 (d : BitVec 7) (a : BitVec 7) (b : BitVec 7) : Statement (.subsI16x2 d a b) := by
  intro _ c
  have hlt := encRrr_lt d a b
  show decodeInstr (wordOf c 0x11 (6291456 + Fmt.encRrr d a b)) = _
  rw [at_11 c _ (by omega)]
  rw [show (6291456 + Fmt.encRrr d a b) / 2097152 % 16 = 3 by omega]
  have hd := decRrr_enc 3 d a b
  show ((Fmt.decRrr (6291456 + Fmt.encRrr d a b)).map (fun (d, a, b) => Instr.subsI16x2 d a b)) = _
  exact congrArg (Option.map _) hd
theorem minI16x2 (d : BitVec 7) (a : BitVec 7) (b : BitVec 7) : Statement (.minI16x2 d a b) := by
  intro _ c
  have hlt := encRrr_lt d a b
  show decodeInstr (wordOf c 0x11 (8388608 + Fmt.encRrr d a b)) = _
  rw [at_11 c _ (by omega)]
  rw [show (8388608 + Fmt.encRrr d a b) / 2097152 % 16 = 4 by omega]
  have hd := decRrr_enc 4 d a b
  show ((Fmt.decRrr (8388608 + Fmt.encRrr d a b)).map (fun (d, a, b) => Instr.minI16x2 d a b)) = _
  exact congrArg (Option.map _) hd
theorem maxI16x2 (d : BitVec 7) (a : BitVec 7) (b : BitVec 7) : Statement (.maxI16x2 d a b) := by
  intro _ c
  have hlt := encRrr_lt d a b
  show decodeInstr (wordOf c 0x11 (10485760 + Fmt.encRrr d a b)) = _
  rw [at_11 c _ (by omega)]
  rw [show (10485760 + Fmt.encRrr d a b) / 2097152 % 16 = 5 by omega]
  have hd := decRrr_enc 5 d a b
  show ((Fmt.decRrr (10485760 + Fmt.encRrr d a b)).map (fun (d, a, b) => Instr.maxI16x2 d a b)) = _
  exact congrArg (Option.map _) hd
theorem gtbitsI16x2 (d : BitVec 7) (a : BitVec 7) (b : BitVec 7) : Statement (.gtbitsI16x2 d a b) := by
  intro _ c
  have hlt := encRrr_lt d a b
  show decodeInstr (wordOf c 0x11 (12582912 + Fmt.encRrr d a b)) = _
  rw [at_11 c _ (by omega)]
  rw [show (12582912 + Fmt.encRrr d a b) / 2097152 % 16 = 6 by omega]
  have hd := decRrr_enc 6 d a b
  show ((Fmt.decRrr (12582912 + Fmt.encRrr d a b)).map (fun (d, a, b) => Instr.gtbitsI16x2 d a b)) = _
  exact congrArg (Option.map _) hd
theorem shrI16x2 (d : BitVec 7) (a : BitVec 7) (b : BitVec 7) : Statement (.shrI16x2 d a b) := by
  intro _ c
  have hlt := encRrr_lt d a b
  show decodeInstr (wordOf c 0x11 (14680064 + Fmt.encRrr d a b)) = _
  rw [at_11 c _ (by omega)]
  rw [show (14680064 + Fmt.encRrr d a b) / 2097152 % 16 = 7 by omega]
  have hd := decRrr_enc 7 d a b
  show ((Fmt.decRrr (14680064 + Fmt.encRrr d a b)).map (fun (d, a, b) => Instr.shrI16x2 d a b)) = _
  exact congrArg (Option.map _) hd
theorem packI16x2 (d : BitVec 7) (a : BitVec 7) (b : BitVec 7) : Statement (.packI16x2 d a b) := by
  intro _ c
  have hlt := encRrr_lt d a b
  show decodeInstr (wordOf c 0x11 (16777216 + Fmt.encRrr d a b)) = _
  rw [at_11 c _ (by omega)]
  rw [show (16777216 + Fmt.encRrr d a b) / 2097152 % 16 = 8 by omega]
  have hd := decRrr_enc 8 d a b
  show ((Fmt.decRrr (16777216 + Fmt.encRrr d a b)).map (fun (d, a, b) => Instr.packI16x2 d a b)) = _
  exact congrArg (Option.map _) hd
theorem sext8 (d : BitVec 7) (a : BitVec 7) : Statement (.sext8 d a) := by
  intro _ c
  have hlt := encRr_lt d a
  show decodeInstr (wordOf c 0x11 (18874368 + Fmt.encRr d a)) = _
  rw [at_11 c _ (by omega)]
  rw [show (18874368 + Fmt.encRr d a) / 2097152 % 16 = 9 by omega]
  have hd := decRr_enc 9 d a
  show ((Fmt.decRr (18874368 + Fmt.encRr d a)).map (fun (d, a) => Instr.sext8 d a)) = _
  exact congrArg (Option.map _) hd
theorem sext16 (d : BitVec 7) (a : BitVec 7) : Statement (.sext16 d a) := by
  intro _ c
  have hlt := encRr_lt d a
  show decodeInstr (wordOf c 0x11 (20971520 + Fmt.encRr d a)) = _
  rw [at_11 c _ (by omega)]
  rw [show (20971520 + Fmt.encRr d a) / 2097152 % 16 = 10 by omega]
  have hd := decRr_enc 10 d a
  show ((Fmt.decRr (20971520 + Fmt.encRr d a)).map (fun (d, a) => Instr.sext16 d a)) = _
  exact congrArg (Option.map _) hd
theorem zext8 (d : BitVec 7) (a : BitVec 7) : Statement (.zext8 d a) := by
  intro _ c
  have hlt := encRr_lt d a
  show decodeInstr (wordOf c 0x11 (23068672 + Fmt.encRr d a)) = _
  rw [at_11 c _ (by omega)]
  rw [show (23068672 + Fmt.encRr d a) / 2097152 % 16 = 11 by omega]
  have hd := decRr_enc 11 d a
  show ((Fmt.decRr (23068672 + Fmt.encRr d a)).map (fun (d, a) => Instr.zext8 d a)) = _
  exact congrArg (Option.map _) hd
theorem zext16 (d : BitVec 7) (a : BitVec 7) : Statement (.zext16 d a) := by
  intro _ c
  have hlt := encRr_lt d a
  show decodeInstr (wordOf c 0x11 (25165824 + Fmt.encRr d a)) = _
  rw [at_11 c _ (by omega)]
  rw [show (25165824 + Fmt.encRr d a) / 2097152 % 16 = 12 by omega]
  have hd := decRr_enc 12 d a
  show ((Fmt.decRr (25165824 + Fmt.encRr d a)).map (fun (d, a) => Instr.zext16 d a)) = _
  exact congrArg (Option.map _) hd
theorem msadB4 (min : BitVec 4) (d : BitVec 7) (a : BitVec 7) (b : BitVec 7) : Statement (.msadB4 min d a b) := by
  intro _ c
  have hlt := encMsadB4_lt min d a b
  show decodeInstr (wordOf c 0x13 (Fmt.encMsadB4 min d a b)) = _
  rw [at_13 c _ (by omega)]
  have hd := decMsadB4_enc 0 min d a b
  rw [Nat.zero_mul, Nat.zero_add] at hd
  show ((Fmt.decMsadB4 (Fmt.encMsadB4 min d a b)).map (fun (min, d, a, b) => Instr.msadB4 min d a b)) = _
  exact congrArg (Option.map _) hd
theorem addF32 : Statement (.addF32 d a b) := by
  intro _ c
  have hlt := encRrr_lt d a b
  show decodeInstr (wordOf c 0x14 (Fmt.encRrr d a b)) = _
  rw [at_14 c _ (by omega)]
  rw [show (Fmt.encRrr d a b) / 2097152 % 16 = 0 by omega]
  have hd := decRrr_enc 0 d a b
  rw [Nat.zero_mul, Nat.zero_add] at hd
  show ((Fmt.decRrr (Fmt.encRrr d a b)).map (fun (d, a, b) => Instr.addF32 d a b)) = _
  exact congrArg (Option.map _) hd
theorem subF32 (d : BitVec 7) (a : BitVec 7) (b : BitVec 7) : Statement (.subF32 d a b) := by
  intro _ c
  have hlt := encRrr_lt d a b
  show decodeInstr (wordOf c 0x14 (2097152 + Fmt.encRrr d a b)) = _
  rw [at_14 c _ (by omega)]
  rw [show (2097152 + Fmt.encRrr d a b) / 2097152 % 16 = 1 by omega]
  have hd := decRrr_enc 1 d a b
  show ((Fmt.decRrr (2097152 + Fmt.encRrr d a b)).map (fun (d, a, b) => Instr.subF32 d a b)) = _
  exact congrArg (Option.map _) hd
theorem mulF32 (d : BitVec 7) (a : BitVec 7) (b : BitVec 7) : Statement (.mulF32 d a b) := by
  intro _ c
  have hlt := encRrr_lt d a b
  show decodeInstr (wordOf c 0x14 (4194304 + Fmt.encRrr d a b)) = _
  rw [at_14 c _ (by omega)]
  rw [show (4194304 + Fmt.encRrr d a b) / 2097152 % 16 = 2 by omega]
  have hd := decRrr_enc 2 d a b
  show ((Fmt.decRrr (4194304 + Fmt.encRrr d a b)).map (fun (d, a, b) => Instr.mulF32 d a b)) = _
  exact congrArg (Option.map _) hd
theorem fmaF32 (d : BitVec 7) (a : BitVec 7) (b : BitVec 7) : Statement (.fmaF32 d a b) := by
  intro _ c
  have hlt := encRrr_lt d a b
  show decodeInstr (wordOf c 0x14 (6291456 + Fmt.encRrr d a b)) = _
  rw [at_14 c _ (by omega)]
  rw [show (6291456 + Fmt.encRrr d a b) / 2097152 % 16 = 3 by omega]
  have hd := decRrr_enc 3 d a b
  show ((Fmt.decRrr (6291456 + Fmt.encRrr d a b)).map (fun (d, a, b) => Instr.fmaF32 d a b)) = _
  exact congrArg (Option.map _) hd
theorem fmsF32 (d : BitVec 7) (a : BitVec 7) (b : BitVec 7) : Statement (.fmsF32 d a b) := by
  intro _ c
  have hlt := encRrr_lt d a b
  show decodeInstr (wordOf c 0x14 (8388608 + Fmt.encRrr d a b)) = _
  rw [at_14 c _ (by omega)]
  rw [show (8388608 + Fmt.encRrr d a b) / 2097152 % 16 = 4 by omega]
  have hd := decRrr_enc 4 d a b
  show ((Fmt.decRrr (8388608 + Fmt.encRrr d a b)).map (fun (d, a, b) => Instr.fmsF32 d a b)) = _
  exact congrArg (Option.map _) hd
theorem minF32 (d : BitVec 7) (a : BitVec 7) (b : BitVec 7) : Statement (.minF32 d a b) := by
  intro _ c
  have hlt := encRrr_lt d a b
  show decodeInstr (wordOf c 0x14 (10485760 + Fmt.encRrr d a b)) = _
  rw [at_14 c _ (by omega)]
  rw [show (10485760 + Fmt.encRrr d a b) / 2097152 % 16 = 5 by omega]
  have hd := decRrr_enc 5 d a b
  show ((Fmt.decRrr (10485760 + Fmt.encRrr d a b)).map (fun (d, a, b) => Instr.minF32 d a b)) = _
  exact congrArg (Option.map _) hd
theorem maxF32 (d : BitVec 7) (a : BitVec 7) (b : BitVec 7) : Statement (.maxF32 d a b) := by
  intro _ c
  have hlt := encRrr_lt d a b
  show decodeInstr (wordOf c 0x14 (12582912 + Fmt.encRrr d a b)) = _
  rw [at_14 c _ (by omega)]
  rw [show (12582912 + Fmt.encRrr d a b) / 2097152 % 16 = 6 by omega]
  have hd := decRrr_enc 6 d a b
  show ((Fmt.decRrr (12582912 + Fmt.encRrr d a b)).map (fun (d, a, b) => Instr.maxF32 d a b)) = _
  exact congrArg (Option.map _) hd
theorem absF32 (d : BitVec 7) (a : BitVec 7) : Statement (.absF32 d a) := by
  intro _ c
  have hlt := encRr_lt d a
  show decodeInstr (wordOf c 0x14 (14680064 + Fmt.encRr d a)) = _
  rw [at_14 c _ (by omega)]
  rw [show (14680064 + Fmt.encRr d a) / 2097152 % 16 = 7 by omega]
  have hd := decRr_enc 7 d a
  show ((Fmt.decRr (14680064 + Fmt.encRr d a)).map (fun (d, a) => Instr.absF32 d a)) = _
  exact congrArg (Option.map _) hd
theorem negF32 (d : BitVec 7) (a : BitVec 7) : Statement (.negF32 d a) := by
  intro _ c
  have hlt := encRr_lt d a
  show decodeInstr (wordOf c 0x14 (16777216 + Fmt.encRr d a)) = _
  rw [at_14 c _ (by omega)]
  rw [show (16777216 + Fmt.encRr d a) / 2097152 % 16 = 8 by omega]
  have hd := decRr_enc 8 d a
  show ((Fmt.decRr (16777216 + Fmt.encRr d a)).map (fun (d, a) => Instr.negF32 d a)) = _
  exact congrArg (Option.map _) hd
theorem copysignF32 (d : BitVec 7) (a : BitVec 7) (b : BitVec 7) : Statement (.copysignF32 d a b) := by
  intro _ c
  have hlt := encRrr_lt d a b
  show decodeInstr (wordOf c 0x14 (18874368 + Fmt.encRrr d a b)) = _
  rw [at_14 c _ (by omega)]
  rw [show (18874368 + Fmt.encRrr d a b) / 2097152 % 16 = 9 by omega]
  have hd := decRrr_enc 9 d a b
  show ((Fmt.decRrr (18874368 + Fmt.encRrr d a b)).map (fun (d, a, b) => Instr.copysignF32 d a b)) = _
  exact congrArg (Option.map _) hd
theorem floorF32 (d : BitVec 7) (a : BitVec 7) : Statement (.floorF32 d a) := by
  intro _ c
  have hlt := encRr_lt d a
  show decodeInstr (wordOf c 0x14 (20971520 + Fmt.encRr d a)) = _
  rw [at_14 c _ (by omega)]
  rw [show (20971520 + Fmt.encRr d a) / 2097152 % 16 = 10 by omega]
  have hd := decRr_enc 10 d a
  show ((Fmt.decRr (20971520 + Fmt.encRr d a)).map (fun (d, a) => Instr.floorF32 d a)) = _
  exact congrArg (Option.map _) hd
theorem ceilF32 (d : BitVec 7) (a : BitVec 7) : Statement (.ceilF32 d a) := by
  intro _ c
  have hlt := encRr_lt d a
  show decodeInstr (wordOf c 0x14 (23068672 + Fmt.encRr d a)) = _
  rw [at_14 c _ (by omega)]
  rw [show (23068672 + Fmt.encRr d a) / 2097152 % 16 = 11 by omega]
  have hd := decRr_enc 11 d a
  show ((Fmt.decRr (23068672 + Fmt.encRr d a)).map (fun (d, a) => Instr.ceilF32 d a)) = _
  exact congrArg (Option.map _) hd
theorem truncF32 (d : BitVec 7) (a : BitVec 7) : Statement (.truncF32 d a) := by
  intro _ c
  have hlt := encRr_lt d a
  show decodeInstr (wordOf c 0x14 (25165824 + Fmt.encRr d a)) = _
  rw [at_14 c _ (by omega)]
  rw [show (25165824 + Fmt.encRr d a) / 2097152 % 16 = 12 by omega]
  have hd := decRr_enc 12 d a
  show ((Fmt.decRr (25165824 + Fmt.encRr d a)).map (fun (d, a) => Instr.truncF32 d a)) = _
  exact congrArg (Option.map _) hd
theorem rintF32 (d : BitVec 7) (a : BitVec 7) : Statement (.rintF32 d a) := by
  intro _ c
  have hlt := encRr_lt d a
  show decodeInstr (wordOf c 0x14 (27262976 + Fmt.encRr d a)) = _
  rw [at_14 c _ (by omega)]
  rw [show (27262976 + Fmt.encRr d a) / 2097152 % 16 = 13 by omega]
  have hd := decRr_enc 13 d a
  show ((Fmt.decRr (27262976 + Fmt.encRr d a)).map (fun (d, a) => Instr.rintF32 d a)) = _
  exact congrArg (Option.map _) hd
theorem fractF32 (d : BitVec 7) (a : BitVec 7) : Statement (.fractF32 d a) := by
  intro _ c
  have hlt := encRr_lt d a
  show decodeInstr (wordOf c 0x14 (29360128 + Fmt.encRr d a)) = _
  rw [at_14 c _ (by omega)]
  rw [show (29360128 + Fmt.encRr d a) / 2097152 % 16 = 14 by omega]
  have hd := decRr_enc 14 d a
  show ((Fmt.decRr (29360128 + Fmt.encRr d a)).map (fun (d, a) => Instr.fractF32 d a)) = _
  exact congrArg (Option.map _) hd
theorem addF64 (d : BitVec 7) (a : BitVec 7) (b : BitVec 7) : Statement (.addF64 d a b) := by
  intro _ c
  have hlt := encRrr_lt d a b
  show decodeInstr (wordOf c 0x15 (Fmt.encRrr d a b)) = _
  rw [at_15 c _ (by omega)]
  rw [show (Fmt.encRrr d a b) / 2097152 % 16 = 0 by omega]
  have hd := decRrr_enc 0 d a b
  rw [Nat.zero_mul, Nat.zero_add] at hd
  show ((Fmt.decRrr (Fmt.encRrr d a b)).map (fun (d, a, b) => Instr.addF64 d a b)) = _
  exact congrArg (Option.map _) hd
theorem subF64 (d : BitVec 7) (a : BitVec 7) (b : BitVec 7) : Statement (.subF64 d a b) := by
  intro _ c
  have hlt := encRrr_lt d a b
  show decodeInstr (wordOf c 0x15 (2097152 + Fmt.encRrr d a b)) = _
  rw [at_15 c _ (by omega)]
  rw [show (2097152 + Fmt.encRrr d a b) / 2097152 % 16 = 1 by omega]
  have hd := decRrr_enc 1 d a b
  show ((Fmt.decRrr (2097152 + Fmt.encRrr d a b)).map (fun (d, a, b) => Instr.subF64 d a b)) = _
  exact congrArg (Option.map _) hd
theorem mulF64 (d : BitVec 7) (a : BitVec 7) (b : BitVec 7) : Statement (.mulF64 d a b) := by
  intro _ c
  have hlt := encRrr_lt d a b
  show decodeInstr (wordOf c 0x15 (4194304 + Fmt.encRrr d a b)) = _
  rw [at_15 c _ (by omega)]
  rw [show (4194304 + Fmt.encRrr d a b) / 2097152 % 16 = 2 by omega]
  have hd := decRrr_enc 2 d a b
  show ((Fmt.decRrr (4194304 + Fmt.encRrr d a b)).map (fun (d, a, b) => Instr.mulF64 d a b)) = _
  exact congrArg (Option.map _) hd
theorem fmaF64 (d : BitVec 7) (a : BitVec 7) (b : BitVec 7) : Statement (.fmaF64 d a b) := by
  intro _ c
  have hlt := encRrr_lt d a b
  show decodeInstr (wordOf c 0x15 (6291456 + Fmt.encRrr d a b)) = _
  rw [at_15 c _ (by omega)]
  rw [show (6291456 + Fmt.encRrr d a b) / 2097152 % 16 = 3 by omega]
  have hd := decRrr_enc 3 d a b
  show ((Fmt.decRrr (6291456 + Fmt.encRrr d a b)).map (fun (d, a, b) => Instr.fmaF64 d a b)) = _
  exact congrArg (Option.map _) hd
theorem fmsF64 (d : BitVec 7) (a : BitVec 7) (b : BitVec 7) : Statement (.fmsF64 d a b) := by
  intro _ c
  have hlt := encRrr_lt d a b
  show decodeInstr (wordOf c 0x15 (8388608 + Fmt.encRrr d a b)) = _
  rw [at_15 c _ (by omega)]
  rw [show (8388608 + Fmt.encRrr d a b) / 2097152 % 16 = 4 by omega]
  have hd := decRrr_enc 4 d a b
  show ((Fmt.decRrr (8388608 + Fmt.encRrr d a b)).map (fun (d, a, b) => Instr.fmsF64 d a b)) = _
  exact congrArg (Option.map _) hd
theorem minF64 (d : BitVec 7) (a : BitVec 7) (b : BitVec 7) : Statement (.minF64 d a b) := by
  intro _ c
  have hlt := encRrr_lt d a b
  show decodeInstr (wordOf c 0x15 (10485760 + Fmt.encRrr d a b)) = _
  rw [at_15 c _ (by omega)]
  rw [show (10485760 + Fmt.encRrr d a b) / 2097152 % 16 = 5 by omega]
  have hd := decRrr_enc 5 d a b
  show ((Fmt.decRrr (10485760 + Fmt.encRrr d a b)).map (fun (d, a, b) => Instr.minF64 d a b)) = _
  exact congrArg (Option.map _) hd
theorem maxF64 (d : BitVec 7) (a : BitVec 7) (b : BitVec 7) : Statement (.maxF64 d a b) := by
  intro _ c
  have hlt := encRrr_lt d a b
  show decodeInstr (wordOf c 0x15 (12582912 + Fmt.encRrr d a b)) = _
  rw [at_15 c _ (by omega)]
  rw [show (12582912 + Fmt.encRrr d a b) / 2097152 % 16 = 6 by omega]
  have hd := decRrr_enc 6 d a b
  show ((Fmt.decRrr (12582912 + Fmt.encRrr d a b)).map (fun (d, a, b) => Instr.maxF64 d a b)) = _
  exact congrArg (Option.map _) hd
theorem absF64 (d : BitVec 7) (a : BitVec 7) : Statement (.absF64 d a) := by
  intro _ c
  have hlt := encRr_lt d a
  show decodeInstr (wordOf c 0x15 (14680064 + Fmt.encRr d a)) = _
  rw [at_15 c _ (by omega)]
  rw [show (14680064 + Fmt.encRr d a) / 2097152 % 16 = 7 by omega]
  have hd := decRr_enc 7 d a
  show ((Fmt.decRr (14680064 + Fmt.encRr d a)).map (fun (d, a) => Instr.absF64 d a)) = _
  exact congrArg (Option.map _) hd
theorem negF64 (d : BitVec 7) (a : BitVec 7) : Statement (.negF64 d a) := by
  intro _ c
  have hlt := encRr_lt d a
  show decodeInstr (wordOf c 0x15 (16777216 + Fmt.encRr d a)) = _
  rw [at_15 c _ (by omega)]
  rw [show (16777216 + Fmt.encRr d a) / 2097152 % 16 = 8 by omega]
  have hd := decRr_enc 8 d a
  show ((Fmt.decRr (16777216 + Fmt.encRr d a)).map (fun (d, a) => Instr.negF64 d a)) = _
  exact congrArg (Option.map _) hd
theorem floorF64 (d : BitVec 7) (a : BitVec 7) : Statement (.floorF64 d a) := by
  intro _ c
  have hlt := encRr_lt d a
  show decodeInstr (wordOf c 0x15 (18874368 + Fmt.encRr d a)) = _
  rw [at_15 c _ (by omega)]
  rw [show (18874368 + Fmt.encRr d a) / 2097152 % 16 = 9 by omega]
  have hd := decRr_enc 9 d a
  show ((Fmt.decRr (18874368 + Fmt.encRr d a)).map (fun (d, a) => Instr.floorF64 d a)) = _
  exact congrArg (Option.map _) hd
theorem ceilF64 (d : BitVec 7) (a : BitVec 7) : Statement (.ceilF64 d a) := by
  intro _ c
  have hlt := encRr_lt d a
  show decodeInstr (wordOf c 0x15 (20971520 + Fmt.encRr d a)) = _
  rw [at_15 c _ (by omega)]
  rw [show (20971520 + Fmt.encRr d a) / 2097152 % 16 = 10 by omega]
  have hd := decRr_enc 10 d a
  show ((Fmt.decRr (20971520 + Fmt.encRr d a)).map (fun (d, a) => Instr.ceilF64 d a)) = _
  exact congrArg (Option.map _) hd
theorem truncF64 (d : BitVec 7) (a : BitVec 7) : Statement (.truncF64 d a) := by
  intro _ c
  have hlt := encRr_lt d a
  show decodeInstr (wordOf c 0x15 (23068672 + Fmt.encRr d a)) = _
  rw [at_15 c _ (by omega)]
  rw [show (23068672 + Fmt.encRr d a) / 2097152 % 16 = 11 by omega]
  have hd := decRr_enc 11 d a
  show ((Fmt.decRr (23068672 + Fmt.encRr d a)).map (fun (d, a) => Instr.truncF64 d a)) = _
  exact congrArg (Option.map _) hd
theorem rintF64 (d : BitVec 7) (a : BitVec 7) : Statement (.rintF64 d a) := by
  intro _ c
  have hlt := encRr_lt d a
  show decodeInstr (wordOf c 0x15 (25165824 + Fmt.encRr d a)) = _
  rw [at_15 c _ (by omega)]
  rw [show (25165824 + Fmt.encRr d a) / 2097152 % 16 = 12 by omega]
  have hd := decRr_enc 12 d a
  show ((Fmt.decRr (25165824 + Fmt.encRr d a)).map (fun (d, a) => Instr.rintF64 d a)) = _
  exact congrArg (Option.map _) hd
theorem divF64 (d : BitVec 7) (a : BitVec 7) (b : BitVec 7) : Statement (.divF64 d a b) := by
  intro _ c
  have hlt := encRrr_lt d a b
  show decodeInstr (wordOf c 0x15 (27262976 + Fmt.encRrr d a b)) = _
  rw [at_15 c _ (by omega)]
  rw [show (27262976 + Fmt.encRrr d a b) / 2097152 % 16 = 13 by omega]
  have hd := decRrr_enc 13 d a b
  show ((Fmt.decRrr (27262976 + Fmt.encRrr d a b)).map (fun (d, a, b) => Instr.divF64 d a b)) = _
  exact congrArg (Option.map _) hd
theorem sqrtF64 (d : BitVec 7) (a : BitVec 7) : Statement (.sqrtF64 d a) := by
  intro _ c
  have hlt := encRr_lt d a
  show decodeInstr (wordOf c 0x15 (29360128 + Fmt.encRr d a)) = _
  rw [at_15 c _ (by omega)]
  rw [show (29360128 + Fmt.encRr d a) / 2097152 % 16 = 14 by omega]
  have hd := decRr_enc 14 d a
  show ((Fmt.decRr (29360128 + Fmt.encRr d a)).map (fun (d, a) => Instr.sqrtF64 d a)) = _
  exact congrArg (Option.map _) hd
theorem addF16x2 (d : BitVec 7) (a : BitVec 7) (b : BitVec 7) : Statement (.addF16x2 d a b) := by
  intro _ c
  have hlt := encRrr_lt d a b
  show decodeInstr (wordOf c 0x16 (Fmt.encRrr d a b)) = _
  rw [at_16 c _ (by omega)]
  rw [show (Fmt.encRrr d a b) / 2097152 % 16 = 0 by omega]
  have hd := decRrr_enc 0 d a b
  rw [Nat.zero_mul, Nat.zero_add] at hd
  show ((Fmt.decRrr (Fmt.encRrr d a b)).map (fun (d, a, b) => Instr.addF16x2 d a b)) = _
  exact congrArg (Option.map _) hd
theorem mulF16x2 (d : BitVec 7) (a : BitVec 7) (b : BitVec 7) : Statement (.mulF16x2 d a b) := by
  intro _ c
  have hlt := encRrr_lt d a b
  show decodeInstr (wordOf c 0x16 (2097152 + Fmt.encRrr d a b)) = _
  rw [at_16 c _ (by omega)]
  rw [show (2097152 + Fmt.encRrr d a b) / 2097152 % 16 = 1 by omega]
  have hd := decRrr_enc 1 d a b
  show ((Fmt.decRrr (2097152 + Fmt.encRrr d a b)).map (fun (d, a, b) => Instr.mulF16x2 d a b)) = _
  exact congrArg (Option.map _) hd
theorem fmaF16x2 (d : BitVec 7) (a : BitVec 7) (b : BitVec 7) : Statement (.fmaF16x2 d a b) := by
  intro _ c
  have hlt := encRrr_lt d a b
  show decodeInstr (wordOf c 0x16 (4194304 + Fmt.encRrr d a b)) = _
  rw [at_16 c _ (by omega)]
  rw [show (4194304 + Fmt.encRrr d a b) / 2097152 % 16 = 2 by omega]
  have hd := decRrr_enc 2 d a b
  show ((Fmt.decRrr (4194304 + Fmt.encRrr d a b)).map (fun (d, a, b) => Instr.fmaF16x2 d a b)) = _
  exact congrArg (Option.map _) hd
theorem minF16x2 (d : BitVec 7) (a : BitVec 7) (b : BitVec 7) : Statement (.minF16x2 d a b) := by
  intro _ c
  have hlt := encRrr_lt d a b
  show decodeInstr (wordOf c 0x16 (6291456 + Fmt.encRrr d a b)) = _
  rw [at_16 c _ (by omega)]
  rw [show (6291456 + Fmt.encRrr d a b) / 2097152 % 16 = 3 by omega]
  have hd := decRrr_enc 3 d a b
  show ((Fmt.decRrr (6291456 + Fmt.encRrr d a b)).map (fun (d, a, b) => Instr.minF16x2 d a b)) = _
  exact congrArg (Option.map _) hd
theorem maxF16x2 (d : BitVec 7) (a : BitVec 7) (b : BitVec 7) : Statement (.maxF16x2 d a b) := by
  intro _ c
  have hlt := encRrr_lt d a b
  show decodeInstr (wordOf c 0x16 (8388608 + Fmt.encRrr d a b)) = _
  rw [at_16 c _ (by omega)]
  rw [show (8388608 + Fmt.encRrr d a b) / 2097152 % 16 = 4 by omega]
  have hd := decRrr_enc 4 d a b
  show ((Fmt.decRrr (8388608 + Fmt.encRrr d a b)).map (fun (d, a, b) => Instr.maxF16x2 d a b)) = _
  exact congrArg (Option.map _) hd
theorem addBf16x2 (d : BitVec 7) (a : BitVec 7) (b : BitVec 7) : Statement (.addBf16x2 d a b) := by
  intro _ c
  have hlt := encRrr_lt d a b
  show decodeInstr (wordOf c 0x16 (10485760 + Fmt.encRrr d a b)) = _
  rw [at_16 c _ (by omega)]
  rw [show (10485760 + Fmt.encRrr d a b) / 2097152 % 16 = 5 by omega]
  have hd := decRrr_enc 5 d a b
  show ((Fmt.decRrr (10485760 + Fmt.encRrr d a b)).map (fun (d, a, b) => Instr.addBf16x2 d a b)) = _
  exact congrArg (Option.map _) hd
theorem mulBf16x2 (d : BitVec 7) (a : BitVec 7) (b : BitVec 7) : Statement (.mulBf16x2 d a b) := by
  intro _ c
  have hlt := encRrr_lt d a b
  show decodeInstr (wordOf c 0x16 (12582912 + Fmt.encRrr d a b)) = _
  rw [at_16 c _ (by omega)]
  rw [show (12582912 + Fmt.encRrr d a b) / 2097152 % 16 = 6 by omega]
  have hd := decRrr_enc 6 d a b
  show ((Fmt.decRrr (12582912 + Fmt.encRrr d a b)).map (fun (d, a, b) => Instr.mulBf16x2 d a b)) = _
  exact congrArg (Option.map _) hd
theorem fmaBf16x2 (d : BitVec 7) (a : BitVec 7) (b : BitVec 7) : Statement (.fmaBf16x2 d a b) := by
  intro _ c
  have hlt := encRrr_lt d a b
  show decodeInstr (wordOf c 0x16 (14680064 + Fmt.encRrr d a b)) = _
  rw [at_16 c _ (by omega)]
  rw [show (14680064 + Fmt.encRrr d a b) / 2097152 % 16 = 7 by omega]
  have hd := decRrr_enc 7 d a b
  show ((Fmt.decRrr (14680064 + Fmt.encRrr d a b)).map (fun (d, a, b) => Instr.fmaBf16x2 d a b)) = _
  exact congrArg (Option.map _) hd
theorem dot2F32F16 (d : BitVec 7) (a : BitVec 7) (b : BitVec 7) : Statement (.dot2F32F16 d a b) := by
  intro _ c
  have hlt := encRrr_lt d a b
  show decodeInstr (wordOf c 0x16 (16777216 + Fmt.encRrr d a b)) = _
  rw [at_16 c _ (by omega)]
  rw [show (16777216 + Fmt.encRrr d a b) / 2097152 % 16 = 8 by omega]
  have hd := decRrr_enc 8 d a b
  show ((Fmt.decRrr (16777216 + Fmt.encRrr d a b)).map (fun (d, a, b) => Instr.dot2F32F16 d a b)) = _
  exact congrArg (Option.map _) hd
theorem dot2F32Bf16 (d : BitVec 7) (a : BitVec 7) (b : BitVec 7) : Statement (.dot2F32Bf16 d a b) := by
  intro _ c
  have hlt := encRrr_lt d a b
  show decodeInstr (wordOf c 0x16 (18874368 + Fmt.encRrr d a b)) = _
  rw [at_16 c _ (by omega)]
  rw [show (18874368 + Fmt.encRrr d a b) / 2097152 % 16 = 9 by omega]
  have hd := decRrr_enc 9 d a b
  show ((Fmt.decRrr (18874368 + Fmt.encRrr d a b)).map (fun (d, a, b) => Instr.dot2F32Bf16 d a b)) = _
  exact congrArg (Option.map _) hd
theorem fcmpEqF32 (d : BitVec 3) (a : BitVec 7) (b : BitVec 7) : Statement (.fcmpEqF32 d a b) := by
  intro _ c
  have hlt := encCmp_lt d a b
  show decodeInstr (wordOf c 0x17 (Fmt.encCmp d a b)) = _
  rw [at_17 c _ (by omega)]
  rw [show (Fmt.encCmp d a b) / 2097152 % 16 = 0 by omega]
  have hd := decCmp_enc 0 d a b
  rw [Nat.zero_mul, Nat.zero_add] at hd
  show ((Fmt.decCmp (Fmt.encCmp d a b)).map (fun (d, a, b) => Instr.fcmpEqF32 d a b)) = _
  exact congrArg (Option.map _) hd
theorem fcmpNeF32 (d : BitVec 3) (a : BitVec 7) (b : BitVec 7) : Statement (.fcmpNeF32 d a b) := by
  intro _ c
  have hlt := encCmp_lt d a b
  show decodeInstr (wordOf c 0x17 (2097152 + Fmt.encCmp d a b)) = _
  rw [at_17 c _ (by omega)]
  rw [show (2097152 + Fmt.encCmp d a b) / 2097152 % 16 = 1 by omega]
  have hd := decCmp_enc 1 d a b
  show ((Fmt.decCmp (2097152 + Fmt.encCmp d a b)).map (fun (d, a, b) => Instr.fcmpNeF32 d a b)) = _
  exact congrArg (Option.map _) hd
theorem fcmpLtF32 (d : BitVec 3) (a : BitVec 7) (b : BitVec 7) : Statement (.fcmpLtF32 d a b) := by
  intro _ c
  have hlt := encCmp_lt d a b
  show decodeInstr (wordOf c 0x17 (4194304 + Fmt.encCmp d a b)) = _
  rw [at_17 c _ (by omega)]
  rw [show (4194304 + Fmt.encCmp d a b) / 2097152 % 16 = 2 by omega]
  have hd := decCmp_enc 2 d a b
  show ((Fmt.decCmp (4194304 + Fmt.encCmp d a b)).map (fun (d, a, b) => Instr.fcmpLtF32 d a b)) = _
  exact congrArg (Option.map _) hd
theorem fcmpLeF32 (d : BitVec 3) (a : BitVec 7) (b : BitVec 7) : Statement (.fcmpLeF32 d a b) := by
  intro _ c
  have hlt := encCmp_lt d a b
  show decodeInstr (wordOf c 0x17 (6291456 + Fmt.encCmp d a b)) = _
  rw [at_17 c _ (by omega)]
  rw [show (6291456 + Fmt.encCmp d a b) / 2097152 % 16 = 3 by omega]
  have hd := decCmp_enc 3 d a b
  show ((Fmt.decCmp (6291456 + Fmt.encCmp d a b)).map (fun (d, a, b) => Instr.fcmpLeF32 d a b)) = _
  exact congrArg (Option.map _) hd
theorem fcmpGtF32 (d : BitVec 3) (a : BitVec 7) (b : BitVec 7) : Statement (.fcmpGtF32 d a b) := by
  intro _ c
  have hlt := encCmp_lt d a b
  show decodeInstr (wordOf c 0x17 (8388608 + Fmt.encCmp d a b)) = _
  rw [at_17 c _ (by omega)]
  rw [show (8388608 + Fmt.encCmp d a b) / 2097152 % 16 = 4 by omega]
  have hd := decCmp_enc 4 d a b
  show ((Fmt.decCmp (8388608 + Fmt.encCmp d a b)).map (fun (d, a, b) => Instr.fcmpGtF32 d a b)) = _
  exact congrArg (Option.map _) hd
theorem fcmpGeF32 (d : BitVec 3) (a : BitVec 7) (b : BitVec 7) : Statement (.fcmpGeF32 d a b) := by
  intro _ c
  have hlt := encCmp_lt d a b
  show decodeInstr (wordOf c 0x17 (10485760 + Fmt.encCmp d a b)) = _
  rw [at_17 c _ (by omega)]
  rw [show (10485760 + Fmt.encCmp d a b) / 2097152 % 16 = 5 by omega]
  have hd := decCmp_enc 5 d a b
  show ((Fmt.decCmp (10485760 + Fmt.encCmp d a b)).map (fun (d, a, b) => Instr.fcmpGeF32 d a b)) = _
  exact congrArg (Option.map _) hd
theorem fcmpOrdF32 (d : BitVec 3) (a : BitVec 7) (b : BitVec 7) : Statement (.fcmpOrdF32 d a b) := by
  intro _ c
  have hlt := encCmp_lt d a b
  show decodeInstr (wordOf c 0x17 (12582912 + Fmt.encCmp d a b)) = _
  rw [at_17 c _ (by omega)]
  rw [show (12582912 + Fmt.encCmp d a b) / 2097152 % 16 = 6 by omega]
  have hd := decCmp_enc 6 d a b
  show ((Fmt.decCmp (12582912 + Fmt.encCmp d a b)).map (fun (d, a, b) => Instr.fcmpOrdF32 d a b)) = _
  exact congrArg (Option.map _) hd
theorem fcmpUnordF32 (d : BitVec 3) (a : BitVec 7) (b : BitVec 7) : Statement (.fcmpUnordF32 d a b) := by
  intro _ c
  have hlt := encCmp_lt d a b
  show decodeInstr (wordOf c 0x17 (14680064 + Fmt.encCmp d a b)) = _
  rw [at_17 c _ (by omega)]
  rw [show (14680064 + Fmt.encCmp d a b) / 2097152 % 16 = 7 by omega]
  have hd := decCmp_enc 7 d a b
  show ((Fmt.decCmp (14680064 + Fmt.encCmp d a b)).map (fun (d, a, b) => Instr.fcmpUnordF32 d a b)) = _
  exact congrArg (Option.map _) hd
theorem fcmpEqF64 (d : BitVec 3) (a : BitVec 7) (b : BitVec 7) : Statement (.fcmpEqF64 d a b) := by
  intro _ c
  have hlt := encCmp_lt d a b
  show decodeInstr (wordOf c 0x17 (16777216 + Fmt.encCmp d a b)) = _
  rw [at_17 c _ (by omega)]
  rw [show (16777216 + Fmt.encCmp d a b) / 2097152 % 16 = 8 by omega]
  have hd := decCmp_enc 8 d a b
  show ((Fmt.decCmp (16777216 + Fmt.encCmp d a b)).map (fun (d, a, b) => Instr.fcmpEqF64 d a b)) = _
  exact congrArg (Option.map _) hd
theorem fcmpNeF64 (d : BitVec 3) (a : BitVec 7) (b : BitVec 7) : Statement (.fcmpNeF64 d a b) := by
  intro _ c
  have hlt := encCmp_lt d a b
  show decodeInstr (wordOf c 0x17 (18874368 + Fmt.encCmp d a b)) = _
  rw [at_17 c _ (by omega)]
  rw [show (18874368 + Fmt.encCmp d a b) / 2097152 % 16 = 9 by omega]
  have hd := decCmp_enc 9 d a b
  show ((Fmt.decCmp (18874368 + Fmt.encCmp d a b)).map (fun (d, a, b) => Instr.fcmpNeF64 d a b)) = _
  exact congrArg (Option.map _) hd
theorem fcmpLtF64 (d : BitVec 3) (a : BitVec 7) (b : BitVec 7) : Statement (.fcmpLtF64 d a b) := by
  intro _ c
  have hlt := encCmp_lt d a b
  show decodeInstr (wordOf c 0x17 (20971520 + Fmt.encCmp d a b)) = _
  rw [at_17 c _ (by omega)]
  rw [show (20971520 + Fmt.encCmp d a b) / 2097152 % 16 = 10 by omega]
  have hd := decCmp_enc 10 d a b
  show ((Fmt.decCmp (20971520 + Fmt.encCmp d a b)).map (fun (d, a, b) => Instr.fcmpLtF64 d a b)) = _
  exact congrArg (Option.map _) hd
theorem fcmpLeF64 (d : BitVec 3) (a : BitVec 7) (b : BitVec 7) : Statement (.fcmpLeF64 d a b) := by
  intro _ c
  have hlt := encCmp_lt d a b
  show decodeInstr (wordOf c 0x17 (23068672 + Fmt.encCmp d a b)) = _
  rw [at_17 c _ (by omega)]
  rw [show (23068672 + Fmt.encCmp d a b) / 2097152 % 16 = 11 by omega]
  have hd := decCmp_enc 11 d a b
  show ((Fmt.decCmp (23068672 + Fmt.encCmp d a b)).map (fun (d, a, b) => Instr.fcmpLeF64 d a b)) = _
  exact congrArg (Option.map _) hd
theorem fcmpGtF64 (d : BitVec 3) (a : BitVec 7) (b : BitVec 7) : Statement (.fcmpGtF64 d a b) := by
  intro _ c
  have hlt := encCmp_lt d a b
  show decodeInstr (wordOf c 0x17 (25165824 + Fmt.encCmp d a b)) = _
  rw [at_17 c _ (by omega)]
  rw [show (25165824 + Fmt.encCmp d a b) / 2097152 % 16 = 12 by omega]
  have hd := decCmp_enc 12 d a b
  show ((Fmt.decCmp (25165824 + Fmt.encCmp d a b)).map (fun (d, a, b) => Instr.fcmpGtF64 d a b)) = _
  exact congrArg (Option.map _) hd
theorem fcmpGeF64 (d : BitVec 3) (a : BitVec 7) (b : BitVec 7) : Statement (.fcmpGeF64 d a b) := by
  intro _ c
  have hlt := encCmp_lt d a b
  show decodeInstr (wordOf c 0x17 (27262976 + Fmt.encCmp d a b)) = _
  rw [at_17 c _ (by omega)]
  rw [show (27262976 + Fmt.encCmp d a b) / 2097152 % 16 = 13 by omega]
  have hd := decCmp_enc 13 d a b
  show ((Fmt.decCmp (27262976 + Fmt.encCmp d a b)).map (fun (d, a, b) => Instr.fcmpGeF64 d a b)) = _
  exact congrArg (Option.map _) hd
theorem fcmpOrdF64 (d : BitVec 3) (a : BitVec 7) (b : BitVec 7) : Statement (.fcmpOrdF64 d a b) := by
  intro _ c
  have hlt := encCmp_lt d a b
  show decodeInstr (wordOf c 0x17 (29360128 + Fmt.encCmp d a b)) = _
  rw [at_17 c _ (by omega)]
  rw [show (29360128 + Fmt.encCmp d a b) / 2097152 % 16 = 14 by omega]
  have hd := decCmp_enc 14 d a b
  show ((Fmt.decCmp (29360128 + Fmt.encCmp d a b)).map (fun (d, a, b) => Instr.fcmpOrdF64 d a b)) = _
  exact congrArg (Option.map _) hd
theorem fcmpUnordF64 (d : BitVec 3) (a : BitVec 7) (b : BitVec 7) : Statement (.fcmpUnordF64 d a b) := by
  intro _ c
  have hlt := encCmp_lt d a b
  show decodeInstr (wordOf c 0x17 (31457280 + Fmt.encCmp d a b)) = _
  rw [at_17 c _ (by omega)]
  rw [show (31457280 + Fmt.encCmp d a b) / 2097152 % 16 = 15 by omega]
  have hd := decCmp_enc 15 d a b
  show ((Fmt.decCmp (31457280 + Fmt.encCmp d a b)).map (fun (d, a, b) => Instr.fcmpUnordF64 d a b)) = _
  exact congrArg (Option.map _) hd
theorem exp2F32 (d : BitVec 7) (a : BitVec 7) : Statement (.exp2F32 d a) := by
  intro _ c
  have hlt := encRr_lt d a
  show decodeInstr (wordOf c 0x18 (Fmt.encRr d a)) = _
  rw [at_18 c _ (by omega)]
  rw [show (Fmt.encRr d a) / 2097152 % 16 = 0 by omega]
  have hd := decRr_enc 0 d a
  rw [Nat.zero_mul, Nat.zero_add] at hd
  show ((Fmt.decRr (Fmt.encRr d a)).map (fun (d, a) => Instr.exp2F32 d a)) = _
  exact congrArg (Option.map _) hd
theorem log2F32 (d : BitVec 7) (a : BitVec 7) : Statement (.log2F32 d a) := by
  intro _ c
  have hlt := encRr_lt d a
  show decodeInstr (wordOf c 0x18 (2097152 + Fmt.encRr d a)) = _
  rw [at_18 c _ (by omega)]
  rw [show (2097152 + Fmt.encRr d a) / 2097152 % 16 = 1 by omega]
  have hd := decRr_enc 1 d a
  show ((Fmt.decRr (2097152 + Fmt.encRr d a)).map (fun (d, a) => Instr.log2F32 d a)) = _
  exact congrArg (Option.map _) hd
theorem rcpF32 (d : BitVec 7) (a : BitVec 7) : Statement (.rcpF32 d a) := by
  intro _ c
  have hlt := encRr_lt d a
  show decodeInstr (wordOf c 0x18 (4194304 + Fmt.encRr d a)) = _
  rw [at_18 c _ (by omega)]
  rw [show (4194304 + Fmt.encRr d a) / 2097152 % 16 = 2 by omega]
  have hd := decRr_enc 2 d a
  show ((Fmt.decRr (4194304 + Fmt.encRr d a)).map (fun (d, a) => Instr.rcpF32 d a)) = _
  exact congrArg (Option.map _) hd
theorem rsqF32 (d : BitVec 7) (a : BitVec 7) : Statement (.rsqF32 d a) := by
  intro _ c
  have hlt := encRr_lt d a
  show decodeInstr (wordOf c 0x18 (6291456 + Fmt.encRr d a)) = _
  rw [at_18 c _ (by omega)]
  rw [show (6291456 + Fmt.encRr d a) / 2097152 % 16 = 3 by omega]
  have hd := decRr_enc 3 d a
  show ((Fmt.decRr (6291456 + Fmt.encRr d a)).map (fun (d, a) => Instr.rsqF32 d a)) = _
  exact congrArg (Option.map _) hd
theorem sqrtF32 (d : BitVec 7) (a : BitVec 7) : Statement (.sqrtF32 d a) := by
  intro _ c
  have hlt := encRr_lt d a
  show decodeInstr (wordOf c 0x18 (8388608 + Fmt.encRr d a)) = _
  rw [at_18 c _ (by omega)]
  rw [show (8388608 + Fmt.encRr d a) / 2097152 % 16 = 4 by omega]
  have hd := decRr_enc 4 d a
  show ((Fmt.decRr (8388608 + Fmt.encRr d a)).map (fun (d, a) => Instr.sqrtF32 d a)) = _
  exact congrArg (Option.map _) hd
theorem divF32 (d : BitVec 7) (a : BitVec 7) (b : BitVec 7) : Statement (.divF32 d a b) := by
  intro _ c
  have hlt := encRrr_lt d a b
  show decodeInstr (wordOf c 0x18 (10485760 + Fmt.encRrr d a b)) = _
  rw [at_18 c _ (by omega)]
  rw [show (10485760 + Fmt.encRrr d a b) / 2097152 % 16 = 5 by omega]
  have hd := decRrr_enc 5 d a b
  show ((Fmt.decRrr (10485760 + Fmt.encRrr d a b)).map (fun (d, a, b) => Instr.divF32 d a b)) = _
  exact congrArg (Option.map _) hd
theorem sin2piF32 (d : BitVec 7) (a : BitVec 7) : Statement (.sin2piF32 d a) := by
  intro _ c
  have hlt := encRr_lt d a
  show decodeInstr (wordOf c 0x18 (12582912 + Fmt.encRr d a)) = _
  rw [at_18 c _ (by omega)]
  rw [show (12582912 + Fmt.encRr d a) / 2097152 % 16 = 6 by omega]
  have hd := decRr_enc 6 d a
  show ((Fmt.decRr (12582912 + Fmt.encRr d a)).map (fun (d, a) => Instr.sin2piF32 d a)) = _
  exact congrArg (Option.map _) hd
theorem cos2piF32 (d : BitVec 7) (a : BitVec 7) : Statement (.cos2piF32 d a) := by
  intro _ c
  have hlt := encRr_lt d a
  show decodeInstr (wordOf c 0x18 (14680064 + Fmt.encRr d a)) = _
  rw [at_18 c _ (by omega)]
  rw [show (14680064 + Fmt.encRr d a) / 2097152 % 16 = 7 by omega]
  have hd := decRr_enc 7 d a
  show ((Fmt.decRr (14680064 + Fmt.encRr d a)).map (fun (d, a) => Instr.cos2piF32 d a)) = _
  exact congrArg (Option.map _) hd
theorem cvtF32F16lo (d : BitVec 7) (a : BitVec 7) : Statement (.cvtF32F16lo d a) := by
  intro _ c
  have hlt := encRr_lt d a
  show decodeInstr (wordOf c 0x19 (Fmt.encRr d a)) = _
  rw [at_19 c _ (by omega)]
  rw [show (Fmt.encRr d a) / 2097152 % 16 = 0 by omega]
  have hd := decRr_enc 0 d a
  rw [Nat.zero_mul, Nat.zero_add] at hd
  show ((Fmt.decRr (Fmt.encRr d a)).map (fun (d, a) => Instr.cvtF32F16lo d a)) = _
  exact congrArg (Option.map _) hd
theorem cvtF32F16hi (d : BitVec 7) (a : BitVec 7) : Statement (.cvtF32F16hi d a) := by
  intro _ c
  have hlt := encRr_lt d a
  show decodeInstr (wordOf c 0x19 (2097152 + Fmt.encRr d a)) = _
  rw [at_19 c _ (by omega)]
  rw [show (2097152 + Fmt.encRr d a) / 2097152 % 16 = 1 by omega]
  have hd := decRr_enc 1 d a
  show ((Fmt.decRr (2097152 + Fmt.encRr d a)).map (fun (d, a) => Instr.cvtF32F16hi d a)) = _
  exact congrArg (Option.map _) hd
theorem cvtF16x2F32 (d : BitVec 7) (a : BitVec 7) (b : BitVec 7) : Statement (.cvtF16x2F32 d a b) := by
  intro _ c
  have hlt := encRrr_lt d a b
  show decodeInstr (wordOf c 0x19 (4194304 + Fmt.encRrr d a b)) = _
  rw [at_19 c _ (by omega)]
  rw [show (4194304 + Fmt.encRrr d a b) / 2097152 % 16 = 2 by omega]
  have hd := decRrr_enc 2 d a b
  show ((Fmt.decRrr (4194304 + Fmt.encRrr d a b)).map (fun (d, a, b) => Instr.cvtF16x2F32 d a b)) = _
  exact congrArg (Option.map _) hd
theorem cvtF32Bf16lo (d : BitVec 7) (a : BitVec 7) : Statement (.cvtF32Bf16lo d a) := by
  intro _ c
  have hlt := encRr_lt d a
  show decodeInstr (wordOf c 0x19 (6291456 + Fmt.encRr d a)) = _
  rw [at_19 c _ (by omega)]
  rw [show (6291456 + Fmt.encRr d a) / 2097152 % 16 = 3 by omega]
  have hd := decRr_enc 3 d a
  show ((Fmt.decRr (6291456 + Fmt.encRr d a)).map (fun (d, a) => Instr.cvtF32Bf16lo d a)) = _
  exact congrArg (Option.map _) hd
theorem cvtF32Bf16hi (d : BitVec 7) (a : BitVec 7) : Statement (.cvtF32Bf16hi d a) := by
  intro _ c
  have hlt := encRr_lt d a
  show decodeInstr (wordOf c 0x19 (8388608 + Fmt.encRr d a)) = _
  rw [at_19 c _ (by omega)]
  rw [show (8388608 + Fmt.encRr d a) / 2097152 % 16 = 4 by omega]
  have hd := decRr_enc 4 d a
  show ((Fmt.decRr (8388608 + Fmt.encRr d a)).map (fun (d, a) => Instr.cvtF32Bf16hi d a)) = _
  exact congrArg (Option.map _) hd
theorem cvtBf16x2F32 (d : BitVec 7) (a : BitVec 7) (b : BitVec 7) : Statement (.cvtBf16x2F32 d a b) := by
  intro _ c
  have hlt := encRrr_lt d a b
  show decodeInstr (wordOf c 0x19 (10485760 + Fmt.encRrr d a b)) = _
  rw [at_19 c _ (by omega)]
  rw [show (10485760 + Fmt.encRrr d a b) / 2097152 % 16 = 5 by omega]
  have hd := decRrr_enc 5 d a b
  show ((Fmt.decRrr (10485760 + Fmt.encRrr d a b)).map (fun (d, a, b) => Instr.cvtBf16x2F32 d a b)) = _
  exact congrArg (Option.map _) hd
theorem cvtF64F32 (d : BitVec 7) (a : BitVec 7) : Statement (.cvtF64F32 d a) := by
  intro _ c
  have hlt := encRr_lt d a
  show decodeInstr (wordOf c 0x19 (12582912 + Fmt.encRr d a)) = _
  rw [at_19 c _ (by omega)]
  rw [show (12582912 + Fmt.encRr d a) / 2097152 % 16 = 6 by omega]
  have hd := decRr_enc 6 d a
  show ((Fmt.decRr (12582912 + Fmt.encRr d a)).map (fun (d, a) => Instr.cvtF64F32 d a)) = _
  exact congrArg (Option.map _) hd
theorem cvtF32F64 (d : BitVec 7) (a : BitVec 7) : Statement (.cvtF32F64 d a) := by
  intro _ c
  have hlt := encRr_lt d a
  show decodeInstr (wordOf c 0x19 (14680064 + Fmt.encRr d a)) = _
  rw [at_19 c _ (by omega)]
  rw [show (14680064 + Fmt.encRr d a) / 2097152 % 16 = 7 by omega]
  have hd := decRr_enc 7 d a
  show ((Fmt.decRr (14680064 + Fmt.encRr d a)).map (fun (d, a) => Instr.cvtF32F64 d a)) = _
  exact congrArg (Option.map _) hd
theorem cvtF32I32 (d : BitVec 7) (a : BitVec 7) : Statement (.cvtF32I32 d a) := by
  intro _ c
  have hlt := encRr_lt d a
  show decodeInstr (wordOf c 0x19 (16777216 + Fmt.encRr d a)) = _
  rw [at_19 c _ (by omega)]
  rw [show (16777216 + Fmt.encRr d a) / 2097152 % 16 = 8 by omega]
  have hd := decRr_enc 8 d a
  show ((Fmt.decRr (16777216 + Fmt.encRr d a)).map (fun (d, a) => Instr.cvtF32I32 d a)) = _
  exact congrArg (Option.map _) hd
theorem cvtF32N32 (d : BitVec 7) (a : BitVec 7) : Statement (.cvtF32N32 d a) := by
  intro _ c
  have hlt := encRr_lt d a
  show decodeInstr (wordOf c 0x19 (18874368 + Fmt.encRr d a)) = _
  rw [at_19 c _ (by omega)]
  rw [show (18874368 + Fmt.encRr d a) / 2097152 % 16 = 9 by omega]
  have hd := decRr_enc 9 d a
  show ((Fmt.decRr (18874368 + Fmt.encRr d a)).map (fun (d, a) => Instr.cvtF32N32 d a)) = _
  exact congrArg (Option.map _) hd
theorem cvtI32F32 (d : BitVec 7) (a : BitVec 7) : Statement (.cvtI32F32 d a) := by
  intro _ c
  have hlt := encRr_lt d a
  show decodeInstr (wordOf c 0x19 (20971520 + Fmt.encRr d a)) = _
  rw [at_19 c _ (by omega)]
  rw [show (20971520 + Fmt.encRr d a) / 2097152 % 16 = 10 by omega]
  have hd := decRr_enc 10 d a
  show ((Fmt.decRr (20971520 + Fmt.encRr d a)).map (fun (d, a) => Instr.cvtI32F32 d a)) = _
  exact congrArg (Option.map _) hd
theorem cvtN32F32 (d : BitVec 7) (a : BitVec 7) : Statement (.cvtN32F32 d a) := by
  intro _ c
  have hlt := encRr_lt d a
  show decodeInstr (wordOf c 0x19 (23068672 + Fmt.encRr d a)) = _
  rw [at_19 c _ (by omega)]
  rw [show (23068672 + Fmt.encRr d a) / 2097152 % 16 = 11 by omega]
  have hd := decRr_enc 11 d a
  show ((Fmt.decRr (23068672 + Fmt.encRr d a)).map (fun (d, a) => Instr.cvtN32F32 d a)) = _
  exact congrArg (Option.map _) hd
theorem cvtF64I64 (d : BitVec 7) (a : BitVec 7) : Statement (.cvtF64I64 d a) := by
  intro _ c
  have hlt := encRr_lt d a
  show decodeInstr (wordOf c 0x19 (25165824 + Fmt.encRr d a)) = _
  rw [at_19 c _ (by omega)]
  rw [show (25165824 + Fmt.encRr d a) / 2097152 % 16 = 12 by omega]
  have hd := decRr_enc 12 d a
  show ((Fmt.decRr (25165824 + Fmt.encRr d a)).map (fun (d, a) => Instr.cvtF64I64 d a)) = _
  exact congrArg (Option.map _) hd
theorem cvtI64F64 (d : BitVec 7) (a : BitVec 7) : Statement (.cvtI64F64 d a) := by
  intro _ c
  have hlt := encRr_lt d a
  show decodeInstr (wordOf c 0x19 (27262976 + Fmt.encRr d a)) = _
  rw [at_19 c _ (by omega)]
  rw [show (27262976 + Fmt.encRr d a) / 2097152 % 16 = 13 by omega]
  have hd := decRr_enc 13 d a
  show ((Fmt.decRr (27262976 + Fmt.encRr d a)).map (fun (d, a) => Instr.cvtI64F64 d a)) = _
  exact congrArg (Option.map _) hd
theorem cvtF64I32 (d : BitVec 7) (a : BitVec 7) : Statement (.cvtF64I32 d a) := by
  intro _ c
  have hlt := encRr_lt d a
  show decodeInstr (wordOf c 0x19 (29360128 + Fmt.encRr d a)) = _
  rw [at_19 c _ (by omega)]
  rw [show (29360128 + Fmt.encRr d a) / 2097152 % 16 = 14 by omega]
  have hd := decRr_enc 14 d a
  show ((Fmt.decRr (29360128 + Fmt.encRr d a)).map (fun (d, a) => Instr.cvtF64I32 d a)) = _
  exact congrArg (Option.map _) hd
theorem cvtI32F64 (d : BitVec 7) (a : BitVec 7) : Statement (.cvtI32F64 d a) := by
  intro _ c
  have hlt := encRr_lt d a
  show decodeInstr (wordOf c 0x19 (31457280 + Fmt.encRr d a)) = _
  rw [at_19 c _ (by omega)]
  rw [show (31457280 + Fmt.encRr d a) / 2097152 % 16 = 15 by omega]
  have hd := decRr_enc 15 d a
  show ((Fmt.decRr (31457280 + Fmt.encRr d a)).map (fun (d, a) => Instr.cvtI32F64 d a)) = _
  exact congrArg (Option.map _) hd
theorem rbox (d : BitVec 7) (a : BitVec 7) (b : BitVec 7) : Statement (.rbox d a b) := by
  intro _ c
  have hlt := encRrr_lt d a b
  show decodeInstr (wordOf c 0x1A (Fmt.encRrr d a b)) = _
  rw [at_1A c _ (by omega)]
  rw [show (Fmt.encRrr d a b) / 2097152 % 16 = 0 by omega]
  have hd := decRrr_enc 0 d a b
  rw [Nat.zero_mul, Nat.zero_add] at hd
  show ((Fmt.decRrr (Fmt.encRrr d a b)).map (fun (d, a, b) => Instr.rbox d a b)) = _
  exact congrArg (Option.map _) hd
theorem rtri (d : BitVec 7) (a : BitVec 7) (b : BitVec 7) : Statement (.rtri d a b) := by
  intro _ c
  have hlt := encRrr_lt d a b
  show decodeInstr (wordOf c 0x1A (2097152 + Fmt.encRrr d a b)) = _
  rw [at_1A c _ (by omega)]
  rw [show (2097152 + Fmt.encRrr d a b) / 2097152 % 16 = 1 by omega]
  have hd := decRrr_enc 1 d a b
  show ((Fmt.decRrr (2097152 + Fmt.encRrr d a b)).map (fun (d, a, b) => Instr.rtri d a b)) = _
  exact congrArg (Option.map _) hd
theorem edgec (d : BitVec 7) (a : BitVec 7) (b : BitVec 7) : Statement (.edgec d a b) := by
  intro _ c
  have hlt := encRrr_lt d a b
  show decodeInstr (wordOf c 0x1A (4194304 + Fmt.encRrr d a b)) = _
  rw [at_1A c _ (by omega)]
  rw [show (4194304 + Fmt.encRrr d a b) / 2097152 % 16 = 2 by omega]
  have hd := decRrr_enc 2 d a b
  show ((Fmt.decRrr (4194304 + Fmt.encRrr d a b)).map (fun (d, a, b) => Instr.edgec d a b)) = _
  exact congrArg (Option.map _) hd
theorem cullbf (d : BitVec 7) (a : BitVec 7) : Statement (.cullbf d a) := by
  intro _ c
  have hlt := encRr_lt d a
  show decodeInstr (wordOf c 0x1A (6291456 + Fmt.encRr d a)) = _
  rw [at_1A c _ (by omega)]
  rw [show (6291456 + Fmt.encRr d a) / 2097152 % 16 = 3 by omega]
  have hd := decRr_enc 3 d a
  show ((Fmt.decRr (6291456 + Fmt.encRr d a)).map (fun (d, a) => Instr.cullbf d a)) = _
  exact congrArg (Option.map _) hd
theorem cullbx (d : BitVec 7) (a : BitVec 7) : Statement (.cullbx d a) := by
  intro _ c
  have hlt := encRr_lt d a
  show decodeInstr (wordOf c 0x1A (8388608 + Fmt.encRr d a)) = _
  rw [at_1A c _ (by omega)]
  rw [show (8388608 + Fmt.encRr d a) / 2097152 % 16 = 4 by omega]
  have hd := decRr_enc 4 d a
  show ((Fmt.decRr (8388608 + Fmt.encRr d a)).map (fun (d, a) => Instr.cullbx d a)) = _
  exact congrArg (Option.map _) hd
theorem lpick (d : BitVec 7) (a : BitVec 7) (b : BitVec 7) : Statement (.lpick d a b) := by
  intro _ c
  have hlt := encRrr_lt d a b
  show decodeInstr (wordOf c 0x1C (Fmt.encRrr d a b)) = _
  rw [at_1C c _ (by omega)]
  rw [show (Fmt.encRrr d a b) / 2097152 % 16 = 0 by omega]
  have hd := decRrr_enc 0 d a b
  rw [Nat.zero_mul, Nat.zero_add] at hd
  show ((Fmt.decRrr (Fmt.encRrr d a b)).map (fun (d, a, b) => Instr.lpick d a b)) = _
  exact congrArg (Option.map _) hd
theorem lswap (d : BitVec 7) (a : BitVec 7) (b : BitVec 7) : Statement (.lswap d a b) := by
  intro _ c
  have hlt := encRrr_lt d a b
  show decodeInstr (wordOf c 0x1C (2097152 + Fmt.encRrr d a b)) = _
  rw [at_1C c _ (by omega)]
  rw [show (2097152 + Fmt.encRrr d a b) / 2097152 % 16 = 1 by omega]
  have hd := decRrr_enc 1 d a b
  show ((Fmt.decRrr (2097152 + Fmt.encRrr d a b)).map (fun (d, a, b) => Instr.lswap d a b)) = _
  exact congrArg (Option.map _) hd
theorem lrotu (d : BitVec 7) (a : BitVec 7) (b : BitVec 7) : Statement (.lrotu d a b) := by
  intro _ c
  have hlt := encRrr_lt d a b
  show decodeInstr (wordOf c 0x1C (4194304 + Fmt.encRrr d a b)) = _
  rw [at_1C c _ (by omega)]
  rw [show (4194304 + Fmt.encRrr d a b) / 2097152 % 16 = 2 by omega]
  have hd := decRrr_enc 2 d a b
  show ((Fmt.decRrr (4194304 + Fmt.encRrr d a b)).map (fun (d, a, b) => Instr.lrotu d a b)) = _
  exact congrArg (Option.map _) hd
theorem lrotd (d : BitVec 7) (a : BitVec 7) (b : BitVec 7) : Statement (.lrotd d a b) := by
  intro _ c
  have hlt := encRrr_lt d a b
  show decodeInstr (wordOf c 0x1C (6291456 + Fmt.encRrr d a b)) = _
  rw [at_1C c _ (by omega)]
  rw [show (6291456 + Fmt.encRrr d a b) / 2097152 % 16 = 3 by omega]
  have hd := decRrr_enc 3 d a b
  show ((Fmt.decRrr (6291456 + Fmt.encRrr d a b)).map (fun (d, a, b) => Instr.lrotd d a b)) = _
  exact congrArg (Option.map _) hd
theorem bcast (d : BitVec 7) (a : BitVec 7) (b : BitVec 7) : Statement (.bcast d a b) := by
  intro _ c
  have hlt := encRrr_lt d a b
  show decodeInstr (wordOf c 0x1C (8388608 + Fmt.encRrr d a b)) = _
  rw [at_1C c _ (by omega)]
  rw [show (8388608 + Fmt.encRrr d a b) / 2097152 % 16 = 4 by omega]
  have hd := decRrr_enc 4 d a b
  show ((Fmt.decRrr (8388608 + Fmt.encRrr d a b)).map (fun (d, a, b) => Instr.bcast d a b)) = _
  exact congrArg (Option.map _) hd
theorem ddxF32 (d : BitVec 7) (a : BitVec 7) : Statement (.ddxF32 d a) := by
  intro _ c
  have hlt := encRr_lt d a
  show decodeInstr (wordOf c 0x1C (10485760 + Fmt.encRr d a)) = _
  rw [at_1C c _ (by omega)]
  rw [show (10485760 + Fmt.encRr d a) / 2097152 % 16 = 5 by omega]
  have hd := decRr_enc 5 d a
  show ((Fmt.decRr (10485760 + Fmt.encRr d a)).map (fun (d, a) => Instr.ddxF32 d a)) = _
  exact congrArg (Option.map _) hd
theorem ddyF32 (d : BitVec 7) (a : BitVec 7) : Statement (.ddyF32 d a) := by
  intro _ c
  have hlt := encRr_lt d a
  show decodeInstr (wordOf c 0x1C (12582912 + Fmt.encRr d a)) = _
  rw [at_1C c _ (by omega)]
  rw [show (12582912 + Fmt.encRr d a) / 2097152 % 16 = 6 by omega]
  have hd := decRr_enc 6 d a
  show ((Fmt.decRr (12582912 + Fmt.encRr d a)).map (fun (d, a) => Instr.ddyF32 d a)) = _
  exact congrArg (Option.map _) hd
theorem vrdi (d : BitVec 7) (a : BitVec 7) : Statement (.vrdi d a) := by
  intro _ c
  have hlt := encRr_lt d a
  show decodeInstr (wordOf c 0x1C (14680064 + Fmt.encRr d a)) = _
  rw [at_1C c _ (by omega)]
  rw [show (14680064 + Fmt.encRr d a) / 2097152 % 16 = 7 by omega]
  have hd := decRr_enc 7 d a
  show ((Fmt.decRr (14680064 + Fmt.encRr d a)).map (fun (d, a) => Instr.vrdi d a)) = _
  exact congrArg (Option.map _) hd
theorem vwri (a : BitVec 7) (b : BitVec 7) : Statement (.vwri a b) := by
  intro _ c
  have hlt := encAb_lt a b
  show decodeInstr (wordOf c 0x1C (16777216 + Fmt.encAb a b)) = _
  rw [at_1C c _ (by omega)]
  rw [show (16777216 + Fmt.encAb a b) / 2097152 % 16 = 8 by omega]
  have hd := decAb_enc 8 a b
  show ((Fmt.decAb (16777216 + Fmt.encAb a b)).map (fun (a, b) => Instr.vwri a b)) = _
  exact congrArg (Option.map _) hd
theorem rdlane (d : BitVec 7) (a : BitVec 7) (b : BitVec 7) : Statement (.rdlane d a b) := by
  intro _ c
  have hlt := encRrr_lt d a b
  show decodeInstr (wordOf c 0x1C (18874368 + Fmt.encRrr d a b)) = _
  rw [at_1C c _ (by omega)]
  rw [show (18874368 + Fmt.encRrr d a b) / 2097152 % 16 = 9 by omega]
  have hd := decRrr_enc 9 d a b
  show ((Fmt.decRrr (18874368 + Fmt.encRrr d a b)).map (fun (d, a, b) => Instr.rdlane d a b)) = _
  exact congrArg (Option.map _) hd
theorem wrlane (d : BitVec 7) (a : BitVec 7) (b : BitVec 7) : Statement (.wrlane d a b) := by
  intro _ c
  have hlt := encRrr_lt d a b
  show decodeInstr (wordOf c 0x1C (20971520 + Fmt.encRrr d a b)) = _
  rw [at_1C c _ (by omega)]
  rw [show (20971520 + Fmt.encRrr d a b) / 2097152 % 16 = 10 by omega]
  have hd := decRrr_enc 10 d a b
  show ((Fmt.decRrr (20971520 + Fmt.encRrr d a b)).map (fun (d, a, b) => Instr.wrlane d a b)) = _
  exact congrArg (Option.map _) hd
theorem raddI32 (d : BitVec 7) (a : BitVec 7) : Statement (.raddI32 d a) := by
  intro _ c
  have hlt := encRr_lt d a
  show decodeInstr (wordOf c 0x1C (23068672 + Fmt.encRr d a)) = _
  rw [at_1C c _ (by omega)]
  rw [show (23068672 + Fmt.encRr d a) / 2097152 % 16 = 11 by omega]
  have hd := decRr_enc 11 d a
  show ((Fmt.decRr (23068672 + Fmt.encRr d a)).map (fun (d, a) => Instr.raddI32 d a)) = _
  exact congrArg (Option.map _) hd
theorem rmaxI32 (d : BitVec 7) (a : BitVec 7) : Statement (.rmaxI32 d a) := by
  intro _ c
  have hlt := encRr_lt d a
  show decodeInstr (wordOf c 0x1C (25165824 + Fmt.encRr d a)) = _
  rw [at_1C c _ (by omega)]
  rw [show (25165824 + Fmt.encRr d a) / 2097152 % 16 = 12 by omega]
  have hd := decRr_enc 12 d a
  show ((Fmt.decRr (25165824 + Fmt.encRr d a)).map (fun (d, a) => Instr.rmaxI32 d a)) = _
  exact congrArg (Option.map _) hd
theorem rminI32 (d : BitVec 7) (a : BitVec 7) : Statement (.rminI32 d a) := by
  intro _ c
  have hlt := encRr_lt d a
  show decodeInstr (wordOf c 0x1C (27262976 + Fmt.encRr d a)) = _
  rw [at_1C c _ (by omega)]
  rw [show (27262976 + Fmt.encRr d a) / 2097152 % 16 = 13 by omega]
  have hd := decRr_enc 13 d a
  show ((Fmt.decRr (27262976 + Fmt.encRr d a)).map (fun (d, a) => Instr.rminI32 d a)) = _
  exact congrArg (Option.map _) hd
theorem raddF32 (d : BitVec 7) (a : BitVec 7) : Statement (.raddF32 d a) := by
  intro _ c
  have hlt := encRr_lt d a
  show decodeInstr (wordOf c 0x1C (29360128 + Fmt.encRr d a)) = _
  rw [at_1C c _ (by omega)]
  rw [show (29360128 + Fmt.encRr d a) / 2097152 % 16 = 14 by omega]
  have hd := decRr_enc 14 d a
  show ((Fmt.decRr (29360128 + Fmt.encRr d a)).map (fun (d, a) => Instr.raddF32 d a)) = _
  exact congrArg (Option.map _) hd
theorem ballot (d : BitVec 3) (a : BitVec 7) : Statement (.ballot d a) := by
  intro _ c
  have hlt := encMaskS_lt d a
  show decodeInstr (wordOf c 0x1C (31457280 + Fmt.encMaskS d a)) = _
  rw [at_1C c _ (by omega)]
  rw [show (31457280 + Fmt.encMaskS d a) / 2097152 % 16 = 15 by omega]
  have hd := decMaskS_enc 15 d a
  show ((Fmt.decMaskS (31457280 + Fmt.encMaskS d a)).map (fun (d, a) => Instr.ballot d a)) = _
  exact congrArg (Option.map _) hd
theorem ld8n (d : BitVec 7) (a : BitVec 7) (o : BitVec 8) : Statement (.ld8n d a o) := by
  intro _ c
  have hlt := encMem_lt d a o
  show decodeInstr (wordOf c 0x20 (Fmt.encMem d a o)) = _
  rw [at_20 c _ (by omega)]
  rw [show (Fmt.encMem d a o) / 4194304 % 8 = 0 by omega]
  have hd := decMem_enc 0 d a o
  rw [Nat.zero_mul, Nat.zero_add] at hd
  show ((Fmt.decMem (Fmt.encMem d a o)).map (fun (d, a, o) => Instr.ld8n d a o)) = _
  exact congrArg (Option.map _) hd
theorem ld8i (d : BitVec 7) (a : BitVec 7) (o : BitVec 8) : Statement (.ld8i d a o) := by
  intro _ c
  have hlt := encMem_lt d a o
  show decodeInstr (wordOf c 0x20 (4194304 + Fmt.encMem d a o)) = _
  rw [at_20 c _ (by omega)]
  rw [show (4194304 + Fmt.encMem d a o) / 4194304 % 8 = 1 by omega]
  have hd := decMem_enc 1 d a o
  show ((Fmt.decMem (4194304 + Fmt.encMem d a o)).map (fun (d, a, o) => Instr.ld8i d a o)) = _
  exact congrArg (Option.map _) hd
theorem ld16n (d : BitVec 7) (a : BitVec 7) (o : BitVec 8) : Statement (.ld16n d a o) := by
  intro _ c
  have hlt := encMem_lt d a o
  show decodeInstr (wordOf c 0x20 (8388608 + Fmt.encMem d a o)) = _
  rw [at_20 c _ (by omega)]
  rw [show (8388608 + Fmt.encMem d a o) / 4194304 % 8 = 2 by omega]
  have hd := decMem_enc 2 d a o
  show ((Fmt.decMem (8388608 + Fmt.encMem d a o)).map (fun (d, a, o) => Instr.ld16n d a o)) = _
  exact congrArg (Option.map _) hd
theorem ld16i (d : BitVec 7) (a : BitVec 7) (o : BitVec 8) : Statement (.ld16i d a o) := by
  intro _ c
  have hlt := encMem_lt d a o
  show decodeInstr (wordOf c 0x20 (12582912 + Fmt.encMem d a o)) = _
  rw [at_20 c _ (by omega)]
  rw [show (12582912 + Fmt.encMem d a o) / 4194304 % 8 = 3 by omega]
  have hd := decMem_enc 3 d a o
  show ((Fmt.decMem (12582912 + Fmt.encMem d a o)).map (fun (d, a, o) => Instr.ld16i d a o)) = _
  exact congrArg (Option.map _) hd
theorem ld32 (d : BitVec 7) (a : BitVec 7) (o : BitVec 8) : Statement (.ld32 d a o) := by
  intro _ c
  have hlt := encMem_lt d a o
  show decodeInstr (wordOf c 0x20 (16777216 + Fmt.encMem d a o)) = _
  rw [at_20 c _ (by omega)]
  rw [show (16777216 + Fmt.encMem d a o) / 4194304 % 8 = 4 by omega]
  have hd := decMem_enc 4 d a o
  show ((Fmt.decMem (16777216 + Fmt.encMem d a o)).map (fun (d, a, o) => Instr.ld32 d a o)) = _
  exact congrArg (Option.map _) hd
theorem ld64 (d : BitVec 7) (a : BitVec 7) (o : BitVec 8) : Statement (.ld64 d a o) := by
  intro _ c
  have hlt := encMem_lt d a o
  show decodeInstr (wordOf c 0x20 (20971520 + Fmt.encMem d a o)) = _
  rw [at_20 c _ (by omega)]
  rw [show (20971520 + Fmt.encMem d a o) / 4194304 % 8 = 5 by omega]
  have hd := decMem_enc 5 d a o
  show ((Fmt.decMem (20971520 + Fmt.encMem d a o)).map (fun (d, a, o) => Instr.ld64 d a o)) = _
  exact congrArg (Option.map _) hd
theorem ld128 (d : BitVec 7) (a : BitVec 7) (o : BitVec 8) : Statement (.ld128 d a o) := by
  intro _ c
  have hlt := encMem_lt d a o
  show decodeInstr (wordOf c 0x20 (25165824 + Fmt.encMem d a o)) = _
  rw [at_20 c _ (by omega)]
  rw [show (25165824 + Fmt.encMem d a o) / 4194304 % 8 = 6 by omega]
  have hd := decMem_enc 6 d a o
  show ((Fmt.decMem (25165824 + Fmt.encMem d a o)).map (fun (d, a, o) => Instr.ld128 d a o)) = _
  exact congrArg (Option.map _) hd
theorem ldx8n (d : BitVec 7) (a : BitVec 7) (b : BitVec 7) : Statement (.ldx8n d a b) := by
  intro _ c
  have hlt := encRrr_lt d a b
  show decodeInstr (wordOf c 0x21 (Fmt.encRrr d a b)) = _
  rw [at_21 c _ (by omega)]
  rw [show (Fmt.encRrr d a b) / 2097152 % 16 = 0 by omega]
  have hd := decRrr_enc 0 d a b
  rw [Nat.zero_mul, Nat.zero_add] at hd
  show ((Fmt.decRrr (Fmt.encRrr d a b)).map (fun (d, a, b) => Instr.ldx8n d a b)) = _
  exact congrArg (Option.map _) hd
theorem ldx8i (d : BitVec 7) (a : BitVec 7) (b : BitVec 7) : Statement (.ldx8i d a b) := by
  intro _ c
  have hlt := encRrr_lt d a b
  show decodeInstr (wordOf c 0x21 (2097152 + Fmt.encRrr d a b)) = _
  rw [at_21 c _ (by omega)]
  rw [show (2097152 + Fmt.encRrr d a b) / 2097152 % 16 = 1 by omega]
  have hd := decRrr_enc 1 d a b
  show ((Fmt.decRrr (2097152 + Fmt.encRrr d a b)).map (fun (d, a, b) => Instr.ldx8i d a b)) = _
  exact congrArg (Option.map _) hd
theorem ldx16n (d : BitVec 7) (a : BitVec 7) (b : BitVec 7) : Statement (.ldx16n d a b) := by
  intro _ c
  have hlt := encRrr_lt d a b
  show decodeInstr (wordOf c 0x21 (4194304 + Fmt.encRrr d a b)) = _
  rw [at_21 c _ (by omega)]
  rw [show (4194304 + Fmt.encRrr d a b) / 2097152 % 16 = 2 by omega]
  have hd := decRrr_enc 2 d a b
  show ((Fmt.decRrr (4194304 + Fmt.encRrr d a b)).map (fun (d, a, b) => Instr.ldx16n d a b)) = _
  exact congrArg (Option.map _) hd
theorem ldx16i (d : BitVec 7) (a : BitVec 7) (b : BitVec 7) : Statement (.ldx16i d a b) := by
  intro _ c
  have hlt := encRrr_lt d a b
  show decodeInstr (wordOf c 0x21 (6291456 + Fmt.encRrr d a b)) = _
  rw [at_21 c _ (by omega)]
  rw [show (6291456 + Fmt.encRrr d a b) / 2097152 % 16 = 3 by omega]
  have hd := decRrr_enc 3 d a b
  show ((Fmt.decRrr (6291456 + Fmt.encRrr d a b)).map (fun (d, a, b) => Instr.ldx16i d a b)) = _
  exact congrArg (Option.map _) hd
theorem ldx32 (d : BitVec 7) (a : BitVec 7) (b : BitVec 7) : Statement (.ldx32 d a b) := by
  intro _ c
  have hlt := encRrr_lt d a b
  show decodeInstr (wordOf c 0x21 (8388608 + Fmt.encRrr d a b)) = _
  rw [at_21 c _ (by omega)]
  rw [show (8388608 + Fmt.encRrr d a b) / 2097152 % 16 = 4 by omega]
  have hd := decRrr_enc 4 d a b
  show ((Fmt.decRrr (8388608 + Fmt.encRrr d a b)).map (fun (d, a, b) => Instr.ldx32 d a b)) = _
  exact congrArg (Option.map _) hd
theorem ldx64 (d : BitVec 7) (a : BitVec 7) (b : BitVec 7) : Statement (.ldx64 d a b) := by
  intro _ c
  have hlt := encRrr_lt d a b
  show decodeInstr (wordOf c 0x21 (10485760 + Fmt.encRrr d a b)) = _
  rw [at_21 c _ (by omega)]
  rw [show (10485760 + Fmt.encRrr d a b) / 2097152 % 16 = 5 by omega]
  have hd := decRrr_enc 5 d a b
  show ((Fmt.decRrr (10485760 + Fmt.encRrr d a b)).map (fun (d, a, b) => Instr.ldx64 d a b)) = _
  exact congrArg (Option.map _) hd
theorem ldx128 (d : BitVec 7) (a : BitVec 7) (b : BitVec 7) : Statement (.ldx128 d a b) := by
  intro _ c
  have hlt := encRrr_lt d a b
  show decodeInstr (wordOf c 0x21 (12582912 + Fmt.encRrr d a b)) = _
  rw [at_21 c _ (by omega)]
  rw [show (12582912 + Fmt.encRrr d a b) / 2097152 % 16 = 6 by omega]
  have hd := decRrr_enc 6 d a b
  show ((Fmt.decRrr (12582912 + Fmt.encRrr d a b)).map (fun (d, a, b) => Instr.ldx128 d a b)) = _
  exact congrArg (Option.map _) hd
theorem st8 (d : BitVec 7) (a : BitVec 7) (o : BitVec 8) : Statement (.st8 d a o) := by
  intro _ c
  have hlt := encMem_lt d a o
  show decodeInstr (wordOf c 0x22 (Fmt.encMem d a o)) = _
  rw [at_22 c _ (by omega)]
  rw [show (Fmt.encMem d a o) / 4194304 % 8 = 0 by omega]
  have hd := decMem_enc 0 d a o
  rw [Nat.zero_mul, Nat.zero_add] at hd
  show ((Fmt.decMem (Fmt.encMem d a o)).map (fun (d, a, o) => Instr.st8 d a o)) = _
  exact congrArg (Option.map _) hd
theorem st16 (d : BitVec 7) (a : BitVec 7) (o : BitVec 8) : Statement (.st16 d a o) := by
  intro _ c
  have hlt := encMem_lt d a o
  show decodeInstr (wordOf c 0x22 (8388608 + Fmt.encMem d a o)) = _
  rw [at_22 c _ (by omega)]
  rw [show (8388608 + Fmt.encMem d a o) / 4194304 % 8 = 2 by omega]
  have hd := decMem_enc 2 d a o
  show ((Fmt.decMem (8388608 + Fmt.encMem d a o)).map (fun (d, a, o) => Instr.st16 d a o)) = _
  exact congrArg (Option.map _) hd
theorem st32 (d : BitVec 7) (a : BitVec 7) (o : BitVec 8) : Statement (.st32 d a o) := by
  intro _ c
  have hlt := encMem_lt d a o
  show decodeInstr (wordOf c 0x22 (16777216 + Fmt.encMem d a o)) = _
  rw [at_22 c _ (by omega)]
  rw [show (16777216 + Fmt.encMem d a o) / 4194304 % 8 = 4 by omega]
  have hd := decMem_enc 4 d a o
  show ((Fmt.decMem (16777216 + Fmt.encMem d a o)).map (fun (d, a, o) => Instr.st32 d a o)) = _
  exact congrArg (Option.map _) hd
theorem st64 (d : BitVec 7) (a : BitVec 7) (o : BitVec 8) : Statement (.st64 d a o) := by
  intro _ c
  have hlt := encMem_lt d a o
  show decodeInstr (wordOf c 0x22 (20971520 + Fmt.encMem d a o)) = _
  rw [at_22 c _ (by omega)]
  rw [show (20971520 + Fmt.encMem d a o) / 4194304 % 8 = 5 by omega]
  have hd := decMem_enc 5 d a o
  show ((Fmt.decMem (20971520 + Fmt.encMem d a o)).map (fun (d, a, o) => Instr.st64 d a o)) = _
  exact congrArg (Option.map _) hd
theorem st128 (d : BitVec 7) (a : BitVec 7) (o : BitVec 8) : Statement (.st128 d a o) := by
  intro _ c
  have hlt := encMem_lt d a o
  show decodeInstr (wordOf c 0x22 (25165824 + Fmt.encMem d a o)) = _
  rw [at_22 c _ (by omega)]
  rw [show (25165824 + Fmt.encMem d a o) / 4194304 % 8 = 6 by omega]
  have hd := decMem_enc 6 d a o
  show ((Fmt.decMem (25165824 + Fmt.encMem d a o)).map (fun (d, a, o) => Instr.st128 d a o)) = _
  exact congrArg (Option.map _) hd
theorem stx8 (d : BitVec 7) (a : BitVec 7) (b : BitVec 7) : Statement (.stx8 d a b) := by
  intro _ c
  have hlt := encRrr_lt d a b
  show decodeInstr (wordOf c 0x23 (Fmt.encRrr d a b)) = _
  rw [at_23 c _ (by omega)]
  rw [show (Fmt.encRrr d a b) / 2097152 % 16 = 0 by omega]
  have hd := decRrr_enc 0 d a b
  rw [Nat.zero_mul, Nat.zero_add] at hd
  show ((Fmt.decRrr (Fmt.encRrr d a b)).map (fun (d, a, b) => Instr.stx8 d a b)) = _
  exact congrArg (Option.map _) hd
theorem stx16 (d : BitVec 7) (a : BitVec 7) (b : BitVec 7) : Statement (.stx16 d a b) := by
  intro _ c
  have hlt := encRrr_lt d a b
  show decodeInstr (wordOf c 0x23 (4194304 + Fmt.encRrr d a b)) = _
  rw [at_23 c _ (by omega)]
  rw [show (4194304 + Fmt.encRrr d a b) / 2097152 % 16 = 2 by omega]
  have hd := decRrr_enc 2 d a b
  show ((Fmt.decRrr (4194304 + Fmt.encRrr d a b)).map (fun (d, a, b) => Instr.stx16 d a b)) = _
  exact congrArg (Option.map _) hd
theorem stx32 (d : BitVec 7) (a : BitVec 7) (b : BitVec 7) : Statement (.stx32 d a b) := by
  intro _ c
  have hlt := encRrr_lt d a b
  show decodeInstr (wordOf c 0x23 (8388608 + Fmt.encRrr d a b)) = _
  rw [at_23 c _ (by omega)]
  rw [show (8388608 + Fmt.encRrr d a b) / 2097152 % 16 = 4 by omega]
  have hd := decRrr_enc 4 d a b
  show ((Fmt.decRrr (8388608 + Fmt.encRrr d a b)).map (fun (d, a, b) => Instr.stx32 d a b)) = _
  exact congrArg (Option.map _) hd
theorem stx64 (d : BitVec 7) (a : BitVec 7) (b : BitVec 7) : Statement (.stx64 d a b) := by
  intro _ c
  have hlt := encRrr_lt d a b
  show decodeInstr (wordOf c 0x23 (10485760 + Fmt.encRrr d a b)) = _
  rw [at_23 c _ (by omega)]
  rw [show (10485760 + Fmt.encRrr d a b) / 2097152 % 16 = 5 by omega]
  have hd := decRrr_enc 5 d a b
  show ((Fmt.decRrr (10485760 + Fmt.encRrr d a b)).map (fun (d, a, b) => Instr.stx64 d a b)) = _
  exact congrArg (Option.map _) hd
theorem stx128 (d : BitVec 7) (a : BitVec 7) (b : BitVec 7) : Statement (.stx128 d a b) := by
  intro _ c
  have hlt := encRrr_lt d a b
  show decodeInstr (wordOf c 0x23 (12582912 + Fmt.encRrr d a b)) = _
  rw [at_23 c _ (by omega)]
  rw [show (12582912 + Fmt.encRrr d a b) / 2097152 % 16 = 6 by omega]
  have hd := decRrr_enc 6 d a b
  show ((Fmt.decRrr (12582912 + Fmt.encRrr d a b)).map (fun (d, a, b) => Instr.stx128 d a b)) = _
  exact congrArg (Option.map _) hd
theorem ldk32 (d : BitVec 7) (a : BitVec 7) (o : BitVec 8) : Statement (.ldk32 d a o) := by
  intro _ c
  have hlt := encMem_lt d a o
  show decodeInstr (wordOf c 0x24 (16777216 + Fmt.encMem d a o)) = _
  rw [at_24 c _ (by omega)]
  rw [show (16777216 + Fmt.encMem d a o) / 4194304 % 8 = 4 by omega]
  have hd := decMem_enc 4 d a o
  show ((Fmt.decMem (16777216 + Fmt.encMem d a o)).map (fun (d, a, o) => Instr.ldk32 d a o)) = _
  exact congrArg (Option.map _) hd
theorem ldk64 (d : BitVec 7) (a : BitVec 7) (o : BitVec 8) : Statement (.ldk64 d a o) := by
  intro _ c
  have hlt := encMem_lt d a o
  show decodeInstr (wordOf c 0x24 (20971520 + Fmt.encMem d a o)) = _
  rw [at_24 c _ (by omega)]
  rw [show (20971520 + Fmt.encMem d a o) / 4194304 % 8 = 5 by omega]
  have hd := decMem_enc 5 d a o
  show ((Fmt.decMem (20971520 + Fmt.encMem d a o)).map (fun (d, a, o) => Instr.ldk64 d a o)) = _
  exact congrArg (Option.map _) hd
theorem ldk128 (d : BitVec 7) (a : BitVec 7) (o : BitVec 8) : Statement (.ldk128 d a o) := by
  intro _ c
  have hlt := encMem_lt d a o
  show decodeInstr (wordOf c 0x24 (25165824 + Fmt.encMem d a o)) = _
  rw [at_24 c _ (by omega)]
  rw [show (25165824 + Fmt.encMem d a o) / 4194304 % 8 = 6 by omega]
  have hd := decMem_enc 6 d a o
  show ((Fmt.decMem (25165824 + Fmt.encMem d a o)).map (fun (d, a, o) => Instr.ldk128 d a o)) = _
  exact congrArg (Option.map _) hd
theorem lda32 (s : BitVec 2) (d : BitVec 7) (a : BitVec 7) : Statement (.lda32 s d a) := by
  intro _ c
  have hlt := encSync_lt s d a
  show decodeInstr (wordOf c 0x25 (Fmt.encSync s d a)) = _
  rw [at_25 c _ (by omega)]
  have he : (Fmt.encSync s d a) / 2097152 % 16 = 0 + s.toNat := by unfold Fmt.encSync; have := s.isLt; have := d.isLt; have := a.isLt; omega
  have hd := decSync_enc 0 s d a
  rw [Nat.zero_mul, Nat.zero_add] at hd
  rw [he]
  have key : ∀ m < 4, ∀ p, decodeSync (0 + m) p = (Fmt.decSync p).map fun (s, d, a) => Instr.lda32 s d a := by
    intro m hm p
    interval_cases m <;> rfl
  rw [key _ s.isLt]
  exact congrArg (Option.map _) hd
theorem lda64 (s : BitVec 2) (d : BitVec 7) (a : BitVec 7) : Statement (.lda64 s d a) := by
  intro _ c
  have hlt := encSync_lt s d a
  show decodeInstr (wordOf c 0x25 (8388608 + Fmt.encSync s d a)) = _
  rw [at_25 c _ (by omega)]
  have he : (8388608 + Fmt.encSync s d a) / 2097152 % 16 = 4 + s.toNat := by unfold Fmt.encSync; have := s.isLt; have := d.isLt; have := a.isLt; omega
  have hd := decSync_enc 1 s d a
  rw [he]
  have key : ∀ m < 4, ∀ p, decodeSync (4 + m) p = (Fmt.decSync p).map fun (s, d, a) => Instr.lda64 s d a := by
    intro m hm p
    interval_cases m <;> rfl
  rw [key _ s.isLt]
  exact congrArg (Option.map _) hd
theorem stl32 (s : BitVec 2) (d : BitVec 7) (a : BitVec 7) : Statement (.stl32 s d a) := by
  intro _ c
  have hlt := encSync_lt s d a
  show decodeInstr (wordOf c 0x25 (16777216 + Fmt.encSync s d a)) = _
  rw [at_25 c _ (by omega)]
  have he : (16777216 + Fmt.encSync s d a) / 2097152 % 16 = 8 + s.toNat := by unfold Fmt.encSync; have := s.isLt; have := d.isLt; have := a.isLt; omega
  have hd := decSync_enc 2 s d a
  rw [he]
  have key : ∀ m < 4, ∀ p, decodeSync (8 + m) p = (Fmt.decSync p).map fun (s, d, a) => Instr.stl32 s d a := by
    intro m hm p
    interval_cases m <;> rfl
  rw [key _ s.isLt]
  exact congrArg (Option.map _) hd
theorem stl64 (s : BitVec 2) (d : BitVec 7) (a : BitVec 7) : Statement (.stl64 s d a) := by
  intro _ c
  have hlt := encSync_lt s d a
  show decodeInstr (wordOf c 0x25 (25165824 + Fmt.encSync s d a)) = _
  rw [at_25 c _ (by omega)]
  have he : (25165824 + Fmt.encSync s d a) / 2097152 % 16 = 12 + s.toNat := by unfold Fmt.encSync; have := s.isLt; have := d.isLt; have := a.isLt; omega
  have hd := decSync_enc 3 s d a
  rw [he]
  have key : ∀ m < 4, ∀ p, decodeSync (12 + m) p = (Fmt.decSync p).map fun (s, d, a) => Instr.stl64 s d a := by
    intro m hm p
    interval_cases m <;> rfl
  rw [key _ s.isLt]
  exact congrArg (Option.map _) hd
theorem fence (r : BitVec 1) (q : BitVec 1) (s : BitVec 2) : Statement (.fence r q s) := by
  intro h c
  have hlt := encFence_lt r q s
  show decodeInstr (wordOf c 0x26 (Fmt.encFence r q s)) = _
  rw [at_26 c _ (by omega)]
  rw [show (Fmt.encFence r q s) / 2097152 % 16 = 0 by omega]
  have hd := decFence_enc 0 r q s
  rw [Nat.zero_mul, Nat.zero_add] at hd
  show ((Fmt.decFence (Fmt.encFence r q s)).bind fun (r, q, s) => if r ≠ 0 ∨ q ≠ 0 then some (Instr.fence r q s) else none) = _
  rw [show Fmt.decFence (Fmt.encFence r q s) = _ from hd]
  exact if_pos (by simpa [Instr.wellFormed, Instr.isWord, Instr.fieldsOk, and_assoc] using h)
theorem pfence (p : BitVec 4) : Statement (.pfence p) := by
  intro h c
  have hlt := encPfence_lt p
  show decodeInstr (wordOf c 0x26 (2097152 + Fmt.encPfence p)) = _
  rw [at_26 c _ (by omega)]
  rw [show (2097152 + Fmt.encPfence p) / 2097152 % 16 = 1 by omega]
  have hd := decPfence_enc 1 p
  show ((Fmt.decPfence (2097152 + Fmt.encPfence p)).bind fun p => if p ≠ 0 then some (Instr.pfence p) else none) = _
  rw [show Fmt.decPfence (2097152 + Fmt.encPfence p) = _ from hd]
  exact if_pos (by simpa [Instr.wellFormed, Instr.isWord, Instr.fieldsOk] using h)
theorem icinv (p : BitVec 7) : Statement (.icinv p) := by
  intro _ c
  have hlt := encOpd_lt p
  show decodeInstr (wordOf c 0x26 (4194304 + Fmt.encOpd p)) = _
  rw [at_26 c _ (by omega)]
  rw [show (4194304 + Fmt.encOpd p) / 2097152 % 16 = 2 by omega]
  have hd := decOpd_enc 2 p
  show ((Fmt.decOpd (4194304 + Fmt.encOpd p)).map (fun p => Instr.icinv p) <|> (Fmt.decFix 1 (4194304 + Fmt.encOpd p)).map (fun _ => Instr.icinvAll)) = _
  rw [show Fmt.decOpd (4194304 + Fmt.encOpd p) = _ from hd]
  rfl
theorem icinvAll : Statement (.icinvAll) := by
  intro _ c
  have hlt := encFix_lt 1 (by decide)
  show decodeInstr (wordOf c 0x26 (4194304 + Fmt.encFix 1)) = _
  rw [at_26 c _ (by omega)]
  rw [show (4194304 + Fmt.encFix 1) / 2097152 % 16 = 2 by omega]
  have n0 : Fmt.decOpd (4194304 + Fmt.encFix 1) = none := by
    unfold Fmt.decOpd Fmt.encFix; exact if_neg (by omega)
  have hd := decFix_enc 1 2 (by decide)
  show ((Fmt.decOpd (4194304 + Fmt.encFix 1)).map (fun p => Instr.icinv p) <|> (Fmt.decFix 1 (4194304 + Fmt.encFix 1)).map (fun _ => Instr.icinvAll)) = _
  rw [show Fmt.decFix 1 (4194304 + Fmt.encFix 1) = _ from hd]
  rw [n0]
  rfl
theorem prefL1 (a : BitVec 7) (o : BitVec 8) : Statement (.prefL1 a o) := by
  intro _ c
  have hlt := encPref_lt a o
  show decodeInstr (wordOf c 0x27 (Fmt.encPref a o)) = _
  rw [at_27 c _ (by omega)]
  rw [show (Fmt.encPref a o) / 4194304 % 8 = 0 by omega]
  have hd := decPref_enc 0 a o
  rw [Nat.zero_mul, Nat.zero_add] at hd
  show ((Fmt.decPref (Fmt.encPref a o)).map (fun (a, o) => Instr.prefL1 a o)) = _
  exact congrArg (Option.map _) hd
theorem prefL2 (a : BitVec 7) (o : BitVec 8) : Statement (.prefL2 a o) := by
  intro _ c
  have hlt := encPref_lt a o
  show decodeInstr (wordOf c 0x27 (4194304 + Fmt.encPref a o)) = _
  rw [at_27 c _ (by omega)]
  rw [show (4194304 + Fmt.encPref a o) / 4194304 % 8 = 1 by omega]
  have hd := decPref_enc 1 a o
  show ((Fmt.decPref (4194304 + Fmt.encPref a o)).map (fun (a, o) => Instr.prefL2 a o)) = _
  exact congrArg (Option.map _) hd
theorem atomAddI32 (d : BitVec 7) (a : BitVec 7) (b : BitVec 7) : Statement (.atomAddI32 d a b) := by
  intro _ c
  have hlt := encRrr_lt d a b
  show decodeInstr (wordOf c 0x28 (Fmt.encRrr d a b)) = _
  rw [at_28 c _ (by omega)]
  rw [show (Fmt.encRrr d a b) / 2097152 % 16 = 0 by omega]
  have hd := decRrr_enc 0 d a b
  rw [Nat.zero_mul, Nat.zero_add] at hd
  show ((Fmt.decRrr (Fmt.encRrr d a b)).map (fun (d, a, b) => Instr.atomAddI32 d a b)) = _
  exact congrArg (Option.map _) hd
theorem atomAddI64 (d : BitVec 7) (a : BitVec 7) (b : BitVec 7) : Statement (.atomAddI64 d a b) := by
  intro _ c
  have hlt := encRrr_lt d a b
  show decodeInstr (wordOf c 0x28 (2097152 + Fmt.encRrr d a b)) = _
  rw [at_28 c _ (by omega)]
  rw [show (2097152 + Fmt.encRrr d a b) / 2097152 % 16 = 1 by omega]
  have hd := decRrr_enc 1 d a b
  show ((Fmt.decRrr (2097152 + Fmt.encRrr d a b)).map (fun (d, a, b) => Instr.atomAddI64 d a b)) = _
  exact congrArg (Option.map _) hd
theorem atomMinI32 (d : BitVec 7) (a : BitVec 7) (b : BitVec 7) : Statement (.atomMinI32 d a b) := by
  intro _ c
  have hlt := encRrr_lt d a b
  show decodeInstr (wordOf c 0x28 (4194304 + Fmt.encRrr d a b)) = _
  rw [at_28 c _ (by omega)]
  rw [show (4194304 + Fmt.encRrr d a b) / 2097152 % 16 = 2 by omega]
  have hd := decRrr_enc 2 d a b
  show ((Fmt.decRrr (4194304 + Fmt.encRrr d a b)).map (fun (d, a, b) => Instr.atomMinI32 d a b)) = _
  exact congrArg (Option.map _) hd
theorem atomMaxI32 (d : BitVec 7) (a : BitVec 7) (b : BitVec 7) : Statement (.atomMaxI32 d a b) := by
  intro _ c
  have hlt := encRrr_lt d a b
  show decodeInstr (wordOf c 0x28 (6291456 + Fmt.encRrr d a b)) = _
  rw [at_28 c _ (by omega)]
  rw [show (6291456 + Fmt.encRrr d a b) / 2097152 % 16 = 3 by omega]
  have hd := decRrr_enc 3 d a b
  show ((Fmt.decRrr (6291456 + Fmt.encRrr d a b)).map (fun (d, a, b) => Instr.atomMaxI32 d a b)) = _
  exact congrArg (Option.map _) hd
theorem atomMinN32 (d : BitVec 7) (a : BitVec 7) (b : BitVec 7) : Statement (.atomMinN32 d a b) := by
  intro _ c
  have hlt := encRrr_lt d a b
  show decodeInstr (wordOf c 0x28 (8388608 + Fmt.encRrr d a b)) = _
  rw [at_28 c _ (by omega)]
  rw [show (8388608 + Fmt.encRrr d a b) / 2097152 % 16 = 4 by omega]
  have hd := decRrr_enc 4 d a b
  show ((Fmt.decRrr (8388608 + Fmt.encRrr d a b)).map (fun (d, a, b) => Instr.atomMinN32 d a b)) = _
  exact congrArg (Option.map _) hd
theorem atomMaxN32 (d : BitVec 7) (a : BitVec 7) (b : BitVec 7) : Statement (.atomMaxN32 d a b) := by
  intro _ c
  have hlt := encRrr_lt d a b
  show decodeInstr (wordOf c 0x28 (10485760 + Fmt.encRrr d a b)) = _
  rw [at_28 c _ (by omega)]
  rw [show (10485760 + Fmt.encRrr d a b) / 2097152 % 16 = 5 by omega]
  have hd := decRrr_enc 5 d a b
  show ((Fmt.decRrr (10485760 + Fmt.encRrr d a b)).map (fun (d, a, b) => Instr.atomMaxN32 d a b)) = _
  exact congrArg (Option.map _) hd
theorem atomAnd32 (d : BitVec 7) (a : BitVec 7) (b : BitVec 7) : Statement (.atomAnd32 d a b) := by
  intro _ c
  have hlt := encRrr_lt d a b
  show decodeInstr (wordOf c 0x28 (12582912 + Fmt.encRrr d a b)) = _
  rw [at_28 c _ (by omega)]
  rw [show (12582912 + Fmt.encRrr d a b) / 2097152 % 16 = 6 by omega]
  have hd := decRrr_enc 6 d a b
  show ((Fmt.decRrr (12582912 + Fmt.encRrr d a b)).map (fun (d, a, b) => Instr.atomAnd32 d a b)) = _
  exact congrArg (Option.map _) hd
theorem atomOr32 (d : BitVec 7) (a : BitVec 7) (b : BitVec 7) : Statement (.atomOr32 d a b) := by
  intro _ c
  have hlt := encRrr_lt d a b
  show decodeInstr (wordOf c 0x28 (14680064 + Fmt.encRrr d a b)) = _
  rw [at_28 c _ (by omega)]
  rw [show (14680064 + Fmt.encRrr d a b) / 2097152 % 16 = 7 by omega]
  have hd := decRrr_enc 7 d a b
  show ((Fmt.decRrr (14680064 + Fmt.encRrr d a b)).map (fun (d, a, b) => Instr.atomOr32 d a b)) = _
  exact congrArg (Option.map _) hd
theorem atomXor32 (d : BitVec 7) (a : BitVec 7) (b : BitVec 7) : Statement (.atomXor32 d a b) := by
  intro _ c
  have hlt := encRrr_lt d a b
  show decodeInstr (wordOf c 0x28 (16777216 + Fmt.encRrr d a b)) = _
  rw [at_28 c _ (by omega)]
  rw [show (16777216 + Fmt.encRrr d a b) / 2097152 % 16 = 8 by omega]
  have hd := decRrr_enc 8 d a b
  show ((Fmt.decRrr (16777216 + Fmt.encRrr d a b)).map (fun (d, a, b) => Instr.atomXor32 d a b)) = _
  exact congrArg (Option.map _) hd
theorem atomXchg32 (d : BitVec 7) (a : BitVec 7) (b : BitVec 7) : Statement (.atomXchg32 d a b) := by
  intro _ c
  have hlt := encRrr_lt d a b
  show decodeInstr (wordOf c 0x28 (18874368 + Fmt.encRrr d a b)) = _
  rw [at_28 c _ (by omega)]
  rw [show (18874368 + Fmt.encRrr d a b) / 2097152 % 16 = 9 by omega]
  have hd := decRrr_enc 9 d a b
  show ((Fmt.decRrr (18874368 + Fmt.encRrr d a b)).map (fun (d, a, b) => Instr.atomXchg32 d a b)) = _
  exact congrArg (Option.map _) hd
theorem atomXchg64 (d : BitVec 7) (a : BitVec 7) (b : BitVec 7) : Statement (.atomXchg64 d a b) := by
  intro _ c
  have hlt := encRrr_lt d a b
  show decodeInstr (wordOf c 0x28 (20971520 + Fmt.encRrr d a b)) = _
  rw [at_28 c _ (by omega)]
  rw [show (20971520 + Fmt.encRrr d a b) / 2097152 % 16 = 10 by omega]
  have hd := decRrr_enc 10 d a b
  show ((Fmt.decRrr (20971520 + Fmt.encRrr d a b)).map (fun (d, a, b) => Instr.atomXchg64 d a b)) = _
  exact congrArg (Option.map _) hd
theorem atomCas32 (d : BitVec 7) (a : BitVec 7) (b : BitVec 7) : Statement (.atomCas32 d a b) := by
  intro _ c
  have hlt := encRrr_lt d a b
  show decodeInstr (wordOf c 0x28 (23068672 + Fmt.encRrr d a b)) = _
  rw [at_28 c _ (by omega)]
  rw [show (23068672 + Fmt.encRrr d a b) / 2097152 % 16 = 11 by omega]
  have hd := decRrr_enc 11 d a b
  show ((Fmt.decRrr (23068672 + Fmt.encRrr d a b)).map (fun (d, a, b) => Instr.atomCas32 d a b)) = _
  exact congrArg (Option.map _) hd
theorem atomCas64 (d : BitVec 7) (a : BitVec 7) (b : BitVec 7) : Statement (.atomCas64 d a b) := by
  intro _ c
  have hlt := encRrr_lt d a b
  show decodeInstr (wordOf c 0x28 (25165824 + Fmt.encRrr d a b)) = _
  rw [at_28 c _ (by omega)]
  rw [show (25165824 + Fmt.encRrr d a b) / 2097152 % 16 = 12 by omega]
  have hd := decRrr_enc 12 d a b
  show ((Fmt.decRrr (25165824 + Fmt.encRrr d a b)).map (fun (d, a, b) => Instr.atomCas64 d a b)) = _
  exact congrArg (Option.map _) hd
theorem atomAddF32 (d : BitVec 7) (a : BitVec 7) (b : BitVec 7) : Statement (.atomAddF32 d a b) := by
  intro _ c
  have hlt := encRrr_lt d a b
  show decodeInstr (wordOf c 0x28 (27262976 + Fmt.encRrr d a b)) = _
  rw [at_28 c _ (by omega)]
  rw [show (27262976 + Fmt.encRrr d a b) / 2097152 % 16 = 13 by omega]
  have hd := decRrr_enc 13 d a b
  show ((Fmt.decRrr (27262976 + Fmt.encRrr d a b)).map (fun (d, a, b) => Instr.atomAddF32 d a b)) = _
  exact congrArg (Option.map _) hd
theorem atomIncN32 (d : BitVec 7) (a : BitVec 7) (b : BitVec 7) : Statement (.atomIncN32 d a b) := by
  intro _ c
  have hlt := encRrr_lt d a b
  show decodeInstr (wordOf c 0x28 (29360128 + Fmt.encRrr d a b)) = _
  rw [at_28 c _ (by omega)]
  rw [show (29360128 + Fmt.encRrr d a b) / 2097152 % 16 = 14 by omega]
  have hd := decRrr_enc 14 d a b
  show ((Fmt.decRrr (29360128 + Fmt.encRrr d a b)).map (fun (d, a, b) => Instr.atomIncN32 d a b)) = _
  exact congrArg (Option.map _) hd
theorem atomDecN32 (d : BitVec 7) (a : BitVec 7) (b : BitVec 7) : Statement (.atomDecN32 d a b) := by
  intro _ c
  have hlt := encRrr_lt d a b
  show decodeInstr (wordOf c 0x28 (31457280 + Fmt.encRrr d a b)) = _
  rw [at_28 c _ (by omega)]
  rw [show (31457280 + Fmt.encRrr d a b) / 2097152 % 16 = 15 by omega]
  have hd := decRrr_enc 15 d a b
  show ((Fmt.decRrr (31457280 + Fmt.encRrr d a b)).map (fun (d, a, b) => Instr.atomDecN32 d a b)) = _
  exact congrArg (Option.map _) hd
theorem wayin (a : BitVec 7) (b : BitVec 7) : Statement (.wayin a b) := by
  intro _ c
  have hlt := encAb_lt a b
  show decodeInstr (wordOf c 0x2A (Fmt.encAb a b)) = _
  rw [at_2A c _ (by omega)]
  rw [show (Fmt.encAb a b) / 2097152 % 16 = 0 by omega]
  have hd := decAb_enc 0 a b
  rw [Nat.zero_mul, Nat.zero_add] at hd
  show ((Fmt.decAb (Fmt.encAb a b)).map (fun (a, b) => Instr.wayin a b)) = _
  exact congrArg (Option.map _) hd
theorem wayout (a : BitVec 7) : Statement (.wayout a) := by
  intro _ c
  have hlt := encA_lt a
  show decodeInstr (wordOf c 0x2A (2097152 + Fmt.encA a)) = _
  rw [at_2A c _ (by omega)]
  rw [show (2097152 + Fmt.encA a) / 2097152 % 16 = 1 by omega]
  have hd := decA_enc 1 a
  show ((Fmt.decA (2097152 + Fmt.encA a)).map (fun a => Instr.wayout a)) = _
  exact congrArg (Option.map _) hd
theorem wayskip (a : BitVec 7) (b : BitVec 7) : Statement (.wayskip a b) := by
  intro _ c
  have hlt := encAb_lt a b
  show decodeInstr (wordOf c 0x2A (4194304 + Fmt.encAb a b)) = _
  rw [at_2A c _ (by omega)]
  rw [show (4194304 + Fmt.encAb a b) / 2097152 % 16 = 2 by omega]
  have hd := decAb_enc 2 a b
  show ((Fmt.decAb (4194304 + Fmt.encAb a b)).map (fun (a, b) => Instr.wayskip a b)) = _
  exact congrArg (Option.map _) hd
theorem waytry (d : BitVec 3) (a : BitVec 7) (b : BitVec 7) : Statement (.waytry d a b) := by
  intro _ c
  have hlt := encCmp_lt d a b
  show decodeInstr (wordOf c 0x2A (6291456 + Fmt.encCmp d a b)) = _
  rw [at_2A c _ (by omega)]
  rw [show (6291456 + Fmt.encCmp d a b) / 2097152 % 16 = 3 by omega]
  have hd := decCmp_enc 3 d a b
  show ((Fmt.decCmp (6291456 + Fmt.encCmp d a b)).map (fun (d, a, b) => Instr.waytry d a b)) = _
  exact congrArg (Option.map _) hd
theorem wayclose (a : BitVec 7) : Statement (.wayclose a) := by
  intro _ c
  have hlt := encA_lt a
  show decodeInstr (wordOf c 0x2A (8388608 + Fmt.encA a)) = _
  rw [at_2A c _ (by omega)]
  rw [show (8388608 + Fmt.encA a) / 2097152 % 16 = 4 by omega]
  have hd := decA_enc 4 a
  show ((Fmt.decA (8388608 + Fmt.encA a)).map (fun a => Instr.wayclose a)) = _
  exact congrArg (Option.map _) hd
theorem wayqry (d : BitVec 7) (a : BitVec 7) : Statement (.wayqry d a) := by
  intro _ c
  have hlt := encRr_lt d a
  show decodeInstr (wordOf c 0x2A (10485760 + Fmt.encRr d a)) = _
  rw [at_2A c _ (by omega)]
  rw [show (10485760 + Fmt.encRr d a) / 2097152 % 16 = 5 by omega]
  have hd := decRr_enc 5 d a
  show ((Fmt.decRr (10485760 + Fmt.encRr d a)).map (fun (d, a) => Instr.wayqry d a)) = _
  exact congrArg (Option.map _) hd
theorem barArrive (o : BitVec 7) : Statement (.barArrive o) := by
  intro _ c
  have hlt := encBarArrive_lt 0 o (by decide)
  show decodeInstr (wordOf c 0x2C (Fmt.encBarArrive 0 o)) = _
  rw [at_2C c _ (by omega)]
  rw [show (Fmt.encBarArrive 0 o) / 2097152 % 16 = 0 by omega]
  have hd := decBarArrive_enc 0 0 o (by decide)
  rw [Nat.zero_mul, Nat.zero_add] at hd
  show ((Fmt.decBarArrive 0 (Fmt.encBarArrive 0 o)).map (fun o => Instr.barArrive o)) = _
  exact congrArg (Option.map _) hd
theorem barWait (o : BitVec 7) : Statement (.barWait o) := by
  intro _ c
  have hlt := encBarArrive_lt 0 o (by decide)
  show decodeInstr (wordOf c 0x2C (2097152 + Fmt.encBarArrive 0 o)) = _
  rw [at_2C c _ (by omega)]
  rw [show (2097152 + Fmt.encBarArrive 0 o) / 2097152 % 16 = 1 by omega]
  have hd := decBarArrive_enc 0 1 o (by decide)
  show ((Fmt.decBarArrive 0 (2097152 + Fmt.encBarArrive 0 o)).map (fun o => Instr.barWait o)) = _
  exact congrArg (Option.map _) hd
theorem barSync (o : BitVec 7) : Statement (.barSync o) := by
  intro _ c
  have hlt := encBarArrive_lt 0 o (by decide)
  show decodeInstr (wordOf c 0x2C (4194304 + Fmt.encBarArrive 0 o)) = _
  rw [at_2C c _ (by omega)]
  rw [show (4194304 + Fmt.encBarArrive 0 o) / 2097152 % 16 = 2 by omega]
  have hd := decBarArrive_enc 0 2 o (by decide)
  show ((Fmt.decBarArrive 0 (4194304 + Fmt.encBarArrive 0 o)).map (fun o => Instr.barSync o)) = _
  exact congrArg (Option.map _) hd
theorem barAlloc (d : BitVec 7) (n : BitVec 6) : Statement (.barAlloc d n) := by
  intro _ c
  have hlt := encBarAlloc_lt d n
  show decodeInstr (wordOf c 0x2C (6291456 + Fmt.encBarAlloc d n)) = _
  rw [at_2C c _ (by omega)]
  rw [show (6291456 + Fmt.encBarAlloc d n) / 2097152 % 16 = 3 by omega]
  have hd := decBarAlloc_enc 3 d n
  show ((Fmt.decBarAlloc (6291456 + Fmt.encBarAlloc d n)).map (fun (d, n) => Instr.barAlloc d n)) = _
  exact congrArg (Option.map _) hd
theorem barFree (o : BitVec 7) : Statement (.barFree o) := by
  intro _ c
  have hlt := encBarArrive_lt 0 o (by decide)
  show decodeInstr (wordOf c 0x2C (8388608 + Fmt.encBarArrive 0 o)) = _
  rw [at_2C c _ (by omega)]
  rw [show (8388608 + Fmt.encBarArrive 0 o) / 2097152 % 16 = 4 by omega]
  have hd := decBarArrive_enc 0 4 o (by decide)
  show ((Fmt.decBarArrive 0 (8388608 + Fmt.encBarArrive 0 o)).map (fun o => Instr.barFree o)) = _
  exact congrArg (Option.map _) hd
theorem cbarArrive (n : BitVec 2) : Statement (.cbarArrive n) := by
  intro _ c
  have hlt := encImm2_lt n
  show decodeInstr (wordOf c 0x2C (10485760 + Fmt.encImm2 n)) = _
  rw [at_2C c _ (by omega)]
  rw [show (10485760 + Fmt.encImm2 n) / 2097152 % 16 = 5 by omega]
  have hd := decImm2_enc 5 n
  show ((Fmt.decImm2 (10485760 + Fmt.encImm2 n)).map (fun n => Instr.cbarArrive n)) = _
  exact congrArg (Option.map _) hd
theorem cbarWait (n : BitVec 2) : Statement (.cbarWait n) := by
  intro _ c
  have hlt := encImm2_lt n
  show decodeInstr (wordOf c 0x2C (12582912 + Fmt.encImm2 n)) = _
  rw [at_2C c _ (by omega)]
  rw [show (12582912 + Fmt.encImm2 n) / 2097152 % 16 = 6 by omega]
  have hd := decImm2_enc 6 n
  show ((Fmt.decImm2 (12582912 + Fmt.encImm2 n)).map (fun n => Instr.cbarWait n)) = _
  exact congrArg (Option.map _) hd
theorem cbarSync (n : BitVec 2) : Statement (.cbarSync n) := by
  intro _ c
  have hlt := encImm2_lt n
  show decodeInstr (wordOf c 0x2C (14680064 + Fmt.encImm2 n)) = _
  rw [at_2C c _ (by omega)]
  rw [show (14680064 + Fmt.encImm2 n) / 2097152 % 16 = 7 by omega]
  have hd := decImm2_enc 7 n
  show ((Fmt.decImm2 (14680064 + Fmt.encImm2 n)).map (fun n => Instr.cbarSync n)) = _
  exact congrArg (Option.map _) hd
theorem gbarSync : Statement (.gbarSync) := by
  intro _ c
  have hlt := encFix_lt 0 (by decide)
  show decodeInstr (wordOf c 0x2C (16777216 + Fmt.encFix 0)) = _
  rw [at_2C c _ (by omega)]
  rw [show (16777216 + Fmt.encFix 0) / 2097152 % 16 = 8 by omega]
  have hd := decFix_enc 0 8 (by decide)
  show ((Fmt.decFix 0 (16777216 + Fmt.encFix 0)).map (fun _ => Instr.gbarSync)) = _
  exact congrArg (Option.map _) hd
theorem spawn (d : BitVec 7) (i : BitVec 14) : Statement (.spawn d i) := by
  intro _ c
  have hlt := encSpawn_lt d i
  show decodeInstr (wordOf c 0x2D (Fmt.encSpawn d i)) = _
  rw [at_2D c _ (by omega)]
  rw [show (Fmt.encSpawn d i) / 2097152 % 16 = 0 by omega]
  have hd := decSpawn_enc 0 d i
  rw [Nat.zero_mul, Nat.zero_add] at hd
  show ((Fmt.decSpawn (Fmt.encSpawn d i)).map (fun (d, i) => Instr.spawn d i)) = _
  exact congrArg (Option.map _) hd
theorem fetchw (o : BitVec 7) : Statement (.fetchw o) := by
  intro _ c
  have hlt := encBarArrive_lt 0 o (by decide)
  show decodeInstr (wordOf c 0x2D (2097152 + Fmt.encBarArrive 0 o)) = _
  rw [at_2D c _ (by omega)]
  rw [show (2097152 + Fmt.encBarArrive 0 o) / 2097152 % 16 = 1 by omega]
  have hd := decBarArrive_enc 0 1 o (by decide)
  show ((Fmt.decBarArrive 0 (2097152 + Fmt.encBarArrive 0 o)).map (fun o => Instr.fetchw o)) = _
  exact congrArg (Option.map _) hd
theorem regacq : Statement (.regacq) := by
  intro _ c
  have hlt := encFix_lt 0 (by decide)
  show decodeInstr (wordOf c 0x2D (4194304 + Fmt.encFix 0)) = _
  rw [at_2D c _ (by omega)]
  rw [show (4194304 + Fmt.encFix 0) / 2097152 % 16 = 2 by omega]
  have hd := decFix_enc 0 2 (by decide)
  show ((Fmt.decFix 0 (4194304 + Fmt.encFix 0)).map (fun _ => Instr.regacq)) = _
  exact congrArg (Option.map _) hd
theorem regrel : Statement (.regrel) := by
  intro _ c
  have hlt := encFix_lt 0 (by decide)
  show decodeInstr (wordOf c 0x2D (6291456 + Fmt.encFix 0)) = _
  rw [at_2D c _ (by omega)]
  rw [show (6291456 + Fmt.encFix 0) / 2097152 % 16 = 3 by omega]
  have hd := decFix_enc 0 3 (by decide)
  show ((Fmt.decFix 0 (6291456 + Fmt.encFix 0)).map (fun _ => Instr.regrel)) = _
  exact congrArg (Option.map _) hd
theorem regroup (o : BitVec 7) : Statement (.regroup o) := by
  intro _ c
  have hlt := encBarArrive_lt 0 o (by decide)
  show decodeInstr (wordOf c 0x2D (8388608 + Fmt.encBarArrive 0 o)) = _
  rw [at_2D c _ (by omega)]
  rw [show (8388608 + Fmt.encBarArrive 0 o) / 2097152 % 16 = 4 by omega]
  have hd := decBarArrive_enc 0 4 o (by decide)
  show ((Fmt.decBarArrive 0 (8388608 + Fmt.encBarArrive 0 o)).map (fun o => Instr.regroup o)) = _
  exact congrArg (Option.map _) hd
theorem launch (p : BitVec 7) (n : BitVec 2) : Statement (.launch p n) := by
  intro _ c
  have hlt := encLaunch_lt p n
  show decodeInstr (wordOf c 0x2D (10485760 + Fmt.encLaunch p n)) = _
  rw [at_2D c _ (by omega)]
  rw [show (10485760 + Fmt.encLaunch p n) / 2097152 % 16 = 5 by omega]
  have hd := decLaunch_enc 5 p n
  show ((Fmt.decLaunch (10485760 + Fmt.encLaunch p n)).map (fun (p, n) => Instr.launch p n)) = _
  exact congrArg (Option.map _) hd
theorem preok : Statement (.preok) := by
  intro _ c
  have hlt := encFix_lt 0 (by decide)
  show decodeInstr (wordOf c 0x2D (12582912 + Fmt.encFix 0)) = _
  rw [at_2D c _ (by omega)]
  rw [show (12582912 + Fmt.encFix 0) / 2097152 % 16 = 6 by omega]
  have hd := decFix_enc 0 6 (by decide)
  show ((Fmt.decFix 0 (12582912 + Fmt.encFix 0)).map (fun _ => Instr.preok)) = _
  exact congrArg (Option.map _) hd
theorem srd (d : BitVec 7) (a : BitVec 7) : Statement (.srd d a) := by
  intro _ c
  have hlt := encRr_lt d a
  show decodeInstr (wordOf c 0x2E (Fmt.encRr d a)) = _
  rw [at_2E c _ (by omega)]
  rw [show (Fmt.encRr d a) / 2097152 % 16 = 0 by omega]
  have hd := decRr_enc 0 d a
  rw [Nat.zero_mul, Nat.zero_add] at hd
  show ((Fmt.decRr (Fmt.encRr d a)).map (fun (d, a) => Instr.srd d a)) = _
  exact congrArg (Option.map _) hd
theorem swr (a : BitVec 7) (b : BitVec 7) : Statement (.swr a b) := by
  intro _ c
  have hlt := encAb_lt a b
  show decodeInstr (wordOf c 0x2E (2097152 + Fmt.encAb a b)) = _
  rw [at_2E c _ (by omega)]
  rw [show (2097152 + Fmt.encAb a b) / 2097152 % 16 = 1 by omega]
  have hd := decAb_enc 1 a b
  show ((Fmt.decAb (2097152 + Fmt.encAb a b)).map (fun (a, b) => Instr.swr a b)) = _
  exact congrArg (Option.map _) hd
theorem copyG2s (t : BitVec 5) (p : BitVec 5) (s : BitVec 2) (q : BitVec 1) (r : BitVec 1) : Statement (.copyG2s t p s q r) := by
  intro _ c
  have hlt := encEng_lt 0 t p s q r (by decide)
  show decodeInstr (wordOf c 0x30 (Fmt.encEng 0 t p s q r)) = _
  rw [at_30 c _ (by omega)]
  rw [show (Fmt.encEng 0 t p s q r) / 2097152 % 16 = 0 by omega]
  have hd := decEng_enc 0 0 t p s q r (by decide)
  rw [Nat.zero_mul, Nat.zero_add] at hd
  show ((Fmt.decEng 0 (Fmt.encEng 0 t p s q r)).map (fun (t, p, s, q, r) => Instr.copyG2s t p s q r)) = _
  exact congrArg (Option.map _) hd
theorem copyS2g (t : BitVec 5) (p : BitVec 5) (s : BitVec 2) (q : BitVec 1) (r : BitVec 1) : Statement (.copyS2g t p s q r) := by
  intro _ c
  have hlt := encEng_lt 0 t p s q r (by decide)
  show decodeInstr (wordOf c 0x30 (2097152 + Fmt.encEng 0 t p s q r)) = _
  rw [at_30 c _ (by omega)]
  rw [show (2097152 + Fmt.encEng 0 t p s q r) / 2097152 % 16 = 1 by omega]
  have hd := decEng_enc 0 1 t p s q r (by decide)
  show ((Fmt.decEng 0 (2097152 + Fmt.encEng 0 t p s q r)).map (fun (t, p, s, q, r) => Instr.copyS2g t p s q r)) = _
  exact congrArg (Option.map _) hd
theorem copyG2o (t : BitVec 5) (p : BitVec 5) (s : BitVec 2) (q : BitVec 1) (r : BitVec 1) : Statement (.copyG2o t p s q r) := by
  intro _ c
  have hlt := encEng_lt 0 t p s q r (by decide)
  show decodeInstr (wordOf c 0x30 (4194304 + Fmt.encEng 0 t p s q r)) = _
  rw [at_30 c _ (by omega)]
  rw [show (4194304 + Fmt.encEng 0 t p s q r) / 2097152 % 16 = 2 by omega]
  have hd := decEng_enc 0 2 t p s q r (by decide)
  show ((Fmt.decEng 0 (4194304 + Fmt.encEng 0 t p s q r)).map (fun (t, p, s, q, r) => Instr.copyG2o t p s q r)) = _
  exact congrArg (Option.map _) hd
theorem copyS2o (t : BitVec 5) (p : BitVec 5) (s : BitVec 2) (q : BitVec 1) (r : BitVec 1) : Statement (.copyS2o t p s q r) := by
  intro _ c
  have hlt := encEng_lt 0 t p s q r (by decide)
  show decodeInstr (wordOf c 0x30 (6291456 + Fmt.encEng 0 t p s q r)) = _
  rw [at_30 c _ (by omega)]
  rw [show (6291456 + Fmt.encEng 0 t p s q r) / 2097152 % 16 = 3 by omega]
  have hd := decEng_enc 0 3 t p s q r (by decide)
  show ((Fmt.decEng 0 (6291456 + Fmt.encEng 0 t p s q r)).map (fun (t, p, s, q, r) => Instr.copyS2o t p s q r)) = _
  exact congrArg (Option.map _) hd
theorem copyG2g (t : BitVec 5) (p : BitVec 5) (s : BitVec 2) (q : BitVec 1) (r : BitVec 1) : Statement (.copyG2g t p s q r) := by
  intro _ c
  have hlt := encEng_lt 0 t p s q r (by decide)
  show decodeInstr (wordOf c 0x30 (8388608 + Fmt.encEng 0 t p s q r)) = _
  rw [at_30 c _ (by omega)]
  rw [show (8388608 + Fmt.encEng 0 t p s q r) / 2097152 % 16 = 4 by omega]
  have hd := decEng_enc 0 4 t p s q r (by decide)
  show ((Fmt.decEng 0 (8388608 + Fmt.encEng 0 t p s q r)).map (fun (t, p, s, q, r) => Instr.copyG2g t p s q r)) = _
  exact congrArg (Option.map _) hd
theorem copyFill (t : BitVec 5) (p : BitVec 5) (s : BitVec 2) (q : BitVec 1) (r : BitVec 1) : Statement (.copyFill t p s q r) := by
  intro _ c
  have hlt := encEng_lt 0 t p s q r (by decide)
  show decodeInstr (wordOf c 0x30 (10485760 + Fmt.encEng 0 t p s q r)) = _
  rw [at_30 c _ (by omega)]
  rw [show (10485760 + Fmt.encEng 0 t p s q r) / 2097152 % 16 = 5 by omega]
  have hd := decEng_enc 0 5 t p s q r (by decide)
  show ((Fmt.decEng 0 (10485760 + Fmt.encEng 0 t p s q r)).map (fun (t, p, s, q, r) => Instr.copyFill t p s q r)) = _
  exact congrArg (Option.map _) hd
theorem tmma (t : BitVec 5) (a : BitVec 3) (o : BitVec 6) (b : BitVec 6) (z : BitVec 1) : Statement (.tmma t a o b z) := by
  intro _ c
  have hlt := encTmma_lt t a o b z
  show decodeInstr (wordOf c 0x32 (Fmt.encTmma t a o b z)) = _
  rw [at_32 c _ (by omega)]
  rw [show (Fmt.encTmma t a o b z) / 2097152 % 16 = 0 by omega]
  have hd := decTmma_enc 0 t a o b z
  rw [Nat.zero_mul, Nat.zero_add] at hd
  show ((Fmt.decTmma (Fmt.encTmma t a o b z)).map (fun (t, a, o, b, z) => Instr.tmma t a o b z)) = _
  exact congrArg (Option.map _) hd
theorem tmms (t : BitVec 5) (a : BitVec 3) (o : BitVec 6) (b : BitVec 6) (z : BitVec 1) : Statement (.tmms t a o b z) := by
  intro _ c
  have hlt := encTmma_lt t a o b z
  show decodeInstr (wordOf c 0x32 (2097152 + Fmt.encTmma t a o b z)) = _
  rw [at_32 c _ (by omega)]
  rw [show (2097152 + Fmt.encTmma t a o b z) / 2097152 % 16 = 1 by omega]
  have hd := decTmma_enc 1 t a o b z
  show ((Fmt.decTmma (2097152 + Fmt.encTmma t a o b z)).map (fun (t, a, o, b, z) => Instr.tmms t a o b z)) = _
  exact congrArg (Option.map _) hd
theorem tzero (t : BitVec 5) (a : BitVec 3) : Statement (.tzero t a) := by
  intro _ c
  have hlt := encTAcc_lt 0 t a (by decide)
  show decodeInstr (wordOf c 0x32 (4194304 + Fmt.encTAcc 0 t a)) = _
  rw [at_32 c _ (by omega)]
  rw [show (4194304 + Fmt.encTAcc 0 t a) / 2097152 % 16 = 2 by omega]
  have hd := decTAcc_enc 0 2 t a (by decide)
  show ((Fmt.decTAcc 0 (4194304 + Fmt.encTAcc 0 t a)).map (fun (t, a) => Instr.tzero t a)) = _
  exact congrArg (Option.map _) hd
theorem tld (t : BitVec 5) (a : BitVec 3) (p : BitVec 5) (v : BitVec 2) : Statement (.tld t a p v) := by
  intro h c
  have hlt := encTMove_lt t a p v
  show decodeInstr (wordOf c 0x32 (6291456 + Fmt.encTMove t a p v)) = _
  rw [at_32 c _ (by omega)]
  rw [show (6291456 + Fmt.encTMove t a p v) / 2097152 % 16 = 3 by omega]
  have hd := decTMove_enc 3 t a p v
  show ((Fmt.decTMove (6291456 + Fmt.encTMove t a p v)).bind fun (t, a, p, v) => if v ≠ 3 then some (Instr.tld t a p v) else none) = _
  rw [show Fmt.decTMove (6291456 + Fmt.encTMove t a p v) = _ from hd]
  exact if_pos (by simpa [Instr.wellFormed, Instr.isWord, Instr.fieldsOk, and_assoc] using h)
theorem tst (t : BitVec 5) (a : BitVec 3) (p : BitVec 5) (v : BitVec 2) : Statement (.tst t a p v) := by
  intro h c
  have hlt := encTMove_lt t a p v
  show decodeInstr (wordOf c 0x32 (8388608 + Fmt.encTMove t a p v)) = _
  rw [at_32 c _ (by omega)]
  rw [show (8388608 + Fmt.encTMove t a p v) / 2097152 % 16 = 4 by omega]
  have hd := decTMove_enc 4 t a p v
  show ((Fmt.decTMove (8388608 + Fmt.encTMove t a p v)).bind fun (t, a, p, v) => if v ≠ 3 then some (Instr.tst t a p v) else none) = _
  rw [show Fmt.decTMove (8388608 + Fmt.encTMove t a p v) = _ from hd]
  exact if_pos (by simpa [Instr.wellFormed, Instr.isWord, Instr.fieldsOk, and_assoc] using h)
theorem tclaim (t : BitVec 5) (d : BitVec 5) (n : BitVec 6) : Statement (.tclaim t d n) := by
  intro _ c
  have hlt := encTclaim_lt 0 t d n (by decide)
  show decodeInstr (wordOf c 0x32 (10485760 + Fmt.encTclaim 0 t d n)) = _
  rw [at_32 c _ (by omega)]
  rw [show (10485760 + Fmt.encTclaim 0 t d n) / 2097152 % 16 = 5 by omega]
  have hd := decTclaim_enc 0 5 t d n (by decide)
  show ((Fmt.decTclaim 0 (10485760 + Fmt.encTclaim 0 t d n)).map (fun (t, d, n) => Instr.tclaim t d n) <|> (Fmt.decTclaim 1 (10485760 + Fmt.encTclaim 0 t d n)).map (fun (t, d, n) => Instr.tclaimAcc t d n)) = _
  rw [show Fmt.decTclaim 0 (10485760 + Fmt.encTclaim 0 t d n) = _ from hd]
  rfl
theorem tclaimAcc (t : BitVec 5) (d : BitVec 5) (n : BitVec 6) : Statement (.tclaimAcc t d n) := by
  intro _ c
  have hlt := encTclaim_lt 1 t d n (by decide)
  show decodeInstr (wordOf c 0x32 (10485760 + Fmt.encTclaim 1 t d n)) = _
  rw [at_32 c _ (by omega)]
  rw [show (10485760 + Fmt.encTclaim 1 t d n) / 2097152 % 16 = 5 by omega]
  have n0 : Fmt.decTclaim 0 (10485760 + Fmt.encTclaim 1 t d n) = none := by
    unfold Fmt.decTclaim Fmt.encTclaim; have := t.isLt; have := d.isLt; have := n.isLt; exact if_neg (by omega)
  have hd := decTclaim_enc 1 5 t d n (by decide)
  show ((Fmt.decTclaim 0 (10485760 + Fmt.encTclaim 1 t d n)).map (fun (t, d, n) => Instr.tclaim t d n) <|> (Fmt.decTclaim 1 (10485760 + Fmt.encTclaim 1 t d n)).map (fun (t, d, n) => Instr.tclaimAcc t d n)) = _
  rw [show Fmt.decTclaim 1 (10485760 + Fmt.encTclaim 1 t d n) = _ from hd]
  rw [n0]
  rfl
theorem trelSlot (t : BitVec 5) (o : BitVec 6) : Statement (.trelSlot t o) := by
  intro _ c
  have hlt := encTrelSlot_lt t o
  show decodeInstr (wordOf c 0x32 (12582912 + Fmt.encTrelSlot t o)) = _
  rw [at_32 c _ (by omega)]
  rw [show (12582912 + Fmt.encTrelSlot t o) / 2097152 % 16 = 6 by omega]
  have hd := decTrelSlot_enc 6 t o
  show ((Fmt.decTrelSlot (12582912 + Fmt.encTrelSlot t o)).map (fun (t, o) => Instr.trelSlot t o) <|> (Fmt.decTAcc 64 (12582912 + Fmt.encTrelSlot t o)).map (fun (t, a) => Instr.trelAcc t a)) = _
  rw [show Fmt.decTrelSlot (12582912 + Fmt.encTrelSlot t o) = _ from hd]
  rfl
theorem trelAcc (t : BitVec 5) (a : BitVec 3) : Statement (.trelAcc t a) := by
  intro _ c
  have hlt := encTAcc_lt 64 t a (by decide)
  show decodeInstr (wordOf c 0x32 (12582912 + Fmt.encTAcc 64 t a)) = _
  rw [at_32 c _ (by omega)]
  rw [show (12582912 + Fmt.encTAcc 64 t a) / 2097152 % 16 = 6 by omega]
  have n0 : Fmt.decTrelSlot (12582912 + Fmt.encTAcc 64 t a) = none := by
    unfold Fmt.decTrelSlot Fmt.encTAcc; have := t.isLt; have := a.isLt; exact if_neg (by omega)
  have hd := decTAcc_enc 64 6 t a (by decide)
  show ((Fmt.decTrelSlot (12582912 + Fmt.encTAcc 64 t a)).map (fun (t, o) => Instr.trelSlot t o) <|> (Fmt.decTAcc 64 (12582912 + Fmt.encTAcc 64 t a)).map (fun (t, a) => Instr.trelAcc t a)) = _
  rw [show Fmt.decTAcc 64 (12582912 + Fmt.encTAcc 64 t a) = _ from hd]
  rw [n0]
  rfl
theorem tcfg (t : BitVec 5) (a : BitVec 3) (m : BitVec 2) (k : BitVec 2) : Statement (.tcfg t a m k) := by
  intro h c
  have hlt := encTcfg_lt t a m k
  show decodeInstr (wordOf c 0x32 (14680064 + Fmt.encTcfg t a m k)) = _
  rw [at_32 c _ (by omega)]
  rw [show (14680064 + Fmt.encTcfg t a m k) / 2097152 % 16 = 7 by omega]
  have hd := decTcfg_enc 7 t a m k
  show ((Fmt.decTcfg (14680064 + Fmt.encTcfg t a m k)).bind fun (t, a, m, k) => if m ≠ 3 ∧ k ≠ 3 ∧ (m = 2 ∨ k = 0) then some (Instr.tcfg t a m k) else none) = _
  rw [show Fmt.decTcfg (14680064 + Fmt.encTcfg t a m k) = _ from hd]
  exact if_pos (by simpa [Instr.wellFormed, Instr.isWord, Instr.fieldsOk, and_assoc] using h)
theorem chexp (p : BitVec 5) (d : BitVec 4) (k : BitVec 3) (e : BitVec 2) : Statement (.chexp p d k e) := by
  intro h c
  have hlt := encChexp_lt p d k e
  show decodeInstr (wordOf c 0x36 (Fmt.encChexp p d k e)) = _
  rw [at_36 c _ (by omega)]
  rw [show (Fmt.encChexp p d k e) / 2097152 % 16 = 0 by omega]
  have hd := decChexp_enc 0 p d k e
  rw [Nat.zero_mul, Nat.zero_add] at hd
  show ((Fmt.decChexp (Fmt.encChexp p d k e)).bind fun (p, d, k, e) => if k.toNat ≤ 2 ∧ e ≠ 3 then some (Instr.chexp p d k e) else none) = _
  rw [show Fmt.decChexp (Fmt.encChexp p d k e) = _ from hd]
  exact if_pos (by simpa [Instr.wellFormed, Instr.isWord, Instr.fieldsOk, and_assoc] using h)
theorem chopAdd (d : BitVec 4) (a : BitVec 4) (b : BitVec 4) : Statement (.chopAdd d a b) := by
  intro _ c
  have hlt := encChop3_lt 0 d a b (by decide)
  show decodeInstr (wordOf c 0x36 (2097152 + Fmt.encChop3 0 d a b)) = _
  rw [at_36 c _ (by omega)]
  rw [show (2097152 + Fmt.encChop3 0 d a b) / 2097152 % 16 = 1 by omega]
  have hd := decChop3_enc 0 1 d a b (by decide)
  show ((Fmt.decChop3 0 (2097152 + Fmt.encChop3 0 d a b)).map (fun (d, a, b) => Instr.chopAdd d a b) <|> (Fmt.decChop3 1 (2097152 + Fmt.encChop3 0 d a b)).map (fun (d, a, b) => Instr.chopSub d a b) <|> (Fmt.decChop3 2 (2097152 + Fmt.encChop3 0 d a b)).map (fun (d, a, b) => Instr.chopMul d a b) <|> (Fmt.decChop3 3 (2097152 + Fmt.encChop3 0 d a b)).map (fun (d, a, b) => Instr.chopFma d a b) <|> (Fmt.decChop3 4 (2097152 + Fmt.encChop3 0 d a b)).map (fun (d, a, b) => Instr.chopMin d a b) <|> (Fmt.decChop3 5 (2097152 + Fmt.encChop3 0 d a b)).map (fun (d, a, b) => Instr.chopMax d a b) <|> (Fmt.decChop2 6 (2097152 + Fmt.encChop3 0 d a b)).map (fun (d, a) => Instr.chopExp2 d a) <|> (Fmt.decChop2 7 (2097152 + Fmt.encChop3 0 d a b)).map (fun (d, a) => Instr.chopRcp d a) <|> (Fmt.decChop2 8 (2097152 + Fmt.encChop3 0 d a b)).map (fun (d, a) => Instr.chopMov d a) <|> (Fmt.decChop3 9 (2097152 + Fmt.encChop3 0 d a b)).map (fun (d, a, b) => Instr.chopSel d a b) <|> (Fmt.decChopRel 10 (2097152 + Fmt.encChop3 0 d a b)).map (fun (a, b) => Instr.chopLt a b) <|> (Fmt.decChopRel 11 (2097152 + Fmt.encChop3 0 d a b)).map (fun (a, b) => Instr.chopLe a b) <|> (Fmt.decChopRel 12 (2097152 + Fmt.encChop3 0 d a b)).map (fun (a, b) => Instr.chopEq a b) <|> (Fmt.decChopRel 13 (2097152 + Fmt.encChop3 0 d a b)).map (fun (a, b) => Instr.chopNe a b)) = _
  rw [show Fmt.decChop3 0 (2097152 + Fmt.encChop3 0 d a b) = _ from hd]
  rfl
theorem chopSub (d : BitVec 4) (a : BitVec 4) (b : BitVec 4) : Statement (.chopSub d a b) := by
  intro _ c
  have hlt := encChop3_lt 1 d a b (by decide)
  show decodeInstr (wordOf c 0x36 (2097152 + Fmt.encChop3 1 d a b)) = _
  rw [at_36 c _ (by omega)]
  rw [show (2097152 + Fmt.encChop3 1 d a b) / 2097152 % 16 = 1 by omega]
  have n0 : Fmt.decChop3 0 (2097152 + Fmt.encChop3 1 d a b) = none := by
    unfold Fmt.decChop3 Fmt.encChop3; have := d.isLt; have := a.isLt; have := b.isLt; exact if_neg (by omega)
  have hd := decChop3_enc 1 1 d a b (by decide)
  show ((Fmt.decChop3 0 (2097152 + Fmt.encChop3 1 d a b)).map (fun (d, a, b) => Instr.chopAdd d a b) <|> (Fmt.decChop3 1 (2097152 + Fmt.encChop3 1 d a b)).map (fun (d, a, b) => Instr.chopSub d a b) <|> (Fmt.decChop3 2 (2097152 + Fmt.encChop3 1 d a b)).map (fun (d, a, b) => Instr.chopMul d a b) <|> (Fmt.decChop3 3 (2097152 + Fmt.encChop3 1 d a b)).map (fun (d, a, b) => Instr.chopFma d a b) <|> (Fmt.decChop3 4 (2097152 + Fmt.encChop3 1 d a b)).map (fun (d, a, b) => Instr.chopMin d a b) <|> (Fmt.decChop3 5 (2097152 + Fmt.encChop3 1 d a b)).map (fun (d, a, b) => Instr.chopMax d a b) <|> (Fmt.decChop2 6 (2097152 + Fmt.encChop3 1 d a b)).map (fun (d, a) => Instr.chopExp2 d a) <|> (Fmt.decChop2 7 (2097152 + Fmt.encChop3 1 d a b)).map (fun (d, a) => Instr.chopRcp d a) <|> (Fmt.decChop2 8 (2097152 + Fmt.encChop3 1 d a b)).map (fun (d, a) => Instr.chopMov d a) <|> (Fmt.decChop3 9 (2097152 + Fmt.encChop3 1 d a b)).map (fun (d, a, b) => Instr.chopSel d a b) <|> (Fmt.decChopRel 10 (2097152 + Fmt.encChop3 1 d a b)).map (fun (a, b) => Instr.chopLt a b) <|> (Fmt.decChopRel 11 (2097152 + Fmt.encChop3 1 d a b)).map (fun (a, b) => Instr.chopLe a b) <|> (Fmt.decChopRel 12 (2097152 + Fmt.encChop3 1 d a b)).map (fun (a, b) => Instr.chopEq a b) <|> (Fmt.decChopRel 13 (2097152 + Fmt.encChop3 1 d a b)).map (fun (a, b) => Instr.chopNe a b)) = _
  rw [show Fmt.decChop3 1 (2097152 + Fmt.encChop3 1 d a b) = _ from hd]
  rw [n0]
  rfl
theorem chopMul (d : BitVec 4) (a : BitVec 4) (b : BitVec 4) : Statement (.chopMul d a b) := by
  intro _ c
  have hlt := encChop3_lt 2 d a b (by decide)
  show decodeInstr (wordOf c 0x36 (2097152 + Fmt.encChop3 2 d a b)) = _
  rw [at_36 c _ (by omega)]
  rw [show (2097152 + Fmt.encChop3 2 d a b) / 2097152 % 16 = 1 by omega]
  have n0 : Fmt.decChop3 0 (2097152 + Fmt.encChop3 2 d a b) = none := by
    unfold Fmt.decChop3 Fmt.encChop3; have := d.isLt; have := a.isLt; have := b.isLt; exact if_neg (by omega)
  have n1 : Fmt.decChop3 1 (2097152 + Fmt.encChop3 2 d a b) = none := by
    unfold Fmt.decChop3 Fmt.encChop3; have := d.isLt; have := a.isLt; have := b.isLt; exact if_neg (by omega)
  have hd := decChop3_enc 2 1 d a b (by decide)
  show ((Fmt.decChop3 0 (2097152 + Fmt.encChop3 2 d a b)).map (fun (d, a, b) => Instr.chopAdd d a b) <|> (Fmt.decChop3 1 (2097152 + Fmt.encChop3 2 d a b)).map (fun (d, a, b) => Instr.chopSub d a b) <|> (Fmt.decChop3 2 (2097152 + Fmt.encChop3 2 d a b)).map (fun (d, a, b) => Instr.chopMul d a b) <|> (Fmt.decChop3 3 (2097152 + Fmt.encChop3 2 d a b)).map (fun (d, a, b) => Instr.chopFma d a b) <|> (Fmt.decChop3 4 (2097152 + Fmt.encChop3 2 d a b)).map (fun (d, a, b) => Instr.chopMin d a b) <|> (Fmt.decChop3 5 (2097152 + Fmt.encChop3 2 d a b)).map (fun (d, a, b) => Instr.chopMax d a b) <|> (Fmt.decChop2 6 (2097152 + Fmt.encChop3 2 d a b)).map (fun (d, a) => Instr.chopExp2 d a) <|> (Fmt.decChop2 7 (2097152 + Fmt.encChop3 2 d a b)).map (fun (d, a) => Instr.chopRcp d a) <|> (Fmt.decChop2 8 (2097152 + Fmt.encChop3 2 d a b)).map (fun (d, a) => Instr.chopMov d a) <|> (Fmt.decChop3 9 (2097152 + Fmt.encChop3 2 d a b)).map (fun (d, a, b) => Instr.chopSel d a b) <|> (Fmt.decChopRel 10 (2097152 + Fmt.encChop3 2 d a b)).map (fun (a, b) => Instr.chopLt a b) <|> (Fmt.decChopRel 11 (2097152 + Fmt.encChop3 2 d a b)).map (fun (a, b) => Instr.chopLe a b) <|> (Fmt.decChopRel 12 (2097152 + Fmt.encChop3 2 d a b)).map (fun (a, b) => Instr.chopEq a b) <|> (Fmt.decChopRel 13 (2097152 + Fmt.encChop3 2 d a b)).map (fun (a, b) => Instr.chopNe a b)) = _
  rw [show Fmt.decChop3 2 (2097152 + Fmt.encChop3 2 d a b) = _ from hd]
  rw [n0, n1]
  rfl
theorem chopFma (d : BitVec 4) (a : BitVec 4) (b : BitVec 4) : Statement (.chopFma d a b) := by
  intro _ c
  have hlt := encChop3_lt 3 d a b (by decide)
  show decodeInstr (wordOf c 0x36 (2097152 + Fmt.encChop3 3 d a b)) = _
  rw [at_36 c _ (by omega)]
  rw [show (2097152 + Fmt.encChop3 3 d a b) / 2097152 % 16 = 1 by omega]
  have n0 : Fmt.decChop3 0 (2097152 + Fmt.encChop3 3 d a b) = none := by
    unfold Fmt.decChop3 Fmt.encChop3; have := d.isLt; have := a.isLt; have := b.isLt; exact if_neg (by omega)
  have n1 : Fmt.decChop3 1 (2097152 + Fmt.encChop3 3 d a b) = none := by
    unfold Fmt.decChop3 Fmt.encChop3; have := d.isLt; have := a.isLt; have := b.isLt; exact if_neg (by omega)
  have n2 : Fmt.decChop3 2 (2097152 + Fmt.encChop3 3 d a b) = none := by
    unfold Fmt.decChop3 Fmt.encChop3; have := d.isLt; have := a.isLt; have := b.isLt; exact if_neg (by omega)
  have hd := decChop3_enc 3 1 d a b (by decide)
  show ((Fmt.decChop3 0 (2097152 + Fmt.encChop3 3 d a b)).map (fun (d, a, b) => Instr.chopAdd d a b) <|> (Fmt.decChop3 1 (2097152 + Fmt.encChop3 3 d a b)).map (fun (d, a, b) => Instr.chopSub d a b) <|> (Fmt.decChop3 2 (2097152 + Fmt.encChop3 3 d a b)).map (fun (d, a, b) => Instr.chopMul d a b) <|> (Fmt.decChop3 3 (2097152 + Fmt.encChop3 3 d a b)).map (fun (d, a, b) => Instr.chopFma d a b) <|> (Fmt.decChop3 4 (2097152 + Fmt.encChop3 3 d a b)).map (fun (d, a, b) => Instr.chopMin d a b) <|> (Fmt.decChop3 5 (2097152 + Fmt.encChop3 3 d a b)).map (fun (d, a, b) => Instr.chopMax d a b) <|> (Fmt.decChop2 6 (2097152 + Fmt.encChop3 3 d a b)).map (fun (d, a) => Instr.chopExp2 d a) <|> (Fmt.decChop2 7 (2097152 + Fmt.encChop3 3 d a b)).map (fun (d, a) => Instr.chopRcp d a) <|> (Fmt.decChop2 8 (2097152 + Fmt.encChop3 3 d a b)).map (fun (d, a) => Instr.chopMov d a) <|> (Fmt.decChop3 9 (2097152 + Fmt.encChop3 3 d a b)).map (fun (d, a, b) => Instr.chopSel d a b) <|> (Fmt.decChopRel 10 (2097152 + Fmt.encChop3 3 d a b)).map (fun (a, b) => Instr.chopLt a b) <|> (Fmt.decChopRel 11 (2097152 + Fmt.encChop3 3 d a b)).map (fun (a, b) => Instr.chopLe a b) <|> (Fmt.decChopRel 12 (2097152 + Fmt.encChop3 3 d a b)).map (fun (a, b) => Instr.chopEq a b) <|> (Fmt.decChopRel 13 (2097152 + Fmt.encChop3 3 d a b)).map (fun (a, b) => Instr.chopNe a b)) = _
  rw [show Fmt.decChop3 3 (2097152 + Fmt.encChop3 3 d a b) = _ from hd]
  rw [n0, n1, n2]
  rfl
theorem chopMin (d : BitVec 4) (a : BitVec 4) (b : BitVec 4) : Statement (.chopMin d a b) := by
  intro _ c
  have hlt := encChop3_lt 4 d a b (by decide)
  show decodeInstr (wordOf c 0x36 (2097152 + Fmt.encChop3 4 d a b)) = _
  rw [at_36 c _ (by omega)]
  rw [show (2097152 + Fmt.encChop3 4 d a b) / 2097152 % 16 = 1 by omega]
  have n0 : Fmt.decChop3 0 (2097152 + Fmt.encChop3 4 d a b) = none := by
    unfold Fmt.decChop3 Fmt.encChop3; have := d.isLt; have := a.isLt; have := b.isLt; exact if_neg (by omega)
  have n1 : Fmt.decChop3 1 (2097152 + Fmt.encChop3 4 d a b) = none := by
    unfold Fmt.decChop3 Fmt.encChop3; have := d.isLt; have := a.isLt; have := b.isLt; exact if_neg (by omega)
  have n2 : Fmt.decChop3 2 (2097152 + Fmt.encChop3 4 d a b) = none := by
    unfold Fmt.decChop3 Fmt.encChop3; have := d.isLt; have := a.isLt; have := b.isLt; exact if_neg (by omega)
  have n3 : Fmt.decChop3 3 (2097152 + Fmt.encChop3 4 d a b) = none := by
    unfold Fmt.decChop3 Fmt.encChop3; have := d.isLt; have := a.isLt; have := b.isLt; exact if_neg (by omega)
  have hd := decChop3_enc 4 1 d a b (by decide)
  show ((Fmt.decChop3 0 (2097152 + Fmt.encChop3 4 d a b)).map (fun (d, a, b) => Instr.chopAdd d a b) <|> (Fmt.decChop3 1 (2097152 + Fmt.encChop3 4 d a b)).map (fun (d, a, b) => Instr.chopSub d a b) <|> (Fmt.decChop3 2 (2097152 + Fmt.encChop3 4 d a b)).map (fun (d, a, b) => Instr.chopMul d a b) <|> (Fmt.decChop3 3 (2097152 + Fmt.encChop3 4 d a b)).map (fun (d, a, b) => Instr.chopFma d a b) <|> (Fmt.decChop3 4 (2097152 + Fmt.encChop3 4 d a b)).map (fun (d, a, b) => Instr.chopMin d a b) <|> (Fmt.decChop3 5 (2097152 + Fmt.encChop3 4 d a b)).map (fun (d, a, b) => Instr.chopMax d a b) <|> (Fmt.decChop2 6 (2097152 + Fmt.encChop3 4 d a b)).map (fun (d, a) => Instr.chopExp2 d a) <|> (Fmt.decChop2 7 (2097152 + Fmt.encChop3 4 d a b)).map (fun (d, a) => Instr.chopRcp d a) <|> (Fmt.decChop2 8 (2097152 + Fmt.encChop3 4 d a b)).map (fun (d, a) => Instr.chopMov d a) <|> (Fmt.decChop3 9 (2097152 + Fmt.encChop3 4 d a b)).map (fun (d, a, b) => Instr.chopSel d a b) <|> (Fmt.decChopRel 10 (2097152 + Fmt.encChop3 4 d a b)).map (fun (a, b) => Instr.chopLt a b) <|> (Fmt.decChopRel 11 (2097152 + Fmt.encChop3 4 d a b)).map (fun (a, b) => Instr.chopLe a b) <|> (Fmt.decChopRel 12 (2097152 + Fmt.encChop3 4 d a b)).map (fun (a, b) => Instr.chopEq a b) <|> (Fmt.decChopRel 13 (2097152 + Fmt.encChop3 4 d a b)).map (fun (a, b) => Instr.chopNe a b)) = _
  rw [show Fmt.decChop3 4 (2097152 + Fmt.encChop3 4 d a b) = _ from hd]
  rw [n0, n1, n2, n3]
  rfl
theorem chopMax (d : BitVec 4) (a : BitVec 4) (b : BitVec 4) : Statement (.chopMax d a b) := by
  intro _ c
  have hlt := encChop3_lt 5 d a b (by decide)
  show decodeInstr (wordOf c 0x36 (2097152 + Fmt.encChop3 5 d a b)) = _
  rw [at_36 c _ (by omega)]
  rw [show (2097152 + Fmt.encChop3 5 d a b) / 2097152 % 16 = 1 by omega]
  have n0 : Fmt.decChop3 0 (2097152 + Fmt.encChop3 5 d a b) = none := by
    unfold Fmt.decChop3 Fmt.encChop3; have := d.isLt; have := a.isLt; have := b.isLt; exact if_neg (by omega)
  have n1 : Fmt.decChop3 1 (2097152 + Fmt.encChop3 5 d a b) = none := by
    unfold Fmt.decChop3 Fmt.encChop3; have := d.isLt; have := a.isLt; have := b.isLt; exact if_neg (by omega)
  have n2 : Fmt.decChop3 2 (2097152 + Fmt.encChop3 5 d a b) = none := by
    unfold Fmt.decChop3 Fmt.encChop3; have := d.isLt; have := a.isLt; have := b.isLt; exact if_neg (by omega)
  have n3 : Fmt.decChop3 3 (2097152 + Fmt.encChop3 5 d a b) = none := by
    unfold Fmt.decChop3 Fmt.encChop3; have := d.isLt; have := a.isLt; have := b.isLt; exact if_neg (by omega)
  have n4 : Fmt.decChop3 4 (2097152 + Fmt.encChop3 5 d a b) = none := by
    unfold Fmt.decChop3 Fmt.encChop3; have := d.isLt; have := a.isLt; have := b.isLt; exact if_neg (by omega)
  have hd := decChop3_enc 5 1 d a b (by decide)
  show ((Fmt.decChop3 0 (2097152 + Fmt.encChop3 5 d a b)).map (fun (d, a, b) => Instr.chopAdd d a b) <|> (Fmt.decChop3 1 (2097152 + Fmt.encChop3 5 d a b)).map (fun (d, a, b) => Instr.chopSub d a b) <|> (Fmt.decChop3 2 (2097152 + Fmt.encChop3 5 d a b)).map (fun (d, a, b) => Instr.chopMul d a b) <|> (Fmt.decChop3 3 (2097152 + Fmt.encChop3 5 d a b)).map (fun (d, a, b) => Instr.chopFma d a b) <|> (Fmt.decChop3 4 (2097152 + Fmt.encChop3 5 d a b)).map (fun (d, a, b) => Instr.chopMin d a b) <|> (Fmt.decChop3 5 (2097152 + Fmt.encChop3 5 d a b)).map (fun (d, a, b) => Instr.chopMax d a b) <|> (Fmt.decChop2 6 (2097152 + Fmt.encChop3 5 d a b)).map (fun (d, a) => Instr.chopExp2 d a) <|> (Fmt.decChop2 7 (2097152 + Fmt.encChop3 5 d a b)).map (fun (d, a) => Instr.chopRcp d a) <|> (Fmt.decChop2 8 (2097152 + Fmt.encChop3 5 d a b)).map (fun (d, a) => Instr.chopMov d a) <|> (Fmt.decChop3 9 (2097152 + Fmt.encChop3 5 d a b)).map (fun (d, a, b) => Instr.chopSel d a b) <|> (Fmt.decChopRel 10 (2097152 + Fmt.encChop3 5 d a b)).map (fun (a, b) => Instr.chopLt a b) <|> (Fmt.decChopRel 11 (2097152 + Fmt.encChop3 5 d a b)).map (fun (a, b) => Instr.chopLe a b) <|> (Fmt.decChopRel 12 (2097152 + Fmt.encChop3 5 d a b)).map (fun (a, b) => Instr.chopEq a b) <|> (Fmt.decChopRel 13 (2097152 + Fmt.encChop3 5 d a b)).map (fun (a, b) => Instr.chopNe a b)) = _
  rw [show Fmt.decChop3 5 (2097152 + Fmt.encChop3 5 d a b) = _ from hd]
  rw [n0, n1, n2, n3, n4]
  rfl
theorem chopExp2 (d : BitVec 4) (a : BitVec 4) : Statement (.chopExp2 d a) := by
  intro _ c
  have hlt := encChop2_lt 6 d a (by decide)
  show decodeInstr (wordOf c 0x36 (2097152 + Fmt.encChop2 6 d a)) = _
  rw [at_36 c _ (by omega)]
  rw [show (2097152 + Fmt.encChop2 6 d a) / 2097152 % 16 = 1 by omega]
  have n0 : Fmt.decChop3 0 (2097152 + Fmt.encChop2 6 d a) = none := by
    unfold Fmt.decChop3 Fmt.encChop2; have := d.isLt; have := a.isLt; exact if_neg (by omega)
  have n1 : Fmt.decChop3 1 (2097152 + Fmt.encChop2 6 d a) = none := by
    unfold Fmt.decChop3 Fmt.encChop2; have := d.isLt; have := a.isLt; exact if_neg (by omega)
  have n2 : Fmt.decChop3 2 (2097152 + Fmt.encChop2 6 d a) = none := by
    unfold Fmt.decChop3 Fmt.encChop2; have := d.isLt; have := a.isLt; exact if_neg (by omega)
  have n3 : Fmt.decChop3 3 (2097152 + Fmt.encChop2 6 d a) = none := by
    unfold Fmt.decChop3 Fmt.encChop2; have := d.isLt; have := a.isLt; exact if_neg (by omega)
  have n4 : Fmt.decChop3 4 (2097152 + Fmt.encChop2 6 d a) = none := by
    unfold Fmt.decChop3 Fmt.encChop2; have := d.isLt; have := a.isLt; exact if_neg (by omega)
  have n5 : Fmt.decChop3 5 (2097152 + Fmt.encChop2 6 d a) = none := by
    unfold Fmt.decChop3 Fmt.encChop2; have := d.isLt; have := a.isLt; exact if_neg (by omega)
  have hd := decChop2_enc 6 1 d a (by decide)
  show ((Fmt.decChop3 0 (2097152 + Fmt.encChop2 6 d a)).map (fun (d, a, b) => Instr.chopAdd d a b) <|> (Fmt.decChop3 1 (2097152 + Fmt.encChop2 6 d a)).map (fun (d, a, b) => Instr.chopSub d a b) <|> (Fmt.decChop3 2 (2097152 + Fmt.encChop2 6 d a)).map (fun (d, a, b) => Instr.chopMul d a b) <|> (Fmt.decChop3 3 (2097152 + Fmt.encChop2 6 d a)).map (fun (d, a, b) => Instr.chopFma d a b) <|> (Fmt.decChop3 4 (2097152 + Fmt.encChop2 6 d a)).map (fun (d, a, b) => Instr.chopMin d a b) <|> (Fmt.decChop3 5 (2097152 + Fmt.encChop2 6 d a)).map (fun (d, a, b) => Instr.chopMax d a b) <|> (Fmt.decChop2 6 (2097152 + Fmt.encChop2 6 d a)).map (fun (d, a) => Instr.chopExp2 d a) <|> (Fmt.decChop2 7 (2097152 + Fmt.encChop2 6 d a)).map (fun (d, a) => Instr.chopRcp d a) <|> (Fmt.decChop2 8 (2097152 + Fmt.encChop2 6 d a)).map (fun (d, a) => Instr.chopMov d a) <|> (Fmt.decChop3 9 (2097152 + Fmt.encChop2 6 d a)).map (fun (d, a, b) => Instr.chopSel d a b) <|> (Fmt.decChopRel 10 (2097152 + Fmt.encChop2 6 d a)).map (fun (a, b) => Instr.chopLt a b) <|> (Fmt.decChopRel 11 (2097152 + Fmt.encChop2 6 d a)).map (fun (a, b) => Instr.chopLe a b) <|> (Fmt.decChopRel 12 (2097152 + Fmt.encChop2 6 d a)).map (fun (a, b) => Instr.chopEq a b) <|> (Fmt.decChopRel 13 (2097152 + Fmt.encChop2 6 d a)).map (fun (a, b) => Instr.chopNe a b)) = _
  rw [show Fmt.decChop2 6 (2097152 + Fmt.encChop2 6 d a) = _ from hd]
  rw [n0, n1, n2, n3, n4, n5]
  rfl
theorem chopRcp (d : BitVec 4) (a : BitVec 4) : Statement (.chopRcp d a) := by
  intro _ c
  have hlt := encChop2_lt 7 d a (by decide)
  show decodeInstr (wordOf c 0x36 (2097152 + Fmt.encChop2 7 d a)) = _
  rw [at_36 c _ (by omega)]
  rw [show (2097152 + Fmt.encChop2 7 d a) / 2097152 % 16 = 1 by omega]
  have n0 : Fmt.decChop3 0 (2097152 + Fmt.encChop2 7 d a) = none := by
    unfold Fmt.decChop3 Fmt.encChop2; have := d.isLt; have := a.isLt; exact if_neg (by omega)
  have n1 : Fmt.decChop3 1 (2097152 + Fmt.encChop2 7 d a) = none := by
    unfold Fmt.decChop3 Fmt.encChop2; have := d.isLt; have := a.isLt; exact if_neg (by omega)
  have n2 : Fmt.decChop3 2 (2097152 + Fmt.encChop2 7 d a) = none := by
    unfold Fmt.decChop3 Fmt.encChop2; have := d.isLt; have := a.isLt; exact if_neg (by omega)
  have n3 : Fmt.decChop3 3 (2097152 + Fmt.encChop2 7 d a) = none := by
    unfold Fmt.decChop3 Fmt.encChop2; have := d.isLt; have := a.isLt; exact if_neg (by omega)
  have n4 : Fmt.decChop3 4 (2097152 + Fmt.encChop2 7 d a) = none := by
    unfold Fmt.decChop3 Fmt.encChop2; have := d.isLt; have := a.isLt; exact if_neg (by omega)
  have n5 : Fmt.decChop3 5 (2097152 + Fmt.encChop2 7 d a) = none := by
    unfold Fmt.decChop3 Fmt.encChop2; have := d.isLt; have := a.isLt; exact if_neg (by omega)
  have n6 : Fmt.decChop2 6 (2097152 + Fmt.encChop2 7 d a) = none := by
    unfold Fmt.decChop2 Fmt.encChop2; have := d.isLt; have := a.isLt; exact if_neg (by omega)
  have hd := decChop2_enc 7 1 d a (by decide)
  show ((Fmt.decChop3 0 (2097152 + Fmt.encChop2 7 d a)).map (fun (d, a, b) => Instr.chopAdd d a b) <|> (Fmt.decChop3 1 (2097152 + Fmt.encChop2 7 d a)).map (fun (d, a, b) => Instr.chopSub d a b) <|> (Fmt.decChop3 2 (2097152 + Fmt.encChop2 7 d a)).map (fun (d, a, b) => Instr.chopMul d a b) <|> (Fmt.decChop3 3 (2097152 + Fmt.encChop2 7 d a)).map (fun (d, a, b) => Instr.chopFma d a b) <|> (Fmt.decChop3 4 (2097152 + Fmt.encChop2 7 d a)).map (fun (d, a, b) => Instr.chopMin d a b) <|> (Fmt.decChop3 5 (2097152 + Fmt.encChop2 7 d a)).map (fun (d, a, b) => Instr.chopMax d a b) <|> (Fmt.decChop2 6 (2097152 + Fmt.encChop2 7 d a)).map (fun (d, a) => Instr.chopExp2 d a) <|> (Fmt.decChop2 7 (2097152 + Fmt.encChop2 7 d a)).map (fun (d, a) => Instr.chopRcp d a) <|> (Fmt.decChop2 8 (2097152 + Fmt.encChop2 7 d a)).map (fun (d, a) => Instr.chopMov d a) <|> (Fmt.decChop3 9 (2097152 + Fmt.encChop2 7 d a)).map (fun (d, a, b) => Instr.chopSel d a b) <|> (Fmt.decChopRel 10 (2097152 + Fmt.encChop2 7 d a)).map (fun (a, b) => Instr.chopLt a b) <|> (Fmt.decChopRel 11 (2097152 + Fmt.encChop2 7 d a)).map (fun (a, b) => Instr.chopLe a b) <|> (Fmt.decChopRel 12 (2097152 + Fmt.encChop2 7 d a)).map (fun (a, b) => Instr.chopEq a b) <|> (Fmt.decChopRel 13 (2097152 + Fmt.encChop2 7 d a)).map (fun (a, b) => Instr.chopNe a b)) = _
  rw [show Fmt.decChop2 7 (2097152 + Fmt.encChop2 7 d a) = _ from hd]
  rw [n0, n1, n2, n3, n4, n5, n6]
  rfl
theorem chopMov (d : BitVec 4) (a : BitVec 4) : Statement (.chopMov d a) := by
  intro _ c
  have hlt := encChop2_lt 8 d a (by decide)
  show decodeInstr (wordOf c 0x36 (2097152 + Fmt.encChop2 8 d a)) = _
  rw [at_36 c _ (by omega)]
  rw [show (2097152 + Fmt.encChop2 8 d a) / 2097152 % 16 = 1 by omega]
  have n0 : Fmt.decChop3 0 (2097152 + Fmt.encChop2 8 d a) = none := by
    unfold Fmt.decChop3 Fmt.encChop2; have := d.isLt; have := a.isLt; exact if_neg (by omega)
  have n1 : Fmt.decChop3 1 (2097152 + Fmt.encChop2 8 d a) = none := by
    unfold Fmt.decChop3 Fmt.encChop2; have := d.isLt; have := a.isLt; exact if_neg (by omega)
  have n2 : Fmt.decChop3 2 (2097152 + Fmt.encChop2 8 d a) = none := by
    unfold Fmt.decChop3 Fmt.encChop2; have := d.isLt; have := a.isLt; exact if_neg (by omega)
  have n3 : Fmt.decChop3 3 (2097152 + Fmt.encChop2 8 d a) = none := by
    unfold Fmt.decChop3 Fmt.encChop2; have := d.isLt; have := a.isLt; exact if_neg (by omega)
  have n4 : Fmt.decChop3 4 (2097152 + Fmt.encChop2 8 d a) = none := by
    unfold Fmt.decChop3 Fmt.encChop2; have := d.isLt; have := a.isLt; exact if_neg (by omega)
  have n5 : Fmt.decChop3 5 (2097152 + Fmt.encChop2 8 d a) = none := by
    unfold Fmt.decChop3 Fmt.encChop2; have := d.isLt; have := a.isLt; exact if_neg (by omega)
  have n6 : Fmt.decChop2 6 (2097152 + Fmt.encChop2 8 d a) = none := by
    unfold Fmt.decChop2 Fmt.encChop2; have := d.isLt; have := a.isLt; exact if_neg (by omega)
  have n7 : Fmt.decChop2 7 (2097152 + Fmt.encChop2 8 d a) = none := by
    unfold Fmt.decChop2 Fmt.encChop2; have := d.isLt; have := a.isLt; exact if_neg (by omega)
  have hd := decChop2_enc 8 1 d a (by decide)
  show ((Fmt.decChop3 0 (2097152 + Fmt.encChop2 8 d a)).map (fun (d, a, b) => Instr.chopAdd d a b) <|> (Fmt.decChop3 1 (2097152 + Fmt.encChop2 8 d a)).map (fun (d, a, b) => Instr.chopSub d a b) <|> (Fmt.decChop3 2 (2097152 + Fmt.encChop2 8 d a)).map (fun (d, a, b) => Instr.chopMul d a b) <|> (Fmt.decChop3 3 (2097152 + Fmt.encChop2 8 d a)).map (fun (d, a, b) => Instr.chopFma d a b) <|> (Fmt.decChop3 4 (2097152 + Fmt.encChop2 8 d a)).map (fun (d, a, b) => Instr.chopMin d a b) <|> (Fmt.decChop3 5 (2097152 + Fmt.encChop2 8 d a)).map (fun (d, a, b) => Instr.chopMax d a b) <|> (Fmt.decChop2 6 (2097152 + Fmt.encChop2 8 d a)).map (fun (d, a) => Instr.chopExp2 d a) <|> (Fmt.decChop2 7 (2097152 + Fmt.encChop2 8 d a)).map (fun (d, a) => Instr.chopRcp d a) <|> (Fmt.decChop2 8 (2097152 + Fmt.encChop2 8 d a)).map (fun (d, a) => Instr.chopMov d a) <|> (Fmt.decChop3 9 (2097152 + Fmt.encChop2 8 d a)).map (fun (d, a, b) => Instr.chopSel d a b) <|> (Fmt.decChopRel 10 (2097152 + Fmt.encChop2 8 d a)).map (fun (a, b) => Instr.chopLt a b) <|> (Fmt.decChopRel 11 (2097152 + Fmt.encChop2 8 d a)).map (fun (a, b) => Instr.chopLe a b) <|> (Fmt.decChopRel 12 (2097152 + Fmt.encChop2 8 d a)).map (fun (a, b) => Instr.chopEq a b) <|> (Fmt.decChopRel 13 (2097152 + Fmt.encChop2 8 d a)).map (fun (a, b) => Instr.chopNe a b)) = _
  rw [show Fmt.decChop2 8 (2097152 + Fmt.encChop2 8 d a) = _ from hd]
  rw [n0, n1, n2, n3, n4, n5, n6, n7]
  rfl
theorem chopSel (d : BitVec 4) (a : BitVec 4) (b : BitVec 4) : Statement (.chopSel d a b) := by
  intro _ c
  have hlt := encChop3_lt 9 d a b (by decide)
  show decodeInstr (wordOf c 0x36 (2097152 + Fmt.encChop3 9 d a b)) = _
  rw [at_36 c _ (by omega)]
  rw [show (2097152 + Fmt.encChop3 9 d a b) / 2097152 % 16 = 1 by omega]
  have n0 : Fmt.decChop3 0 (2097152 + Fmt.encChop3 9 d a b) = none := by
    unfold Fmt.decChop3 Fmt.encChop3; have := d.isLt; have := a.isLt; have := b.isLt; exact if_neg (by omega)
  have n1 : Fmt.decChop3 1 (2097152 + Fmt.encChop3 9 d a b) = none := by
    unfold Fmt.decChop3 Fmt.encChop3; have := d.isLt; have := a.isLt; have := b.isLt; exact if_neg (by omega)
  have n2 : Fmt.decChop3 2 (2097152 + Fmt.encChop3 9 d a b) = none := by
    unfold Fmt.decChop3 Fmt.encChop3; have := d.isLt; have := a.isLt; have := b.isLt; exact if_neg (by omega)
  have n3 : Fmt.decChop3 3 (2097152 + Fmt.encChop3 9 d a b) = none := by
    unfold Fmt.decChop3 Fmt.encChop3; have := d.isLt; have := a.isLt; have := b.isLt; exact if_neg (by omega)
  have n4 : Fmt.decChop3 4 (2097152 + Fmt.encChop3 9 d a b) = none := by
    unfold Fmt.decChop3 Fmt.encChop3; have := d.isLt; have := a.isLt; have := b.isLt; exact if_neg (by omega)
  have n5 : Fmt.decChop3 5 (2097152 + Fmt.encChop3 9 d a b) = none := by
    unfold Fmt.decChop3 Fmt.encChop3; have := d.isLt; have := a.isLt; have := b.isLt; exact if_neg (by omega)
  have n6 : Fmt.decChop2 6 (2097152 + Fmt.encChop3 9 d a b) = none := by
    unfold Fmt.decChop2 Fmt.encChop3; have := d.isLt; have := a.isLt; have := b.isLt; exact if_neg (by omega)
  have n7 : Fmt.decChop2 7 (2097152 + Fmt.encChop3 9 d a b) = none := by
    unfold Fmt.decChop2 Fmt.encChop3; have := d.isLt; have := a.isLt; have := b.isLt; exact if_neg (by omega)
  have n8 : Fmt.decChop2 8 (2097152 + Fmt.encChop3 9 d a b) = none := by
    unfold Fmt.decChop2 Fmt.encChop3; have := d.isLt; have := a.isLt; have := b.isLt; exact if_neg (by omega)
  have hd := decChop3_enc 9 1 d a b (by decide)
  show ((Fmt.decChop3 0 (2097152 + Fmt.encChop3 9 d a b)).map (fun (d, a, b) => Instr.chopAdd d a b) <|> (Fmt.decChop3 1 (2097152 + Fmt.encChop3 9 d a b)).map (fun (d, a, b) => Instr.chopSub d a b) <|> (Fmt.decChop3 2 (2097152 + Fmt.encChop3 9 d a b)).map (fun (d, a, b) => Instr.chopMul d a b) <|> (Fmt.decChop3 3 (2097152 + Fmt.encChop3 9 d a b)).map (fun (d, a, b) => Instr.chopFma d a b) <|> (Fmt.decChop3 4 (2097152 + Fmt.encChop3 9 d a b)).map (fun (d, a, b) => Instr.chopMin d a b) <|> (Fmt.decChop3 5 (2097152 + Fmt.encChop3 9 d a b)).map (fun (d, a, b) => Instr.chopMax d a b) <|> (Fmt.decChop2 6 (2097152 + Fmt.encChop3 9 d a b)).map (fun (d, a) => Instr.chopExp2 d a) <|> (Fmt.decChop2 7 (2097152 + Fmt.encChop3 9 d a b)).map (fun (d, a) => Instr.chopRcp d a) <|> (Fmt.decChop2 8 (2097152 + Fmt.encChop3 9 d a b)).map (fun (d, a) => Instr.chopMov d a) <|> (Fmt.decChop3 9 (2097152 + Fmt.encChop3 9 d a b)).map (fun (d, a, b) => Instr.chopSel d a b) <|> (Fmt.decChopRel 10 (2097152 + Fmt.encChop3 9 d a b)).map (fun (a, b) => Instr.chopLt a b) <|> (Fmt.decChopRel 11 (2097152 + Fmt.encChop3 9 d a b)).map (fun (a, b) => Instr.chopLe a b) <|> (Fmt.decChopRel 12 (2097152 + Fmt.encChop3 9 d a b)).map (fun (a, b) => Instr.chopEq a b) <|> (Fmt.decChopRel 13 (2097152 + Fmt.encChop3 9 d a b)).map (fun (a, b) => Instr.chopNe a b)) = _
  rw [show Fmt.decChop3 9 (2097152 + Fmt.encChop3 9 d a b) = _ from hd]
  rw [n0, n1, n2, n3, n4, n5, n6, n7, n8]
  rfl
theorem chopLt (a : BitVec 4) (b : BitVec 4) : Statement (.chopLt a b) := by
  intro _ c
  have hlt := encChopRel_lt 10 a b (by decide)
  show decodeInstr (wordOf c 0x36 (2097152 + Fmt.encChopRel 10 a b)) = _
  rw [at_36 c _ (by omega)]
  rw [show (2097152 + Fmt.encChopRel 10 a b) / 2097152 % 16 = 1 by omega]
  have n0 : Fmt.decChop3 0 (2097152 + Fmt.encChopRel 10 a b) = none := by
    unfold Fmt.decChop3 Fmt.encChopRel; have := a.isLt; have := b.isLt; exact if_neg (by omega)
  have n1 : Fmt.decChop3 1 (2097152 + Fmt.encChopRel 10 a b) = none := by
    unfold Fmt.decChop3 Fmt.encChopRel; have := a.isLt; have := b.isLt; exact if_neg (by omega)
  have n2 : Fmt.decChop3 2 (2097152 + Fmt.encChopRel 10 a b) = none := by
    unfold Fmt.decChop3 Fmt.encChopRel; have := a.isLt; have := b.isLt; exact if_neg (by omega)
  have n3 : Fmt.decChop3 3 (2097152 + Fmt.encChopRel 10 a b) = none := by
    unfold Fmt.decChop3 Fmt.encChopRel; have := a.isLt; have := b.isLt; exact if_neg (by omega)
  have n4 : Fmt.decChop3 4 (2097152 + Fmt.encChopRel 10 a b) = none := by
    unfold Fmt.decChop3 Fmt.encChopRel; have := a.isLt; have := b.isLt; exact if_neg (by omega)
  have n5 : Fmt.decChop3 5 (2097152 + Fmt.encChopRel 10 a b) = none := by
    unfold Fmt.decChop3 Fmt.encChopRel; have := a.isLt; have := b.isLt; exact if_neg (by omega)
  have n6 : Fmt.decChop2 6 (2097152 + Fmt.encChopRel 10 a b) = none := by
    unfold Fmt.decChop2 Fmt.encChopRel; have := a.isLt; have := b.isLt; exact if_neg (by omega)
  have n7 : Fmt.decChop2 7 (2097152 + Fmt.encChopRel 10 a b) = none := by
    unfold Fmt.decChop2 Fmt.encChopRel; have := a.isLt; have := b.isLt; exact if_neg (by omega)
  have n8 : Fmt.decChop2 8 (2097152 + Fmt.encChopRel 10 a b) = none := by
    unfold Fmt.decChop2 Fmt.encChopRel; have := a.isLt; have := b.isLt; exact if_neg (by omega)
  have n9 : Fmt.decChop3 9 (2097152 + Fmt.encChopRel 10 a b) = none := by
    unfold Fmt.decChop3 Fmt.encChopRel; have := a.isLt; have := b.isLt; exact if_neg (by omega)
  have hd := decChopRel_enc 10 1 a b (by decide)
  show ((Fmt.decChop3 0 (2097152 + Fmt.encChopRel 10 a b)).map (fun (d, a, b) => Instr.chopAdd d a b) <|> (Fmt.decChop3 1 (2097152 + Fmt.encChopRel 10 a b)).map (fun (d, a, b) => Instr.chopSub d a b) <|> (Fmt.decChop3 2 (2097152 + Fmt.encChopRel 10 a b)).map (fun (d, a, b) => Instr.chopMul d a b) <|> (Fmt.decChop3 3 (2097152 + Fmt.encChopRel 10 a b)).map (fun (d, a, b) => Instr.chopFma d a b) <|> (Fmt.decChop3 4 (2097152 + Fmt.encChopRel 10 a b)).map (fun (d, a, b) => Instr.chopMin d a b) <|> (Fmt.decChop3 5 (2097152 + Fmt.encChopRel 10 a b)).map (fun (d, a, b) => Instr.chopMax d a b) <|> (Fmt.decChop2 6 (2097152 + Fmt.encChopRel 10 a b)).map (fun (d, a) => Instr.chopExp2 d a) <|> (Fmt.decChop2 7 (2097152 + Fmt.encChopRel 10 a b)).map (fun (d, a) => Instr.chopRcp d a) <|> (Fmt.decChop2 8 (2097152 + Fmt.encChopRel 10 a b)).map (fun (d, a) => Instr.chopMov d a) <|> (Fmt.decChop3 9 (2097152 + Fmt.encChopRel 10 a b)).map (fun (d, a, b) => Instr.chopSel d a b) <|> (Fmt.decChopRel 10 (2097152 + Fmt.encChopRel 10 a b)).map (fun (a, b) => Instr.chopLt a b) <|> (Fmt.decChopRel 11 (2097152 + Fmt.encChopRel 10 a b)).map (fun (a, b) => Instr.chopLe a b) <|> (Fmt.decChopRel 12 (2097152 + Fmt.encChopRel 10 a b)).map (fun (a, b) => Instr.chopEq a b) <|> (Fmt.decChopRel 13 (2097152 + Fmt.encChopRel 10 a b)).map (fun (a, b) => Instr.chopNe a b)) = _
  rw [show Fmt.decChopRel 10 (2097152 + Fmt.encChopRel 10 a b) = _ from hd]
  rw [n0, n1, n2, n3, n4, n5, n6, n7, n8, n9]
  rfl
theorem chopLe (a : BitVec 4) (b : BitVec 4) : Statement (.chopLe a b) := by
  intro _ c
  have hlt := encChopRel_lt 11 a b (by decide)
  show decodeInstr (wordOf c 0x36 (2097152 + Fmt.encChopRel 11 a b)) = _
  rw [at_36 c _ (by omega)]
  rw [show (2097152 + Fmt.encChopRel 11 a b) / 2097152 % 16 = 1 by omega]
  have n0 : Fmt.decChop3 0 (2097152 + Fmt.encChopRel 11 a b) = none := by
    unfold Fmt.decChop3 Fmt.encChopRel; have := a.isLt; have := b.isLt; exact if_neg (by omega)
  have n1 : Fmt.decChop3 1 (2097152 + Fmt.encChopRel 11 a b) = none := by
    unfold Fmt.decChop3 Fmt.encChopRel; have := a.isLt; have := b.isLt; exact if_neg (by omega)
  have n2 : Fmt.decChop3 2 (2097152 + Fmt.encChopRel 11 a b) = none := by
    unfold Fmt.decChop3 Fmt.encChopRel; have := a.isLt; have := b.isLt; exact if_neg (by omega)
  have n3 : Fmt.decChop3 3 (2097152 + Fmt.encChopRel 11 a b) = none := by
    unfold Fmt.decChop3 Fmt.encChopRel; have := a.isLt; have := b.isLt; exact if_neg (by omega)
  have n4 : Fmt.decChop3 4 (2097152 + Fmt.encChopRel 11 a b) = none := by
    unfold Fmt.decChop3 Fmt.encChopRel; have := a.isLt; have := b.isLt; exact if_neg (by omega)
  have n5 : Fmt.decChop3 5 (2097152 + Fmt.encChopRel 11 a b) = none := by
    unfold Fmt.decChop3 Fmt.encChopRel; have := a.isLt; have := b.isLt; exact if_neg (by omega)
  have n6 : Fmt.decChop2 6 (2097152 + Fmt.encChopRel 11 a b) = none := by
    unfold Fmt.decChop2 Fmt.encChopRel; have := a.isLt; have := b.isLt; exact if_neg (by omega)
  have n7 : Fmt.decChop2 7 (2097152 + Fmt.encChopRel 11 a b) = none := by
    unfold Fmt.decChop2 Fmt.encChopRel; have := a.isLt; have := b.isLt; exact if_neg (by omega)
  have n8 : Fmt.decChop2 8 (2097152 + Fmt.encChopRel 11 a b) = none := by
    unfold Fmt.decChop2 Fmt.encChopRel; have := a.isLt; have := b.isLt; exact if_neg (by omega)
  have n9 : Fmt.decChop3 9 (2097152 + Fmt.encChopRel 11 a b) = none := by
    unfold Fmt.decChop3 Fmt.encChopRel; have := a.isLt; have := b.isLt; exact if_neg (by omega)
  have n10 : Fmt.decChopRel 10 (2097152 + Fmt.encChopRel 11 a b) = none := by
    unfold Fmt.decChopRel Fmt.encChopRel; have := a.isLt; have := b.isLt; exact if_neg (by omega)
  have hd := decChopRel_enc 11 1 a b (by decide)
  show ((Fmt.decChop3 0 (2097152 + Fmt.encChopRel 11 a b)).map (fun (d, a, b) => Instr.chopAdd d a b) <|> (Fmt.decChop3 1 (2097152 + Fmt.encChopRel 11 a b)).map (fun (d, a, b) => Instr.chopSub d a b) <|> (Fmt.decChop3 2 (2097152 + Fmt.encChopRel 11 a b)).map (fun (d, a, b) => Instr.chopMul d a b) <|> (Fmt.decChop3 3 (2097152 + Fmt.encChopRel 11 a b)).map (fun (d, a, b) => Instr.chopFma d a b) <|> (Fmt.decChop3 4 (2097152 + Fmt.encChopRel 11 a b)).map (fun (d, a, b) => Instr.chopMin d a b) <|> (Fmt.decChop3 5 (2097152 + Fmt.encChopRel 11 a b)).map (fun (d, a, b) => Instr.chopMax d a b) <|> (Fmt.decChop2 6 (2097152 + Fmt.encChopRel 11 a b)).map (fun (d, a) => Instr.chopExp2 d a) <|> (Fmt.decChop2 7 (2097152 + Fmt.encChopRel 11 a b)).map (fun (d, a) => Instr.chopRcp d a) <|> (Fmt.decChop2 8 (2097152 + Fmt.encChopRel 11 a b)).map (fun (d, a) => Instr.chopMov d a) <|> (Fmt.decChop3 9 (2097152 + Fmt.encChopRel 11 a b)).map (fun (d, a, b) => Instr.chopSel d a b) <|> (Fmt.decChopRel 10 (2097152 + Fmt.encChopRel 11 a b)).map (fun (a, b) => Instr.chopLt a b) <|> (Fmt.decChopRel 11 (2097152 + Fmt.encChopRel 11 a b)).map (fun (a, b) => Instr.chopLe a b) <|> (Fmt.decChopRel 12 (2097152 + Fmt.encChopRel 11 a b)).map (fun (a, b) => Instr.chopEq a b) <|> (Fmt.decChopRel 13 (2097152 + Fmt.encChopRel 11 a b)).map (fun (a, b) => Instr.chopNe a b)) = _
  rw [show Fmt.decChopRel 11 (2097152 + Fmt.encChopRel 11 a b) = _ from hd]
  rw [n0, n1, n2, n3, n4, n5, n6, n7, n8, n9, n10]
  rfl
theorem chopEq (a : BitVec 4) (b : BitVec 4) : Statement (.chopEq a b) := by
  intro _ c
  have hlt := encChopRel_lt 12 a b (by decide)
  show decodeInstr (wordOf c 0x36 (2097152 + Fmt.encChopRel 12 a b)) = _
  rw [at_36 c _ (by omega)]
  rw [show (2097152 + Fmt.encChopRel 12 a b) / 2097152 % 16 = 1 by omega]
  have n0 : Fmt.decChop3 0 (2097152 + Fmt.encChopRel 12 a b) = none := by
    unfold Fmt.decChop3 Fmt.encChopRel; have := a.isLt; have := b.isLt; exact if_neg (by omega)
  have n1 : Fmt.decChop3 1 (2097152 + Fmt.encChopRel 12 a b) = none := by
    unfold Fmt.decChop3 Fmt.encChopRel; have := a.isLt; have := b.isLt; exact if_neg (by omega)
  have n2 : Fmt.decChop3 2 (2097152 + Fmt.encChopRel 12 a b) = none := by
    unfold Fmt.decChop3 Fmt.encChopRel; have := a.isLt; have := b.isLt; exact if_neg (by omega)
  have n3 : Fmt.decChop3 3 (2097152 + Fmt.encChopRel 12 a b) = none := by
    unfold Fmt.decChop3 Fmt.encChopRel; have := a.isLt; have := b.isLt; exact if_neg (by omega)
  have n4 : Fmt.decChop3 4 (2097152 + Fmt.encChopRel 12 a b) = none := by
    unfold Fmt.decChop3 Fmt.encChopRel; have := a.isLt; have := b.isLt; exact if_neg (by omega)
  have n5 : Fmt.decChop3 5 (2097152 + Fmt.encChopRel 12 a b) = none := by
    unfold Fmt.decChop3 Fmt.encChopRel; have := a.isLt; have := b.isLt; exact if_neg (by omega)
  have n6 : Fmt.decChop2 6 (2097152 + Fmt.encChopRel 12 a b) = none := by
    unfold Fmt.decChop2 Fmt.encChopRel; have := a.isLt; have := b.isLt; exact if_neg (by omega)
  have n7 : Fmt.decChop2 7 (2097152 + Fmt.encChopRel 12 a b) = none := by
    unfold Fmt.decChop2 Fmt.encChopRel; have := a.isLt; have := b.isLt; exact if_neg (by omega)
  have n8 : Fmt.decChop2 8 (2097152 + Fmt.encChopRel 12 a b) = none := by
    unfold Fmt.decChop2 Fmt.encChopRel; have := a.isLt; have := b.isLt; exact if_neg (by omega)
  have n9 : Fmt.decChop3 9 (2097152 + Fmt.encChopRel 12 a b) = none := by
    unfold Fmt.decChop3 Fmt.encChopRel; have := a.isLt; have := b.isLt; exact if_neg (by omega)
  have n10 : Fmt.decChopRel 10 (2097152 + Fmt.encChopRel 12 a b) = none := by
    unfold Fmt.decChopRel Fmt.encChopRel; have := a.isLt; have := b.isLt; exact if_neg (by omega)
  have n11 : Fmt.decChopRel 11 (2097152 + Fmt.encChopRel 12 a b) = none := by
    unfold Fmt.decChopRel Fmt.encChopRel; have := a.isLt; have := b.isLt; exact if_neg (by omega)
  have hd := decChopRel_enc 12 1 a b (by decide)
  show ((Fmt.decChop3 0 (2097152 + Fmt.encChopRel 12 a b)).map (fun (d, a, b) => Instr.chopAdd d a b) <|> (Fmt.decChop3 1 (2097152 + Fmt.encChopRel 12 a b)).map (fun (d, a, b) => Instr.chopSub d a b) <|> (Fmt.decChop3 2 (2097152 + Fmt.encChopRel 12 a b)).map (fun (d, a, b) => Instr.chopMul d a b) <|> (Fmt.decChop3 3 (2097152 + Fmt.encChopRel 12 a b)).map (fun (d, a, b) => Instr.chopFma d a b) <|> (Fmt.decChop3 4 (2097152 + Fmt.encChopRel 12 a b)).map (fun (d, a, b) => Instr.chopMin d a b) <|> (Fmt.decChop3 5 (2097152 + Fmt.encChopRel 12 a b)).map (fun (d, a, b) => Instr.chopMax d a b) <|> (Fmt.decChop2 6 (2097152 + Fmt.encChopRel 12 a b)).map (fun (d, a) => Instr.chopExp2 d a) <|> (Fmt.decChop2 7 (2097152 + Fmt.encChopRel 12 a b)).map (fun (d, a) => Instr.chopRcp d a) <|> (Fmt.decChop2 8 (2097152 + Fmt.encChopRel 12 a b)).map (fun (d, a) => Instr.chopMov d a) <|> (Fmt.decChop3 9 (2097152 + Fmt.encChopRel 12 a b)).map (fun (d, a, b) => Instr.chopSel d a b) <|> (Fmt.decChopRel 10 (2097152 + Fmt.encChopRel 12 a b)).map (fun (a, b) => Instr.chopLt a b) <|> (Fmt.decChopRel 11 (2097152 + Fmt.encChopRel 12 a b)).map (fun (a, b) => Instr.chopLe a b) <|> (Fmt.decChopRel 12 (2097152 + Fmt.encChopRel 12 a b)).map (fun (a, b) => Instr.chopEq a b) <|> (Fmt.decChopRel 13 (2097152 + Fmt.encChopRel 12 a b)).map (fun (a, b) => Instr.chopNe a b)) = _
  rw [show Fmt.decChopRel 12 (2097152 + Fmt.encChopRel 12 a b) = _ from hd]
  rw [n0, n1, n2, n3, n4, n5, n6, n7, n8, n9, n10, n11]
  rfl
theorem chopNe (a : BitVec 4) (b : BitVec 4) : Statement (.chopNe a b) := by
  intro _ c
  have hlt := encChopRel_lt 13 a b (by decide)
  show decodeInstr (wordOf c 0x36 (2097152 + Fmt.encChopRel 13 a b)) = _
  rw [at_36 c _ (by omega)]
  rw [show (2097152 + Fmt.encChopRel 13 a b) / 2097152 % 16 = 1 by omega]
  have n0 : Fmt.decChop3 0 (2097152 + Fmt.encChopRel 13 a b) = none := by
    unfold Fmt.decChop3 Fmt.encChopRel; have := a.isLt; have := b.isLt; exact if_neg (by omega)
  have n1 : Fmt.decChop3 1 (2097152 + Fmt.encChopRel 13 a b) = none := by
    unfold Fmt.decChop3 Fmt.encChopRel; have := a.isLt; have := b.isLt; exact if_neg (by omega)
  have n2 : Fmt.decChop3 2 (2097152 + Fmt.encChopRel 13 a b) = none := by
    unfold Fmt.decChop3 Fmt.encChopRel; have := a.isLt; have := b.isLt; exact if_neg (by omega)
  have n3 : Fmt.decChop3 3 (2097152 + Fmt.encChopRel 13 a b) = none := by
    unfold Fmt.decChop3 Fmt.encChopRel; have := a.isLt; have := b.isLt; exact if_neg (by omega)
  have n4 : Fmt.decChop3 4 (2097152 + Fmt.encChopRel 13 a b) = none := by
    unfold Fmt.decChop3 Fmt.encChopRel; have := a.isLt; have := b.isLt; exact if_neg (by omega)
  have n5 : Fmt.decChop3 5 (2097152 + Fmt.encChopRel 13 a b) = none := by
    unfold Fmt.decChop3 Fmt.encChopRel; have := a.isLt; have := b.isLt; exact if_neg (by omega)
  have n6 : Fmt.decChop2 6 (2097152 + Fmt.encChopRel 13 a b) = none := by
    unfold Fmt.decChop2 Fmt.encChopRel; have := a.isLt; have := b.isLt; exact if_neg (by omega)
  have n7 : Fmt.decChop2 7 (2097152 + Fmt.encChopRel 13 a b) = none := by
    unfold Fmt.decChop2 Fmt.encChopRel; have := a.isLt; have := b.isLt; exact if_neg (by omega)
  have n8 : Fmt.decChop2 8 (2097152 + Fmt.encChopRel 13 a b) = none := by
    unfold Fmt.decChop2 Fmt.encChopRel; have := a.isLt; have := b.isLt; exact if_neg (by omega)
  have n9 : Fmt.decChop3 9 (2097152 + Fmt.encChopRel 13 a b) = none := by
    unfold Fmt.decChop3 Fmt.encChopRel; have := a.isLt; have := b.isLt; exact if_neg (by omega)
  have n10 : Fmt.decChopRel 10 (2097152 + Fmt.encChopRel 13 a b) = none := by
    unfold Fmt.decChopRel Fmt.encChopRel; have := a.isLt; have := b.isLt; exact if_neg (by omega)
  have n11 : Fmt.decChopRel 11 (2097152 + Fmt.encChopRel 13 a b) = none := by
    unfold Fmt.decChopRel Fmt.encChopRel; have := a.isLt; have := b.isLt; exact if_neg (by omega)
  have n12 : Fmt.decChopRel 12 (2097152 + Fmt.encChopRel 13 a b) = none := by
    unfold Fmt.decChopRel Fmt.encChopRel; have := a.isLt; have := b.isLt; exact if_neg (by omega)
  have hd := decChopRel_enc 13 1 a b (by decide)
  show ((Fmt.decChop3 0 (2097152 + Fmt.encChopRel 13 a b)).map (fun (d, a, b) => Instr.chopAdd d a b) <|> (Fmt.decChop3 1 (2097152 + Fmt.encChopRel 13 a b)).map (fun (d, a, b) => Instr.chopSub d a b) <|> (Fmt.decChop3 2 (2097152 + Fmt.encChopRel 13 a b)).map (fun (d, a, b) => Instr.chopMul d a b) <|> (Fmt.decChop3 3 (2097152 + Fmt.encChopRel 13 a b)).map (fun (d, a, b) => Instr.chopFma d a b) <|> (Fmt.decChop3 4 (2097152 + Fmt.encChopRel 13 a b)).map (fun (d, a, b) => Instr.chopMin d a b) <|> (Fmt.decChop3 5 (2097152 + Fmt.encChopRel 13 a b)).map (fun (d, a, b) => Instr.chopMax d a b) <|> (Fmt.decChop2 6 (2097152 + Fmt.encChopRel 13 a b)).map (fun (d, a) => Instr.chopExp2 d a) <|> (Fmt.decChop2 7 (2097152 + Fmt.encChopRel 13 a b)).map (fun (d, a) => Instr.chopRcp d a) <|> (Fmt.decChop2 8 (2097152 + Fmt.encChopRel 13 a b)).map (fun (d, a) => Instr.chopMov d a) <|> (Fmt.decChop3 9 (2097152 + Fmt.encChopRel 13 a b)).map (fun (d, a, b) => Instr.chopSel d a b) <|> (Fmt.decChopRel 10 (2097152 + Fmt.encChopRel 13 a b)).map (fun (a, b) => Instr.chopLt a b) <|> (Fmt.decChopRel 11 (2097152 + Fmt.encChopRel 13 a b)).map (fun (a, b) => Instr.chopLe a b) <|> (Fmt.decChopRel 12 (2097152 + Fmt.encChopRel 13 a b)).map (fun (a, b) => Instr.chopEq a b) <|> (Fmt.decChopRel 13 (2097152 + Fmt.encChopRel 13 a b)).map (fun (a, b) => Instr.chopNe a b)) = _
  rw [show Fmt.decChopRel 13 (2097152 + Fmt.encChopRel 13 a b) = _ from hd]
  rw [n0, n1, n2, n3, n4, n5, n6, n7, n8, n9, n10, n11, n12]
  rfl
theorem chenabPush : Statement (.chenabPush) := by
  intro _ c
  have hlt := encFix_lt 0 (by decide)
  show decodeInstr (wordOf c 0x36 (4194304 + Fmt.encFix 0)) = _
  rw [at_36 c _ (by omega)]
  rw [show (4194304 + Fmt.encFix 0) / 2097152 % 16 = 2 by omega]
  have hd := decFix_enc 0 2 (by decide)
  show ((Fmt.decFix 0 (4194304 + Fmt.encFix 0)).map (fun _ => Instr.chenabPush) <|> (Fmt.decFix 1024 (4194304 + Fmt.encFix 0)).map (fun _ => Instr.chenabPop) <|> (Fmt.decFix 2048 (4194304 + Fmt.encFix 0)).map (fun _ => Instr.chenabElse) <|> (Fmt.decFix 3072 (4194304 + Fmt.encFix 0)).map (fun _ => Instr.chenabAll)) = _
  rw [show Fmt.decFix 0 (4194304 + Fmt.encFix 0) = _ from hd]
  rfl
theorem chenabPop : Statement (.chenabPop) := by
  intro _ c
  have hlt := encFix_lt 1024 (by decide)
  show decodeInstr (wordOf c 0x36 (4194304 + Fmt.encFix 1024)) = _
  rw [at_36 c _ (by omega)]
  rw [show (4194304 + Fmt.encFix 1024) / 2097152 % 16 = 2 by omega]
  have n0 : Fmt.decFix 0 (4194304 + Fmt.encFix 1024) = none := by
    unfold Fmt.decFix Fmt.encFix; exact if_neg (by omega)
  have hd := decFix_enc 1024 2 (by decide)
  show ((Fmt.decFix 0 (4194304 + Fmt.encFix 1024)).map (fun _ => Instr.chenabPush) <|> (Fmt.decFix 1024 (4194304 + Fmt.encFix 1024)).map (fun _ => Instr.chenabPop) <|> (Fmt.decFix 2048 (4194304 + Fmt.encFix 1024)).map (fun _ => Instr.chenabElse) <|> (Fmt.decFix 3072 (4194304 + Fmt.encFix 1024)).map (fun _ => Instr.chenabAll)) = _
  rw [show Fmt.decFix 1024 (4194304 + Fmt.encFix 1024) = _ from hd]
  rw [n0]
  rfl
theorem chenabElse : Statement (.chenabElse) := by
  intro _ c
  have hlt := encFix_lt 2048 (by decide)
  show decodeInstr (wordOf c 0x36 (4194304 + Fmt.encFix 2048)) = _
  rw [at_36 c _ (by omega)]
  rw [show (4194304 + Fmt.encFix 2048) / 2097152 % 16 = 2 by omega]
  have n0 : Fmt.decFix 0 (4194304 + Fmt.encFix 2048) = none := by
    unfold Fmt.decFix Fmt.encFix; exact if_neg (by omega)
  have n1 : Fmt.decFix 1024 (4194304 + Fmt.encFix 2048) = none := by
    unfold Fmt.decFix Fmt.encFix; exact if_neg (by omega)
  have hd := decFix_enc 2048 2 (by decide)
  show ((Fmt.decFix 0 (4194304 + Fmt.encFix 2048)).map (fun _ => Instr.chenabPush) <|> (Fmt.decFix 1024 (4194304 + Fmt.encFix 2048)).map (fun _ => Instr.chenabPop) <|> (Fmt.decFix 2048 (4194304 + Fmt.encFix 2048)).map (fun _ => Instr.chenabElse) <|> (Fmt.decFix 3072 (4194304 + Fmt.encFix 2048)).map (fun _ => Instr.chenabAll)) = _
  rw [show Fmt.decFix 2048 (4194304 + Fmt.encFix 2048) = _ from hd]
  rw [n0, n1]
  rfl
theorem chenabAll : Statement (.chenabAll) := by
  intro _ c
  have hlt := encFix_lt 3072 (by decide)
  show decodeInstr (wordOf c 0x36 (4194304 + Fmt.encFix 3072)) = _
  rw [at_36 c _ (by omega)]
  rw [show (4194304 + Fmt.encFix 3072) / 2097152 % 16 = 2 by omega]
  have n0 : Fmt.decFix 0 (4194304 + Fmt.encFix 3072) = none := by
    unfold Fmt.decFix Fmt.encFix; exact if_neg (by omega)
  have n1 : Fmt.decFix 1024 (4194304 + Fmt.encFix 3072) = none := by
    unfold Fmt.decFix Fmt.encFix; exact if_neg (by omega)
  have n2 : Fmt.decFix 2048 (4194304 + Fmt.encFix 3072) = none := by
    unfold Fmt.decFix Fmt.encFix; exact if_neg (by omega)
  have hd := decFix_enc 3072 2 (by decide)
  show ((Fmt.decFix 0 (4194304 + Fmt.encFix 3072)).map (fun _ => Instr.chenabPush) <|> (Fmt.decFix 1024 (4194304 + Fmt.encFix 3072)).map (fun _ => Instr.chenabPop) <|> (Fmt.decFix 2048 (4194304 + Fmt.encFix 3072)).map (fun _ => Instr.chenabElse) <|> (Fmt.decFix 3072 (4194304 + Fmt.encFix 3072)).map (fun _ => Instr.chenabAll)) = _
  rw [show Fmt.decFix 3072 (4194304 + Fmt.encFix 3072) = _ from hd]
  rw [n0, n1, n2]
  rfl
theorem chld (p : BitVec 5) (d : BitVec 4) (t : BitVec 5) (s : BitVec 2) : Statement (.chld p d t s) := by
  intro h c
  have hlt := encChld_lt p d t s
  show decodeInstr (wordOf c 0x36 (6291456 + Fmt.encChld p d t s)) = _
  rw [at_36 c _ (by omega)]
  rw [show (6291456 + Fmt.encChld p d t s) / 2097152 % 16 = 3 by omega]
  have hd := decChld_enc 3 p d t s
  show ((Fmt.decChld (6291456 + Fmt.encChld p d t s)).bind fun (p, d, t, s) => if s.toNat ≤ 1 then some (Instr.chld p d t s) else none) = _
  rw [show Fmt.decChld (6291456 + Fmt.encChld p d t s) = _ from hd]
  exact if_pos (by simpa [Instr.wellFormed, Instr.isWord, Instr.fieldsOk, and_assoc] using h)
theorem chst (p : BitVec 5) (d : BitVec 4) (t : BitVec 5) (s : BitVec 2) (l : BitVec 1) : Statement (.chst p d t s l) := by
  intro h c
  have hlt := encChst_lt p d t s l
  show decodeInstr (wordOf c 0x36 (8388608 + Fmt.encChst p d t s l)) = _
  rw [at_36 c _ (by omega)]
  rw [show (8388608 + Fmt.encChst p d t s l) / 2097152 % 16 = 4 by omega]
  have hd := decChst_enc 4 p d t s l
  show ((Fmt.decChst (8388608 + Fmt.encChst p d t s l)).bind fun (p, d, t, s, l) => if s ≠ 3 then some (Instr.chst p d t s l) else none) = _
  rw [show Fmt.decChst (8388608 + Fmt.encChst p d t s l) = _ from hd]
  exact if_pos (by simpa [Instr.wellFormed, Instr.isWord, Instr.fieldsOk, and_assoc] using h)
theorem chvis (p : BitVec 5) (d : BitVec 4) : Statement (.chvis p d) := by
  intro _ c
  have hlt := encChvis_lt p d
  show decodeInstr (wordOf c 0x36 (10485760 + Fmt.encChvis p d)) = _
  rw [at_36 c _ (by omega)]
  rw [show (10485760 + Fmt.encChvis p d) / 2097152 % 16 = 5 by omega]
  have hd := decChvis_enc 5 p d
  show ((Fmt.decChvis (10485760 + Fmt.encChvis p d)).map (fun (p, d) => Instr.chvis p d)) = _
  exact congrArg (Option.map _) hd
theorem chown (d : BitVec 5) (e : BitVec 5) : Statement (.chown d e) := by
  intro _ c
  have hlt := encChown_lt d e
  show decodeInstr (wordOf c 0x36 (12582912 + Fmt.encChown d e)) = _
  rw [at_36 c _ (by omega)]
  rw [show (12582912 + Fmt.encChown d e) / 2097152 % 16 = 6 by omega]
  have hd := decChown_enc 6 d e
  show ((Fmt.decChown (12582912 + Fmt.encChown d e)).map (fun (d, e) => Instr.chown d e)) = _
  exact congrArg (Option.map _) hd
theorem chrel : Statement (.chrel) := by
  intro _ c
  have hlt := encFix_lt 0 (by decide)
  show decodeInstr (wordOf c 0x36 (14680064 + Fmt.encFix 0)) = _
  rw [at_36 c _ (by omega)]
  rw [show (14680064 + Fmt.encFix 0) / 2097152 % 16 = 7 by omega]
  have hd := decFix_enc 0 7 (by decide)
  show ((Fmt.decFix 0 (14680064 + Fmt.encFix 0)).map (fun _ => Instr.chrel)) = _
  exact congrArg (Option.map _) hd
theorem chorg (s : BitVec 5) : Statement (.chorg s) := by
  intro _ c
  have hlt := encChorg_lt s
  show decodeInstr (wordOf c 0x36 (16777216 + Fmt.encChorg s)) = _
  rw [at_36 c _ (by omega)]
  rw [show (16777216 + Fmt.encChorg s) / 2097152 % 16 = 8 by omega]
  have hd := decChorg_enc 8 s
  show ((Fmt.decChorg (16777216 + Fmt.encChorg s)).map (fun s => Instr.chorg s) <|> (Fmt.decChorgRd 2048 (16777216 + Fmt.encChorg s)).map (fun d => Instr.chorgRd d)) = _
  rw [show Fmt.decChorg (16777216 + Fmt.encChorg s) = _ from hd]
  rfl
theorem chorgRd (d : BitVec 5) : Statement (.chorgRd d) := by
  intro _ c
  have hlt := encChorgRd_lt 2048 d (by decide)
  show decodeInstr (wordOf c 0x36 (16777216 + Fmt.encChorgRd 2048 d)) = _
  rw [at_36 c _ (by omega)]
  rw [show (16777216 + Fmt.encChorgRd 2048 d) / 2097152 % 16 = 8 by omega]
  have n0 : Fmt.decChorg (16777216 + Fmt.encChorgRd 2048 d) = none := by
    unfold Fmt.decChorg Fmt.encChorgRd; have := d.isLt; exact if_neg (by omega)
  have hd := decChorgRd_enc 2048 8 d (by decide)
  show ((Fmt.decChorg (16777216 + Fmt.encChorgRd 2048 d)).map (fun s => Instr.chorg s) <|> (Fmt.decChorgRd 2048 (16777216 + Fmt.encChorgRd 2048 d)).map (fun d => Instr.chorgRd d)) = _
  rw [show Fmt.decChorgRd 2048 (16777216 + Fmt.encChorgRd 2048 d) = _ from hd]
  rw [n0]
  rfl
theorem chset (s : BitVec 5) (d : BitVec 4) (l : BitVec 1) : Statement (.chset s d l) := by
  intro _ c
  have hlt := encChset_lt s d l
  show decodeInstr (wordOf c 0x36 (18874368 + Fmt.encChset s d l)) = _
  rw [at_36 c _ (by omega)]
  rw [show (18874368 + Fmt.encChset s d l) / 2097152 % 16 = 9 by omega]
  have hd := decChset_enc 9 s d l
  show ((Fmt.decChset (18874368 + Fmt.encChset s d l)).map (fun (s, d, l) => Instr.chset s d l)) = _
  exact congrArg (Option.map _) hd
theorem chcubic (p : BitVec 5) (d : BitVec 4) (e : BitVec 2) : Statement (.chcubic p d e) := by
  intro h c
  have hlt := encChcubic_lt 3 p d e (by decide)
  show decodeInstr (wordOf c 0x3F (2097152 + Fmt.encChcubic 3 p d e)) = _
  rw [at_3F c _ (by omega)]
  rw [show (2097152 + Fmt.encChcubic 3 p d e) / 2097152 % 16 = 1 by omega]
  have hd := decChcubic_enc 3 1 p d e (by decide)
  show ((Fmt.decChcubic 3 (2097152 + Fmt.encChcubic 3 p d e)).bind fun (p, d, e) => if e ≠ 3 then some (Instr.chcubic p d e) else none) = _
  rw [show Fmt.decChcubic 3 (2097152 + Fmt.encChcubic 3 p d e) = _ from hd]
  exact if_pos (by simpa [Instr.wellFormed, Instr.isWord, Instr.fieldsOk, and_assoc] using h)
theorem bkmodeOn (t : BitVec 5) (p : BitVec 5) (s : BitVec 2) (q : BitVec 1) (r : BitVec 1) : Statement (.bkmodeOn t p s q r) := by
  intro _ c
  have hlt := encEng_lt 1 t p s q r (by decide)
  show decodeInstr (wordOf c 0x3B (Fmt.encEng 1 t p s q r)) = _
  rw [at_3B c _ (by omega)]
  rw [show (Fmt.encEng 1 t p s q r) / 2097152 % 16 = 0 by omega]
  have hd := decEng_enc 1 0 t p s q r (by decide)
  rw [Nat.zero_mul, Nat.zero_add] at hd
  show ((Fmt.decEng 1 (Fmt.encEng 1 t p s q r)).map (fun (t, p, s, q, r) => Instr.bkmodeOn t p s q r) <|> (Fmt.decEng 0 (Fmt.encEng 1 t p s q r)).map (fun (t, p, s, q, r) => Instr.bkmodeOff t p s q r)) = _
  rw [show Fmt.decEng 1 (Fmt.encEng 1 t p s q r) = _ from hd]
  rfl
theorem bkmodeOff (t : BitVec 5) (p : BitVec 5) (s : BitVec 2) (q : BitVec 1) (r : BitVec 1) : Statement (.bkmodeOff t p s q r) := by
  intro _ c
  have hlt := encEng_lt 0 t p s q r (by decide)
  show decodeInstr (wordOf c 0x3B (Fmt.encEng 0 t p s q r)) = _
  rw [at_3B c _ (by omega)]
  rw [show (Fmt.encEng 0 t p s q r) / 2097152 % 16 = 0 by omega]
  have n0 : Fmt.decEng 1 (Fmt.encEng 0 t p s q r) = none := by
    unfold Fmt.decEng Fmt.encEng; have := t.isLt; have := p.isLt; have := s.isLt; have := q.isLt; have := r.isLt; exact if_neg (by omega)
  have hd := decEng_enc 0 0 t p s q r (by decide)
  rw [Nat.zero_mul, Nat.zero_add] at hd
  show ((Fmt.decEng 1 (Fmt.encEng 0 t p s q r)).map (fun (t, p, s, q, r) => Instr.bkmodeOn t p s q r) <|> (Fmt.decEng 0 (Fmt.encEng 0 t p s q r)).map (fun (t, p, s, q, r) => Instr.bkmodeOff t p s q r)) = _
  rw [show Fmt.decEng 0 (Fmt.encEng 0 t p s q r) = _ from hd]
  rw [n0]
  rfl
theorem bkload (t : BitVec 5) (p : BitVec 5) (s : BitVec 2) (q : BitVec 1) (r : BitVec 1) (f : BitVec 1) (sc : BitVec 1) : Statement (.bkload t p s q r f sc) := by
  intro _ c
  have hlt := encBkload_lt t p s q r f sc
  show decodeInstr (wordOf c 0x3B (2097152 + Fmt.encBkload t p s q r f sc)) = _
  rw [at_3B c _ (by omega)]
  rw [show (2097152 + Fmt.encBkload t p s q r f sc) / 2097152 % 16 = 1 by omega]
  have hd := decBkload_enc 1 t p s q r f sc
  show ((Fmt.decBkload (2097152 + Fmt.encBkload t p s q r f sc)).map (fun (t, p, s, q, r, f, sc) => Instr.bkload t p s q r f sc)) = _
  exact congrArg (Option.map _) hd
theorem bkmac (t : BitVec 5) (p : BitVec 5) (s : BitVec 2) (q : BitVec 1) (r : BitVec 1) (f : BitVec 1) (z : BitVec 1) : Statement (.bkmac t p s q r f z) := by
  intro _ c
  have hlt := encBkmac_lt t p s q r f z
  show decodeInstr (wordOf c 0x3B (4194304 + Fmt.encBkmac t p s q r f z)) = _
  rw [at_3B c _ (by omega)]
  rw [show (4194304 + Fmt.encBkmac t p s q r f z) / 2097152 % 16 = 2 by omega]
  have hd := decBkmac_enc 2 t p s q r f z
  show ((Fmt.decBkmac (4194304 + Fmt.encBkmac t p s q r f z)).map (fun (t, p, s, q, r, f, z) => Instr.bkmac t p s q r f z)) = _
  exact congrArg (Option.map _) hd
theorem bkread (t : BitVec 5) (p : BitVec 5) (s : BitVec 2) (q : BitVec 1) (r : BitVec 1) : Statement (.bkread t p s q r) := by
  intro _ c
  have hlt := encEng_lt 0 t p s q r (by decide)
  show decodeInstr (wordOf c 0x3B (6291456 + Fmt.encEng 0 t p s q r)) = _
  rw [at_3B c _ (by omega)]
  rw [show (6291456 + Fmt.encEng 0 t p s q r) / 2097152 % 16 = 3 by omega]
  have hd := decEng_enc 0 3 t p s q r (by decide)
  show ((Fmt.decEng 0 (6291456 + Fmt.encEng 0 t p s q r)).map (fun (t, p, s, q, r) => Instr.bkread t p s q r)) = _
  exact congrArg (Option.map _) hd
theorem bkcalCal (t : BitVec 5) (p : BitVec 5) (s : BitVec 2) (q : BitVec 1) (r : BitVec 1) : Statement (.bkcalCal t p s q r) := by
  intro _ c
  have hlt := encEng_lt 0 t p s q r (by decide)
  show decodeInstr (wordOf c 0x3B (8388608 + Fmt.encEng 0 t p s q r)) = _
  rw [at_3B c _ (by omega)]
  rw [show (8388608 + Fmt.encEng 0 t p s q r) / 2097152 % 16 = 4 by omega]
  have hd := decEng_enc 0 4 t p s q r (by decide)
  show ((Fmt.decEng 0 (8388608 + Fmt.encEng 0 t p s q r)).map (fun (t, p, s, q, r) => Instr.bkcalCal t p s q r) <|> (Fmt.decEng 1 (8388608 + Fmt.encEng 0 t p s q r)).map (fun (t, p, s, q, r) => Instr.bkcalBist t p s q r) <|> (Fmt.decEng 2 (8388608 + Fmt.encEng 0 t p s q r)).map (fun (t, p, s, q, r) => Instr.bkcalRemap t p s q r)) = _
  rw [show Fmt.decEng 0 (8388608 + Fmt.encEng 0 t p s q r) = _ from hd]
  rfl
theorem bkcalBist (t : BitVec 5) (p : BitVec 5) (s : BitVec 2) (q : BitVec 1) (r : BitVec 1) : Statement (.bkcalBist t p s q r) := by
  intro _ c
  have hlt := encEng_lt 1 t p s q r (by decide)
  show decodeInstr (wordOf c 0x3B (8388608 + Fmt.encEng 1 t p s q r)) = _
  rw [at_3B c _ (by omega)]
  rw [show (8388608 + Fmt.encEng 1 t p s q r) / 2097152 % 16 = 4 by omega]
  have n0 : Fmt.decEng 0 (8388608 + Fmt.encEng 1 t p s q r) = none := by
    unfold Fmt.decEng Fmt.encEng; have := t.isLt; have := p.isLt; have := s.isLt; have := q.isLt; have := r.isLt; exact if_neg (by omega)
  have hd := decEng_enc 1 4 t p s q r (by decide)
  show ((Fmt.decEng 0 (8388608 + Fmt.encEng 1 t p s q r)).map (fun (t, p, s, q, r) => Instr.bkcalCal t p s q r) <|> (Fmt.decEng 1 (8388608 + Fmt.encEng 1 t p s q r)).map (fun (t, p, s, q, r) => Instr.bkcalBist t p s q r) <|> (Fmt.decEng 2 (8388608 + Fmt.encEng 1 t p s q r)).map (fun (t, p, s, q, r) => Instr.bkcalRemap t p s q r)) = _
  rw [show Fmt.decEng 1 (8388608 + Fmt.encEng 1 t p s q r) = _ from hd]
  rw [n0]
  rfl
theorem bkcalRemap (t : BitVec 5) (p : BitVec 5) (s : BitVec 2) (q : BitVec 1) (r : BitVec 1) : Statement (.bkcalRemap t p s q r) := by
  intro _ c
  have hlt := encEng_lt 2 t p s q r (by decide)
  show decodeInstr (wordOf c 0x3B (8388608 + Fmt.encEng 2 t p s q r)) = _
  rw [at_3B c _ (by omega)]
  rw [show (8388608 + Fmt.encEng 2 t p s q r) / 2097152 % 16 = 4 by omega]
  have n0 : Fmt.decEng 0 (8388608 + Fmt.encEng 2 t p s q r) = none := by
    unfold Fmt.decEng Fmt.encEng; have := t.isLt; have := p.isLt; have := s.isLt; have := q.isLt; have := r.isLt; exact if_neg (by omega)
  have n1 : Fmt.decEng 1 (8388608 + Fmt.encEng 2 t p s q r) = none := by
    unfold Fmt.decEng Fmt.encEng; have := t.isLt; have := p.isLt; have := s.isLt; have := q.isLt; have := r.isLt; exact if_neg (by omega)
  have hd := decEng_enc 2 4 t p s q r (by decide)
  show ((Fmt.decEng 0 (8388608 + Fmt.encEng 2 t p s q r)).map (fun (t, p, s, q, r) => Instr.bkcalCal t p s q r) <|> (Fmt.decEng 1 (8388608 + Fmt.encEng 2 t p s q r)).map (fun (t, p, s, q, r) => Instr.bkcalBist t p s q r) <|> (Fmt.decEng 2 (8388608 + Fmt.encEng 2 t p s q r)).map (fun (t, p, s, q, r) => Instr.bkcalRemap t p s q r)) = _
  rw [show Fmt.decEng 2 (8388608 + Fmt.encEng 2 t p s q r) = _ from hd]
  rw [n0, n1]
  rfl
theorem bkstat (t : BitVec 5) (p : BitVec 5) (s : BitVec 2) (q : BitVec 1) (r : BitVec 1) : Statement (.bkstat t p s q r) := by
  intro _ c
  have hlt := encEng_lt 0 t p s q r (by decide)
  show decodeInstr (wordOf c 0x3B (10485760 + Fmt.encEng 0 t p s q r)) = _
  rw [at_3B c _ (by omega)]
  rw [show (10485760 + Fmt.encEng 0 t p s q r) / 2097152 % 16 = 5 by omega]
  have hd := decEng_enc 0 5 t p s q r (by decide)
  show ((Fmt.decEng 0 (10485760 + Fmt.encEng 0 t p s q r)).map (fun (t, p, s, q, r) => Instr.bkstat t p s q r)) = _
  exact congrArg (Option.map _) hd
theorem collRed (t : BitVec 5) (p : BitVec 5) (s : BitVec 2) (q : BitVec 1) (r : BitVec 1) : Statement (.collRed t p s q r) := by
  intro _ c
  have hlt := encEng_lt 0 t p s q r (by decide)
  show decodeInstr (wordOf c 0x3C (Fmt.encEng 0 t p s q r)) = _
  rw [at_3C c _ (by omega)]
  rw [show (Fmt.encEng 0 t p s q r) / 2097152 % 16 = 0 by omega]
  have hd := decEng_enc 0 0 t p s q r (by decide)
  rw [Nat.zero_mul, Nat.zero_add] at hd
  show ((Fmt.decEng 0 (Fmt.encEng 0 t p s q r)).map (fun (t, p, s, q, r) => Instr.collRed t p s q r)) = _
  exact congrArg (Option.map _) hd
theorem collRedq (t : BitVec 5) (p : BitVec 5) (s : BitVec 2) (q : BitVec 1) (r : BitVec 1) : Statement (.collRedq t p s q r) := by
  intro _ c
  have hlt := encEng_lt 0 t p s q r (by decide)
  show decodeInstr (wordOf c 0x3C (2097152 + Fmt.encEng 0 t p s q r)) = _
  rw [at_3C c _ (by omega)]
  rw [show (2097152 + Fmt.encEng 0 t p s q r) / 2097152 % 16 = 1 by omega]
  have hd := decEng_enc 0 1 t p s q r (by decide)
  show ((Fmt.decEng 0 (2097152 + Fmt.encEng 0 t p s q r)).map (fun (t, p, s, q, r) => Instr.collRedq t p s q r)) = _
  exact congrArg (Option.map _) hd
theorem collBcast (t : BitVec 5) (p : BitVec 5) (s : BitVec 2) (q : BitVec 1) (r : BitVec 1) : Statement (.collBcast t p s q r) := by
  intro _ c
  have hlt := encEng_lt 0 t p s q r (by decide)
  show decodeInstr (wordOf c 0x3C (4194304 + Fmt.encEng 0 t p s q r)) = _
  rw [at_3C c _ (by omega)]
  rw [show (4194304 + Fmt.encEng 0 t p s q r) / 2097152 % 16 = 2 by omega]
  have hd := decEng_enc 0 2 t p s q r (by decide)
  show ((Fmt.decEng 0 (4194304 + Fmt.encEng 0 t p s q r)).map (fun (t, p, s, q, r) => Instr.collBcast t p s q r)) = _
  exact congrArg (Option.map _) hd
theorem collGather (t : BitVec 5) (p : BitVec 5) (s : BitVec 2) (q : BitVec 1) (r : BitVec 1) : Statement (.collGather t p s q r) := by
  intro _ c
  have hlt := encEng_lt 0 t p s q r (by decide)
  show decodeInstr (wordOf c 0x3C (6291456 + Fmt.encEng 0 t p s q r)) = _
  rw [at_3C c _ (by omega)]
  rw [show (6291456 + Fmt.encEng 0 t p s q r) / 2097152 % 16 = 3 by omega]
  have hd := decEng_enc 0 3 t p s q r (by decide)
  show ((Fmt.decEng 0 (6291456 + Fmt.encEng 0 t p s q r)).map (fun (t, p, s, q, r) => Instr.collGather t p s q r)) = _
  exact congrArg (Option.map _) hd
theorem lput (t : BitVec 5) (p : BitVec 5) (s : BitVec 2) (q : BitVec 1) (r : BitVec 1) : Statement (.lput t p s q r) := by
  intro _ c
  have hlt := encEng_lt 0 t p s q r (by decide)
  show decodeInstr (wordOf c 0x3C (8388608 + Fmt.encEng 0 t p s q r)) = _
  rw [at_3C c _ (by omega)]
  rw [show (8388608 + Fmt.encEng 0 t p s q r) / 2097152 % 16 = 4 by omega]
  have hd := decEng_enc 0 4 t p s q r (by decide)
  show ((Fmt.decEng 0 (8388608 + Fmt.encEng 0 t p s q r)).map (fun (t, p, s, q, r) => Instr.lput t p s q r)) = _
  exact congrArg (Option.map _) hd
theorem lget (t : BitVec 5) (p : BitVec 5) (s : BitVec 2) (q : BitVec 1) (r : BitVec 1) : Statement (.lget t p s q r) := by
  intro _ c
  have hlt := encEng_lt 0 t p s q r (by decide)
  show decodeInstr (wordOf c 0x3C (10485760 + Fmt.encEng 0 t p s q r)) = _
  rw [at_3C c _ (by omega)]
  rw [show (10485760 + Fmt.encEng 0 t p s q r) / 2097152 % 16 = 5 by omega]
  have hd := decEng_enc 0 5 t p s q r (by decide)
  show ((Fmt.decEng 0 (10485760 + Fmt.encEng 0 t p s q r)).map (fun (t, p, s, q, r) => Instr.lget t p s q r)) = _
  exact congrArg (Option.map _) hd
theorem trap (n : BitVec 14) : Statement (.trap n) := by
  intro _ c
  have hlt := encImm14_lt n
  show decodeInstr (wordOf c 0x3D (Fmt.encImm14 n)) = _
  rw [at_3D c _ (by omega)]
  rw [show (Fmt.encImm14 n) / 2097152 % 16 = 0 by omega]
  have hd := decImm14_enc 0 n
  rw [Nat.zero_mul, Nat.zero_add] at hd
  show ((Fmt.decImm14 (Fmt.encImm14 n)).map (fun n => Instr.trap n)) = _
  exact congrArg (Option.map _) hd
theorem tret : Statement (.tret) := by
  intro _ c
  have hlt := encFix_lt 0 (by decide)
  show decodeInstr (wordOf c 0x3D (2097152 + Fmt.encFix 0)) = _
  rw [at_3D c _ (by omega)]
  rw [show (2097152 + Fmt.encFix 0) / 2097152 % 16 = 1 by omega]
  have hd := decFix_enc 0 1 (by decide)
  show ((Fmt.decFix 0 (2097152 + Fmt.encFix 0)).map (fun _ => Instr.tret)) = _
  exact congrArg (Option.map _) hd
theorem tlbinvPage (o : BitVec 7) (n : BitVec 6) : Statement (.tlbinvPage o n) := by
  intro _ c
  have hlt := encTlbinvPage_lt o n
  show decodeInstr (wordOf c 0x3D (4194304 + Fmt.encTlbinvPage o n)) = _
  rw [at_3D c _ (by omega)]
  rw [show (4194304 + Fmt.encTlbinvPage o n) / 2097152 % 16 = 2 by omega]
  have hd := decTlbinvPage_enc 2 o n
  show ((Fmt.decTlbinvPage (4194304 + Fmt.encTlbinvPage o n)).map (fun (o, n) => Instr.tlbinvPage o n) <|> (Fmt.decTlbinvCtx 1 (4194304 + Fmt.encTlbinvPage o n)).map (fun n => Instr.tlbinvCtx n) <|> (Fmt.decFix 2 (4194304 + Fmt.encTlbinvPage o n)).map (fun _ => Instr.tlbinvAll)) = _
  rw [show Fmt.decTlbinvPage (4194304 + Fmt.encTlbinvPage o n) = _ from hd]
  rfl
theorem tlbinvCtx (n : BitVec 6) : Statement (.tlbinvCtx n) := by
  intro _ c
  have hlt := encTlbinvCtx_lt 1 n (by decide)
  show decodeInstr (wordOf c 0x3D (4194304 + Fmt.encTlbinvCtx 1 n)) = _
  rw [at_3D c _ (by omega)]
  rw [show (4194304 + Fmt.encTlbinvCtx 1 n) / 2097152 % 16 = 2 by omega]
  have n0 : Fmt.decTlbinvPage (4194304 + Fmt.encTlbinvCtx 1 n) = none := by
    unfold Fmt.decTlbinvPage Fmt.encTlbinvCtx; have := n.isLt; exact if_neg (by omega)
  have hd := decTlbinvCtx_enc 1 2 n (by decide)
  show ((Fmt.decTlbinvPage (4194304 + Fmt.encTlbinvCtx 1 n)).map (fun (o, n) => Instr.tlbinvPage o n) <|> (Fmt.decTlbinvCtx 1 (4194304 + Fmt.encTlbinvCtx 1 n)).map (fun n => Instr.tlbinvCtx n) <|> (Fmt.decFix 2 (4194304 + Fmt.encTlbinvCtx 1 n)).map (fun _ => Instr.tlbinvAll)) = _
  rw [show Fmt.decTlbinvCtx 1 (4194304 + Fmt.encTlbinvCtx 1 n) = _ from hd]
  rw [n0]
  rfl
theorem tlbinvAll : Statement (.tlbinvAll) := by
  intro _ c
  have hlt := encFix_lt 2 (by decide)
  show decodeInstr (wordOf c 0x3D (4194304 + Fmt.encFix 2)) = _
  rw [at_3D c _ (by omega)]
  rw [show (4194304 + Fmt.encFix 2) / 2097152 % 16 = 2 by omega]
  have n0 : Fmt.decTlbinvPage (4194304 + Fmt.encFix 2) = none := by
    unfold Fmt.decTlbinvPage Fmt.encFix; exact if_neg (by omega)
  have n1 : Fmt.decTlbinvCtx 1 (4194304 + Fmt.encFix 2) = none := by
    unfold Fmt.decTlbinvCtx Fmt.encFix; exact if_neg (by omega)
  have hd := decFix_enc 2 2 (by decide)
  show ((Fmt.decTlbinvPage (4194304 + Fmt.encFix 2)).map (fun (o, n) => Instr.tlbinvPage o n) <|> (Fmt.decTlbinvCtx 1 (4194304 + Fmt.encFix 2)).map (fun n => Instr.tlbinvCtx n) <|> (Fmt.decFix 2 (4194304 + Fmt.encFix 2)).map (fun _ => Instr.tlbinvAll)) = _
  rw [show Fmt.decFix 2 (4194304 + Fmt.encFix 2) = _ from hd]
  rw [n0, n1]
  rfl
theorem l2way (o : BitVec 7) : Statement (.l2way o) := by
  intro _ c
  have hlt := encBarArrive_lt 0 o (by decide)
  show decodeInstr (wordOf c 0x3D (6291456 + Fmt.encBarArrive 0 o)) = _
  rw [at_3D c _ (by omega)]
  rw [show (6291456 + Fmt.encBarArrive 0 o) / 2097152 % 16 = 3 by omega]
  have hd := decBarArrive_enc 0 3 o (by decide)
  show ((Fmt.decBarArrive 0 (6291456 + Fmt.encBarArrive 0 o)).map (fun o => Instr.l2way o) <|> (Fmt.decBarArrive 1 (6291456 + Fmt.encBarArrive 0 o)).map (fun o => Instr.l2wayRd o)) = _
  rw [show Fmt.decBarArrive 0 (6291456 + Fmt.encBarArrive 0 o) = _ from hd]
  rfl
theorem l2wayRd (o : BitVec 7) : Statement (.l2wayRd o) := by
  intro _ c
  have hlt := encBarArrive_lt 1 o (by decide)
  show decodeInstr (wordOf c 0x3D (6291456 + Fmt.encBarArrive 1 o)) = _
  rw [at_3D c _ (by omega)]
  rw [show (6291456 + Fmt.encBarArrive 1 o) / 2097152 % 16 = 3 by omega]
  have n0 : Fmt.decBarArrive 0 (6291456 + Fmt.encBarArrive 1 o) = none := by
    unfold Fmt.decBarArrive Fmt.encBarArrive; have := o.isLt; exact if_neg (by omega)
  have hd := decBarArrive_enc 1 3 o (by decide)
  show ((Fmt.decBarArrive 0 (6291456 + Fmt.encBarArrive 1 o)).map (fun o => Instr.l2way o) <|> (Fmt.decBarArrive 1 (6291456 + Fmt.encBarArrive 1 o)).map (fun o => Instr.l2wayRd o)) = _
  rw [show Fmt.decBarArrive 1 (6291456 + Fmt.encBarArrive 1 o) = _ from hd]
  rw [n0]
  rfl
theorem stop : Statement (.stop) := by
  intro _ c
  have hlt := encFix_lt 0 (by decide)
  show decodeInstr (wordOf c 0x3D (8388608 + Fmt.encFix 0)) = _
  rw [at_3D c _ (by omega)]
  rw [show (8388608 + Fmt.encFix 0) / 2097152 % 16 = 4 by omega]
  have hd := decFix_enc 0 4 (by decide)
  show ((Fmt.decFix 0 (8388608 + Fmt.encFix 0)).map (fun _ => Instr.stop)) = _
  exact congrArg (Option.map _) hd
theorem sndgOn (o : BitVec 7) : Statement (.sndgOn o) := by
  intro _ c
  have hlt := encBarArrive_lt 0 o (by decide)
  show decodeInstr (wordOf c 0x3D (10485760 + Fmt.encBarArrive 0 o)) = _
  rw [at_3D c _ (by omega)]
  rw [show (10485760 + Fmt.encBarArrive 0 o) / 2097152 % 16 = 5 by omega]
  have hd := decBarArrive_enc 0 5 o (by decide)
  show ((Fmt.decBarArrive 0 (10485760 + Fmt.encBarArrive 0 o)).map (fun o => Instr.sndgOn o) <|> (Fmt.decFix 1 (10485760 + Fmt.encBarArrive 0 o)).map (fun _ => Instr.sndgOff) <|> (Fmt.decBarArrive 2 (10485760 + Fmt.encBarArrive 0 o)).map (fun o => Instr.sndgRd o)) = _
  rw [show Fmt.decBarArrive 0 (10485760 + Fmt.encBarArrive 0 o) = _ from hd]
  rfl
theorem sndgOff : Statement (.sndgOff) := by
  intro _ c
  have hlt := encFix_lt 1 (by decide)
  show decodeInstr (wordOf c 0x3D (10485760 + Fmt.encFix 1)) = _
  rw [at_3D c _ (by omega)]
  rw [show (10485760 + Fmt.encFix 1) / 2097152 % 16 = 5 by omega]
  have n0 : Fmt.decBarArrive 0 (10485760 + Fmt.encFix 1) = none := by
    unfold Fmt.decBarArrive Fmt.encFix; exact if_neg (by omega)
  have hd := decFix_enc 1 5 (by decide)
  show ((Fmt.decBarArrive 0 (10485760 + Fmt.encFix 1)).map (fun o => Instr.sndgOn o) <|> (Fmt.decFix 1 (10485760 + Fmt.encFix 1)).map (fun _ => Instr.sndgOff) <|> (Fmt.decBarArrive 2 (10485760 + Fmt.encFix 1)).map (fun o => Instr.sndgRd o)) = _
  rw [show Fmt.decFix 1 (10485760 + Fmt.encFix 1) = _ from hd]
  rw [n0]
  rfl
theorem sndgRd (o : BitVec 7) : Statement (.sndgRd o) := by
  intro _ c
  have hlt := encBarArrive_lt 2 o (by decide)
  show decodeInstr (wordOf c 0x3D (10485760 + Fmt.encBarArrive 2 o)) = _
  rw [at_3D c _ (by omega)]
  rw [show (10485760 + Fmt.encBarArrive 2 o) / 2097152 % 16 = 5 by omega]
  have n0 : Fmt.decBarArrive 0 (10485760 + Fmt.encBarArrive 2 o) = none := by
    unfold Fmt.decBarArrive Fmt.encBarArrive; have := o.isLt; exact if_neg (by omega)
  have n1 : Fmt.decFix 1 (10485760 + Fmt.encBarArrive 2 o) = none := by
    unfold Fmt.decFix Fmt.encBarArrive; have := o.isLt; exact if_neg (by omega)
  have hd := decBarArrive_enc 2 5 o (by decide)
  show ((Fmt.decBarArrive 0 (10485760 + Fmt.encBarArrive 2 o)).map (fun o => Instr.sndgOn o) <|> (Fmt.decFix 1 (10485760 + Fmt.encBarArrive 2 o)).map (fun _ => Instr.sndgOff) <|> (Fmt.decBarArrive 2 (10485760 + Fmt.encBarArrive 2 o)).map (fun o => Instr.sndgRd o)) = _
  rw [show Fmt.decBarArrive 2 (10485760 + Fmt.encBarArrive 2 o) = _ from hd]
  rw [n0, n1]
  rfl

end Sys2Proof.Laws.Encoding
end

