-- ==== Sys2Proof/Laws/Words.lean ====
section
/-! SUPPORT. What a word of each operand form answers when nothing holds it back. -/

set_option Elab.async false

namespace Sys2Proof.Machine

variable {s : State} {u : Issue} {g : Group}

theorem regOk_one (f : BitVec 7) : regOk f 1 = true := rfl
theorem regOk_two (f : BitVec 7) : regOk f 2 = isEven f := by simp [regOk]

/-- The operand limits of a register form, said as its statements say them. -/
theorem rrrSig_opnd {d : BitVec 7} {nd : Nat} {src : List (BitVec 7 × Nat)} (hd : regOk d nd = true) (hs : ∀ e ∈ src, regOk e.1 e.2 = true)
    (hu : uniformOk d (src.map (·.1))) : (rrrSig d nd src).opnd = true := by
  have h2 : src.all (fun e => regOk e.1 e.2) = true := by simpa [List.all_eq_true] using hs
  have h3 : (!isS d || src.all fun e => isS e.1) = true := by
    cases h : isS d with
    | false => rfl
    | true =>
      have := hu h
      simp only [Bool.not_true, Bool.false_or, List.all_eq_true]
      intro e he
      exact this e.1 (List.mem_map_of_mem he)
  simp [rrrSig, hd, h2, h3]

theorem Ops.alu0_next {d : BitVec 7} {f : Word → Word} (hi : Issuing s u g) (hc : Clear s (u.ctx g) [use d]) :
    Ops.alu0 d f s = .next (State.wordDone u (s.putRegs (u.ctx g) d.toNat fun l => [f ((u.ctx g).rd d l)])) :=
  Ops.word_ok hi (by simp [rrrSig]) (rrrSig_opnd (regOk_one d) (by simp) (by simp [uniformOk])) hc rfl

theorem Ops.alu1_next {d a : BitVec 7} {f : Word → Word} (hi : Issuing s u g) (hu : uniformOk d [a]) (hc : Clear s (u.ctx g) [use d, use a]) :
    Ops.alu1 d a f s = .next (State.wordDone u (s.putRegs (u.ctx g) d.toNat fun l => [f ((u.ctx g).rd a l)])) :=
  Ops.word_ok hi (by simp [rrrSig]) (rrrSig_opnd (regOk_one d) (by simp [regOk_one]) hu) hc rfl

theorem Ops.alu2_next {d a b : BitVec 7} {f : Word → Word → Word} (hi : Issuing s u g) (hu : uniformOk d [a, b])
    (hc : Clear s (u.ctx g) [use d, use a, use b]) :
    Ops.alu2 d a b f s = .next (State.wordDone u (s.putRegs (u.ctx g) d.toNat fun l => [f ((u.ctx g).rd a l) ((u.ctx g).rd b l)])) :=
  Ops.word_ok hi (by simp [rrrSig]) (rrrSig_opnd (regOk_one d) (by simp [regOk_one]) hu) hc rfl

theorem Ops.alu3_next {d a b : BitVec 7} {f : Word → Word → Word → Word} (hi : Issuing s u g) (hu : uniformOk d [a, b])
    (hc : Clear s (u.ctx g) [use d, use a, use b]) :
    Ops.alu3 d a b f s =
      .next (State.wordDone u (s.putRegs (u.ctx g) d.toNat fun l => [f ((u.ctx g).rd d l) ((u.ctx g).rd a l) ((u.ctx g).rd b l)])) :=
  Ops.word_ok hi (by simp [rrrSig]) (rrrSig_opnd (regOk_one d) (by simp [regOk_one]) hu) hc rfl

theorem Ops.pair2_next {d a b : BitVec 7} {f : DWord → DWord → DWord} (hi : Issuing s u g) (hd : isEven d = true) (ha : isEven a = true)
    (hb : isEven b = true) (hu : uniformOk d [a, b]) (hc : Clear s (u.ctx g) [useN d 2, useN a 2, useN b 2]) :
    Ops.pair2 d a b f s =
      .next (State.wordDone u (s.putRegs (u.ctx g) d.toNat fun l => pairList (f ((u.ctx g).rd64 a l) ((u.ctx g).rd64 b l)))) :=
  Ops.word_ok hi (by simp [rrrSig]) (rrrSig_opnd (by simp [regOk_two, hd]) (by simp [regOk_two, ha, hb]) hu) hc rfl

theorem Ops.pairWord_next {d a b : BitVec 7} {f : DWord → Word → DWord} (hi : Issuing s u g) (hd : isEven d = true) (ha : isEven a = true)
    (hu : uniformOk d [a, b]) (hc : Clear s (u.ctx g) [useN d 2, useN a 2, use b]) :
    Ops.pairWord d a b f s =
      .next (State.wordDone u (s.putRegs (u.ctx g) d.toNat fun l => pairList (f ((u.ctx g).rd64 a l) ((u.ctx g).rd b l)))) :=
  Ops.word_ok hi (by simp [rrrSig]) (rrrSig_opnd (by simp [regOk_two, hd]) (by simp [regOk_two, regOk_one, ha]) hu) hc rfl

theorem Ops.widen_next {d a : BitVec 7} {f : Word → DWord} (hi : Issuing s u g) (hd : isEven d = true) (hu : uniformOk d [a])
    (hc : Clear s (u.ctx g) [useN d 2, use a]) :
    Ops.widen d a f s = .next (State.wordDone u (s.putRegs (u.ctx g) d.toNat fun l => pairList (f ((u.ctx g).rd a l)))) :=
  Ops.word_ok hi (by simp [rrrSig]) (rrrSig_opnd (by simp [regOk_two, hd]) (by simp [regOk_one]) hu) hc rfl

theorem Ops.cmp_next {d : BitVec 3} {a b : BitVec 7} {p : Word → Word → Bool} (hi : Issuing s u g) (hc : Clear s (u.ctx g) [use a, use b]) :
    Ops.cmp d a b p s =
      .next (State.wordDone u (s.putMask (u.ctx g) d.toNat ((u.ctx g).whereIn fun l => p ((u.ctx g).rd a l) ((u.ctx g).rd b l)))) :=
  Ops.word_ok hi (by simp) rfl hc rfl

theorem Ops.cmp64_next {d : BitVec 3} {a b : BitVec 7} {p : DWord → DWord → Bool} (hi : Issuing s u g) (ha : isEven a = true)
    (hb : isEven b = true) (hc : Clear s (u.ctx g) [useN a 2, useN b 2]) :
    Ops.cmp64 d a b p s =
      .next (State.wordDone u (s.putMask (u.ctx g) d.toNat ((u.ctx g).whereIn fun l => p ((u.ctx g).rd64 a l) ((u.ctx g).rd64 b l)))) :=
  Ops.word_ok hi (by simp) (by simp [ha, hb]) hc rfl

theorem Ops.mask2_next {d a b : BitVec 3} {f : LaneSet → LaneSet → LaneSet} (hi : Issuing s u g) (hc : Clear s (u.ctx g) []) :
    Ops.mask2 d a b f s = .next (State.wordDone u (s.putMask (u.ctx g) d.toNat
      (f ((u.ctx g).g.readM (u.ctx g).exec a.toNat) ((u.ctx g).g.readM (u.ctx g).exec b.toNat)))) :=
  Ops.word_ok hi (by simp [plainSig]) rfl hc rfl

theorem Ops.maskToS_next {d : BitVec 7} {a : BitVec 3} {f : LaneSet → Word} (hi : Issuing s u g) (hd : isS d = true) (hc : Clear s (u.ctx g) [use d]) :
    Ops.maskToS d a f s =
      .next (State.wordDone u (s.putRegs (u.ctx g) d.toNat fun _ => [f ((u.ctx g).g.readM (u.ctx g).exec a.toNat)])) :=
  Ops.word_ok hi (by simp [plainSig]) (by simp [hd]) hc rfl

/-- A floating word that raises no enabled exception. -/
theorem Ops.fpu_next {d : BitVec 7} {nd : Nat} {src : List (BitVec 7 × Nat)} {f : Ctx → Nat → FOut} (hi : Issuing s u g)
    (ho : (rrrSig d nd src).opnd = true) (hc : Clear s (u.ctx g) (rrrSig d nd src).uses)
    (hn : (u.ctx g).fpe (((u.ctx g).sigLanes (isS d)).map fun l => (l, (f (u.ctx g) l).flags)) = none) :
    Ops.fpu d nd src f s = .next (State.wordDone u ((s.putRegs (u.ctx g) d.toNat fun l => (f (u.ctx g) l).words).orFlags (u.ctx g)
      (orAll (((u.ctx g).sigLanes (isS d)).map fun l => (f (u.ctx g) l).flags)))) := by
  refine Ops.word_ok hi (by simp [rrrSig]) ho hc ?_
  simp only [hn, List.map_map]
  rfl

/-- One that does. -/
theorem Ops.fpu_trap {d : BitVec 7} {nd : Nat} {src : List (BitVec 7 × Nat)} {f : Ctx → Nat → FOut} {t : Trap} (hi : Issuing s u g)
    (ho : (rrrSig d nd src).opnd = true) (hc : Clear s (u.ctx g) (rrrSig d nd src).uses)
    (hn : (u.ctx g).fpe (((u.ctx g).sigLanes (isS d)).map fun l => (l, (f (u.ctx g) l).flags)) = some t) :
    Ops.fpu d nd src f s = .next (s.wordTrapped u t) := by
  refine Ops.word_trap hi (by simp [rrrSig]) ho hc ?_
  simp only [hn]

theorem State.issueLong_ok {c : Ctx} {op : LongOp} {g : Group} (hf : Tab.find s.groups c.u.group = some g) (hn : g.flagCount c.u.flag < 63) :
    s.issueLong c op = .ok ({ s with nextId := s.nextId + 1 }.onGroup c.u.group fun g =>
      { g with longs := Tab.put g.longs s.nextId { op with since := s.nowOf g } }) := by
  simp [State.issueLong, hf, Nat.not_le.2 hn]

end Sys2Proof.Machine
end

