-- ==== Sys2Proof/Tests/Slice0.lean ====
section
/-! SUPPORT. Tests: words of every row of the opcode table, ill-formed terms refused, single steps with results worked out from the spec's own
examples and tables, and for each statement a state and operands that meet its hypotheses. -/

set_option Elab.async false

namespace Sys2Proof.Tests

open Sys2Proof Sys2Proof.Machine Sys2Proof.Claims

/-! Decoding: for each row of the opcode table the word that its match and one value for each of its fields make (spec/opcode_table.json),
and the instruction with those field values. -/

theorem test_decode_control_and_mask :
    (decodeWord 0x03A6B6B3 = .ok (.br 1 5 439987))
    ∧ (decodeWord 0x0402D2D5 = .ok (.call 185045))
    ∧ (decodeWord 0x06000000 = .ok .ret)
    ∧ (decodeWord 0x06354000 = .ok (.jmpi 85))
    ∧ (decodeWord 0x06554000 = .ok (.calli 85))
    ∧ (decodeWord 0x06617575 = .ok (.join 5 13685))
    ∧ (decodeWord 0x06800000 = .ok .exit)
    ∧ (decodeWord 0x06A00015 = .ok (.yield 21))
    ∧ (decodeWord 0x06C012D5 = .ok (.sleep 4821))
    ∧ (decodeWord 0x06E00005 = .ok (.progress 5))
    ∧ (decodeWord 0x070000D5 = .ok (.brkpt 213))
    ∧ (decodeWord 0x08014283 = .ok (.mand 5 5 3))
    ∧ (decodeWord 0x08214283 = .ok (.mor 5 5 3))
    ∧ (decodeWord 0x08414283 = .ok (.mxor 5 5 3))
    ∧ (decodeWord 0x08614283 = .ok (.mandn 5 5 3))
    ∧ (decodeWord 0x08814280 = .ok (.mnot 5 5))
    ∧ (decodeWord 0x08A14280 = .ok (.mmov 5 5))
    ∧ (decodeWord 0x08C14000 = .ok (.mall 5))
    ∧ (decodeWord 0x08E14000 = .ok (.mnone 5))
    ∧ (decodeWord 0x09154280 = .ok (.mpopc 85 5))
    ∧ (decodeWord 0x09354280 = .ok (.mfirst 85 5))
    ∧ (decodeWord 0x09554283 = .ok (.mtos 85 5 3))
    ∧ (decodeWord 0x09617A83 = .ok (.stom 5 117 3))
    ∧ (decodeWord 0x09817A80 = .ok (.mlanes 5 117)) := by
  and_intros <;> exact rfl

theorem test_decode_integer :
    (decodeWord 0x10157AB3 = .ok (.addI32 85 117 51))
    ∧ (decodeWord 0x10357AB3 = .ok (.subI32 85 117 51))
    ∧ (decodeWord 0x10557AB3 = .ok (.mulloI32 85 117 51))
    ∧ (decodeWord 0x10757AB3 = .ok (.mulhiI32 85 117 51))
    ∧ (decodeWord 0x10957AB3 = .ok (.mulhiN32 85 117 51))
    ∧ (decodeWord 0x10B57AB3 = .ok (.and 85 117 51))
    ∧ (decodeWord 0x10D57AB3 = .ok (.or 85 117 51))
    ∧ (decodeWord 0x10F57AB3 = .ok (.xor 85 117 51))
    ∧ (decodeWord 0x11157AB3 = .ok (.andn 85 117 51))
    ∧ (decodeWord 0x11357AB3 = .ok (.shl 85 117 51))
    ∧ (decodeWord 0x11557AB3 = .ok (.shrN32 85 117 51))
    ∧ (decodeWord 0x11757AB3 = .ok (.shrI32 85 117 51))
    ∧ (decodeWord 0x11957AB3 = .ok (.rotl 85 117 51))
    ∧ (decodeWord 0x11B57AB3 = .ok (.minI32 85 117 51))
    ∧ (decodeWord 0x11D57AB3 = .ok (.maxI32 85 117 51))
    ∧ (decodeWord 0x11F57AB3 = .ok (.minN32 85 117 51))
    ∧ (decodeWord 0x12157AB3 = .ok (.maxN32 85 117 51))
    ∧ (decodeWord 0x12357A80 = .ok (.absI32 85 117))
    ∧ (decodeWord 0x12557A80 = .ok (.popc 85 117))
    ∧ (decodeWord 0x12757A80 = .ok (.clz 85 117))
    ∧ (decodeWord 0x12957A80 = .ok (.brev 85 117))
    ∧ (decodeWord 0x12B57AB3 = .ok (.bfeN32 85 117 51))
    ∧ (decodeWord 0x12D57AB3 = .ok (.bfeI32 85 117 51))
    ∧ (decodeWord 0x12F57AB3 = .ok (.bfi 85 117 51))
    ∧ (decodeWord 0x13BD59D9 = .ok (.sel 5 117 51 89))
    ∧ (decodeWord 0x1557AEB3 = .ok (.addi 85 117 1715))
    ∧ (decodeWord 0x1757AEB3 = .ok (.andi 85 117 1715)) := by
  and_intros <;> exact rfl

theorem test_decode_compare_and_pair_1 :
    (decodeWord 0x1957AEB3 = .ok (.ori 85 117 1715))
    ∧ (decodeWord 0x1B57AEB3 = .ok (.xori 85 117 1715))
    ∧ (decodeWord 0x1D547575 = .ok (.movzLo 85 30069))
    ∧ (decodeWord 0x1D557575 = .ok (.movzHi 85 30069))
    ∧ (decodeWord 0x1D567575 = .ok (.movkLo 85 30069))
    ∧ (decodeWord 0x1D577575 = .ok (.movkHi 85 30069))
    ∧ (decodeWord 0x1E017AB3 = .ok (.icmpEq 5 117 51))
    ∧ (decodeWord 0x1E217AB3 = .ok (.icmpNe 5 117 51))
    ∧ (decodeWord 0x1E417AB3 = .ok (.icmpLtI32 5 117 51))
    ∧ (decodeWord 0x1E617AB3 = .ok (.icmpLeI32 5 117 51))
    ∧ (decodeWord 0x1E817AB3 = .ok (.icmpGtI32 5 117 51))
    ∧ (decodeWord 0x1EA17AB3 = .ok (.icmpGeI32 5 117 51))
    ∧ (decodeWord 0x1EC17AB3 = .ok (.icmpLtN32 5 117 51))
    ∧ (decodeWord 0x1EE17AB3 = .ok (.icmpLeN32 5 117 51))
    ∧ (decodeWord 0x1F017AB3 = .ok (.icmpGtN32 5 117 51))
    ∧ (decodeWord 0x1F217AB3 = .ok (.icmpGeN32 5 117 51))
    ∧ (decodeWord 0x1F417AB3 = .ok (.icmpEqI64 5 117 51))
    ∧ (decodeWord 0x1F617AB3 = .ok (.icmpLtI64 5 117 51))
    ∧ (decodeWord 0x1F817AB3 = .ok (.icmpLtN64 5 117 51))
    ∧ (decodeWord 0x20157AB3 = .ok (.addI64 85 117 51))
    ∧ (decodeWord 0x20357AB3 = .ok (.subI64 85 117 51))
    ∧ (decodeWord 0x20557AB3 = .ok (.mulI64 85 117 51))
    ∧ (decodeWord 0x20757AB3 = .ok (.shlI64 85 117 51))
    ∧ (decodeWord 0x20957AB3 = .ok (.shrN64 85 117 51))
    ∧ (decodeWord 0x20B57AB3 = .ok (.shrI64 85 117 51))
    ∧ (decodeWord 0x20D57A80 = .ok (.sextI64 85 117))
    ∧ (decodeWord 0x20F57A80 = .ok (.zextI64 85 117))
    ∧ (decodeWord 0x21157AB3 = .ok (.leaX1 85 117 51))
    ∧ (decodeWord 0x21357AB3 = .ok (.leaX2 85 117 51))
    ∧ (decodeWord 0x21557AB3 = .ok (.leaX4 85 117 51))
    ∧ (decodeWord 0x21757AB3 = .ok (.leaX8 85 117 51))
    ∧ (decodeWord 0x21957AB3 = .ok (.leaX16 85 117 51))
    ∧ (decodeWord 0x22157AB3 = .ok (.addI16x2 85 117 51))
    ∧ (decodeWord 0x22357AB3 = .ok (.subI16x2 85 117 51))
    ∧ (decodeWord 0x22557AB3 = .ok (.addsI16x2 85 117 51))
    ∧ (decodeWord 0x22757AB3 = .ok (.subsI16x2 85 117 51))
    ∧ (decodeWord 0x22957AB3 = .ok (.minI16x2 85 117 51))
    ∧ (decodeWord 0x22B57AB3 = .ok (.maxI16x2 85 117 51))
    ∧ (decodeWord 0x22D57AB3 = .ok (.gtbitsI16x2 85 117 51))
    ∧ (decodeWord 0x22F57AB3 = .ok (.shrI16x2 85 117 51)) := by
  and_intros <;> exact rfl

theorem test_decode_compare_and_pair_2 :
    (decodeWord 0x23157AB3 = .ok (.packI16x2 85 117 51))
    ∧ (decodeWord 0x23357A80 = .ok (.sext8 85 117))
    ∧ (decodeWord 0x23557A80 = .ok (.sext16 85 117))
    ∧ (decodeWord 0x23757A80 = .ok (.zext8 85 117))
    ∧ (decodeWord 0x23957A80 = .ok (.zext16 85 117))
    ∧ (decodeWord 0x26B57AB3 = .ok (.msadB4 5 85 117 51)) := by
  and_intros <;> exact rfl

theorem test_decode_float :
    (decodeWord 0x28157AB3 = .ok (.addF32 85 117 51))
    ∧ (decodeWord 0x28357AB3 = .ok (.subF32 85 117 51))
    ∧ (decodeWord 0x28557AB3 = .ok (.mulF32 85 117 51))
    ∧ (decodeWord 0x28757AB3 = .ok (.fmaF32 85 117 51))
    ∧ (decodeWord 0x28957AB3 = .ok (.fmsF32 85 117 51))
    ∧ (decodeWord 0x28B57AB3 = .ok (.minF32 85 117 51))
    ∧ (decodeWord 0x28D57AB3 = .ok (.maxF32 85 117 51))
    ∧ (decodeWord 0x28F57A80 = .ok (.absF32 85 117))
    ∧ (decodeWord 0x29157A80 = .ok (.negF32 85 117))
    ∧ (decodeWord 0x29357AB3 = .ok (.copysignF32 85 117 51))
    ∧ (decodeWord 0x29557A80 = .ok (.floorF32 85 117))
    ∧ (decodeWord 0x29757A80 = .ok (.ceilF32 85 117))
    ∧ (decodeWord 0x29957A80 = .ok (.truncF32 85 117))
    ∧ (decodeWord 0x29B57A80 = .ok (.rintF32 85 117))
    ∧ (decodeWord 0x29D57A80 = .ok (.fractF32 85 117))
    ∧ (decodeWord 0x2A157AB3 = .ok (.addF64 85 117 51))
    ∧ (decodeWord 0x2A357AB3 = .ok (.subF64 85 117 51))
    ∧ (decodeWord 0x2A557AB3 = .ok (.mulF64 85 117 51))
    ∧ (decodeWord 0x2A757AB3 = .ok (.fmaF64 85 117 51))
    ∧ (decodeWord 0x2A957AB3 = .ok (.fmsF64 85 117 51))
    ∧ (decodeWord 0x2AB57AB3 = .ok (.minF64 85 117 51))
    ∧ (decodeWord 0x2AD57AB3 = .ok (.maxF64 85 117 51))
    ∧ (decodeWord 0x2AF57A80 = .ok (.absF64 85 117))
    ∧ (decodeWord 0x2B157A80 = .ok (.negF64 85 117))
    ∧ (decodeWord 0x2B357A80 = .ok (.floorF64 85 117))
    ∧ (decodeWord 0x2B557A80 = .ok (.ceilF64 85 117))
    ∧ (decodeWord 0x2B757A80 = .ok (.truncF64 85 117))
    ∧ (decodeWord 0x2B957A80 = .ok (.rintF64 85 117))
    ∧ (decodeWord 0x2BB57AB3 = .ok (.divF64 85 117 51))
    ∧ (decodeWord 0x2BD57A80 = .ok (.sqrtF64 85 117))
    ∧ (decodeWord 0x2C157AB3 = .ok (.addF16x2 85 117 51))
    ∧ (decodeWord 0x2C357AB3 = .ok (.mulF16x2 85 117 51))
    ∧ (decodeWord 0x2C557AB3 = .ok (.fmaF16x2 85 117 51))
    ∧ (decodeWord 0x2C757AB3 = .ok (.minF16x2 85 117 51))
    ∧ (decodeWord 0x2C957AB3 = .ok (.maxF16x2 85 117 51))
    ∧ (decodeWord 0x2CB57AB3 = .ok (.addBf16x2 85 117 51))
    ∧ (decodeWord 0x2CD57AB3 = .ok (.mulBf16x2 85 117 51))
    ∧ (decodeWord 0x2CF57AB3 = .ok (.fmaBf16x2 85 117 51))
    ∧ (decodeWord 0x2D157AB3 = .ok (.dot2F32F16 85 117 51))
    ∧ (decodeWord 0x2D357AB3 = .ok (.dot2F32Bf16 85 117 51)) := by
  and_intros <;> exact rfl

theorem test_decode_float_compare_and_convert :
    (decodeWord 0x2E017AB3 = .ok (.fcmpEqF32 5 117 51))
    ∧ (decodeWord 0x2E217AB3 = .ok (.fcmpNeF32 5 117 51))
    ∧ (decodeWord 0x2E417AB3 = .ok (.fcmpLtF32 5 117 51))
    ∧ (decodeWord 0x2E617AB3 = .ok (.fcmpLeF32 5 117 51))
    ∧ (decodeWord 0x2E817AB3 = .ok (.fcmpGtF32 5 117 51))
    ∧ (decodeWord 0x2EA17AB3 = .ok (.fcmpGeF32 5 117 51))
    ∧ (decodeWord 0x2EC17AB3 = .ok (.fcmpOrdF32 5 117 51))
    ∧ (decodeWord 0x2EE17AB3 = .ok (.fcmpUnordF32 5 117 51))
    ∧ (decodeWord 0x2F017AB3 = .ok (.fcmpEqF64 5 117 51))
    ∧ (decodeWord 0x2F217AB3 = .ok (.fcmpNeF64 5 117 51))
    ∧ (decodeWord 0x2F417AB3 = .ok (.fcmpLtF64 5 117 51))
    ∧ (decodeWord 0x2F617AB3 = .ok (.fcmpLeF64 5 117 51))
    ∧ (decodeWord 0x2F817AB3 = .ok (.fcmpGtF64 5 117 51))
    ∧ (decodeWord 0x2FA17AB3 = .ok (.fcmpGeF64 5 117 51))
    ∧ (decodeWord 0x2FC17AB3 = .ok (.fcmpOrdF64 5 117 51))
    ∧ (decodeWord 0x2FE17AB3 = .ok (.fcmpUnordF64 5 117 51))
    ∧ (decodeWord 0x30157A80 = .ok (.exp2F32 85 117))
    ∧ (decodeWord 0x30357A80 = .ok (.log2F32 85 117))
    ∧ (decodeWord 0x30557A80 = .ok (.rcpF32 85 117))
    ∧ (decodeWord 0x30757A80 = .ok (.rsqF32 85 117))
    ∧ (decodeWord 0x30957A80 = .ok (.sqrtF32 85 117))
    ∧ (decodeWord 0x30B57AB3 = .ok (.divF32 85 117 51))
    ∧ (decodeWord 0x30D57A80 = .ok (.sin2piF32 85 117))
    ∧ (decodeWord 0x30F57A80 = .ok (.cos2piF32 85 117)) := by
  and_intros <;> exact rfl

theorem test_decode_convert_geometry_lanes :
    (decodeWord 0x32157A80 = .ok (.cvtF32F16lo 85 117))
    ∧ (decodeWord 0x32357A80 = .ok (.cvtF32F16hi 85 117))
    ∧ (decodeWord 0x32557AB3 = .ok (.cvtF16x2F32 85 117 51))
    ∧ (decodeWord 0x32757A80 = .ok (.cvtF32Bf16lo 85 117))
    ∧ (decodeWord 0x32957A80 = .ok (.cvtF32Bf16hi 85 117))
    ∧ (decodeWord 0x32B57AB3 = .ok (.cvtBf16x2F32 85 117 51))
    ∧ (decodeWord 0x32D57A80 = .ok (.cvtF64F32 85 117))
    ∧ (decodeWord 0x32F57A80 = .ok (.cvtF32F64 85 117))
    ∧ (decodeWord 0x33157A80 = .ok (.cvtF32I32 85 117))
    ∧ (decodeWord 0x33357A80 = .ok (.cvtF32N32 85 117))
    ∧ (decodeWord 0x33557A80 = .ok (.cvtI32F32 85 117))
    ∧ (decodeWord 0x33757A80 = .ok (.cvtN32F32 85 117))
    ∧ (decodeWord 0x33957A80 = .ok (.cvtF64I64 85 117))
    ∧ (decodeWord 0x33B57A80 = .ok (.cvtI64F64 85 117))
    ∧ (decodeWord 0x33D57A80 = .ok (.cvtF64I32 85 117))
    ∧ (decodeWord 0x33F57A80 = .ok (.cvtI32F64 85 117))
    ∧ (decodeWord 0x34157AB3 = .ok (.rbox 85 117 51))
    ∧ (decodeWord 0x34357AB3 = .ok (.rtri 85 117 51))
    ∧ (decodeWord 0x34557AB3 = .ok (.edgec 85 117 51))
    ∧ (decodeWord 0x34757A80 = .ok (.cullbf 85 117))
    ∧ (decodeWord 0x34957A80 = .ok (.cullbx 85 117))
    ∧ (decodeWord 0x38157AB3 = .ok (.lpick 85 117 51))
    ∧ (decodeWord 0x38357AB3 = .ok (.lswap 85 117 51))
    ∧ (decodeWord 0x38557AB3 = .ok (.lrotu 85 117 51))
    ∧ (decodeWord 0x38757AB3 = .ok (.lrotd 85 117 51))
    ∧ (decodeWord 0x38957AB3 = .ok (.bcast 85 117 51))
    ∧ (decodeWord 0x38B57A80 = .ok (.ddxF32 85 117))
    ∧ (decodeWord 0x38D57A80 = .ok (.ddyF32 85 117))
    ∧ (decodeWord 0x38F57A80 = .ok (.vrdi 85 117))
    ∧ (decodeWord 0x39002AF5 = .ok (.vwri 85 117))
    ∧ (decodeWord 0x39357AB3 = .ok (.rdlane 85 117 51))
    ∧ (decodeWord 0x39557AB3 = .ok (.wrlane 85 117 51))
    ∧ (decodeWord 0x39757A80 = .ok (.raddI32 85 117))
    ∧ (decodeWord 0x39957A80 = .ok (.rmaxI32 85 117))
    ∧ (decodeWord 0x39B57A80 = .ok (.rminI32 85 117))
    ∧ (decodeWord 0x39D57A80 = .ok (.raddF32 85 117))
    ∧ (decodeWord 0x39E17A80 = .ok (.ballot 5 117)) := by
  and_intros <;> exact rfl

theorem test_decode_memory :
    (decodeWord 0x402AF5B3 = .ok (.ld8n 85 117 179))
    ∧ (decodeWord 0x406AF5B3 = .ok (.ld8i 85 117 179))
    ∧ (decodeWord 0x40AAF5B3 = .ok (.ld16n 85 117 179))
    ∧ (decodeWord 0x40EAF5B3 = .ok (.ld16i 85 117 179))
    ∧ (decodeWord 0x412AF5B3 = .ok (.ld32 85 117 179))
    ∧ (decodeWord 0x416AF5B3 = .ok (.ld64 85 117 179))
    ∧ (decodeWord 0x41AAF5B3 = .ok (.ld128 85 117 179))
    ∧ (decodeWord 0x42157AB3 = .ok (.ldx8n 85 117 51))
    ∧ (decodeWord 0x42357AB3 = .ok (.ldx8i 85 117 51))
    ∧ (decodeWord 0x42557AB3 = .ok (.ldx16n 85 117 51))
    ∧ (decodeWord 0x42757AB3 = .ok (.ldx16i 85 117 51))
    ∧ (decodeWord 0x42957AB3 = .ok (.ldx32 85 117 51))
    ∧ (decodeWord 0x42B57AB3 = .ok (.ldx64 85 117 51))
    ∧ (decodeWord 0x42D57AB3 = .ok (.ldx128 85 117 51))
    ∧ (decodeWord 0x442AF5B3 = .ok (.st8 85 117 179))
    ∧ (decodeWord 0x44AAF5B3 = .ok (.st16 85 117 179))
    ∧ (decodeWord 0x452AF5B3 = .ok (.st32 85 117 179))
    ∧ (decodeWord 0x456AF5B3 = .ok (.st64 85 117 179))
    ∧ (decodeWord 0x45AAF5B3 = .ok (.st128 85 117 179))
    ∧ (decodeWord 0x46157AB3 = .ok (.stx8 85 117 51))
    ∧ (decodeWord 0x46557AB3 = .ok (.stx16 85 117 51))
    ∧ (decodeWord 0x46957AB3 = .ok (.stx32 85 117 51))
    ∧ (decodeWord 0x46B57AB3 = .ok (.stx64 85 117 51))
    ∧ (decodeWord 0x46D57AB3 = .ok (.stx128 85 117 51))
    ∧ (decodeWord 0x492AF5B3 = .ok (.ldk32 85 117 179))
    ∧ (decodeWord 0x496AF5B3 = .ok (.ldk64 85 117 179))
    ∧ (decodeWord 0x49AAF5B3 = .ok (.ldk128 85 117 179))
    ∧ (decodeWord 0x4A3D5980 = .ok (.lda32 1 117 51))
    ∧ (decodeWord 0x4ABD5980 = .ok (.lda64 1 117 51))
    ∧ (decodeWord 0x4B3D5980 = .ok (.stl32 1 117 51))
    ∧ (decodeWord 0x4BBD5980 = .ok (.stl64 1 117 51))
    ∧ (decodeWord 0x4C00000F = .ok (.fence 1 1 3))
    ∧ (decodeWord 0x4C200005 = .ok (.pfence 5))
    ∧ (decodeWord 0x4C554000 = .ok (.icinv 85))
    ∧ (decodeWord 0x4C400001 = .ok .icinvAll)
    ∧ (decodeWord 0x4E005575 = .ok (.prefL1 85 117))
    ∧ (decodeWord 0x4E405575 = .ok (.prefL2 85 117)) := by
  and_intros <;> exact rfl

theorem test_decode_atomic_and_work :
    (decodeWord 0x50157AB3 = .ok (.atomAddI32 85 117 51))
    ∧ (decodeWord 0x50357AB3 = .ok (.atomAddI64 85 117 51))
    ∧ (decodeWord 0x50557AB3 = .ok (.atomMinI32 85 117 51))
    ∧ (decodeWord 0x50757AB3 = .ok (.atomMaxI32 85 117 51))
    ∧ (decodeWord 0x50957AB3 = .ok (.atomMinN32 85 117 51))
    ∧ (decodeWord 0x50B57AB3 = .ok (.atomMaxN32 85 117 51))
    ∧ (decodeWord 0x50D57AB3 = .ok (.atomAnd32 85 117 51))
    ∧ (decodeWord 0x50F57AB3 = .ok (.atomOr32 85 117 51))
    ∧ (decodeWord 0x51157AB3 = .ok (.atomXor32 85 117 51))
    ∧ (decodeWord 0x51357AB3 = .ok (.atomXchg32 85 117 51))
    ∧ (decodeWord 0x51557AB3 = .ok (.atomXchg64 85 117 51))
    ∧ (decodeWord 0x51757AB3 = .ok (.atomCas32 85 117 51))
    ∧ (decodeWord 0x51957AB3 = .ok (.atomCas64 85 117 51))
    ∧ (decodeWord 0x51B57AB3 = .ok (.atomAddF32 85 117 51))
    ∧ (decodeWord 0x51D57AB3 = .ok (.atomIncN32 85 117 51))
    ∧ (decodeWord 0x51F57AB3 = .ok (.atomDecN32 85 117 51))
    ∧ (decodeWord 0x54002AF5 = .ok (.wayin 85 117))
    ∧ (decodeWord 0x54202A80 = .ok (.wayout 85))
    ∧ (decodeWord 0x54402AF5 = .ok (.wayskip 85 117))
    ∧ (decodeWord 0x54617AB3 = .ok (.waytry 5 117 51))
    ∧ (decodeWord 0x54802A80 = .ok (.wayclose 85))
    ∧ (decodeWord 0x54B57A80 = .ok (.wayqry 85 117))
    ∧ (decodeWord 0x58154000 = .ok (.barArrive 85))
    ∧ (decodeWord 0x58354000 = .ok (.barWait 85))
    ∧ (decodeWord 0x58554000 = .ok (.barSync 85))
    ∧ (decodeWord 0x58754035 = .ok (.barAlloc 85 53))
    ∧ (decodeWord 0x58954000 = .ok (.barFree 85))
    ∧ (decodeWord 0x58A00001 = .ok (.cbarArrive 1))
    ∧ (decodeWord 0x58C00001 = .ok (.cbarWait 1))
    ∧ (decodeWord 0x58E00001 = .ok (.cbarSync 1))
    ∧ (decodeWord 0x59000000 = .ok .gbarSync)
    ∧ (decodeWord 0x5A157575 = .ok (.spawn 85 13685))
    ∧ (decodeWord 0x5A354000 = .ok (.fetchw 85))
    ∧ (decodeWord 0x5A400000 = .ok .regacq)
    ∧ (decodeWord 0x5A600000 = .ok .regrel)
    ∧ (decodeWord 0x5A954000 = .ok (.regroup 85))
    ∧ (decodeWord 0x5AB54001 = .ok (.launch 85 1))
    ∧ (decodeWord 0x5AC00000 = .ok .preok)
    ∧ (decodeWord 0x5C157A80 = .ok (.srd 85 117))
    ∧ (decodeWord 0x5C202AF5 = .ok (.swr 85 117)) := by
  and_intros <;> exact rfl

theorem test_decode_copy_and_tile :
    (decodeWord 0x6015AF00 = .ok (.copyG2s 21 21 3 1 0))
    ∧ (decodeWord 0x6035AF00 = .ok (.copyS2g 21 21 3 1 0))
    ∧ (decodeWord 0x6055AF00 = .ok (.copyG2o 21 21 3 1 0))
    ∧ (decodeWord 0x6075AF00 = .ok (.copyS2o 21 21 3 1 0))
    ∧ (decodeWord 0x6095AF00 = .ok (.copyG2g 21 21 3 1 0))
    ∧ (decodeWord 0x60B5AF00 = .ok (.copyFill 21 21 3 1 0))
    ∧ (decodeWord 0x6415B9B2 = .ok (.tmma 21 5 51 25 0))
    ∧ (decodeWord 0x6435B9B2 = .ok (.tmms 21 5 51 25 0))
    ∧ (decodeWord 0x6455A000 = .ok (.tzero 21 5))
    ∧ (decodeWord 0x6475B380 = .ok (.tld 21 5 19 2))
    ∧ (decodeWord 0x6495B340 = .ok (.tst 21 5 19 1))
    ∧ (decodeWord 0x64B51566 = .ok (.tclaim 21 21 51))
    ∧ (decodeWord 0x64B515E6 = .ok (.tclaimAcc 21 21 51))
    ∧ (decodeWord 0x64D51A80 = .ok (.trelSlot 21 53))
    ∧ (decodeWord 0x64D5A040 = .ok (.trelAcc 21 5))
    ∧ (decodeWord 0x64F5B200 = .ok (.tcfg 21 5 2 1)) := by
  and_intros <;> exact rfl

theorem test_decode_chart :
    (decodeWord 0x6C155300 = .ok (.chexp 21 5 1 2))
    ∧ (decodeWord 0x6C205053 = .ok (.chopAdd 5 5 3))
    ∧ (decodeWord 0x6C205153 = .ok (.chopSub 5 5 3))
    ∧ (decodeWord 0x6C205253 = .ok (.chopMul 5 5 3))
    ∧ (decodeWord 0x6C205353 = .ok (.chopFma 5 5 3))
    ∧ (decodeWord 0x6C205453 = .ok (.chopMin 5 5 3))
    ∧ (decodeWord 0x6C205553 = .ok (.chopMax 5 5 3))
    ∧ (decodeWord 0x6C205650 = .ok (.chopExp2 5 5))
    ∧ (decodeWord 0x6C205750 = .ok (.chopRcp 5 5))
    ∧ (decodeWord 0x6C205850 = .ok (.chopMov 5 5))
    ∧ (decodeWord 0x6C205953 = .ok (.chopSel 5 5 3))
    ∧ (decodeWord 0x6C200A55 = .ok (.chopLt 5 5))
    ∧ (decodeWord 0x6C200B55 = .ok (.chopLe 5 5))
    ∧ (decodeWord 0x6C200C55 = .ok (.chopEq 5 5))
    ∧ (decodeWord 0x6C200D55 = .ok (.chopNe 5 5))
    ∧ (decodeWord 0x6C400000 = .ok .chenabPush)
    ∧ (decodeWord 0x6C400400 = .ok .chenabPop)
    ∧ (decodeWord 0x6C400800 = .ok .chenabElse)
    ∧ (decodeWord 0x6C400C00 = .ok .chenabAll)
    ∧ (decodeWord 0x6C7559A0 = .ok (.chld 21 5 19 1))
    ∧ (decodeWord 0x6C9559C0 = .ok (.chst 21 5 19 2 0))
    ∧ (decodeWord 0x6CB55000 = .ok (.chvis 21 5))
    ∧ (decodeWord 0x6CD50A80 = .ok (.chown 21 21))
    ∧ (decodeWord 0x6CE00000 = .ok .chrel)
    ∧ (decodeWord 0x6D150000 = .ok (.chorg 21))
    ∧ (decodeWord 0x6D150800 = .ok (.chorgRd 21))
    ∧ (decodeWord 0x6D355800 = .ok (.chset 21 5 1)) := by
  and_intros <;> exact rfl

theorem test_decode_bank_link_system :
    (decodeWord 0x7E355700 = .ok (.chcubic 21 5 2))
    ∧ (decodeWord 0x7615AF01 = .ok (.bkmodeOn 21 21 3 1 0))
    ∧ (decodeWord 0x7615AF00 = .ok (.bkmodeOff 21 21 3 1 0))
    ∧ (decodeWord 0x7635AF03 = .ok (.bkload 21 21 3 1 0 1 1))
    ∧ (decodeWord 0x7655AF03 = .ok (.bkmac 21 21 3 1 0 1 1))
    ∧ (decodeWord 0x7675AF00 = .ok (.bkread 21 21 3 1 0))
    ∧ (decodeWord 0x7695AF00 = .ok (.bkcalCal 21 21 3 1 0))
    ∧ (decodeWord 0x7695AF01 = .ok (.bkcalBist 21 21 3 1 0))
    ∧ (decodeWord 0x7695AF02 = .ok (.bkcalRemap 21 21 3 1 0))
    ∧ (decodeWord 0x76B5AF00 = .ok (.bkstat 21 21 3 1 0))
    ∧ (decodeWord 0x7815AF00 = .ok (.collRed 21 21 3 1 0))
    ∧ (decodeWord 0x7835AF00 = .ok (.collRedq 21 21 3 1 0))
    ∧ (decodeWord 0x7855AF00 = .ok (.collBcast 21 21 3 1 0))
    ∧ (decodeWord 0x7875AF00 = .ok (.collGather 21 21 3 1 0))
    ∧ (decodeWord 0x7895AF00 = .ok (.lput 21 21 3 1 0))
    ∧ (decodeWord 0x78B5AF00 = .ok (.lget 21 21 3 1 0))
    ∧ (decodeWord 0x7A0012D5 = .ok (.trap 4821))
    ∧ (decodeWord 0x7A200000 = .ok .tret)
    ∧ (decodeWord 0x7A554350 = .ok (.tlbinvPage 85 53))
    ∧ (decodeWord 0x7A400151 = .ok (.tlbinvCtx 21))
    ∧ (decodeWord 0x7A400002 = .ok .tlbinvAll)
    ∧ (decodeWord 0x7A754000 = .ok (.l2way 85))
    ∧ (decodeWord 0x7A754001 = .ok (.l2wayRd 85))
    ∧ (decodeWord 0x7A800000 = .ok .stop)
    ∧ (decodeWord 0x7AB54000 = .ok (.sndgOn 85))
    ∧ (decodeWord 0x7AA00001 = .ok .sndgOff)
    ∧ (decodeWord 0x7AB54002 = .ok (.sndgRd 85)) := by
  and_intros <;> exact rfl

/-! Words the spec writes out beside their assembly, its own examples (02 R31's listing, 03 Table ENC-6, 04 R88, 05, 06, Tables MEM-8, XLT-5, WPT-2,
WRK-6, CPY-4, TIL-3, CHT-2, BNK-3, LNK-1 and OBS-3). -/

theorem test_spec_words_arithmetic :
    decodeWord 0x142B1FFB = .ok (.addi 10 99 0x7FB) ∧ decodeWord 0x1C1F3F80 = .ok (.movkHi 7 0x3F80) ∧ decodeWord 0x26020C83 = .ok (.msadB4 0 8 25 3)
    ∧ decodeWord 0x90018082 = .ok (.addI32 6 1 2) ∧ decodeWord 0x2861C409 = .ok (.fmaF32 7 8 9) ∧ decodeWord 0x08608083 = .ok (.mandn 2 1 3)
    ∧ decodeWord 0x13414307 = .ok (.sel 2 5 6 7) ∧ decodeWord 0x1E204160 = .ok (.icmpNe 1 2 96) ∧ decodeWord 0x21013303 = .ok (.leaX1 4 102 3)
    ∧ decodeWord 0x384080E9 = .ok (.lrotu 2 1 105) ∧ decodeWord 0x2E404103 = .ok (.fcmpLtF32 1 2 3) ∧ decodeWord 0x34030074 = .ok (.rbox 12 0 116)
    ∧ decodeWord 0x34250068 = .ok (.rtri 20 0 104) ∧ decodeWord 0x39DA0080 = .ok (.raddF32 104 1) ∧ decodeWord 0x345C3266 = .ok (.edgec 112 100 102)
    ∧ decodeWord 0x34624200 = .ok (.cullbf 9 4) ∧ decodeWord 0x34828200 = .ok (.cullbx 10 4) ∧ decodeWord 0x1DA93F80 = .ok (.movzHi 106 0x3F80) := by
  and_intros <;> exact rfl

theorem test_spec_words_control_and_memory :
    decodeWord 0x037FFFFC = .ok (.br 1 3 0x1FFFFC) ∧ decodeWord 0x02200002 = .ok (.br 0 1 2) ∧ decodeWord 0x06608000 = .ok (.join 2 0) ∧ decodeWord 0x06000000 = .ok .ret
    ∧ decodeWord 0x06E00003 = .ok (.progress 3) ∧ decodeWord 0x07000007 = .ok (.brkpt 7) ∧ decodeWord 0x4101E402 = .ok (.ld32 3 100 2)
    ∧ decodeWord 0x45010400 = .ok (.st32 2 4 0) ∧ decodeWord 0x454364FE = .ok (.st64 6 100 0xFE) ∧ decodeWord 0x4280F202 = .ok (.ldx32 3 100 2)
    ∧ decodeWord 0x49736400 = .ok (.ldk64 102 100 0) ∧ decodeWord 0x4A40C200 = .ok (.lda32 2 3 4) ∧ decodeWord 0x4B418200 = .ok (.stl32 2 6 4)
    ∧ decodeWord 0x4C00000E = .ok (.fence 1 1 2) ∧ decodeWord 0x4C200009 = .ok (.pfence 9) ∧ decodeWord 0x4C590000 = .ok (.icinv 100)
    ∧ decodeWord 0x4E006402 = .ok (.prefL1 100 2) ∧ decodeWord 0x41820200 = .ok (.ld128 4 2 0) ∧ decodeWord 0x7A7A4000 = .ok (.l2way 105)
    ∧ decodeWord 0x7A590050 = .ok (.tlbinvPage 100 5) ∧ decodeWord 0x7A400051 = .ok (.tlbinvCtx 5) ∧ decodeWord 0x7A400002 = .ok .tlbinvAll
    ∧ decodeWord 0x7A000005 = .ok (.trap 5) ∧ decodeWord 0x7A200000 = .ok .tret ∧ decodeWord 0x7A800000 = .ok .stop ∧ decodeWord 0x7ABA4000 = .ok (.sndgOn 105)
    ∧ decodeWord 0x7AA00001 = .ok .sndgOff ∧ decodeWord 0x7AB90002 = .ok (.sndgRd 100) := by
  and_intros <;> exact rfl

theorem test_spec_words_of_work :
    decodeWord 0x51C0F269 = .ok (.atomIncN32 3 100 105) ∧ decodeWord 0x51B80206 = .ok (.atomAddF32 96 4 6) ∧ decodeWord 0x54000206 = .ok (.wayin 4 6)
    ∧ decodeWord 0x54200200 = .ok (.wayout 4) ∧ decodeWord 0x54400206 = .ok (.wayskip 4 6) ∧ decodeWord 0x54604206 = .ok (.waytry 1 4 6)
    ∧ decodeWord 0x54800200 = .ok (.wayclose 4) ∧ decodeWord 0x54A20200 = .ok (.wayqry 8 4) ∧ decodeWord 0x581A0000 = .ok (.barArrive 104)
    ∧ decodeWord 0x583A0000 = .ok (.barWait 104) ∧ decodeWord 0x58580000 = .ok (.barSync 96) ∧ decodeWord 0x587A0004 = .ok (.barAlloc 104 4)
    ∧ decodeWord 0x589A0000 = .ok (.barFree 104) ∧ decodeWord 0x58A00001 = .ok (.cbarArrive 1) ∧ decodeWord 0x58C00001 = .ok (.cbarWait 1)
    ∧ decodeWord 0x58E00001 = .ok (.cbarSync 1) ∧ decodeWord 0x59000000 = .ok .gbarSync ∧ decodeWord 0x5A1A4003 = .ok (.spawn 105 3)
    ∧ decodeWord 0x5A3A8000 = .ok (.fetchw 106) ∧ decodeWord 0x5A400000 = .ok .regacq ∧ decodeWord 0x5A600000 = .ok .regrel
    ∧ decodeWord 0x5A814000 = .ok (.regroup 5) ∧ decodeWord 0x5ABB0001 = .ok (.launch 108 1) ∧ decodeWord 0x5AC00000 = .ok .preok
    ∧ decodeWord 0x5C004000 = .ok (.srd 1 0) ∧ decodeWord 0x5C2006E9 = .ok (.swr 13 105) ∧ decodeWord 0x5C200F60 = .ok (.swr 30 96) := by
  and_intros <;> exact rfl

theorem test_spec_words_of_engines :
    decodeWord 0x60088080 = .ok (.copyG2s 8 16 0 0 1) ∧ decodeWord 0x60296480 = .ok (.copyS2g 9 12 2 0 1) ∧ decodeWord 0x60488500 = .ok (.copyG2o 8 16 2 1 0)
    ∧ decodeWord 0x60A05000 = .ok (.copyFill 0 10 0 0 0) ∧ decodeWord 0x64082188 = .ok (.tmma 8 1 3 4 0) ∧ decodeWord 0x64290003 = .ok (.tmms 9 0 0 1 1)
    ∧ decodeWord 0x64404000 = .ok (.tzero 0 2) ∧ decodeWord 0x64682C00 = .ok (.tld 8 1 12 0) ∧ decodeWord 0x64892C80 = .ok (.tst 9 1 12 2)
    ∧ decodeWord 0x64A80906 = .ok (.tclaim 8 9 3) ∧ decodeWord 0x64A80A80 = .ok (.tclaimAcc 8 10 0) ∧ decodeWord 0x64C00180 = .ok (.trelSlot 0 3)
    ∧ decodeWord 0x64C02040 = .ok (.trelAcc 0 1) ∧ decodeWord 0x64E03000 = .ok (.tcfg 0 1 2 0) ∧ decodeWord 0x6C100080 = .ok (.chexp 16 0 0 1)
    ∧ decodeWord 0x6C203312 = .ok (.chopFma 3 1 2) ∧ decodeWord 0x6C400800 = .ok .chenabElse ∧ decodeWord 0x6C6AC420 = .ok (.chld 10 12 8 1)
    ∧ decodeWord 0x6C8AC420 = .ok (.chst 10 12 8 1 0) ∧ decodeWord 0x6CB8F000 = .ok (.chvis 24 15) ∧ decodeWord 0x6CC90000 = .ok (.chown 9 0)
    ∧ decodeWord 0x6CE00000 = .ok .chrel ∧ decodeWord 0x6D080000 = .ok (.chorg 8) ∧ decodeWord 0x6D29E800 = .ok (.chset 9 14 1)
    ∧ decodeWord 0x76085501 = .ok (.bkmodeOn 8 10 2 1 0) ∧ decodeWord 0x76085000 = .ok (.bkmodeOff 8 10 0 0 0) ∧ decodeWord 0x76296401 = .ok (.bkload 9 12 2 0 0 0 1)
    ∧ decodeWord 0x764A8401 = .ok (.bkmac 10 16 2 0 0 0 1) ∧ decodeWord 0x766BA080 = .ok (.bkread 11 20 0 0 1) ∧ decodeWord 0x768C2402 = .ok (.bkcalRemap 12 4 2 0 0)
    ∧ decodeWord 0x76AD2400 = .ok (.bkstat 13 4 2 0 0) ∧ decodeWord 0x78085780 = .ok (.collRed 8 10 3 1 1) ∧ decodeWord 0x78292780 = .ok (.collRedq 9 4 3 1 1)
    ∧ decodeWord 0x78485400 = .ok (.collBcast 8 10 2 0 0) ∧ decodeWord 0x78686680 = .ok (.collGather 8 12 3 0 1) ∧ decodeWord 0x7889A680 = .ok (.lput 9 20 3 0 1)
    ∧ decodeWord 0x78A9A700 = .ok (.lget 9 20 3 1 0) := by
  and_intros <;> exact rfl

/-- A word of major 0x00, and a listed word with a bit set that its format leaves zero (03 R57, R59). -/
theorem test_words_that_are_no_instruction :
    (decodeWord 0).toOption.isNone = true ∧ (decodeWord 0x06000001).toOption.isNone = true ∧ (decodeWord 0x4C000000).toOption.isNone = true := by decide

/-! Ill-formed terms: one for each check, refused; and the same with the field mended. -/

theorem test_fence_of_nothing_refused : (Instr.fence 0 0 1).wellFormed = false ∧ (Instr.fence 1 0 1).wellFormed = true := by decide
theorem test_pfence_of_nothing_refused : (Instr.pfence 0).wellFormed = false ∧ (Instr.pfence 8).wellFormed = true := by decide
theorem test_tcfg_mode_three_refused : (Instr.tcfg 0 1 3 0).wellFormed = false ∧ (Instr.tcfg 0 1 1 0).wellFormed = true := by decide
theorem test_tcfg_tack_three_refused : (Instr.tcfg 0 1 2 3).wellFormed = false ∧ (Instr.tcfg 0 1 2 2).wellFormed = true := by decide
theorem test_tcfg_tack_outside_bfp_refused : (Instr.tcfg 0 1 0 1).wellFormed = false ∧ (Instr.tcfg 0 1 2 1).wellFormed = true := by decide
theorem test_chexp_kind_three_refused : (Instr.chexp 16 0 3 0).wellFormed = false ∧ (Instr.chexp 16 0 2 0).wellFormed = true := by decide
theorem test_chexp_eop_three_refused : (Instr.chexp 16 0 0 3).wellFormed = false ∧ (Instr.chexp 16 0 0 2).wellFormed = true := by decide
theorem test_chcubic_eop_three_refused : (Instr.chcubic 16 0 3).wellFormed = false ∧ (Instr.chcubic 16 0 2).wellFormed = true := by decide
theorem test_chld_sel_two_refused : (Instr.chld 10 12 8 2).wellFormed = false ∧ (Instr.chld 10 12 8 1).wellFormed = true := by decide
theorem test_chst_sel_three_refused : (Instr.chst 10 12 8 3 0).wellFormed = false ∧ (Instr.chst 10 12 8 2 0).wellFormed = true := by decide
theorem test_tld_cv_three_refused : (Instr.tld 8 1 12 3).wellFormed = false ∧ (Instr.tld 8 1 12 2).wellFormed = true := by decide
theorem test_tst_cv_three_refused : (Instr.tst 8 1 12 3).wellFormed = false ∧ (Instr.tst 8 1 12 2).wellFormed = true := by decide
theorem test_event_is_no_word : (Instr.trapEntry 4).wellFormed = false ∧ (Instr.trap 4).wellFormed = true := by decide


/-! A machine with one launch of one block of one group of 16 lanes, its four slices in clause 0x200000 about to issue slot 1. -/

/-- The group, begun on its clause in gang 1. -/
def group0 : Group :=
  let g := Load.card.group 3 0 0 0 0
  { g with slices := g.slices.map (fun x => { x with gang := 1, seq := { x.seq with pc := 0x200004 } }), gangs := [(1, { clause := 0x200000, words := [0, 0, 0, 0], fresh := false })] }

/-- The issue of slot 1, the clause's last valid slot, from every slice. -/
def issue : Issue :=
  { group := 4, slices := 15, pc := 0x200004, chain := 0x200004, next := 0x200010, split := 1, gang := 0, word := 0, flag := 0, snap := none, choice := 0,
    probe := false, verdict := .pending }

def launch0 : Launch := { Launch.new Load.card 0 0 0 0 with nextBlock := 1 }

/-- The machine about to run a word for group h. -/
def machine (h : Group) : State :=
  { State.reset with cycle := 200, awake := 200, nextId := 5, cur := some issue, launches := [(1, launch0)], clusters := [(2, { blocks := [3], barriers := [] })],
                     blocks := [(3, Load.block 0)], groups := [(4, h)] }

def plain : State := machine group0
def ctx0 : Ctx := issue.ctx group0

/-- group0 with v4 to v9 different in every lane, some s registers and masks, and only lanes 0, 2 and 7 active. -/
def sampleV : List (Nat × Word) :=
  [(512, 0x7A012C4B), (513, 0xFFECF6B6), (514, 0x85D8C121), (515, 0xBC48B8C), (516, 0x91B055F7), (517, 0x179C2062), (518, 0x9D87EACD), (519, 0x2373B538), (520, 0xA95F7FA3), (521, 0x2F4B4A0E), (522, 0xB5371479), (523, 0x3B22DEE4), (524, 0xC10EA94F), (525, 0x46FA73BA), (526, 0xCCE63E25), (527, 0x52D20890)]
  ++ [(640, 0x1838A604), (641, 0x9E24706F), (642, 0x24103ADA), (643, 0xA9FC0545), (644, 0x2FE7CFB0), (645, 0xB5D39A1B), (646, 0x3BBF6486), (647, 0xC1AB2EF1), (648, 0x4796F95C), (649, 0xCD82C3C7), (650, 0x536E8E32), (651, 0xD95A589D), (652, 0x5F462308), (653, 0xE531ED73), (654, 0x6B1DB7DE), (655, 0xF1098249)]
  ++ [(768, 0xB6701FBD), (769, 0x3C5BEA28), (770, 0xC247B493), (771, 0x48337EFE), (772, 0xCE1F4969), (773, 0x540B13D4), (774, 0xD9F6DE3F), (775, 0x5FE2A8AA), (776, 0xE5CE7315), (777, 0x6BBA3D80), (778, 0xF1A607EB), (779, 0x7791D256), (780, 0xFD7D9CC1), (781, 0x8369672C), (782, 0x9553197), (783, 0x8F40FC02)]
  ++ [(896, 0x54A79976), (897, 0xDA9363E1), (898, 0x607F2E4C), (899, 0xE66AF8B7), (900, 0x6C56C322), (901, 0xF2428D8D), (902, 0x782E57F8), (903, 0xFE1A2263), (904, 0x8405ECCE), (905, 0x9F1B739), (906, 0x8FDD81A4), (907, 0x15C94C0F), (908, 0x9BB5167A), (909, 0x21A0E0E5), (910, 0xA78CAB50), (911, 0x2D7875BB)]
  ++ [(1024, 0xF2DF132F), (1025, 0x78CADD9A), (1026, 0xFEB6A805), (1027, 0x84A27270), (1028, 0xA8E3CDB), (1029, 0x907A0746), (1030, 0x1665D1B1), (1031, 0x9C519C1C), (1032, 0x223D6687), (1033, 0xA82930F2), (1034, 0x2E14FB5D), (1035, 0xB400C5C8), (1036, 0x39EC9033), (1037, 0xBFD85A9E), (1038, 0x45C42509), (1039, 0xCBAFEF74)]
  ++ [(1152, 0x91168CE8), (1153, 0x17025753), (1154, 0x9CEE21BE), (1155, 0x22D9EC29), (1156, 0xA8C5B694), (1157, 0x2EB180FF), (1158, 0xB49D4B6A), (1159, 0x3A8915D5), (1160, 0xC074E040), (1161, 0x4660AAAB), (1162, 0xCC4C7516), (1163, 0x52383F81), (1164, 0xD82409EC), (1165, 0x5E0FD457), (1166, 0xE3FB9EC2), (1167, 0x69E7692D)]
def sampleS : List (Nat × Word) := [(4, 0x32AC3133), (5, 0xD0E3AAEC), (6, 0x6F1B24A5), (7, 0xD529E5E), (8, 0xAB8A1817), (9, 0x49C191D0), (10, 0xE7F90B89), (11, 0x86308542)]
def filled : Group :=
  { group0 with
    v := sampleV
    slices := (List.range 4).map fun i =>
      { seq := { pc := 0x200004, m := 15, a := if i = 0 then 5 else if i = 1 then 8 else 0, parked := [], releases := [], susp := [], wait := .none }, exited := 0, s := sampleS, cycleh := 0,
        gang := 1, exitAt := 0, exitNow := 0, passTo := 0, after := 0 }
    m := [(1, 0xA5A5), (2, 0x0F33), (3, 0x7)] }

def busy : State := machine filled
def ctxF : Ctx := issue.ctx filled

/-- group0 with registers set: v registers in every lane alike, s registers in every slice. -/
def withRegs (v s : List (Nat × Word)) : Group :=
  let g1 := v.foldl (fun g e => (List.range 16).foldl (fun g l => g.writeV e.1 l e.2) g) group0
  s.foldl (fun g e => g.writeS 15 e.1 e.2) g1

/-- group0 with lanes 0, 2 and 7 active on numbers in v4 to v9 and s4 to s9, and RMODE. -/
def floats (rmode : Word) : Group :=
  { filled with
    rmode := rmode
    v := [(512, 0x3FC00000), (514, 0xC0100000), (519, 0x40490FDB), (640, 0x3FF80000), (642, 0xC0020000), (647, 0x400921FB),
          (768, 0x40000000), (770, 0x3EAAAAAB), (775, 0x00000001), (896, 0x40000000), (898, 0x3FD55555), (903, 0x3C00BC00),
          (1024, 0x3F800001), (1026, 0x7F7FFFFF), (1031, 0x40400000), (1152, 0xBFF00000), (1154, 0x40080000), (1159, 0x41E00000)]
    slices := filled.slices.map fun x => { x with s := [(4, 0x3FC00000), (5, 0xBFF80000), (6, 0x40000000), (7, 0x40080000), (8, 0x3E800000), (9, 0x3FD00000)] } }
def floating : State := machine (floats 0)
/-- Division by zero and overflow trap (RMODE[9:4]); what the lanes of v4 and v6 signal does not. -/
def guarded : State := machine (floats 0x060)
/-- Invalid traps, and the operands are signalling NaNs. -/
def signalling : Group := { floats 0x010 with v := [(512, 0x7FA00000), (519, 0x3F800000), (768, 0x3F800000), (775, 0x7F800001)] }

/-- The group in a handler of slice 0 to 3 whose trap it has entered, with s24 banked to 9 while the interrupted s24 holds 5. -/
def handled (g : Group) : Group :=
  { g.writeS 15 24 5 with
    tpc := 0x300008
    handler := some { id := 1, kind := .trap, h := 15, s := 15, frame := (List.range 4).map fun i => (i, (g.slice i).seq),
                      banked := [(0, 9), (4, 9), (8, 9), (12, 9)], before := [] } }

/-- filled, with p parked entries in slice 0, whose lanes 0 and 2 m1 tells apart. -/
def parkedGroup (p : Nat) : Group :=
  { filled with
    slices := filled.slices.mapIdx fun i x => if i = 0 then { x with seq := { x.seq with m := 5, parked := List.replicate p (0x300000, 10) } } else x
    m := [(1, 1)] }

/-- Every lane suspended at a join: slice 0 at 0x300004, the others at q. -/
def joining (q : Pc) : Group :=
  { filled with
    slices := filled.slices.mapIdx fun i x =>
      { x with gang := 0, seq := { x.seq with m := 0, a := 0, susp := (List.range 4).map fun b => (b, (if i = 0 then 0x300004 else q), true) } }
    joins := [(0x300004, { k := 2, n := 1, start := 10 })] }

/-- The machine with the word w placed as the only word of the clause at 0x200000, at the clause boundary, on the tables of Sys2Proof.Machine.Load. -/
def placed (w : Nat) : State := State.reset.withFetchWord 32 w

/-- Every slice sleeps until a cycle. -/
def sleeping (til : Nat) : Group := { group0 with slices := group0.slices.map fun x => { x with seq := { x.seq with wait := .sleep til } } }

/-- The placed clause with a head of all zeros. -/
def badClause : State := (placed 0x142B1FFB).writeNat 0x200000 4 0

/-- Memory with the tables of Sys2Proof.Machine.Load, which map 2 MiB at VA 0x200000 to the same PA, some bytes there, and 4,096 bytes of scratchpad. -/
def mapped (h : Group) : State :=
  { machine h with
    contexts := [(0, { Context.reset with root0 := 0x1000, eff0 := some 0x1000 })]
    launches := [(1, { launch0 with card := { Load.card with scratch := 4096 } })]
    mem := [(0x1000, 1), (0x1001, 0x20), (0x2000, 1), (0x2001, 0x30), (0x3000, 1), (0x3001, 0x40), (0x4008, 0x1F), (0x400A, 0x20), (0x200100, 0x85), (0x200101, 0x96), (0x200103, 0xF7), (0x200120, 0x11), (0x200124, 0x80), (0x200170, 0xFF), (0x200174, 1), (Ops.scratchLoc 3 0x20, 0x42)] }

/-- Pointers: v4:v5 device memory at 0x200100 + 16·l, v8:v9 the scratchpad at 16·l, s4:s5 and s6:s7 one of each, s8:s9 an unmapped page; v6 indexes by 0. -/
def pointers : Group :=
  { filled with
    v := [(512, 0x200100), (514, 0x200120), (519, 0x200170), (768, 0), (770, 4), (775, 0x80), (896, 3), (898, 7), (903, 9),
          (1024, 0), (1026, 0x20), (1031, 0x70), (1152, 0x40000000), (1154, 0x40000000), (1159, 0x40000000)]
    slices := filled.slices.map fun x =>
      { x with s := [(4, 0x200140), (6, 0x30), (7, 0x40000000), (8, 0x800000), (10, 0x200101), (12, 0x200100), (13, 0x20000000), (16, 2)] } }
def memoryMachine : State := mapped pointers

/-- A v block of pointers of which lane 2's is not mapped. -/
def oneBad : Group := { pointers with v := [(512, 0x200100), (514, 0x800000), (519, 0x200170)] }

/-- A long-latency word under way in group0: results for v5, a load of v10 in lanes 0 and 2, and one found faulty. -/
def resultOp : LongOp := slowOp ctxF 5 1 (fun l => [.ofNat 32 (l + 9)]) 2 none
def loadOp : LongOp :=
  { slowOp ctxF 10 2 (fun _ => []) 0 none with
    dest := 10, code := 5, acquire := some 2
    reads := [{ lane := some 0, cells := (List.range 8).map fun i => (0x200100 + i, some (.ofNat 8 (200 + i))) }, { lane := some 2, cells := (List.range 8).map fun i => (0x200110 + i, some 1) }] }
def trap9 : Trap :=
  { stage := 7, cause := 0x09, pc := 0x200004, word := 0, faddr := 0x800000, level := 4, kind := 1, async := true, lanes := 0x85, slices := 15, born := 0 }
def underWay : Group := { filled with longs := [(7, resultOp), (8, loadOp), (9, { resultOp with fault := some trap9 })] }

def p21 : PendingStore := { id := 21, group := 4, cells := [(0x200100, 7), (0x200101, 8)], ptrs := [0x200100], ordered := false, unit := 2, through := [], fenced := false }
def p22 : PendingStore := { id := 22, group := 4, cells := [(0x200101, 9)], ptrs := [0x200101], ordered := false, unit := 1, through := [], fenced := false }
/-- Core 1 with two stores in flight to one byte, and the tables mapped. -/
def inFlight : State :=
  (mapped pointers).onCore 1 fun k => { k with l1 := [(0x4002, List.replicate 128 1)], stores := [p21, p22] }

/-- The same with an atomic of the group on its way. -/
def atomOnItsWay : State :=
  { inFlight with net := [{ pod := 0, group := 4, op := 7, lane := 0, ask := .atom .add32 [0x200100, 0x200101, 0x200102, 0x200103] 1 0 }] }

/-- What the walk of 0x200100 reads: the tables and the entries of each level. -/
def walkTable (s : State) (root va : Nat) : Nat → Nat
  | 0 => 0
  | 1 => root
  | n + 1 => s.readNat (walkTable s root va n + 8 * (va / 2 ^ (57 - 9 * n) % 2 ^ 9)) 8 / 2 ^ 12 % 2 ^ 40 * 2 ^ 12
def walkEntry (s : State) (root va n : Nat) : Nat := s.readNat (walkTable s root va n + 8 * (va / 2 ^ (57 - 9 * n) % 2 ^ 9)) 8

/-- The leaf at 0x200000 with a reserved bit, and without X. -/
def badEntry : State := memoryMachine.writeNat 0x4008 8 0x20101F
def noExec : State := memoryMachine.writeNat 0x4008 8 0x200017

/-- An atomic at pod 0 on the 4 or 8 bytes from 0x200100 on. -/
def atomRequest (o : AtomOp) (b c : DWord) : Request :=
  { pod := 0, group := 4, op := 7, lane := 2, ask := .atom o ((List.range o.size).map (0x200100 + ·)) b c }
def atPod (q : List Request) : State := { memoryMachine with podQ := [(0, q)] }

/-- Every lane names one key; no lane is active. -/
def oneKey : Group := withRegs [(4, 9), (5, 1), (6, 3)] [(4, 9), (5, 1), (6, 3)]
def noneActive : Group := { oneKey with slices := oneKey.slices.map fun x => { x with seq := { x.seq with a := 0 } } }

/-- A waypoint section with key 0x900: its holder, a wait at 5 and a tentative skip at 4. -/
def section0 : WayEntry :=
  { next := 3, holder := some (4, 0, 7), poison := false, waits := [{ seq := 5, group := 4, op := 6, lane := 1 }], skips := [{ seq := 4, firm := false, group := 4, op := 5, lane := 1 }],
    ext := false }
def freeSection : WayEntry := { next := 3, holder := none, poison := false, waits := [], skips := [], ext := true }
def wayMachine (e : WayEntry) (g : Group) (ask : Ask) (lane : Nat) : State :=
  { machine g with waypoints := [(0x900, e)], podQ := [(2, [{ pod := 2, group := 4, op := 9, lane := lane, ask := ask }])] }
/-- Lane 0 of the group holds a section, and lane 1 holds 15. -/
def holding : Group := { filled with sections := [(0, 1), (1, 15)] }

/-- Where lane l's atomic of n bytes through v4:v5 of pointers goes. -/
def targetAt (n : Nat) (l : Option Nat) : Target :=
  match memoryMachine.checkPtr (memoryMachine.agentOf 4 pointers) [0, 1, 2, 4, 5, 8, 10] ((issue.ctx pointers).rd64 4 (l.getD 0)) n .atomic with
  | .ok t => t
  | .error _ => { locs := [], type := 0 }

/-- A way word of a group: kind, keys, requests not answered, lanes refused. -/
def wayOp (minor waiting : Nat) (failed : Tab (BitVec 8)) : WayOp :=
  { minor := minor, word := 0, pc := 0x200004, slices := 15, exec := 0x5, keys := [(0, 0x900), (2, 0x901)], start := 10, limit := 50, waiting := waiting, granted := [0],
    failed := failed }
/-- group0 waiting for way word 9. -/
def inWay (w : WayOp) : Group :=
  { group0 with ways := [(9, w)], slices := group0.slices.map fun x => { x with gang := 0, seq := { x.seq with pc := 0x200010, wait := .way 9 } } }
/-- Its keys: 0x900 held by lane 0 of group 4 itself, which waits for 0x901 held by lane 2. -/
def deadlocked : State :=
  { machine (inWay (wayOp 0 1 [])) with
    waypoints := [(0x900, { section0 with holder := some (4, 2, 9), waits := [{ seq := 5, group := 4, op := 9, lane := 0 }], skips := [] }),
                  (0x901, { section0 with holder := some (4, 0, 9), waits := [{ seq := 5, group := 4, op := 9, lane := 2 }], skips := [] })] }

/-- The block with barrier 0 and barrier 2, allocated for n arrivals, of which those of `arrived` have been made. -/
def barriers (n : Nat) (arrived : List Nat) (last : Tab Nat) (g : Group) : State :=
  { machine g with
    blocks := [(3, { Load.block 0 with barriers :=
      [(0, { Barrier.free with alloc := true }), (2, { alloc := true, gen := 1, count := n, phase := 4, arrived := arrived, last := last })] })] }
/-- s8 holds the handle of barrier 2, s9 one of the generation before. -/
def handles : Group := withRegs [] [(8, 0x102), (9, 2)]
/-- Every barrier of the block allocated. -/
def allAllocated : State :=
  { machine handles with blocks := [(3, { Load.block 0 with barriers := (List.range 16).map fun i => (i, { Barrier.free with alloc := true }) })] }

/-- Cluster barrier 1 and the grid barrier with an arrival of group 4 or none, in a cooperative launch. -/
def wide (arrived : List Nat) (last : Tab Nat) (g : Group) : State :=
  { machine g with
    clusters := [(2, { blocks := [3], barriers := [(1, { phase := 4, arrived := arrived, last := last })] })]
    launches := [(1, { launch0 with card := { Load.card with flags := 6 }, grid := { phase := 4, arrived := arrived, last := last } })] }
/-- group0 next to a group 6 of the same block that has not arrived. -/
def twoGroups (s : State) : State := { s with groups := s.groups ++ [(6, group0)] }


/-- `mapped` with its block and its launch record changed. -/
def working (k : Block → Block) (r : LaunchRec → LaunchRec) (h : Group) : State :=
  let s := mapped h
  { s with blocks := [(3, k (Load.block 0))], launches := [(1, { launch0 with card := r { Load.card with scratch := 4096 } })] }
/-- s8 holds n. -/
def s8 (n : Word) : Group := withRegs [] [(8, n)]
/-- s8:s9 points to a launch record of zeros but for FLAGS. -/
def launching (flags : Nat) (r : LaunchRec → LaunchRec) : State := (working id r (s8 0x200180)).writeNat 0x2001C0 4 flags
def cardAt (s : State) : LaunchRec × Bool := LaunchRec.parse (bytesToNat ((List.range 128).map fun i => s.freshByte 1 (0x200180 + i)))
/-- group0 with an extended block, pending v50, a claim it may spill. -/
def extGroup : Group := { withRegs [(50, 7), (4, 9)] [(8, 1)] with held := true }
def pendingExt : Group := { extGroup with longs := [(7, { resultOp with vMarks := [50] })] }
def entry2M : TlbEntry :=
  { ctx := 0, space := 0, root := 0x1000, va := 0x200000, size := 2 ^ 21, pa := 0x200000, level := 4, w := true, x := true, u := true, type := 0 }
/-- Group 4 heads the line of its core; 3,072 bytes of group-local space a group at 0x200000 on. -/
def lined (h : Group) : State := (working id (fun r => { r with localBase := 0x200000, localSize := 4096 }) h).onCore 1 fun k => { k with regLine := [4], tlb := [entry2M] }
/-- group0 waiting, its extended block held, while group 6 waits for one the core does not have. -/
def spilling : State :=
  let g := { extGroup with slices := extGroup.slices.map fun x => { x with gang := 0, seq := { x.seq with wait := .sleep 1000 } } }
  let s := (working id (fun r => { r with localBase := 0x200000, localSize := 4096 }) g).onCore 1 fun k => { k with regLine := [6], lastIssue := 1, tlb := [entry2M] }
  let other (i : Nat) : Nat × Group := (6 + i, { Load.card.group 3 (1 + i) 1 0 0 with width := 128 })
  { s with cycle := 10000, awake := 10000, groups := (4, g) :: (List.range 21).map other }
def wordsOf (s : State) (h : Group) (k : Access) : List (Nat × Nat × Nat) := (s.extTargets 4 h k).getD []

/-- A command of group 4. -/
def cmdOf (id : Nat) (cmd : Cmd) (ps : List Word) : EngCmd :=
  { id := id, cmd := cmd, params := ps, token := 1, group := 4, slices := 3, epoch := 0, block := 3, scope := 0, aq := false, rl := false, done := 0, flag := false,
    waits := none, sent := false, answer := none }
/-- Core 1 with n commands in an engine's queue. -/
def engaged (e : Engine) (n : Nat) (h : Group) : State :=
  (mapped h).onCore 1 fun k => k.setQueue e ((List.range n).map fun i => cmdOf (50 + i) (.tzero 0) [])
/-- The launch of `mapped` without privilege. -/
def lowly (h : Group) : State := working id (fun r => { r with flags := 0 }) h
/-- n accumulator names or slots of the block bound. -/
def bound (acc : Bool) (n : Nat) (h : Group) : State :=
  working (fun b => { b with bindings := (List.range n).map fun i => { name := i, acc := acc, freed := none, code := 0, rows := 0, cols := 0, bytes := [] } }) id h
/-- Block b owns core 1's chart, with a depth and an epoch. -/
def charted (b : Option Nat) (depth : Nat) (h : Group) : State :=
  (mapped h).onCore 1 fun k => { k with chart := { Chart.reset with owner := b, depthIssued := depth, te := 5, orgx := 7, orgy := 9 } }

/-- Core 1 with one command in an engine's queue, late in a long run; pseudo-channel 0 in all-bank mode for block 9 where held. -/
def turning (e : Engine) (x : EngCmd) (held : Bool) : State :=
  { engaged e 0 pointers with cycle := 10000, awake := 10000, pchannels := if held then [(0, { PChannel.reset with holder := some 9 })] else [] }.onCore 1 fun k => k.setQueue e [x]
/-- A fill of one binary32 at 0x200100. -/
def fillCmd : EngCmd := cmdOf 50 (.copy 5) [0x11, 0, 0x200100, 0, 0x10001, 0, 0, 0x0202]
def claimOf (n : Nat) : Claim := { id := 50, acc := true, n := n, dest := 6, token := 5, group := 4, slices := 3, epoch := 0, block := 3 }
def claiming (n : Nat) : State := (bound true 3 pointers).onCore 1 fun k => { k with accLine := [claimOf n] }
/-- A contribution to a sum of two terms: this device's own, or peer 7's. -/
def contribution (index : Nat) (peer : Option Nat) (home terms : Nat) : Contribution :=
  { id := 77, home := home, minor := 0, count := 1, terms := terms, op := 0, fmt := 2, k := 0, root := 0, index := index, peer := peer, core := 1, cmd := 50,
    data := [0x3F800000] }
/-- The collective this device's command 50 of core 1 takes part in, open at this HOME. -/
def collecting : State :=
  let i : Collective := { first := contribution 0 none 0 2, parts := [contribution 0 none 0 2] }
  { turning .link { cmdOf 50 (.coll 0) [] with sent := true } false with collectives := [i] }

/-- group0 with a handler installed, or none. -/
def trapping (en : Bool) : Group := { filled with trapBase := 0x300000, trapEn := en }
/-- Its trap in slice 0 alone, and the same with every other slice asleep. -/
def trap0 : Trap := { trap9 with slices := 1, lanes := 5, async := false, en := true }
def quiet (g : Group) : Group := { g with slices := g.slices.mapIdx fun i x => if i = 0 then x else { x with seq := { x.seq with wait := .sleep 500 } } }
/-- Block 3 halted by a breakpoint of group 4 with n 7, its record written in slot i, or not yet. -/
def halt3 (index : Option Nat) : Halt := { group := 4, slices := 15, kind := 2, n := 7, pc := 0x200004, index := index }
def halted3 (index : Option Nat) (h : Group) : State := working (fun b => { b with halt := some (halt3 index) }) id h
/-- In a trap handler of slice 0 that word 7 had issued before. -/
def handler1 (kind : HandlerKind) (set : SliceSet) : Handler :=
  { id := 1, kind := kind, h := set, s := set, frame := (List.range 4).map fun i => (i, (filled.slice i).seq), banked := [(0, 9)], before := [7] }
def handling (kind : HandlerKind) (set : SliceSet) : Group := { trapping true with handler := some (handler1 kind set) }
/-- The context's DBGCTL. -/
def debugged (n : BitVec 3) (h : Group) : State :=
  let s := mapped h
  { s with contexts := [(0, { s.context 0 with dbgctl := n, dbgBase := 0x200800 })] }
/-- Soundings of a launch. -/
def soundingOf (on : Bool) : Sounding :=
  { on := on, p := 3, counts := [(0, 5)], tags := [(0, [(7, 3), (9, 1)])], buckets := [(1, 2), (31, 300)] }
def sounded (x : Tab Sounding) (h : Group) : State := { mapped h with soundings := x }
/-- Bytes in the L2 scratch of die 0, of which w ways are taken for it. -/
def scratched (w : Nat) (h : Group) : State :=
  let s := mapped h
  { s with l2way := Tab.set 0 [] 0 w, mem := s.mem ++ [(Ops.l2Loc 0 5, 1), (Ops.l2Loc 0 50331647, 2), (Ops.l2Loc 0 50331648, 3), (Ops.l2Loc 0 (2 * 50331648), 4)] }
/-- A launch that owes a kill record to queue 2. -/
def killRec : KillRecord :=
  { tcause := 0x1E, tword := 0x142B1FFB, inner := 9, pc := 0x200004, faddr := 0x800000, blockx := 1, blocky := 2, blockz := 0, gid := 3, index := 5 }
def owing (count : Nat) : State :=
  let s := mapped filled
  State.writeNat { s with queues := [(2, { Queue.reset with base := 0x200000 })],
                          launches := [(1, { launch0 with host := 2, kills := [killRec] })] } 0x200040 4 count
/-- Block 3 halted, its groups stopped, with its context's ring of debug records at 0x200800: w records written, r read. -/
def recording (w r : Nat) : State :=
  let s := halted3 none { filled with runs := none, slices := filled.slices.map fun x => { x with gang := 0 } }
  ((State.writeNat { s with contexts := [(0, { s.context 0 with dbgBase := 0x200800 })] } 0x200800 8 w).writeNat 0x200808 8 r)

/-- Launch queue 2 in a region at 0x300000 with its head and tail, the Pilot's copy of the tail, and the record of `Load.card` in slot head mod 16. -/
def piloted (head tail copy : Nat) (entry : Nat) : State :=
  let q : Queue := { Queue.reset with base := 0x300000, en := true, prio := 1, tail := .ofNat 64 copy }
  let slot := 0x300100 + 128 * (head % 16)
  { memoryMachine with
    queues := [(2, q)]
    mem := (List.range 8).filterMap (fun i => if (BitVec.ofNat 8 (head / 2 ^ (8 * i)) : Byte) = 0 then none else some (0x300000 + i, .ofNat 8 (head / 2 ^ (8 * i)))) }
  |>.writeNat 0x300080 8 tail |>.writeNat slot 8 entry |>.writeNat (slot + 0x34) 4 0x01010010 |>.writeNat (slot + 0x38) 4 1 |>.writeNat (slot + 0x3C) 4 0x00010001
def recordOf (s : State) (head : Nat) : LaunchRec × Bool := LaunchRec.parse (s.readNat (0x300000 + 256 + 128 * (head % 16)) 128)
def devRecord : DevRecord := { card := { Load.card with flags := 0 }, ctx := 0, host := 2, index := 5 }
/-- Queue 2 and device queue 1 hold launches with blocks to place, queue 2 having waited w placements. -/
def placing (w : Nat) : State :=
  let card := { Load.card with gridx := 3, gridy := 2, width := 32, groups := 2, param := 0x500000006 }
  { memoryMachine with
    queues := [(2, { Queue.reset with en := true, prio := 2, current := some 1, waited := w }), (65, { Queue.reset with current := some 7 })]
    launches := [(1, { Launch.new card 2 2 9 0 with nextBlock := 5 }), (7, { Launch.new { card with gridx := 1 } 65 2 9 0 with nextBlock := 0 })]
    nextId := 20 }
/-- Group 4 alone, its lanes exited, or with group 6 beside it. -/
def finishing (two : Bool) : State :=
  let g := { filled with killed := false, slices := filled.slices.map fun x => { x with exited := 15, gang := 0, seq := Seq.empty } }
  let s := charted (some 3) 1 g
  { s with groups := if two then [(4, g), (6, group0)] else [(4, g)] }
/-- Launch 1 ended, with a completion pointer and counter 5. -/
def completing (p : DWord) : State :=
  let s := mapped filled
  { s with blocks := [(3, { Load.block 0 with ended := true })], groups := [], queues := [(2, Queue.reset)]
           launches := [(1, { launch0 with host := 2, card := { Load.card with counter := 0x85, compPtr := p, compVal := 77 } })] }
/-- Block 3 with two requests of `fetchw` and one block of its launch left, or none. -/
def fetching (cluster next : Nat) : State :=
  let s := mapped filled
  { s with blocks := [(3, { Load.block 0 with fetchws := [16, 32] })]
           launches := [(1, { launch0 with nextBlock := next, card := { Load.card with gridx := 3, gridy := 2, cluster := cluster, scratch := 4096 } })] }
/-- group0 waiting for the answer to `launch` 9, and n records in device queue 1. -/
def asking (card : LaunchRec) : LaunchReq :=
  { op := 9, group := 4, slices := 15, epoch := 0, reg := 8, prio := 1, word := 0, pc := 0x200004, card := card, zeros := true }
def answering (n : Nat) (card : LaunchRec) : State :=
  let g := { filled with slices := filled.slices.map fun x => { x with seq := { x.seq with wait := .launch 9 } } }
  { mapped g with
    launchReqs := [asking card]
    devQueues := [(65, List.replicate n devRecord)] }

/-- A unit of block 3 alone. -/
def unit3 : PreUnit :=
  { blocks := [3], bound := 5000, t0 := 50, path := false, entered := false, course := none, handed := false, away := false, byPreok := false, size := 0, missed := false }
/-- Block 3 in a unit, its group stopped at a clause boundary with a pre-emption handler. -/
def calm (g : Group) : Group := { g with preBase := 0x400000, preEn := true, slices := g.slices.map fun x => { x with gang := 0 } }
def preempting (v : PreUnit) (cycle ended resided : Nat) : State :=
  let s := working (fun b => { b with unit := some 9 }) id (calm filled)
  let c := s.context 0
  { s with cycle := 2 * cycle, awake := 2 * cycle, units := [(9, v)], contexts := [(0, { c with saveSize := 2 ^ 20 })]
           launches := [(1, { launch0 with ended := ended, resided := resided, card := { Load.card with scratch := 4096, preBound := 5000, flags := 3 } })] }
/-- In its pre-emption handler. -/
def handing : Group := handling .pre 15
def preoking (v : PreUnit) (more : Tab Group) : State :=
  let s := working (fun b => { b with unit := some 9 }) id handing
  { s with units := [(9, v)], groups := (4, handing) :: more }
/-- Block 3 swapped out by `preok`. -/
def stowed : State :=
  let g := { calm filled with slices := filled.slices.map fun x => { x with gang := 0, seq := { x.seq with wait := .preok } } }
  let s := working (fun b => { b with unit := some 9, away := true }) id g
  { s with units := [(9, { unit3 with away := true, byPreok := true })] }

/-- Management registers that hold something, a trial of context 5 ending at cycle 90, and its counters. -/
def managed (go : Bool) (endAt : Nat) : State :=
  { memoryMachine with
    queues := [(63, { Queue.reset with base := 0x1234567000, en := true, ctx := 9, prio := 3, logn := 5, stop := true, cfault := true, why := 6 })]
    contexts := [(0, memoryMachine.context 0), (63, { Context.reset with root0 := 0x1234567000, root1 := 0x55000, miss := 3 })]
    counters := [(63, 8)], progress := [(83, 7), (1023, 0x100000002)]
    trial := { Trial.reset with ctx := 5, len := 10, go := go, endAt := endAt, record := [(3, 1), (20, 2)] } }
/-- Idle from cycle 0 with LTOL l, at cycle c, in state n. -/
def idling (l c n : Nat) (way : Tab WayEntry) : State :=
  { scratched 1 filled with ltol := .ofNat 32 l, cycle := 2 * c, rest := n, idleFrom := some 0, waypoints := way, cur := none, groups := [], launches := [], blocks := [], clusters := [] }
/-- Byuth: command 50 a collective at peer 7 that has been sent, and a load under way at peer 7. -/
def linked : State :=
  let hard : LongOp := { loadOp with reads := [{ lane := some 0, cells := [(2 * 2 ^ 64 + 7 * 2 ^ 46 + 5, some 1)] }] }
  let s := turning .link { cmdOf 50 (.coll 0) [0, 0, 0, 0, 0, 0, 0, 0, 7 * 2 ^ 12, 0] with sent := true } false
  { s with groups := [(4, { filled with longs := [(8, hard), (7, resultOp)] })] }

/-! The parts of these machines. -/

def block3 (s : State) : Block := (Tab.find s.blocks 3).getD (Load.block 0)
def group4 (s : State) : Group := (Tab.find s.groups 4).getD group0
def launch1 (s : State) : Launch := (Tab.find s.launches 1).getD launch0
def cluster2 (s : State) : Cluster := (Tab.find s.clusters 2).getD { blocks := [], barriers := [] }
def heldGroup : Group := { filled with held := true }
def spawnedGroup : Group := { group0 with spawned := true }
def poisoned : WayEntry := { section0 with poison := true }
def outRequest : Request := { pod := 2, group := 4, op := 9, lane := 0, ask := .wayout 0x900 }
def requesting : State := { busy with net := [outRequest] }
def oldReply : Reply := { pod := 2, group := 4, op := 7, lane := 2, answer := .old 77 }
def doneReply : Reply := { pod := 1, group := 4, op := 8, lane := 2, answer := .done }
def replying : State := { machine underWay with replies := [doneReply, oldReply] }
/-- n bytes of group-local space; n requests of `fetchw` outstanding; a launch from a launch without privilege. -/
def localOf (n : Nat) : State := working id (fun r => { r with localSize := n }) group0
def fetchesOf (n : Nat) (h : Group) : State := working (fun b => { b with fetchws := (List.range n).map (16 * ·) }) id h
def lowLaunching (flags : Nat) : State := launching flags fun r => { r with flags := 0 }
/-- Core 1's chart with 16 commands queued; stepping A0. -/
def chartFull : State := (charted (some 3) 1 pointers).onCore 1 fun k => { k with chartQ := (List.range 16).map fun i => cmdOf (50 + i) .chreset [] }
def stepA0 : State := { charted (some 3) 1 pointers with stepB0 := false }
def fillTo5 : EngCmd := { fillCmd with token := 5 }
def trapWaits : Group := { quiet (trapping true) with trap := some trap0 }
def lateTrap0 : Trap := { trap0 with async := true }
def openUnit : PreUnit := { unit3 with path := true }
def drainingUnit : PreUnit := { unit3 with course := some 0 }
def bankHeld : State := { memoryMachine with pchannels := [(0, { PChannel.reset with holder := some 9 })] }
def waking (c : Nat) : State := { idling 2 9400 3 [] with wake := some (2 * c) }
def wideCard : LaunchRec := { Load.card with width := 17 }
def noEntry : LaunchRec := { Load.card with entry := 0 }
/-- The same link without a collective on its way. -/
def linkedWords : State := linked.onCore 1 fun k => { k with linkQ := [] }
/-- `inFlight` after a release at device scope. -/
def released : State := (inFlight.release 4 1 2).getD inFlight
/-- The next table is the one the entry names. -/
theorem walkTable_next (s : State) (r va n : Nat) (h : 1 ≤ n) : walkTable s r va (n + 1) = walkEntry s r va n / 2 ^ 12 % 2 ^ 40 * 2 ^ 12 := by
  cases n with
  | zero => omega
  | succ n => rfl
/-- Core 1's TLB holds the 2 MiB page, or its die's walk cache the level-4 table of it. -/
def tlbHeld : State := memoryMachine.onCore 1 fun k => { k with tlb := [entry2M] }
def walkHeld : State := { memoryMachine with walkCache := [(0, [{ ctx := 0, space := 0, root := 0x1000, level := 3, path := 0, table := 0x4000 }])] }
/-- `inFlight` once the group's own writes are performed. -/
def ownDone : State := (inFlight.ownWrites 4 1).getD inFlight
/-- A refused request of way word 9, alone or with the word's other request still on its way. -/
def refusedReply : Reply := { pod := 2, group := 4, op := 9, lane := 2, answer := .failed 0x11 }
def refusing (more : List Request) : State := { machine (inWay (wayOp 0 2 [])) with replies := [doneReply, refusedReply], net := more }
def freeFull : State := chartFull.onCore 1 fun k => { k with chart := { k.chart with owner := none } }

/-! Engines with one command to perform. -/

/-- Two rows of four halves from 0x200100 on, widened to binary32 at 0x200400. -/
def halvesCmd : EngCmd := cmdOf 50 (.copy 4) [0x200100, 0, 0x200400, 0, 0x20004, 8, 16, 0x0203]
/-- A row of one BFP-8 block from storage layout into slot 2, or into slot 9 that the block of `bound` does not hold. -/
def slotCmd (n : Word) : EngCmd := cmdOf 50 (.copy 2) [0x200100, 0, n, 0, 0x10020, 0, 0, 0x3818]
def halfDone : EngCmd := { halvesCmd with done := 1 }
/-- A fill of a format that no slot holds is refused. -/
def badFill : EngCmd := cmdOf 50 (.copy 5) [0x11, 0, 0x200100, 0, 0x10001, 0, 0, 0x0302]
def fillWaiting (t : Nat) : EngCmd := { fillCmd with waits := some t }
/-- Accumulator 0 in a mode, and slots 1 and 2: tiles of binary32 with 1 and 2 first in row 0, or BFP tiles whose first row has v in three mantissas of one block. -/
def tile16 (n : Nat) : Binding :=
  { name := n, acc := false, freed := none, code := 2, rows := 16, cols := 16, bytes := [(2, 0x80), (3, 0x3F), (7, 0x40)] }
def bfpTile (n block : Nat) (v : Byte) : Binding :=
  { name := n, acc := false, freed := none, code := 0x38, rows := 32, cols := 64, bytes := (List.range 3).map fun k => (32 * block + k, v) }
def multiplying (mode tack : Nat) (a b : Binding) : State :=
  working (fun k => { k with bindings := [{ name := 0, acc := true, freed := none, code := mode, rows := tack, cols := 0, bytes := [(2, 0x80), (3, 0x3F)] }, a, b] }) id pointers
def tmmCmd : EngCmd := cmdOf 50 (.tmm false 0 1 2 false) []
def tileCmd (c : Cmd) : EngCmd := cmdOf 50 c []
/-- Pseudo-channel 0 held by block 3, with b register 0 of every bank in a format. -/
def passing (code : Nat) : State :=
  { memoryMachine with pchannels := [(0, { PChannel.reset with
      holder := some 3, b := (List.range 16).map fun b => (16 * b, { code := code, xe0 := 127, xe1 := 128, bits := 0x3C003C00 }) })] }
/-- One row pass at 0x200000 into p[5]. -/
def passCmd (bfp : Bool) : EngCmd := cmdOf 50 (.bkmac bfp false) [0x200000, 0, 0, 0x500, 0x200000, 0, 0]
/-- A chart with two enable entries and something in three cells. -/
def chart2 : Chart :=
  { Chart.reset with enable := [BitVec.allOnes 1024, 0x7], regs := [(1024, 0x3F800000), (1025, 0x40000000), (1026, 0x7FA00000), (2048, 0x40000000), (14 * 1024, 0x40400000)] }
/-- A complete instance of three contributors. -/
def gathered (minor fmt op : Nat) : Collective :=
  let con (i : Nat) (d : List Word) : Contribution := { contribution i none 0 3 with minor := minor, fmt := fmt, op := op, count := 2, root := 1, data := d }
  { first := con 2 [5, 6], parts := [con 2 [5, 6], con 0 [0x3F80, 2], con 1 [0x4000, 0xFFFFFFF0]] }
/-- A reduction of one word at 0x200100 that has not been sent, at this HOME. -/
def sumCmd : EngCmd := cmdOf 50 (.coll 0) [0x200100, 0, 0x200180, 0, 77, 0, 1, 0x10000, 0x20, 0]
def ungated : State := (turning .tile fillCmd false).onCore 1 fun k => { k with gated := 0 }

/-! Groups with a trap pending. -/

/-- Slice 1's trap of this cycle; a group with this trap pending, and without a handler. -/
def trapHigh : Trap := { trap0 with slices := 2, lanes := 0x80, born := 100 }
def pendingTrap (t : Trap) : Group := { quiet (trapping true) with trap := some t }
def disabled0 : Trap := { trap0 with en := false }
def unhandled : Group := { trapWaits with trap := some disabled0, trapEn := false }
/-- The first block halted or the group of a block that stops. -/
def stopping : State := halted3 (some 2) (trapping true)
/-- Slice 0 waits for a `tlbinv`, which waits for store 21 of core 1. -/
def inval7 : Inval := { op := 7, stores := [(1, 21)], words := [] }
def invalGroup : Group := { filled with slices := filled.slices.mapIdx fun i x => if i = 0 then { x with seq := { x.seq with wait := .inval 7 } } else x }
def invalidating (x : Inval) : State := { inFlight with groups := [(4, invalGroup)], invals := [x] }

/-! Ends, and units on their way out. -/

/-- The same with lane 2 still holding section 0x900; launch 1 ended while the pseudo-channel of its completion value is held, or with a sounding. -/
def section3 : State :=
  let g := group4 (finishing false)
  { finishing false with groups := [(4, { g with sections := [(2, 1)] })], waypoints := [(0x900, { section0 with holder := some (4, 2, 9) })] }
def completingHeld (counted : Bool) : State :=
  let s := completing 0x200128
  { s with launches := [(1, { launch1 s with counted := counted })], pchannels := [(0, { PChannel.reset with holder := some 9 })] }
def sounding1 (held : Bool) : State :=
  let s := completing 0
  { s with soundings := [(1, soundingOf true)], pchannels := if held then [(0, { PChannel.reset with holder := some 9 })] else [] }
def silenced : State := { completing 0 with launches := [(1, { launch1 (completing 0) with silent := true })], queues := [] }
def enteredUnit : PreUnit := { openUnit with entered := true }
/-- A unit handed over, with room or without; one swapped out keeps its group's sequencers. -/
def handed (room : Nat) : State :=
  let s := preoking { enteredUnit with handed := true } []
  { s with cur := none, contexts := [(0, { s.context 0 with saveBase := 0x300000, saveSize := room })] }

/-! Registers and peers. -/

/-- Queue 63 not enabled; the link's third choice. -/
def managedOff : State :=
  let s := managed false 0
  { s with queues := [(63, { s.queue 63 with en := false })] }
def linkedTurn (n : Nat) : State := { linked with cur := some { issue with choice := n } }

/-! Traps, stops and swaps: what a word or an event waits for. -/

def trapNow : Trap := { trap0 with born := 100 }
/-- Slice 0 waits for a `wayin` whose time has run out while slice 1 is about to trap. -/
def lateWay : WayOp := { wayOp 0 1 [] with slices := 1 }
def lateGroup : Group := { trapping true with ways := [(9, lateWay)] }
/-- Every slice still runs. -/
def others : Group := { trapWaits with slices := filled.slices }
def inval7Over : Inval := { inval7 with stores := [] }
/-- An atomic to the scratch of die 0 on its way. -/
def l2Atom : State :=
  { scratched 1 (s8 2) with net := [{ pod := 0, group := 4, op := 7, lane := 0, ask := .atom .add32 ((List.range 4).map (Ops.l2Loc 0 5 + ·)) 1 0 }] }
/-- The entry that maps 0x200180 is under an `stl` still in flight. -/
def heldSound : State :=
  (sounded [(1, soundingOf true)] (s8 0x200180)).onCore 1 fun k => { k with stores := [{ p21 with cells := [(0x4008, 0x1F)], ordered := true }] }
/-- The pseudo-channels of the kill record and of the debug record are held. -/
def owingHeld : State := { owing 0 with pchannels := [(0, { PChannel.reset with holder := some 9 })] }
def recordingHeld : State := { recording 3 0 with pchannels := [(4, { PChannel.reset with holder := some 9 })] }
def waitingPreok : Group := { group0 with slices := group0.slices.map fun x => { x with gang := 0, seq := { x.seq with wait := .preok } } }
/-- A unit without a handler path at the choice of its course. -/
def choosing : State := preempting unit3 100 1 400
def stoppedUnit : State := each [3] (fun m s => s.stopBlock m) choosing
/-- A unit handed over; one swapped out by `preok`; a request that asks about a section. -/
def handedUnit : PreUnit := { enteredUnit with handed := true }
def stowedUnit : PreUnit := { unit3 with away := true, byPreok := true }
def askRequest : Request := { pod := 0, group := 4, op := 7, lane := 0, ask := .wayqry 5 }

/-! Witnesses whose hypotheses need more than an evaluation. -/

def landed (o : Host.Outcome State Fault Refusal) (p : State → Bool) : Bool :=
  match o with
  | .next t => p t
  | _ => false

theorem exists_of_landed {o : Host.Outcome State Fault Refusal} {P : State → Prop} [DecidablePred P] (h : landed o (fun t => decide (P t)) = true) :
    ∃ t, o = .next t ∧ P t := by
  cases o with
  | next t => exact ⟨t, rfl, of_decide_eq_true h⟩
  | fault _ => exact absurd h (by simp [landed])
  | refused _ => exact absurd h (by simp [landed])

theorem witness_encode : (Instr.sel 2 5 6 7).wellFormed = true := by decide
theorem witness_decode : decodeWord 0x13414307 = .ok (.sel 2 5 6 7) := rfl

theorem witness_frame_register : RegisterWord (.addI32 5 6 7) 5 1 ∧ Issuing busy issue filled
    ∧ ∃ t, exec (.addI32 5 6 7) busy = .next t ∧ t.cur = some { issue with verdict := .done } :=
  ⟨Or.inl ⟨rfl, Or.inl ⟨intTwo[0], List.getElem_mem _, 6, 7, rfl⟩⟩, by decide +kernel, exists_of_landed (by decide +kernel)⟩
theorem witness_frame_pair : RegisterWord (.addI64 104 106 96) 104 2 ∧ Issuing busy issue filled
    ∧ ∃ t, exec (.addI64 104 106 96) busy = .next t ∧ t.cur = some { issue with verdict := .done } :=
  ⟨Or.inr ⟨rfl, Or.inl ⟨pairTwo[0], List.getElem_mem _, 106, 96, rfl⟩⟩, by decide +kernel, exists_of_landed (by decide +kernel)⟩
theorem witness_frame_mask : MaskWord (.mand 0 1 3) 0 ∧ Issuing busy issue filled
    ∧ ∃ t, exec (.mand 0 1 3) busy = .next t ∧ t.cur = some { issue with verdict := .done } :=
  ⟨Or.inl ⟨maskWords[0], List.getElem_mem _, 1, 3, rfl⟩, by decide +kernel, exists_of_landed (by decide +kernel)⟩

/-- Lanes taken by `br m1` in slice i of a group. -/
def taken (g : Group) (i : Nat) : BitVec 4 :=
  bitSet 4 fun b => ((issue.ctx g).g.slice i).seq.a.getLsbD b && (((issue.ctx g).g.readM (issue.ctx g).exec 1).getLsbD (4 * i + b) != false)
theorem witness_branch_without_room : Issuing (machine (parkedGroup 3)) issue (parkedGroup 3) ∧ Clear (machine (parkedGroup 3)) (issue.ctx (parkedGroup 3)) []
    ∧ ∃ i, issue.slices.getLsbD i = true ∧ taken (parkedGroup 3) i ≠ 0 ∧ taken (parkedGroup 3) i ≠ ((parkedGroup 3).slice i).seq.a
      ∧ 3 ≤ ((parkedGroup 3).slice i).seq.parked.length := ⟨by decide +kernel, by decide +kernel, 0, by decide +kernel⟩
theorem witness_branch_with_room : Issuing (machine (parkedGroup 2)) issue (parkedGroup 2) ∧ Clear (machine (parkedGroup 2)) (issue.ctx (parkedGroup 2)) []
    ∧ ∀ i, i < 32 → issue.slices.getLsbD i = true → ((parkedGroup 2).slice i).seq.parked.length < 3 := by decide +kernel

theorem full_arrival (view : Nat) : fullArrival (joining 0x300004) view 0x300004 := by
  refine ⟨fun l hl => Or.inr ?_, 0, by decide +kernel, _, rfl⟩
  have : l < 16 := hl
  interval_cases l <;> exact ⟨true, rfl⟩
/-- Every lane stands at the join whose timer has run out. -/
theorem witness_join_full : Tab.find (machine (joining 0x300004)).groups 4 = some (joining 0x300004)
    ∧ (¬ ∃ p e, Tab.find (joining 0x300004).joins (p : Pc).toNat = some e
        ∧ timerOut (joining 0x300004) ((machine (joining 0x300004)).nowOf (joining 0x300004) - 1) p e
        ∧ ¬ fullArrival (joining 0x300004) ((machine (joining 0x300004)).nowOf (joining 0x300004) - 1) p)
    ∧ fullArrival (joining 0x300004) ((machine (joining 0x300004)).nowOf (joining 0x300004)) 0x300004 := by
  refine ⟨by decide +kernel, ?_, full_arrival _⟩
  rintro ⟨p, e, h, -, hf⟩
  have hp : p = 0x300004 := by
    by_contra hne
    have : p.toNat ≠ 0x300004 := fun h => hne (BitVec.eq_of_toNat_eq h)
    simp [joining, Tab.find, this.symm] at h
  subst hp
  exact hf (full_arrival _)
/-- The same joins without a timer. -/
def untimed : Group := { joining 0x300014 with joins := [(0x300004, { k := 2, n := 0, start := 0 })] }
theorem not_full_arrival (g : Group) (now : Nat) (hg : g = joining 0x300014 ∨ g = untimed) : ¬ fullArrival g now 0x300004 := by
  rintro ⟨h, -⟩
  rcases hg with rfl | rfl <;>
  (rcases h 4 (by decide +kernel) with h | ⟨a, h⟩
   · exact absurd h (Bool.eq_false_iff.mp rfl)
   · exact absurd ((Prod.mk.inj (Option.some.inj h)).1) (by decide +kernel))
theorem witness_join_stalemate : Tab.find (machine untimed).groups 4 = some untimed
    ∧ (¬ ∃ p e, Tab.find untimed.joins (p : Pc).toNat = some e
        ∧ timerOut untimed ((machine untimed).nowOf untimed - 1) p e ∧ ¬ fullArrival untimed ((machine untimed).nowOf untimed - 1) p)
    ∧ stalemate untimed ((machine untimed).nowOf untimed) 0x300004 ∧ ¬ fullArrival untimed ((machine untimed).nowOf untimed) 0x300004 := by
  refine ⟨by decide +kernel, ?_, ⟨fun l hl => Or.inr ?_, ⟨0, by decide +kernel, _, rfl⟩, ⟨4, 0x300014, by decide +kernel, by decide +kernel, _, rfl⟩, ?_⟩, not_full_arrival _ _ (Or.inr rfl)⟩
  · rintro ⟨p, e, h, ht, -⟩
    by_cases hp : (0x300004 : Nat) = p.toNat <;> simp [untimed, Tab.find, hp] at h
    subst h
    exact absurd ht.1 (by decide)
  · have : l < 16 := hl
    interval_cases l <;> exact ⟨_, _, rfl⟩
  · rintro l p hl ⟨a, h⟩
    have : l < 16 := hl
    interval_cases l <;> (have := Option.some.inj h; rw [← (Prod.mk.inj this).1]; decide +kernel)
/-- The timer ran out in the cycle before, and lanes stand elsewhere. -/
theorem witness_join_timeout : Tab.find (joining 0x300014).joins (0x300004 : Pc).toNat = some { k := 2, n := 1, start := 10 }
    ∧ timerOut (joining 0x300014) ((machine (joining 0x300014)).nowOf (joining 0x300014) - 1) 0x300004 { k := 2, n := 1, start := 10 }
    ∧ ¬ fullArrival (joining 0x300014) ((machine (joining 0x300014)).nowOf (joining 0x300014) - 1) 0x300004 :=
  ⟨by decide +kernel, ⟨by decide, by decide +kernel, 0, by decide +kernel, _, rfl⟩, not_full_arrival _ _ (Or.inl rfl)⟩

/-! Loads and stores. -/

def anySpace : List Nat := [0, 1, 2, 4, 5, 6, 8, 10]
def loadForm : MemForm := ⟨10, 4, [], 4, false, true, fun _ _ => 0, anySpace, .ls, none⟩
def acquireForm : MemForm := ⟨12, 8, [], 5, false, true, fun _ _ => 0, anySpace, .fresh, some 2⟩
def uniformForm : MemForm := ⟨120, 100, [use 96], 4, true, true, fun c l => (c.rd 96 l).toInt * bytesOfCode 4, anySpace, .ls, none⟩
def constantForm : MemForm := ⟨120, 100, [], 6, true, true, fun _ _ => (1 : BitVec 8).toInt * bytesOfCode 6, [0, 1], .k, none⟩
def oddForm : MemForm := ⟨11, 4, [], 5, false, false, fun _ _ => 0, anySpace, .ls, none⟩
def releaseForm : MemForm := ⟨6, 4, [], 4, false, true, fun _ _ => 0, anySpace, .ls, some 2⟩
/-- Where a lane's access goes. -/
def targetOf (s : State) (g : Group) (x : MemForm) (k : Access) (l : Option Nat) : Target :=
  match s.checkPtr (s.agentOf 4 g) x.spaces (x.ptr (issue.ctx g) l) (bytesOfCode x.code) k with
  | .ok t => t
  | .error _ => { locs := [], type := 0 }
/-- The hypotheses of a load of the form x that goes under way in group g. -/
abbrev loadMeets (i : Instr) (s : State) (g : Group) (x : MemForm) : Prop :=
  LoadWord i x ∧ Issuing s issue g ∧ x.limits = true ∧ Clear s (issue.ctx g) x.uses ∧ flagRoom s (issue.ctx g)
    ∧ mayAccess s 4 (s.agentOf 4 g) x.order.isSome ((x.loadLanes (issue.ctx g)).map fun l => (l, x.ptr (issue.ctx g) l))
    ∧ (∀ l ∈ x.loadLanes (issue.ctx g), s.checkPtr (s.agentOf 4 g) x.spaces (x.ptr (issue.ctx g) l) (bytesOfCode x.code) .read = .ok (targetOf s g x .read l))
    ∧ ∀ l ∈ x.loadLanes (issue.ctx g), s.atomBusy 4 ((List.range (bytesOfCode x.code)).map ((targetOf s g x .read l).locs.headD 0 + ·)) = false
theorem witness_load : loadMeets (.ld32 10 4 0) memoryMachine pointers loadForm :=
  ⟨Or.inl ⟨lds[4], List.getElem_mem _, 10, 4, 0, rfl, rfl⟩, by decide +kernel⟩
theorem witness_load_index : loadMeets (.ldx32 120 100 96) memoryMachine pointers uniformForm :=
  ⟨Or.inr (Or.inl ⟨ldxs[4], List.getElem_mem _, 120, 100, 96, rfl, rfl⟩), by decide +kernel⟩
theorem witness_load_constant : loadMeets (.ldk128 120 100 1) memoryMachine pointers constantForm :=
  ⟨Or.inr (Or.inr (Or.inl ⟨ldks[2], List.getElem_mem _, 120, 100, 1, rfl, rfl⟩)), by decide +kernel⟩
theorem witness_load_acquire : loadMeets (.lda64 2 12 8) memoryMachine pointers acquireForm :=
  ⟨Or.inr (Or.inr (Or.inr ⟨ldas[1], List.getElem_mem _, 2, 12, 8, rfl, rfl⟩)), by decide +kernel⟩
theorem witness_load_limits : LoadWord (.ld64 11 4 0) oddForm ∧ Issuing memoryMachine issue pointers ∧ oddForm.limits = false :=
  ⟨Or.inl ⟨lds[5], List.getElem_mem _, 11, 4, 0, rfl, rfl⟩, by decide +kernel⟩
/-- Lane 0's pointer passes and lane 2's does not. -/
theorem witness_load_fault : LoadWord (.ld32 10 4 0) loadForm ∧ Issuing (mapped oneBad) issue oneBad ∧ Clear (mapped oneBad) (issue.ctx oneBad) loadForm.uses
    ∧ flagRoom (mapped oneBad) (issue.ctx oneBad)
    ∧ (loadForm.loadLanes (issue.ctx oneBad)).map (fun l => (l, loadForm.ptr (issue.ctx oneBad) l)) = [(some 0, 0x200100)] ++ (some 2, 0x800000) :: [(some 7, 0x200170)]
    ∧ (mapped oneBad).checkPtr ((mapped oneBad).agentOf 4 oneBad) anySpace 0x200100 4 .read = .ok { locs := [0x200100], type := 0 }
    ∧ (mapped oneBad).checkPtr ((mapped oneBad).agentOf 4 oneBad) anySpace 0x800000 4 .read = .error { cause := 0x09, level := 4, kind := 0 } :=
  ⟨Or.inl ⟨lds[4], List.getElem_mem _, 10, 4, 0, rfl, rfl⟩, by decide +kernel⟩

/-- The hypotheses of a store of the form x that has its effect, with no store of the core still in flight. -/
abbrev storeMeets (i : Instr) (s : State) (g : Group) (x : MemForm) : Prop :=
  StoreWord i x ∧ Issuing s issue g ∧ x.limits = true ∧ Clear s (issue.ctx g) x.uses
    ∧ (∀ l ∈ x.storeLanes (issue.ctx g), s.entryHeld (s.agentOf 4 g) (x.ptr (issue.ctx g) l) = false)
    ∧ (∀ l ∈ x.storeLanes (issue.ctx g), s.checkPtr (s.agentOf 4 g) x.spaces (x.ptr (issue.ctx g) l) (bytesOfCode x.code) .write = .ok (targetOf s g x .write l))
    ∧ s.atomBusy 4 ((x.stored (issue.ctx g) (targetOf s g x .write)).map (·.1)) = false
    ∧ ∀ sc, x.order = some sc → s.release 4 1 sc = some s
def storeForm : MemForm := { loadForm with d := 7 }
def scratchForm : MemForm := ⟨4, 8, [], 6, false, true, fun _ _ => 0, anySpace, .ls, none⟩
def wholeForm : MemForm := { uniformForm with d := 105, a := 102 }
theorem witness_store : storeMeets (.st32 7 4 0) memoryMachine pointers storeForm :=
  ⟨Or.inl ⟨sts[2], List.getElem_mem _, 7, 4, 0, rfl, rfl⟩, by decide +kernel, rfl, by decide +kernel, by decide +kernel, by decide +kernel, by decide +kernel, fun _ h => nomatch h⟩
theorem witness_store_scratch : storeMeets (.st128 4 8 0) memoryMachine pointers scratchForm :=
  ⟨Or.inl ⟨sts[4], List.getElem_mem _, 4, 8, 0, rfl, rfl⟩, by decide +kernel, rfl, by decide +kernel, by decide +kernel, by decide +kernel, by decide +kernel, fun _ h => nomatch h⟩
theorem witness_store_once : storeMeets (.stx32 105 102 96) memoryMachine pointers wholeForm :=
  ⟨Or.inr (Or.inl ⟨stxs[2], List.getElem_mem _, 105, 102, 96, rfl, rfl⟩), by decide +kernel, rfl, by decide +kernel, by decide +kernel, by decide +kernel, by decide +kernel,
   fun _ h => nomatch h⟩
theorem witness_store_release : storeMeets (.stl32 2 6 4) memoryMachine pointers releaseForm :=
  ⟨Or.inr (Or.inr ⟨stls[0], List.getElem_mem _, 2, 6, 4, rfl, rfl⟩), by decide +kernel, rfl, by decide +kernel, by decide +kernel, by decide +kernel, by decide +kernel,
   fun _ h => by cases h; rfl⟩
theorem witness_store_limits : StoreWord (.st64 11 4 0) oddForm ∧ Issuing memoryMachine issue pointers ∧ oddForm.limits = false :=
  ⟨Or.inl ⟨sts[3], List.getElem_mem _, 11, 4, 0, rfl, rfl⟩, by decide +kernel⟩
theorem witness_store_fault : StoreWord (.st32 7 4 0) storeForm ∧ Issuing (mapped oneBad) issue oneBad ∧ Clear (mapped oneBad) (issue.ctx oneBad) storeForm.uses
    ∧ (storeForm.storeLanes (issue.ctx oneBad)).map (fun l => (l, storeForm.ptr (issue.ctx oneBad) l)) = [(some 0, 0x200100)] ++ (some 2, 0x800000) :: [(some 7, 0x200170)]
    ∧ (mapped oneBad).checkPtr ((mapped oneBad).agentOf 4 oneBad) anySpace 0x200100 4 .write = .ok { locs := [0x200100], type := 0 }
    ∧ (mapped oneBad).checkPtr ((mapped oneBad).agentOf 4 oneBad) anySpace 0x800000 4 .write = .error { cause := 0x09, level := 4, kind := 1 } :=
  ⟨Or.inl ⟨sts[2], List.getElem_mem _, 7, 4, 0, rfl, rfl⟩, by decide +kernel⟩



/-! The spill engine. -/

theorem some_getD {α : Type} {o : Option α} {d : α} (h : o.isSome = true) : o = some (o.getD d) := by cases o <;> simp_all
/-- Words from an address on, four bytes apart. -/
theorem spaced {ts : List (Nat × Nat × Nat)} {a n : Nat} (h : ts.map (fun x => x.2.2) = (List.range n).map fun i => a + 4 * i) :
    (∀ x ∈ ts, x.2.2 < a + 4 * n) ∧ (ts.map fun x => x.2.2).Pairwise fun x y => x + 4 ≤ y ∨ y + 4 ≤ x := by
  refine ⟨fun x hx => ?_, ?_⟩
  · have : x.2.2 ∈ (List.range n).map fun i => a + 4 * i := h ▸ List.mem_map_of_mem hx
    obtain ⟨i, hi, hx⟩ := List.mem_map.mp this
    have := List.mem_range.mp hi
    omega
  · rw [h, List.pairwise_map]
    exact List.pairwise_lt_range.imp fun h => by omega
/-- The group whose extended block goes. -/
def victim : Group := (Tab.find spilling.groups 4).getD group0
set_option maxRecDepth 100000 in
theorem words_spaced : (wordsOf spilling victim .write).map (fun x => x.2.2) = (List.range 768).map fun i => 0x200400 + 4 * i := by decide +kernel
set_option maxRecDepth 100000 in
theorem witness_spill : spilling.spillDue 1 = true ∧ spilling.spillVictim 1 = some (4, victim, wordsOf spilling victim .write) ∧ Tab.find spilling.groups 4 = some victim
    ∧ (spilling.agentOf 4 victim).core = 1 ∧ (∀ x ∈ wordsOf spilling victim .write, x.2.2 + 4 ≤ 2 ^ 64)
    ∧ ((wordsOf spilling victim .write).map (·.2.2)).Pairwise fun x y => x + 4 ≤ y ∨ y + 4 ≤ x :=
  ⟨by decide +kernel, rfl, rfl, by decide +kernel, fun x hx => by have := (spaced words_spaced).1 x hx; omega, (spaced words_spaced).2⟩
/-- group0 with a spilled block. -/
def spilledGroup : Group := { group0 with spilled := true }
set_option maxRecDepth 100000 in
theorem witness_regacq_grant_spilled : ((lined spilledGroup).core 1).regLine = [4] ∧ Tab.find (lined spilledGroup).groups 4 = some spilledGroup
    ∧ 48 * spilledGroup.width ≤ (lined spilledGroup).regsFree 1 ∧ spilledGroup.spilled = true ∧ spilledGroup.width ≤ 128
    ∧ (lined spilledGroup).extTargets 4 spilledGroup .read = some (wordsOf (lined spilledGroup) spilledGroup .read) :=
  ⟨by decide +kernel, rfl, by decide +kernel, rfl, by decide +kernel, some_getD (by decide +kernel)⟩

/-! The forms of two words, for the statements on many words at once. -/

/-- The operand limits of `add.i32` and `add.i64`: the second asks for even pairs. -/
abbrev limitsOf (n : Nat) (d a b : BitVec 7) : Prop :=
  (n = 2 → isEven d = true) ∧ (∀ e ∈ [(a, n), (b, n)], e.2 = 2 → isEven e.1 = true) ∧ uniformOk d ([(a, n), (b, n)].map (·.1))
theorem named_add (d a b : BitVec 7) : Named (.addI32 d a b) [useN d 1, useN a 1, useN b 1] (limitsOf 1 d a b) :=
  Or.inl ⟨d, 1, [(a, 1), (b, 1)],
    Or.inr (Or.inr (Or.inr (Or.inr (Or.inr (Or.inl ⟨a, b, rfl, rfl, Or.inl ⟨intTwo[0], List.getElem_mem _, rfl⟩⟩))))), rfl, Iff.rfl⟩
theorem named_add_pair (d a b : BitVec 7) : Named (.addI64 d a b) [useN d 2, useN a 2, useN b 2] (limitsOf 2 d a b) :=
  Or.inl ⟨d, 2, [(a, 2), (b, 2)],
    Or.inr (Or.inr (Or.inr (Or.inr (Or.inr (Or.inr (Or.inr (Or.inl ⟨a, b, rfl, rfl, Or.inl ⟨pairTwo[0], List.getElem_mem _, rfl⟩⟩))))))), rfl, Iff.rfl⟩
theorem named_compare_pair (d : BitVec 3) (a b : BitVec 7) :
    Named (.fcmpEqF64 d a b) [useN a 2, useN b 2] (2 = 2 → isEven a = true ∧ isEven b = true) :=
  Or.inr ⟨a, b, 2, Or.inr (Or.inr ⟨floatCompares[8], List.getElem_mem _, rfl, d, rfl⟩), rfl, Iff.rfl⟩
/-- What `add.f32`, the halves of `add.f16x2` and `fcmp.lt.f64` signal in a lane. -/
def addFlags (c : Ctx) (d a b : BitVec 7) (l : Nat) : Nat := (f32Two[0].2 c.rm (c.rd a l).toNat (c.rd b l).toNat (c.rd d l).toNat).flags
theorem float_add (c : Ctx) (d a b : BitVec 7) (h : uniformOk d [a, b]) :
    FloatWord (.addF32 d a b) c [use d, use a, use b] (isS d) (addFlags c d a b) :=
  Or.inl ⟨f32Two[0], List.getElem_mem _, d, a, b, rfl, h, rfl, rfl, fun _ => rfl⟩
def halfFlags (c : Ctx) (d a b : BitVec 7) (l : Nat) : Nat :=
  let f := halfTwo[0].2 c.rm (c.rd a l).toNat (c.rd b l).toNat (c.rd d l).toNat
  f.1.flags ||| f.2.flags
theorem float_halves (c : Ctx) (d a b : BitVec 7) (h : uniformOk d [a, b]) :
    FloatWord (.addF16x2 d a b) c [use d, use a, use b] (isS d) (halfFlags c d a b) :=
  Or.inr (Or.inr (Or.inr (Or.inr (Or.inl ⟨halfTwo[0], List.getElem_mem _, d, a, b, _, rfl, h, rfl, rfl, fun _ => rfl, fun _ => rfl⟩))))
def lessFlags (c : Ctx) (a b : BitVec 7) (l : Nat) : Nat := compareFlags .f64 true (c.num a 2 l) (c.num b 2 l)
theorem float_less (c : Ctx) (d : BitVec 3) (a b : BitVec 7) (h : isEven a = true ∧ isEven b = true) :
    FloatWord (.fcmpLtF64 d a b) c [useN a 2, useN b 2] (isS a && isS b) (lessFlags c a b) :=
  Or.inr (Or.inr (Or.inr (Or.inr (Or.inr (Or.inl ⟨floatCompares[10], List.getElem_mem _, d, a, b, rfl, fun _ => h, rfl, rfl, fun _ => rfl⟩)))))
def slopeFlags (c : Ctx) (a : BitVec 7) (l : Nat) : Nat :=
  if c.exec.getLsbD (quad l 0 (l % 4 / 2)) = true ∧ c.exec.getLsbD (quad l 1 (l % 4 / 2)) = true
    then (Fmt.f32.sub c.rm (c.rd a (quad l 1 (l % 4 / 2))).toNat (c.rd a (quad l 0 (l % 4 / 2))).toNat).flags else 0x20
theorem float_slope (c : Ctx) (d a : BitVec 7) (h : isS d = false) : FloatWord (.ddxF32 d a) c [use d, use a] false (slopeFlags c a) :=
  Or.inr (Or.inr (Or.inr (Or.inr (Or.inr (Or.inr ⟨derivatives[0], List.getElem_mem _, d, a, rfl, h, rfl, rfl, fun _ => rfl⟩)))))
/-- group0 with register v of every lane, or s of every slice, waiting for a long-latency word. -/
def marked (r : Nat) : Group :=
  { filled with longs := [(9, { resultOp with vMarks := if r < 96 then [r] else [], sMarks := if r < 96 then [] else [r - 96] })] }
/-- Lane 2 compares a quiet NaN; the invalid operation traps. -/
def nans64 : Group := { floats 0x010 with v := (floats 0x010).v.map fun e => if e.1 = 642 then (642, 0x7FF80000) else e }
/-- Derivative-invalid traps. -/
def edges : Group := floats 0x200
/-- Lane 0 adds a signalling NaN of binary16; the invalid operation traps. -/
def nansHalf : Group := { floats 0x010 with v := (floats 0x010).v.map fun e => if e.1 = 512 then (512, 0x7D003C00) else e }
theorem owned_load : OwnedWord (.chld 28 2 3 1) [useS (3 : BitVec 5).toNat 1, useS (28 : BitVec 5).toNat 4] :=
  Or.inr (Or.inr (Or.inl ⟨28, 2, 3, 1, 0, Or.inl rfl, by decide, by decide, rfl⟩))
theorem plain_load (s : State) : experimental s (.chld 28 2 3 1) := fun _ _ _ h => nomatch h
theorem plain_depth (s : State) (p : BitVec 5) (d : BitVec 4) (k : BitVec 3) (e : BitVec 2) : experimental s (.chexp p d k e) := fun _ _ _ h => nomatch h
theorem plain_pop (s : State) : experimental s .chenabPop := fun _ _ _ h => nomatch h


/-! For each clause of each statement, a state and operands that meet its hypotheses. -/

theorem witness_select :
    Issuing busy issue filled ∧ uniformOk 5 [6, 7] ∧ Clear busy (issue.ctx filled) [use 5, use 6, use 7] := by decide +kernel
theorem witness_select_m0 :
    Issuing busy issue filled ∧ isS 5 = false ∧ Clear busy (issue.ctx filled) [use 5, use 6, use 7] := by decide +kernel
theorem witness_integer_two_sources :
    intTwo[0] ∈ intTwo ∧ Issuing busy issue filled ∧ uniformOk 5 [6, 7] ∧ Clear busy (issue.ctx filled) [use 5, use 6, use 7] := ⟨List.getElem_mem _, by decide +kernel⟩
theorem witness_integer_two_sources_uniform :
    intTwo[0] ∈ intTwo ∧ Issuing busy issue filled ∧ uniformOk 104 [105, 96] ∧ Clear busy (issue.ctx filled) [use 104, use 105, use 96] := ⟨List.getElem_mem _, by decide +kernel⟩
theorem witness_bfi :
    Issuing busy issue filled ∧ uniformOk 5 [6, 7] ∧ Clear busy (issue.ctx filled) [use 5, use 6, use 7] := by decide +kernel
theorem witness_integer_one_source :
    intOne[0] ∈ intOne ∧ Issuing busy issue filled ∧ uniformOk 5 [6] ∧ Clear busy (issue.ctx filled) [use 5, use 6] := ⟨List.getElem_mem _, by decide +kernel⟩
theorem witness_packed :
    packedTwo[0] ∈ packedTwo ∧ Issuing busy issue filled ∧ uniformOk 5 [6, 7] ∧ Clear busy (issue.ctx filled) [use 5, use 6, use 7] := ⟨List.getElem_mem _, by decide +kernel⟩
theorem witness_immediate :
    intImm[0] ∈ intImm ∧ Issuing busy issue filled ∧ uniformOk 5 [6] ∧ Clear busy (issue.ctx filled) [use 5, use 6] := ⟨List.getElem_mem _, by decide +kernel⟩
theorem witness_immediate_of_s0 :
    Issuing busy issue filled ∧ Clear busy (issue.ctx filled) [use 5, use 96] := by decide +kernel
theorem witness_constant :
    constants[0] ∈ constants ∧ Issuing busy issue filled ∧ Clear busy (issue.ctx filled) [use 5] := ⟨List.getElem_mem _, by decide +kernel⟩
theorem witness_pair_of_pairs :
    pairTwo[0] ∈ pairTwo ∧ Issuing busy issue filled ∧ isEven 4 = true ∧ isEven 6 = true ∧ isEven 8 = true ∧ uniformOk 4 [6, 8] ∧ Clear busy
      (issue.ctx filled) [useN 4 2, useN 6 2, useN 8 2] := ⟨List.getElem_mem _, by decide +kernel⟩
theorem witness_pair_of_pairs_odd :
    pairTwo[0] ∈ pairTwo ∧ Issuing busy issue filled ∧ issue.snap = none ∧ (isEven 4 = false ∨ isEven 7 = false ∨ isEven 8 = false) := ⟨List.getElem_mem _, by decide +kernel⟩
theorem witness_pair_shift :
    pairWordOf[0] ∈ pairWordOf ∧ Issuing busy issue filled ∧ isEven 4 = true ∧ isEven 6 = true ∧ uniformOk 4 [6, 9] ∧ Clear busy (issue.ctx filled)
      [useN 4 2, useN 6 2, use 9] := ⟨List.getElem_mem _, by decide +kernel⟩
theorem witness_pair_shift_odd :
    pairWordOf[0] ∈ pairWordOf ∧ Issuing busy issue filled ∧ issue.snap = none ∧ (isEven 4 = false ∨ isEven 7 = false) := ⟨List.getElem_mem _, by decide +kernel⟩
theorem witness_pair_of_register :
    pairOne[0] ∈ pairOne ∧ Issuing busy issue filled ∧ isEven 104 = true ∧ uniformOk 104 [107] ∧ Clear busy (issue.ctx filled) [useN 104 2, use 107] := ⟨List.getElem_mem _, by decide +kernel⟩
theorem witness_pair_of_register_odd :
    pairOne[0] ∈ pairOne ∧ Issuing busy issue filled ∧ issue.snap = none ∧ isEven 5 = false := ⟨List.getElem_mem _, by decide +kernel⟩
theorem witness_lea :
    leas[0] ∈ leas ∧ Issuing busy issue filled ∧ isEven 4 = true ∧ isEven 102 = true ∧ uniformOk 4 [102, 3] ∧ Clear busy (issue.ctx filled) [useN 4 2,
      useN 102 2, use 3] := ⟨List.getElem_mem _, by decide +kernel⟩
theorem witness_compare :
    compares[0] ∈ compares ∧ Issuing busy issue filled ∧ Clear busy (issue.ctx filled) [use 6, use 7] := ⟨List.getElem_mem _, by decide +kernel⟩
theorem witness_compare_pairs :
    compares64[0] ∈ compares64 ∧ Issuing busy issue filled ∧ isEven 6 = true ∧ isEven 8 = true ∧ Clear busy (issue.ctx filled) [useN 6 2, useN 8 2] := ⟨List.getElem_mem _, by decide +kernel⟩
theorem witness_mask_word :
    maskWords[0] ∈ maskWords ∧ Issuing busy issue filled ∧ Clear busy (issue.ctx filled) [] := ⟨List.getElem_mem _, by decide +kernel⟩
theorem witness_mask_read :
    maskReads[0] ∈ maskReads ∧ Issuing busy issue filled ∧ isS 104 = true ∧ Clear busy (issue.ctx filled) [use 104] := ⟨List.getElem_mem _, by decide +kernel⟩
theorem witness_stom :
    Issuing busy issue filled ∧ isS 105 = true ∧ Clear busy (issue.ctx filled) [use 105] := by decide +kernel
theorem witness_mlanes :
    Issuing busy issue filled ∧ isS 105 = true ∧ Clear busy (issue.ctx filled) [use 105] := by decide +kernel
theorem witness_ballot :
    Issuing busy issue filled ∧ Clear busy (issue.ctx filled) [use 6] := by decide +kernel
theorem witness_operand_uniform :
    Named (Instr.addI32 104 6 105) [useN 104 1, useN 6 1, useN 105 1] (limitsOf 1 104 6 105) ∧ Issuing busy issue filled ∧ issue.snap = none ∧
      ¬limitsOf 1 104 6 105 := ⟨named_add _ _ _, by decide +kernel⟩
theorem witness_operand_odd :
    Named (Instr.addI64 4 7 8) [useN 4 2, useN 7 2, useN 8 2] (limitsOf 2 4 7 8) ∧ Issuing busy issue filled ∧ issue.snap = none ∧ ¬limitsOf 2 4 7 8 := ⟨named_add_pair _ _ _, by decide +kernel⟩
theorem witness_operand_odd_compare :
    (Named (Instr.fcmpEqF64 1 6 9) [useN 6 2, useN 9 2] (2 = 2 → isEven 6 = true ∧ isEven 9 = true)) ∧ Issuing busy issue filled ∧ issue.snap = none ∧
      (¬(2 = 2 → isEven 6 = true ∧ isEven 9 = true)) := ⟨named_compare_pair _ _ _, by decide +kernel⟩
theorem witness_operand_extended :
    Named (Instr.addI32 5 48 6) [useN 5 1, useN 48 1, useN 6 1] (limitsOf 1 5 48 6) ∧ Issuing busy issue filled ∧ issue.snap = none ∧ limitsOf 1 5 48
      6 ∧ (issue.ctx filled).g.held = false ∧ (∃ x ∈ [useN 5 1, useN 48 1, useN 6 1], ∃ r ∈ x.list, 48 ≤ r ∧ r < 96) := ⟨named_add _ _ _, by decide +kernel⟩
theorem witness_operand_pair_extended :
    Named (Instr.addI64 94 6 8) [useN 94 2, useN 6 2, useN 8 2] (limitsOf 2 94 6 8) ∧ Issuing busy issue filled ∧ issue.snap = none ∧ limitsOf 2 94 6
      8 ∧ (issue.ctx filled).g.held = false ∧ (∃ x ∈ [useN 94 2, useN 6 2, useN 8 2], ∃ r ∈ x.list, 48 ≤ r ∧ r < 96) := ⟨named_add_pair _ _ _, by decide +kernel⟩
theorem witness_operand_marked :
    Named (Instr.addI64 4 8 6) [useN 4 2, useN 8 2, useN 6 2] (limitsOf 2 4 8 6) ∧ Issuing (machine (marked 9)) issue (marked 9) ∧ issue.snap = none ∧
      limitsOf 2 4 8 6 ∧ ((issue.ctx (marked 9)).g.held = true ∨ ∀ x ∈ [useN 4 2, useN 8 2, useN 6 2], ∀ r ∈ x.list, r < 48 ∨ 96 ≤ r) ∧ (∃ x ∈ [useN 4
      2, useN 8 2, useN 6 2], (issue.ctx (marked 9)).pending x = true) := ⟨named_add_pair _ _ _, by decide +kernel⟩
theorem witness_operand_marked_uniform :
    Named (Instr.addI32 5 6 101) [useN 5 1, useN 6 1, useN 101 1] (limitsOf 1 5 6 101) ∧ Issuing (machine (marked 101)) issue (marked 101) ∧
      issue.snap = none ∧ limitsOf 1 5 6 101 ∧ ((issue.ctx (marked 101)).g.held = true ∨ ∀ x ∈ [useN 5 1, useN 6 1, useN 101 1], ∀ r ∈ x.list, r < 48
      ∨ 96 ≤ r) ∧ (∃ x ∈ [useN 5 1, useN 6 1, useN 101 1], (issue.ctx (marked 101)).pending x = true) := ⟨named_add _ _ _, by decide +kernel⟩
theorem witness_operand_token :
    Named (Instr.addI32 5 97 6) [useN 5 1, useN 97 1, useN 6 1] (limitsOf 1 5 97 6) ∧ Issuing (engaged Engine.tile 1 pointers) issue pointers ∧
      issue.snap = none ∧ limitsOf 1 5 97 6 ∧ ((issue.ctx pointers).g.held = true ∨ ∀ x ∈ [useN 5 1, useN 97 1, useN 6 1], ∀ r ∈ x.list, r < 48 ∨ 96 ≤
      r) ∧ (∀ x ∈ [useN 5 1, useN 97 1, useN 6 1], (issue.ctx pointers).pending x = false) ∧ (∃ x ∈ [useN 5 1, useN 97 1, useN 6 1], (issue.ctx
      pointers).tokenPending (engaged Engine.tile 1 pointers) x = true) := ⟨named_add _ _ _, by decide +kernel⟩
theorem witness_binary32_two :
    f32Two[0] ∈ f32Two ∧ Issuing guarded issue (floats 96) ∧ uniformOk 5 [4, 6] ∧ Clear guarded (issue.ctx (floats 96)) [use 5, use 4, use 6] ∧
      (noTrap (issue.ctx (floats 96)) (isS 5) fun (l : ℕ) => (f32Two[0].2 (issue.ctx (floats 96)).rm (BitVec.toNat ((issue.ctx (floats 96)).rd 4 l))
      (BitVec.toNat ((issue.ctx (floats 96)).rd 6 l)) (BitVec.toNat ((issue.ctx (floats 96)).rd 5 l))).flags) := ⟨List.getElem_mem _, by decide +kernel⟩
theorem witness_binary32_uniform :
    f32Two[0] ∈ f32Two ∧ Issuing guarded issue (floats 96) ∧ uniformOk 105 [104, 106] ∧ Clear guarded (issue.ctx (floats 96)) [use 105, use 104, use
      106] ∧ (noTrap (issue.ctx (floats 96)) (isS 105) fun (l : ℕ) => (f32Two[0].2 (issue.ctx (floats 96)).rm (BitVec.toNat ((issue.ctx (floats
      96)).rd 104 l)) (BitVec.toNat ((issue.ctx (floats 96)).rd 106 l)) (BitVec.toNat ((issue.ctx (floats 96)).rd 105 l))).flags) := ⟨List.getElem_mem _, by decide +kernel⟩
theorem witness_binary32_one :
    f32One[0] ∈ f32One ∧ Issuing guarded issue (floats 96) ∧ uniformOk 5 [4] ∧ Clear guarded (issue.ctx (floats 96)) [use 5, use 4] ∧ (noTrap
      (issue.ctx (floats 96)) (isS 5) fun (l : ℕ) => (f32One[0].2 (issue.ctx (floats 96)).rm (BitVec.toNat ((issue.ctx (floats 96)).rd 4 l)) 0
      0).flags) := ⟨List.getElem_mem _, by decide +kernel⟩
theorem witness_half_words :
    halfTwo[0] ∈ halfTwo ∧ Issuing guarded issue (floats 96) ∧ uniformOk 5 [7, 6] ∧ Clear guarded (issue.ctx (floats 96)) [use 5, use 7, use 6] ∧
      (noTrap (issue.ctx (floats 96)) (isS 5) fun (l : ℕ) => (halfTwo[0].2 (issue.ctx (floats 96)).rm (BitVec.toNat ((issue.ctx (floats 96)).rd 7 l))
      (BitVec.toNat ((issue.ctx (floats 96)).rd 6 l)) (BitVec.toNat ((issue.ctx (floats 96)).rd 5 l))).1.flags ||| (halfTwo[0].2 (issue.ctx (floats
      96)).rm (BitVec.toNat ((issue.ctx (floats 96)).rd 7 l)) (BitVec.toNat ((issue.ctx (floats 96)).rd 6 l)) (BitVec.toNat ((issue.ctx (floats
      96)).rd 5 l))).2.flags) := ⟨List.getElem_mem _, by decide +kernel⟩
theorem witness_binary64_two :
    f64Two[0] ∈ f64Two ∧ Issuing guarded issue (floats 96) ∧ isEven 4 = true ∧ isEven 6 = true ∧ isEven 8 = true ∧ uniformOk 4 [6, 8] ∧ Clear guarded
      (issue.ctx (floats 96)) [useN 4 2, useN 6 2, useN 8 2] ∧ (noTrap (issue.ctx (floats 96)) (isS 4) fun (l : ℕ) => (f64Two[0].2 (issue.ctx (floats
      96)).rm (BitVec.toNat ((issue.ctx (floats 96)).rd64 6 l)) (BitVec.toNat ((issue.ctx (floats 96)).rd64 8 l)) (BitVec.toNat ((issue.ctx (floats
      96)).rd64 4 l))).flags) := ⟨List.getElem_mem _, by decide +kernel⟩
theorem witness_binary64_one :
    f64One[6] ∈ f64One ∧ Issuing guarded issue (floats 96) ∧ (f64One[6].2.2.1 = 2 → isEven 4 = true) ∧ (f64One[6].2.1 = 2 → isEven 7 = true) ∧
      uniformOk 4 [7] ∧ Clear guarded (issue.ctx (floats 96)) [useN 4 f64One[6].2.2.1, useN 7 f64One[6].2.1] ∧ (noTrap (issue.ctx (floats 96)) (isS 4)
      fun (l : ℕ) => (f64One[6].2.2.2 (issue.ctx (floats 96)).rm (if f64One[6].2.1 = 2 then BitVec.toNat ((issue.ctx (floats 96)).rd64 7 l) else
      BitVec.toNat ((issue.ctx (floats 96)).rd 7 l)) 0 0).flags) := ⟨List.getElem_mem _, by decide +kernel⟩
theorem witness_float_compare :
    floatCompares[2] ∈ floatCompares ∧ Issuing guarded issue (floats 96) ∧ (floatCompares[2].2.1 = 2 → isEven 4 = true ∧ isEven 6 = true) ∧ Clear
      guarded (issue.ctx (floats 96)) [useN 4 floatCompares[2].2.1, useN 6 floatCompares[2].2.1] ∧ (noTrap (issue.ctx (floats 96)) (isS 4 && isS 6)
      fun (l : ℕ) => compareFlags floatCompares[2].2.2.1 floatCompares[2].2.2.2.2 ((issue.ctx (floats 96)).num 4 floatCompares[2].2.1 l) ((issue.ctx
      (floats 96)).num 6 floatCompares[2].2.1 l)) := ⟨List.getElem_mem _, by decide +kernel⟩
theorem witness_float_compare_pairs :
    floatCompares[10] ∈ floatCompares ∧ Issuing guarded issue (floats 96) ∧ (floatCompares[10].2.1 = 2 → isEven 4 = true ∧ isEven 6 = true) ∧ Clear
      guarded (issue.ctx (floats 96)) [useN 4 floatCompares[10].2.1, useN 6 floatCompares[10].2.1] ∧ (noTrap (issue.ctx (floats 96)) (isS 4 && isS 6)
      fun (l : ℕ) => compareFlags floatCompares[10].2.2.1 floatCompares[10].2.2.2.2 ((issue.ctx (floats 96)).num 4 floatCompares[10].2.1 l)
      ((issue.ctx (floats 96)).num 6 floatCompares[10].2.1 l)) := ⟨List.getElem_mem _, by decide +kernel⟩
theorem witness_long_float_one :
    slowOne[7] ∈ slowOne ∧ Issuing guarded issue (floats 96) ∧ (slowOne[7].2.1 = 2 → isEven 4 = true ∧ isEven 6 = true) ∧ uniformOk 4 [6] ∧ Clear
      guarded (issue.ctx (floats 96)) [useN 4 slowOne[7].2.1, useN 6 slowOne[7].2.1] ∧ flagRoom guarded (issue.ctx (floats 96)) := ⟨List.getElem_mem _, by decide +kernel⟩
theorem witness_long_float_two :
    slowTwo[0] ∈ slowTwo ∧ Issuing guarded issue (floats 96) ∧ (slowTwo[0].2.1 = 2 → isEven 5 = true ∧ isEven 4 = true ∧ isEven 6 = true) ∧ uniformOk
      5 [4, 6] ∧ Clear guarded (issue.ctx (floats 96)) [useN 5 slowTwo[0].2.1, useN 4 slowTwo[0].2.1, useN 6 slowTwo[0].2.1] ∧ flagRoom guarded
      (issue.ctx (floats 96)) := ⟨List.getElem_mem _, by decide +kernel⟩
theorem witness_floating_trap :
    Issuing (machine signalling) issue signalling ∧ FloatWord (Instr.addF32 5 4 6) (issue.ctx signalling) [use 5, use 4, use 6] (isS 5) (addFlags
      (issue.ctx signalling) 5 4 6) ∧ Clear (machine signalling) (issue.ctx signalling) [use 5, use 4, use 6] ∧ 1 = BitVec.toNat (issue.ctx
      signalling).g.rmode / 2 ^ 4 % 2 ^ 6 ∧ (List.find? (fun (l : ℕ) => decide (addFlags (issue.ctx signalling) 5 4 6 l &&& 1 ≠ 0)) ((issue.ctx
      signalling).sigLanes (isS 5)) = some 0) := ⟨by decide +kernel, float_add _ _ _ _ (by decide +kernel), by decide +kernel⟩
theorem witness_floating_trap_halves :
    Issuing (machine nansHalf) issue nansHalf ∧ FloatWord (Instr.addF16x2 5 4 6) (issue.ctx nansHalf) [use 5, use 4, use 6] (isS 5) (halfFlags
      (issue.ctx nansHalf) 5 4 6) ∧ Clear (machine nansHalf) (issue.ctx nansHalf) [use 5, use 4, use 6] ∧ 1 = BitVec.toNat (issue.ctx
      nansHalf).g.rmode / 2 ^ 4 % 2 ^ 6 ∧ (List.find? (fun (l : ℕ) => decide (halfFlags (issue.ctx nansHalf) 5 4 6 l &&& 1 ≠ 0)) ((issue.ctx
      nansHalf).sigLanes (isS 5)) = some 0) := ⟨by decide +kernel, float_halves _ _ _ _ (by decide +kernel), by decide +kernel⟩
theorem witness_floating_trap_compare :
    Issuing (machine nans64) issue nans64 ∧ FloatWord (Instr.fcmpLtF64 1 4 6) (issue.ctx nans64) [useN 4 2, useN 6 2] (isS 4 && isS 6) (lessFlags
      (issue.ctx nans64) 4 6) ∧ Clear (machine nans64) (issue.ctx nans64) [useN 4 2, useN 6 2] ∧ 1 = BitVec.toNat (issue.ctx nans64).g.rmode / 2 ^ 4 %
      2 ^ 6 ∧ (List.find? (fun (l : ℕ) => decide (lessFlags (issue.ctx nans64) 4 6 l &&& 1 ≠ 0)) ((issue.ctx nans64).sigLanes (isS 4 && isS 6)) = some
      2) := ⟨by decide +kernel, float_less _ _ _ _ (by decide +kernel), by decide +kernel⟩
theorem witness_floating_trap_derivative :
    Issuing (machine edges) issue edges ∧ FloatWord (Instr.ddxF32 5 4) (issue.ctx edges) [use 5, use 4] false (slopeFlags (issue.ctx edges) 4) ∧ Clear
      (machine edges) (issue.ctx edges) [use 5, use 4] ∧ 32 = BitVec.toNat (issue.ctx edges).g.rmode / 2 ^ 4 % 2 ^ 6 ∧ (List.find? (fun (l : ℕ) =>
      decide (slopeFlags (issue.ctx edges) 4 l &&& 32 ≠ 0)) ((issue.ctx edges).sigLanes false) = some 0) := ⟨by decide +kernel, float_slope _ _ _ (by decide +kernel), by decide +kernel⟩
theorem witness_rounding :
    Fmt.f32 ∈ [Fmt.f16, Fmt.bf16, Fmt.f32, Fmt.f64] ∧ 0 < 3 ∧ isFinite Fmt.f32 1065353216 ∧ isFinite Fmt.f32 (Fmt.f32.round RMode.rne false 3 (-1)
      false).bits := by decide +kernel
theorem witness_rounding_even :
    Fmt.f16 ∈ [Fmt.f16, Fmt.bf16, Fmt.f32, Fmt.f64] ∧ 0 < 2049 ∧ isFinite Fmt.f16 26625 ∧ isFinite Fmt.f16 (Fmt.f16.round RMode.rne false 2049 0
      false).bits := by decide +kernel
theorem witness_rounding_zero :
    Fmt.f16 ∈ [Fmt.f16, Fmt.bf16, Fmt.f32, Fmt.f64] ∧ 0 < 2049 ∧ isFinite Fmt.f16 59392 := by decide +kernel
theorem witness_rounding_up :
    Fmt.f16 ∈ [Fmt.f16, Fmt.bf16, Fmt.f32, Fmt.f64] ∧ 0 < 2049 ∧ isFinite Fmt.f16 59392 ∧ isFinite Fmt.f16 (Fmt.f16.round RMode.ru true 2049 0
      false).bits := by decide +kernel
theorem witness_rounding_down :
    Fmt.f16 ∈ [Fmt.f16, Fmt.bf16, Fmt.f32, Fmt.f64] ∧ 0 < 2049 ∧ isFinite Fmt.f16 59392 ∧ isFinite Fmt.f16 (Fmt.f16.round RMode.rd true 2049 0
      false).bits := by decide +kernel
theorem witness_geometry_two :
    blockTwo[1] ∈ blockTwo ∧ Issuing (machine heldGroup) issue heldGroup ∧ inBlock 93 blockTwo[1].2.1 ∧ inBlock 85 blockTwo[1].2.2.1 ∧ inBlock 0
      blockTwo[1].2.2.2.1 ∧ uniformOk 93 [85, 0] ∧ (blockTwo[1].2.1 = 4 → isEven 93 = true) ∧ Clear (machine heldGroup) (issue.ctx heldGroup) [useN 93
      blockTwo[1].2.1, useN 85 blockTwo[1].2.2.1, useN 0 blockTwo[1].2.2.2.1] ∧ flagRoom (machine heldGroup) (issue.ctx heldGroup) := ⟨List.getElem_mem _, by decide +kernel⟩
theorem witness_geometry_two_opnd :
    blockTwo[0] ∈ blockTwo ∧ Issuing busy issue filled ∧ issue.snap = none := ⟨List.getElem_mem _, by decide +kernel⟩
theorem witness_edgec_odd :
    blockTwo[2] ∈ blockTwo ∧ Issuing busy issue filled ∧ issue.snap = none := ⟨List.getElem_mem _, by decide +kernel⟩
theorem witness_geometry_one :
    blockOne[0] ∈ blockOne ∧ Issuing busy issue filled ∧ inBlock 104 1 ∧ inBlock 122 6 ∧ uniformOk 104 [122] ∧ Clear busy (issue.ctx filled) [useN 104
      1, useN 122 6] ∧ flagRoom busy (issue.ctx filled) := ⟨List.getElem_mem _, by decide +kernel⟩
theorem witness_geometry_one_opnd :
    blockOne[0] ∈ blockOne ∧ Issuing busy issue filled ∧ issue.snap = none := ⟨List.getElem_mem _, by decide +kernel⟩
theorem witness_lane_moves :
    moves[0] ∈ moves ∧ Issuing busy issue filled ∧ isS 5 = false ∧ Clear busy (issue.ctx filled) [use 5, use 6, use 7] ∧ flagRoom busy (issue.ctx
      filled) := ⟨List.getElem_mem _, by decide +kernel⟩
theorem witness_bcast :
    Issuing busy issue filled ∧ isS 104 = true ∧ isS 5 = false ∧ isS 6 = false ∧ Clear busy (issue.ctx filled) [use 5, use 6, use 104] := by decide +kernel
theorem witness_rdlane :
    Issuing busy issue filled ∧ isS 104 = true ∧ isS 105 = true ∧ isS 6 = false ∧ (Clear busy (issue.ctx filled) [use 105, use 104, { use 6 with lanes := some (if BitVec.getLsbD issue.slices (BitVec.toNat ((issue.ctx filled).rd 104 0) % 128 / 4) = true ∧ BitVec.toNat ((issue.ctx filled).rd 104 0) % 128 / 4 < (issue.ctx filled).g.slices.length ∧ ((issue.ctx filled).g.slice (BitVec.toNat ((issue.ctx filled).rd 104 0) % 128 / 4)).exited.getLsbD (BitVec.toNat ((issue.ctx filled).rd 104 0) % 128 % 4) = false then (issue.ctx filled).exec ||| bitSet 128 fun (l : ℕ) => l == BitVec.toNat ((issue.ctx filled).rd 104 0) % 128 else (issue.ctx filled).exec) }]) := by decide +kernel
theorem witness_wrlane :
    Issuing busy issue filled ∧ isS 104 = true ∧ isS 5 = false ∧ isS 105 = true ∧ (Clear busy (issue.ctx filled) [use 105, use 104, { use 5 with lanes := some (if BitVec.getLsbD issue.slices (BitVec.toNat ((issue.ctx filled).rd 104 0) % 128 / 4) = true ∧ BitVec.toNat ((issue.ctx filled).rd 104 0) % 128 / 4 < (issue.ctx filled).g.slices.length ∧ ((issue.ctx filled).g.slice (BitVec.toNat ((issue.ctx filled).rd 104 0) % 128 / 4)).exited.getLsbD (BitVec.toNat ((issue.ctx filled).rd 104 0) % 128 % 4) = false then (issue.ctx filled).exec ||| bitSet 128 fun (l : ℕ) => l == BitVec.toNat ((issue.ctx filled).rd 104 0) % 128 else (issue.ctx filled).exec) }]) := by decide +kernel
theorem witness_vrdi_v :
    Issuing (machine (withRegs [] [(8, 47)])) issue (withRegs [] [(8, 47)]) ∧ isS 5 = false ∧ isS 104 = true ∧ 47 = BitVec.toNat ((issue.ctx (withRegs
      [] [(8, 47)])).rd 104 0) ∧ Clear (machine (withRegs [] [(8, 47)])) (issue.ctx (withRegs [] [(8, 47)])) [use 5, use 104] ∧ ((issue.ctx (withRegs
      [] [(8, 47)])).g.epochOf issue.slices = 0 ∨ 47 < 120 ∨ 123 < 47) ∧ 47 < 128 ∧ Clear (machine (withRegs [] [(8, 47)])) (issue.ctx (withRegs []
      [(8, 47)])) [{ reg := 47, n := 1, lanes := none : Use }] := by decide +kernel
theorem witness_vrdi_s :
    Issuing (machine (withRegs [] [(8, 127)])) issue (withRegs [] [(8, 127)]) ∧ isS 5 = false ∧ isS 104 = true ∧ 127 = BitVec.toNat ((issue.ctx
      (withRegs [] [(8, 127)])).rd 104 0) ∧ Clear (machine (withRegs [] [(8, 127)])) (issue.ctx (withRegs [] [(8, 127)])) [use 5, use 104] ∧
      ((issue.ctx (withRegs [] [(8, 127)])).g.epochOf issue.slices = 0 ∨ 127 < 120 ∨ 123 < 127) ∧ 127 < 128 ∧ Clear (machine (withRegs [] [(8, 127)]))
      (issue.ctx (withRegs [] [(8, 127)])) [{ reg := 127, n := 1, lanes := none : Use }] := by decide +kernel
theorem witness_vrdi_opnd :
    Issuing (machine (withRegs [] [(8, 128)])) issue (withRegs [] [(8, 128)]) ∧ isS 5 = false ∧ isS 104 = true ∧ 128 = BitVec.toNat ((issue.ctx
      (withRegs [] [(8, 128)])).rd 104 0) ∧ Clear (machine (withRegs [] [(8, 128)])) (issue.ctx (withRegs [] [(8, 128)])) [use 5, use 104] ∧ 128 ≤ 128 := by decide +kernel
theorem witness_vwri :
    Issuing (machine (withRegs [(5, 7)] [(8, 47)])) issue (withRegs [(5, 7)] [(8, 47)]) ∧ isS 104 = true ∧ 47 = BitVec.toNat ((issue.ctx (withRegs
      [(5, 7)] [(8, 47)])).rd 104 0) ∧ Clear (machine (withRegs [(5, 7)] [(8, 47)])) (issue.ctx (withRegs [(5, 7)] [(8, 47)])) [use 104, use 5] ∧ 47 <
      96 ∧ Clear (machine (withRegs [(5, 7)] [(8, 47)])) (issue.ctx (withRegs [(5, 7)] [(8, 47)])) [{ reg := 47, n := 1, lanes := none : Use }] := by decide +kernel
theorem witness_vwri_opnd :
    Issuing (machine (withRegs [(5, 7)] [(8, 96)])) issue (withRegs [(5, 7)] [(8, 96)]) ∧ isS 104 = true ∧ 96 = BitVec.toNat ((issue.ctx (withRegs
      [(5, 7)] [(8, 96)])).rd 104 0) ∧ Clear (machine (withRegs [(5, 7)] [(8, 96)])) (issue.ctx (withRegs [(5, 7)] [(8, 96)])) [use 104, use 5] ∧ 96 ≤
      96 := by decide +kernel
theorem witness_vrdi_interrupted :
    Issuing (machine (handled (withRegs [] [(8, 120)]))) issue (handled (withRegs [] [(8, 120)])) ∧ isS 5 = false ∧ isS 104 = true ∧ 120 =
      BitVec.toNat ((issue.ctx (handled (withRegs [] [(8, 120)]))).rd 104 0) ∧ Clear (machine (handled (withRegs [] [(8, 120)]))) (issue.ctx (handled
      (withRegs [] [(8, 120)]))) [use 5, use 104] ∧ (issue.ctx (handled (withRegs [] [(8, 120)]))).g.epochOf issue.slices ≠ 0 ∧ 120 ≤ 120 ∧ 120 ≤ 123
      ∧ (issue.ctx (handled (withRegs [] [(8, 120)]))).outerPending (120 - 96) = false ∧ (issue.ctx (handled (withRegs [] [(8, 120)]))).outerToken
      (machine (handled (withRegs [] [(8, 120)]))) (120 - 96) = false := by decide +kernel
theorem witness_derivative :
    derivatives[0] ∈ derivatives ∧ Issuing guarded issue (floats 96) ∧ isS 5 = false ∧ Clear guarded (issue.ctx (floats 96)) [use 5, use 4] ∧ (noTrap
      (issue.ctx (floats 96)) false fun (l : ℕ) => (if BitVec.getLsbD (issue.ctx (floats 96)).exec (derivatives[0].2.1 l) = true ∧ BitVec.getLsbD
      (issue.ctx (floats 96)).exec (derivatives[0].2.2 l) = true then Fmt.f32.sub (issue.ctx (floats 96)).rm (BitVec.toNat ((issue.ctx (floats 96)).rd
      4 (derivatives[0].2.2 l))) (BitVec.toNat ((issue.ctx (floats 96)).rd 4 (derivatives[0].2.1 l))) else { bits := 2143289344, flags := 32 : FRes }).flags) := ⟨List.getElem_mem _, by decide +kernel⟩
theorem witness_reduction :
    reductions[0] ∈ reductions ∧ Issuing busy issue filled ∧ Clear busy (issue.ctx filled) [use 105, use 6] := ⟨List.getElem_mem _, by decide +kernel⟩
theorem witness_tree_sum :
    Issuing guarded issue (floats 96) ∧ Clear guarded (issue.ctx (floats 96)) [use 5, use 4] ∧ ((treeFlags (issue.ctx (floats 96)).rm fun (j : ℕ) =>
      if BitVec.getLsbD (issue.ctx (floats 96)).exec j = true then BitVec.toNat ((issue.ctx (floats 96)).rd 4 j) else 0) &&& BitVec.toNat (issue.ctx
      (floats 96)).g.rmode / 2 ^ 4 % 2 ^ 6 = 0) := by decide +kernel
theorem witness_tree_sum_trap :
    Issuing (machine signalling) issue signalling ∧ Clear (machine signalling) (issue.ctx signalling) [use 5, use 4] ∧ (List.find? (fun (l : ℕ) =>
      (List.range 7).any fun (n : ℕ) => decide (nodeFlags (issue.ctx signalling).rm (fun (j : ℕ) => if BitVec.getLsbD (issue.ctx signalling).exec j =
      true then BitVec.toNat ((issue.ctx signalling).rd 4 j) else 0) (n + 1) (l / 2 ^ (n + 1)) &&& BitVec.toNat (issue.ctx signalling).g.rmode / 2 ^ 4
      % 2 ^ 6 ≠ 0)) (members (issue.ctx signalling).exec) = some 0) := by decide +kernel
theorem witness_register_write_v :
    busy.groups.find ctxF.u.group = some filled := by decide +kernel
theorem witness_register_write_s :
    busy.groups.find ctxF.u.group = some filled := by decide +kernel
theorem witness_mask_write :
    busy.groups.find ctxF.u.group = some filled := by decide +kernel
theorem witness_call :
    Issuing busy issue filled ∧ Clear busy (issue.ctx filled) [useS 30 2] := by decide +kernel
theorem witness_ret :
    Issuing (machine (withRegs [] [(30, 3145744), (31, 1)])) issue (withRegs [] [(30, 3145744), (31, 1)]) ∧ (Instr.ret = Instr.ret ∧ false = false ∧
      126 = 126 ∨ Instr.ret = Instr.jmpi 126 ∧ false = false ∨ Instr.ret = Instr.calli 126 ∧ false = true) ∧ isS 126 = true ∧ isEven 126 = true ∧
      (Clear (machine (withRegs [] [(30, 3145744), (31, 1)])) (issue.ctx (withRegs [] [(30, 3145744), (31, 1)])) (if false = true then [useN 126 2,
      useS 30 2] else [useN 126 2])) ∧ BitVec.toNat ((issue.ctx (withRegs [] [(30, 3145744), (31, 1)])).rd64 126 0) < 2 ^ 57 ∧ BitVec.toNat
      ((issue.ctx (withRegs [] [(30, 3145744), (31, 1)])).rd64 126 0) % 4 = 0 := by decide +kernel
theorem witness_jmpi :
    Issuing (machine (withRegs [] [(30, 3145744), (31, 1)])) issue (withRegs [] [(30, 3145744), (31, 1)]) ∧ (Instr.jmpi 126 = Instr.ret ∧ false =
      false ∧ 126 = 126 ∨ Instr.jmpi 126 = Instr.jmpi 126 ∧ false = false ∨ Instr.jmpi 126 = Instr.calli 126 ∧ false = true) ∧ isS 126 = true ∧ isEven
      126 = true ∧ (Clear (machine (withRegs [] [(30, 3145744), (31, 1)])) (issue.ctx (withRegs [] [(30, 3145744), (31, 1)])) (if false = true then
      [useN 126 2, useS 30 2] else [useN 126 2])) ∧ BitVec.toNat ((issue.ctx (withRegs [] [(30, 3145744), (31, 1)])).rd64 126 0) < 2 ^ 57 ∧
      BitVec.toNat ((issue.ctx (withRegs [] [(30, 3145744), (31, 1)])).rd64 126 0) % 4 = 0 := by decide +kernel
theorem witness_calli :
    Issuing (machine (withRegs [] [(30, 3145744), (31, 1)])) issue (withRegs [] [(30, 3145744), (31, 1)]) ∧ (Instr.calli 126 = Instr.ret ∧ true =
      false ∧ 126 = 126 ∨ Instr.calli 126 = Instr.jmpi 126 ∧ true = false ∨ Instr.calli 126 = Instr.calli 126 ∧ true = true) ∧ isS 126 = true ∧ isEven
      126 = true ∧ (Clear (machine (withRegs [] [(30, 3145744), (31, 1)])) (issue.ctx (withRegs [] [(30, 3145744), (31, 1)])) (if true = true then
      [useN 126 2, useS 30 2] else [useN 126 2])) ∧ BitVec.toNat ((issue.ctx (withRegs [] [(30, 3145744), (31, 1)])).rd64 126 0) < 2 ^ 57 ∧
      BitVec.toNat ((issue.ctx (withRegs [] [(30, 3145744), (31, 1)])).rd64 126 0) % 4 = 0 := by decide +kernel
theorem witness_transfer_space :
    Issuing (machine (withRegs [] [(4, 3145744), (5, 33554432)])) issue (withRegs [] [(4, 3145744), (5, 33554432)]) ∧ (Instr.jmpi 100 = Instr.ret ∧
      false = false ∧ 100 = 126 ∨ Instr.jmpi 100 = Instr.jmpi 100 ∧ false = false ∨ Instr.jmpi 100 = Instr.calli 100 ∧ false = true) ∧ isS 100 = true
      ∧ isEven 100 = true ∧ (Clear (machine (withRegs [] [(4, 3145744), (5, 33554432)])) (issue.ctx (withRegs [] [(4, 3145744), (5, 33554432)])) (if
      false = true then [useN 100 2, useS 30 2] else [useN 100 2])) ∧ 2 ^ 57 ≤ BitVec.toNat ((issue.ctx (withRegs [] [(4, 3145744), (5,
      33554432)])).rd64 100 0) := by decide +kernel
theorem witness_transfer_align :
    Issuing (machine (withRegs [] [(4, 3145746), (5, 0)])) issue (withRegs [] [(4, 3145746), (5, 0)]) ∧ (Instr.calli 100 = Instr.ret ∧ true = false ∧
      100 = 126 ∨ Instr.calli 100 = Instr.jmpi 100 ∧ true = false ∨ Instr.calli 100 = Instr.calli 100 ∧ true = true) ∧ isS 100 = true ∧ isEven 100 =
      true ∧ (Clear (machine (withRegs [] [(4, 3145746), (5, 0)])) (issue.ctx (withRegs [] [(4, 3145746), (5, 0)])) (if true = true then [useN 100 2,
      useS 30 2] else [useN 100 2])) ∧ BitVec.toNat ((issue.ctx (withRegs [] [(4, 3145746), (5, 0)])).rd64 100 0) < 2 ^ 57 ∧ BitVec.toNat ((issue.ctx
      (withRegs [] [(4, 3145746), (5, 0)])).rd64 100 0) % 4 ≠ 0 := by decide +kernel
theorem witness_transfer_opnd :
    Issuing busy issue filled ∧ issue.snap = none ∧ (isS 95 = false ∨ isEven 95 = false) := by decide +kernel
theorem witness_exit :
    Issuing busy issue filled ∧ Clear busy (issue.ctx filled) [] := by decide +kernel
theorem witness_join_word :
    Issuing busy issue filled ∧ Clear busy (issue.ctx filled) [] := by decide +kernel
theorem witness_yield :
    ((∃ (k : BitVec 5), Instr.yield 3 = Instr.yield k ∧ 3 = k.toNat) ∨ Instr.yield 3 = Instr.sleep 0 ∧ 3 = 0) ∧ Issuing busy issue filled ∧ Clear busy
      (issue.ctx filled) [] := by decide +kernel
theorem witness_sleep_0 :
    ((∃ (k : BitVec 5), Instr.sleep 0 = Instr.yield k ∧ 0 = k.toNat) ∨ Instr.sleep 0 = Instr.sleep 0 ∧ 0 = 0) ∧ Issuing busy issue filled ∧ Clear busy
      (issue.ctx filled) [] := by decide +kernel
theorem witness_sleep :
    1 ≠ 0 ∧ Issuing busy issue filled ∧ Clear busy (issue.ctx filled) [] := by decide +kernel
theorem witness_sleep_end :
    (machine (sleeping 100)).groups.find 4 = some (sleeping 100) ∧ ((sleeping 100).slice 1).seq.wait = Wait.sleep 100 ∧ 100 ≤ (machine (sleeping
      100)).nowOf (sleeping 100) := by decide +kernel
theorem witness_clause_begins :
    (placed 338370555).groups.find 4 = some (Load.card.group 3 0 0 0 0) ∧ (placed 338370555).groupRuns (Load.card.group 3 0 0 0 0) = true ∧ (15 :
      SliceSet) ≠ 0 ∧ 15 = (Load.card.group 3 0 0 0 0).splitAt (lowest 0 (15 : SliceSet)) ∧ 2097152 = ((Load.card.group 3 0 0 0 0).slice (lowest 0 (15
      : SliceSet))).seq.pc ∧ (0 = (Option.map (fun (x : Issue) => x.choice) (placed 338370555).cur).getD 0) ∧ (placed 338370555).fetchClause 4
      (Load.card.group 3 0 0 0 0) 15 0 (clauseOf 2097152) = Fetch.words [Load.head, 338370555, 0, 0] ∧ clauseOk (placed 338370555).stepB0 [Load.head,
      338370555, 0, 0] = true ∧ (List.find? (fun (j : ℕ) => decide (slotOf 2097152 ≤ j)) (headSlots (decodeHead ([Load.head, 338370555, 0, 0].getD 0
      0))) = some 1) := by decide +kernel
theorem witness_clause_malformed :
    badClause.groups.find 4 = some (Load.card.group 3 0 0 0 0) ∧ badClause.groupRuns (Load.card.group 3 0 0 0 0) = true ∧ (15 : SliceSet) ≠ 0 ∧ 15 =
      (Load.card.group 3 0 0 0 0).splitAt (lowest 0 (15 : SliceSet)) ∧ 2097152 = ((Load.card.group 3 0 0 0 0).slice (lowest 0 (15 : SliceSet))).seq.pc
      ∧ (0 = (Option.map (fun (x : Issue) => x.choice) badClause.cur).getD 0) ∧ badClause.fetchClause 4 (Load.card.group 3 0 0 0 0) 15 0 (clauseOf
      2097152) = Fetch.words [0, 338370555, 0, 0] ∧ clauseOk badClause.stepB0 [0, 338370555, 0, 0] = false := by decide +kernel
theorem witness_fetch_ahead :
    (placed 338370555).groups.find 4 = some (Load.card.group 3 0 0 0 0) ∧ (placed 338370555).groupRuns (Load.card.group 3 0 0 0 0) = true ∧ (15 :
      SliceSet) ≠ 0 ∧ 15 = (Load.card.group 3 0 0 0 0).splitAt (lowest 0 (15 : SliceSet)) ∧ 2097152 = ((Load.card.group 3 0 0 0 0).slice (lowest 0 (15
      : SliceSet))).seq.pc ∧ (0 = (Option.map (fun (x : Issue) => x.choice) (placed 338370555).cur).getD 0) ∧ (placed 338370555).fetchClause 4
      (Load.card.group 3 0 0 0 0) 15 0 (clauseOf 2097152) = Fetch.words [Load.head, 338370555, 0, 0] ∧ (Load.card.group 3 0 0 0 0).ended = false ∧
      (Load.card.group 3 0 0 0 0).killed = false ∧ 0 = 0 / 2 ^ 16 % max 1 (Load.card.group 3 0 0 0 0).slices.length ∧ (15 = if ((Load.card.group 3 0 0
      0 0).slice 0).gang = 0 then (Load.card.group 3 0 0 0 0).splitAt 0 else (Load.card.group 3 0 0 0 0).gangSlices ((Load.card.group 3 0 0 0 0).slice
      0).gang) ∧ (15 : SliceSet) ≠ 0 ∧ ((List.filter (fun (e : Ahead) => BitVec.getLsbD (15 : SliceSet) e.slice) (Load.card.group 3 0 0 0
      0).fetched).length < 4) ∧ (placed 338370555).fetchClause 4 (Load.card.group 3 0 0 0 0) 15 0 (clauseOf 2097152) = Fetch.words [Load.head,
      338370555, 0, 0] ∧ (((Load.card.group 3 0 0 0 0).pathOf ((placed 338370555).core ((placed 338370555).coreOf (Load.card.group 3 0 0 0 0))) 0).2.map
      clauseOf) = some (clauseOf 2097152) := by decide +kernel
theorem witness_result :
    (machine underWay).groups.find 4 = some underWay ∧ underWay.longs.find 7 = some resultOp ∧ resultOp.fault = none ∧ resultOp.waiting = 0 ∧ (∀ r ∈
      resultOp.reads, ∀ c ∈ r.cells, c.2 ≠ none) ∧ (underWay.spilled = true → underWay.killed = false → ∀ r ∈ resultOp.vMarks, r < 48) := by decide +kernel
theorem witness_loaded_result :
    (machine underWay).groups.find 4 = some underWay ∧ underWay.longs.find 8 = some loadOp ∧ loadOp.fault = none ∧ loadOp.waiting = 0 ∧ (∀ r ∈
      loadOp.reads, ∀ c ∈ r.cells, c.2 ≠ none) ∧ (underWay.spilled = true → underWay.killed = false → ∀ r ∈ loadOp.vMarks, r < 48) := by decide +kernel
theorem witness_late_fault :
    (machine underWay).groups.find 4 = some underWay ∧ underWay.longs.find 9 = some ({ resultOp with fault := some trap9 }) ∧ ({ resultOp with fault := some trap9 }).fault
      = some trap9 := by decide +kernel
theorem witness_release :
    inFlight.release 4 1 2 = some released := by decide +kernel
theorem witness_release_group :
    inFlight.release 4 1 0 = some inFlight := by decide +kernel
theorem witness_own_writes :
    inFlight.ownWrites 4 1 = some ownDone := by decide +kernel
theorem witness_fence :
    Issuing inFlight issue pointers ∧ 1 = inFlight.coreOf (issue.ctx pointers).g ∧ Clear inFlight (issue.ctx pointers) [] ∧ (if 1 = 1 then
      inFlight.release issue.group 1 (2) = some released else released = inFlight) ∧ (1 = 1 → released.acquireWaits issue.group 1 = false) := by decide +kernel
theorem witness_fence_release_waits :
    Issuing atomOnItsWay issue pointers ∧ 1 = atomOnItsWay.coreOf (issue.ctx pointers).g ∧ Clear atomOnItsWay (issue.ctx pointers) [] ∧ (1 = 1 ∧
      atomOnItsWay.release issue.group 1 (2) = none ∨ (if 1 = 1 then atomOnItsWay.release issue.group 1 (2) = some atomOnItsWay else atomOnItsWay =
      atomOnItsWay) ∧ 0 = 1 ∧ atomOnItsWay.acquireWaits issue.group 1 = true) := by decide +kernel
theorem witness_fence_acquire_waits :
    Issuing atomOnItsWay issue pointers ∧ 1 = atomOnItsWay.coreOf (issue.ctx pointers).g ∧ Clear atomOnItsWay (issue.ctx pointers) [] ∧ (0 = 1 ∧
      atomOnItsWay.release issue.group 1 (2) = none ∨ (if 0 = 1 then atomOnItsWay.release issue.group 1 (2) = some atomOnItsWay else atomOnItsWay =
      atomOnItsWay) ∧ 1 = 1 ∧ atomOnItsWay.acquireWaits issue.group 1 = true) := by decide +kernel
theorem witness_icinv_all :
    Issuing inFlight issue pointers ∧ 1 = inFlight.coreOf (issue.ctx pointers).g ∧ Clear inFlight (issue.ctx pointers) [] := by decide +kernel
theorem witness_pref :
    Issuing inFlight issue pointers ∧ 1 = inFlight.coreOf (issue.ctx pointers).g ∧ (Instr.prefL2 4 0 = Instr.prefL1 4 0 ∨ Instr.prefL2 4 0 =
      Instr.prefL2 4 0) ∧ isEven 4 = true ∧ Clear inFlight (issue.ctx pointers) [useN 4 2] := by decide +kernel
theorem witness_walk_root :
    (∀ e ∈ Tab.get [] memoryMachine.walkCache 0, ¬(e.ctx = 0 ∧ e.space = 0 ∧ e.root = (memoryMachine.context 0).rootOf 0)) := by decide +kernel
theorem witness_walk_held :
    (0 = if 8 = 8 then 0 else 8) := by decide +kernel
theorem witness_atomic :
    atoms[0] ∈ atoms ∧ Issuing memoryMachine issue pointers ∧ (isEven 4 && decide (9 % atoms[0].2.2.2 = 0) && (decide (12 = 96) || decide (12 < 96) &&
      decide (12 % (atoms[0].2.2.1 / 4) = 0))) = true ∧ (Clear memoryMachine (issue.ctx pointers) [useN 4 2, useN 9 atoms[0].2.2.2, useN 12 (if 12 =
      96 then 1 else atoms[0].2.2.1 / 4)]) ∧ (∀ p ∈ List.map (fun (l : ℕ) => (some l, (issue.ctx pointers).rd64 4 l)) (members (issue.ctx
      pointers).exec), memoryMachine.entryHeld (memoryMachine.agentOf issue.group (issue.ctx pointers).g) p.2 = false) ∧ flagRoom memoryMachine
      (issue.ctx pointers) ∧ (∀ p ∈ List.map (fun (l : ℕ) => (some l, (issue.ctx pointers).rd64 4 l)) (members (issue.ctx pointers).exec),
      memoryMachine.checkPtr (memoryMachine.agentOf issue.group (issue.ctx pointers).g) [0, 1, 2, 4, 5, 8, 10] p.2 atoms[0].2.2.1 Access.atomic =
      Except.ok (targetAt 4 p.1)) ∧ (∀ (l : Option ℕ), List.map (fun (x : ℕ) => (targetAt 4 l).locs.headD 0 + x) (List.range 4) = List.map (fun (x :
      ℕ) => (targetAt 4 l).locs.headD 0 + x) (List.range atoms[0].2.2.1)) ∧ (memoryMachine.drainFor (memoryMachine.agentOf issue.group (issue.ctx
      pointers).g).core (List.flatMap (fun (p : Option ℕ × DWord) => List.map (fun (x : ℕ) => (targetAt 4 p.1).locs.headD 0 + x) (List.range 4))
      (List.map (fun (l : ℕ) => (some l, (issue.ctx pointers).rd64 4 l)) (members (issue.ctx pointers).exec))) = some memoryMachine) := ⟨List.getElem_mem _, by decide +kernel, by decide +kernel, by decide +kernel, by decide +kernel, by decide +kernel, by decide +kernel, by intros; rfl, by decide +kernel⟩
theorem witness_atomic_pair :
    atoms[12] ∈ atoms ∧ Issuing memoryMachine issue pointers ∧ (isEven 4 && decide (8 % atoms[12].2.2.2 = 0) && (decide (96 = 96) || decide (96 < 96)
      && decide (96 % (atoms[12].2.2.1 / 4) = 0))) = true ∧ (Clear memoryMachine (issue.ctx pointers) [useN 4 2, useN 8 atoms[12].2.2.2, useN 96 (if
      96 = 96 then 1 else atoms[12].2.2.1 / 4)]) ∧ (∀ p ∈ List.map (fun (l : ℕ) => (some l, (issue.ctx pointers).rd64 4 l)) (members (issue.ctx
      pointers).exec), memoryMachine.entryHeld (memoryMachine.agentOf issue.group (issue.ctx pointers).g) p.2 = false) ∧ flagRoom memoryMachine
      (issue.ctx pointers) ∧ (∀ p ∈ List.map (fun (l : ℕ) => (some l, (issue.ctx pointers).rd64 4 l)) (members (issue.ctx pointers).exec),
      memoryMachine.checkPtr (memoryMachine.agentOf issue.group (issue.ctx pointers).g) [0, 1, 2, 4, 5, 8, 10] p.2 atoms[12].2.2.1 Access.atomic =
      Except.ok (targetAt 8 p.1)) ∧ (∀ (l : Option ℕ), List.map (fun (x : ℕ) => (targetAt 8 l).locs.headD 0 + x) (List.range 8) = List.map (fun (x :
      ℕ) => (targetAt 8 l).locs.headD 0 + x) (List.range atoms[12].2.2.1)) ∧ (memoryMachine.drainFor (memoryMachine.agentOf issue.group (issue.ctx
      pointers).g).core (List.flatMap (fun (p : Option ℕ × DWord) => List.map (fun (x : ℕ) => (targetAt 8 p.1).locs.headD 0 + x) (List.range 8))
      (List.map (fun (l : ℕ) => (some l, (issue.ctx pointers).rd64 4 l)) (members (issue.ctx pointers).exec))) = some memoryMachine) := ⟨List.getElem_mem _, by decide +kernel, by decide +kernel, by decide +kernel, by decide +kernel, by decide +kernel, by decide +kernel, by intros; rfl, by decide +kernel⟩
theorem witness_atomic_limits :
    atoms[12] ∈ atoms ∧ Issuing memoryMachine issue pointers ∧ issue.snap = none := ⟨List.getElem_mem _, by decide +kernel⟩
theorem witness_atomic_served :
    Tab.get [] (atPod [atomRequest AtomOp.cas64 5 3]).podQ 0 = [atomRequest AtomOp.cas64 5 3] ∧ ((atomRequest AtomOp.cas64 5 3).ask = Ask.atom
      AtomOp.cas64 (List.map (fun (x : ℕ) => 2097408 + x) (List.range AtomOp.cas64.size)) 5 3) ∧ (∀ k < AtomOp.cas64.size, (atPod [atomRequest
      AtomOp.cas64 5 3]).heldAt (2097408 + k) = false) ∧ 5 < 2 ^ (8 * AtomOp.cas64.size) ∧ 3 < 2 ^ (8 * AtomOp.cas64.size) := by decide +kernel
theorem witness_way_key_shared :
    Issuing (machine oneKey) issue oneKey ∧ isEven 4 = true ∧ Clear (machine oneKey) (issue.ctx oneKey) [useN 4 2, use 6] ∧ sharedKey (wayRequests
      (issue.ctx oneKey) 4) = some (0, 4294967305) ∧ Instr.wayin 4 6 ∈ [Instr.wayin 4 6, Instr.wayskip 4 6, Instr.waytry 2 4 6] := by decide +kernel
theorem witness_way_words :
    Issuing (machine filled) issue filled ∧ isEven 4 = true ∧ Clear (machine filled) (issue.ctx filled) [useN 4 2, use 6] ∧ distinctKeys (wayRequests
      (issue.ctx filled) 4) ∧ wayRequests (issue.ctx filled) 4 ≠ [] ∧ flagRoom (machine filled) (issue.ctx filled) := ⟨by decide +kernel, by decide +kernel, by decide +kernel, by unfold distinctKeys; decide +kernel, by decide +kernel⟩
theorem witness_way_words_uniform :
    Issuing (machine oneKey) issue oneKey ∧ isEven 100 = true ∧ Clear (machine oneKey) (issue.ctx oneKey) [useN 100 2, use 102] ∧ distinctKeys
      (wayRequests (issue.ctx oneKey) 100) ∧ wayRequests (issue.ctx oneKey) 100 ≠ [] ∧ flagRoom (machine oneKey) (issue.ctx oneKey) := ⟨by decide +kernel, by decide +kernel, by decide +kernel, by unfold distinctKeys; decide +kernel, by decide +kernel⟩
theorem witness_way_no_lane :
    Issuing (machine noneActive) issue noneActive ∧ isEven 100 = true ∧ Clear (machine noneActive) (issue.ctx noneActive) [useN 100 2, use 102] ∧ isS
      100 = true ∧ (issue.ctx noneActive).exec = 0 := by decide +kernel
theorem witness_wayout :
    Issuing (machine filled) issue filled ∧ isEven 4 = true ∧ Clear (machine filled) (issue.ctx filled) [useN 4 2] ∧ wayRequests (issue.ctx filled) 4
      ≠ [] ∧ (machine filled).release issue.group ((machine filled).coreOf (issue.ctx filled).g) 2 = some (machine filled) := by decide +kernel
theorem witness_wayclose :
    Issuing (machine filled) issue filled ∧ isEven 4 = true ∧ Clear (machine filled) (issue.ctx filled) [useN 4 2] ∧ wayRequests (issue.ctx filled) 4
      ≠ [] := by decide +kernel
theorem witness_wayout_no_lane :
    Issuing (machine noneActive) issue noneActive ∧ isEven 100 = true ∧ Clear (machine noneActive) (issue.ctx noneActive) [useN 100 2] ∧ isS 100 =
      true ∧ (issue.ctx noneActive).exec = 0 := by decide +kernel
theorem witness_wayqry :
    Issuing (machine filled) issue filled ∧ isEven 4 = true ∧ isS 8 = false ∧ isEven 8 = true ∧ Clear (machine filled) (issue.ctx filled) [useN 4 2,
      useN 8 2] ∧ flagRoom (machine filled) (issue.ctx filled) := by decide +kernel
theorem witness_request_poisoned :
    Tab.get [] (wayMachine poisoned filled (Ask.wayin 2304 6) 2).podQ 2 = [{ pod := 2, group := 4, op := 9, lane := 2, ask := Ask.wayin 2304 6 : Request }]
      ∧ (wayMachine poisoned filled (Ask.wayin 2304 6) 2).way 2304 = some poisoned ∧ (wayMachine poisoned filled (Ask.wayin 2304 6) 2).groups.find { pod := 2, group := 4, op := 9, lane := 2, ask := Ask.wayin 2304 6 : Request }.group
      = some filled ∧ (∀ (w : WayOp), filled.ways.find { pod := 2, group := 4, op := 9, lane := 2, ask := Ask.wayin 2304 6 : Request }.op = some w →
      w.failed = []) ∧ (true = true ∧ ({ pod := 2, group := 4, op := 9, lane := 2, ask := Ask.wayin 2304 6 : Request }.ask = Ask.wayin 2304 6 ∨ { pod := 2, group := 4, op := 9, lane := 2, ask := Ask.wayin 2304 6 : Request }.ask
      = Ask.waytry 2304 6) ∨ true = false ∧ { pod := 2, group := 4, op := 9, lane := 2, ask := Ask.wayin 2304 6 : Request }.ask = Ask.wayskip 2304 6)
      ∧ poisoned.poison = true := by decide +kernel
theorem witness_request_used_below :
    Tab.get [] (wayMachine section0 filled (Ask.wayskip 2304 2) 2).podQ 2 = [{ pod := 2, group := 4, op := 9, lane := 2, ask := Ask.wayskip 2304 2 : Request }]
      ∧ (wayMachine section0 filled (Ask.wayskip 2304 2) 2).way 2304 = some section0 ∧ (wayMachine section0 filled (Ask.wayskip 2304 2) 2).groups.find
      { pod := 2, group := 4, op := 9, lane := 2, ask := Ask.wayskip 2304 2 : Request }.group = some filled ∧ (∀ (w : WayOp), filled.ways.find { pod := 2, group := 4, op := 9, lane := 2, ask := Ask.wayskip 2304 2 : Request }.op
      = some w → w.failed = []) ∧ (false = true ∧ ({ pod := 2, group := 4, op := 9, lane := 2, ask := Ask.wayskip 2304 2 : Request }.ask = Ask.wayin
      2304 2 ∨ { pod := 2, group := 4, op := 9, lane := 2, ask := Ask.wayskip 2304 2 : Request }.ask = Ask.waytry 2304 2) ∨ false = false ∧ { pod := 2, group := 4, op := 9, lane := 2, ask := Ask.wayskip 2304 2 : Request }.ask
      = Ask.wayskip 2304 2) ∧ section0.poison = false ∧ (2 ^ 31 ≤ BitVec.toNat (2 - section0.next) ∨ (∃ w ∈ section0.waits, w.seq = 2) ∨ (∃ k ∈
      section0.skips, k.seq = 2) ∨ section0.holder ≠ none ∧ 2 = section0.next) := by decide +kernel
theorem witness_request_used_wait :
    Tab.get [] (wayMachine section0 filled (Ask.wayin 2304 5) 2).podQ 2 = [{ pod := 2, group := 4, op := 9, lane := 2, ask := Ask.wayin 2304 5 : Request }]
      ∧ (wayMachine section0 filled (Ask.wayin 2304 5) 2).way 2304 = some section0 ∧ (wayMachine section0 filled (Ask.wayin 2304 5) 2).groups.find { pod := 2, group := 4, op := 9, lane := 2, ask := Ask.wayin 2304 5 : Request }.group
      = some filled ∧ (∀ (w : WayOp), filled.ways.find { pod := 2, group := 4, op := 9, lane := 2, ask := Ask.wayin 2304 5 : Request }.op = some w →
      w.failed = []) ∧ (true = true ∧ ({ pod := 2, group := 4, op := 9, lane := 2, ask := Ask.wayin 2304 5 : Request }.ask = Ask.wayin 2304 5 ∨ { pod := 2, group := 4, op := 9, lane := 2, ask := Ask.wayin 2304 5 : Request }.ask
      = Ask.waytry 2304 5) ∨ true = false ∧ { pod := 2, group := 4, op := 9, lane := 2, ask := Ask.wayin 2304 5 : Request }.ask = Ask.wayskip 2304 5)
      ∧ section0.poison = false ∧ (2 ^ 31 ≤ BitVec.toNat (5 - section0.next) ∨ (∃ w ∈ section0.waits, w.seq = 5) ∨ (∃ k ∈ section0.skips, k.seq = 5) ∨
      section0.holder ≠ none ∧ 5 = section0.next) := by decide +kernel
theorem witness_request_used_skip :
    Tab.get [] (wayMachine section0 filled (Ask.waytry 2304 4) 2).podQ 2 = [{ pod := 2, group := 4, op := 9, lane := 2, ask := Ask.waytry 2304 4 : Request }]
      ∧ (wayMachine section0 filled (Ask.waytry 2304 4) 2).way 2304 = some section0 ∧ (wayMachine section0 filled (Ask.waytry 2304 4) 2).groups.find { pod := 2, group := 4, op := 9, lane := 2, ask := Ask.waytry 2304 4 : Request }.group
      = some filled ∧ (∀ (w : WayOp), filled.ways.find { pod := 2, group := 4, op := 9, lane := 2, ask := Ask.waytry 2304 4 : Request }.op = some w →
      w.failed = []) ∧ (true = true ∧ ({ pod := 2, group := 4, op := 9, lane := 2, ask := Ask.waytry 2304 4 : Request }.ask = Ask.wayin 2304 4 ∨ { pod := 2, group := 4, op := 9, lane := 2, ask := Ask.waytry 2304 4 : Request }.ask
      = Ask.waytry 2304 4) ∨ true = false ∧ { pod := 2, group := 4, op := 9, lane := 2, ask := Ask.waytry 2304 4 : Request }.ask = Ask.wayskip 2304 4)
      ∧ section0.poison = false ∧ (2 ^ 31 ≤ BitVec.toNat (4 - section0.next) ∨ (∃ w ∈ section0.waits, w.seq = 4) ∨ (∃ k ∈ section0.skips, k.seq = 4) ∨
      section0.holder ≠ none ∧ 4 = section0.next) := by decide +kernel
theorem witness_request_used_held :
    Tab.get [] (wayMachine section0 filled (Ask.wayin 2304 3) 2).podQ 2 = [{ pod := 2, group := 4, op := 9, lane := 2, ask := Ask.wayin 2304 3 : Request }]
      ∧ (wayMachine section0 filled (Ask.wayin 2304 3) 2).way 2304 = some section0 ∧ (wayMachine section0 filled (Ask.wayin 2304 3) 2).groups.find { pod := 2, group := 4, op := 9, lane := 2, ask := Ask.wayin 2304 3 : Request }.group
      = some filled ∧ (∀ (w : WayOp), filled.ways.find { pod := 2, group := 4, op := 9, lane := 2, ask := Ask.wayin 2304 3 : Request }.op = some w →
      w.failed = []) ∧ (true = true ∧ ({ pod := 2, group := 4, op := 9, lane := 2, ask := Ask.wayin 2304 3 : Request }.ask = Ask.wayin 2304 3 ∨ { pod := 2, group := 4, op := 9, lane := 2, ask := Ask.wayin 2304 3 : Request }.ask
      = Ask.waytry 2304 3) ∨ true = false ∧ { pod := 2, group := 4, op := 9, lane := 2, ask := Ask.wayin 2304 3 : Request }.ask = Ask.wayskip 2304 3)
      ∧ section0.poison = false ∧ (2 ^ 31 ≤ BitVec.toNat (3 - section0.next) ∨ (∃ w ∈ section0.waits, w.seq = 3) ∨ (∃ k ∈ section0.skips, k.seq = 3) ∨
      section0.holder ≠ none ∧ 3 = section0.next) := by decide +kernel
/-- The sections a request's lane holds or waits for. -/
def sectionsOf (s : State) (r : Request) (g : Group) : Nat :=
  Tab.get 0 g.sections r.lane + (s.waypoints.map fun x => (x.2.waits.filter fun w => w.group == r.group && w.lane == r.lane).length).sum
/-- Lane 1 of the group holds 14 sections and waits for one. -/
def holding14 : Group := { filled with sections := [(1, 14)] }
def sixth (l : Nat) : Request := { pod := 2, group := 4, op := 9, lane := l, ask := .wayin 2304 6 }
theorem witness_request_full_by_wait : sectionsOf (wayMachine section0 holding14 (.wayin 2304 6) 1) (sixth 1) holding14 = 15 := by decide +kernel
theorem witness_request_full :
    Tab.get [] (wayMachine section0 holding (Ask.wayin 2304 6) 1).podQ 2 = [{ pod := 2, group := 4, op := 9, lane := 1, ask := Ask.wayin 2304 6 : Request }]
      ∧ (wayMachine section0 holding (Ask.wayin 2304 6) 1).way 2304 = some section0 ∧ (wayMachine section0 holding (Ask.wayin 2304 6) 1).groups.find { pod := 2, group := 4, op := 9, lane := 1, ask := Ask.wayin 2304 6 : Request }.group
      = some holding ∧ (∀ (w : WayOp), holding.ways.find { pod := 2, group := 4, op := 9, lane := 1, ask := Ask.wayin 2304 6 : Request }.op = some w →
      w.failed = []) ∧ (true = true ∧ ({ pod := 2, group := 4, op := 9, lane := 1, ask := Ask.wayin 2304 6 : Request }.ask = Ask.wayin 2304 6 ∨ { pod := 2, group := 4, op := 9, lane := 1, ask := Ask.wayin 2304 6 : Request }.ask
      = Ask.waytry 2304 6) ∨ true = false ∧ { pod := 2, group := 4, op := 9, lane := 1, ask := Ask.wayin 2304 6 : Request }.ask = Ask.wayskip 2304 6)
      ∧ section0.poison = false ∧ (¬(2 ^ 31 ≤ BitVec.toNat (6 - section0.next) ∨ (∃ w ∈ section0.waits, w.seq = 6) ∨ (∃ k ∈ section0.skips, k.seq = 6)
      ∨ section0.holder ≠ none ∧ 6 = section0.next)) ∧ 15 ≤ sectionsOf (wayMachine section0 holding (Ask.wayin 2304 6) 1) { pod := 2, group := 4, op := 9, lane := 1, ask := Ask.wayin 2304 6 : Request } holding := by decide +kernel
theorem witness_request_wait :
    Tab.get [] (wayMachine section0 holding (Ask.wayin 2304 6) 0).podQ 2 = [{ pod := 2, group := 4, op := 9, lane := 0, ask := Ask.wayin 2304 6 : Request }]
      ∧ (wayMachine section0 holding (Ask.wayin 2304 6) 0).way 2304 = some section0 ∧ (wayMachine section0 holding (Ask.wayin 2304 6) 0).groups.find { pod := 2, group := 4, op := 9, lane := 0, ask := Ask.wayin 2304 6 : Request }.group
      = some holding ∧ (∀ (w : WayOp), holding.ways.find { pod := 2, group := 4, op := 9, lane := 0, ask := Ask.wayin 2304 6 : Request }.op = some w →
      w.failed = []) ∧ section0.poison = false ∧ (¬(2 ^ 31 ≤ BitVec.toNat (6 - section0.next) ∨ (∃ w ∈ section0.waits, w.seq = 6) ∨ (∃ k ∈
      section0.skips, k.seq = 6) ∨ section0.holder ≠ none ∧ 6 = section0.next)) ∧ (wayMachine section0 holding (Ask.wayin 2304 6) 0).recordsFull 2304
      = false ∧ { pod := 2, group := 4, op := 9, lane := 0, ask := Ask.wayin 2304 6 : Request }.ask = Ask.wayin 2304 6 ∧ sectionsOf (wayMachine section0 holding (Ask.wayin 2304 6) 0) { pod := 2, group := 4, op := 9, lane := 0, ask := Ask.wayin 2304 6 : Request } holding
      < 15 := by decide +kernel
theorem witness_request_skip :
    Tab.get [] (wayMachine section0 holding (Ask.wayskip 2304 6) 0).podQ 2 = [{ pod := 2, group := 4, op := 9, lane := 0, ask := Ask.wayskip 2304 6 : Request }]
      ∧ (wayMachine section0 holding (Ask.wayskip 2304 6) 0).way 2304 = some section0 ∧ (wayMachine section0 holding (Ask.wayskip 2304 6)
      0).groups.find { pod := 2, group := 4, op := 9, lane := 0, ask := Ask.wayskip 2304 6 : Request }.group = some holding ∧ (∀ (w : WayOp),
      holding.ways.find { pod := 2, group := 4, op := 9, lane := 0, ask := Ask.wayskip 2304 6 : Request }.op = some w → w.failed = []) ∧
      section0.poison = false ∧ (¬(2 ^ 31 ≤ BitVec.toNat (6 - section0.next) ∨ (∃ w ∈ section0.waits, w.seq = 6) ∨ (∃ k ∈ section0.skips, k.seq = 6) ∨
      section0.holder ≠ none ∧ 6 = section0.next)) ∧ (wayMachine section0 holding (Ask.wayskip 2304 6) 0).recordsFull 2304 = false ∧ { pod := 2, group := 4, op := 9, lane := 0, ask := Ask.wayskip 2304 6 : Request }.ask
      = Ask.wayskip 2304 6 := by decide +kernel
theorem witness_request_try :
    Tab.get [] (wayMachine freeSection holding (Ask.waytry 2304 3) 0).podQ 2 = [{ pod := 2, group := 4, op := 9, lane := 0, ask := Ask.waytry 2304 3 : Request }]
      ∧ (wayMachine freeSection holding (Ask.waytry 2304 3) 0).way 2304 = some freeSection ∧ (wayMachine freeSection holding (Ask.waytry 2304 3)
      0).groups.find { pod := 2, group := 4, op := 9, lane := 0, ask := Ask.waytry 2304 3 : Request }.group = some holding ∧ (∀ (w : WayOp),
      holding.ways.find { pod := 2, group := 4, op := 9, lane := 0, ask := Ask.waytry 2304 3 : Request }.op = some w → w.failed = []) ∧ { pod := 2, group := 4, op := 9, lane := 0, ask := Ask.waytry 2304 3 : Request }.ask
      = Ask.waytry 2304 3 ∧ freeSection.poison = false ∧ (¬(2 ^ 31 ≤ BitVec.toNat (3 - freeSection.next) ∨ (∃ w ∈ freeSection.waits, w.seq = 3) ∨ (∃ k
      ∈ freeSection.skips, k.seq = 3) ∨ freeSection.holder ≠ none ∧ 3 = freeSection.next)) ∧ sectionsOf (wayMachine freeSection holding (Ask.waytry 2304 3) 0) { pod := 2, group := 4, op := 9, lane := 0, ask := Ask.waytry 2304 3 : Request } holding
      < 15 := by decide +kernel
theorem witness_request_try_refused :
    Tab.get [] (wayMachine section0 holding (Ask.waytry 2304 6) 0).podQ 2 = [{ pod := 2, group := 4, op := 9, lane := 0, ask := Ask.waytry 2304 6 : Request }]
      ∧ (wayMachine section0 holding (Ask.waytry 2304 6) 0).way 2304 = some section0 ∧ (wayMachine section0 holding (Ask.waytry 2304 6) 0).groups.find
      { pod := 2, group := 4, op := 9, lane := 0, ask := Ask.waytry 2304 6 : Request }.group = some holding ∧ (∀ (w : WayOp), holding.ways.find { pod := 2, group := 4, op := 9, lane := 0, ask := Ask.waytry 2304 6 : Request }.op
      = some w → w.failed = []) ∧ { pod := 2, group := 4, op := 9, lane := 0, ask := Ask.waytry 2304 6 : Request }.ask = Ask.waytry 2304 6 ∧
      section0.poison = false ∧ (¬(2 ^ 31 ≤ BitVec.toNat (6 - section0.next) ∨ (∃ w ∈ section0.waits, w.seq = 6) ∨ (∃ k ∈ section0.skips, k.seq = 6) ∨
      section0.holder ≠ none ∧ 6 = section0.next)) ∧ sectionsOf (wayMachine section0 holding (Ask.waytry 2304 6) 0) { pod := 2, group := 4, op := 9, lane := 0, ask := Ask.waytry 2304 6 : Request } holding
      < 15 := by decide +kernel
theorem witness_request_out :
    Tab.get [] (wayMachine section0 holding (Ask.wayout 2304) 0).podQ 2 = [{ pod := 2, group := 4, op := 9, lane := 0, ask := Ask.wayout 2304 : Request }]
      ∧ (wayMachine section0 holding (Ask.wayout 2304) 0).way 2304 = some section0 ∧ (wayMachine section0 holding (Ask.wayout 2304) 0).groups.find { pod := 2, group := 4, op := 9, lane := 0, ask := Ask.wayout 2304 : Request }.group
      = some holding ∧ (∀ (w : WayOp), holding.ways.find { pod := 2, group := 4, op := 9, lane := 0, ask := Ask.wayout 2304 : Request }.op = some w →
      w.failed = []) ∧ { pod := 2, group := 4, op := 9, lane := 0, ask := Ask.wayout 2304 : Request }.ask = Ask.wayout 2304 ∧ section0.holder = some
      ({ pod := 2, group := 4, op := 9, lane := 0, ask := Ask.wayout 2304 : Request }.group, { pod := 2, group := 4, op := 9, lane := 0, ask := Ask.wayout 2304 : Request }.lane,
      7) := by decide +kernel
theorem witness_request_close :
    Tab.get [] (wayMachine freeSection holding (Ask.wayclose 2304) 2).podQ 2 = [{ pod := 2, group := 4, op := 9, lane := 2, ask := Ask.wayclose 2304 : Request }]
      ∧ (wayMachine freeSection holding (Ask.wayclose 2304) 2).way 2304 = some freeSection ∧ (wayMachine freeSection holding (Ask.wayclose 2304)
      2).groups.find { pod := 2, group := 4, op := 9, lane := 2, ask := Ask.wayclose 2304 : Request }.group = some holding ∧ (∀ (w : WayOp),
      holding.ways.find { pod := 2, group := 4, op := 9, lane := 2, ask := Ask.wayclose 2304 : Request }.op = some w → w.failed = []) ∧ { pod := 2, group := 4, op := 9, lane := 2, ask := Ask.wayclose 2304 : Request }.ask
      = Ask.wayclose 2304 ∧ (freeSection.poison = true ∨ freeSection.holder = none ∧ freeSection.waits = [] ∧ freeSection.skips = []) := by decide +kernel
theorem witness_request_close_refused :
    Tab.get [] (wayMachine section0 holding (Ask.wayclose 2304) 2).podQ 2 = [{ pod := 2, group := 4, op := 9, lane := 2, ask := Ask.wayclose 2304 : Request }]
      ∧ (wayMachine section0 holding (Ask.wayclose 2304) 2).way 2304 = some section0 ∧ (wayMachine section0 holding (Ask.wayclose 2304) 2).groups.find
      { pod := 2, group := 4, op := 9, lane := 2, ask := Ask.wayclose 2304 : Request }.group = some holding ∧ (∀ (w : WayOp), holding.ways.find { pod := 2, group := 4, op := 9, lane := 2, ask := Ask.wayclose 2304 : Request }.op
      = some w → w.failed = []) ∧ { pod := 2, group := 4, op := 9, lane := 2, ask := Ask.wayclose 2304 : Request }.ask = Ask.wayclose 2304 ∧
      section0.poison = false ∧ (section0.holder ≠ none ∨ section0.waits ≠ [] ∨ section0.skips ≠ []) := by decide +kernel
theorem witness_request_query :
    Tab.get [] (wayMachine section0 holding (Ask.wayqry 2304) 2).podQ 2 = [{ pod := 2, group := 4, op := 9, lane := 2, ask := Ask.wayqry 2304 : Request }]
      ∧ (wayMachine section0 holding (Ask.wayqry 2304) 2).way 2304 = some section0 ∧ (wayMachine section0 holding (Ask.wayqry 2304) 2).groups.find { pod := 2, group := 4, op := 9, lane := 2, ask := Ask.wayqry 2304 : Request }.group
      = some holding ∧ (∀ (w : WayOp), holding.ways.find { pod := 2, group := 4, op := 9, lane := 2, ask := Ask.wayqry 2304 : Request }.op = some w →
      w.failed = []) ∧ { pod := 2, group := 4, op := 9, lane := 2, ask := Ask.wayqry 2304 : Request }.ask = Ask.wayqry 2304 := by decide +kernel
theorem witness_request_enqueued :
    (∃ r ∈ requesting.net, r.pod = 2) ∧ (Tab.get [] requesting.podQ 2).length < 256 := by decide +kernel
theorem witness_reply :
    replying.replies = [doneReply] ++ [oldReply] ∧ (∀ q ∈ [doneReply], q.pod ≠ 2) ∧ oldReply.pod = 2 ∧ oldReply.answer = Answer.old 77 ∧
      replying.groups.find oldReply.group = some underWay ∧ underWay.longs.find oldReply.op = some resultOp := by decide +kernel
theorem witness_wayin_complete :
    (machine (inWay (wayOp 0 0 []))).groups.find 4 = some (inWay (wayOp 0 0 [])) ∧ (inWay (wayOp 0 0 [])).ways.find 9 = some (wayOp 0 0 []) ∧ (wayOp 0
      0 []).minor = 0 ∧ (wayOp 0 0 []).waiting = 0 ∧ (wayOp 0 0 []).failed = [] := by decide +kernel
theorem witness_wayin_timeout :
    (machine (inWay (wayOp 0 1 []))).groups.find 4 = some (inWay (wayOp 0 1 [])) ∧ (inWay (wayOp 0 1 [])).ways.find 9 = some (wayOp 0 1 []) ∧ (wayOp 0
      1 []).minor = 0 ∧ 0 < (wayOp 0 1 []).waiting ∧ 0 < (wayOp 0 1 []).limit ∧ (wayOp 0 1 []).start + (wayOp 0 1 []).limit ≤ (inWay (wayOp 0 1
      [])).time ((machine (inWay (wayOp 0 1 []))).nowOf (inWay (wayOp 0 1 [])) - 1) := by decide +kernel
theorem witness_wayskip_firm :
    (machine (inWay (wayOp 2 0 []))).groups.find 4 = some (inWay (wayOp 2 0 [])) ∧ (inWay (wayOp 2 0 [])).ways.find 9 = some (wayOp 2 0 []) ∧ (wayOp 2
      0 []).minor = 2 ∧ (wayOp 2 0 []).waiting = 0 ∧ (wayOp 2 0 []).failed = [] := by decide +kernel
theorem witness_wayskip_remove :
    (machine (inWay (wayOp 2 0 [(2, 18)]))).groups.find 4 = some (inWay (wayOp 2 0 [(2, 18)])) ∧ (inWay (wayOp 2 0 [(2, 18)])).ways.find 9 = some
      (wayOp 2 0 [(2, 18)]) ∧ (wayOp 2 0 [(2, 18)]).minor = 2 ∧ (wayOp 2 0 [(2, 18)]).waiting = 0 ∧ lowestFailure (wayOp 2 0 [(2, 18)]).failed = some
      (2, 18) := by decide +kernel
theorem witness_reply_refused_early :
    (refusing [outRequest]).replies = [doneReply] ++ [refusedReply] ∧ (∀ q ∈ [doneReply], q.pod ≠ 2) ∧ refusedReply.pod = 2 ∧ refusedReply.answer =
      Answer.failed 17 ∧ (refusing [outRequest]).groups.find refusedReply.group = some (inWay (wayOp 0 2 [])) ∧ (inWay (wayOp 0 2 [])).ways.find
      refusedReply.op = some (wayOp 0 2 []) ∧ (wayOp 0 2 []).minor = 0 ∧ requestsOpen (refusing [outRequest]) refusedReply.group refusedReply.op := by unfold requestsOpen; decide +kernel
theorem witness_barrier_stale :
    Issuing (barriers 2 [] [] handles) issue handles ∧ isS 105 = true ∧ Clear (barriers 2 [] [] handles) (issue.ctx handles) [use 105] ∧ (barriers 2
      [] [] handles).blocks.find (issue.ctx handles).g.block = some (block3 (barriers 2 [] [] handles)) ∧ staleHandle (block3 (barriers 2 [] []
      handles)) (issue.ctx handles).g (BitVec.toNat ((issue.ctx handles).rd 105 0)) ∧ Instr.barArrive 105 ∈ [Instr.barArrive 105, Instr.barWait 105,
      Instr.barSync 105, Instr.barFree 105] := ⟨by decide +kernel, by decide +kernel, by decide +kernel, by decide +kernel, by unfold staleHandle; decide +kernel, by decide +kernel⟩
theorem witness_arrived_already :
    Issuing (barriers 2 [4] [(4, 4)] handles) issue handles ∧ isS 104 = true ∧ Clear (barriers 2 [4] [(4, 4)] handles) (issue.ctx handles) [use 104] ∧
      (barriers 2 [4] [(4, 4)] handles).blocks.find (issue.ctx handles).g.block = some (block3 (barriers 2 [4] [(4, 4)] handles)) ∧ ¬staleHandle
      (block3 (barriers 2 [4] [(4, 4)] handles)) (issue.ctx handles).g (BitVec.toNat ((issue.ctx handles).rd 104 0)) ∧ issue.group ∈ (barrierOf
      (block3 (barriers 2 [4] [(4, 4)] handles)) (BitVec.toNat ((issue.ctx handles).rd 104 0) % 16)).arrived := ⟨by decide +kernel, by decide +kernel, by decide +kernel, by decide +kernel, by unfold staleHandle; decide +kernel, by decide +kernel⟩
theorem witness_arrival :
    Issuing (barriers 2 [] [] handles) issue handles ∧ isS 104 = true ∧ Clear (barriers 2 [] [] handles) (issue.ctx handles) [use 104] ∧ (barriers 2
      [] [] handles).blocks.find (issue.ctx handles).g.block = some (block3 (barriers 2 [] [] handles)) ∧ ¬staleHandle (block3 (barriers 2 [] []
      handles)) (issue.ctx handles).g (BitVec.toNat ((issue.ctx handles).rd 104 0)) ∧ issue.group ∉ (barrierOf (block3 (barriers 2 [] [] handles))
      (BitVec.toNat ((issue.ctx handles).rd 104 0) % 16)).arrived ∧ (barriers 2 [] [] handles).atomsOpen issue.group = false := ⟨by decide +kernel, by decide +kernel, by decide +kernel, by decide +kernel, by unfold staleHandle; decide +kernel, by decide +kernel⟩
theorem witness_barrier_wait :
    Issuing (barriers 2 [4] [(4, 4)] handles) issue handles ∧ isS 104 = true ∧ Clear (barriers 2 [4] [(4, 4)] handles) (issue.ctx handles) [use 104] ∧
      (barriers 2 [4] [(4, 4)] handles).blocks.find (issue.ctx handles).g.block = some (block3 (barriers 2 [4] [(4, 4)] handles)) ∧ ¬staleHandle
      (block3 (barriers 2 [4] [(4, 4)] handles)) (issue.ctx handles).g (BitVec.toNat ((issue.ctx handles).rd 104 0)) ∧ (barrierOf (block3 (barriers 2
      [4] [(4, 4)] handles)) (BitVec.toNat ((issue.ctx handles).rd 104 0) % 16)).last.find issue.group = some 4 ∧ (barrierOf (block3 (barriers 2 [4]
      [(4, 4)] handles)) (BitVec.toNat ((issue.ctx handles).rd 104 0) % 16)).phase ≤ 4 := ⟨by decide +kernel, by decide +kernel, by decide +kernel, by decide +kernel, by unfold staleHandle; decide +kernel, by decide +kernel⟩
theorem witness_barrier_wait_over :
    Issuing (barriers 2 [] [(4, 3)] handles) issue handles ∧ isS 104 = true ∧ Clear (barriers 2 [] [(4, 3)] handles) (issue.ctx handles) [use 104] ∧
      (barriers 2 [] [(4, 3)] handles).blocks.find (issue.ctx handles).g.block = some (block3 (barriers 2 [] [(4, 3)] handles)) ∧ ¬staleHandle (block3
      (barriers 2 [] [(4, 3)] handles)) (issue.ctx handles).g (BitVec.toNat ((issue.ctx handles).rd 104 0)) ∧ (∀ (p : ℕ), (barrierOf (block3 (barriers
      2 [] [(4, 3)] handles)) (BitVec.toNat ((issue.ctx handles).rd 104 0) % 16)).last.find issue.group = some p → p < (barrierOf (block3 (barriers 2
      [] [(4, 3)] handles)) (BitVec.toNat ((issue.ctx handles).rd 104 0) % 16)).phase) := ⟨by decide +kernel, by decide +kernel, by decide +kernel, by decide +kernel, by unfold staleHandle; decide +kernel, by intro p h; cases (show some 3 = some p from h); decide +kernel⟩
theorem witness_barrier_free_refused :
    Issuing (barriers 2 [4] [(4, 4)] handles) issue handles ∧ isS 104 = true ∧ Clear (barriers 2 [4] [(4, 4)] handles) (issue.ctx handles) [use 104] ∧
      (barriers 2 [4] [(4, 4)] handles).blocks.find (issue.ctx handles).g.block = some (block3 (barriers 2 [4] [(4, 4)] handles)) ∧ ¬staleHandle
      (block3 (barriers 2 [4] [(4, 4)] handles)) (issue.ctx handles).g (BitVec.toNat ((issue.ctx handles).rd 104 0)) ∧ (BitVec.toNat ((issue.ctx
      handles).rd 104 0) % 16 = 0 ∨ (barrierOf (block3 (barriers 2 [4] [(4, 4)] handles)) (BitVec.toNat ((issue.ctx handles).rd 104 0) % 16)).arrived
      ≠ []) := ⟨by decide +kernel, by decide +kernel, by decide +kernel, by decide +kernel, by unfold staleHandle; decide +kernel, by decide +kernel⟩
theorem witness_barrier_free :
    Issuing (barriers 2 [] [(4, 4)] handles) issue handles ∧ isS 104 = true ∧ Clear (barriers 2 [] [(4, 4)] handles) (issue.ctx handles) [use 104] ∧
      (barriers 2 [] [(4, 4)] handles).blocks.find (issue.ctx handles).g.block = some (block3 (barriers 2 [] [(4, 4)] handles)) ∧ ¬staleHandle (block3
      (barriers 2 [] [(4, 4)] handles)) (issue.ctx handles).g (BitVec.toNat ((issue.ctx handles).rd 104 0)) ∧ BitVec.toNat ((issue.ctx handles).rd 104
      0) % 16 ≠ 0 ∧ (barrierOf (block3 (barriers 2 [] [(4, 4)] handles)) (BitVec.toNat ((issue.ctx handles).rd 104 0) % 16)).arrived = [] := ⟨by decide +kernel, by decide +kernel, by decide +kernel, by decide +kernel, by unfold staleHandle; decide +kernel, by decide +kernel⟩
theorem witness_barrier_alloc :
    Issuing (barriers 2 [] [] handles) issue handles ∧ isS 104 = true ∧ Clear (barriers 2 [] [] handles) (issue.ctx handles) [use 104] ∧ (barriers 2
      [] [] handles).blocks.find (issue.ctx handles).g.block = some (block3 (barriers 2 [] [] handles)) ∧ 104 ≠ 96 ∧ 1 ≤ 32 ∧ 32 ≤ 32 ∧ 1 ≤ 1 ∧ 1 < 16
      ∧ (barrierOf (block3 (barriers 2 [] [] handles)) 1).alloc = false ∧ (∀ (l : ℕ), 1 ≤ l → l < 1 → (barrierOf (block3 (barriers 2 [] [] handles))
      l).alloc = true) := by decide +kernel
theorem witness_barrier_alloc_none :
    Issuing allAllocated issue handles ∧ isS 104 = true ∧ Clear allAllocated (issue.ctx handles) [use 104] ∧ allAllocated.blocks.find (issue.ctx
      handles).g.block = some (block3 allAllocated) ∧ 104 ≠ 96 ∧ 1 ≤ 1 ∧ 1 ≤ 32 ∧ (∀ (j : ℕ), 1 ≤ j → j < 16 → (barrierOf (block3 allAllocated)
      j).alloc = true) := by decide +kernel
theorem witness_phase_completes :
    (barriers 1 [4] [(4, 4)] handles).blocks.find 3 = some (block3 (barriers 1 [4] [(4, 4)] handles)) ∧ (0 < 1 ∧ 1 ≤ 1 ↔ if 2 = 0 then (∃ e ∈
      (barriers 1 [4] [(4, 4)] handles).groups, e.2.block = 3 ∧ e.2.spawned = false ∧ e.2.allExited = false) ∧ ∀ e ∈ (barriers 1 [4] [(4, 4)]
      handles).groups, e.2.block = 3 → e.2.spawned = false → e.2.allExited = false → e.1 ∈ (barrierOf (block3 (barriers 1 [4] [(4, 4)] handles))
      2).arrived else 0 < (barrierOf (block3 (barriers 1 [4] [(4, 4)] handles)) 2).count ∧ (barrierOf (block3 (barriers 1 [4] [(4, 4)] handles))
      2).count ≤ (barrierOf (block3 (barriers 1 [4] [(4, 4)] handles)) 2).arrived.length) ∧ (barrierOf (block3 (barriers 1 [4] [(4, 4)] handles))
      2).alloc = true ∧ 0 < 1 ∧ 1 ≤ 1 := by decide +kernel
theorem witness_phase_open :
    (barriers 2 [4] [(4, 4)] handles).blocks.find 3 = some (block3 (barriers 2 [4] [(4, 4)] handles)) ∧ (0 < 2 ∧ 2 ≤ 1 ↔ if 2 = 0 then (∃ e ∈
      (barriers 2 [4] [(4, 4)] handles).groups, e.2.block = 3 ∧ e.2.spawned = false ∧ e.2.allExited = false) ∧ ∀ e ∈ (barriers 2 [4] [(4, 4)]
      handles).groups, e.2.block = 3 → e.2.spawned = false → e.2.allExited = false → e.1 ∈ (barrierOf (block3 (barriers 2 [4] [(4, 4)] handles))
      2).arrived else 0 < (barrierOf (block3 (barriers 2 [4] [(4, 4)] handles)) 2).count ∧ (barrierOf (block3 (barriers 2 [4] [(4, 4)] handles))
      2).count ≤ (barrierOf (block3 (barriers 2 [4] [(4, 4)] handles)) 2).arrived.length) ∧ ((barrierOf (block3 (barriers 2 [4] [(4, 4)] handles))
      2).alloc = false ∨ ¬(0 < 2 ∧ 2 ≤ 1)) := by decide +kernel
theorem witness_wide_spawned :
    Issuing (wide [] [] spawnedGroup) issue spawnedGroup ∧ Clear (wide [] [] spawnedGroup) (issue.ctx spawnedGroup) [] ∧ (wide [] []
      spawnedGroup).blocks.find (issue.ctx spawnedGroup).g.block = some (Load.block 0) ∧ (issue.ctx spawnedGroup).g.spawned = true ∧ Instr.gbarSync ∈
      [Instr.cbarArrive 1, Instr.cbarWait 1, Instr.cbarSync 1, Instr.gbarSync] := by decide +kernel
theorem witness_wide_arrived :
    Issuing (wide [4] [(4, 4)] group0) issue group0 ∧ Clear (wide [4] [(4, 4)] group0) (issue.ctx group0) [] ∧ (wide [4] [(4, 4)] group0).blocks.find
      (issue.ctx group0).g.block = some (Load.block 0) ∧ (issue.ctx group0).g.spawned = false ∧ (wide [4] [(4, 4)] group0).clusters.find (Load.block
      0).cluster = some (cluster2 (wide [4] [(4, 4)] group0)) ∧ issue.group ∈ (Tab.get WideBarrier.empty (cluster2 (wide [4] [(4, 4)]
      group0)).barriers (1)).arrived := by decide +kernel
theorem witness_wide_arrival :
    Issuing (wide [] [] group0) issue group0 ∧ Clear (wide [] [] group0) (issue.ctx group0) [] ∧ (wide [] [] group0).blocks.find (issue.ctx
      group0).g.block = some (Load.block 0) ∧ (issue.ctx group0).g.spawned = false ∧ (wide [] [] group0).clusters.find (Load.block 0).cluster = some
      (cluster2 (wide [] [] group0)) ∧ issue.group ∉ (Tab.get WideBarrier.empty (cluster2 (wide [] [] group0)).barriers (1)).arrived ∧ (wide [] []
      group0).release issue.group ((wide [] [] group0).coreOf (issue.ctx group0).g) 1 = some (wide [] [] group0) := by decide +kernel
theorem witness_wide_wait :
    Issuing (wide [4] [(4, 4)] group0) issue group0 ∧ Clear (wide [4] [(4, 4)] group0) (issue.ctx group0) [] ∧ (wide [4] [(4, 4)] group0).blocks.find
      (issue.ctx group0).g.block = some (Load.block 0) ∧ (issue.ctx group0).g.spawned = false ∧ (wide [4] [(4, 4)] group0).clusters.find (Load.block
      0).cluster = some (cluster2 (wide [4] [(4, 4)] group0)) ∧ (Tab.get WideBarrier.empty (cluster2 (wide [4] [(4, 4)] group0)).barriers
      (1)).last.find issue.group = some 4 ∧ (Tab.get WideBarrier.empty (cluster2 (wide [4] [(4, 4)] group0)).barriers (1)).phase ≤ 4 := by decide +kernel
theorem witness_wide_wait_over :
    Issuing (wide [] [(4, 3)] group0) issue group0 ∧ Clear (wide [] [(4, 3)] group0) (issue.ctx group0) [] ∧ (wide [] [(4, 3)] group0).blocks.find
      (issue.ctx group0).g.block = some (Load.block 0) ∧ (issue.ctx group0).g.spawned = false ∧ (wide [] [(4, 3)] group0).clusters.find (Load.block
      0).cluster = some (cluster2 (wide [] [(4, 3)] group0)) ∧ (∀ (p : ℕ), (Tab.get WideBarrier.empty (cluster2 (wide [] [(4, 3)] group0)).barriers
      (1)).last.find issue.group = some p → p < (Tab.get WideBarrier.empty (cluster2 (wide [] [(4, 3)] group0)).barriers (1)).phase) := ⟨by decide +kernel, by decide +kernel, by decide +kernel, by decide +kernel, by decide +kernel, by intro p h; cases (show some 3 = some p from h); decide +kernel⟩
theorem witness_grid_not_cooperative :
    Issuing plain issue group0 ∧ Clear plain (issue.ctx group0) [] ∧ plain.blocks.find (issue.ctx group0).g.block = some (Load.block 0) ∧ (issue.ctx
      group0).g.spawned = false ∧ plain.launches.find (Load.block 0).launch = some launch0 ∧ BitVec.getLsbD launch0.card.flags 2 = false := by decide +kernel
theorem witness_spawn_none :
    Issuing (machine noneActive) issue noneActive ∧ isS 105 = true ∧ Clear (machine noneActive) (issue.ctx noneActive) [use 105] ∧ ((issue.ctx
      noneActive).exec = 0 ∨ (machine noneActive).contextsFree ((machine noneActive).coreOf (issue.ctx noneActive).g) = [] ∨ (machine
      noneActive).regsFree ((machine noneActive).coreOf (issue.ctx noneActive).g) < 48 * (issue.ctx noneActive).g.width) := by decide +kernel
theorem witness_spawn :
    Issuing busy issue filled ∧ isS 105 = true ∧ Clear busy (issue.ctx filled) [use 105] ∧ (issue.ctx filled).exec ≠ 0 ∧ (busy.contextsFree
      (busy.coreOf (issue.ctx filled).g) = 1 :: List.filter (fun (n : ℕ) => !(List.map (fun (e : ℕ × Machine.Group) => e.2.context) (busy.groupsOn
      (busy.coreOf (issue.ctx filled).g))).contains n) ((List.range 30).map (2 + ·))) ∧ 48 * (issue.ctx filled).g.width ≤ busy.regsFree (busy.coreOf (issue.ctx filled).g) := by decide +kernel
theorem witness_spawn_check :
    Issuing busy issue filled ∧ isS 105 = true ∧ Clear busy (issue.ctx filled) [use 105] ∧ (issue.ctx filled).exec ≠ 0 ∧ (busy.contextsFree
      (busy.coreOf (issue.ctx filled).g) = 1 :: List.filter (fun (n : ℕ) => !(List.map (fun (e : ℕ × Machine.Group) => e.2.context) (busy.groupsOn
      (busy.coreOf (issue.ctx filled).g))).contains n) ((List.range 30).map (2 + ·))) ∧ 48 * (issue.ctx filled).g.width ≤ busy.regsFree (busy.coreOf (issue.ctx filled).g) := by decide +kernel
theorem witness_fetchw_ok :
    Issuing (working id id (s8 4080)) issue (s8 4080) ∧ (working id id (s8 4080)).blocks.find (issue.ctx (s8 4080)).g.block = some (block3 (working id
      id (s8 4080))) ∧ (working id id (s8 4080)).launches.find (block3 (working id id (s8 4080))).launch = some (launch1 (working id id (s8 4080))) ∧
      isS 104 = true ∧ Clear (working id id (s8 4080)) (issue.ctx (s8 4080)) [use 104] ∧ BitVec.toNat ((issue.ctx (s8 4080)).rd 104 0) + 16 ≤ (launch1
      (working id id (s8 4080))).card.scratch ∧ BitVec.toNat ((issue.ctx (s8 4080)).rd 104 0) % 16 = 0 ∧ (block3 (working id id (s8
      4080))).fetchws.length < 4 := by decide +kernel
theorem witness_fetchw_range :
    Issuing (working id id (s8 4081)) issue (s8 4081) ∧ (working id id (s8 4081)).blocks.find (issue.ctx (s8 4081)).g.block = some (block3 (working id
      id (s8 4081))) ∧ (working id id (s8 4081)).launches.find (block3 (working id id (s8 4081))).launch = some (launch1 (working id id (s8 4081))) ∧
      isS 104 = true ∧ Clear (working id id (s8 4081)) (issue.ctx (s8 4081)) [use 104] ∧ (launch1 (working id id (s8 4081))).card.scratch <
      BitVec.toNat ((issue.ctx (s8 4081)).rd 104 0) + 16 := by decide +kernel
theorem witness_fetchw_odd :
    Issuing (working id id (s8 8)) issue (s8 8) ∧ (working id id (s8 8)).blocks.find (issue.ctx (s8 8)).g.block = some (block3 (working id id (s8 8)))
      ∧ (working id id (s8 8)).launches.find (block3 (working id id (s8 8))).launch = some (launch1 (working id id (s8 8))) ∧ isS 104 = true ∧ Clear
      (working id id (s8 8)) (issue.ctx (s8 8)) [use 104] ∧ BitVec.toNat ((issue.ctx (s8 8)).rd 104 0) + 16 ≤ (launch1 (working id id (s8
      8))).card.scratch ∧ BitVec.toNat ((issue.ctx (s8 8)).rd 104 0) % 16 ≠ 0 := by decide +kernel
theorem witness_fetchw_full :
    Issuing (fetchesOf 4 (s8 64)) issue (s8 64) ∧ (fetchesOf 4 (s8 64)).blocks.find (issue.ctx (s8 64)).g.block = some (block3 (fetchesOf 4 (s8 64)))
      ∧ (fetchesOf 4 (s8 64)).launches.find (block3 (fetchesOf 4 (s8 64))).launch = some (launch1 (fetchesOf 4 (s8 64))) ∧ isS 104 = true ∧ Clear
      (fetchesOf 4 (s8 64)) (issue.ctx (s8 64)) [use 104] ∧ BitVec.toNat ((issue.ctx (s8 64)).rd 104 0) + 16 ≤ (launch1 (fetchesOf 4 (s8
      64))).card.scratch ∧ BitVec.toNat ((issue.ctx (s8 64)).rd 104 0) % 16 = 0 ∧ 4 ≤ (block3 (fetchesOf 4 (s8 64))).fetchws.length := by decide +kernel
theorem witness_regacq_held :
    Issuing (working id id extGroup) issue extGroup ∧ (working id id extGroup).blocks.find (issue.ctx extGroup).g.block = some (block3 (working id id
      extGroup)) ∧ (working id id extGroup).launches.find (block3 (working id id extGroup)).launch = some (launch1 (working id id extGroup)) ∧ Clear
      (working id id extGroup) (issue.ctx extGroup) [] ∧ ((issue.ctx extGroup).g.held = true ∨ (issue.ctx extGroup).g.spilled = true) := by decide +kernel
theorem witness_regacq_small :
    Issuing (localOf 3071) issue group0 ∧ (localOf 3071).blocks.find (issue.ctx group0).g.block = some (block3 (localOf 3071)) ∧ (localOf
      3071).launches.find (block3 (localOf 3071)).launch = some (launch1 (localOf 3071)) ∧ Clear (localOf 3071) (issue.ctx group0) [] ∧ (issue.ctx
      group0).g.held = false ∧ (issue.ctx group0).g.spilled = false ∧ (launch1 (localOf 3071)).card.localSize < 192 * (issue.ctx group0).g.width := by decide +kernel
theorem witness_regacq_waits :
    Issuing (localOf 3072) issue group0 ∧ (localOf 3072).blocks.find (issue.ctx group0).g.block = some (block3 (localOf 3072)) ∧ (localOf
      3072).launches.find (block3 (localOf 3072)).launch = some (launch1 (localOf 3072)) ∧ Clear (localOf 3072) (issue.ctx group0) [] ∧ (issue.ctx
      group0).g.held = false ∧ (issue.ctx group0).g.spilled = false ∧ 192 * (issue.ctx group0).g.width ≤ (launch1 (localOf 3072)).card.localSize := by decide +kernel
theorem witness_regrel_pending :
    Issuing (working id id pendingExt) issue pendingExt ∧ (working id id pendingExt).blocks.find (issue.ctx pendingExt).g.block = some (block3
      (working id id pendingExt)) ∧ (working id id pendingExt).launches.find (block3 (working id id pendingExt)).launch = some (launch1 (working id id
      pendingExt)) ∧ Clear (working id id pendingExt) (issue.ctx pendingExt) [] ∧ (∃ e ∈ (issue.ctx pendingExt).g.longs, ∃ r ∈ e.2.vMarks, 48 ≤ r) := by decide +kernel
theorem witness_regrel :
    Issuing (working id id extGroup) issue extGroup ∧ (working id id extGroup).blocks.find (issue.ctx extGroup).g.block = some (block3 (working id id
      extGroup)) ∧ (working id id extGroup).launches.find (block3 (working id id extGroup)).launch = some (launch1 (working id id extGroup)) ∧ Clear
      (working id id extGroup) (issue.ctx extGroup) [] ∧ (∀ e ∈ (issue.ctx extGroup).g.longs, ∀ r ∈ e.2.vMarks, r < 48) := by decide +kernel
theorem witness_launch_refused :
    Issuing (lowLaunching 2) issue (s8 2097536) ∧ (lowLaunching 2).blocks.find (issue.ctx (s8 2097536)).g.block = some (block3 (lowLaunching 2)) ∧
      (lowLaunching 2).launches.find (block3 (lowLaunching 2)).launch = some (launch1 (lowLaunching 2)) ∧ isS 104 = true ∧ isEven 104 = true ∧ Clear
      (lowLaunching 2) (issue.ctx (s8 2097536)) [useN 104 2] ∧ (lowLaunching 2).entryHeld ((lowLaunching 2).agentOf issue.group (issue.ctx (s8
      2097536)).g) ((issue.ctx (s8 2097536)).rd64 104 0) = false ∧ (lowLaunching 2).release issue.group (block3 (lowLaunching 2)).core 2 = some
      (lowLaunching 2) ∧ (lowLaunching 2).checkPtr ((lowLaunching 2).agentOf issue.group (issue.ctx (s8 2097536)).g) [0] ((issue.ctx (s8
      2097536)).rd64 104 0) 128 Access.read = Except.ok { locs := [2097536], type := 0 : Target } ∧ (lowLaunching 2).heldAt ({ locs := [2097536], type := 0 : Target }.locs.headD
      0) = false ∧ (LaunchRec.parse (bytesToNat (List.map (fun (i : ℕ) => (lowLaunching 2).freshByte (block3 (lowLaunching 2)).core ({ locs := [2097536], type := 0 : Target }.locs.headD
      0 + i)) (List.range 128))) = ((cardAt (lowLaunching 2)).1, (cardAt (lowLaunching 2)).2)) ∧ BitVec.getLsbD (cardAt (lowLaunching 2)).1.flags 1 =
      true ∧ BitVec.getLsbD (launch1 (lowLaunching 2)).card.flags 1 = false := by decide +kernel
theorem witness_launch :
    Issuing (launching 2 id) issue (s8 2097536) ∧ (launching 2 id).blocks.find (issue.ctx (s8 2097536)).g.block = some (block3 (launching 2 id)) ∧
      (launching 2 id).launches.find (block3 (launching 2 id)).launch = some (launch1 (launching 2 id)) ∧ isS 104 = true ∧ isEven 104 = true ∧ Clear
      (launching 2 id) (issue.ctx (s8 2097536)) [useN 104 2] ∧ (launching 2 id).entryHeld ((launching 2 id).agentOf issue.group (issue.ctx (s8
      2097536)).g) ((issue.ctx (s8 2097536)).rd64 104 0) = false ∧ (launching 2 id).release issue.group (block3 (launching 2 id)).core 2 = some
      (launching 2 id) ∧ (launching 2 id).checkPtr ((launching 2 id).agentOf issue.group (issue.ctx (s8 2097536)).g) [0] ((issue.ctx (s8
      2097536)).rd64 104 0) 128 Access.read = Except.ok { locs := [2097536], type := 0 : Target } ∧ (launching 2 id).heldAt ({ locs := [2097536], type := 0 : Target }.locs.headD
      0) = false ∧ (LaunchRec.parse (bytesToNat (List.map (fun (i : ℕ) => (launching 2 id).freshByte (block3 (launching 2 id)).core ({ locs := [2097536], type := 0 : Target }.locs.headD
      0 + i)) (List.range 128))) = ((cardAt (launching 2 id)).1, (cardAt (launching 2 id)).2)) ∧ (BitVec.getLsbD (cardAt (launching 2 id)).1.flags 1 =
      false ∨ BitVec.getLsbD (launch1 (launching 2 id)).card.flags 1 = true) := by decide +kernel
theorem witness_regroup_s :
    Issuing (machine group0) issue group0 ∧ issue.snap = none := by decide +kernel
theorem witness_regacq_grant :
    ((lined group0).core 1).regLine = [4] ∧ (lined group0).groups.find 4 = some group0 ∧ 48 * group0.width ≤ (lined group0).regsFree 1 ∧
      group0.spilled = false := by decide +kernel
theorem witness_srd_number :
    Issuing (machine filled) issue filled ∧ (machine filled).blocks.find (issue.ctx filled).g.block = some (Load.block 0) ∧ (machine
      filled).launches.find (Load.block 0).launch = some launch0 ∧ issue.snap = none := by decide +kernel
theorem witness_srd_laneid_s :
    Issuing (machine filled) issue filled ∧ (machine filled).blocks.find (issue.ctx filled).g.block = some (Load.block 0) ∧ (machine
      filled).launches.find (Load.block 0).launch = some launch0 ∧ issue.snap = none := by decide +kernel
theorem witness_srd_laneid :
    Issuing (machine filled) issue filled ∧ (machine filled).blocks.find (issue.ctx filled).g.block = some (Load.block 0) ∧ (machine
      filled).launches.find (Load.block 0).launch = some launch0 ∧ 0 < 32 ∧ ¬(isS 10 = true ∧ 0 = 0) ∧ Clear (machine filled) (issue.ctx filled) [use
      10] := by decide +kernel
theorem witness_srd_25 :
    Issuing (machine filled) issue filled ∧ (machine filled).blocks.find (issue.ctx filled).g.block = some (Load.block 0) ∧ (machine
      filled).launches.find (Load.block 0).launch = some launch0 ∧ 25 < 32 ∧ ¬(isS 104 = true ∧ 25 = 0) ∧ Clear (machine filled) (issue.ctx filled)
      [use 104] := by decide +kernel
theorem witness_srd_31 :
    Issuing (machine filled) issue filled ∧ (machine filled).blocks.find (issue.ctx filled).g.block = some (Load.block 0) ∧ (machine
      filled).launches.find (Load.block 0).launch = some launch0 ∧ 31 < 32 ∧ ¬(isS 104 = true ∧ 31 = 0) ∧ Clear (machine filled) (issue.ctx filled)
      [use 104] := by decide +kernel
theorem witness_swr_number :
    Issuing (machine filled) issue filled ∧ (machine filled).blocks.find (issue.ctx filled).g.block = some (Load.block 0) ∧ (machine
      filled).launches.find (Load.block 0).launch = some launch0 ∧ issue.snap = none := by decide +kernel
theorem witness_swr_v :
    Issuing (machine filled) issue filled ∧ (machine filled).blocks.find (issue.ctx filled).g.block = some (Load.block 0) ∧ (machine
      filled).launches.find (Load.block 0).launch = some launch0 ∧ issue.snap = none := by decide +kernel
theorem witness_swr_13 :
    Issuing (machine filled) issue filled ∧ (machine filled).blocks.find (issue.ctx filled).g.block = some (Load.block 0) ∧ (machine
      filled).launches.find (Load.block 0).launch = some launch0 ∧ 13 < 32 ∧ isS 100 = true ∧ Clear (machine filled) (issue.ctx filled) [use 100] := by decide +kernel
theorem witness_swr_31 :
    Issuing (machine filled) issue filled ∧ (machine filled).blocks.find (issue.ctx filled).g.block = some (Load.block 0) ∧ (machine
      filled).launches.find (Load.block 0).launch = some launch0 ∧ 31 < 32 ∧ isS 100 = true ∧ Clear (machine filled) (issue.ctx filled) [use 100] := by decide +kernel
theorem witness_engine_priv :
    Issuing (lowly pointers) issue pointers ∧ EngWord (Instr.bkcalCal 3 4 1 1 0) (EngForm.mk Engine.bank (Cmd.bkcal 0) 4 true 3 4 1 true false) ∧
      issue.snap = none ∧ (EngForm.mk Engine.bank (Cmd.bkcal 0) 4 true 3 4 1 true false).priv = true ∧ (lowly pointers).privOf (issue.ctx pointers).g
      = false := ⟨by decide +kernel, Or.inl ⟨engWords[9], List.getElem_mem _, _, _, _, _, _, rfl, rfl⟩, by decide +kernel⟩
theorem witness_engine_odd :
    Issuing memoryMachine issue pointers ∧ EngWord (Instr.copyG2s 3 5 1 1 0) (EngForm.mk Engine.copy (Cmd.copy 0) 8 false 3 5 1 true false) ∧
      issue.snap = none ∧ ((EngForm.mk Engine.copy (Cmd.copy 0) 8 false 3 5 1 true false).priv = false ∨ memoryMachine.privOf (issue.ctx pointers).g =
      true) ∧ ¬goodBlock (EngForm.mk Engine.copy (Cmd.copy 0) 8 false 3 5 1 true false).p (EngForm.mk Engine.copy (Cmd.copy 0) 8 false 3 5 1 true
      false).n := ⟨by decide +kernel, Or.inl ⟨engWords[0], List.getElem_mem _, _, _, _, _, _, rfl, rfl⟩, by decide +kernel⟩
theorem witness_engine_full :
    Issuing (engaged Engine.copy 16 pointers) issue pointers ∧ EngWord (Instr.copyG2s 3 24 1 1 0) (EngForm.mk Engine.copy (Cmd.copy 0) 8 false 3 24 1
      true false) ∧ ((EngForm.mk Engine.copy (Cmd.copy 0) 8 false 3 24 1 true false).priv = false ∨ (engaged Engine.copy 16 pointers).privOf
      (issue.ctx pointers).g = true) ∧ goodBlock (EngForm.mk Engine.copy (Cmd.copy 0) 8 false 3 24 1 true false).p (EngForm.mk Engine.copy (Cmd.copy
      0) 8 false 3 24 1 true false).n ∧ Clear (engaged Engine.copy 16 pointers) (issue.ctx pointers) [useS (EngForm.mk Engine.copy (Cmd.copy 0) 8
      false 3 24 1 true false).t.toNat 1, useS (EngForm.mk Engine.copy (Cmd.copy 0) 8 false 3 24 1 true false).p.toNat (EngForm.mk Engine.copy
      (Cmd.copy 0) 8 false 3 24 1 true false).n] ∧ fullQueue (engaged Engine.copy 16 pointers) ((engaged Engine.copy 16 pointers).coreOf (issue.ctx
      pointers).g) (EngForm.mk Engine.copy (Cmd.copy 0) 8 false 3 24 1 true false).e := ⟨by decide +kernel, Or.inl ⟨engWords[0], List.getElem_mem _, _, _, _, _, _, rfl, rfl⟩, by decide +kernel, by decide +kernel, by decide +kernel, by unfold fullQueue; decide +kernel⟩
theorem witness_engine_queued :
    Issuing (engaged Engine.copy 15 pointers) issue pointers ∧ EngWord (Instr.copyG2s 3 24 1 1 0) (EngForm.mk Engine.copy (Cmd.copy 0) 8 false 3 24 1
      true false) ∧ ((EngForm.mk Engine.copy (Cmd.copy 0) 8 false 3 24 1 true false).priv = false ∨ (engaged Engine.copy 15 pointers).privOf
      (issue.ctx pointers).g = true) ∧ goodBlock (EngForm.mk Engine.copy (Cmd.copy 0) 8 false 3 24 1 true false).p (EngForm.mk Engine.copy (Cmd.copy
      0) 8 false 3 24 1 true false).n ∧ Clear (engaged Engine.copy 15 pointers) (issue.ctx pointers) [useS (EngForm.mk Engine.copy (Cmd.copy 0) 8
      false 3 24 1 true false).t.toNat 1, useS (EngForm.mk Engine.copy (Cmd.copy 0) 8 false 3 24 1 true false).p.toNat (EngForm.mk Engine.copy
      (Cmd.copy 0) 8 false 3 24 1 true false).n] ∧ ¬fullQueue (engaged Engine.copy 15 pointers) ((engaged Engine.copy 15 pointers).coreOf (issue.ctx
      pointers).g) (EngForm.mk Engine.copy (Cmd.copy 0) 8 false 3 24 1 true false).e := ⟨by decide +kernel, Or.inl ⟨engWords[0], List.getElem_mem _, _, _, _, _, _, rfl, rfl⟩, by decide +kernel, by decide +kernel, by decide +kernel, by unfold fullQueue; decide +kernel⟩
theorem witness_tile_full :
    Issuing (engaged Engine.tile 16 pointers) issue pointers ∧ TileWord (Instr.tmma 3 1 2 3 1) 3 (Cmd.tmm false (1) (2) (3) (decide (1 = 1))) ∧ Clear
      (engaged Engine.tile 16 pointers) (issue.ctx pointers) [useS (3) 1] ∧ fullQueue (engaged Engine.tile 16 pointers) ((engaged Engine.tile 16
      pointers).coreOf (issue.ctx pointers).g) Engine.tile := ⟨by decide +kernel, Or.inl ⟨_, _, _, _, rfl, rfl⟩, by decide +kernel, by unfold fullQueue; decide +kernel⟩
theorem witness_tile_queued :
    Issuing (engaged Engine.tile 15 pointers) issue pointers ∧ TileWord (Instr.tmma 3 1 2 3 1) 3 (Cmd.tmm false (1) (2) (3) (decide (1 = 1))) ∧ Clear
      (engaged Engine.tile 15 pointers) (issue.ctx pointers) [useS (3) 1] ∧ ¬fullQueue (engaged Engine.tile 15 pointers) ((engaged Engine.tile 15
      pointers).coreOf (issue.ctx pointers).g) Engine.tile := ⟨by decide +kernel, Or.inl ⟨_, _, _, _, rfl, rfl⟩, by decide +kernel, by unfold fullQueue; decide +kernel⟩
theorem witness_trel_slot :
    Issuing (bound false 3 pointers) issue pointers ∧ ((∃ (o : BitVec 6), Instr.trelSlot 3 2 = Instr.trelSlot 3 o ∧ false = false ∧ 2 = o.toNat ∧
      Cmd.trelSlot 2 = Cmd.trelSlot 2) ∨ ∃ (a : BitVec 3), Instr.trelSlot 3 2 = Instr.trelAcc 3 a ∧ false = true ∧ 2 = a.toNat ∧ Cmd.trelSlot 2 =
      Cmd.trelAcc 2) ∧ Clear (bound false 3 pointers) (issue.ctx pointers) [useS (3) 1] ∧ ¬fullQueue (bound false 3 pointers) ((bound false 3
      pointers).coreOf (issue.ctx pointers).g) Engine.tile := ⟨by decide +kernel, by decide +kernel, by decide +kernel, by unfold fullQueue; decide +kernel⟩
theorem witness_trel_full :
    Issuing (engaged Engine.tile 16 pointers) issue pointers ∧ ((∃ (o : BitVec 6), Instr.trelSlot 3 2 = Instr.trelSlot 3 o ∧ false = false ∧ 2 =
      o.toNat ∧ Cmd.trelSlot 2 = Cmd.trelSlot 2) ∨ ∃ (a : BitVec 3), Instr.trelSlot 3 2 = Instr.trelAcc 3 a ∧ false = true ∧ 2 = a.toNat ∧
      Cmd.trelSlot 2 = Cmd.trelAcc 2) ∧ Clear (engaged Engine.tile 16 pointers) (issue.ctx pointers) [useS (3) 1] ∧ fullQueue (engaged Engine.tile 16
      pointers) ((engaged Engine.tile 16 pointers).coreOf (issue.ctx pointers).g) Engine.tile := ⟨by decide +kernel, by decide +kernel, by decide +kernel, by unfold fullQueue; decide +kernel⟩
theorem witness_tclaim_acc_many :
    Issuing (bound true 0 pointers) issue pointers ∧ (Instr.tclaimAcc 3 6 8 = Instr.tclaim 3 6 8 ∧ true = false ∨ Instr.tclaimAcc 3 6 8 =
      Instr.tclaimAcc 3 6 8 ∧ true = true) ∧ (bound true 0 pointers).blocks.find (issue.ctx pointers).g.block = some (block3 (bound true 0 pointers))
      ∧ issue.snap = none ∧ 8 < 8 + 1 := by decide +kernel
theorem witness_tclaim_full :
    Issuing (engaged Engine.tile 16 pointers) issue pointers ∧ (Instr.tclaimAcc 3 6 7 = Instr.tclaim 3 6 7 ∧ true = false ∨ Instr.tclaimAcc 3 6 7 =
      Instr.tclaimAcc 3 6 7 ∧ true = true) ∧ (engaged Engine.tile 16 pointers).blocks.find (issue.ctx pointers).g.block = some (block3 (engaged
      Engine.tile 16 pointers)) ∧ (true = false ∨ 7 + 1 ≤ 8) ∧ Clear (engaged Engine.tile 16 pointers) (issue.ctx pointers) [useS (3) 1, useS (6) 1] ∧
      fullQueue (engaged Engine.tile 16 pointers) ((engaged Engine.tile 16 pointers).coreOf (issue.ctx pointers).g) Engine.tile := ⟨by decide +kernel, by decide +kernel, by decide +kernel, by decide +kernel, by decide +kernel, by unfold fullQueue; decide +kernel⟩
theorem witness_tclaim_few :
    Issuing (bound true 1 pointers) issue pointers ∧ (Instr.tclaimAcc 3 6 7 = Instr.tclaim 3 6 7 ∧ true = false ∨ Instr.tclaimAcc 3 6 7 =
      Instr.tclaimAcc 3 6 7 ∧ true = true) ∧ (bound true 1 pointers).blocks.find (issue.ctx pointers).g.block = some (block3 (bound true 1 pointers))
      ∧ (true = false ∨ 7 + 1 ≤ 8) ∧ Clear (bound true 1 pointers) (issue.ctx pointers) [useS (3) 1, useS (6) 1] ∧ ¬fullQueue (bound true 1 pointers)
      ((bound true 1 pointers).coreOf (issue.ctx pointers).g) Engine.tile ∧ ((block3 (bound true 1 pointers)).namesFree true).length - ((bound true 1
      pointers).core ((bound true 1 pointers).coreOf (issue.ctx pointers).g)).promised true (issue.ctx pointers).g.block < 7 + 1 := ⟨by decide +kernel, by decide +kernel, by decide +kernel, by decide +kernel, by decide +kernel, by unfold fullQueue; decide +kernel, by decide +kernel⟩
theorem witness_tclaim :
    Issuing (bound true 0 pointers) issue pointers ∧ (Instr.tclaimAcc 3 6 7 = Instr.tclaim 3 6 7 ∧ true = false ∨ Instr.tclaimAcc 3 6 7 =
      Instr.tclaimAcc 3 6 7 ∧ true = true) ∧ (bound true 0 pointers).blocks.find (issue.ctx pointers).g.block = some (block3 (bound true 0 pointers))
      ∧ (true = false ∨ 7 + 1 ≤ 8) ∧ Clear (bound true 0 pointers) (issue.ctx pointers) [useS (3) 1, useS (6) 1] ∧ ¬fullQueue (bound true 0 pointers)
      ((bound true 0 pointers).coreOf (issue.ctx pointers).g) Engine.tile ∧ 7 + 1 ≤ ((block3 (bound true 0 pointers)).namesFree true).length - ((bound
      true 0 pointers).core ((bound true 0 pointers).coreOf (issue.ctx pointers).g)).promised true (issue.ctx pointers).g.block := ⟨by decide +kernel, by decide +kernel, by decide +kernel, by decide +kernel, by decide +kernel, by unfold fullQueue; decide +kernel, by decide +kernel⟩
theorem witness_chart_fault :
    Issuing (charted (some 9) 1 pointers) issue pointers ∧ OwnedWord (Instr.chld 28 2 3 1) [useS (3) 1, useS (28) 4] ∧ experimental (charted (some 9)
      1 pointers) (Instr.chld 28 2 3 1) ∧ ((charted (some 9) 1 pointers).core ((charted (some 9) 1 pointers).coreOf (issue.ctx
      pointers).g)).chart.owner ≠ some (issue.ctx pointers).g.block ∧ Clear (charted (some 9) 1 pointers) (issue.ctx pointers) [useS (3) 1, useS (28)
      4] := ⟨by decide +kernel, owned_load, by decide +kernel⟩
theorem witness_chart_fault_free :
    Issuing (charted none 1 pointers) issue pointers ∧ OwnedWord (Instr.chld 28 2 3 1) [useS (3) 1, useS (28) 4] ∧ experimental (charted none 1
      pointers) (Instr.chld 28 2 3 1) ∧ ((charted none 1 pointers).core ((charted none 1 pointers).coreOf (issue.ctx pointers).g)).chart.owner ≠ some
      (issue.ctx pointers).g.block ∧ Clear (charted none 1 pointers) (issue.ctx pointers) [useS (3) 1, useS (28) 4] := ⟨by decide +kernel, owned_load, by decide +kernel⟩
theorem witness_chart_full :
    Issuing chartFull issue pointers ∧ chops[13] ∈ chops ∧ Clear chartFull (issue.ctx pointers) [] ∧ (chartFull.core (chartFull.coreOf (issue.ctx
      pointers).g)).chart.owner = some (issue.ctx pointers).g.block ∧ fullQueue chartFull (chartFull.coreOf (issue.ctx pointers).g) Engine.chart := ⟨by decide +kernel, List.getElem_mem _, by decide +kernel, by decide +kernel, by unfold fullQueue; decide +kernel⟩
theorem witness_chart_queued :
    Issuing (charted (some 3) 1 pointers) issue pointers ∧ chops[0] ∈ chops ∧ Clear (charted (some 3) 1 pointers) (issue.ctx pointers) [] ∧ ((charted
      (some 3) 1 pointers).core ((charted (some 3) 1 pointers).coreOf (issue.ctx pointers).g)).chart.owner = some (issue.ctx pointers).g.block ∧
      ¬fullQueue (charted (some 3) 1 pointers) ((charted (some 3) 1 pointers).coreOf (issue.ctx pointers).g) Engine.chart := ⟨by decide +kernel, List.getElem_mem _, by decide +kernel, by decide +kernel, by unfold fullQueue; decide +kernel⟩
theorem witness_chart_block :
    Issuing (charted (some 3) 1 pointers) issue pointers ∧ (DepthWord (Instr.chexp 30 3 0 2) 30 4 28 (Cmd.chexp (3) (0) (2)) fun (x : ℕ) => if 2 = 2
      then x + 1 else x) ∧ experimental (charted (some 3) 1 pointers) (Instr.chexp 30 3 0 2) ∧ issue.snap = none ∧ ¬(30 % 2 = 0 ∧ 2 ≤ 30 ∧ 30 ≤ 28) := ⟨by decide +kernel, Or.inl ⟨_, _, _, rfl, rfl, rfl, rfl, rfl⟩, by decide +kernel⟩
theorem witness_depth_over :
    Issuing (charted (some 3) 8 pointers) issue pointers ∧ (DepthWord (Instr.chexp 28 3 0 2) 28 4 28 (Cmd.chexp (3) (0) (2)) fun (x : ℕ) => if 2 = 2
      then x + 1 else x) ∧ experimental (charted (some 3) 8 pointers) (Instr.chexp 28 3 0 2) ∧ 28 % 2 = 0 ∧ 2 ≤ 28 ∧ 28 ≤ 28 ∧ Clear (charted (some 3)
      8 pointers) (issue.ctx pointers) [useS (28) 4] ∧ ((charted (some 3) 8 pointers).core ((charted (some 3) 8 pointers).coreOf (issue.ctx
      pointers).g)).chart.owner = some (issue.ctx pointers).g.block ∧ ((if 2 = 2 then ((charted (some 3) 8 pointers).core ((charted (some 3) 8
      pointers).coreOf (issue.ctx pointers).g)).chart.depthIssued + 1 else ((charted (some 3) 8 pointers).core ((charted (some 3) 8 pointers).coreOf
      (issue.ctx pointers).g)).chart.depthIssued) < 1 ∨ 8 < if 2 = 2 then ((charted (some 3) 8 pointers).core ((charted (some 3) 8 pointers).coreOf
      (issue.ctx pointers).g)).chart.depthIssued + 1 else ((charted (some 3) 8 pointers).core ((charted (some 3) 8 pointers).coreOf (issue.ctx
      pointers).g)).chart.depthIssued) := ⟨by decide +kernel, Or.inl ⟨_, _, _, rfl, rfl, rfl, rfl, rfl⟩, by decide +kernel⟩
theorem witness_depth_under :
    Issuing (charted (some 3) 1 pointers) issue pointers ∧ (DepthWord Instr.chenabPop 2 0 30 (Cmd.chenab 1) fun (x : ℕ) => x - 1) ∧ experimental
      (charted (some 3) 1 pointers) Instr.chenabPop ∧ 2 % 2 = 0 ∧ 2 ≤ 2 ∧ 2 ≤ 30 ∧ Clear (charted (some 3) 1 pointers) (issue.ctx pointers) [useS (2)
      0] ∧ ((charted (some 3) 1 pointers).core ((charted (some 3) 1 pointers).coreOf (issue.ctx pointers).g)).chart.owner = some (issue.ctx
      pointers).g.block ∧ (((charted (some 3) 1 pointers).core ((charted (some 3) 1 pointers).coreOf (issue.ctx pointers).g)).chart.depthIssued - 1 <
      1 ∨ 8 < ((charted (some 3) 1 pointers).core ((charted (some 3) 1 pointers).coreOf (issue.ctx pointers).g)).chart.depthIssued - 1) := ⟨by decide +kernel, Or.inr (Or.inr ⟨rfl, rfl, rfl, Or.inr (Or.inl ⟨rfl, rfl, rfl⟩)⟩), by decide +kernel⟩
theorem witness_depth :
    Issuing (charted (some 3) 7 pointers) issue pointers ∧ (DepthWord (Instr.chexp 28 3 0 2) 28 4 28 (Cmd.chexp (3) (0) (2)) fun (x : ℕ) => if 2 = 2
      then x + 1 else x) ∧ experimental (charted (some 3) 7 pointers) (Instr.chexp 28 3 0 2) ∧ 28 % 2 = 0 ∧ 2 ≤ 28 ∧ 28 ≤ 28 ∧ Clear (charted (some 3)
      7 pointers) (issue.ctx pointers) [useS (28) 4] ∧ ((charted (some 3) 7 pointers).core ((charted (some 3) 7 pointers).coreOf (issue.ctx
      pointers).g)).chart.owner = some (issue.ctx pointers).g.block ∧ (1 ≤ if 2 = 2 then ((charted (some 3) 7 pointers).core ((charted (some 3) 7
      pointers).coreOf (issue.ctx pointers).g)).chart.depthIssued + 1 else ((charted (some 3) 7 pointers).core ((charted (some 3) 7 pointers).coreOf
      (issue.ctx pointers).g)).chart.depthIssued) ∧ ((if 2 = 2 then ((charted (some 3) 7 pointers).core ((charted (some 3) 7 pointers).coreOf
      (issue.ctx pointers).g)).chart.depthIssued + 1 else ((charted (some 3) 7 pointers).core ((charted (some 3) 7 pointers).coreOf (issue.ctx
      pointers).g)).chart.depthIssued) ≤ 8) ∧ ¬fullQueue (charted (some 3) 7 pointers) ((charted (some 3) 7 pointers).coreOf (issue.ctx pointers).g)
      Engine.chart := ⟨by decide +kernel, Or.inl ⟨_, _, _, rfl, rfl, rfl, rfl, rfl⟩, by decide +kernel, by decide +kernel, by decide +kernel, by decide +kernel, by decide +kernel, by decide +kernel, by decide +kernel, by decide +kernel, by unfold fullQueue; decide +kernel⟩
theorem witness_depth_full :
    Issuing chartFull issue pointers ∧ (DepthWord (Instr.chexp 28 3 0 2) 28 4 28 (Cmd.chexp (3) (0) (2)) fun (x : ℕ) => if 2 = 2 then x + 1 else x) ∧
      experimental chartFull (Instr.chexp 28 3 0 2) ∧ 28 % 2 = 0 ∧ 2 ≤ 28 ∧ 28 ≤ 28 ∧ Clear chartFull (issue.ctx pointers) [useS (28) 4] ∧
      (chartFull.core (chartFull.coreOf (issue.ctx pointers).g)).chart.owner = some (issue.ctx pointers).g.block ∧ (1 ≤ if 2 = 2 then (chartFull.core
      (chartFull.coreOf (issue.ctx pointers).g)).chart.depthIssued + 1 else (chartFull.core (chartFull.coreOf (issue.ctx
      pointers).g)).chart.depthIssued) ∧ ((if 2 = 2 then (chartFull.core (chartFull.coreOf (issue.ctx pointers).g)).chart.depthIssued + 1 else
      (chartFull.core (chartFull.coreOf (issue.ctx pointers).g)).chart.depthIssued) ≤ 8) ∧ fullQueue chartFull (chartFull.coreOf (issue.ctx
      pointers).g) Engine.chart := ⟨by decide +kernel, Or.inl ⟨_, _, _, rfl, rfl, rfl, rfl, rfl⟩, by decide +kernel, by decide +kernel, by decide +kernel, by decide +kernel, by decide +kernel, by decide +kernel, by decide +kernel, by decide +kernel, by unfold fullQueue; decide +kernel⟩
theorem witness_chcubic_a0 :
    Issuing stepA0 issue pointers ∧ stepA0.stepB0 = false ∧ Clear stepA0 (issue.ctx pointers) [] := by decide +kernel
theorem witness_chld :
    Issuing (charted (some 3) 1 pointers) issue pointers ∧ ((charted (some 3) 1 pointers).core ((charted (some 3) 1 pointers).coreOf (issue.ctx
      pointers).g)).chart.owner = some (issue.ctx pointers).g.block ∧ ¬fullQueue (charted (some 3) 1 pointers) ((charted (some 3) 1 pointers).coreOf
      (issue.ctx pointers).g) Engine.chart ∧ goodBlock 28 4 ∧ ¬(1 = 1 ∧ 2 % 2 = 1) ∧ Clear (charted (some 3) 1 pointers) (issue.ctx pointers) [useS
      (3) 1, useS (28) 4] := ⟨by decide +kernel, by decide +kernel, by unfold fullQueue; decide +kernel, by decide +kernel⟩
theorem witness_chvis :
    Issuing (charted (some 3) 1 pointers) issue pointers ∧ ((charted (some 3) 1 pointers).core ((charted (some 3) 1 pointers).coreOf (issue.ctx
      pointers).g)).chart.owner = some (issue.ctx pointers).g.block ∧ ¬fullQueue (charted (some 3) 1 pointers) ((charted (some 3) 1 pointers).coreOf
      (issue.ctx pointers).g) Engine.chart ∧ goodBlock 30 2 ∧ Clear (charted (some 3) 1 pointers) (issue.ctx pointers) [useS (30) 2] := ⟨by decide +kernel, by decide +kernel, by unfold fullQueue; decide +kernel, by decide +kernel⟩
theorem witness_chset :
    Issuing (charted (some 3) 1 pointers) issue pointers ∧ ((charted (some 3) 1 pointers).core ((charted (some 3) 1 pointers).coreOf (issue.ctx
      pointers).g)).chart.owner = some (issue.ctx pointers).g.block ∧ ¬fullQueue (charted (some 3) 1 pointers) ((charted (some 3) 1 pointers).coreOf
      (issue.ctx pointers).g) Engine.chart ∧ Clear (charted (some 3) 1 pointers) (issue.ctx pointers) [useS (31) 1] := ⟨by decide +kernel, by decide +kernel, by unfold fullQueue; decide +kernel, by decide +kernel⟩
theorem witness_chrel :
    Issuing (charted (some 3) 1 pointers) issue pointers ∧ ((charted (some 3) 1 pointers).core ((charted (some 3) 1 pointers).coreOf (issue.ctx
      pointers).g)).chart.owner = some (issue.ctx pointers).g.block ∧ Clear (charted (some 3) 1 pointers) (issue.ctx pointers) [] := by decide +kernel
theorem witness_chorg :
    Issuing (charted (some 3) 1 pointers) issue pointers ∧ ((charted (some 3) 1 pointers).core ((charted (some 3) 1 pointers).coreOf (issue.ctx
      pointers).g)).chart.owner = some (issue.ctx pointers).g.block ∧ Clear (charted (some 3) 1 pointers) (issue.ctx pointers) [useS (6) 1] := by decide +kernel
theorem witness_chown_free :
    Issuing (charted none 1 pointers) issue pointers ∧ Clear (charted none 1 pointers) (issue.ctx pointers) [useS (6) 1] ∧ ((charted none 1
      pointers).core ((charted none 1 pointers).coreOf (issue.ctx pointers).g)).chart.owner = none ∧ ¬fullQueue (charted none 1 pointers) ((charted
      none 1 pointers).coreOf (issue.ctx pointers).g) Engine.chart := ⟨by decide +kernel, by decide +kernel, by decide +kernel, by unfold fullQueue; decide +kernel⟩
theorem witness_chown_own :
    Issuing (charted (some 3) 1 pointers) issue pointers ∧ Clear (charted (some 3) 1 pointers) (issue.ctx pointers) [useS (6) 1] ∧ ((charted (some 3)
      1 pointers).core ((charted (some 3) 1 pointers).coreOf (issue.ctx pointers).g)).chart.owner = some (issue.ctx pointers).g.block := by decide +kernel
theorem witness_chown_other :
    Issuing (charted (some 9) 1 pointers) issue pointers ∧ Clear (charted (some 9) 1 pointers) (issue.ctx pointers) [useS (6) 1] ∧ ((charted (some 9)
      1 pointers).core ((charted (some 9) 1 pointers).coreOf (issue.ctx pointers).g)).chart.owner = some 9 ∧ 9 ≠ (issue.ctx pointers).g.block := by decide +kernel
theorem witness_chart_form :
    Issuing (charted (some 3) 1 pointers) issue pointers ∧ issue.snap = none ∧ (¬goodBlock 5 4 ∨ 1 = 1 ∧ 2 % 2 = 1) := by decide +kernel
theorem witness_chvis_form :
    Issuing (charted (some 3) 1 pointers) issue pointers ∧ issue.snap = none ∧ ¬goodBlock 31 2 := by decide +kernel
theorem witness_chown_full :
    Issuing freeFull issue pointers ∧ Clear freeFull (issue.ctx pointers) [useS (6) 1] ∧ (freeFull.core (freeFull.coreOf (issue.ctx
      pointers).g)).chart.owner = none ∧ fullQueue freeFull (freeFull.coreOf (issue.ctx pointers).g) Engine.chart := ⟨by decide +kernel, by decide +kernel, by decide +kernel, by unfold fullQueue; decide +kernel⟩
theorem witness_command_fails :
    First (turning Engine.copy badFill false) 1 Engine.copy badFill [] ∧ (((turning Engine.copy badFill false).beginAq 1 badFill.scope
      badFill.aq).runCmd badFill 1 (turning Engine.copy badFill false).pick).ends = EngEnd.status 2147483653 ∧ badFill.releases 2147483653 = false := by decide +kernel
theorem witness_command_completes :
    First (turning Engine.copy fillCmd false) 1 Engine.copy fillCmd [] ∧ (((turning Engine.copy fillCmd false).beginAq 1 fillCmd.scope
      fillCmd.aq).runCmd fillCmd 1 (turning Engine.copy fillCmd false).pick).ends = EngEnd.status 1 ∧ fillCmd.releases 1 = true ∧ (((turning
      Engine.copy fillCmd false).beginAq 1 fillCmd.scope fillCmd.aq).runCmd fillCmd 1 (turning Engine.copy fillCmd false).pick).s.endRl 1
      fillCmd.scope fillCmd.aq fillCmd.rl = some (((turning Engine.copy fillCmd false).beginAq 1 fillCmd.scope fillCmd.aq).runCmd fillCmd 1 (turning
      Engine.copy fillCmd false).pick).s := by decide +kernel
theorem witness_command_waits :
    First (turning Engine.copy fillCmd true) 1 Engine.copy fillCmd [] ∧ ((((turning Engine.copy fillCmd true).beginAq 1 fillCmd.scope
      fillCmd.aq).runCmd fillCmd 1 (turning Engine.copy fillCmd true).pick).ends = EngEnd.waits ∧ (fillCmd.waits = none ∨ fillCmd.done < (((turning
      Engine.copy fillCmd true).beginAq 1 fillCmd.scope fillCmd.aq).runCmd fillCmd 1 (turning Engine.copy fillCmd true).pick).done) ∨ (((turning
      Engine.copy fillCmd true).beginAq 1 fillCmd.scope fillCmd.aq).runCmd fillCmd 1 (turning Engine.copy fillCmd true).pick).ends = EngEnd.more ∧
      fillCmd.done < (((turning Engine.copy fillCmd true).beginAq 1 fillCmd.scope fillCmd.aq).runCmd fillCmd 1 (turning Engine.copy fillCmd
      true).pick).done) ∧ (∀ y ∈ ((((turning Engine.copy fillCmd true).beginAq 1 fillCmd.scope fillCmd.aq).runCmd fillCmd 1 (turning Engine.copy
      fillCmd true).pick).s.core 1).queueOf Engine.copy, y.id = fillCmd.id → y = fillCmd) := by decide +kernel
theorem witness_command_ends :
    Engine.copy ≠ Engine.bank ∧ (List.map (fun (x : EngCmd) => x.id) (((turning Engine.copy fillCmd false).core 1).queueOf Engine.copy) = fillTo5.id
      :: List.map (fun (x : EngCmd) => x.id) (List.drop 1 (((turning Engine.copy fillCmd false).core 1).queueOf Engine.copy))) ∧ ((List.map (fun (x :
      EngCmd) => x.id) (((turning Engine.copy fillCmd false).core 1).queueOf Engine.copy)).Nodup) ∧ fillTo5.token ≠ 0 ∧ (fillTo5.token < 24 ∨ 27 <
      fillTo5.token) ∧ (turning Engine.copy fillCmd false).groups.find fillTo5.group = some pointers := by decide +kernel
theorem witness_busy_turn :
    First (turning Engine.copy (fillWaiting 4359) true) 1 Engine.copy (fillWaiting 4359) [] ∧ (fillWaiting 4359).waits = some 4359 ∧ 4359 + 3 * 1880 <
      (turning Engine.copy (fillWaiting 4359) true).cycle ∧ (((turning Engine.copy (fillWaiting 4359) true).beginAq 1 (fillWaiting 4359).scope
      (fillWaiting 4359).aq).runCmd (fillWaiting 4359) 1 0).ends = EngEnd.waits ∧ (((turning Engine.copy (fillWaiting 4359) true).beginAq 1
      (fillWaiting 4359).scope (fillWaiting 4359).aq).runCmd (fillWaiting 4359) 1 0).done = (fillWaiting 4359).done := by decide +kernel
theorem witness_busy_turn_early :
    (∀ x ∈ ((turning Engine.copy (fillWaiting 4360) true).core 1).queueOf Engine.copy, ∀ (t : ℕ), x.waits = some t → (turning Engine.copy (fillWaiting
      4360) true).cycle ≤ t + 3 * 1880) := by decide +kernel
theorem witness_claim_grant :
    ((claiming 5).core 1).claimLine true = [claimOf 5] ∧ ((claiming 5).blocks.find (claimOf 5).block = some { launch := (Load.block 0).launch, x := (Load.block 0).x, y := (Load.block 0).y, z := (Load.block 0).z, linear := (Load.block 0).linear, clrank := (Load.block 0).clrank, cluster := (Load.block 0).cluster, core := (Load.block 0).core, away := (Load.block 0).away, placed := (Load.block 0).placed, stayed := (Load.block 0).stayed, barriers := (Load.block 0).barriers, bindings := List.map (fun (i : ℕ) => { name := i, acc := true, freed := none, code := 0, rows := 0, cols := 0, bytes := [] : Binding }) (List.range 3), fetchws := (Load.block 0).fetchws, drawn := (Load.block 0).drawn, halt := (Load.block 0).halt, unit := (Load.block 0).unit, ended := (Load.block 0).ended, kept := (Load.block 0).kept, keptClaims := (Load.block 0).keptClaims, keptChart := (Load.block 0).keptChart, keptBanks := (Load.block 0).keptBanks : Block })
      ∧ (claimOf 5).n ≤ (claiming 5).unitsFree 1 true := by decide +kernel
theorem witness_claim_waits :
    ((claiming 6).core 1).claimLine true = [claimOf 6] ∧ ((claiming 6).blocks.find (claimOf 6).block = some { launch := (Load.block 0).launch, x := (Load.block 0).x, y := (Load.block 0).y, z := (Load.block 0).z, linear := (Load.block 0).linear, clrank := (Load.block 0).clrank, cluster := (Load.block 0).cluster, core := (Load.block 0).core, away := (Load.block 0).away, placed := (Load.block 0).placed, stayed := (Load.block 0).stayed, barriers := (Load.block 0).barriers, bindings := List.map (fun (i : ℕ) => { name := i, acc := true, freed := none, code := 0, rows := 0, cols := 0, bytes := [] : Binding }) (List.range 3), fetchws := (Load.block 0).fetchws, drawn := (Load.block 0).drawn, halt := (Load.block 0).halt, unit := (Load.block 0).unit, ended := (Load.block 0).ended, kept := (Load.block 0).kept, keptClaims := (Load.block 0).keptClaims, keptChart := (Load.block 0).keptChart, keptBanks := (Load.block 0).keptBanks : Block })
      ∧ (claiming 6).unitsFree 1 true < (claimOf 6).n := by decide +kernel
theorem witness_subarray_gate :
    (ungated.core 1).tgate ≠ 0 ∧ (ungated.core 1).gated.getLsbD (3) = false ∧ Tab.get 0 (ungated.core 1).worked (3) + BitVec.toNat (ungated.core
      1).tgate ≤ ungated.now 1 := by decide +kernel
theorem witness_subarray_busy :
    (((machine group0).core 1).tgate = 0 ∨ (machine group0).now 1 < Tab.get 0 ((machine group0).core 1).worked (3) + BitVec.toNat ((machine
      group0).core 1).tgate) := by decide +kernel
theorem witness_chart_reset :
    ((turning Engine.chart (cmdOf 50 Cmd.chreset []) false).core 1).chartQ = [cmdOf 50 Cmd.chreset []] ∧ (cmdOf 50 Cmd.chreset []).cmd = Cmd.chreset := by decide +kernel
theorem witness_contribution_away :
    (contribution 0 none 9 2).home ≠ collecting.device := by decide +kernel
theorem witness_contribution_first :
    (contribution 1 (some 7) 0 2).home = memoryMachine.device ∧ (contribution 1 (some 7) 0 2).peer = some 7 ∧ (∀ i ∈ memoryMachine.collectives,
      ¬(i.first.id = (contribution 1 (some 7) 0 2).id ∧ i.first.home = (contribution 1 (some 7) 0 2).home)) ∧ memoryMachine.collectives.length < 1024
      ∧ (contribution 1 (some 7) 0 2).terms ≠ 1 := by decide +kernel
theorem witness_contribution_alone :
    (contribution 1 (some 7) 0 1).home = memoryMachine.device ∧ (contribution 1 (some 7) 0 1).peer = some 7 ∧ (∀ i ∈ memoryMachine.collectives,
      ¬(i.first.id = (contribution 1 (some 7) 0 1).id ∧ i.first.home = (contribution 1 (some 7) 0 1).home)) ∧ (1024 ≤ memoryMachine.collectives.length
      ∨ (contribution 1 (some 7) 0 1).terms = 1) := by decide +kernel
theorem witness_contribution_last :
    (contribution 1 (some 7) 0 2).home = collecting.device ∧ (contribution 1 (some 7) 0 2).peer = some 7 ∧ collecting.collectives = [{ first := contribution 0 none 0 2, parts := [contribution 0 none 0 2] : Collective }]
      ∧ { first := contribution 0 none 0 2, parts := [contribution 0 none 0 2] : Collective }.first.id = (contribution 1 (some 7) 0 2).id ∧ { first := contribution 0 none 0 2, parts := [contribution 0 none 0 2] : Collective }.first.home
      = (contribution 1 (some 7) 0 2).home ∧ sameTerms { first := contribution 0 none 0 2, parts := [contribution 0 none 0 2] : Collective }.first
      (contribution 1 (some 7) 0 2) = true ∧ (∀ y ∈ { first := contribution 0 none 0 2, parts := [contribution 0 none 0 2] : Collective }.parts,
      y.index ≠ (contribution 1 (some 7) 0 2).index) ∧ { first := contribution 0 none 0 2, parts := [contribution 0 none 0 2] : Collective }.parts.length
      + 1 = { first := contribution 0 none 0 2, parts := [contribution 0 none 0 2] : Collective }.first.terms := by decide +kernel
theorem witness_contribution_twice :
    (contribution 0 (some 7) 0 2).home = collecting.device ∧ (contribution 0 (some 7) 0 2).peer = some 7 ∧ collecting.collectives = [{ first := contribution 0 none 0 2, parts := [contribution 0 none 0 2] : Collective }]
      ∧ { first := contribution 0 none 0 2, parts := [contribution 0 none 0 2] : Collective }.first.id = (contribution 0 (some 7) 0 2).id ∧ { first := contribution 0 none 0 2, parts := [contribution 0 none 0 2] : Collective }.first.home
      = (contribution 0 (some 7) 0 2).home ∧ (sameTerms { first := contribution 0 none 0 2, parts := [contribution 0 none 0 2] : Collective }.first
      (contribution 0 (some 7) 0 2) = false ∨ ∃ y ∈ { first := contribution 0 none 0 2, parts := [contribution 0 none 0 2] : Collective }.parts,
      y.index = (contribution 0 (some 7) 0 2).index) := by decide +kernel
theorem witness_contribution_differs :
    (contribution 1 (some 7) 0 3).home = collecting.device ∧ (contribution 1 (some 7) 0 3).peer = some 7 ∧ collecting.collectives = [{ first := contribution 0 none 0 2, parts := [contribution 0 none 0 2] : Collective }]
      ∧ { first := contribution 0 none 0 2, parts := [contribution 0 none 0 2] : Collective }.first.id = (contribution 1 (some 7) 0 3).id ∧ { first := contribution 0 none 0 2, parts := [contribution 0 none 0 2] : Collective }.first.home
      = (contribution 1 (some 7) 0 3).home ∧ (sameTerms { first := contribution 0 none 0 2, parts := [contribution 0 none 0 2] : Collective }.first
      (contribution 1 (some 7) 0 3) = false ∨ ∃ y ∈ { first := contribution 0 none 0 2, parts := [contribution 0 none 0 2] : Collective }.parts,
      y.index = (contribution 1 (some 7) 0 3).index) := by decide +kernel
theorem witness_word_trap :
    Issuing busy issue filled ∧ Clear busy (issue.ctx filled) [] := by decide +kernel
theorem witness_tret_outside :
    Issuing (machine filled) issue filled ∧ Clear (machine filled) (issue.ctx filled) [] ∧ (issue.ctx filled).g.handler = none := by decide +kernel
theorem witness_tret_not_all :
    Issuing (machine (handling HandlerKind.trap 16)) issue (handling HandlerKind.trap 16) ∧ Clear (machine (handling HandlerKind.trap 16)) (issue.ctx
      (handling HandlerKind.trap 16)) [] ∧ (issue.ctx (handling HandlerKind.trap 16)).g.handler = some (handler1 HandlerKind.trap 16) ∧ (∃ i < 32,
      BitVec.getLsbD (handler1 HandlerKind.trap 16).h i = true ∧ BitVec.getLsbD issue.slices i = false) := by decide +kernel
theorem witness_trap_pends :
    (machine (trapping true)).groups.find 4 = some (trapping true) ∧ (trapping true).killed = false ∧ (trapping true).handler = none ∧ (trapping
      true).trap = none ∧ (machine (trapping true)).blockStops (trapping true).block = false ∧
      (trapping true).lateWayin { trap0 with born := (machine (trapping true)).nowOf (trapping true) } = none := by decide +kernel
theorem witness_trap_late_wayin :
    (machine lateGroup).groups.find 4 = some lateGroup ∧ lateGroup.killed = false ∧ lateGroup.handler = none ∧ lateGroup.trap = none ∧
      (machine lateGroup).blockStops lateGroup.block = false ∧ lateGroup.lateWayin { trapHigh with born := (machine lateGroup).nowOf lateGroup } = some (9, lateWay) := by decide +kernel
theorem witness_trap_not_yet :
    (machine (pendingTrap trapHigh)).groups.find 4 = some (pendingTrap trapHigh) ∧ (pendingTrap trapHigh).killed = false ∧ (pendingTrap trapHigh).trap
      = some trapHigh ∧ (machine (pendingTrap trapHigh)).nowOf (pendingTrap trapHigh) ≤ trapHigh.born := by decide +kernel
theorem witness_trap_entry :
    (machine trapWaits).groups.find 4 = some trapWaits ∧ trapWaits.killed = false ∧ trapWaits.trap = some trap0 ∧ trap0.born < (machine
      trapWaits).nowOf trapWaits ∧ trap0.en = true ∧ othersStopped trapWaits trap0.slices := by decide +kernel
theorem witness_trap_entry_waits :
    (machine others).groups.find 4 = some others ∧ others.killed = false ∧ others.trap = some trap0 ∧ trap0.born < (machine others).nowOf others ∧
      trap0.en = true ∧ ¬othersStopped others trap0.slices := by decide +kernel
theorem witness_trap_kills :
    (machine unhandled).groups.find 4 = some unhandled ∧ unhandled.killed = false ∧ unhandled.trap = some disabled0 ∧ disabled0.born < (machine
      unhandled).nowOf unhandled ∧ disabled0.en = false := by decide +kernel
theorem witness_trap_lower :
    (machine (pendingTrap trapHigh)).groups.find 4 = some (pendingTrap trapHigh) ∧ (pendingTrap trapHigh).killed = false ∧ (pendingTrap
      trapHigh).handler = none ∧ (pendingTrap trapHigh).trap = some trapHigh ∧ trapHigh.born = (machine (pendingTrap trapHigh)).nowOf (pendingTrap
      trapHigh) ∧ lowest 32 trap0.slices < lowest 32 trapHigh.slices := by decide +kernel
theorem witness_trap_set_back :
    (machine trapWaits).groups.find 4 = some trapWaits ∧ trapWaits.killed = false ∧ trapWaits.handler = none ∧ trapWaits.trap = some trap0 ∧
      (trap0.born ≠ (machine trapWaits).nowOf trapWaits ∨ lowest 32 trap0.slices ≤ lowest 32 trap9.slices) := by decide +kernel
theorem witness_trap_set_back_higher :
    (machine (pendingTrap trapNow)).groups.find 4 = some (pendingTrap trapNow) ∧ (pendingTrap trapNow).killed = false ∧ (pendingTrap trapNow).handler
      = none ∧ (pendingTrap trapNow).trap = some trapNow ∧ (trapNow.born ≠ (machine (pendingTrap trapNow)).nowOf (pendingTrap trapNow) ∨ lowest 32
      trapNow.slices ≤ lowest 32 trapHigh.slices) := by decide +kernel
theorem witness_trap_set_back_halt :
    stopping.groups.find 4 = some (trapping true) ∧ (trapping true).killed = false ∧ (trapping true).handler = none ∧ (trapping true).trap = none ∧
      stopping.blockStops (trapping true).block = true := by decide +kernel
theorem witness_double_late :
    (machine (handling HandlerKind.trap 1)).groups.find 4 = some (handling HandlerKind.trap 1) ∧ (handling HandlerKind.trap 1).killed = false ∧
      (handling HandlerKind.trap 1).handler = some (handler1 HandlerKind.trap 1) ∧ ((some 7 : Option Nat) = none ∨ ∃ (o : ℕ), some 7 = some o ∧ ((o ∉
      (handler1 HandlerKind.trap 1).before ∧ (handler1 HandlerKind.trap 1).id ≤ o) ∨ lateTrap0.async = true ∧ ((handler1 HandlerKind.trap 1).kind = HandlerKind.pre ∨ lateTrap0.slices &&&
      (handler1 HandlerKind.trap 1).s ≠ 0))) := by decide +kernel
theorem witness_late_beside_handler :
    (machine (handling HandlerKind.trap 2)).groups.find 4 = some (handling HandlerKind.trap 2) ∧ (handling HandlerKind.trap 2).killed = false ∧
      (handling HandlerKind.trap 2).handler = some (handler1 HandlerKind.trap 2) ∧ (7 ∈ (handler1 HandlerKind.trap 2).before ∨ 7 < (handler1 HandlerKind.trap 2).id) ∧ (handler1
      HandlerKind.trap 2).kind = HandlerKind.trap ∧ lateTrap0.slices &&& (handler1 HandlerKind.trap 2).s = 0 := by decide +kernel
theorem witness_l2way_over :
    Issuing (scratched 1 (s8 16)) issue (s8 16) ∧ (scratched 1 (s8 16)).privOf (issue.ctx (s8 16)).g = true ∧ isS 104 = true ∧ Clear (scratched 1 (s8
      16)) (issue.ctx (s8 16)) [use 104] ∧ 15 < BitVec.toNat ((issue.ctx (s8 16)).rd 104 0) := by decide +kernel
theorem witness_l2way :
    Issuing (scratched 1 (s8 15)) issue (s8 15) ∧ (scratched 1 (s8 15)).privOf (issue.ctx (s8 15)).g = true ∧ isS 104 = true ∧ Clear (scratched 1 (s8
      15)) (issue.ctx (s8 15)) [use 104] ∧ BitVec.toNat ((issue.ctx (s8 15)).rd 104 0) ≤ 15 ∧ (scratched 1 (s8 15)).scratchAtom ((scratched 1 (s8
      15)).coreOf (issue.ctx (s8 15)).g / 144) = false := by decide +kernel
theorem witness_l2way_rd :
    Issuing (scratched 3 (s8 15)) issue (s8 15) ∧ (scratched 3 (s8 15)).privOf (issue.ctx (s8 15)).g = true ∧ isS 104 = true ∧ Clear (scratched 3 (s8
      15)) (issue.ctx (s8 15)) [use 104] := by decide +kernel
theorem witness_l2way_waits :
    Issuing l2Atom issue (s8 2) ∧ l2Atom.privOf (issue.ctx (s8 2)).g = true ∧ isS 104 = true ∧ Clear l2Atom (issue.ctx (s8 2)) [use 104] ∧
      BitVec.toNat ((issue.ctx (s8 2)).rd 104 0) ≤ 15 ∧ l2Atom.scratchAtom (l2Atom.coreOf (issue.ctx (s8 2)).g / 144) = true := by decide +kernel
theorem witness_tlbinv_waits :
    Issuing atomOnItsWay issue pointers ∧ atomOnItsWay.privOf (issue.ctx pointers).g = true ∧ atomOnItsWay.release issue.group (atomOnItsWay.coreOf
      (issue.ctx pointers).g) 2 = none ∧ Clear atomOnItsWay (issue.ctx pointers) [] := by decide +kernel
theorem witness_tlbinv :
    Issuing memoryMachine issue pointers ∧ memoryMachine.privOf (issue.ctx pointers).g = true ∧ memoryMachine.release issue.group
      (memoryMachine.coreOf (issue.ctx pointers).g) 2 = some memoryMachine ∧ Clear memoryMachine (issue.ctx pointers) [] := by decide +kernel
theorem witness_tlbinv_page :
    Issuing memoryMachine issue pointers ∧ memoryMachine.privOf (issue.ctx pointers).g = true ∧ memoryMachine.release issue.group
      (memoryMachine.coreOf (issue.ctx pointers).g) 2 = some memoryMachine ∧ isS 104 = true ∧ isEven 104 = true ∧ Clear memoryMachine (issue.ctx
      pointers) [useN 104 2] := by decide +kernel
theorem witness_tlbinv_over :
    Issuing (invalidating inval7Over) issue invalGroup ∧ (invalidating inval7Over).invals = [inval7Over] ∧ (Inval.left (invalidating inval7Over)
      inval7Over).over = true := by decide +kernel
theorem witness_tlbinv_still :
    Issuing (invalidating inval7) issue invalGroup ∧ (invalidating inval7).invals = [inval7] ∧ (Inval.left (invalidating inval7) inval7).over = false := by decide +kernel
theorem witness_progress :
    Issuing memoryMachine issue pointers ∧ Clear memoryMachine (issue.ctx pointers) [] := by decide +kernel
theorem witness_stop_nothing :
    Issuing (debugged 0 pointers) issue pointers ∧ Clear (debugged 0 pointers) (issue.ctx pointers) [] ∧ ((debugged 0 pointers).context ((debugged 0
      pointers).ctxOf (issue.ctx pointers).g)).dbgctl.getLsbD 0 = false := by decide +kernel
theorem witness_stop :
    Issuing (debugged 1 pointers) issue pointers ∧ Clear (debugged 1 pointers) (issue.ctx pointers) [] ∧ ((debugged 1 pointers).context ((debugged 1
      pointers).ctxOf (issue.ctx pointers).g)).dbgctl.getLsbD 0 = true ∧ (debugged 1 pointers).blocks.find (issue.ctx pointers).g.block ≠ none := by decide +kernel
theorem witness_brkpt_nothing :
    Issuing (debugged 7 pointers) issue pointers ∧ Clear (debugged 7 pointers) (issue.ctx pointers) [] ∧ (((debugged 7 pointers).context ((debugged 7
      pointers).ctxOf (issue.ctx pointers).g)).dbgctl.toNat / 2 = 0 ∨ ((debugged 7 pointers).context ((debugged 7 pointers).ctxOf (issue.ctx
      pointers).g)).dbgctl.toNat / 2 = 3) := by decide +kernel
theorem witness_brkpt_traps :
    Issuing (debugged 2 pointers) issue pointers ∧ Clear (debugged 2 pointers) (issue.ctx pointers) [] ∧ ((debugged 2 pointers).context ((debugged 2
      pointers).ctxOf (issue.ctx pointers).g)).dbgctl.toNat / 2 = 1 := by decide +kernel
theorem witness_brkpt_halts :
    Issuing (debugged 4 pointers) issue pointers ∧ Clear (debugged 4 pointers) (issue.ctx pointers) [] ∧ ((debugged 4 pointers).context ((debugged 4
      pointers).ctxOf (issue.ctx pointers).g)).dbgctl.toNat / 2 = 2 ∧ (debugged 4 pointers).blocks.find (issue.ctx pointers).g.block ≠ none := by decide +kernel
theorem witness_sndg_over :
    Issuing (sounded [] (s8 16)) issue (s8 16) ∧ (sounded [] (s8 16)).blocks.find (issue.ctx (s8 16)).g.block = some (block3 (sounded [] (s8 16))) ∧
      (sounded [] (s8 16)).privOf (issue.ctx (s8 16)).g = true ∧ isS 104 = true ∧ Clear (sounded [] (s8 16)) (issue.ctx (s8 16)) [use 104] ∧ 16 ≤
      BitVec.toNat ((issue.ctx (s8 16)).rd 104 0) := by decide +kernel
theorem witness_sndg_on :
    Issuing (sounded [(9, soundingOf false)] (s8 15)) issue (s8 15) ∧ (sounded [(9, soundingOf false)] (s8 15)).blocks.find (issue.ctx (s8
      15)).g.block = some (block3 (sounded [(9, soundingOf false)] (s8 15))) ∧ (sounded [(9, soundingOf false)] (s8 15)).privOf (issue.ctx (s8 15)).g
      = true ∧ isS 104 = true ∧ Clear (sounded [(9, soundingOf false)] (s8 15)) (issue.ctx (s8 15)) [use 104] ∧ BitVec.toNat ((issue.ctx (s8 15)).rd
      104 0) < 16 ∧ (∀ e ∈ (sounded [(9, soundingOf false)] (s8 15)).soundings, e.2.on = true → e.1 = (block3 (sounded [(9, soundingOf false)] (s8
      15))).launch) := by decide +kernel
theorem witness_sndg_other :
    Issuing (sounded [(9, soundingOf true)] (s8 15)) issue (s8 15) ∧ (sounded [(9, soundingOf true)] (s8 15)).blocks.find (issue.ctx (s8 15)).g.block
      = some (block3 (sounded [(9, soundingOf true)] (s8 15))) ∧ (sounded [(9, soundingOf true)] (s8 15)).privOf (issue.ctx (s8 15)).g = true ∧ isS
      104 = true ∧ Clear (sounded [(9, soundingOf true)] (s8 15)) (issue.ctx (s8 15)) [use 104] ∧ BitVec.toNat ((issue.ctx (s8 15)).rd 104 0) < 16 ∧
      (∃ e ∈ (sounded [(9, soundingOf true)] (s8 15)).soundings, e.2.on = true) ∧ (∀ e ∈ (sounded [(9, soundingOf true)] (s8 15)).soundings, e.2.on =
      true → e.1 ≠ (block3 (sounded [(9, soundingOf true)] (s8 15))).launch) := by decide +kernel
theorem witness_sndg_off :
    Issuing (sounded [(1, soundingOf true)] (s8 15)) issue (s8 15) ∧ (sounded [(1, soundingOf true)] (s8 15)).blocks.find (issue.ctx (s8 15)).g.block
      = some (block3 (sounded [(1, soundingOf true)] (s8 15))) ∧ (sounded [(1, soundingOf true)] (s8 15)).privOf (issue.ctx (s8 15)).g = true ∧ isS
      104 = true ∧ Clear (sounded [(1, soundingOf true)] (s8 15)) (issue.ctx (s8 15)) [] := by decide +kernel
theorem witness_sndg_off_none :
    Issuing (sounded [] (s8 15)) issue (s8 15) ∧ (sounded [] (s8 15)).blocks.find (issue.ctx (s8 15)).g.block = some (block3 (sounded [] (s8 15))) ∧
      (sounded [] (s8 15)).privOf (issue.ctx (s8 15)).g = true ∧ isS 104 = true ∧ Clear (sounded [] (s8 15)) (issue.ctx (s8 15)) [] := by decide +kernel
theorem witness_sndg_rd_waits :
    Issuing heldSound issue (s8 2097536) ∧ heldSound.blocks.find (issue.ctx (s8 2097536)).g.block = some (block3 heldSound) ∧ heldSound.privOf
      (issue.ctx (s8 2097536)).g = true ∧ isS 104 = true ∧ isEven 104 = true ∧ Clear heldSound (issue.ctx (s8 2097536)) [useN 104 2] ∧
      heldSound.entryHeld (heldSound.agentOf issue.group (issue.ctx (s8 2097536)).g) ((issue.ctx (s8 2097536)).rd64 104 0) = true := by decide +kernel
theorem witness_sndg_rd :
    Issuing (sounded [(1, soundingOf true)] (s8 2097536)) issue (s8 2097536) ∧ (sounded [(1, soundingOf true)] (s8 2097536)).blocks.find (issue.ctx
      (s8 2097536)).g.block = some (block3 (sounded [(1, soundingOf true)] (s8 2097536))) ∧ (sounded [(1, soundingOf true)] (s8 2097536)).privOf
      (issue.ctx (s8 2097536)).g = true ∧ isS 104 = true ∧ isEven 104 = true ∧ Clear (sounded [(1, soundingOf true)] (s8 2097536)) (issue.ctx (s8
      2097536)) [useN 104 2] ∧ (sounded [(1, soundingOf true)] (s8 2097536)).entryHeld ((sounded [(1, soundingOf true)] (s8 2097536)).agentOf
      issue.group (issue.ctx (s8 2097536)).g) ((issue.ctx (s8 2097536)).rd64 104 0) = false ∧ (sounded [(1, soundingOf true)] (s8
      2097536)).soundings.find 1 = some (soundingOf true) ∧ (1 = (block3 (sounded [(1, soundingOf true)] (s8 2097536))).launch ∨ (sounded [(1,
      soundingOf true)] (s8 2097536)).soundings.find (block3 (sounded [(1, soundingOf true)] (s8 2097536))).launch = none ∧ Option.map (fun (x : ℕ ×
      Sounding) => x.1) (List.find? (fun (e : ℕ × Sounding) => e.2.on) (sounded [(1, soundingOf true)] (s8 2097536)).soundings) = some 1) ∧ (sounded
      [(1, soundingOf true)] (s8 2097536)).checkPtr ((sounded [(1, soundingOf true)] (s8 2097536)).agentOf issue.group (issue.ctx (s8 2097536)).g)
      allSpaces ((issue.ctx (s8 2097536)).rd64 104 0) 128 Access.write = Except.ok { locs := [2097536], type := 0 : Target } := by decide +kernel
theorem witness_sndg_rd_other :
    Issuing (sounded [(9, soundingOf true)] (s8 2097536)) issue (s8 2097536) ∧ (sounded [(9, soundingOf true)] (s8 2097536)).blocks.find (issue.ctx
      (s8 2097536)).g.block = some (block3 (sounded [(9, soundingOf true)] (s8 2097536))) ∧ (sounded [(9, soundingOf true)] (s8 2097536)).privOf
      (issue.ctx (s8 2097536)).g = true ∧ isS 104 = true ∧ isEven 104 = true ∧ Clear (sounded [(9, soundingOf true)] (s8 2097536)) (issue.ctx (s8
      2097536)) [useN 104 2] ∧ (sounded [(9, soundingOf true)] (s8 2097536)).entryHeld ((sounded [(9, soundingOf true)] (s8 2097536)).agentOf
      issue.group (issue.ctx (s8 2097536)).g) ((issue.ctx (s8 2097536)).rd64 104 0) = false ∧ (sounded [(9, soundingOf true)] (s8
      2097536)).soundings.find 9 = some (soundingOf true) ∧ (9 = (block3 (sounded [(9, soundingOf true)] (s8 2097536))).launch ∨ (sounded [(9,
      soundingOf true)] (s8 2097536)).soundings.find (block3 (sounded [(9, soundingOf true)] (s8 2097536))).launch = none ∧ Option.map (fun (x : ℕ ×
      Sounding) => x.1) (List.find? (fun (e : ℕ × Sounding) => e.2.on) (sounded [(9, soundingOf true)] (s8 2097536)).soundings) = some 9) ∧ (sounded
      [(9, soundingOf true)] (s8 2097536)).checkPtr ((sounded [(9, soundingOf true)] (s8 2097536)).agentOf issue.group (issue.ctx (s8 2097536)).g)
      allSpaces ((issue.ctx (s8 2097536)).rd64 104 0) 128 Access.write = Except.ok { locs := [2097536], type := 0 : Target } := by decide +kernel
theorem witness_sndg_rd_fault :
    Issuing (sounded [(1, soundingOf true)] (s8 8388608)) issue (s8 8388608) ∧ (sounded [(1, soundingOf true)] (s8 8388608)).blocks.find (issue.ctx
      (s8 8388608)).g.block = some (block3 (sounded [(1, soundingOf true)] (s8 8388608))) ∧ (sounded [(1, soundingOf true)] (s8 8388608)).privOf
      (issue.ctx (s8 8388608)).g = true ∧ isS 104 = true ∧ isEven 104 = true ∧ Clear (sounded [(1, soundingOf true)] (s8 8388608)) (issue.ctx (s8
      8388608)) [useN 104 2] ∧ (sounded [(1, soundingOf true)] (s8 8388608)).entryHeld ((sounded [(1, soundingOf true)] (s8 8388608)).agentOf
      issue.group (issue.ctx (s8 8388608)).g) ((issue.ctx (s8 8388608)).rd64 104 0) = false ∧ (sounded [(1, soundingOf true)] (s8 8388608)).checkPtr
      ((sounded [(1, soundingOf true)] (s8 8388608)).agentOf issue.group (issue.ctx (s8 8388608)).g) allSpaces ((issue.ctx (s8 8388608)).rd64 104 0)
      128 Access.write = Except.error { cause := 9, level := 4, kind := 1 : PtrFault } := by decide +kernel
theorem witness_kill_record_first :
    (owing 0).launches.find 1 = some (launch1 (owing 0)) ∧ (launch1 (owing 0)).kills = [killRec] ∧ 2097152 = ((owing 0).queue (launch1 (owing
      0)).host).base ∧ (owing 0).heldAt 2097152 = false := by decide +kernel
theorem witness_kill_record :
    (owing 4294967295).launches.find 1 = some (launch1 (owing 4294967295)) ∧ (launch1 (owing 4294967295)).kills = [killRec] ∧ 2097152 = ((owing
      4294967295).queue (launch1 (owing 4294967295)).host).base ∧ (owing 4294967295).heldAt 2097152 = false := by decide +kernel
theorem witness_kill_record_waits :
    owingHeld.launches.find 1 = some (launch1 owingHeld) ∧ (launch1 owingHeld).kills = [killRec] ∧ 2097152 = (owingHeld.queue (launch1
      owingHeld).host).base ∧ owingHeld.heldAt 2097152 = true := by decide +kernel
theorem witness_launch_kill :
    busy.launches.find 1 = some launch0 := by decide +kernel
theorem witness_debug_record :
    (recording 510 0).blocks.find 3 = some (block3 (recording 510 0)) ∧ (block3 (recording 510 0)).halt = some (halt3 none) ∧ (halt3 none).index =
      none ∧ (recording 510 0).launches.find (block3 (recording 510 0)).launch = some (launch1 (recording 510 0)) ∧ (recording 510 0).blockStopped 3 =
      true ∧ 2099200 = ((recording 510 0).context (launch1 (recording 510 0)).ctx).dbgBase ∧ 510 = (recording 510 0).readNat 2099200 8 ∧ 510 < 2 ^ 64
      - 1 ∧ (recording 510 0).heldAt 2099200 = false ∧ (recording 510 0).heldAt (2099200 + 128 + 128 * (510 % 511)) = false ∧ (recording 510 0).heldAt
      (2099200 + 255 + 128 * (510 % 511)) = false ∧ 510 < (recording 510 0).readNat (2099200 + 8) 8 + 511 := by decide +kernel
theorem witness_debug_record_wraps :
    (recording 511 1).blocks.find 3 = some (block3 (recording 511 1)) ∧ (block3 (recording 511 1)).halt = some (halt3 none) ∧ (halt3 none).index =
      none ∧ (recording 511 1).launches.find (block3 (recording 511 1)).launch = some (launch1 (recording 511 1)) ∧ (recording 511 1).blockStopped 3 =
      true ∧ 2099200 = ((recording 511 1).context (launch1 (recording 511 1)).ctx).dbgBase ∧ 511 = (recording 511 1).readNat 2099200 8 ∧ 511 < 2 ^ 64
      - 1 ∧ (recording 511 1).heldAt 2099200 = false ∧ (recording 511 1).heldAt (2099200 + 128 + 128 * (511 % 511)) = false ∧ (recording 511 1).heldAt
      (2099200 + 255 + 128 * (511 % 511)) = false ∧ 511 < (recording 511 1).readNat (2099200 + 8) 8 + 511 := by decide +kernel
theorem witness_debug_record_dropped :
    (recording 511 0).blocks.find 3 = some (block3 (recording 511 0)) ∧ (block3 (recording 511 0)).halt = some (halt3 none) ∧ (halt3 none).index =
      none ∧ (recording 511 0).launches.find (block3 (recording 511 0)).launch = some (launch1 (recording 511 0)) ∧ (recording 511 0).blockStopped 3 =
      true ∧ 2099200 = ((recording 511 0).context (launch1 (recording 511 0)).ctx).dbgBase ∧ 511 = (recording 511 0).readNat 2099200 8 ∧ 511 < 2 ^ 64
      - 1 ∧ (recording 511 0).heldAt 2099200 = false ∧ (recording 511 0).heldAt (2099200 + 128 + 128 * (511 % 511)) = false ∧ (recording 511 0).heldAt
      (2099200 + 255 + 128 * (511 % 511)) = false ∧ (recording 511 0).readNat (2099200 + 8) 8 + 511 ≤ 511 := by decide +kernel
theorem witness_debug_record_waits :
    recordingHeld.blocks.find 3 = some (block3 recordingHeld) ∧ (block3 recordingHeld).halt = some (halt3 none) ∧ (halt3 none).index = none ∧
      recordingHeld.launches.find (block3 recordingHeld).launch = some (launch1 recordingHeld) ∧ recordingHeld.blockStopped 3 = true ∧ 2099200 =
      (recordingHeld.context (launch1 recordingHeld).ctx).dbgBase ∧ 3 = recordingHeld.readNat 2099200 8 ∧ 3 < 2 ^ 64 - 1 ∧ (recordingHeld.heldAt
      2099200 = true ∨ recordingHeld.heldAt (2099200 + 128 + 128 * (3 % 511)) = true) := by decide +kernel
theorem witness_record_entry :
    noEntry.entry = 0 := by decide +kernel
theorem witness_record_good :
    Load.card.why true false = none := by decide +kernel
theorem witness_placement :
    (placing 64).pilotChoice (placing 64).readyQueues = some 2 ∧ (placing 64).holding 2 = some (1, launch1 (placing 64)) ∧ BitVec.getLsbD (launch1
      (placing 64)).card.flags 2 = false ∧ (launch1 (placing 64)).card.cluster = 1 := by decide +kernel
theorem witness_group_ends :
    (finishing false).groups.find 4 = some (group4 (finishing false)) ∧ (finishing false).groupDone 4 (group4 (finishing false)) = true ∧ (finishing
      false).blocks.find (group4 (finishing false)).block = some (block3 (finishing false)) ∧ (block3 (finishing false)).ended = false ∧ (group4
      (finishing false)).sections = [] := by decide +kernel
theorem witness_group_ends_first :
    (finishing true).groups.find 4 = some (group4 (finishing true)) ∧ (finishing true).groupDone 4 (group4 (finishing true)) = true ∧ (finishing
      true).blocks.find (group4 (finishing true)).block = some (block3 (finishing true)) ∧ (block3 (finishing true)).ended = false ∧ (group4
      (finishing true)).sections = [] := by decide +kernel
theorem witness_group_announced :
    section3.groups.find 4 = some (group4 section3) ∧ section3.groupDone 4 (group4 section3) = true ∧ section3.blocks.find (group4 section3).block =
      some (block3 section3) ∧ (block3 section3).ended = false ∧ (group4 section3).sections ≠ [] ∧ (∀ e ∈ (group4 section3).sections, e.2 ≠ 0) := by decide +kernel
theorem witness_complete_killed :
    silenced.launches.find 1 = some (launch1 silenced) ∧ allEnded silenced 1 (launch1 silenced) ∧ (launch1 silenced).silent = true := by decide +kernel
theorem witness_complete_counted :
    (completingHeld true).launches.find 1 = some (launch1 (completingHeld true)) ∧ allEnded (completingHeld true) 1 (launch1 (completingHeld true)) ∧
      (launch1 (completingHeld true)).silent = false ∧ (launch1 (completingHeld true)).counted = true ∧ (completingHeld true).completionHeld (launch1
      (completingHeld true)) = true := by decide +kernel
theorem witness_complete_counts :
    (completingHeld false).launches.find 1 = some (launch1 (completingHeld false)) ∧ allEnded (completingHeld false) 1 (launch1 (completingHeld
      false)) ∧ (launch1 (completingHeld false)).silent = false ∧ (launch1 (completingHeld false)).counted = false ∧ (completingHeld
      false).soundings.find 1 = none ∧ (completingHeld false).completionHeld (launch1 (completingHeld false)) = true := by decide +kernel
theorem witness_complete_waits :
    (sounding1 true).launches.find 1 = some (launch1 (sounding1 true)) ∧ allEnded (sounding1 true) 1 (launch1 (sounding1 true)) ∧ (launch1 (sounding1
      true)).silent = false ∧ (launch1 (sounding1 true)).counted = false ∧ (sounding1 true).heldAt ((sounding1 true).context (launch1 (sounding1
      true)).ctx).saveBase = true ∧ (sounding1 true).soundings.find 1 ≠ none := by decide +kernel
theorem witness_complete_sounding :
    (sounding1 false).launches.find 1 = some (launch1 (sounding1 false)) ∧ allEnded (sounding1 false) 1 (launch1 (sounding1 false)) ∧ (launch1
      (sounding1 false)).silent = false ∧ (launch1 (sounding1 false)).counted = false ∧ (sounding1 false).soundings.find 1 = some (soundingOf true) ∧
      0 = ((sounding1 false).context (launch1 (sounding1 false)).ctx).saveBase ∧ (sounding1 false).heldAt 0 = false ∧ (launch1 (sounding1
      false)).card.compPtr = 0 := by decide +kernel
theorem witness_fetchw_fill :
    (fetching 1 5).blocks.find 3 = some (block3 (fetching 1 5)) ∧ (fetching 1 5).launches.find (block3 (fetching 1 5)).launch = some (launch1
      (fetching 1 5)) ∧ (block3 (fetching 1 5)).away = false ∧ (block3 (fetching 1 5)).ended = false ∧ ((block3 (fetching 1 5)).fetchws[(Option.map
      (fun (x : Issue) => x.choice) (fetching 1 5).cur).getD 0 % (block3 (fetching 1 5)).fetchws.length]? = some 16) := by decide +kernel
theorem witness_fetchw_none :
    (fetching 1 6).blocks.find 3 = some (block3 (fetching 1 6)) ∧ (fetching 1 6).launches.find (block3 (fetching 1 6)).launch = some (launch1
      (fetching 1 6)) ∧ (block3 (fetching 1 6)).away = false ∧ (block3 (fetching 1 6)).ended = false ∧ ((block3 (fetching 1 6)).fetchws[(Option.map
      (fun (x : Issue) => x.choice) (fetching 1 6).cur).getD 0 % (block3 (fetching 1 6)).fetchws.length]? = some 16) := by decide +kernel
theorem witness_fetchw_cluster :
    (fetching 3 5).blocks.find 3 = some (block3 (fetching 3 5)) ∧ (fetching 3 5).launches.find (block3 (fetching 3 5)).launch = some (launch1
      (fetching 3 5)) ∧ (block3 (fetching 3 5)).away = false ∧ (block3 (fetching 3 5)).ended = false ∧ ((block3 (fetching 3 5)).fetchws[(Option.map
      (fun (x : Issue) => x.choice) (fetching 3 5).cur).getD 0 % (block3 (fetching 3 5)).fetchws.length]? = some 16) := by decide +kernel
theorem witness_preempt :
    (working id id (calm filled)).blocks.find 3 = some (block3 (working id id (calm filled))) ∧ (block3 (working id id (calm filled))).ended = false ∧
      [3] = (working id id (calm filled)).mates (block3 (working id id (calm filled))) ∧ (block3 (working id id (calm filled))).away = false ∧ (block3
      (working id id (calm filled))).unit = none ∧ (∀ m ∈ [3], ∀ (k : Block), (working id id (calm filled)).blocks.find m = some k → k.away = false ∧
      k.unit = none) ∧ (∀ m ∈ [3], ∀ (k : Block), (working id id (calm filled)).blocks.find m = some k → k.halt = none) := by decide +kernel
theorem witness_preempt_halted :
    (halted3 none filled).blocks.find 3 = some (block3 (halted3 none filled)) ∧ (block3 (halted3 none filled)).ended = false ∧ [3] = (halted3 none
      filled).mates (block3 (halted3 none filled)) ∧ (block3 (halted3 none filled)).away = false ∧ (block3 (halted3 none filled)).unit = none ∧ (∀ m ∈
      [3], ∀ (k : Block), (halted3 none filled).blocks.find m = some k → k.away = false ∧ k.unit = none) ∧ (∃ m ∈ [3], ∃ (k : Block), (halted3 none
      filled).blocks.find m = some k ∧ k.halt ≠ none) := by decide +kernel
theorem witness_preempt_again :
    (preempting unit3 100 0 0).blocks.find 3 = some (block3 (preempting unit3 100 0 0)) ∧ ((block3 (preempting unit3 100 0 0)).ended = true ∨ ∃ m ∈
      (preempting unit3 100 0 0).mates (block3 (preempting unit3 100 0 0)), ∃ (k : Block), (preempting unit3 100 0 0).blocks.find m = some k ∧ (k.away
      = true ∨ k.unit ≠ none)) := by decide +kernel
theorem witness_pre_entry :
    (preempting openUnit 100 0 0).units.find 9 = some openUnit ∧ (preempting openUnit 100 0 0).preEntryDue openUnit = true ∧ ((List.map (fun (x : ℕ ×
      Machine.Group) => x.1) (preempting openUnit 100 0 0).groups).Nodup) ∧ (preempting openUnit 100 0 0).groups.find 4 = some (group4 (preempting
      openUnit 100 0 0)) ∧ (group4 (preempting openUnit 100 0 0)).block ∈ openUnit.blocks ∧ (group4 (preempting openUnit 100 0 0)).ended = false ∧
      (group4 (preempting openUnit 100 0 0)).finished = false ∧ (group4 (preempting openUnit 100 0 0)).slices.length ≤ 32 := by decide +kernel
theorem witness_preok_outside :
    Issuing (machine (handling HandlerKind.trap 15)) issue (handling HandlerKind.trap 15) ∧ Clear (machine (handling HandlerKind.trap 15)) (issue.ctx
      (handling HandlerKind.trap 15)) [] ∧ (∀ (h : Handler), (issue.ctx (handling HandlerKind.trap 15)).g.handler = some h → h.kind =
      HandlerKind.trap) := by decide +kernel
theorem witness_preok_no_unit :
    Issuing (machine handing) issue handing ∧ Clear (machine handing) (issue.ctx handing) [] ∧ (issue.ctx handing).g.handler = some (handler1
      HandlerKind.pre 15) ∧ (handler1 HandlerKind.pre 15).kind = HandlerKind.pre ∧ (machine handing).blocks.find (issue.ctx handing).g.block = some
      (block3 (machine handing)) ∧ (block3 (machine handing)).unit = none := by decide +kernel
theorem witness_preok_closed :
    Issuing (preoking unit3 []) issue handing ∧ Clear (preoking unit3 []) (issue.ctx handing) [] ∧ (issue.ctx handing).g.handler = some (handler1
      HandlerKind.pre 15) ∧ (handler1 HandlerKind.pre 15).kind = HandlerKind.pre ∧ (preoking unit3 []).blocks.find (issue.ctx handing).g.block = some
      (block3 (preoking unit3 [])) ∧ (block3 (preoking unit3 [])).unit = some 9 ∧ (preoking unit3 []).units.find 9 = some unit3 ∧ (unit3.path = false
      ∨ unit3.away = true ∨ unit3.course ≠ none) := by decide +kernel
theorem witness_save_count :
    unit3.blocks = [3] ∧ (preempting unit3 100 0 0).blocks.find 3 = some (block3 (preempting unit3 100 0 0)) ∧ (block3 (preempting unit3 100 0
      0)).ended = false := by decide +kernel
theorem witness_expiry_early :
    (preempting openUnit 5049 0 0).units.find 9 = some openUnit ∧ (openUnit.away = true ∨ openUnit.course = none ∧ openUnit.handed = false ∧
      openUnit.path = true ∧ (openUnit.bound = 0 ∨ (preempting openUnit 5049 0 0).unitNow openUnit < openUnit.t0 + openUnit.bound)) := by decide +kernel
theorem witness_drain_misses :
    (preempting drainingUnit 5051 1 400).units.find 9 = some drainingUnit ∧ drainingUnit.away = false ∧ drainingUnit.course = some 0 ∧
      drainingUnit.bound ≠ 0 ∧ drainingUnit.missed = false ∧ drainingUnit.t0 + drainingUnit.bound < (preempting drainingUnit 5051 1 400).unitNow
      drainingUnit ∧ 0 = (preempting drainingUnit 5051 1 400).unitCtx drainingUnit := by decide +kernel
theorem witness_restore_none :
    (preempting unit3 100 1 400).units.find 9 = some unit3 ∧ unit3.away = false := by decide +kernel
theorem witness_restore :
    stowed.units.find 9 = some stowedUnit ∧ stowedUnit.away = true ∧ stowedUnit.course = none ∧ stowedUnit.byPreok = true ∧ stowedUnit.blocks = [3] ∧
      stowed.blocks.find 3 = some (block3 stowed) ∧ (block3 stowed).ended = false ∧ stowed.launches.find (block3 stowed).launch = some (launch1
      stowed) ∧ (launch1 stowed).card.cluster = 1 ∧ (block3 stowed).bindings = [] ∧ (block3 stowed).kept = [] ∧ (block3 stowed).keptClaims = [] ∧
      (block3 stowed).keptChart = none ∧ (block3 stowed).keptBanks = [] ∧ ((List.map (fun (x : ℕ × Machine.Group) => x.1) stowed.groups).Nodup) ∧ (∀ e
      ∈ stowed.groups, e.2.block = 3 → e.2.ended = false → e.2.longs = [] ∧ e.2.waitReg = false ∧ e.2.spilled = false) ∧ (∀ r ∈ stowed.net ++
      List.flatMap (fun (x : ℕ × List Request) => x.2) stowed.podQ, ∀ e ∈ stowed.groups, e.2.block = 3 → e.1 ≠ r.group) ∧ ((List.filter (fun (e : ℕ ×
      Machine.Group) => decide (e.2.block = 3) && !e.2.ended) stowed.groups).length ≤ (stowed.contextsFree 0).length) ∧ (List.foldl (fun (x1 x2 : ℕ)
      => x1 + x2) 0 (List.map (fun (e : ℕ × Machine.Group) => e.2.regs) (List.filter (fun (e : ℕ × Machine.Group) => decide (e.2.block = 3) &&
      !e.2.ended) stowed.groups)) ≤ stowed.regsFree 0) ∧ (launch1 stowed).card.range ≤ stowed.scratchFree 0 := by decide +kernel
theorem witness_register_odd :
    2 % 4 ≠ 0 := by decide +kernel
theorem witness_register_odd8 :
    4 % 8 ≠ 0 := by decide +kernel
theorem witness_register_tgate :
    575 < 576 ∧ 6396 = 4096 + 4 * 575 := by decide +kernel
theorem witness_register_pending :
    63 < 64 ∧ (8 = 0 ∨ 8 = 4 ∨ 8 = 8 ∨ 8 = 12) ∧ ((managed false 0).queue 63).en = true ∧ 66552 = 65536 + 16 * 63 + 8 := by decide +kernel
theorem witness_register_qctl :
    63 < 64 ∧ (managedOff.queue 63).en = false ∧ 66552 = 65536 + 16 * 63 + 8 := by decide +kernel
theorem witness_register_qstat :
    63 < 64 ∧ (managedOff.queue 63).en = false ∧ 66556 = 65536 + 16 * 63 + 12 := by decide +kernel
theorem witness_register_qstat_pending :
    63 < 64 ∧ (12 = 0 ∨ 12 = 4 ∨ 12 = 8 ∨ 12 = 12) ∧ ((managed false 0).queue 63).en = true ∧ 66556 = 65536 + 16 * 63 + 12 := by decide +kernel
theorem witness_register_qbase :
    63 < 64 ∧ (managedOff.queue 63).en = false ∧ (66548 = 65536 + 16 * 63 + if true = true then 4 else 0) := by decide +kernel
theorem witness_register_counter :
    63 < 64 ∧ 131324 = 131072 + 4 * 63 := by decide +kernel
theorem witness_register_root :
    63 < 64 ∧ 3 < 4 ∧ (200668 = 196608 + 64 * 63 + 8 * 3 + if true = true then 4 else 0) := by decide +kernel
theorem witness_register_debug :
    63 < 64 ∧ (200684 = 196608 + 64 * 63 + 40 + if true = true then 4 else 0) := by decide +kernel
theorem witness_register_miss :
    63 < 64 ∧ 200692 = 196608 + 64 * 63 + 52 := by decide +kernel
theorem witness_register_progress :
    63 < 64 ∧ 15 < 16 ∧ (270332 = 262144 + 128 * 63 + 8 * 15 + if true = true then 4 else 0) := by decide +kernel
theorem witness_trial_end :
    (managed true 200).trial.go = true ∧ (managed true 200).trial.endAt ≤ (managed true 200).cycle := by decide +kernel
theorem witness_trial_not_yet :
    ((managed true 201).trial.go = false ∨ (managed true 201).cycle < (managed true 201).trial.endAt) := by decide +kernel
theorem witness_rest_1 :
    (idling 2 9400 0 []).restGoal = some 1 := by decide +kernel
theorem witness_rest_2 :
    (idling 40 188000 1 []).restGoal = some 2 := by decide +kernel
theorem witness_rest_3 :
    (idling 1500 4700000 2 []).restGoal = some 3 := by decide +kernel
theorem witness_rest_4 :
    (idling 90000 94000000 3 []).restGoal = some 4 := by decide +kernel
theorem witness_rest_none :
    (idling 2 9399 0 []).restGoal = none := by decide +kernel
theorem witness_rest_ltol :
    (idling 0 94000000 0 []).ltol = 0 := by decide +kernel
theorem witness_rest_exit :
    (waking 9400).wake = some 18800 ∧ 18800 ≤ (waking 9400).cycle := by decide +kernel
theorem witness_rest_exit_not_yet :
    (∀ (c : ℕ), (waking 9401).wake = some c → (waking 9401).cycle < c) := by decide +kernel
theorem witness_reset_function :
    (idling 2 9399 0 []).launches = [] := by decide +kernel
theorem witness_reset_function_kills :
    busy.launches = [(1, launch0)] := by decide +kernel
theorem witness_firmware :
    6 ≤ 6 := by decide +kernel
theorem witness_measurement :
    (List.replicate 32 7).length = 32 := by decide +kernel
theorem witness_host_write :
    549755813886 + [1, 2].length ≤ 2 ^ 39 ∧ (∀ i < [1, 2].length, memoryMachine.heldAt (549755813886 + i) = false) := by decide +kernel
theorem witness_host_waits :
    2097152 + [1, 2].length ≤ 2 ^ 39 ∧ (∃ i < [1, 2].length, bankHeld.heldAt (2097152 + i) = true) := by decide +kernel
theorem witness_peer_write :
    2 ^ 39 - 2 + [1, 2].length ≤ 2 ^ 39 ∧ (∀ i < [1, 2].length, memoryMachine.heldAt (2 ^ 39 - 2 + i) = false) := by decide +kernel
theorem witness_peer_write_waits :
    2097152 + [1, 2].length ≤ 2 ^ 39 ∧ (∃ i < [1, 2].length, bankHeld.heldAt (2097152 + i) = true) := by decide +kernel

/-! Those of them that an evaluation alone does not show. -/

/-- What every witness of a walk shares: the walk of va in state s starts at level k with the table the entries before lead to, and comes to level n by entries
that pass. -/
abbrev walkMeets (s : State) (va k n : Nat) : Prop :=
  s.heldXlat 1 0 0 va = none ∧ 1 ≤ k ∧ s.walkStart (1 / 144) 0 0 va = ((List.range 6).drop k, walkTable s 0x1000 va k)
    ∧ (∀ m, 1 ≤ m → walkEntry s 0x1000 va m = s.readNat (walkTable s 0x1000 va m + 8 * (va / 2 ^ (57 - 9 * m) % 2 ^ 9)) 8)
    ∧ (∀ m, 1 ≤ m → walkTable s 0x1000 va (m + 1) = walkEntry s 0x1000 va m / 2 ^ 12 % 2 ^ 40 * 2 ^ 12) ∧ k ≤ n ∧ n ≤ 5
    ∧ ∀ m, k ≤ m → m < n → (walkEntry s 0x1000 va m).testBit 0 = true ∧ Xlat.reserved m (walkEntry s 0x1000 va m) = false
        ∧ ¬ (m = 4 ∧ (walkEntry s 0x1000 va m).testBit 1 = true)
theorem walk_meets (s : State) (va k n : Nat) (h : s.heldXlat 1 0 0 va = none ∧ 1 ≤ k ∧ s.walkStart (1 / 144) 0 0 va = ((List.range 6).drop k, walkTable s 0x1000 va k)
    ∧ k ≤ n ∧ n ≤ 5 ∧ ∀ m, m < n → k ≤ m → (walkEntry s 0x1000 va m).testBit 0 = true ∧ Xlat.reserved m (walkEntry s 0x1000 va m) = false
        ∧ ¬ (m = 4 ∧ (walkEntry s 0x1000 va m).testBit 1 = true)) : walkMeets s va k n :=
  ⟨h.1, h.2.1, h.2.2.1, fun _ _ => rfl, walkTable_next s 0x1000 va, h.2.2.2.1, h.2.2.2.2.1, fun m h1 h2 => h.2.2.2.2.2 m h2 h1⟩
/-- The leaf at level 4 lets a page of 2 MiB be read by anyone. -/
theorem witness_walk_translates : walkMeets memoryMachine 0x200100 1 4 ∧ (walkEntry memoryMachine 0x1000 0x200100 4).testBit 0 = true
    ∧ Xlat.reserved 4 (walkEntry memoryMachine 0x1000 0x200100 4) = false ∧ (walkEntry memoryMachine 0x1000 0x200100 4).testBit 1 = true :=
  ⟨walk_meets _ _ _ _ (by decide +kernel), by decide +kernel⟩
theorem witness_walk_from_held : walkMeets walkHeld 0x200100 4 4 ∧ (walkEntry walkHeld 0x1000 0x200100 4).testBit 0 = true
    ∧ Xlat.reserved 4 (walkEntry walkHeld 0x1000 0x200100 4) = false ∧ (walkEntry walkHeld 0x1000 0x200100 4).testBit 1 = true
    ∧ walkEntry walkHeld 0x1000 0x200100 4 / 2 ^ 21 % 2 ^ 31 * 2 ^ 21 + 0x200100 % 2 ^ 21 < 2 ^ 39 :=
  ⟨walk_meets _ _ _ _ (by decide +kernel), by decide +kernel⟩
theorem witness_walk_no_entry : walkMeets memoryMachine 0x800000 1 4 ∧ (walkEntry memoryMachine 0x1000 0x800000 4).testBit 0 = false :=
  ⟨walk_meets _ _ _ _ (by decide +kernel), by decide +kernel⟩
theorem witness_walk_reserved : walkMeets badEntry 0x200100 1 4 ∧ (walkEntry badEntry 0x1000 0x200100 4).testBit 0 = true
    ∧ Xlat.reserved 4 (walkEntry badEntry 0x1000 0x200100 4) = true := ⟨walk_meets _ _ _ _ (by decide +kernel), by decide +kernel⟩
theorem witness_walk_not_permitted : walkMeets noExec 0x200100 1 4 ∧ (walkEntry noExec 0x1000 0x200100 4).testBit 0 = true
    ∧ Xlat.reserved 4 (walkEntry noExec 0x1000 0x200100 4) = false ∧ (walkEntry noExec 0x1000 0x200100 4).testBit 1 = true
    ∧ (walkEntry noExec 0x1000 0x200100 4).testBit 3 = false := ⟨walk_meets _ _ _ _ (by decide +kernel), by decide +kernel⟩

theorem ok_of {ε α : Type} [DecidableEq α] (x : Except ε α) (a : α) (h : (match x with | .ok b => decide (b = a) | .error _ => false) = true) : x = .ok a := by
  cases x <;> simp_all
/-- The hypotheses of an `icinv` with the pointer in s registers o and o + 1. -/
abbrev icinvMeets (o : BitVec 7) : Prop :=
  Issuing inFlight issue pointers ∧ isS o = true ∧ isEven o = true ∧ Clear inFlight (issue.ctx pointers) [useN o 2]
    ∧ inFlight.entryHeld (inFlight.agentOf 4 pointers) ((issue.ctx pointers).rd64 o 0) = false
theorem witness_icinv : icinvMeets 100 ∧ ((issue.ctx pointers).rd64 100 0).toNat < 2 ^ 57
    ∧ inFlight.translate 1 0 0 ((issue.ctx pointers).rd64 100 0).toNat .read true
      = .ok { pa := 0x200140, type := 0, level := 4, w := true, x := true, u := true, c := false } :=
  ⟨by decide +kernel, by decide +kernel, ok_of _ _ (by decide +kernel)⟩
theorem witness_icinv_elsewhere : icinvMeets 102 ∧ 2 ^ 57 ≤ ((issue.ctx pointers).rd64 102 0).toNat := by decide +kernel
theorem witness_icinv_unmapped : icinvMeets 104 ∧ ((issue.ctx pointers).rd64 104 0).toNat < 2 ^ 57
    ∧ ∃ f, inFlight.translate 1 0 0 ((issue.ctx pointers).rd64 104 0).toNat .read true = .error f := by
  refine ⟨by decide +kernel, by decide +kernel, ?_⟩
  cases h : inFlight.translate 1 0 0 ((issue.ctx pointers).rd64 104 0).toNat .read true with
  | ok x => exact absurd (show (inFlight.translate 1 0 0 ((issue.ctx pointers).rd64 104 0).toNat .read true).toOption = none by decide +kernel) (by rw [h]; exact fun h => nomatch h)
  | error f => exact ⟨f, rfl⟩
theorem witness_walk_kept : memoryMachine.translate (memoryMachine.agentOf 4 pointers).core (memoryMachine.agentOf 4 pointers).ctx 0 0x200140 .read (memoryMachine.agentOf 4 pointers).priv
    = .ok { pa := 0x200140, type := 0, level := 4, w := true, x := true, u := true, c := false } := ok_of _ _ (by decide +kernel)

theorem witness_no_word : decodeWord 0 = .error .reservedOpcode ∧ Issuing busy issue filled ∧ Clear busy (issue.ctx filled) [] := ⟨rfl, by decide +kernel⟩
theorem witness_word_privileged : PrivilegedWord (.l2way 104) ∧ Issuing (lowly pointers) issue pointers ∧ issue.snap = none
    ∧ (lowly pointers).privOf (issue.ctx pointers).g = false := ⟨Or.inl ⟨104, rfl⟩, by decide +kernel⟩
theorem witness_resume_other : ∀ e ∈ (halted3 (some 2) filled).blocks, ∀ h i, e.2.halt = some h → h.index = some i → BitVec.ofNat 32 i ≠ 3 := by
  intro e he h i h1 h2
  cases List.mem_singleton.mp he
  cases h1
  cases h2
  decide
theorem witness_resume : (halted3 (some 2) filled).blocks = [(3, block3 (halted3 (some 2) filled))] ∧ (block3 (halted3 (some 2) filled)).halt = some (halt3 (some 2))
    ∧ Tab.find (halted3 (some 2) filled).launches 1 = some (launch1 (halted3 (some 2) filled)) ∧ (launch1 (halted3 (some 2) filled)).ctx = 0
    ∧ (block3 (halted3 (some 2) filled)).away = false ∧ (block3 (halted3 (some 2) filled)).ended = false := ⟨rfl, rfl, rfl, by decide +kernel⟩

/-! Engines. -/

theorem witness_tile : TileWord (.tmma 3 1 2 3 1) 3 (.tmm false 1 2 3 true) ∧ Issuing (engaged .tile 15 pointers) issue pointers
    ∧ Clear (engaged .tile 15 pointers) (issue.ctx pointers) [useS 3 1] ∧ ¬ fullQueue (engaged .tile 15 pointers) 1 .tile :=
  ⟨Or.inl ⟨1, 2, 3, 1, rfl, rfl⟩, by decide +kernel, by decide +kernel, by unfold fullQueue; decide +kernel⟩
theorem witness_engine_turn : ∃ x, (turning .copy fillCmd false).engineTurn 1 .copy (turning .copy fillCmd false).pick = some x :=
  Option.isSome_iff_exists.mp (by decide +kernel)
/-- The command's one word is read and sent; no instance is open here yet. -/
theorem witness_contribution_sent : ((turning .link sumCmd false).core 1).linkQ = [sumCmd] ∧ sumCmd.sent = false ∧ sumCmd.collPar.ok 0 = true
    ∧ (turning .link sumCmd false).atomsMove sumCmd = false ∧ (turning .link sumCmd false).aqWaits 1 sumCmd = false
    ∧ ∃ s1 con, (turning .link sumCmd false).contribution 1 sumCmd 0 (turning .link sumCmd false).pick = .ok (s1, con)
      ∧ con.home = (turning .link sumCmd false).device ∧ con.terms ≠ 1 ∧ s1.collectives = [] := by
  refine ⟨by decide +kernel, rfl, by decide +kernel, by decide +kernel, by decide +kernel, ?_⟩
  have h : (match (turning .link sumCmd false).contribution 1 sumCmd 0 (turning .link sumCmd false).pick with
    | .ok r => decide (r.2.home = (turning .link sumCmd false).device ∧ r.2.terms ≠ 1 ∧ r.1.collectives = [])
    | _ => false) = true := by decide +kernel
  generalize (turning .link sumCmd false).contribution 1 sumCmd 0 (turning .link sumCmd false).pick = r at h ⊢
  cases r with
  | ok r => exact ⟨r.1, r.2, rfl, of_decide_eq_true h⟩
  | _ => cases h

/-! Pre-emption and the link. -/

theorem witness_preok_waits : Issuing (preoking openUnit [(6, group0)]) issue handing ∧ Clear (preoking openUnit [(6, group0)]) (issue.ctx handing) []
    ∧ openUnit.path = true ∧ openUnit.away = false ∧ openUnit.course = none ∧ Tab.find (preoking openUnit [(6, group0)]).groups 6 = some group0
    ∧ group0.block ∈ openUnit.blocks ∧ group0.ended = false ∧ group0.finished = false ∧ ∀ i, i < group0.slices.length → (group0.slice i).seq.wait ≠ .preok := by
  decide +kernel
/-- Every other group of the unit waits at its `preok`. -/
theorem witness_preok_last : Issuing (preoking enteredUnit [(6, waitingPreok)]) issue handing ∧ Clear (preoking enteredUnit [(6, waitingPreok)]) (issue.ctx handing) []
    ∧ enteredUnit.entered = true ∧ enteredUnit.expired ((preoking enteredUnit [(6, waitingPreok)]).unitNow enteredUnit) = false ∧ handing.block ∈ enteredUnit.blocks
    ∧ handing.ended = false ∧ handing.finished = false ∧ ((preoking enteredUnit [(6, waitingPreok)]).groups.map (·.1)).Nodup
    ∧ (∃ i, i < handing.slices.length ∧ issue.slices.getLsbD i = true)
    ∧ ∀ m x, m ≠ issue.group → Tab.find (preoking enteredUnit [(6, waitingPreok)]).groups m = some x → x.block ∈ enteredUnit.blocks → x.ended = false → x.finished = false →
        ∃ i, i < x.slices.length ∧ (x.slice i).seq.wait = .preok := by
  refine ⟨by decide +kernel, by decide +kernel, rfl, by decide +kernel, by decide +kernel, by decide +kernel, by decide +kernel, by decide +kernel, ⟨0, by decide +kernel⟩,
    fun m x hm hx _ _ _ => ?_⟩
  by_cases h6 : m = 6
  · subst h6
    cases (show Tab.find (preoking enteredUnit [(6, waitingPreok)]).groups 6 = some waitingPreok from rfl).symm.trans hx
    exact ⟨0, by decide +kernel⟩
  · exact absurd hx (by simp [preoking, Tab.find, Ne.symm h6, show ¬ 4 = m from fun h => hm h.symm])
theorem witness_course_drain : chosen (courseCost (preempting unit3 100 1 400) 3 (block3 (preempting unit3 100 1 400)) (launch1 (preempting unit3 100 1 400)))
    (courseFits (preempting unit3 100 1 400) unit3 3 (block3 (preempting unit3 100 1 400)) (launch1 (preempting unit3 100 1 400))) 0 false := by
  refine Or.inl ⟨⟨Or.inl (by decide +kernel), Or.inr (by decide +kernel)⟩, rfl, ?_⟩
  rintro d ⟨⟨rfl, -⟩ | ⟨rfl, -⟩ | rfl, -⟩
  · exact Or.inr ⟨rfl, le_rfl⟩
  · exact Or.inl (by decide +kernel)
  · exact Or.inl (by decide +kernel)
theorem witness_course_flush : chosen (courseCost (preempting unit3 100 0 0) 3 (block3 (preempting unit3 100 0 0)) (launch1 (preempting unit3 100 0 0)))
    (courseFits (preempting unit3 100 0 0) unit3 3 (block3 (preempting unit3 100 0 0)) (launch1 (preempting unit3 100 0 0))) 1 false := by
  refine Or.inl ⟨⟨Or.inr (Or.inl ⟨rfl, by decide +kernel⟩), Or.inr (by decide +kernel)⟩, rfl, ?_⟩
  rintro d ⟨⟨rfl, h, -⟩ | ⟨rfl, -⟩ | rfl, -⟩
  · exact absurd h (by decide +kernel)
  · exact Or.inr ⟨rfl, le_rfl⟩
  · exact Or.inl (by decide +kernel)
/-- No course fits a bound of one cycle. -/
def tight : PreUnit := { unit3 with bound := 1 }
theorem witness_course_missed : chosen (courseCost (preempting tight 100 0 0) 3 (block3 (preempting tight 100 0 0)) (launch1 (preempting tight 100 0 0)))
    (courseFits (preempting tight 100 0 0) tight 3 (block3 (preempting tight 100 0 0)) (launch1 (preempting tight 100 0 0))) 2 true := by
  refine Or.inr ⟨?_, rfl, rfl⟩
  rintro d ⟨⟨rfl, h, -⟩ | ⟨rfl, -⟩ | rfl, h2 | h2⟩
  · exact absurd h (by decide +kernel)
  · exact absurd h (by decide +kernel)
  · exact absurd h2 (by decide +kernel)
  · exact absurd h2 (by decide +kernel)
  · exact absurd h2 (by decide +kernel)
  · exact absurd h2 (by decide +kernel)
theorem nothing_held (s : State) (h : s.pchannels = []) (l : Nat) : s.heldAt l = false := by
  unfold State.heldAt State.pchannel
  rw [h]
  cases Ops.pchOf l <;> rfl
/-- A unit handed over, or one whose course is a save, with room for its record. -/
def saving : PreUnit := { unit3 with course := some 2 }
def savingFor (room : Nat) (v : PreUnit) : State := { handed room with units := [(9, v)] }
abbrev swaps (s : State) (v : PreUnit) : Prop :=
  Tab.find s.units 9 = some v ∧ v.away = false ∧ s.saveFits v = true ∧ v.blocks = [3] ∧ s.unitBusy v = false ∧ Tab.find s.blocks 3 = some (block3 s) ∧ (block3 s).ended = false
    ∧ (∀ x ∈ (s.core (block3 s).core).chartQ, x.block ≠ 3) ∧ (s.core (block3 s).core).stores = []
    ∧ 0x301000 = (s.context (s.unitCtx v)).saveBase + 4096 + s.saveUsed (s.unitCtx v) ∧ 0x301000 + s.unitCount v ≤ 2 ^ 64
theorem witness_swapped_out : swaps (savingFor 1000000 handedUnit) handedUnit ∧ handedUnit.course = none ∧ handedUnit.handed = true
    ∧ ∀ l, (savingFor 1000000 handedUnit).heldAt l = false := ⟨by decide +kernel, rfl, rfl, nothing_held _ rfl⟩
theorem witness_saved : swaps (savingFor 1000000 saving) saving ∧ saving.course = some 2 ∧ ∀ l, (savingFor 1000000 saving).heldAt l = false :=
  ⟨by decide +kernel, rfl, nothing_held _ rfl⟩
/-- No room for the record: a drain, with a miss. -/
abbrev cramped (s : State) (v : PreUnit) : Prop :=
  Tab.find s.units 9 = some v ∧ v.away = false ∧ s.unitBusy v = false
    ∧ (∀ m ∈ v.blocks, ∀ b, Tab.find s.blocks m = some b → b.ended = false → ∀ x ∈ (s.core b.core).chartQ, x.block ≠ m) ∧ s.saveFits v = false
theorem witness_drain_no_room : cramped (savingFor 100 handedUnit) handedUnit ∧ handedUnit.course = none ∧ handedUnit.handed = true := by decide +kernel
theorem witness_drain_no_save : cramped (savingFor 100 saving) saving ∧ saving.course = some 2 := by decide +kernel
/-- A word of the unit is under way. -/
def busyUnit : State := { savingFor 1000000 saving with groups := [(4, { handing with longs := [(7, resultOp)] })] }
theorem witness_unit_busy : Tab.find busyUnit.units 9 = some saving ∧ saving.away = false ∧ saving.course = some 2 ∧ busyUnit.unitBusy saving = true := by decide +kernel
/-- The course of a unit whose path is closed. -/
abbrev chooses (s : State) (v : PreUnit) (c : Nat) (miss : Bool) : Prop :=
  Tab.find s.units 9 = some v ∧ v.away = false ∧ v.course = none ∧ v.handed = false ∧ v.path = false ∧ s.unitStopped v = true
    ∧ (each v.blocks (fun m s => s.stopBlock m) s).chooseCourse v = (c, miss)
theorem witness_drain : chooses (preempting unit3 100 1 400) unit3 0 false := by decide +kernel
theorem witness_flush : chooses (preempting unit3 100 0 0) unit3 1 false := by decide +kernel
theorem witness_save : chooses (preempting tight 100 0 0) tight 2 true := by decide +kernel

/-! The Pilot. -/

/-- A queue of `piloted` with the stripe of a location held back. -/
def pilotedHeld (loc head tail copy : Nat) : State :=
  { piloted head tail copy 0x200000 with pchannels := [((Ops.pchOf loc).getD 0, { PChannel.reset with holder := some 9 })] }
def queue2 (s : State) : Queue := s.queue 2
abbrev tailMoved (s : State) : Prop := served s 2 (queue2 s) ∧ tailOf s (queue2 s) ≠ (queue2 s).tail
theorem witness_tail : tailMoved (piloted 5 21 5 0x200000) ∧ (piloted 5 21 5 0x200000).heldAt (queue2 (piloted 5 21 5 0x200000)).base = false := by decide +kernel
theorem witness_tail_far : tailMoved (piloted 5 22 5 0x200000) ∧ (piloted 5 22 5 0x200000).heldAt (queue2 (piloted 5 22 5 0x200000)).base = false := by decide +kernel
theorem witness_tail_waits : tailMoved (pilotedHeld 0x300000 5 21 5) ∧ (pilotedHeld 0x300000 5 21 5).heldAt (queue2 (pilotedHeld 0x300000 5 21 5)).base = true := by decide +kernel
/-- A record at the head of the queue, to be copied. -/
abbrev copies (s : State) (base slot : Bool) (why : Option (BitVec 8)) : Prop :=
  served s 2 (queue2 s) ∧ (queue2 s).current = none ∧ tailOf s (queue2 s) = (queue2 s).tail ∧ (queue2 s).tail.toNat ≠ headOf s (queue2 s)
    ∧ (LaunchRec.parse (s.readNat (slotOf s (queue2 s)) 128)).1.why (LaunchRec.parse (s.readNat (slotOf s (queue2 s)) 128)).2 false = why
    ∧ s.heldAt (queue2 s).base = base ∧ s.heldAt (slotOf s (queue2 s)) = slot ∧ (∀ e ∈ s.launches, e.2.host = 2 → e.2.kills = []) ∧ headOf s (queue2 s) < 2 ^ 64 - 1
theorem witness_record_copied : copies (piloted 5 6 6 0x200000) false false none := by decide +kernel
theorem witness_record_refused : copies (piloted 5 6 6 0x200001) false false (some 2) := by decide +kernel
theorem witness_record_waits : copies (pilotedHeld 0x300380 5 6 6) false true none := by decide +kernel
theorem witness_record_head_waits : copies (pilotedHeld 0x300000 5 6 6) true false none := by decide +kernel
/-- The head's write still waits, or is made. -/
def headed (held : Bool) : State := (if held then pilotedHeld 0x300000 5 6 6 else piloted 5 6 6 0x200000).onQueue 2 fun q => { q with headDue := some (0x300000, 6) }
theorem witness_head_due : ∀ b, ((headed b).queue 2).headDue = some (0x300000, 6) ∧ (headed b).heldAt 0x300000 = b := by decide +kernel
theorem witness_device_record : ((answering 1 Load.card).queue 65).current = none ∧ ((answering 1 Load.card).queue 65).headDue = none
    ∧ Tab.get [] (answering 1 Load.card).devQueues 65 = [devRecord] := by decide +kernel
/-- What the link's core has under way at a peer: a command, and a load of one lane. -/
theorem witness_link_exhausted : (([.copy, .tile, .chart, .bank, .link] : List Engine).flatMap (linked.queueHeads 1)).filter (linked.cmdFar fun _ => true) = (linked.core 1).linkQ
    ∧ linked.wordsFar (Ops.atPeer fun _ => true) (fun g => linked.coreOf g == 1) = [(4, 8, 0)] ∧ (linked.core 1).linkQ.length = 1 ∧ linked.storesFar (Ops.atPeer fun _ => true) (fun c => c == 1) = []
    ∧ (linkedTurn 0).pick % 3 = 0 ∧ (linkedTurn 1).pick % 3 = 1 ∧ (linkedTurn 2).pick % 3 = 2 := by decide +kernel
/-- A store of two bytes at peer 7 beside them, which traps where its link fails, or does not. -/
def p24 (t : Option Trap) : PendingStore :=
  { id := 24, group := 4, cells := [(2 * 2 ^ 64 + 7 * 2 ^ 46 + 8, 1), (0x200100, 2)], ptrs := [], ordered := false, unit := 1, through := [], fenced := false, trap := t,
    peers := [(2 * 2 ^ 64 + 7 * 2 ^ 46 + 8, 0x4800000000000008)] }
def linkedStore (t : Option Trap) : State := linked.onCore 1 fun k => { k with stores := [p24 t] }
theorem witness_link_store : ∀ t ∈ [none, some trap0], (linkedStore t).storesFar (Ops.atPeer fun _ => true) (fun c => c == 1) = [(1, p24 t)]
    ∧ (linkedStore t).storesFar (Ops.atPeer fun n => n == (7 : BitVec 6).toNat) (fun _ => true) = [(1, p24 t)]
    ∧ ((p24 t).peers.find? fun e => Ops.atPeer (fun _ => true) e.1 && (p24 t).cells.any fun c => c.1 == e.1) = some (2 * 2 ^ 64 + 7 * 2 ^ 46 + 8, 0x4800000000000008)
    ∧ ((linkedStore t).wordsFar (Ops.atPeer fun _ => true) (fun g => (linkedStore t).coreOf g == 1)).length = 1 := by decide +kernel
def linkedGroup : Group := group4 (linkedStore (some trap0))
theorem witness_peer_reset_store : Tab.find (linkedStore (some trap0)).groups 4 = some linkedGroup ∧ (p24 (some trap0)).trap = some trap0 ∧ linkedGroup.killed = false
    ∧ linkedGroup.handler = none ∧ linkedGroup.trap = none ∧ (linkedStore (some trap0)).blockStops linkedGroup.block = false
    ∧ linkedGroup.lateWayin { trap0 with faddr := 0x4800000000000008, born := (linkedStore (some trap0)).nowOf linkedGroup } = none := by decide +kernel
theorem witness_peer_result : ∃ x ∈ (linked.core 1).linkQ, x.id = 50 ∧ outstanding x fun h => h = (7 : BitVec 6).toNat :=
  ⟨((linked.core 1).linkQ).headD (cmdOf 0 (.coll 0) []), by decide +kernel, by decide +kernel, ⟨0, by decide +kernel⟩, by decide +kernel⟩
theorem not_logging (s : State) (h : s.logRegs = []) (l : Nat) : ¬ inLogRing s l := by
  rintro ⟨n, hn, -⟩
  have : (s.logFilter n).en = false := by simp [State.logFilter, h, Tab.get, Tab.find, List.range_succ, bytesToNat]
  rw [this] at hn
  cases hn
theorem witness_peer_atomic : 0x200100 + AtomOp.size .add64 ≤ 2 ^ 39 ∧ ∀ i, i < AtomOp.size .add64 → memoryMachine.heldAt (0x200100 + i) = false ∧ ¬ inLogRing memoryMachine (0x200100 + i) :=
  ⟨by decide, fun i _ => ⟨nothing_held _ rfl _, not_logging _ rfl _⟩⟩

/-! What every step keeps: a step with a placed word, from a state that has it. -/

theorem witness_memory_kept : (∃ t, step (placed 0x142B1FFB) = .next t) ∧ (placed 0x142B1FFB).memoryKept ∧ (placed 0x142B1FFB).clocksKept := by
  refine ⟨?_, by unfold State.memoryKept; decide +kernel, ?_⟩
  · obtain ⟨t, h, -⟩ := exists_of_landed (P := fun t => t.cycle = t.cycle) (show landed (step (placed 0x142B1FFB)) _ = true by decide +kernel)
    exact ⟨t, h⟩
  · exact fun e he => nomatch he

/-- The placed machine as its step begins, its one candidate, and the state with the issue counted. -/
def first : State := { placed 0x142B1FFB with oracle := (placed 0x142B1FFB).oracle.drop 1 }
def cand0 : Candidate := { group := 4, gang := 0, slices := 15, passed := 0 }
def counted : State := first.onCore 1 fun c => { c with issues := c.issues + 1 }
def begun0 : State := begun counted cand0 (Load.card.group 3 0 0 0 0) 0
def begunGroup : Group := (Tab.find begun0.groups 4).getD group0
def placedClause : Gang := { clause := 0x200000, words := [Load.head, 0x142B1FFB, 0, 0], fresh := true }
def placedIssue : Issue := Ops.issueOf 4 (gangFor counted cand0) 15 placedClause 1 1 1 0
theorem issue_of (h : Happening) (c : Nat) (hh : (match h with | .issue d => d == c | _ => false) = true) : h = .issue c := by
  cases h <;> simp_all
theorem witness_step : (first.happenings runWord).getD ((placed 0x142B1FFB).oracle.headD 0 % (first.happenings runWord).length) .tick = .issue 1
    ∧ (placed 0x142B1FFB).oracle.headD 0 / (first.happenings runWord).length = 0 ∧ (first.core 1).free ≤ first.now 1
    ∧ first.chosen 1 ((first.windowOf 1).filter fun e => (counted.tryEntry runWord 1 0 e).isSome) = some cand0
    ∧ Tab.find counted.groups 4 = some (Load.card.group 3 0 0 0 0) ∧ Tab.find begun0.groups 4 = some begunGroup
    ∧ Tab.find begunGroup.gangs (gangFor counted cand0) = some placedClause ∧ begunGroup.gangSlices (gangFor counted cand0) = 15
    ∧ slotOf (begunGroup.slice 0).seq.pc = 1 ∧ chainFrom placedClause.words 1 = [1] ∧ decodeWord 0x142B1FFB = .ok (.addi 10 99 (-5))
    ∧ ∃ t, exec (.addi 10 99 (-5))
        { begun0.onGroup 4 (fun r => { r with gangs := Tab.put r.gangs (gangFor counted cand0) { placedClause with fresh := false } }) with cur := some placedIssue } = .next t
      ∧ t.cur = some { placedIssue with verdict := .done } :=
  ⟨issue_of _ _ (by decide +kernel), by decide +kernel, by decide +kernel, by decide +kernel, by decide +kernel, some_getD (by decide +kernel), by decide +kernel,
   by decide +kernel, by decide +kernel, by decide +kernel, rfl, exists_of_landed (by decide +kernel)⟩

/-! Named lanes, fences, stores in flight, barriers. -/

theorem witness_pfence : Issuing inFlight issue pointers ∧ inFlight.coreOf (issue.ctx pointers).g = 1 ∧ Clear inFlight (issue.ctx pointers) []
    ∧ (13 : BitVec 4).getLsbD 0 = true ∧ inFlight.ownWrites 4 1 = some ownDone := ⟨by decide +kernel, by decide +kernel, by decide +kernel, rfl, rfl⟩
/-- The state a `sync` at the barrier leaves of which one arrival is the last. -/
def synced (s : State) : State := (withBarrier s 3 2 (Counted (barrierOf (block3 s) 2) 4)).settleBarrier 3 2
theorem witness_barrier_sync : Issuing (barriers 1 [] [] handles) issue handles ∧ Clear (barriers 1 [] [] handles) (issue.ctx handles) [use 104]
    ∧ ¬ staleHandle (block3 (barriers 1 [] [] handles)) (issue.ctx handles).g ((issue.ctx handles).rd 104 0).toNat
    ∧ issue.group ∉ (barrierOf (block3 (barriers 1 [] [] handles)) 2).arrived ∧ (barriers 1 [] [] handles).atomsOpen issue.group = false
    ∧ Tab.find (synced (barriers 1 [] [] handles)).blocks 3 = some (block3 (synced (barriers 1 [] [] handles)))
    ∧ Tab.find (barrierOf (block3 (synced (barriers 1 [] [] handles))) 2).last 4 = some 4 :=
  ⟨by decide +kernel, by decide +kernel, by unfold staleHandle; decide +kernel, by decide +kernel, by decide +kernel, rfl, by decide +kernel⟩
theorem two_of {α β : Type} (x : Option α) (f : α → Option β) (h : (x.bind f).isSome = true) : ∃ a b, x = some a ∧ f a = some b := by
  cases x with
  | none => cases h
  | some a => obtain ⟨b, hb⟩ := Option.isSome_iff_exists.mp h; exact ⟨a, b, rfl, hb⟩
theorem witness_wide_sync : Issuing (wide [] [] group0) issue group0 ∧ (wide [] [] group0).release 4 1 1 = some (wide [] [] group0)
    ∧ 4 ∉ (Tab.get WideBarrier.empty (cluster2 (wide [] [] group0)).barriers 1).arrived
    ∧ ∃ cl p, Tab.find (clusterCounted (wide [] [] group0) issue (Load.block 0) (Tab.get WideBarrier.empty (cluster2 (wide [] [] group0)).barriers 1) 1).clusters 2 = some cl
        ∧ Tab.find (Tab.get WideBarrier.empty cl.barriers 1).last 4 = some p :=
  ⟨by decide +kernel, by decide +kernel, by decide +kernel, two_of _ _ (by decide +kernel)⟩
theorem witness_grid_sync : Issuing (wide [] [] group0) issue group0 ∧ (launch1 (wide [] [] group0)).card.flags.getLsbD 2 = true
    ∧ (wide [] [] group0).release 4 1 2 = some (wide [] [] group0) ∧ 4 ∉ (launch1 (wide [] [] group0)).grid.arrived
    ∧ ∃ l p, Tab.find (gridCounted (wide [] [] group0) issue (Load.block 0)).launches 1 = some l ∧ Tab.find l.grid.last 4 = some p :=
  ⟨by decide +kernel, by decide +kernel, by decide +kernel, by decide +kernel, two_of _ _ (by decide +kernel)⟩
theorem witness_request_out_refused : Tab.get [] (wayMachine section0 holding (.wayout 0x900) 2).podQ 2 = [{ pod := 2, group := 4, op := 9, lane := 2, ask := .wayout 0x900 }]
    ∧ (wayMachine section0 holding (.wayout 0x900) 2).way 0x900 = some section0 ∧ holding.ways = [] ∧ ∀ op, section0.holder ≠ some (4, 2, op) :=
  ⟨by decide +kernel, by decide +kernel, rfl, fun op h => by cases h⟩
theorem witness_poison_keys : (deadlocked.waypoints.map (·.1)).Nodup ∧ (∀ e ∈ deadlocked.waypoints, e.1 < 2 ^ 64)
    ∧ (∃ e, deadlocked.way 0x900 = some e ∧ e.holder = some (4, 2, 9)) ∧ ∃ e, deadlocked.way 0x901 = some e ∧ ∀ op, e.holder ≠ some (4, 2, op) :=
  ⟨by decide +kernel, by decide +kernel, ⟨_, rfl, rfl⟩, _, rfl, fun op h => by cases h⟩
/-- A key of a waiting word is held by a group that waits for this one. -/
theorem witness_probe_closing : Tab.find deadlocked.groups 4 = some (inWay (wayOp 0 1 [])) ∧ Tab.find (inWay (wayOp 0 1 [])).ways 9 = some (wayOp 0 1 []) ∧ (wayOp 0 1 []).minor = 0
    ∧ (wayOp 0 1 []).keys = [] ++ (0, 0x900) :: [(2, 0x901)]
    ∧ (∃ x h, deadlocked.way 0x900 = some x ∧ x.holder = some h ∧ (∃ y ∈ x.waits, y.group = 4 ∧ y.op = 9 ∧ y.lane = 0) ∧ deadlocked.leadsBack 4 3 h.1 = true)
    ∧ ¬ requestsOpen deadlocked 4 9 ∧ lowestFailure (Tab.put (wayOp 0 1 []).failed 0 0x0E ++ deadlocked.replies.filterMap (lateFailure 4 9)) = some (0, 0x0E) :=
  ⟨rfl, rfl, rfl, rfl, ⟨_, _, rfl, rfl, ⟨_, List.mem_singleton.mpr rfl, rfl, rfl, rfl⟩, by decide +kernel⟩, by unfold requestsOpen; decide +kernel, by decide +kernel⟩
/-- The same with the word's other request still on its way. -/
theorem witness_probe_closing_early : requestsOpen { deadlocked with net := [outRequest] } 4 9
    ∧ ∃ x h, ({ deadlocked with net := [outRequest] } : State).way 0x900 = some x ∧ x.holder = some h ∧ (∃ y ∈ x.waits, y.group = 4 ∧ y.op = 9 ∧ y.lane = 0)
      ∧ ({ deadlocked with net := [outRequest] } : State).leadsBack 4 3 h.1 = true :=
  ⟨Or.inl ⟨_, List.mem_singleton.mpr rfl, rfl, rfl⟩, _, _, rfl, rfl, ⟨_, List.mem_singleton.mpr rfl, rfl, rfl, rfl⟩, by decide +kernel⟩
theorem witness_probe_clear : Tab.find (machine (inWay (wayOp 0 1 []))).groups 4 = some (inWay (wayOp 0 1 []))
    ∧ ∀ e ∈ (wayOp 0 1 []).keys, (machine (inWay (wayOp 0 1 []))).way e.2 = none := ⟨rfl, by decide +kernel⟩
theorem witness_service_rounds : [askRequest, askRequest].length ≤ 63 ∧ (∀ q ∈ [askRequest, askRequest, askRequest], memoryMachine.asksHeld q = false)
    ∧ (∀ q ∈ [askRequest, askRequest, askRequest], ∀ key seq, q.ask ≠ .wayin key seq)
    ∧ ∃ t, exec (.serviceRound 0) (withQueue memoryMachine 0 [askRequest]) = .next t ∧ t.replies.length = 1 := by
  refine ⟨by decide, by decide +kernel, fun q hq _ _ => ?_, exists_of_landed (by decide +kernel)⟩
  simp only [List.mem_cons, List.not_mem_nil, or_false, or_self] at hq
  subst hq
  exact fun h => nomatch h
/-- Lane 2's pointer is not mapped. -/
theorem witness_atomic_fault : Issuing (mapped oneBad) issue oneBad ∧ Clear (mapped oneBad) (issue.ctx oneBad) [useN 4 2, useN 9 1, useN 12 1]
    ∧ (members (issue.ctx oneBad).exec).map (fun l => (some l, (issue.ctx oneBad).rd64 4 l)) = [(some 0, (0x200100 : DWord))] ++ (some 2, 0x800000) :: [(some 7, 0x200170)]
    ∧ (∀ q ∈ [(some 0, (0x200100 : DWord))], ∃ y, (mapped oneBad).checkPtr ((mapped oneBad).agentOf 4 oneBad) [0, 1, 2, 4, 5, 8, 10] q.2 4 .atomic = .ok y)
    ∧ (mapped oneBad).checkPtr ((mapped oneBad).agentOf 4 oneBad) [0, 1, 2, 4, 5, 8, 10] 0x800000 4 .atomic = .error { cause := 0x09, level := 4, kind := 2 } := by
  refine ⟨by decide +kernel, by decide +kernel, by decide +kernel, fun q hq => ⟨{ locs := [0x200100], type := 0 }, ?_⟩, by decide +kernel⟩
  cases List.mem_singleton.mp hq
  decide +kernel
/-- `inFlight` with a store whose second half lies in a pseudo-channel held back, and one of two accesses. -/
def p23 : PendingStore := { p21 with id := 23, cells := [(0x200100, 7), (0x200101, 8), (0x200102, 9), (0x200103, 10)], unit := 2 }
def storing (n : Nat) (held : Bool) : State :=
  { inFlight.onCore 1 fun k => { k with stores := [p21, p22, p23] } with
    cur := some { issue with choice := n }, pchannels := if held then [(0, { PChannel.reset with holder := some 9 })] else [] }
/-- What of a store a choice performs, and what stays. -/
def nowOf (s : State) (p : PendingStore) : List (Nat × Byte) := p.cells.filter fun c => p.takes s.pick c && !s.heldAt c.1
def restOf (s : State) (p : PendingStore) : List (Nat × Byte) := p.cells.filter fun c => !(p.takes s.pick c && !s.heldAt c.1)
theorem witness_store_performed : ((storing 0 false).core 1).stores = [] ++ p21 :: [p22, p23] ∧ p21.id = 21 ∧ (∀ q ∈ ([] ++ [p22, p23] : List PendingStore), q.id ≠ 21)
    ∧ nowOf (storing 0 false) p21 = p21.cells ∧ restOf (storing 0 false) p21 = []
    ∧ ∀ c ∈ nowOf (storing 0 false) p21, ∀ q ∈ ([] : List PendingStore), ∀ d ∈ q.cells, d.1 ≠ c.1 := by decide +kernel
/-- Under choice 1 the first access alone is performed. -/
def storing1 : State := { inFlight.onCore 1 fun k => { k with stores := [p23] } with cur := some { issue with choice := 1 } }
theorem witness_store_part : (storing1.core 1).stores = [] ++ p23 :: [] ∧ p23.id = 23 ∧ nowOf storing1 p23 = [(0x200100, 7), (0x200101, 8)]
    ∧ restOf storing1 p23 = [(0x200102, 9), (0x200103, 10)] ∧ storing1.logRegs = [] := by decide +kernel
theorem witness_store_waits : ((storing 0 false).core 1).stores = [p21] ++ p22 :: [p23] ∧ p22.id = 22 ∧ (∀ q ∈ [p21] ++ [p23], q.id ≠ 22)
    ∧ ∃ c ∈ nowOf (storing 0 false) p22, ∃ q ∈ [p21], ∃ d ∈ q.cells, d.1 = c.1 := by decide +kernel
theorem witness_store_held : ((storing 0 true).core 1).stores = [] ++ p21 :: [p22, p23] ∧ nowOf (storing 0 true) p21 = [] := by decide +kernel
theorem witness_store_whole : (storing 0 false).pick % 2 ^ 16 = 0 := by decide +kernel
/-- The failure of lane 2 is the only one, and no other request of its word is on its way. -/
theorem witness_reply_refused : (refusing []).replies = [doneReply] ++ [refusedReply] ∧ (∀ q ∈ [doneReply], q.pod ≠ 2) ∧ refusedReply.answer = .failed 17
    ∧ Tab.find (refusing []).groups 4 = some (inWay (wayOp 0 2 [])) ∧ Tab.find (inWay (wayOp 0 2 [])).ways refusedReply.op = some (wayOp 0 2 []) ∧ (wayOp 0 2 []).minor = 0
    ∧ ¬ requestsOpen (refusing []) refusedReply.group refusedReply.op
    ∧ lowestFailure (Tab.put (wayOp 0 2 []).failed 2 17 ++ ([doneReply] ++ []).filterMap (lateFailure refusedReply.group refusedReply.op)) = some (2, 17) := by
  unfold requestsOpen
  decide +kernel

theorem handler_of (g : Group) (k : HandlerKind) (x : SliceSet) (h : g.handler.map (fun h => (h.kind, h.h)) = some (k, x)) :
    ∃ h, g.handler = some h ∧ h.kind = k ∧ ∀ i, h.h.getLsbD i = true → x.getLsbD i = true := by
  cases hh : g.handler with
  | none => simp [hh] at h
  | some y =>
    simp only [hh, Option.map_some, Option.some.injEq, Prod.mk.injEq] at h
    exact ⟨y, rfl, h.1, fun i hi => h.2 ▸ hi⟩
theorem witness_tret : Issuing (machine (handled filled)) issue (handled filled) ∧ Clear (machine (handled filled)) (issue.ctx (handled filled)) []
    ∧ ∃ h, (issue.ctx (handled filled)).g.handler = some h ∧ h.kind = .trap ∧ ∀ i, h.h.getLsbD i = true → issue.slices.getLsbD i = true :=
  ⟨by decide +kernel, by decide +kernel, handler_of _ _ _ (by decide +kernel)⟩
theorem witness_tret_pre : Issuing (machine (handling .pre 15)) issue (handling .pre 15)
    ∧ Clear (machine (handling .pre 15)) (issue.ctx (handling .pre 15)) []
    ∧ ∃ h, (issue.ctx (handling .pre 15)).g.handler = some h ∧ h.kind = .pre ∧ ∀ i, h.h.getLsbD i = true → issue.slices.getLsbD i = true :=
  ⟨by decide +kernel, by decide +kernel, handler_of _ _ _ (by decide +kernel)⟩
theorem getD_mem {β : Type} (d : β) (P : β → Prop) (h0 : P d) : ∀ t : Tab β, (∀ e ∈ t, P e.2) → ∀ n, P (Tab.get d t n)
  | [], _, _ => h0
  | e :: t, h, n => by
    by_cases he : e.1 = n
    · simpa [Tab.get, Tab.find, he] using h e List.mem_cons_self
    · simpa [Tab.get, Tab.find, he] using getD_mem d P h0 t (fun x hx => h x (List.mem_cons_of_mem _ hx)) n
theorem witness_placement_order : (placing 63).pilotChoice (placing 63).readyQueues = some 65
    ∧ (placing 63).holding 65 = some (7, ((placing 63).launches.find 7).getD launch0) ∧ ∀ m, ((placing 63).queue m).waited < 64 :=
  ⟨by decide +kernel, by decide +kernel, fun m => by unfold State.queue; exact getD_mem Queue.reset (fun q : Queue => q.waited < 64) (by decide) (placing 63).queues (by decide +kernel) m⟩
/-- A launch whose blocks have ended, its completion value written or not. -/
abbrev completes (s : State) : Prop :=
  Tab.find s.launches 1 = some (launch1 s) ∧ allEnded s 1 (launch1 s) ∧ (launch1 s).silent = false ∧ s.completionHeld (launch1 s) = false ∧ Tab.find s.soundings 1 = none
theorem witness_complete : completes (completing 0x200128) := by decide +kernel
theorem witness_complete_silent : completes (completing 0) := by decide +kernel
theorem witness_complete_faults : completes (completing 0x800000) := by decide +kernel
/-- The answer the rule gives the launch word of `asking c`. -/
def answerDue (s : State) (c : LaunchRec) : Word :=
  match (asking c).card.why (asking c).zeros (!s.privOf (group4 s)) with
  | some w => 256 + BitVec.setWidth 32 w
  | none => if 256 ≤ (Tab.get [] s.devQueues (64 + (asking c).prio)).length then 1 else 0
theorem witness_launch_answer : ∀ x ∈ [(255, Load.card, (0 : Word)), (256, Load.card, 1), (0, wideCard, 259)],
    Tab.find (answering x.1 x.2.1).groups 4 = some (group4 (answering x.1 x.2.1)) ∧ (answering x.1 x.2.1).launchReqs = [asking x.2.1]
    ∧ (asking x.2.1).group = 4 ∧ (asking x.2.1).op = 9 ∧ (group4 (answering x.1 x.2.1)).handler = none ∧ (asking x.2.1).epoch = 0
    ∧ x.2.2 = answerDue (answering x.1 x.2.1) x.2.1 := by decide +kernel
theorem witness_trial_no : (managed true 90).trial.go = true ∧ (managed false 90).trial.go = false ∧ (1 : BitVec 32).getLsbD 0 = true := by decide +kernel

/-! Matrix, copy, chart and bank commands. -/

/-- Block 0 of every row of `bfpTile n 1 v` is 0. -/
theorem bfpTile_gap (n : Nat) (v : Byte) (a : Nat) (h : a % 64 < 32) : (bfpTile n 1 v).rd a 1 = 0 := by
  have h1 : a ≠ 32 := by omega
  have h2 : a ≠ 33 := by omega
  have h3 : a ≠ 34 := by omega
  simp [bfpTile, Binding.rd, Tab.get, Tab.find, List.range_succ, bytesToNat, h1.symm, h2.symm, h3.symm]
theorem blockSum_gap (v w : Byte) (i j : Nat) : blockSum (bfpTile 1 1 v) (bfpTile 2 1 w) 0 i j = 0 := by
  unfold blockSum
  apply List.sum_eq_zero
  intro x hx
  obtain ⟨k, hk, rfl⟩ := List.mem_map.mp hx
  rw [bfpTile_gap _ _ _ (by have := List.mem_range.mp hk; omega)]
  simp [signed]
/-- Tiles of zeros. -/
def zeroTile (n : Nat) : Binding := { bfpTile n 0 0 with bytes := [] }
theorem zeroTile_rd (n a : Nat) : (zeroTile n).rd a 1 = 0 := rfl
theorem zeroTile_sum (m i j : Nat) : blockSum (zeroTile 1) (zeroTile 2) m i j = 0 := by
  unfold blockSum
  apply List.sum_eq_zero
  intro x hx
  obtain ⟨k, -, rfl⟩ := List.mem_map.mp hx
  rw [zeroTile_rd]
  simp [signed]
theorem zeroTile_used (m i j : Nat) : ¬ blockUsed (zeroTile 1) (zeroTile 2) m i j := by
  have h : ((List.range 32).map fun k => signed 8 ((zeroTile 1).rd (64 * i + 32 * m + k) 1) * signed 8 ((zeroTile 2).rd (64 * j + 32 * m + k) 1))
      = List.replicate 32 0 := by simp only [zeroTile_rd]; rfl
  unfold blockUsed
  rw [h]
  decide +kernel
/-- The accumulator and the operands of the command, as it sees them. -/
abbrev operands (s : State) (mode tack : Nat) (a b : Binding) : Prop :=
  s.unit tmmCmd.block true 0 tmmCmd.id = some { name := 0, acc := true, freed := none, code := mode, rows := tack, cols := 0, bytes := [(2, 0x80), (3, 0x3F)] }
    ∧ s.unit tmmCmd.block false 1 tmmCmd.id = some a ∧ s.unit tmmCmd.block false 2 tmmCmd.id = some b
abbrev accOf (mode tack : Nat) : Binding := { name := 0, acc := true, freed := none, code := mode, rows := tack, cols := 0, bytes := [(2, 0x80), (3, 0x3F)] }
theorem witness_matrix_mismatch : operands (multiplying 1 0 (tile16 1) (tile16 2)) 1 0 (tile16 1) (tile16 2)
    ∧ (∀ h ∈ shapes, ¬ h.fits (accOf 1 0) (tile16 1) (tile16 2)) ∧ ¬ bfpFits (accOf 1 0) (tile16 1) (tile16 2) := by decide +kernel
theorem witness_matrix : operands (multiplying 0 0 (tile16 1) (tile16 2)) 0 0 (tile16 1) (tile16 2)
    ∧ shapes[1] ∈ shapes ∧ shapes[1].fits (accOf 0 0) (tile16 1) (tile16 2) := ⟨by decide +kernel, List.getElem_mem _, by decide +kernel⟩
theorem witness_matrix_overflow : operands (multiplying 2 1 (bfpTile 1 0 127) (bfpTile 2 0 127)) 2 1 (bfpTile 1 0 127) (bfpTile 2 0 127)
    ∧ bfpFits (accOf 2 1) (bfpTile 1 0 127) (bfpTile 2 0 127) ∧ ∃ i j, i < 32 ∧ j < 32 ∧ blockOver (bfpTile 1 0 127) (bfpTile 2 0 127) 0 i j :=
  ⟨by decide +kernel, by decide +kernel, 0, 0, by decide +kernel⟩
theorem witness_matrix_overflow_second : operands (multiplying 2 1 (bfpTile 1 1 127) (bfpTile 2 1 127)) 2 1 (bfpTile 1 1 127) (bfpTile 2 1 127)
    ∧ bfpFits (accOf 2 1) (bfpTile 1 1 127) (bfpTile 2 1 127) ∧ (∀ i j, i < 32 → j < 32 → ¬ blockOver (bfpTile 1 1 127) (bfpTile 2 1 127) 0 i j)
    ∧ ∃ i j, i < 32 ∧ j < 32 ∧ blockOver (bfpTile 1 1 127) (bfpTile 2 1 127) 1 i j :=
  ⟨by decide +kernel, by decide +kernel, fun i j _ _ h => by rw [blockOver, blockSum_gap] at h; omega, 0, 0, by decide +kernel⟩
theorem witness_matrix_flagged : operands (multiplying 2 2 (bfpTile 1 1 127) (bfpTile 2 1 127)) 2 2 (bfpTile 1 1 127) (bfpTile 2 1 127)
    ∧ bfpFits (accOf 2 2) (bfpTile 1 1 127) (bfpTile 2 1 127) ∧ (accOf 2 2).rows ≠ 1
    ∧ ∃ m i j, m < 2 ∧ i < 32 ∧ j < 32 ∧ (blockUsed (bfpTile 1 1 127) (bfpTile 2 1 127) m i j ∨ blockOver (bfpTile 1 1 127) (bfpTile 2 1 127) m i j) :=
  ⟨by decide +kernel, by decide +kernel, by decide +kernel, 1, 0, 0, by decide +kernel⟩
theorem witness_matrix_exact : operands (multiplying 2 1 (zeroTile 1) (zeroTile 2)) 2 1 (zeroTile 1) (zeroTile 2)
    ∧ bfpFits (accOf 2 1) (zeroTile 1) (zeroTile 2) ∧ (∀ m i j, m < 2 → i < 32 → j < 32 → ¬ blockOver (zeroTile 1) (zeroTile 2) m i j)
    ∧ ∀ m i j, m < 2 → i < 32 → j < 32 → ¬ (blockUsed (zeroTile 1) (zeroTile 2) m i j ∨ blockOver (zeroTile 1) (zeroTile 2) m i j) := by
  have h : ∀ m i j, ¬ blockOver (zeroTile 1) (zeroTile 2) m i j := fun m i j h => by rw [blockOver, zeroTile_sum] at h; omega
  exact ⟨by decide +kernel, by decide +kernel, fun m i j _ _ _ => h m i j, fun m i j _ _ _ hx => hx.elim (zeroTile_used m i j) (h m i j)⟩
theorem witness_matrix_unbound : memoryMachine.unit tmmCmd.block true 0 tmmCmd.id = none := by decide +kernel
theorem witness_tile_mode : (multiplying 2 1 (tile16 1) (tile16 2)).unit (tileCmd (.tcfg 0 0 0)).block true 0 (tileCmd (.tcfg 0 0 0)).id = some (accOf 2 1)
    ∧ memoryMachine.unit (tileCmd (.tzero 0)).block true 0 (tileCmd (.tzero 0)).id = none := by decide +kernel
theorem witness_tack : (List.replicate 32 (16129 : Int)).length = 32 := rfl

/-- The locations a row of a copy reads or writes. -/
def locsOf (s : State) (x : EngCmd) (spaces : List Nat) (k : Access) (unit : Nat) (p : DWord) (n : Nat) : List Target := (s.rowAccess (s.agentFor x) spaces k unit p 0 n).1
abbrev copying : State := turning .copy halvesCmd false
abbrev halvesRow : List Target := locsOf copying halvesCmd (copySrc 4) .read 2 (rowPtr 0x200100 8 0) 4
/-- `copying` after the walks of the row it reads. -/
abbrev walkedRow : State := copying.walks (copying.agentFor halvesCmd) (copySrc 4) 2 .read (elements (rowPtr 0x200100 8 0) 2 4)
theorem witness_copy_row : ¬ CopyBad halvesCmd.copyPar 4 ∧ copying.logRegs = [] ∧ halvesCmd.done < halvesCmd.copyPar.rows ∧ rowsNow (2 ^ 40) = some 1
    ∧ (copying.rowAccess (copying.agentFor halvesCmd) (copySrc 4) .read 2 (rowPtr 0x200100 8 0) 0 4).2 = none
    ∧ (∀ l ∈ halvesRow, ∀ i, i < 2 → copying.heldAt (l.locs.headD 0 + i) = false)
    ∧ (walkedRow.rowAccess (copying.agentFor halvesCmd) (copyDst 4) .write 4 (rowPtr 0x200400 16 0) 0 4).2 = none
    ∧ ∀ c ∈ rowCells 4 (locsOf walkedRow halvesCmd (copyDst 4) .write 4 (rowPtr 0x200400 16 0) 4) (convertRow 3 2 4 (rowBytes copying (copying.agentFor halvesCmd).core 2 halvesRow)).1, copying.heldAt c.1 = false := by
  decide +kernel
theorem witness_copy_fill : ¬ CopyBad fillCmd.copyPar 5 ∧ fillCmd.done < fillCmd.copyPar.rows ∧ rowsNow (2 ^ 40) = some 1 := by decide +kernel
abbrev slots : State := bound false 3 pointers
theorem witness_copy_slot : ¬ CopyBad (slotCmd 2).copyPar 2 ∧ slots.logRegs = [] ∧ (slotCmd 2).done < (slotCmd 2).copyPar.rows
    ∧ (slots.rowAccess (slots.agentFor (slotCmd 2)) (copySrc 2) .read 1 (rowPtr 0x200100 0 0) 0 33).2 = none
    ∧ (slots.unit (slotCmd 2).block false 2 (slotCmd 2).id).isSome = true := by decide +kernel
theorem witness_copy_refused : CopyBad badFill.copyPar 5 := by decide +kernel
theorem witness_copy_no_slot : ¬ CopyBad (slotCmd 9).copyPar 2 ∧ slots.unit (slotCmd 9).block false 9 (slotCmd 9).id = none := by decide +kernel
theorem witness_convert_storage : 2 ≤ 8 ∧ 8 ≤ 8 ∧ 0 < 32 / 32 ∧ 31 < 32 ∧ (List.replicate 33 (7 : Byte)).length = 32 / 32 * (1 + 4 * 8) := by decide
theorem witness_convert_canonical : 2 ≤ 2 ∧ 2 ≤ 8 ∧ 1 < 64 / 32 ∧ 0 < 32 ∧ 64 % 32 = 0 ∧ (List.replicate 66 (7 : Byte)).length = 64 + 64 / 32 := by decide
theorem witness_convert_half : (List.replicate 4 (0x3C : Byte)).length = 2 * 2 ∧ 1 < 2 ∧ isFinite Fmt.f16 0x3C3C ∧ Fmt.f16.isNan 0x7E00 = true := by decide +kernel
theorem witness_block_element : (2 : Nat) ≤ 8 ∧ (0 : Int) ≤ 254 ∧ (254 : Int) ≤ 254 ∧ -(2 : Int) ^ (8 - 1) ≤ -128 ∧ (-128 : Int) < (2 : Int) ^ (8 - 1) := by decide
theorem witness_chart_commands : (tileCmd (.chexp 5 2 1)).cmd = .chexp 5 2 1 ∧ 1023 < 1024 ∧ chopArith[9] ∈ chopArith ∧ chopCompare[3] ∈ chopCompare ∧ chart2.top.getLsbD 2 = true :=
  ⟨rfl, by decide, List.getElem_mem _, List.getElem_mem _, by decide +kernel⟩

/-- What every witness of a row pass shares. -/
abbrev passMeets (s : State) (x : EngCmd) : Prop :=
  s.calibrated x (2 ^ 40) = false ∧ (x.par 3).toNat / 2 ^ 6 % 4 = 0 ∧ (x.par 3).toNat / 2 ^ 14 % 4 = 0 ∧ (x.par 3).toNat / 2 ^ 20 = 0
    ∧ (x.par 3).toNat / 2 ^ 8 % 2 ^ 6 + ((x.par 3).toNat % 2 ^ 6 + 1) ≤ 64 ∧ (s.bankPa (s.agentFor x) (x.ptr 0)).toOption = some 0x200000
theorem witness_pass : passMeets (passing 1) (passCmd false) ∧ ((passing 1).pchannel (bankNum 0x200000)).holder = some (passCmd false).block
    ∧ (∀ b, b < 16 → (((passing 1).pchannel (bankNum 0x200000)).breg b 0).code = 1) ∧ rowsNow (2 ^ 40) = some 1
    ∧ ((passing 1).stripe ((passing 1).agentFor (passCmd false)) (bankNum 0x200000) (rowPtr 0x200000 0 0)).toOption = some 0x200000 := by decide +kernel
theorem witness_pass_bfp : passMeets (passing 2) (passCmd true) ∧ ((passing 2).pchannel (bankNum 0x200000)).holder = some (passCmd true).block
    ∧ (∀ b, b < 16 → (((passing 2).pchannel (bankNum 0x200000)).breg b 0).code = 2)
    ∧ ((passing 2).stripe ((passing 2).agentFor (passCmd true)) (bankNum 0x200000) (rowPtr 0x200000 0 0)).toOption = some 0x200000 := by decide +kernel
theorem witness_pass_not_held : passMeets memoryMachine (passCmd false) ∧ (memoryMachine.pchannel (bankNum 0x200000)).holder ≠ some (passCmd false).block := by decide +kernel
theorem witness_pass_format : passMeets (passing 1) (passCmd true) ∧ ((passing 1).pchannel (bankNum 0x200000)).holder = some (passCmd true).block
    ∧ ∃ b, b < 16 ∧ (((passing 1).pchannel (bankNum 0x200000)).breg b 0).code ≠ 2 := ⟨by decide +kernel, by decide +kernel, 15, by decide +kernel⟩
/-- The tree over three contributions of 32-bit integers. -/
def tree3 (c : Collective) (e : Nat) : Nat → Nat → Option Word
  | 0, n => if n < c.first.terms then some ((sentBy c n).getD e 0) else none
  | l + 1, n => match tree3 c e l (2 * n), tree3 c e l (2 * n + 1) with
    | some a, some b => some (combined c.first.op c.first.fmt a b)
    | some a, none => some a
    | none, z => z
theorem witness_reduction_result : (gathered 0 2 1).first.minor < 2 ∧ 0 < (gathered 0 2 1).first.terms ∧ 1 < (gathered 0 2 1).first.count
    ∧ (∀ n, tree3 (gathered 0 2 1) 1 0 n = if n < (gathered 0 2 1).first.terms then some ((sentBy (gathered 0 2 1) n).getD 1 0) else none)
    ∧ (gathered 0 2 1).first.terms ≤ 2 ^ 2 ∧ ∀ k, (gathered 0 2 1).first.terms ≤ 2 ^ k → 2 ≤ k := by
  refine ⟨by decide, by decide, by decide, fun _ => rfl, by decide, fun k hk => ?_⟩
  have h3 : (3 : Nat) ≤ 2 ^ k := hk
  rcases k with _ | _ | k <;> omega
theorem witness_reduction_moves : (gathered 2 2 0).first.minor = 2 ∧ (gathered 3 1 0).first.minor = 3 := by decide


/-! Single words on small states, their results worked out by hand from the spec's tables and examples. -/

/-- What a word leaves of its group. -/
def after (i : Instr) (h : Group) : Option Group :=
  match exec i (machine h) with
  | .next t => Tab.find t.groups 4
  | _ => none
def vAfter (i : Instr) (v s : List (Nat × Word)) (k l : Nat) : Option Word := (after i (withRegs v s)).map fun g => g.readV k l
def mAfter (i : Instr) (v s : List (Nat × Word)) (k : Nat) : Option LaneSet := (after i (withRegs v s)).map fun g => g.readM 0 k
/-- Where slice i of the group stands after a word. -/
def pcAfter (i : Instr) (h : Group) (k : Nat) : Option Nat := (after i h).map fun g => (g.slice k).seq.pc.toNat

theorem test_add_wraps : vAfter (.addI32 6 4 5) [(4, 0xFFFFFFFF), (5, 2)] [] 6 15 = some 1 := by decide +kernel
theorem test_sub_order : vAfter (.subI32 6 4 5) [(4, 3), (5, 5)] [] 6 0 = some 0xFFFFFFFE := by decide +kernel
theorem test_mulhi_signed : vAfter (.mulhiI32 6 4 5) [(4, 0xFFFFFFFE), (5, 3)] [] 6 0 = some 0xFFFFFFFF := by decide +kernel
theorem test_mulhi_unsigned : vAfter (.mulhiN32 6 4 5) [(4, 0xFFFFFFFE), (5, 3)] [] 6 0 = some 2 := by decide +kernel
theorem test_andn_complements_b : vAfter (.andn 6 4 5) [(4, 0xFF), (5, 0x0F)] [] 6 0 = some 0xF0 := by decide +kernel
theorem test_shift_count_is_five_bits : vAfter (.shrI32 6 4 5) [(4, 0x80000000), (5, 33)] [] 6 0 = some 0xC0000000 := by decide +kernel
theorem test_rotate_left : vAfter (.rotl 6 4 5) [(4, 0x80000001), (5, 4)] [] 6 0 = some 0x18 := by decide +kernel
/-- 05 R95: position 4, length 8 of 0xABCD is 0xBC. -/
theorem test_bfe_signed : vAfter (.bfeI32 6 4 5) [(4, 0xABCD), (5, 0x0804)] [] 6 0 = some 0xFFFFFFBC := by decide +kernel
theorem test_bfi_keeps_the_rest : vAfter (.bfi 6 4 5) [(4, 0x12), (5, 0x0804), (6, 0xFFFFFFFF)] [] 6 0 = some 0xFFFFF12F := by decide +kernel
theorem test_clz_of_zero : vAfter (.clz 6 4) [] [] 6 0 = some 32 := by decide +kernel
theorem test_abs_of_least : vAfter (.absI32 6 4) [(4, 0x80000000)] [] 6 0 = some 0x80000000 := by decide +kernel
theorem test_movk_hi : vAfter (.movkHi 6 0x1234) [(6, 0xABCD5678)] [] 6 0 = some 0x12345678 := by decide +kernel
theorem test_adds_saturates_halves : vAfter (.addsI16x2 6 4 5) [(4, 0x7FFF8000), (5, 0x0001FFFF)] [] 6 0 = some 0x7FFF8000 := by decide +kernel
/-- Table INT-2, its first and third rows. -/
theorem test_lea_wraps_the_address : vAfter (.leaX4 4 102 3) [(3, 8)] [(6, 0xFFFFFFF0), (7, 0x05FFFFFF)] 4 0 = some 0x10
    ∧ vAfter (.leaX4 4 102 3) [(3, 8)] [(6, 0xFFFFFFF0), (7, 0x05FFFFFF)] 5 0 = some 0x04000000 := by decide +kernel
theorem test_lea_keeps_the_space : vAfter (.leaX4 4 102 3) [(3, 0xFFFFFFF8)] [(6, 0x10), (7, 0x40000000)] 4 0 = some 0xFFFFFFF0
    ∧ vAfter (.leaX4 4 102 3) [(3, 0xFFFFFFF8)] [(6, 0x10), (7, 0x40000000)] 5 0 = some 0x41FFFFFF := by decide +kernel
theorem test_compare_signed : mAfter (.icmpLtI32 1 4 5) [(4, 0xFFFFFFFF)] [] 1 = some 0xFFFF := by decide +kernel
theorem test_compare_unsigned : mAfter (.icmpLtN32 1 4 5) [(4, 0xFFFFFFFF)] [] 1 = some 0 := by decide +kernel
/-- Table FLT-6: one rounding, and two. -/
theorem test_fma_rounds_once : vAfter (.fmaF32 7 8 8) [(8, 0x3F800800), (7, 0xBF801000)] [] 7 0 = some 0x33800000 := by decide +kernel
theorem test_mul_rounds_up : (after (.mulF32 9 8 8) { withRegs [(8, 0x3F800800)] [] with rmode := 2 }).map (fun g => (g.readV 9 0, g.fpflags)) = some (0x3F801001, 16) := by
  decide +kernel
theorem test_mul_ties_to_even : vAfter (.mulF32 9 8 8) [(8, 0x3F800800)] [] 9 0 = some 0x3F801000 := by decide +kernel
/-- Table FLT-12. -/
theorem test_convert_rounds_down : (after (.cvtI32F32 5 4) { withRegs [(4, 0xC0200000)] [] with rmode := 3 }).map (fun g => g.readV 5 0) = some 0xFFFFFFFD := by
  decide +kernel
theorem test_convert_saturates : (after (.cvtI32F32 5 4) (withRegs [(4, 0x4F32D05E)] [])).map (fun g => (g.readV 5 0, g.fpflags)) = some (0x7FFFFFFF, 1) := by
  decide +kernel
/-- Table CTL-2: a slice whose lanes disagree parks those that do not take. -/
theorem test_branch_divides : (after (.br 0 1 2) { group0 with m := [(1, 0x3)] }).map (fun g => ((g.slice 0).seq.pc, (g.slice 0).seq.a, (g.slice 0).seq.parked))
    = some (0x200020, 3, [(0x200010, 0xC)]) := by decide +kernel
theorem test_branch_backwards : pcAfter (.br 0 0 0x1FFFFE) group0 3 = some 0x1FFFE0 := by decide +kernel
theorem test_call_links : (after (.call 3) group0).map (fun g => (g.readS 0 30, g.readS 3 31, (g.slice 2).seq.pc)) = some (0x200010, 0, 0x200030) := by decide +kernel
theorem test_exit_ends_the_lanes : (after .exit filled).map (fun g => ((g.slice 0).exited, (g.slice 1).exited, (g.slice 0).seq.a)) = some (5, 8, 10) := by decide +kernel
theorem test_laneid : vAfter (.srd 6 0) [] [] 6 11 = some 11 := by decide +kernel
/-- Table TRP-3: the cause of `trap 5`, presented to a group in no handler. -/
theorem test_trap_is_presented : (after (.trap 5) group0).map (fun g => g.trap.map fun t => (t.cause, t.faddr, t.pc)) = some (some (0x17, 5, 0x200004)) := by decide +kernel
/-- 16 R332: without a handler a pending trap kills the group. -/
theorem test_trap_kills : (match exec (.trapEntry 4) (machine unhandled) with
    | .next t => (Tab.find t.groups 4).map (·.killed)
    | _ => none) = some true := by decide +kernel
/-- 07 R149: the path set of `pfence` is not empty. -/
theorem test_pfence_of_nothing : (decodeWord 0x4C200000).toOption = none := by decide
theorem test_store_reaches_the_scratchpad : (match exec (.st32 9 8 0) memoryMachine with
    | .next t => t.readNat (Ops.scratchLoc 3 0x20) 4
    | _ => 0) = 0x40000000 := by decide +kernel
/-- The word 02 R31's listing opens with, `addi v10, s3, -5`, in one step of the placed machine. -/
theorem test_step_runs_the_word : (match step (placed 0x142B1FFB) with
    | .next t => (Tab.find t.groups 4).map fun g => g.readV 10 15
    | _ => none) = some 0xFFFFFFFB := by decide +kernel

end Sys2Proof.Tests
end

/-! 00 R6, 06 R115: what `Round` delivers, against the values of the format.

Without its sign a finite bit pattern is a natural number, and the magnitude it stands for grows strictly with it
(`magnitude_strictMono`). So the exact magnitude lies between those of two successive patterns, `floorPattern` and the
next, `Fmt.round` takes one of the two, and what holds of every other value of the format follows by monotonicity. -/

namespace Sys2Proof.Rounding

open Sys2Proof.Machine Sys2Proof.Claims

/-! ### The magnitude of a bit pattern -/

/-- Exponent of the last place in binade c; binade 0 holds the subnormals and the smallest normal values. -/
def ulpExp (f : Fmt) (c : ℕ) : ℤ := c + (f.emin - f.fb)

/-- The binade of a bit pattern without its sign. -/
def binade (f : Fmt) (n : ℕ) : ℕ := n / 2 ^ f.fb - 1

/-- The magnitude of a bit pattern without its sign, as if the exponent field had no end. -/
def magnitude (f : Fmt) (n : ℕ) : ℚ := (n - binade f n * 2 ^ f.fb : ℕ) * 2 ^ ulpExp f (binade f n)

/-- The bit pattern of significand k in binade c; a significand of 2 ^ (fb + 1) carries into the next binade. -/
def pattern (f : Fmt) (c k : ℕ) : ℕ := c * 2 ^ f.fb + k

/-- k is a significand of binade c: with its leading bit, except in binade 0. -/
def Fits (f : Fmt) (c k : ℕ) : Prop := (c = 0 ∨ 2 ^ f.fb ≤ k) ∧ k < 2 * 2 ^ f.fb

theorem pattern_succ (f : Fmt) (c k : ℕ) : pattern f c (k + 1) = pattern f c k + 1 := rfl

theorem binade_pattern {f : Fmt} {c k : ℕ} (h : Fits f c k) : binade f (pattern f c k) = c := by
  obtain ⟨hlow, hhigh⟩ := h
  have hp : 0 < 2 ^ f.fb := Nat.two_pow_pos _
  have hk : k / 2 ^ f.fb < 2 := Nat.div_lt_of_lt_mul (by omega)
  rw [binade, pattern, Nat.mul_comm, Nat.mul_add_div hp]
  rcases hlow with rfl | hlow
  · omega
  · have : 0 < k / 2 ^ f.fb := Nat.div_pos hlow hp
    omega

theorem magnitude_pattern {f : Fmt} {c k : ℕ} (h : Fits f c k) : magnitude f (pattern f c k) = k * 2 ^ ulpExp f c := by
  rw [magnitude, binade_pattern h, pattern, Nat.add_sub_cancel_left]

theorem magnitude_pattern_succ {f : Fmt} {c k : ℕ} (h : Fits f c k) :
    magnitude f (pattern f c k + 1) = (k + 1) * 2 ^ ulpExp f c := by
  have hp : 0 < 2 ^ f.fb := Nat.two_pow_pos _
  obtain ⟨hlow, hhigh⟩ := h
  rcases Nat.lt_or_ge (k + 1) (2 * 2 ^ f.fb) with hk | hk
  · have hfits : Fits f c (k + 1) := ⟨hlow.imp id (by omega), hk⟩
    rw [← pattern_succ, magnitude_pattern hfits, Nat.cast_succ]
  · have hk : k + 1 = 2 * 2 ^ f.fb := by omega
    have hcarry : pattern f c k + 1 = pattern f (c + 1) (2 ^ f.fb) := by rw [← pattern_succ, pattern, pattern, hk]; ring
    have hfits : Fits f (c + 1) (2 ^ f.fb) := ⟨.inr le_rfl, by omega⟩
    have hexp : ulpExp f (c + 1) = ulpExp f c + 1 := by rw [ulpExp, ulpExp]; push_cast; ring
    have hk' : (k : ℚ) + 1 = 2 * 2 ^ f.fb := mod_cast hk
    rw [hcarry, magnitude_pattern hfits, hexp, zpow_add_one₀ two_ne_zero, hk']
    push_cast
    ring

theorem exists_pattern (f : Fmt) (n : ℕ) : ∃ c k, Fits f c k ∧ n = pattern f c k := by
  have hp : 0 < 2 ^ f.fb := Nat.two_pow_pos _
  have hdiv := Nat.div_add_mod n (2 ^ f.fb)
  have hmod := Nat.mod_lt n hp
  rcases Nat.eq_zero_or_pos (n / 2 ^ f.fb) with h | h
  · exact ⟨0, n, ⟨.inl rfl, by rw [h] at hdiv; omega⟩, by simp [pattern]⟩
  · obtain ⟨c, hc⟩ := Nat.exists_eq_add_of_lt h
    refine ⟨c, 2 ^ f.fb + n % 2 ^ f.fb, ⟨.inr (by omega), by omega⟩, ?_⟩
    rw [pattern]
    conv_lhs => rw [← hdiv, hc]
    ring

theorem magnitude_strictMono (f : Fmt) : StrictMono (magnitude f) := by
  refine strictMono_nat_of_lt_succ fun n => ?_
  obtain ⟨c, k, h, rfl⟩ := exists_pattern f n
  rw [magnitude_pattern h, magnitude_pattern_succ h]
  exact mul_lt_mul_of_pos_right (lt_add_one _) (by positivity)

theorem magnitude_nonneg (f : Fmt) (n : ℕ) : 0 ≤ magnitude f n := by
  rw [magnitude]
  positivity

/-! ### The value of a bit pattern is its signed magnitude -/

/-- A magnitude with a sign. -/
def signed (neg : Bool) (a : ℚ) : ℚ := if neg then -a else a

theorem signed_mul (neg : Bool) (a b : ℚ) : (if neg then -a else a) * b = signed neg (a * b) := by
  cases neg <;> simp [signed]

theorem abs_signed (neg : Bool) {a : ℚ} (h : 0 ≤ a) : |signed neg a| = a := by
  cases neg <;> simp [signed, abs_of_nonneg h]

theorem top_lt (f : Fmt) : f.top < 2 ^ (f.eb + f.fb) := by
  rw [Fmt.top, Nat.pow_add]
  exact Nat.mul_lt_mul_of_pos_right (Nat.sub_lt (Nat.two_pow_pos _) one_pos) (Nat.two_pow_pos _)

theorem valueOf_eq {f : Fmt} {y : ℕ} (hy : isFinite f y) :
    valueOf f y = signed (y.testBit (f.eb + f.fb)) (magnitude f (y % 2 ^ (f.eb + f.fb))) := by
  set n := y % 2 ^ (f.eb + f.fb) with hn
  have hp : 0 < 2 ^ f.fb := Nat.two_pow_pos _
  have hfrac : bitsAt y 0 f.fb = n % 2 ^ f.fb := by
    rw [bitsAt, pow_zero, Nat.div_one, hn, Nat.mod_mod_of_dvd _ (Nat.pow_dvd_pow 2 (Nat.le_add_left _ _))]
  have hexp : bitsAt y f.fb f.eb = n / 2 ^ f.fb := by
    rw [bitsAt, hn, Nat.add_comm f.eb, Nat.pow_add, Nat.mod_mul_right_div_self]
  have hfin : n / 2 ^ f.fb ≠ 2 ^ f.eb - 1 := (Nat.div_lt_of_lt_mul (by rw [Nat.mul_comm]; exact hy)).ne
  have hdiv := Nat.div_add_mod n (2 ^ f.fb)
  rw [valueOf, Fmt.num, hfrac, hexp, if_neg hfin]
  by_cases hsub : n / 2 ^ f.fb = 0
  · have hbin : binade f n = 0 := by rw [binade, hsub]
    have hsig : n - 0 * 2 ^ f.fb = n % 2 ^ f.fb := by rw [hsub] at hdiv; omega
    rw [if_pos hsub, magnitude, hbin, hsig, ulpExp, Nat.cast_zero, zero_add]
    exact signed_mul ..
  · obtain ⟨c, hc⟩ := Nat.exists_eq_succ_of_ne_zero hsub
    have hbin : binade f n = c := by rw [binade, hc]; rfl
    have hsig : n - c * 2 ^ f.fb = 2 ^ f.fb + n % 2 ^ f.fb := by
      rw [hc, Nat.succ_eq_add_one, Nat.mul_comm, Nat.add_mul] at hdiv; omega
    have hulp : ((n / 2 ^ f.fb : ℕ) : ℤ) - f.bias - f.fb = ulpExp f c := by rw [hc, ulpExp, Fmt.emin]; push_cast; ring
    rw [if_neg hsub, magnitude, hbin, hsig, hulp]
    exact signed_mul ..

theorem signBit_add_div (f : Fmt) (neg : Bool) {n : ℕ} (h : n < 2 ^ (f.eb + f.fb)) :
    (f.signBit neg + n) / 2 ^ (f.eb + f.fb) = neg.toNat := by
  cases neg
  · simpa [Fmt.signBit] using h
  · simp [Fmt.signBit, Nat.div_eq_of_lt h]

theorem signBit_add_mod (f : Fmt) (neg : Bool) {n : ℕ} (h : n < 2 ^ (f.eb + f.fb)) :
    (f.signBit neg + n) % 2 ^ (f.eb + f.fb) = n := by
  cases neg <;> simp [Fmt.signBit, Nat.mod_eq_of_lt h]

theorem valueOf_signBit_add {f : Fmt} (neg : Bool) {n : ℕ} (h : n < f.top) :
    valueOf f (f.signBit neg + n) = signed neg (magnitude f n) := by
  have hn := h.trans (top_lt f)
  have hsign : (f.signBit neg + n).testBit (f.eb + f.fb) = neg := by
    rw [Nat.testBit_eq_decide_div_mod_eq, signBit_add_div f neg hn]
    cases neg <;> rfl
  rw [valueOf_eq (by rwa [isFinite, signBit_add_mod f neg hn]), signBit_add_mod f neg hn, hsign]

/-! ### The exact magnitude between two patterns -/

/-- The binade whose last place `Fmt.round` rounds m · 2^e to. -/
def roundBinade (f : Fmt) (m : ℕ) (e : ℤ) : ℕ := (m.log2 + e - f.emin).toNat

/-- m · 2^e in units of that last place: whole part, remainder, size of a unit. -/
def units (f : Fmt) (m : ℕ) (e : ℤ) : ℕ × ℕ × ℕ := inUnits m e (ulpExp f (roundBinade f m e))

/-- What lies beyond the whole part, as a fraction of the last place. -/
def fraction (f : Fmt) (m : ℕ) (e : ℤ) : ℚ := (units f m e).2.1 / (units f m e).2.2

/-- The bit pattern of m · 2^e cut off after that last place. -/
def floorPattern (f : Fmt) (m : ℕ) (e : ℤ) : ℕ := pattern f (roundBinade f m e) (units f m e).1

theorem ulpExp_roundBinade (f : Fmt) (m : ℕ) (e : ℤ) :
    ulpExp f (roundBinade f m e) = max (m.log2 + e - f.fb) (f.emin - f.fb) := by
  rw [ulpExp, roundBinade]
  omega

theorem inUnits_rem_lt (m : ℕ) (e q : ℤ) : (inUnits m e q).2.1 < (inUnits m e q).2.2 := by
  rw [inUnits]
  split
  · exact one_pos
  · exact Nat.mod_lt _ (Nat.two_pow_pos _)

theorem inUnits_exact (m : ℕ) (e q : ℤ) :
    (m : ℚ) * 2 ^ e = ((inUnits m e q).1 + (inUnits m e q).2.1 / (inUnits m e q).2.2) * 2 ^ q := by
  rw [inUnits]
  split
  next h =>
    have he : (2 : ℚ) ^ e = 2 ^ (e - q).toNat * 2 ^ q := by
      rw [← zpow_natCast, Int.toNat_of_nonneg (by omega), ← zpow_add₀ two_ne_zero, sub_add_cancel]
    rw [he]
    push_cast
    ring
  next h =>
    have hq : (2 : ℚ) ^ q = 2 ^ (q - e).toNat * 2 ^ e := by
      rw [← zpow_natCast, Int.toNat_of_nonneg (by omega), ← zpow_add₀ two_ne_zero, sub_add_cancel]
    have hm : (m : ℚ) = 2 ^ (q - e).toNat * (m / 2 ^ (q - e).toNat : ℕ) + (m % 2 ^ (q - e).toNat : ℕ) :=
      mod_cast (Nat.div_add_mod m _).symm
    rw [hq]
    conv_lhs => rw [hm]
    push_cast
    field_simp

section
variable (f : Fmt) (m : ℕ) (e : ℤ)

theorem fraction_nonneg : 0 ≤ fraction f m e := by
  rw [fraction]
  positivity

theorem unit_pos : (0 : ℚ) < (units f m e).2.2 := mod_cast (Nat.zero_le _).trans_lt (inUnits_rem_lt m e _)

theorem fraction_lt_one : fraction f m e < 1 := by
  rw [fraction, div_lt_one (unit_pos f m e)]
  exact mod_cast inUnits_rem_lt m e _

theorem exact_eq : (m : ℚ) * 2 ^ e = ((units f m e).1 + fraction f m e) * 2 ^ ulpExp f (roundBinade f m e) :=
  inUnits_exact m e _

theorem two_pow_le_exact (hm : 0 < m) : (2 : ℚ) ^ (m.log2 + e) ≤ m * 2 ^ e := by
  rw [zpow_add₀ two_ne_zero, zpow_natCast]
  exact mul_le_mul_of_nonneg_right (mod_cast Nat.log2_self_le hm.ne') (by positivity)

theorem exact_lt_two_pow : (m : ℚ) * 2 ^ e < 2 ^ (m.log2 + 1 + e) := by
  rw [zpow_add₀ two_ne_zero]
  exact mul_lt_mul_of_pos_right (mod_cast Nat.lt_log2_self) (by positivity)

theorem whole_le_exact : ((units f m e).1 : ℚ) * 2 ^ ulpExp f (roundBinade f m e) ≤ m * 2 ^ e := by
  rw [exact_eq f m e]
  exact mul_le_mul_of_nonneg_right (by linarith [fraction_nonneg f m e]) (by positivity)

theorem exact_lt_whole_succ : (m : ℚ) * 2 ^ e < ((units f m e).1 + 1) * 2 ^ ulpExp f (roundBinade f m e) := by
  rw [exact_eq f m e]
  exact mul_lt_mul_of_pos_right (by linarith [fraction_lt_one f m e]) (by positivity)

theorem fits_units (hm : 0 < m) : Fits f (roundBinade f m e) (units f m e).1 := by
  set q := ulpExp f (roundBinade f m e) with hq
  have hq2 : (0 : ℚ) ≤ 2 ^ q := by positivity
  have htop := ulpExp_roundBinade f m e
  constructor
  · refine or_iff_not_imp_left.mpr fun hc => ?_
    have hplace : q + f.fb = m.log2 + e := by rw [ulpExp] at hq; rw [roundBinade] at hc hq; omega
    have hlead : (2 : ℚ) ^ f.fb * 2 ^ q < ((units f m e).1 + 1) * 2 ^ q := by
      calc (2 : ℚ) ^ f.fb * 2 ^ q = 2 ^ (m.log2 + e) := by rw [← hplace, zpow_add₀ two_ne_zero, zpow_natCast, mul_comm]
        _ ≤ m * 2 ^ e := two_pow_le_exact m e hm
        _ < ((units f m e).1 + 1) * 2 ^ q := exact_lt_whole_succ f m e
    have := lt_of_mul_lt_mul_right hlead hq2
    exact Nat.lt_succ_iff.mp (mod_cast this)
  · have hend : ((units f m e).1 : ℚ) * 2 ^ q < (2 * 2 ^ f.fb) * 2 ^ q := by
      calc ((units f m e).1 : ℚ) * 2 ^ q ≤ m * 2 ^ e := whole_le_exact f m e
        _ < 2 ^ (m.log2 + 1 + e) := exact_lt_two_pow m e
        _ ≤ 2 ^ (1 + f.fb + q) := zpow_le_zpow_right₀ one_le_two (by omega)
        _ = (2 * 2 ^ f.fb) * 2 ^ q := by rw [zpow_add₀ two_ne_zero, zpow_add₀ two_ne_zero, zpow_one, zpow_natCast]
    have := lt_of_mul_lt_mul_right hend hq2
    exact mod_cast this

theorem exact_sub_floor (hm : 0 < m) :
    (m : ℚ) * 2 ^ e - magnitude f (floorPattern f m e) = fraction f m e * 2 ^ ulpExp f (roundBinade f m e) := by
  rw [floorPattern, magnitude_pattern (fits_units f m e hm), exact_eq f m e]
  ring

theorem ceil_sub_exact (hm : 0 < m) :
    magnitude f (floorPattern f m e + 1) - m * 2 ^ e = (1 - fraction f m e) * 2 ^ ulpExp f (roundBinade f m e) := by
  rw [floorPattern, magnitude_pattern_succ (fits_units f m e hm), exact_eq f m e]
  ring

theorem magnitude_floor_le (hm : 0 < m) : magnitude f (floorPattern f m e) ≤ m * 2 ^ e := by
  rw [floorPattern, magnitude_pattern (fits_units f m e hm)]
  exact whole_le_exact f m e

theorem lt_magnitude_floor_succ (hm : 0 < m) : (m : ℚ) * 2 ^ e < magnitude f (floorPattern f m e + 1) := by
  rw [floorPattern, magnitude_pattern_succ (fits_units f m e hm)]
  exact exact_lt_whole_succ f m e

theorem magnitude_le_exact_iff (hm : 0 < m) (n : ℕ) : magnitude f n ≤ m * 2 ^ e ↔ n ≤ floorPattern f m e := by
  refine ⟨fun h => ?_, fun h => ((magnitude_strictMono f).monotone h).trans (magnitude_floor_le f m e hm)⟩
  exact Nat.lt_succ_iff.mp ((magnitude_strictMono f).lt_iff_lt.mp (h.trans_lt (lt_magnitude_floor_succ f m e hm)))

theorem exact_le_magnitude_iff (hm : 0 < m) (n : ℕ) : (m : ℚ) * 2 ^ e ≤ magnitude f n ↔
    floorPattern f m e + (if (units f m e).2.1 = 0 then 0 else 1) ≤ n := by
  have hmono := magnitude_strictMono f
  have hdiff := exact_sub_floor f m e hm
  split
  next hr =>
    have hx : (m : ℚ) * 2 ^ e = magnitude f (floorPattern f m e) := by
      rw [← sub_eq_zero, hdiff, fraction, hr, Nat.cast_zero, zero_div, zero_mul]
    rw [hx, hmono.le_iff_le, add_zero]
  next hr =>
    have hfrac : 0 < fraction f m e := div_pos (mod_cast Nat.pos_of_ne_zero hr) (unit_pos f m e)
    have hx : magnitude f (floorPattern f m e) < m * 2 ^ e := by
      rw [← sub_pos, hdiff]
      positivity
    refine ⟨fun h => hmono.lt_iff_lt.mp (hx.trans_le h), fun h => ?_⟩
    exact (lt_magnitude_floor_succ f m e hm).le.trans (hmono.monotone h)

end

/-! ### What `Fmt.round` delivers -/

/-- The mode rounds a magnitude of this sign down. -/
def roundsToward : RMode → Bool → Bool
  | .rne, _ => false
  | .rz, _ => true
  | .ru, neg => neg
  | .rd, neg => !neg

/-- 1 where the mode takes the pattern after `floorPattern`, and 0 where it takes `floorPattern`. -/
def roundUp (f : Fmt) (rm : RMode) (neg : Bool) (m : ℕ) (e : ℤ) : ℕ :=
  roundMag rm neg (units f m e).1 (units f m e).2.1 (units f m e).2.2 false - (units f m e).1

/-- The pattern of the rounded significand, as far as the format and the mode let it go. -/
def roundPattern (f : Fmt) (rm : RMode) (neg : Bool) (m : ℕ) (e : ℤ) : ℕ :=
  min (floorPattern f m e + roundUp f rm neg m e) (if roundsToward rm neg then f.top - 1 else f.top)

theorem le_roundMag (rm : RMode) (neg : Bool) (k r unit : ℕ) : k ≤ roundMag rm neg k r unit false := by
  simp only [roundMag]
  split_ifs <;> omega

theorem roundMag_toward {rm : RMode} {neg : Bool} (h : roundsToward rm neg = true) (k r unit : ℕ) :
    roundMag rm neg k r unit false = k := by
  match rm, neg, h with
  | .rz, _, _ => rfl
  | .ru, true, _ => rfl
  | .rd, false, _ => rfl

theorem roundMag_away {rm : RMode} {neg : Bool} (hrm : rm ≠ .rne) (h : roundsToward rm neg = false) (k r unit : ℕ) :
    roundMag rm neg k r unit false = k + if r = 0 then 0 else 1 := by
  have hup : (if decide (0 < 2 * r) = true then k + 1 else k) = k + if r = 0 then 0 else 1 := by
    rcases Nat.eq_zero_or_pos r with rfl | hr
    · rfl
    · simp [hr, hr.ne']
  match rm, neg, h with
  | .rne, _, _ => exact absurd rfl hrm
  | .ru, false, _ => exact hup
  | .rd, true, _ => exact hup

theorem overflow_bits (f : Fmt) (rm : RMode) (neg : Bool) :
    (f.overflow rm neg).bits = f.signBit neg + if roundsToward rm neg then f.top - 1 else f.top := by
  cases rm <;> cases neg <;> rfl

theorem roundMag_rne (neg : Bool) (k r unit : ℕ) :
    roundMag .rne neg k r unit false = k ∧ 2 * r ≤ unit ∧ (2 * r = unit → k % 2 = 0)
    ∨ roundMag .rne neg k r unit false = k + 1 ∧ unit ≤ 2 * r ∧ (2 * r = unit → k % 2 = 1) := by
  simp only [roundMag, Bool.toNat_false, add_zero, Bool.or_eq_true, decide_eq_true_eq, Bool.and_eq_true, beq_iff_eq]
  split_ifs <;> omega

theorem round_bits (f : Fmt) (rm : RMode) (neg : Bool) {m : ℕ} (e : ℤ) (hm : 0 < m) :
    (f.round rm neg m e false).bits = f.signBit neg + roundPattern f rm neg m e := by
  have hq := ulpExp_roundBinade f m e
  have hk := le_roundMag rm neg (units f m e).1 (units f m e).2.1 (units f m e).2.2
  have hbits : ((ulpExp f (roundBinade f m e) + f.fb + f.bias - 1) * 2 ^ f.fb
      + roundMag rm neg (units f m e).1 (units f m e).2.1 (units f m e).2.2 false).toNat
      = floorPattern f m e + roundUp f rm neg m e := by
    have hc : ulpExp f (roundBinade f m e) + f.fb + f.bias - 1 = roundBinade f m e := by rw [ulpExp, Fmt.emin]; ring
    rw [hc, floorPattern, pattern, roundUp, add_assoc, Nat.add_sub_cancel' hk]
    exact mod_cast Int.toNat_natCast _
  rw [Fmt.round, if_neg (by simp [hm.ne']), roundPattern]
  simp only [← hq]
  rw [← units, hbits]
  split
  next hover =>
    rw [overflow_bits, min_eq_right (by split <;> omega)]
  next hfit =>
    rw [min_eq_left (by split <;> omega)]

section
variable (f : Fmt) {rm : RMode} {neg : Bool} (m : ℕ) (e : ℤ)

theorem roundPattern_lt : roundPattern f rm neg m e < 2 ^ (f.eb + f.fb) := by
  have := top_lt f
  rw [roundPattern]
  split <;> omega

theorem roundPattern_toward (h : roundsToward rm neg = true) :
    roundPattern f rm neg m e = min (floorPattern f m e) (f.top - 1) := by
  rw [roundPattern, roundUp, roundMag_toward h, Nat.sub_self, add_zero, if_pos h]

theorem roundPattern_away (hrm : rm ≠ .rne) (h : roundsToward rm neg = false) :
    roundPattern f rm neg m e = min (floorPattern f m e + if (units f m e).2.1 = 0 then 0 else 1) f.top := by
  rw [roundPattern, roundUp, roundMag_away hrm h, Nat.add_sub_cancel_left, h]
  rfl

theorem roundPattern_rne (h : roundPattern f .rne neg m e < f.top) :
    roundPattern f .rne neg m e = floorPattern f m e ∧ 2 * (units f m e).2.1 ≤ (units f m e).2.2
      ∧ (2 * (units f m e).2.1 = (units f m e).2.2 → (units f m e).1 % 2 = 0)
    ∨ roundPattern f .rne neg m e = floorPattern f m e + 1 ∧ (units f m e).2.2 ≤ 2 * (units f m e).2.1
      ∧ (2 * (units f m e).2.1 = (units f m e).2.2 → (units f m e).1 % 2 = 1) := by
  have hcap : roundPattern f .rne neg m e = min (floorPattern f m e + roundUp f .rne neg m e) f.top := rfl
  have hup : roundPattern f .rne neg m e = floorPattern f m e + roundUp f .rne neg m e := by omega
  rw [hup, roundUp]
  refine (roundMag_rne neg (units f m e).1 (units f m e).2.1 (units f m e).2.2).imp ?_ ?_
  · exact fun ⟨hmag, hrest⟩ => ⟨by omega, hrest⟩
  · exact fun ⟨hmag, hrest⟩ => ⟨by omega, hrest⟩

variable {m}

theorem isFinite_round_iff (hm : 0 < m) : isFinite f (f.round rm neg m e false).bits ↔ roundPattern f rm neg m e < f.top := by
  rw [round_bits f rm neg e hm, isFinite, signBit_add_mod f neg (roundPattern_lt f m e)]

theorem valueOf_round (hm : 0 < m) (h : roundPattern f rm neg m e < f.top) :
    valueOf f (f.round rm neg m e false).bits = signed neg (magnitude f (roundPattern f rm neg m e)) := by
  rw [round_bits f rm neg e hm, valueOf_signBit_add neg h]

theorem round_bits_mod_two (hfb : 0 < f.fb) (hm : 0 < m) :
    (f.round rm neg m e false).bits % 2 = roundPattern f rm neg m e % 2 := by
  have hsign : f.signBit neg % 2 = 0 := by
    have hpow : 2 ^ (f.eb + f.fb) % 2 = 0 := by rw [Nat.pow_mod, Nat.mod_self, Nat.zero_pow (by omega)]
    rw [Fmt.signBit]
    split
    · exact hpow
    · rfl
  rw [round_bits f rm neg e hm]
  omega

/-! ### The rounded magnitude against every other one -/

theorem top_pos (heb : 0 < f.eb) : 0 < f.top :=
  Nat.mul_pos (Nat.sub_pos_of_lt (Nat.one_lt_two_pow heb.ne')) (Nat.two_pow_pos _)

theorem roundPattern_toward_lt_top (heb : 0 < f.eb) (h : roundsToward rm neg = true) : roundPattern f rm neg m e < f.top := by
  have := top_pos f heb
  rw [roundPattern_toward f m e h]
  omega

theorem magnitude_toward_le (hm : 0 < m) (h : roundsToward rm neg = true) :
    magnitude f (roundPattern f rm neg m e) ≤ m * 2 ^ e := by
  rw [magnitude_le_exact_iff f m e hm, roundPattern_toward f m e h]
  exact min_le_left ..

theorem magnitude_toward_greatest (hm : 0 < m) (h : roundsToward rm neg = true) {n : ℕ} (hn : n < f.top)
    (hle : magnitude f n ≤ m * 2 ^ e) : magnitude f n ≤ magnitude f (roundPattern f rm neg m e) := by
  rw [magnitude_le_exact_iff f m e hm] at hle
  rw [(magnitude_strictMono f).le_iff_le, roundPattern_toward f m e h]
  omega

theorem le_magnitude_away (hm : 0 < m) (hrm : rm ≠ .rne) (h : roundsToward rm neg = false)
    (hfin : roundPattern f rm neg m e < f.top) : (m : ℚ) * 2 ^ e ≤ magnitude f (roundPattern f rm neg m e) := by
  rw [exact_le_magnitude_iff f m e hm]
  rw [roundPattern_away f m e hrm h] at hfin ⊢
  omega

theorem magnitude_away_least (hm : 0 < m) (hrm : rm ≠ .rne) (h : roundsToward rm neg = false) {n : ℕ}
    (hle : (m : ℚ) * 2 ^ e ≤ magnitude f n) : magnitude f (roundPattern f rm neg m e) ≤ magnitude f n := by
  rw [exact_le_magnitude_iff f m e hm] at hle
  rw [(magnitude_strictMono f).le_iff_le, roundPattern_away f m e hrm h]
  exact (min_le_left ..).trans hle

theorem floor_nearer_iff (hm : 0 < m) :
    (m : ℚ) * 2 ^ e - magnitude f (floorPattern f m e) ≤ magnitude f (floorPattern f m e + 1) - m * 2 ^ e
      ↔ 2 * (units f m e).2.1 ≤ (units f m e).2.2 := by
  rw [exact_sub_floor f m e hm, ceil_sub_exact f m e hm, mul_le_mul_iff_left₀ (by positivity), le_sub_iff_add_le, fraction,
    ← add_div, div_le_one (unit_pos f m e), two_mul]
  exact mod_cast Iff.rfl

theorem ceil_nearer_iff (hm : 0 < m) :
    magnitude f (floorPattern f m e + 1) - m * 2 ^ e ≤ (m : ℚ) * 2 ^ e - magnitude f (floorPattern f m e)
      ↔ (units f m e).2.2 ≤ 2 * (units f m e).2.1 := by
  rw [exact_sub_floor f m e hm, ceil_sub_exact f m e hm, mul_le_mul_iff_left₀ (by positivity), sub_le_iff_le_add, fraction,
    ← add_div, one_le_div (unit_pos f m e), two_mul]
  exact mod_cast Iff.rfl

/-- The nearer end c of an interval around x lies no farther from x than any v outside it, and as near as another v only if x is the midpoint. -/
theorem nearer_end_nearest {lo x hi c v : ℚ} (hlo : lo ≤ x) (hhi : x ≤ hi) (hv : v ≤ lo ∨ hi ≤ v)
    (hc : c = lo ∧ x - lo ≤ hi - x ∨ c = hi ∧ hi - x ≤ x - lo) :
    |c - x| ≤ |v - x| ∧ (|c - x| = |v - x| → v ≠ c → x - lo = hi - x) := by
  have hout : x - lo ≤ |v - x| ∧ (x - lo = |v - x| → v = lo) ∨ hi - x ≤ |v - x| ∧ (hi - x = |v - x| → v = hi) := by
    refine hv.imp (fun h => ?_) fun h => ?_
    · rw [abs_of_nonpos (by linarith)]
      exact ⟨by linarith, fun h => by linarith⟩
    · rw [abs_of_nonneg (by linarith)]
      exact ⟨by linarith, fun h => by linarith⟩
  rcases hc with ⟨rfl, hnear⟩ | ⟨rfl, hnear⟩
  · rw [abs_of_nonpos (sub_nonpos.mpr hlo), neg_sub]
    rcases hout with ⟨hle, heq⟩ | ⟨hle, -⟩
    · exact ⟨hle, fun h hne => absurd (heq h) hne⟩
    · exact ⟨by linarith, fun h _ => by linarith⟩
  · rw [abs_of_nonneg (sub_nonneg.mpr hhi)]
    rcases hout with ⟨hle, -⟩ | ⟨hle, heq⟩
    · exact ⟨by linarith, fun h _ => by linarith⟩
    · exact ⟨hle, fun h hne => absurd (heq h) hne⟩

theorem floorPattern_mod_two (hfb : 0 < f.fb) : floorPattern f m e % 2 = (units f m e).1 % 2 := by
  obtain ⟨j, hj⟩ := Nat.exists_eq_succ_of_ne_zero hfb.ne'
  rw [floorPattern, pattern, hj, Nat.pow_succ, ← Nat.mul_assoc]
  omega

theorem magnitude_rne_nearest (hfb : 0 < f.fb) (hm : 0 < m) (hfin : roundPattern f .rne neg m e < f.top) (n : ℕ) :
    |magnitude f (roundPattern f .rne neg m e) - m * 2 ^ e| ≤ |magnitude f n - m * 2 ^ e|
    ∧ (|magnitude f (roundPattern f .rne neg m e) - m * 2 ^ e| = |magnitude f n - m * 2 ^ e| →
      magnitude f n ≠ magnitude f (roundPattern f .rne neg m e) → roundPattern f .rne neg m e % 2 = 0) := by
  have hmono := (magnitude_strictMono f).monotone
  have hv : magnitude f n ≤ magnitude f (floorPattern f m e) ∨ magnitude f (floorPattern f m e + 1) ≤ magnitude f n :=
    (Nat.lt_or_ge (floorPattern f m e) n).symm.imp (hmono ·) (hmono ·)
  have hfloor := floor_nearer_iff f e hm
  have hceil := ceil_nearer_iff f e hm
  have heven := floorPattern_mod_two f (m := m) e hfb
  have hends {c : ℚ} := nearer_end_nearest (c := c) (magnitude_floor_le f m e hm) (lt_magnitude_floor_succ f m e hm).le hv
  rcases roundPattern_rne f m e hfin with ⟨hround, hhalf, hpar⟩ | ⟨hround, hhalf, hpar⟩
  · rw [hround]
    obtain ⟨hle, htie⟩ := hends (.inl ⟨rfl, hfloor.mpr hhalf⟩)
    refine ⟨hle, fun heq hne => ?_⟩
    have := hceil.mp (htie heq hne).ge
    omega
  · rw [hround]
    obtain ⟨hle, htie⟩ := hends (.inr ⟨rfl, hceil.mpr hhalf⟩)
    refine ⟨hle, fun heq hne => ?_⟩
    have := hfloor.mp (htie heq hne).le
    omega

end

/-! ### The same with signs -/

theorem signed_not (neg : Bool) (a : ℚ) : signed (!neg) a = -signed neg a := by
  cases neg <;> simp [signed]

theorem abs_signed_sub_signed (neg : Bool) (a b : ℚ) : |signed neg a - signed neg b| = |a - b| := by
  cases neg
  · rfl
  · rw [signed, signed, if_pos rfl, if_pos rfl, neg_sub_neg, abs_sub_comm]

theorem abs_signed_sub_signed_not (neg : Bool) {a b : ℚ} (ha : 0 ≤ a) (hb : 0 ≤ b) : |signed (!neg) a - signed neg b| = a + b := by
  rw [signed_not, ← neg_add', abs_neg]
  cases neg
  · exact abs_of_nonneg (add_nonneg ha hb)
  · rw [signed, signed, if_pos rfl, if_pos rfl, ← neg_add, abs_neg, abs_of_nonneg (add_nonneg ha hb)]

theorem abs_sub_lt_add {a b : ℚ} (ha : 0 < a) (hb : 0 < b) : |a - b| < a + b :=
  abs_lt.mpr ⟨by linarith, by linarith⟩

/-- What lies nearest among the magnitudes lies nearest with the sign of x too: a value of the other sign is farther than its magnitude. -/
theorem signed_nearest {neg s : Bool} {p n x : ℚ} {even : Prop} (hn : 0 ≤ n) (hx : 0 < x)
    (hle : |p - x| ≤ |n - x|) (htie : |p - x| = |n - x| → n ≠ p → even) :
    |signed neg p - signed neg x| ≤ |signed s n - signed neg x|
    ∧ (|signed neg p - signed neg x| = |signed s n - signed neg x| → signed s n ≠ signed neg p → even) := by
  have hsame (h : signed s n = signed neg n) : |signed neg p - signed neg x| ≤ |signed s n - signed neg x|
      ∧ (|signed neg p - signed neg x| = |signed s n - signed neg x| → signed s n ≠ signed neg p → even) := by
    rw [h, abs_signed_sub_signed, abs_signed_sub_signed]
    exact ⟨hle, fun heq hne => htie heq fun hnp => hne (by rw [hnp])⟩
  rcases Bool.eq_or_eq_not s neg with rfl | rfl
  · exact hsame rfl
  rcases hn.eq_or_lt with rfl | hn
  · exact hsame (by simp [signed])
  have hfar := hle.trans_lt (abs_sub_lt_add hn hx)
  rw [abs_signed_sub_signed, abs_signed_sub_signed_not neg hn.le hx.le]
  exact ⟨hfar.le, fun heq => absurd heq hfar.ne⟩

/-- A positive magnitude rounded away from zero and a negative one rounded toward it are both the least value not below. -/
theorem signed_least {neg s : Bool} {p n x : ℚ} (hp : 0 ≤ p) (hn : 0 ≤ n) (hx : 0 < x)
    (haway : neg = false → x ≤ p ∧ (x ≤ n → p ≤ n)) (htoward : neg = true → p ≤ x ∧ (n ≤ x → n ≤ p)) :
    signed neg x ≤ signed neg p ∧ (signed neg x ≤ signed s n → signed neg p ≤ signed s n) := by
  cases neg
  case false =>
    obtain ⟨hxp, hleast⟩ := haway rfl
    cases s
    · exact ⟨hxp, hleast⟩
    · exact ⟨hxp, fun h => absurd (h.trans (neg_nonpos.mpr hn)) hx.not_ge⟩
  case true =>
    obtain ⟨hpx, hgreatest⟩ := htoward rfl
    cases s
    · exact ⟨neg_le_neg hpx, fun _ => (neg_nonpos.mpr hp).trans hn⟩
    · exact ⟨neg_le_neg hpx, fun h => neg_le_neg (hgreatest (neg_le_neg_iff.mp h))⟩

/-- The mirror image of `signed_least`. -/
theorem signed_greatest {neg s : Bool} {p n x : ℚ} (hp : 0 ≤ p) (hn : 0 ≤ n) (hx : 0 < x)
    (haway : neg = true → x ≤ p ∧ (x ≤ n → p ≤ n)) (htoward : neg = false → p ≤ x ∧ (n ≤ x → n ≤ p)) :
    signed neg p ≤ signed neg x ∧ (signed s n ≤ signed neg x → signed s n ≤ signed neg p) := by
  have h := signed_least (neg := !neg) (s := !s) hp hn hx (by simpa using haway) (by simpa using htoward)
  simpa only [signed_not, neg_le_neg_iff] using h

/-! ### `Round` in each mode -/

section
variable {f : Fmt} {m : ℕ} (neg : Bool) (e : ℤ) {y : ℕ}

theorem round_sign (rm : RMode) (hm : 0 < m) : (f.round rm neg m e false).bits / 2 ^ (f.eb + f.fb) = neg.toNat := by
  rw [round_bits f rm neg e hm, signBit_add_div f neg (roundPattern_lt f m e)]

theorem round_rne_nearest (hfb : 0 < f.fb) (hm : 0 < m) (hy : isFinite f y)
    (hfin : isFinite f (f.round .rne neg m e false).bits) :
    |valueOf f (f.round .rne neg m e false).bits - signed neg (m * 2 ^ e)| ≤ |valueOf f y - signed neg (m * 2 ^ e)|
    ∧ (|valueOf f (f.round .rne neg m e false).bits - signed neg (m * 2 ^ e)| = |valueOf f y - signed neg (m * 2 ^ e)| →
      valueOf f y ≠ valueOf f (f.round .rne neg m e false).bits → (f.round .rne neg m e false).bits % 2 = 0) := by
  have hlt := (isFinite_round_iff f e hm).mp hfin
  obtain ⟨hle, htie⟩ := magnitude_rne_nearest f e hfb hm hlt (y % 2 ^ (f.eb + f.fb))
  rw [valueOf_round f e hm hlt, valueOf_eq hy, round_bits_mod_two f e hfb hm]
  exact signed_nearest (magnitude_nonneg f _) (by positivity) hle htie

theorem round_rz_greatest (heb : 0 < f.eb) (hm : 0 < m) (hy : isFinite f y) :
    |valueOf f (f.round .rz neg m e false).bits| ≤ |signed neg (m * 2 ^ e)|
    ∧ (|valueOf f y| ≤ |signed neg (m * 2 ^ e)| → |valueOf f y| ≤ |valueOf f (f.round .rz neg m e false).bits|) := by
  have hrz : roundsToward .rz neg = true := rfl
  rw [valueOf_round f e hm (roundPattern_toward_lt_top f e heb hrz), valueOf_eq hy, abs_signed _ (magnitude_nonneg f _),
    abs_signed _ (magnitude_nonneg f _), abs_signed _ (by positivity)]
  exact ⟨magnitude_toward_le f e hm hrz, magnitude_toward_greatest f e hm hrz hy⟩

theorem round_ru_least (hm : 0 < m) (hy : isFinite f y) (hfin : isFinite f (f.round .ru neg m e false).bits) :
    signed neg (m * 2 ^ e) ≤ valueOf f (f.round .ru neg m e false).bits
    ∧ (signed neg (m * 2 ^ e) ≤ valueOf f y → valueOf f (f.round .ru neg m e false).bits ≤ valueOf f y) := by
  have hlt := (isFinite_round_iff f e hm).mp hfin
  rw [valueOf_round f e hm hlt, valueOf_eq hy]
  have hru : RMode.ru ≠ .rne := by decide
  refine signed_least (magnitude_nonneg f _) (magnitude_nonneg f _) (by positivity) (fun hpos => ?_) fun hneg => ?_
  · have haway : roundsToward .ru neg = false := hpos
    exact ⟨le_magnitude_away f e hm hru haway hlt, magnitude_away_least f e hm hru haway⟩
  · have htoward : roundsToward .ru neg = true := hneg
    exact ⟨magnitude_toward_le f e hm htoward, magnitude_toward_greatest f e hm htoward hy⟩

theorem round_rd_greatest (hm : 0 < m) (hy : isFinite f y) (hfin : isFinite f (f.round .rd neg m e false).bits) :
    valueOf f (f.round .rd neg m e false).bits ≤ signed neg (m * 2 ^ e)
    ∧ (valueOf f y ≤ signed neg (m * 2 ^ e) → valueOf f y ≤ valueOf f (f.round .rd neg m e false).bits) := by
  have hlt := (isFinite_round_iff f e hm).mp hfin
  rw [valueOf_round f e hm hlt, valueOf_eq hy]
  have hrd : RMode.rd ≠ .rne := by decide
  refine signed_greatest (magnitude_nonneg f _) (magnitude_nonneg f _) (by positivity) (fun hneg => ?_) fun hpos => ?_
  · have haway : roundsToward .rd neg = false := by rw [hneg]; rfl
    exact ⟨le_magnitude_away f e hm hrd haway hlt, magnitude_away_least f e hm hrd haway⟩
  · have htoward : roundsToward .rd neg = true := by rw [hpos]; rfl
    exact ⟨magnitude_toward_le f e hm htoward, magnitude_toward_greatest f e hm htoward hy⟩

end

theorem fields_pos : ∀ f ∈ [Fmt.f16, Fmt.bf16, Fmt.f32, Fmt.f64], 0 < f.eb ∧ 0 < f.fb := by decide

/-- Settles O14: the exact magnitude lies between two successive patterns, each mode takes one of them, and magnitudes grow with their patterns. -/
theorem roundingPicksTheNearestValue : Obligations.RoundingPicksTheNearestValue := by
  unfold Obligations.RoundingPicksTheNearestValue
  intro f hf neg m e y x hm hy hx
  obtain ⟨heb, hfb⟩ := fields_pos f hf
  rw [signed_mul] at hx
  subst hx
  exact ⟨fun rm => round_sign neg e rm hm, round_rne_nearest neg e hfb hm hy, round_rz_greatest neg e heb hm hy,
    round_ru_least neg e hm hy, round_rd_greatest neg e hm hy⟩

end Sys2Proof.Rounding

/-! What device reset leaves (01 R11, 17 R349): every table is empty, so each look-up reads its reset value. -/

namespace Sys2Proof.Reset
open Sys2Proof.Machine

theorem reset_clocksKept : State.reset.clocksKept := fun _ he => nomatch he
theorem reset_readByte (l : Nat) : State.reset.readByte l = 0 := rfl
theorem reset_core (n : Nat) : State.reset.core n = Core.reset := rfl
theorem reset_context (n : Nat) : State.reset.context n = Context.reset := rfl

theorem reset_heldAt (l : Nat) : State.reset.heldAt l = false := by
  unfold State.heldAt
  cases Ops.pchOf l with
  | none => rfl
  | some p => rfl

/-- Nothing is due at reset and no group can issue: the first step is a cycle that passes. -/
theorem step_reset : step State.reset = .next (State.settleStep State.reset.tick) := rfl

/-- Settles O45: every table of the reset state is empty, so what is looked up reads its reset value, and the step from it is a cycle of the clock. -/
theorem resetState : Obligations.ResetState := by
  unfold Obligations.ResetState
  refine ⟨State.reset_memoryKept, reset_clocksKept, rfl, rfl, rfl, reset_readByte, fun n => ?_, fun n => ?_, rfl, rfl, rfl, _, step_reset⟩
  · rw [reset_core]
    exact ⟨rfl, rfl, rfl, rfl, rfl⟩
  · rw [reset_context]
    exact ⟨rfl, rfl, rfl, rfl, rfl, rfl, reset_heldAt n⟩

end Sys2Proof.Reset

/-! What a register write and a mask write reach (01 R21, 04 R73, R75): each elementary write of a group said once, as what every register reads
after it; the folds that `putRegs` and `putMask` run are then inductions over their lists. -/

namespace Sys2Proof.RegisterWrites

open Sys2Proof.Machine Sys2Proof.Claims

/-! ### Slices -/

/-- A slice of the group after a change of a set of slices. -/
theorem slice_onSlices {g : Group} {i : Nat} (hi : i < g.slices.length) (set : SliceSet) (f : Nat → Slice → Slice) :
    (g.onSlices set f).slice i = if set.getLsbD i = true then f i (g.slice i) else g.slice i := by
  simp [Group.slice, Group.onSlices, List.getD_eq_getElem?_getD, hi]

@[simp] theorem onSlices_length (g : Group) (set : SliceSet) (f : Nat → Slice → Slice) : (g.onSlices set f).slices.length = g.slices.length := by
  simp [Group.onSlices]

@[simp] theorem onSlices_handler (g : Group) (set : SliceSet) (f : Nat → Slice → Slice) : (g.onSlices set f).handler = g.handler := rfl

/-- The group a state lists under a name after a change of that group. -/
theorem find_onGroup {s : State} {n : Nat} {g : Group} (h : Tab.find s.groups n = some g) (f : Group → Group) :
    Tab.find (s.onGroup n f).groups n = some (f g) := Tab.find_change_same s.groups n f g h

/-! ### Writes of v registers -/

theorem readV_writeV (g : Group) (r k : Nat) {l m : Nat} (hl : l < 128) (hm : m < 128) (x : Word) :
    (g.writeV r m x).readV k l = if l = m ∧ k = r then x else g.readV k l := by
  simp only [Group.readV, Group.writeV, Tab.get_set]
  congr 1
  exact propext ⟨fun _ => by omega, fun _ => by omega⟩

theorem readS_writeV (g : Group) (r m : Nat) (x : Word) (i k : Nat) : (g.writeV r m x).readS i k = g.readS i k := rfl

/-- A value of the list at `zipIdx` offset n. -/
theorem getD_cons_sub {α : Type} (w d : α) (ws : List α) {k n : Nat} (h : n < k) : (w :: ws).getD (k - n) d = ws.getD (k - (n + 1)) d := by
  obtain ⟨j, rfl⟩ := Nat.exists_eq_add_of_lt h
  simp [show n + j + 1 - n = j + 1 by omega, show n + j + 1 - (n + 1) = j by omega]

/-- Consecutive v registers of one lane written. -/
theorem readV_writeLane (ws : List Word) (n : Nat) (g : Group) (r k : Nat) {l m : Nat} (hl : l < 128) (hm : m < 128) :
    (each (ws.zipIdx n) (fun w g => g.writeV (r + w.2) m w.1) g).readV k l =
      if l = m ∧ r + n ≤ k ∧ k < r + n + ws.length then ws.getD (k - (r + n)) 0 else g.readV k l := by
  induction ws generalizing n g with
  | nil => simp only [List.zipIdx_nil, each_nil, List.length_nil]; rw [if_neg (by omega)]
  | cons w ws ih =>
    simp only [List.zipIdx_cons, each_cons, ih, readV_writeV g _ k hl hm, List.length_cons]
    by_cases hlm : l = m
    · by_cases hk : k = r + n
      · rw [if_neg (by omega), if_pos ⟨hlm, hk⟩, if_pos (by omega), hk, Nat.sub_self, List.getD_cons_zero]
      · by_cases hin : r + n < k ∧ k < r + n + (ws.length + 1)
        · rw [if_pos (by omega), if_pos (by omega), getD_cons_sub w 0 ws hin.1, Nat.add_assoc]
        · rw [if_neg (by omega), if_neg (by omega), if_neg (by omega)]
    · rw [if_neg (fun h => hlm h.1), if_neg (fun h => hlm h.1), if_neg (fun h => hlm h.1)]

/-- Consecutive v registers of several lanes written, each lane with its own values. -/
theorem readV_writeLanes (ls : List Nat) (hls : ∀ m ∈ ls, m < 128) (xs : Nat → List Word) (g : Group) (r k : Nat) {l : Nat} (hl : l < 128) :
    (each ls (fun m g => each (xs m).zipIdx (fun w g => g.writeV (r + w.2) m w.1) g) g).readV k l =
      if l ∈ ls ∧ r ≤ k ∧ k < r + (xs l).length then (xs l).getD (k - r) 0 else g.readV k l := by
  induction ls generalizing g with
  | nil => simp
  | cons m ls ih =>
    have hm := hls m List.mem_cons_self
    rw [each_cons, ih (fun m hm => hls m (List.mem_cons_of_mem _ hm)), readV_writeLane (xs m) 0 g r k hl hm]
    by_cases hlm : l = m
    · subst hlm
      by_cases hin : r ≤ k ∧ k < r + (xs l).length <;> simp [hin]
    · simp [hlm]

theorem readS_writeLanes (ls : List Nat) (xs : Nat → List Word) (g : Group) (r i k : Nat) :
    (each ls (fun m g => each (xs m).zipIdx (fun w g => g.writeV (r + w.2) m w.1) g) g).readS i k = g.readS i k :=
  each_induction (P := fun h => h.readS i k = g.readS i k) ls _ g rfl fun m h hh =>
    each_induction (P := fun h => h.readS i k = g.readS i k) (xs m).zipIdx _ h hh fun w h hh => (readS_writeV h _ m w.1 i k).trans hh

/-! ### Writes of s registers -/

@[simp] theorem readS_zero (g : Group) (i : Nat) : g.readS i 0 = 0 := rfl

/-- The copies of an s register of a slice, changed where they stand in the slices. -/
theorem readS_onSlices_set {g : Group} {i j : Nat} (hi : i < g.slices.length) (hj : j < 32) {r k : Nat} (hk : k ≠ 0) (x : Word)
    (hplain : ∀ h, g.handler = some h → ¬ (h.h.getLsbD i = true ∧ 24 ≤ k ∧ k ≤ 27) ∨ ¬ (i = j ∧ k = r)) :
    (g.onSlices (bitSet 32 (· == j)) fun _ sl => { sl with s := Tab.set 0 sl.s r x }).readS i k = if i = j ∧ k = r then x else g.readS i k := by
  have hslice : Tab.get 0 ((g.onSlices (bitSet 32 (· == j)) fun _ sl => { sl with s := Tab.set 0 sl.s r x }).slice i).s k
      = if i = j ∧ k = r then x else Tab.get 0 (g.slice i).s k := by
    rw [slice_onSlices hi, getLsbD_bitSet]
    by_cases hij : i = j
    · subst hij
      simp [hj, Tab.get_set]
    · simp [hij]
  simp only [Group.readS, hk, if_false, onSlices_handler, hslice]
  cases hg : g.handler with
  | none => rfl
  | some h =>
    by_cases hb : (h.h.getLsbD i && decide (24 ≤ k) && decide (k ≤ 27)) = true
    · have hn : ¬ (i = j ∧ k = r) := by
        simp only [Bool.and_eq_true, decide_eq_true_eq, and_assoc] at hb
        exact (hplain h hg).resolve_left fun hc => hc hb
      simp only [hb, if_true, hn, if_false]
    · simp only [hb]
      rfl

/-- An s register of one slice written: its banked copy in a handler's slices, else the slice's own; s0 discarded. -/
theorem readS_writeS1 {g : Group} {i j : Nat} (hi : i < g.slices.length) (hj : j < 32) (r k : Nat) (x : Word) :
    (g.writeS1 j r x).readS i k = if i = j ∧ k = r ∧ k ≠ 0 then x else g.readS i k := by
  by_cases hk : k = 0
  · subst hk; simp
  by_cases hr : r = 0
  · subst hr; simp [Group.writeS1, hk]
  simp only [ne_eq, hk, not_false_eq_true, and_true]
  unfold Group.writeS1
  rw [if_neg hr]
  cases hg : g.handler with
  | none => exact readS_onSlices_set hi hj hk x fun h hh => by rw [hg] at hh; cases hh
  | some h =>
    dsimp only
    split
    next hb =>
      simp only [Bool.and_eq_true, decide_eq_true_eq, and_assoc] at hb
      simp only [Group.readS, hk, if_false, hg, Tab.get_set]
      by_cases hb' : (h.h.getLsbD i && decide (24 ≤ k) && decide (k ≤ 27)) = true
      · simp only [hb', if_true]
        simp only [Bool.and_eq_true, decide_eq_true_eq, and_assoc] at hb'
        congr 1
        exact propext ⟨fun _ => by omega, fun _ => by omega⟩
      · have hn : ¬ (i = j ∧ k = r) := by
          rintro ⟨rfl, rfl⟩
          exact hb' (by simpa [and_assoc] using hb)
        simp only [hb', hn, if_false]
        rfl
    next hb =>
      refine readS_onSlices_set hi hj hk x fun h' hh => ?_
      obtain rfl : h = h' := by rw [hg] at hh; exact Option.some.inj hh
      refine Classical.or_iff_not_imp_right.2 fun hn hc => ?_
      obtain ⟨rfl, rfl⟩ := not_not.1 hn
      exact hb (by simpa [and_assoc] using hc)

@[simp] theorem writeS1_length (g : Group) (j r : Nat) (x : Word) : (g.writeS1 j r x).slices.length = g.slices.length := by
  unfold Group.writeS1
  split
  · rfl
  · dsimp only
    split
    · split
      · rfl
      · exact onSlices_length g _ _
    · exact onSlices_length g _ _

@[simp] theorem writeS_length (g : Group) (set : SliceSet) (r : Nat) (x : Word) : (g.writeS set r x).slices.length = g.slices.length :=
  each_induction (P := fun h => h.slices.length = g.slices.length) _ _ g rfl fun j h hh => (writeS1_length h j r x).trans hh

theorem readS_writeSlices (js : List Nat) (hjs : ∀ j ∈ js, j < 32) {g : Group} {i : Nat} (hi : i < g.slices.length) (r k : Nat) (x : Word) :
    (each js (fun j g => g.writeS1 j r x) g).readS i k = if i ∈ js ∧ k = r ∧ k ≠ 0 then x else g.readS i k := by
  induction js generalizing g with
  | nil => simp
  | cons j js ih =>
    rw [each_cons, ih (fun j hj => hjs j (List.mem_cons_of_mem _ hj)) (by simpa using hi), readS_writeS1 hi (hjs j List.mem_cons_self)]
    by_cases hij : i = j
    · subst hij
      by_cases hkr : k = r ∧ k ≠ 0 <;> grind
    · simp [hij]

/-- A write by a split: the copies of every slice of the split and no other. -/
theorem readS_writeS {g : Group} {i : Nat} (hi : i < g.slices.length) (set : SliceSet) (r k : Nat) (x : Word) :
    (g.writeS set r x).readS i k = if set.getLsbD i = true ∧ k = r ∧ k ≠ 0 then x else g.readS i k := by
  unfold Group.writeS
  rw [readS_writeSlices _ (fun j hj => BitVec.lt_of_getLsbD ((mem_members set).1 hj)) hi]
  simp only [mem_members]

theorem readV_writeS (g : Group) (set : SliceSet) (r : Nat) (x : Word) (k l : Nat) : (g.writeS set r x).readV k l = g.readV k l := by
  refine each_induction (P := fun h => h.readV k l = g.readV k l) _ _ g rfl fun j h hh => Eq.trans ?_ hh
  unfold Group.writeS1
  split
  · rfl
  · dsimp only
    split
    · split <;> rfl
    · rfl

/-- Consecutive s registers written by a split, from number r of the operand numbering on. -/
theorem readS_writeRun (ws : List Word) (n : Nat) {g : Group} {i : Nat} (hi : i < g.slices.length) (set : SliceSet) {r : Nat} (hr : 96 ≤ r) (k : Nat) :
    (each (ws.zipIdx n) (fun w g => g.writeS set (r + w.2 - 96) w.1) g).readS i k =
      if k = 0 then 0 else if r + n ≤ k + 96 ∧ k + 96 < r + n + ws.length ∧ set.getLsbD i = true then ws.getD (k + 96 - (r + n)) 0 else g.readS i k := by
  by_cases hk : k = 0
  · subst hk; simp
  simp only [hk, if_false]
  induction ws generalizing n g with
  | nil => simp only [List.zipIdx_nil, each_nil, List.length_nil]; rw [if_neg (by omega)]
  | cons w ws ih =>
    simp only [List.zipIdx_cons, each_cons, List.length_cons]
    rw [ih (n + 1) (by simpa using hi), readS_writeS hi]
    by_cases hset : set.getLsbD i = true
    · by_cases hn : k + 96 = r + n
      · rw [if_neg (by omega), if_pos ⟨hset, by omega, hk⟩, if_pos ⟨by omega, by omega, hset⟩, hn, Nat.sub_self, List.getD_cons_zero]
      · by_cases hin : r + n < k + 96 ∧ k + 96 < r + n + (ws.length + 1)
        · rw [if_pos ⟨by omega, by omega, hset⟩, if_pos ⟨by omega, by omega, hset⟩, getD_cons_sub w 0 ws hin.1, Nat.add_assoc]
        · rw [if_neg (by omega), if_neg (by omega), if_neg (by omega)]
    · rw [if_neg (fun h => hset h.2.2), if_neg (fun h => hset h.1), if_neg (fun h => hset h.2.2)]

theorem readV_writeRun (ws : List Word) (g : Group) (set : SliceSet) (r k l : Nat) :
    (each ws.zipIdx (fun w g => g.writeS set (r + w.2 - 96) w.1) g).readV k l = g.readV k l :=
  each_induction (P := fun h => h.readV k l = g.readV k l) _ _ g rfl fun w h hh => (readV_writeS h set _ w.1 k l).trans hh

theorem registerWriteReach_holds : registerWriteReach := by
  unfold registerWriteReach
  intro s c r xs g hg
  refine ⟨_, find_onGroup hg _, fun hr => ?_, fun hr => ?_⟩
  · rw [if_pos hr]
    refine ⟨fun k l hl => ?_, fun i k => readS_writeLanes _ xs g r i k⟩
    rw [readV_writeLanes _ (fun m hm => BitVec.lt_of_getLsbD ((mem_members c.exec).1 hm)) xs g r k hl]
    simp only [mem_members, and_comm, and_assoc]
  · rw [if_neg (by omega)]
    exact ⟨fun k l => readV_writeRun _ g c.u.slices r k l, fun i k hi => readS_writeRun (xs 0) 0 hi c.u.slices hr k⟩

/-! ### Writes of mask registers -/

theorem readM_writeM_of_pos (g : Group) (set : SliceSet) {k : Nat} (hk : 0 < k) (x e : LaneSet) (j : Nat) :
    (g.writeM set k x).readM e j = if j = k then (g.readM e k &&& ~~~g.lanesOf set) ||| (x &&& g.lanesOf set) else g.readM e j := by
  have hk0 : k ≠ 0 := by omega
  simp only [Group.readM, Group.writeM, hk0, if_false, Tab.get_set]
  by_cases hj : j = 0
  · subst hj
    simp [hk0.symm]
  · simp [hj]

theorem writeM_slices_of_pos (g : Group) (set : SliceSet) {k : Nat} (hk : 0 < k) (x : LaneSet) : (g.writeM set k x).slices = g.slices := by
  simp [Group.writeM, Nat.ne_of_gt hk]

theorem writeM_zero_m (g : Group) (set : SliceSet) (x : LaneSet) : (g.writeM set 0 x).m = g.m := rfl

theorem slice_writeM_zero {g : Group} {i : Nat} (hi : i < g.slices.length) (set : SliceSet) (x : LaneSet) :
    (g.writeM set 0 x).slice i = if set.getLsbD i = true then
      (g.slice i).onSeq fun q => { q with a := laneNib x i &&& (g.slice i).freeLanes, m := q.m ||| (laneNib x i &&& (g.slice i).freeLanes) }
      else g.slice i := slice_onSlices hi set _

theorem maskWriteReach_holds : maskWriteReach := by
  unfold maskWriteReach
  intro s c k x g hg
  refine ⟨_, find_onGroup hg _, fun hk => ?_, fun hk => ?_⟩
  · refine ⟨fun e => ?_, fun e j hj => ?_, writeM_slices_of_pos g _ hk x⟩
    · rw [readM_writeM_of_pos g _ hk, if_pos rfl]
    · rw [readM_writeM_of_pos g _ hk, if_neg hj]
  · subst hk
    refine ⟨writeM_zero_m g _ x, fun i hi => ?_⟩
    rw [slice_writeM_zero hi]
    split <;> exact ⟨rfl, rfl⟩

/-- Settles O49: the elementary writes of a group, folded over the lanes, slices and registers of the write. -/
theorem registerAndMaskWrites : Obligations.RegisterAndMaskWrites := ⟨registerWriteReach_holds, maskWriteReach_holds⟩

end Sys2Proof.RegisterWrites

/-! What every step keeps (01 R11, 07 R133): the clocks of the cores within their range, and the memory in its canonical form.

`s.Keeps t` says that t has whichever of the two s has. It is reflexive and transitive, and every operation of the model carries
it from the state it works on to the state it leaves; one lemma an operation says so, named after it, so that a proof about an
operation is the chain of the operations it is made of. -/

namespace Sys2Proof.Machine

/-- t keeps the invariants of s. -/
structure State.Keeps (s t : State) : Prop where
  memory : s.memoryKept → t.memoryKept
  clocks : s.clocksKept → t.clocksKept

/-- The clock is within its range (01 R11). -/
abbrev Core.inRange (k : Core) : Prop := 940 ≤ k.clock ∧ k.clock ≤ 1080

theorem Tab.mem_erase {β : Type} {t : Tab β} {n : Nat} {e : Nat × β} (h : e ∈ Tab.erase t n) : e ∈ t := by
  rw [Tab.erase_eq_filter] at h
  exact List.mem_of_mem_filter h

theorem Tab.mem_of_find {β : Type} {t : Tab β} {n : Nat} {v : β} (h : Tab.find t n = some v) : (n, v) ∈ t := by
  induction t with
  | nil => cases h
  | cons e t ih =>
    obtain ⟨k, w⟩ := e
    by_cases hk : k = n
    · obtain rfl : w = v := by simpa [Tab.find, hk] using h
      exact hk ▸ List.mem_cons_self
    · exact List.mem_cons_of_mem _ (ih (by simpa [Tab.find, hk] using h))

theorem Tab.mem_set {β : Type} [DecidableEq β] {d : β} {t : Tab β} {n : Nat} {v : β} {e : Nat × β} (h : e ∈ Tab.set d t n v) :
    e = (n, v) ∨ e ∈ t := by
  unfold Tab.set at h
  split at h
  · exact .inr (Tab.mem_erase h)
  · exact ((Tab.mem_ins _ n v e).1 h).imp_right Tab.mem_erase

/-- A core as it is looked up: one of those listed, or as after reset. -/
theorem State.core_inRange {s : State} (h : s.clocksKept) (n : Nat) : (s.core n).inRange := by
  unfold State.core Tab.get
  cases hf : Tab.find s.cores n with
  | none => decide
  | some k => exact h (n, k) (Tab.mem_of_find hf)

namespace State.Keeps

variable {s t u : State}

/-! ### States that differ in other fields -/

protected theorem refl (s : State) : s.Keeps s := ⟨id, id⟩

protected theorem trans (h : s.Keeps t) (h' : t.Keeps u) : s.Keeps u := ⟨h'.memory ∘ h.memory, h'.clocks ∘ h.clocks⟩

theorem of_eq (h : s.Keeps t) (hmem : u.mem = t.mem) (hcores : u.cores = t.cores) : s.Keeps u where
  memory hs := by unfold State.memoryKept; rw [hmem]; exact h.memory hs
  clocks hs := by unfold State.clocksKept; rw [hcores]; exact h.clocks hs

/-- A record update of other fields than the memory and the cores. -/
theorem upd {cycle awake free oracle inputs nextId cur stepB0 mem l2way cores sectorTlb walkCache contexts groups blocks clusters launches queues
    devQueues lastServed launchReqs counters net podQ replies waypoints probes poisons pchannels device routes paused retries collectives ltol rest
    idleFrom wake progress trial soundings logRegs logHead logDrops dirty replicas invals measure extCount resets answers units stowage}
    (h : s.Keeps t) (hmem : mem = t.mem) (hcores : cores = t.cores) :
    s.Keeps (.mk cycle awake free oracle inputs nextId cur stepB0 mem l2way cores sectorTlb walkCache contexts groups blocks clusters launches queues
      devQueues lastServed launchReqs counters net podQ replies waypoints probes poisons pchannels device routes paused retries collectives ltol rest
      idleFrom wake progress trial soundings logRegs logHead logDrops dirty replicas invals measure extCount resets answers units stowage) :=
  h.of_eq hmem hcores

theorem onGroup {n f} (h : s.Keeps t) : s.Keeps (t.onGroup n f) := h.of_eq rfl rfl
theorem onBlock {n f} (h : s.Keeps t) : s.Keeps (t.onBlock n f) := h.of_eq rfl rfl
theorem onLaunch {n f} (h : s.Keeps t) : s.Keeps (t.onLaunch n f) := h.of_eq rfl rfl
theorem onCluster {n f} (h : s.Keeps t) : s.Keeps (t.onCluster n f) := h.of_eq rfl rfl
theorem onUnit {n f} (h : s.Keeps t) : s.Keeps (t.onUnit n f) := h.of_eq rfl rfl
theorem onContext {n f} (h : s.Keeps t) : s.Keeps (t.onContext n f) := h.of_eq rfl rfl
theorem onQueue {n f} (h : s.Keeps t) : s.Keeps (t.onQueue n f) := h.of_eq rfl rfl
theorem onPchannel {n f} (h : s.Keeps t) : s.Keeps (t.onPchannel n f) := h.of_eq rfl rfl
theorem fresh (h : s.Keeps t) : s.Keeps t.fresh.2 := h.of_eq rfl rfl

theorem ite {p : Prop} {_ : Decidable p} {a b : State} (ha : s.Keeps a) (hb : s.Keeps b) : s.Keeps (if p then a else b) := by
  split <;> assumption

/-- What each step of a fold keeps, the fold keeps. -/
theorem each {α : Type} {l : List α} {f : α → State → State} (h : s.Keeps t) (hf : ∀ a u, s.Keeps u → s.Keeps (f a u)) : s.Keeps (each l f t) :=
  each_induction l f t h hf

/-! ### States that differ in the cores -/

/-- A change of a core that leaves its clock in its range. -/
theorem onCore_inRange {n f} (h : s.Keeps t) (hf : ∀ k : Core, k.inRange → (f k).inRange) : s.Keeps (t.onCore n f) where
  memory := h.memory
  clocks hs e he := by
    rcases Tab.mem_set he with rfl | he
    · exact hf _ (State.core_inRange (h.clocks hs) n)
    · exact h.clocks hs e he

/-- A change of a core that leaves its clock alone. -/
theorem onCore {n f} (h : s.Keeps t) (hf : ∀ k : Core, (f k).clock = k.clock) : s.Keeps (t.onCore n f) :=
  h.onCore_inRange fun k hk => by unfold Core.inRange; rw [hf k]; exact hk

/-- A change of every core that leaves the clocks alone. -/
theorem eachCore {f : Nat → Core → Core} (h : s.Keeps t) (hmem : u.mem = t.mem) (hcores : u.cores = Tab.each t.cores f)
    (hf : ∀ n k, (f n k).clock = k.clock) : s.Keeps u where
  memory hs := by unfold State.memoryKept; rw [hmem]; exact h.memory hs
  clocks hs e he := by
    rw [hcores] at he
    obtain ⟨x, hx, rfl⟩ := List.mem_map.1 he
    show Core.inRange (f x.1 x.2)
    unfold Core.inRange
    rw [hf]
    exact h.clocks hs x hx

/-! ### States that differ in the memory -/

theorem writeByte {l b} (h : s.Keeps t) : s.Keeps (t.writeByte l b) := ⟨fun hs => State.writeByte_kept l b (h.memory hs), h.clocks⟩

theorem writeBytes {cells} (h : s.Keeps t) : s.Keeps (t.writeBytes cells) := h.each fun _ _ h => h.writeByte

theorem writeNat {l n v} (h : s.Keeps t) : s.Keeps (t.writeNat l n v) := h.writeBytes

/-- A part of the memory that reads 0 from now on. -/
theorem filterMem {p : Nat × Byte → Bool} (h : s.Keeps t) (hmem : u.mem = t.mem.filter p) (hcores : u.cores = t.cores) : s.Keeps u where
  memory hs := by unfold State.memoryKept; rw [hmem]; exact State.filter_kept p (h.memory hs)
  clocks hs := by unfold State.clocksKept; rw [hcores]; exact h.clocks hs

/-! ### Waypoint keys -/

theorem settleKey {key} (h : s.Keeps t) : s.Keeps (t.settleKey key) := by
  unfold State.settleKey
  split
  · exact h
  · dsimp only
    exact .ite (h.upd rfl rfl) (by split <;> exact h.of_eq rfl rfl)

theorem undoKey {gid op frees lk} (h : s.Keeps t) : s.Keeps (t.undoKey gid op frees lk) := by
  unfold State.undoKey
  split
  · exact h
  · refine .settleKey ?_
    split <;> exact h.of_eq rfl rfl

theorem dropKeys {gid op frees keys} (h : s.Keeps t) : s.Keeps (t.dropKeys gid op frees keys) :=
  .upd (.each (h.upd rfl rfl) fun _ _ h => h.undoKey) rfl rfl

theorem withdrawKeys {gid op keys} (h : s.Keeps t) : s.Keeps (t.withdrawKeys gid op keys) := h.dropKeys
theorem announce {gid lanes} (h : s.Keeps t) : s.Keeps (t.announce gid lanes) := h.of_eq rfl rfl
theorem withdrawWayin {gid op w} (h : s.Keeps t) : s.Keeps (t.withdrawWayin gid op w) := h.withdrawKeys.onGroup
theorem endWay {gid op} (h : s.Keeps t) : s.Keeps (t.endWay gid op) := h.onGroup

/-! ### Barriers, regrouping and the end of a group -/

theorem setTimer {gid} (h : s.Keeps t) : s.Keeps (t.setTimer gid) := h.onGroup
theorem wakeBlock {b p} (h : s.Keeps t) : s.Keeps (t.wakeBlock b p) := h.of_eq rfl rfl

theorem settleBarrier {b i} (h : s.Keeps t) : s.Keeps (t.settleBarrier b i) := by
  unfold State.settleBarrier
  split
  · exact h
  · exact .ite h.onBlock.wakeBlock h

theorem acquireBlocks {bs} (h : s.Keeps t) : s.Keeps (t.acquireBlocks bs) :=
  h.each fun _ _ h => by
    split
    · exact h.onCore fun _ => rfl
    · exact h

theorem settleCluster {cl i} (h : s.Keeps t) : s.Keeps (t.settleCluster cl i) := by
  unfold State.settleCluster
  split
  · exact h
  · exact .ite (h.onCluster.each fun _ _ h => h.wakeBlock).acquireBlocks h

theorem settleGrid {l} (h : s.Keeps t) : s.Keeps (t.settleGrid l) := by
  unfold State.settleGrid
  split
  · exact h
  · exact .ite (h.onLaunch.each fun _ _ h => h.wakeBlock).acquireBlocks h

theorem settleRegroup {b} (h : s.Keeps t) : s.Keeps (t.settleRegroup b) := by
  unfold State.settleRegroup
  exact .ite h (h.each fun _ _ h => h.onGroup)

theorem noteHanded {b} (h : s.Keeps t) : s.Keeps (t.noteHanded b) := by
  unfold State.noteHanded
  split
  · exact h
  · split
    · exact h
    · exact .ite h.onUnit h

theorem settleEnd {b} (h : s.Keeps t) : s.Keeps (t.settleEnd b) := by
  unfold State.settleEnd
  dsimp only
  split
  · exact h.noteHanded.settleRegroup
  · exact (h.noteHanded.settleRegroup.settleBarrier.each fun _ _ h => h.settleCluster).settleGrid

/-! ### Stops, kills and traps -/

theorem stopWaits {gid} (h : s.Keeps t) : s.Keeps (t.stopWaits gid) := by
  unfold State.stopWaits
  split
  · exact h
  · exact (h.each fun _ _ h => h.withdrawWayin).onGroup

theorem killGroup {gid} (h : s.Keeps t) : s.Keeps (t.killGroup gid) := by
  unfold State.killGroup
  split
  · exact h
  · exact .settleEnd (.onGroup (.onCore (.announce (.each h fun _ _ h => h.dropKeys)) fun _ => rfl))

theorem reportKill {g k} (h : s.Keeps t) : s.Keeps (t.reportKill g k) := by
  unfold State.reportKill
  split
  · exact h
  · exact h.onLaunch

theorem tryEnter {gid} (h : s.Keeps t) : s.Keeps (t.tryEnter gid) := by
  unfold State.tryEnter
  split
  · exact h
  · split
    · exact h
    · exact .ite h (.ite h.reportKill.killGroup (.ite h.stopWaits.fresh.onGroup h))

theorem stopFor {gid x} (h : s.Keeps t) : s.Keeps (t.stopFor gid x) := (Keeps.ite h.stopWaits h).onGroup

theorem deliverTrap {gid g x} (h : s.Keeps t) : s.Keeps (t.deliverTrap gid g x) := by
  unfold State.deliverTrap
  split
  · exact h.stopFor
  · exact h.onGroup.withdrawKeys.endWay.stopFor

theorem presentTrapAt {gid x op born} (h : s.Keeps t) : s.Keeps (t.presentTrapAt gid x op born) := by
  unfold State.presentTrapAt
  split
  · exact h
  · dsimp only
    split
    · exact h
    · split
      · exact .ite h.reportKill.killGroup h.onGroup
      · split
        · exact .ite h.onGroup.stopFor h.onGroup
        · exact .ite h.onGroup h.deliverTrap

theorem presentTrap {gid x op} (h : s.Keeps t) : s.Keeps (t.presentTrap gid x op) := h.presentTrapAt

theorem linkUsed {gid cause} (h : s.Keeps t) : s.Keeps (t.linkUsed gid cause) := by
  unfold State.linkUsed
  split
  · split
    · exact h.onCore fun _ => rfl
    · exact h
  · exact h

theorem advance {u} (h : s.Keeps t) : s.Keeps (t.advance u) := h.onGroup

/-! ### Writes of registers, masks and flags -/

theorem putRegs {c r xs} (h : s.Keeps t) : s.Keeps (t.putRegs c r xs) := h.onGroup
theorem putMask {c k x} (h : s.Keeps t) : s.Keeps (t.putMask c k x) := h.onGroup
theorem orFlags {c flags} (h : s.Keeps t) : s.Keeps (t.orFlags c flags) := h.onGroup

end State.Keeps

/-! ### What an answer keeps -/

/-- A next state, where there is one, keeps the invariants of s. -/
def State.KeptBy (s : State) (o : Host.Outcome State Fault Refusal) : Prop := ∀ t, o = .next t → s.Keeps t

/-- So does every state that what a word comes to names. -/
def State.KeptByRes (s : State) : Res → Prop
  | .ok t => s.Keeps t
  | .jump t => s.Keeps t
  | .stall => True
  | .trap _ => True
  | .trapWalked t _ => s.Keeps t

theorem State.KeptBy.next {s t : State} (h : s.Keeps t) : s.KeptBy (.next t) := fun _ ht => Host.Outcome.next.inj ht ▸ h

theorem State.KeptBy.fault {s : State} {r : Fault} : s.KeptBy (.fault r) := fun _ ht => nomatch ht

/-- An answer that leaves the state as it is. -/
theorem State.KeptBy.same {s : State} : s.KeptBy (.next s) := .next (.refl s)

theorem State.KeptByRes.ok {s t : State} (h : s.Keeps t) : s.KeptByRes (.ok t) := h
theorem State.KeptByRes.jump {s t : State} (h : s.Keeps t) : s.KeptByRes (.jump t) := h
theorem State.KeptByRes.stall {s : State} : s.KeptByRes .stall := trivial
theorem State.KeptByRes.trap {s : State} {x : Trap} : s.KeptByRes (.trap x) := trivial
theorem State.KeptByRes.trapWalked {s t : State} {x : Trap} (h : s.Keeps t) : s.KeptByRes (.trapWalked t x) := h

theorem State.KeptBy.ite {s : State} {p : Prop} {_ : Decidable p} {a b : Host.Outcome State Fault Refusal} (ha : s.KeptBy a) (hb : s.KeptBy b) :
    s.KeptBy (if p then a else b) := by
  split <;> assumption

theorem State.KeptByRes.ite {s : State} {p : Prop} {_ : Decidable p} {a b : Res} (ha : s.KeptByRes a) (hb : s.KeptByRes b) :
    s.KeptByRes (if p then a else b) := by
  split <;> assumption

namespace Ops

variable {s : State}

theorem check_kept (sig : Sig) (c : Ctx) {r : Res} (h : Ops.check sig c s = some r) : s.KeptByRes r := by
  unfold Ops.check at h
  repeat' split at h
  all_goals cases h
  all_goals exact trivial

theorem settle_kept (u : Issue) {r : Res} (h : s.KeptByRes r) : s.Keeps (Ops.settle u r s) := by
  have h0 := State.Keeps.refl s
  cases r with
  | ok t => exact .ite (h0.upd rfl rfl) (State.Keeps.upd (State.Keeps.advance h) rfl rfl)
  | jump t => exact .ite (h0.upd rfl rfl) (State.Keeps.upd h rfl rfl)
  | stall => exact h0.upd rfl rfl
  | trap x => exact .ite (h0.upd rfl rfl) (h0.linkUsed.presentTrap.upd rfl rfl)
  | trapWalked t x => exact .ite (State.Keeps.upd h rfl rfl) ((State.Keeps.linkUsed h).presentTrap.upd rfl rfl)

/-- A word keeps what every state its effect names keeps. -/
theorem wordBy_kept {sig : Ctx → State → Sig} {body : Ctx → State → Res} (h : ∀ c, s.KeptByRes (body c s)) : s.KeptBy (Ops.wordBy sig body s) := by
  rcases Ops.wordBy_cases sig body s with hw | ⟨u, g, -, -, hw⟩
  · rw [hw]
    exact .fault
  · rw [hw]
    refine .next (settle_kept u ?_)
    cases hc : Ops.check (sig (u.ctx g) s) (u.ctx g) s with
    | none => exact h _
    | some r => exact check_kept _ _ hc

theorem word_kept {sig : Sig} {body : Ctx → State → Res} (h : ∀ c, s.KeptByRes (body c s)) : s.KeptBy (Ops.word sig body s) := wordBy_kept h

end Ops
end Sys2Proof.Machine

namespace Sys2Proof.Machine

/-! ### Accesses that read

A read may leave lines, translations, samples and log records behind. It changes no group, and where no slice log is set up no byte of the memory. -/

/-- t is s but for what reads leave behind. -/
structure State.Looks (s t : State) : Prop where
  keeps : s.Keeps t
  groups : t.groups = s.groups
  logRegs : t.logRegs = s.logRegs
  mem : s.logRegs = [] → t.mem = s.mem

theorem State.writeBytes_groups (s : State) (cells : List (Nat × Byte)) : (s.writeBytes cells).groups = s.groups :=
  each_induction (P := fun t => t.groups = s.groups) cells (fun c t => t.writeByte c.1 c.2) s rfl fun _ _ h => h

theorem State.writeBytes_logRegs (s : State) (cells : List (Nat × Byte)) : (s.writeBytes cells).logRegs = s.logRegs :=
  each_induction (P := fun t => t.logRegs = s.logRegs) cells (fun c t => t.writeByte c.1 c.2) s rfl fun _ _ h => h

theorem State.writeLate_groups (s : State) (core : Nat) (cells : List (Nat × Byte)) : (s.writeLate core cells).groups = s.groups := by
  unfold State.writeLate
  split
  · rfl
  · exact s.writeBytes_groups cells

theorem State.writeLate_logRegs (s : State) (core : Nat) (cells : List (Nat × Byte)) : (s.writeLate core cells).logRegs = s.logRegs := by
  unfold State.writeLate
  split
  · rfl
  · exact s.writeBytes_logRegs cells

theorem State.Keeps.writeLate {s t : State} {core cells} (h : s.Keeps t) : s.Keeps (t.writeLate core cells) := by
  unfold State.writeLate
  exact .ite (.onCore (h.upd rfl rfl) fun _ => rfl) h.writeBytes

theorem State.Keeps.logRequest {s t : State} {op x l} (h : s.Keeps t) : s.Keeps (t.logRequest op x l) := by
  unfold State.logRequest
  exact .ite h (.ite (.ite (h.upd rfl rfl) (.upd (.writeLate h) rfl rfl)) h)

namespace State.Looks

variable {s t u : State}

protected theorem refl (s : State) : s.Looks s := ⟨.refl s, rfl, rfl, fun _ => rfl⟩

theorem of_eq (h : s.Looks t) (hmem : u.mem = t.mem) (hcores : u.cores = t.cores) (hgroups : u.groups = t.groups) (hlogs : u.logRegs = t.logRegs) :
    s.Looks u :=
  ⟨h.keeps.of_eq hmem hcores, hgroups.trans h.groups, hlogs.trans h.logRegs, fun hl => hmem.trans (h.mem hl)⟩

theorem onCore {n f} (h : s.Looks t) (hf : ∀ k : Core, (f k).clock = k.clock) : s.Looks (t.onCore n f) :=
  ⟨h.keeps.onCore hf, h.groups, h.logRegs, h.mem⟩

theorem ite {p : Prop} {_ : Decidable p} {a b : State} (ha : s.Looks a) (hb : s.Looks b) : s.Looks (if p then a else b) := by
  split <;> assumption

theorem each {α : Type} {l : List α} {f : α → State → State} (h : s.Looks t) (hf : ∀ a u, s.Looks u → s.Looks (f a u)) : s.Looks (each l f t) :=
  each_induction l f t h hf

/-- Where a slice log is set up, the memory may change. -/
theorem of_logs (h : s.Looks t) (hl : t.logRegs ≠ []) (hk : s.Keeps u) (hgroups : u.groups = t.groups) (hlogs : u.logRegs = t.logRegs) : s.Looks u :=
  ⟨hk, hgroups.trans h.groups, hlogs.trans h.logRegs, fun hs => absurd (h.logRegs.trans hs) hl⟩

theorem logRequest {op x l} (h : s.Looks t) : s.Looks (t.logRequest op x l) := by
  unfold State.logRequest
  split
  · exact h
  next hl =>
    refine .ite (.ite (h.of_eq rfl rfl rfl rfl) (h.of_logs hl ?_ (t.writeLate_groups _ _) (t.writeLate_logRegs _ _))) h
    exact .upd (.writeLate h.keeps) rfl rfl

theorem logRead {x pol l} (h : s.Looks t) : s.Looks (t.logRead x pol l) := by
  unfold State.logRead
  exact .ite h (.ite (h.logRequest.logRequest.of_eq rfl rfl rfl rfl) h.logRequest)

theorem logWalk {core ctx space va} (h : s.Looks t) : s.Looks (t.logWalk core ctx space va) := by
  unfold State.logWalk
  exact .ite h (.each h fun _ _ h => h.logRequest)

theorem keepWalk {core ctx space va x} (h : s.Looks t) : s.Looks (t.keepWalk core ctx space va x) := by
  unfold State.keepWalk
  dsimp only
  split
  · exact h.of_eq rfl rfl rfl rfl
  · refine ⟨.upd ?_ rfl rfl, h.groups, h.logRegs, h.mem⟩
    exact .onCore (.upd h.keeps rfl rfl) fun _ => rfl

theorem walkPage {a k space va} (h : s.Looks t) : s.Looks (t.walkPage a k space va) := by
  unfold State.walkPage
  exact .ite h h.logWalk.keepWalk

theorem walks {a spaces n k ps} (h : s.Looks t) : s.Looks (t.walks a spaces n k ps) := h.each fun _ _ h => h.walkPage

theorem observe {a l} (h : s.Looks t) : s.Looks (t.observe a l) := by
  unfold State.observe
  split
  · split
    · exact .ite (h.of_eq rfl rfl rfl rfl) h
    · exact h
  · exact h

theorem lsTouch {a choice pol cached fills l} (h : s.Looks t) : s.Looks (t.lsTouch a choice pol cached fills l) := by
  unfold State.lsTouch
  refine .ite (.ite h.logRequest h) ?_
  dsimp only
  split
  · exact .ite h (.onCore h.logRead fun _ => rfl)
  · exact .ite (.onCore h.logRead fun _ => rfl) h.logRead

theorem prefetch {a choice spaces l1 p} (h : s.Looks t) : s.Looks (t.prefetch a choice spaces l1 p) := by
  unfold State.prefetch
  dsimp only
  split
  · exact .ite h (.ite h.observe.lsTouch h.observe.logRequest)
  · exact h

theorem walkCode {gid g clause} (h : s.Looks t) : s.Looks (t.walkCode gid g clause) := h.walks

theorem fillCode {gid g choice clause} (h : s.Looks t) : s.Looks (t.fillCode gid g choice clause) := by
  unfold State.fillCode
  dsimp only
  split
  · exact h
  · exact .ite h (.ite (.onCore h.logRequest fun _ => rfl) h.logRequest)

theorem pathTouch {path a choice pol fills l} (h : s.Looks t) : s.Looks (t.pathTouch path a choice pol fills l) := by
  unfold State.pathTouch
  cases path with
  | ls => exact h.lsTouch
  | fresh => exact h.lsTouch
  | k => exact .ite h (.onCore h.logRead fun _ => rfl)

end State.Looks

namespace State.Keeps

variable {s t u : State}

/-- What keeps the invariants of t keeps those of s. -/
theorem looks (h : s.Keeps t) (h' : t.Looks u) : s.Keeps u := h.trans h'.keeps

theorem logRead {x pol l} (h : s.Keeps t) : s.Keeps (t.logRead x pol l) := h.looks (State.Looks.refl t).logRead
theorem logWalk {core ctx space va} (h : s.Keeps t) : s.Keeps (t.logWalk core ctx space va) := h.looks (State.Looks.refl t).logWalk
theorem keepWalk {core ctx space va x} (h : s.Keeps t) : s.Keeps (t.keepWalk core ctx space va x) := h.looks (State.Looks.refl t).keepWalk
theorem walks {a spaces n k ps} (h : s.Keeps t) : s.Keeps (t.walks a spaces n k ps) := h.looks (State.Looks.refl t).walks
theorem observe {a l} (h : s.Keeps t) : s.Keeps (t.observe a l) := h.looks (State.Looks.refl t).observe
theorem prefetch {a choice spaces l1 p} (h : s.Keeps t) : s.Keeps (t.prefetch a choice spaces l1 p) := h.looks (State.Looks.refl t).prefetch
theorem walkCode {gid g clause} (h : s.Keeps t) : s.Keeps (t.walkCode gid g clause) := h.looks (State.Looks.refl t).walkCode
theorem fillCode {gid g choice clause} (h : s.Keeps t) : s.Keeps (t.fillCode gid g choice clause) := h.looks (State.Looks.refl t).fillCode
theorem pathTouch {path a choice pol fills l} (h : s.Keeps t) : s.Keeps (t.pathTouch path a choice pol fills l) :=
  h.looks (State.Looks.refl t).pathTouch

/-! ### Accesses that write -/

theorem logWrites {op x through ls} (h : s.Keeps t) : s.Keeps (t.logWrites op x through ls) := by
  unfold State.logWrites
  exact .ite h (.each h fun _ _ h => .upd (.logRequest (.each h fun _ _ h => h.logRequest)) rfl rfl)

theorem writeBack {x p} (h : s.Keeps t) : s.Keeps (t.writeBack x p) := .upd (.each h fun _ _ h => h.logRequest) rfl rfl

theorem homeWrite {op x through cells} (h : s.Keeps t) : s.Keeps (t.homeWrite op x through cells) :=
  .onCore (.writeBytes h.logWrites) fun _ => rfl

theorem lsStore {a p drop} (h : s.Keeps t) : s.Keeps (t.lsStore a p drop) := by
  unfold State.lsStore
  exact .ite (.writeBytes h.logWrites) (.ite (.onCore (.writeBytes (.logWrites (.writeBytes h.logWrites))) fun _ => rfl)
    (.onCore (.upd (.writeBytes h.logWrites) rfl rfl) fun _ => rfl))

theorem storeHome {core p} (h : s.Keeps t) : s.Keeps (State.storeHome core p t) := .writeBytes h.logWrites

theorem drain {core} (h : s.Keeps t) (hd : t.drain core = some u) : s.Keeps u := by
  unfold State.drain at hd
  dsimp only at hd
  split at hd
  · cases hd
  · split at hd
    · cases hd
      exact h
    · cases hd
      exact .onCore (.each h fun _ _ h => h.storeHome) fun _ => rfl

theorem drainFree {core} (h : s.Keeps t) : s.Keeps (t.drainFree core) := by
  unfold State.drainFree
  exact .ite h (.onCore (.each h fun _ _ h => h.storeHome) fun _ => rfl)

theorem acquire {core scope} (h : s.Keeps t) : s.Keeps (t.acquire core scope) := .ite h (.onCore h fun _ => rfl)

theorem release {gid core scope} (h : s.Keeps t) (hr : t.release gid core scope = some u) : s.Keeps u := by
  unfold State.release at hr
  split at hr
  · cases hr
  · split at hr
    · cases hr
      exact h
    · exact h.drain hr

theorem ownWrites {gid core} (h : s.Keeps t) (hw : t.ownWrites gid core = some u) : s.Keeps u := by
  unfold State.ownWrites at hw
  dsimp only at hw
  split at hw
  · cases hw
  · cases hw
    exact h.drainFree

/-- A release where the word has one. -/
theorem releaseOpt {gid core} {rel : Option Nat} (h : s.Keeps t)
    (hr : (match rel with
      | some sc => t.release gid core sc
      | none => some t) = some u) : s.Keeps u := by
  cases rel with
  | none => cases hr; exact h
  | some sc => exact h.release hr

theorem fenceAt {gid core rel acq} (h : s.Keeps t) (hf : t.fenceAt gid core rel acq = some u) : s.Keeps u := by
  unfold State.fenceAt at hf
  split at hf
  · cases hf
  next t1 hr =>
    have h1 : s.Keeps t1 := h.releaseOpt hr
    cases acq with
    | none => cases hf; exact h1
    | some sc =>
      dsimp only at hf
      split at hf
      · cases hf
      · cases hf
        exact h1.acquire

theorem settleFences (h : s.Keeps t) : s.Keeps t.settleFences :=
  .each h fun e t h => by
    split
    · exact h
    · split
      · exact h
      next hf => exact .onGroup (h.fenceAt hf)

theorem setWays {x die n choice} (h : s.Keeps t) : s.Keeps (t.setWays x die n choice) := .filterMem h.writeBack rfl rfl

end State.Keeps

namespace Ops

variable {s : State}

open State (KeptBy KeptByRes Keeps)

theorem issueLong_kept {t : State} {c op} (h : s.Keeps t) : s.KeptByRes (t.issueLong c op) := by
  unfold State.issueLong
  split
  · exact .stall
  · exact .ite .stall (.ok (.onGroup (h.upd rfl rfl)))

theorem load_kept {c code d path spaces acq ptrs} : s.KeptByRes (s.load c code d path spaces acq ptrs) := by
  have h := Keeps.refl s
  unfold State.load
  refine .ite .stall ?_
  dsimp only
  split
  · exact issueLong_kept (.linkUsed h.walks)
  next ts _ =>
    refine .ite .stall (issueLong_kept ?_)
    cases acq with
    | none => exact .each (.walks (.ite h (.each h fun _ _ h => h.observe))) fun _ _ h => h.pathTouch
    | some sc => exact .acquire (.each (.walks (.ite h (.each h fun _ _ h => h.observe))) fun _ _ h => h.pathTouch)

theorem ldWord_kept {code d a off path acq} : s.KeptBy (Ops.ldWord code d a off path acq s) := word_kept fun _ => load_kept
theorem ldxWord_kept {code d a b} : s.KeptBy (Ops.ldxWord code d a b s) := word_kept fun _ => load_kept
theorem ldkWord_kept {code d a off} : s.KeptBy (Ops.ldkWord code d a off s) := word_kept fun _ => load_kept

theorem store_kept {c code d rel ptrs} : s.KeptByRes (s.store c code d rel ptrs) := by
  unfold State.store
  refine .ite .stall ?_
  split
  · exact .trapWalked (.walks (.refl s))
  · refine .ite .stall ?_
    dsimp only
    split
    · exact .stall
    next s1 hr =>
      have h1 : s.Keeps s1 := (Keeps.refl s).releaseOpt hr
      exact .ok (.lsStore (.walks (.each h1 fun _ _ h => h.observe)))

theorem stWord_kept {code d a off rel} : s.KeptBy (Ops.stWord code d a off rel s) := word_kept fun _ => store_kept
theorem stxWord_kept {code d a b} : s.KeptBy (Ops.stxWord code d a b s) := word_kept fun _ => store_kept

theorem fence_kept {r q sc} : s.KeptBy (execFence r q sc s) := word_kept fun c => by
  dsimp only
  split
  · exact .ite .stall (.ok (.onGroup (.refl s)))
  next hf => exact .ok ((Keeps.refl s).fenceAt hf)

theorem pfence_kept {p} : s.KeptBy (execPfence p s) := word_kept fun c => by
  dsimp only
  split
  · exact .stall
  next s1 hw =>
    have h1 : s.Keeps s1 := by
      split at hw
      · exact (Keeps.refl s).ownWrites hw
      · cases hw
        exact .refl s
    refine .ok (.ite (.onGroup ?_) ?_)
    all_goals refine .ite (.onCore ?_ fun _ => rfl) ?_
    all_goals exact .ite (.onCore h1 fun _ => rfl) h1

theorem icinv_kept {p} : s.KeptBy (execIcinv p s) := word_kept fun c => by
  refine .ite .stall (.ite ?_ (.ok (.refl s)))
  dsimp only
  split
  · exact .ok (.onCore (.walks (.refl s)) fun _ => rfl)
  · exact .ok (.walks (.refl s))

theorem icinvAll_kept : s.KeptBy (execIcinvAll s) := word_kept fun _ => .ok (.onCore (.refl s) fun _ => rfl)

theorem prefWord_kept {l1 a off} : s.KeptBy (Ops.prefWord l1 a off s) := word_kept fun _ => .ok (.each (.refl s) fun _ _ h => h.prefetch)

theorem l2way_kept {o} : s.KeptBy (execL2way o s) := word_kept fun _ => .ite .trap (.ite .stall (.ok (.setWays (.refl s))))
theorem l2wayRd_kept {o} : s.KeptBy (execL2wayRd o s) := word_kept fun _ => .ok (.putRegs (.refl s))

theorem resultWriteback_kept {group op} : s.KeptBy (execResultWriteback group op s) := by
  unfold execResultWriteback
  split
  · exact .same
  · split
    · exact .same
    · refine .ite .same (.next ?_)
      split
      · exact .acquire (.onGroup (.refl s))
      · exact .onGroup (.refl s)

theorem asyncFault_kept {group op} : s.KeptBy (execAsyncFault group op s) := by
  unfold execAsyncFault
  repeat' split
  iterate 3 exact .same
  exact .next (.presentTrap (.onGroup (.refl s)))

theorem tlbWalk_kept {core ctx space va} : s.KeptBy (execTlbWalk core ctx space va s) := by
  unfold execTlbWalk
  exact .ite .same (.next (.keepWalk (.logWalk (.refl s))))

theorem writeAcknowledgedAtHome_kept {core op} : s.KeptBy (execWriteAcknowledgedAtHome core op s) := by
  unfold execWriteAcknowledgedAtHome
  dsimp only
  split
  · exact .same
  · exact .ite .same (.next (.onCore (.storeHome (.refl s)) fun _ => rfl))

/-! ### Words of the shared operand forms -/

theorem alu0_kept {d f} : s.KeptBy (Ops.alu0 d f s) := word_kept fun _ => .ok (.putRegs (.refl s))
theorem alu1_kept {d a f} : s.KeptBy (Ops.alu1 d a f s) := word_kept fun _ => .ok (.putRegs (.refl s))
theorem alu2_kept {d a b f} : s.KeptBy (Ops.alu2 d a b f s) := word_kept fun _ => .ok (.putRegs (.refl s))
theorem alu3_kept {d a b f} : s.KeptBy (Ops.alu3 d a b f s) := word_kept fun _ => .ok (.putRegs (.refl s))
theorem pair2_kept {d a b f} : s.KeptBy (Ops.pair2 d a b f s) := word_kept fun _ => .ok (.putRegs (.refl s))
theorem pairWord_kept {d a b f} : s.KeptBy (Ops.pairWord d a b f s) := word_kept fun _ => .ok (.putRegs (.refl s))
theorem widen_kept {d a f} : s.KeptBy (Ops.widen d a f s) := word_kept fun _ => .ok (.putRegs (.refl s))
theorem cmp_kept {d a b p} : s.KeptBy (Ops.cmp d a b p s) := word_kept fun _ => .ok (.putMask (.refl s))
theorem cmp64_kept {d a b p} : s.KeptBy (Ops.cmp64 d a b p s) := word_kept fun _ => .ok (.putMask (.refl s))

theorem fpu_kept {d nd src f} : s.KeptBy (Ops.fpu d nd src f s) := word_kept fun _ => by
  dsimp only
  split
  · exact .trap
  · exact .ok (.orFlags (.putRegs (.refl s)))

theorem fpuLong_kept {d nd src f} : s.KeptBy (Ops.fpuLong d nd src f s) := word_kept fun _ => issueLong_kept (.refl s)

theorem fcmp_kept {n d a b f flags} : s.KeptBy (Ops.fcmp n d a b f flags s) := word_kept fun _ => by
  dsimp only
  split
  · exact .trap
  · exact .ok (.orFlags (.putMask (.refl s)))

end Ops
end Sys2Proof.Machine

namespace Sys2Proof.Machine

/-! ### Engine commands (11 R234-R249) -/

theorem Core.setQueue_clock (k : Core) (e : Engine) (q : List EngCmd) : (k.setQueue e q).clock = k.clock := by
  cases e <;> rfl

/-- What reaching for a row of a command leaves keeps the invariants of s. -/
def State.KeptByRow {α : Type} (s : State) (state : α → State) : RowOut α → Prop
  | .ok x => s.Keeps (state x)
  | .fault _ x => s.Keeps (state x)
  | .waits => True

/-- What a command comes to keeps the invariants of s. -/
def State.KeptByEng (s : State) (o : EngOut) : Prop := s.Keeps o.s

theorem State.KeptByEng.ok {s t : State} (h : s.Keeps t) : s.KeptByEng (.ok t) := h
theorem State.KeptByEng.fault {s t : State} {cause} (h : s.Keeps t) : s.KeptByEng (.fault t cause) := h
theorem State.KeptByEng.stand {s t : State} {ends} (h : s.Keeps t) : s.KeptByEng (.stand t ends) := h
theorem State.KeptByEng.mk {s t : State} {done flag ends} (h : s.Keeps t) : s.KeptByEng (.mk t done flag ends) := h

theorem State.KeptByEng.ite {s : State} {p : Prop} {_ : Decidable p} {a b : EngOut} (ha : s.KeptByEng a) (hb : s.KeptByEng b) :
    s.KeptByEng (if p then a else b) := by
  split <;> assumption

namespace State.Keeps

variable {s t u : State}

theorem beginAq {core scope aq} (h : s.Keeps t) : s.Keeps (t.beginAq core scope aq) := by
  unfold State.beginAq
  exact .ite (.acquire h.drainFree) h

theorem endRl {core scope aq rl} (h : s.Keeps t) (hr : t.endRl core scope aq rl = some u) : s.Keeps u := by
  unfold State.endRl at hr
  split at hr
  · cases hr
    exact h
  · obtain ⟨t1, ht, rfl⟩ := Option.map_eq_some_iff.1 hr
    refine .acquire ?_
    split at ht
    · exact h.drain ht
    · cases ht
      exact h

theorem writeToken {group epoch token slices status} (h : s.Keeps t) : s.Keeps (t.writeToken group epoch token slices status) := .ite h h.onGroup

theorem logRow {a spaces k p unit n read} (h : s.Keeps t) : s.Keeps (t.logRow a spaces k p unit n read) := by
  unfold State.logRow
  exact .ite h.walks (.each h.walks fun _ _ h => h.logRequest)

theorem readRow {a choice spaces unit n p} (h : s.Keeps t) : s.KeptByRow Prod.fst (t.readRow a choice spaces unit n p) := by
  unfold State.readRow
  dsimp only
  split
  · exact h.logRow
  · split
    · trivial
    · exact h.logRow

theorem writeRow {a choice spaces unit p bytes} (h : s.Keeps t) : s.KeptByRow id (t.writeRow a choice spaces unit p bytes) := by
  unfold State.writeRow
  dsimp only
  split
  · trivial
  · split <;> exact .homeWrite h.logRow

theorem rowGo {x : RowRun} {f} (h : s.Keeps x.s) (hf : ∀ r t, s.Keeps t → s.KeptByRow Prod.fst (f r t)) : s.Keeps (x.go f).s := by
  unfold RowRun.go
  split
  · exact h
  · split
    · exact h
    · have hr := hf x.done x.s h
      split
      next he => rw [he] at hr; exact hr
      next he => rw [he] at hr; exact hr
      · exact h

/-- The rows of a command, each of which keeps the invariants. -/
theorem rows {x : RowRun} {n f} (h : s.Keeps x.s) (hf : ∀ r t, s.Keeps t → s.KeptByRow Prod.fst (f r t)) : s.Keeps (x.rows n f).s :=
  each_induction (P := fun x : RowRun => s.Keeps x.s) (List.range (n - x.done)) (fun _ x => x.go f) x h fun _ _ h => h.rowGo hf

theorem finish {x : RowRun} {last : State → State} (h : s.Keeps x.s) (hl : ∀ t, s.Keeps t → s.Keeps (last t)) : s.KeptByEng (x.finish last) := by
  unfold RowRun.finish
  split
  · exact h
  · exact hl _ h

theorem onUnitOf {block acc name id f} (h : s.Keeps t) : s.Keeps (t.onUnitOf block acc name id f) := h.onBlock

theorem copyRow {x kind b a choice r} (h : s.Keeps t) : s.KeptByRow Prod.fst (copyRow x kind b a choice r t) := by
  unfold Machine.copyRow
  have hsrc : s.KeptByRow Prod.fst (if kind = 5 then .ok (t, (List.range b.cols).flatMap fun _ => natToBytes (fmtUnit b.sf) b.src.toNat)
      else t.readRow a choice (copySrc kind) (fmtUnit b.sf) (fmtRow b.sf b.cols / fmtUnit b.sf) (rowPtr b.src b.sstr r)) := by
    split
    · exact h
    · exact h.readRow
  dsimp only
  split
  · exact h
  · trivial
  next t1 row he =>
    have h1 : s.Keeps t1 := by rw [he] at hsrc; exact hsrc
    split
    · exact h1.onUnitOf
    · have hw := h1.writeRow (a := a) (choice := choice) (spaces := copyDst kind) (unit := fmtUnit b.df) (p := rowPtr b.dst b.dstr r)
        (bytes := (convertRow b.sf b.df b.cols row).1)
      split
      next hr => rw [hr] at hw; exact hw
      next hr => rw [hr] at hw; exact hw
      · trivial

theorem runCopy {x kind choice} (h : s.Keeps t) : s.KeptByEng (t.runCopy x kind choice) := by
  unfold State.runCopy
  exact .ite h (.ite h (Keeps.finish (Keeps.rows (.ite h.onUnitOf h) fun _ _ h => h.copyRow) fun _ h => .ite h.onUnitOf h))

end State.Keeps

namespace Ops

variable {s : State}

open State (KeptBy KeptByRes Keeps)

theorem enqueue_kept {t : State} {c e cmd params tok scope aq rl} (h : s.Keeps t) : s.KeptByRes (t.enqueue c e cmd params tok scope aq rl) := by
  unfold State.enqueue
  exact .ite .stall (.ok (.onCore (h.upd rfl rfl) fun k => k.setQueue_clock _ _))

theorem engWord_kept {priv e cmd n t p sc aq rl} : s.KeptBy (Ops.engWord priv e cmd n t p sc aq rl s) := word_kept fun _ => enqueue_kept (.refl s)

end Ops
end Sys2Proof.Machine

namespace Sys2Proof.Machine

namespace State.Keeps

variable {s t u : State}

/-- A step that is taken where a condition holds, and may have to wait. -/
theorem optIte {p : Prop} {_ : Decidable p} {o : Option State} (h : s.Keeps t) (ho : ∀ v, o = some v → s.Keeps v)
    (he : (if p then o else some t) = some u) : s.Keeps u := by
  split at he
  · exact ho u he
  · cases he
    exact h

/-! ### Control words -/

theorem jumpTo {i pc} (h : s.Keeps t) : s.Keeps (t.jumpTo i pc) := h.onGroup
theorem link {c} (h : s.Keeps t) : s.Keeps (t.link c) := h.onGroup
theorem passOver {i cycles} (h : s.Keeps t) : s.Keeps (t.passOver i cycles) := h.onGroup
theorem waitFor {i w} (h : s.Keeps t) : s.Keeps (t.waitFor i w) := h.onGroup

theorem beginClause {gid g slices choice} (h : s.Keeps t) : s.Keeps (t.beginClause gid g slices choice) := by
  unfold State.beginClause
  dsimp only
  split
  · exact h
  · exact .presentTrap h.walkCode
  · refine .ite h.presentTrap ?_
    split
    · exact h.onGroup
    · exact .onGroup (.ite (h.upd rfl rfl) (.fillCode (.walkCode (h.upd rfl rfl))))

/-! ### Barriers -/

theorem arrive {c i x} (h : s.Keeps t) (ha : t.arrive c i x = some u) : s.Keeps u := by
  unfold State.arrive at ha
  split at ha
  · cases ha
    exact h
  · obtain ⟨t1, hr, rfl⟩ := Option.map_eq_some_iff.1 ha
    exact .settleBarrier (.onBlock (h.release hr))

theorem awaitBarrier {c i} (h : s.Keeps t) : s.Keeps (t.awaitBarrier c i) := by
  unfold State.awaitBarrier
  dsimp only
  split
  · exact .ite h h.waitFor
  · exact h

/-! ### Kills, halts and debugging -/

theorem anyWord (h : s.Keeps t) : s.Keeps t.anyWord.2 := h.of_eq rfl rfl

theorem killLaunch {launch reports} (h : s.Keeps t) : s.Keeps (t.killLaunch launch reports) := by
  unfold State.killLaunch
  exact .onLaunch (.upd (.each h fun e t h => .killGroup (.ite h.anyWord.anyWord.anyWord.anyWord.reportKill h)) rfl rfl)

theorem setTimers {b} (h : s.Keeps t) : s.Keeps (t.setTimers b) := .each h fun _ _ h => h.setTimer
theorem stopBlock {b} (h : s.Keeps t) : s.Keeps (t.stopBlock b) := .setTimers (.each h fun _ _ h => h.stopWaits)

theorem writeResume {ctx v} (h : s.Keeps t) : s.Keeps (t.writeResume ctx v) := by
  unfold State.writeResume
  dsimp only
  split
  · exact h.onContext
  · exact .setTimers (.onBlock h.onContext)

end State.Keeps

namespace Ops

variable {s : State}

open State (KeptBy KeptByRes Keeps)

/-! ### Control words -/

theorem br_kept {n k d} : s.KeptBy (execBr n k d s) := word_kept fun _ => .ite .trap (.jump (.onGroup (.refl s)))
theorem call_kept {d} : s.KeptBy (execCall d s) := word_kept fun _ => .jump (.jumpTo (.link (.refl s)))

theorem transfer_kept {c : Ctx} {x go} (h : ∀ pc, s.Keeps (go pc)) : s.KeptByRes (c.transfer x go) := .ite .trap (.ite .trap (.jump (h _)))

theorem ret_kept : s.KeptBy (execRet s) := word_kept fun _ => transfer_kept fun _ => .jumpTo (.refl s)
theorem jmpi_kept {p} : s.KeptBy (execJmpi p s) := word_kept fun _ => transfer_kept fun _ => .jumpTo (.refl s)
theorem calli_kept {p} : s.KeptBy (execCalli p s) := word_kept fun _ => transfer_kept fun _ => .jumpTo (.link (.refl s))
theorem join_kept {k n} : s.KeptBy (execJoin k n s) := word_kept fun _ => .jump (.onGroup (.refl s))
theorem exit_kept : s.KeptBy (execExit s) := word_kept fun _ => .jump (.settleEnd (.announce (.onGroup (.refl s))))
theorem yield_kept {n} : s.KeptBy (execYield n s) := word_kept fun _ => .ok (.passOver (.refl s))
theorem sleep_kept {n} : s.KeptBy (execSleep n s) := word_kept fun _ => .ok (.ite (.passOver (.refl s)) (.waitFor (.refl s)))

theorem clauseDecode_kept {group slices} : s.KeptBy (execClauseDecode group slices s) := by
  unfold execClauseDecode
  split
  · exact .same
  · exact .ite (.next (.beginClause (.refl s))) .same

theorem runaheadFetch_kept {group pc} : s.KeptBy (execRunaheadFetch group pc s) := by
  unfold execRunaheadFetch
  split
  · exact .same
  · refine .ite .same ?_
    split
    · exact .next (.each (.onGroup (.fillCode (.walkCode (.refl s)))) fun _ _ h => h.prefetch)
    · exact .same

theorem sleepEnd_kept {group slice} : s.KeptBy (execSleepEnd group slice s) := by
  unfold execSleepEnd
  split
  · exact .same
  · split
    · exact .ite .same (.next (.onGroup (.refl s)))
    · exact .same

theorem joinComplete_kept {group j} : s.KeptBy (execJoinComplete group j s) := by
  unfold execJoinComplete
  split
  · exact .same
  · exact .ite .same (.ite (.next (.onGroup (.refl s))) (.ite (.next (.onGroup (.refl s))) .same))

theorem joinTimeout_kept {group j} : s.KeptBy (execJoinTimeout group j s) := by
  unfold execJoinTimeout
  split
  · exact .same
  · exact .ite (.next (.onGroup (.refl s))) .same

/-- The governor moves a clock within its range (01 R11). -/
theorem clockStep_kept {core up} : s.KeptBy (execClockStep core up s) := by
  refine .next (.onCore_inRange (.refl s) fun k hk => ?_)
  unfold Core.inRange at hk ⊢
  dsimp only
  split <;> omega

/-! ### Barriers -/

theorem barWord_kept {arrives waits o} : s.KeptBy (Ops.barWord arrives waits o s) := word_kept fun c => by
  split
  · exact .trap
  · split
    · exact .stall
    next s1 ha =>
      have h1 : s.Keeps s1 := .optIte (.refl s) (fun _ hv => (Keeps.refl s).arrive hv) ha
      exact .ok (.ite h1.awaitBarrier h1)

theorem barAlloc_kept {d n} : s.KeptBy (execBarAlloc d n s) := word_kept fun _ => by
  dsimp only
  split
  · exact .ok (.putRegs (.refl s))
  · exact .ok (.putRegs (.onBlock (.refl s)))

theorem barFree_kept {o} : s.KeptBy (execBarFree o s) := word_kept fun _ => by
  split
  · exact .trap
  · exact .ite .trap (.ok (.onBlock (.refl s)))

theorem cbarWord_kept {arrives waits n} : s.KeptBy (Ops.cbarWord arrives waits n s) := word_kept fun c => by
  refine .ite .trap ?_
  dsimp only
  split
  · exact .stall
  next s1 hr =>
    have h1 : s.Keeps s1 := .optIte (.refl s) (fun _ hv => (Keeps.refl s).release hv) hr
    have h2 {p : Prop} {_ : Decidable p} {f} : s.Keeps (if p then (s1.onCluster (((c.block s).map (·.cluster)).getD 0) f).settleCluster
        (((c.block s).map (·.cluster)).getD 0) n.toNat else s1) := .ite (.settleCluster (.onCluster h1)) h1
    refine .ok (.ite ?_ h2)
    split
    · exact .ite h2.acquire h2.waitFor
    · exact h2.acquire

theorem gbarSync_kept : s.KeptBy (execGbarSync s) := word_kept fun c => by
  dsimp only
  split
  · exact .trap
  next ln l _ =>
    refine .ite .trap ?_
    split
    · exact .stall
    next s1 hr =>
      have h1 : s.Keeps s1 := .optIte (.refl s) (fun _ hv => (Keeps.refl s).release hv) hr
      have h2 {p : Prop} {_ : Decidable p} {f} : s.Keeps (if p then (s1.onLaunch ln f).settleGrid ln else s1) := .ite (.settleGrid (.onLaunch h1)) h1
      refine .ok ?_
      split
      · exact .ite h2.acquire h2.waitFor
      · exact h2

/-! ### Traps, kills and observation -/

theorem trap_kept {n} : s.KeptBy (execTrap n s) := word_kept fun _ => .trap
theorem wordNotAnInstruction_kept {w} : s.KeptBy (execWordNotAnInstruction w s) := word_kept fun _ => .trap

theorem tret_kept : s.KeptBy (execTret s) := word_kept fun _ => by
  split
  · exact .trap
  · exact .ite .trap (.jump (.settleEnd (.setTimer (.onGroup (.refl s)))))

theorem trapEntry_kept {group} : s.KeptBy (execTrapEntry group s) := .next (.tryEnter (.refl s))

theorem killRecordWrite_kept {launch} : s.KeptBy (execKillRecordWrite launch s) := by
  unfold execKillRecordWrite
  split
  · exact .same
  · split
    · exact .same
    · exact .ite .same (.ite (.next (.writeNat (.onLaunch (.refl s)))) (.next (.writeBytes (.writeNat (.onLaunch (.refl s))))))

theorem mgmtLaunchKill_kept {launch} : s.KeptBy (execMgmtLaunchKill launch s) := .next (.killLaunch (.refl s))
theorem progress_kept {n} : s.KeptBy (execProgress n s) := word_kept fun _ => .ok (.ite (.refl s) (.upd (.refl s) rfl rfl))

theorem haltBlock_kept {c kind n} : s.KeptByRes (s.haltBlock c kind n) := .jump (.jumpTo (.stopBlock (.onBlock (.refl s))))
theorem stop_kept : s.KeptBy (execStop s) := word_kept fun _ => .ite haltBlock_kept (.ok (.refl s))

theorem brkpt_kept {n} : s.KeptBy (execBrkpt n s) := word_kept fun _ => by
  dsimp only
  split
  · exact .trap
  · exact haltBlock_kept
  · exact .ok (.refl s)

theorem debugRecordWrite_kept {block} : s.KeptBy (execDebugRecordWrite block s) := by
  unfold execDebugRecordWrite
  split
  · exact .same
  · split
    · exact .same
    · exact .ite .same (.ite (.next (.setTimers (.onBlock (.writeNat (.refl s))))) (.next (.onBlock (.writeNat (.stopBlock (.writeBytes (.refl s)))))))

theorem resumeWrite_kept {ctx v} : s.KeptBy (execResumeWrite ctx v s) := .next (.writeResume (.refl s))

theorem sndgOn_kept {o} : s.KeptBy (execSndgOn o s) := word_kept fun _ =>
  .ite .trap (.ite (.ok (.putRegs (.refl s))) (.ok (.putRegs (.upd (.refl s) rfl rfl))))

theorem sndgOff_kept : s.KeptBy (execSndgOff s) := word_kept fun _ => .ok (.upd (.refl s) rfl rfl)

theorem sndgRd_kept {o} : s.KeptBy (execSndgRd o s) := word_kept fun _ => by
  refine .ite .stall ?_
  dsimp only
  split
  · exact .trapWalked (.walks (.refl s))
  · refine .ok ?_
    split
    · refine .upd ?_ rfl rfl
      exact .lsStore (.walks (.refl s))
    · exact .lsStore (.walks (.refl s))

end Ops
end Sys2Proof.Machine

namespace Sys2Proof.Machine

namespace State.Keeps

variable {s t u : State}

/-! ### Extended registers and the end of a block -/

theorem logExt {gid g k ts} (h : s.Keeps t) : s.Keeps (t.logExt gid g k ts) := by
  unfold State.logExt
  exact .ite (.each h.walks fun _ _ h => h.logRequest) h.walks

theorem fillHeld {p} (h : s.Keeps t) : s.Keeps (t.fillHeld p) := h.of_eq rfl rfl

theorem leaveBankMode {p} (h : s.Keeps t) : s.Keeps (t.leaveBankMode p) := .ite h.onPchannel (.fillHeld h.onPchannel)

theorem setScratch {core} (h : s.Keeps t) : s.Keeps (t.setScratch core) := by
  unfold State.setScratch
  exact .onCore h fun _ => rfl

theorem endBlock {bn b} (h : s.Keeps t) : s.Keeps (t.endBlock bn b) := by
  unfold State.endBlock
  refine .settleEnd (.onLaunch (.upd ?_ rfl rfl))
  refine .setScratch (.onBlock (.each (.onCore (.filterMem h rfl rfl) fun k => ?_) fun _ _ h => h.leaveBankMode))
  split <;> rfl

/-! ### Commands of the bank engines (14 R300-R309) -/

theorem withChannel {x holds f} (h : s.Keeps t) (hf : ∀ pa p, s.KeptByEng (f pa p)) : s.KeptByEng (t.withChannel x holds f) := by
  unfold State.withChannel
  split
  · exact h
  · exact .ite h (hf _ _)

theorem enterBankMode {who p block} (h : s.Keeps t) : s.Keeps (t.enterBankMode who p block) := .onPchannel h.writeBack
theorem setBReg {p bank n r} (h : s.Keeps t) : s.Keeps (t.setBReg p bank n r) := h.onPchannel
theorem bankPass {p row exps r bfp zero br e} (h : s.Keeps t) : s.Keeps (t.bankPass p row exps r bfp zero br e).1 := h.of_eq rfl rfl

theorem runBkmodeOn {x} (h : s.Keeps t) : s.KeptByEng (t.runBkmodeOn x) := h.withChannel fun _ p => by
  split
  · exact h
  · exact .ite h h.enterBankMode

theorem runBkmodeOff {x} (h : s.Keeps t) : s.KeptByEng (t.runBkmodeOff x) := h.withChannel fun _ _ => h.leaveBankMode

theorem runBkload {x bfp scatter choice} (h : s.Keeps t) : s.KeptByEng (t.runBkload x bfp scatter choice) := by
  unfold State.runBkload
  refine .ite h (h.withChannel fun _ p => Keeps.finish (.rows h fun r u hu => ?_) fun _ h => h)
  dsimp only
  split
  next he =>
    have hr : s.KeptByRow Prod.fst (.ok _) := he ▸ hu.readRow
    exact Keeps.each hr fun _ _ h => h.setBReg
  · exact Keeps.each hu fun _ _ h => h.setBReg
  · trivial

theorem runBkmac {x bfp zero choice} (h : s.Keeps t) : s.KeptByEng (t.runBkmac x bfp zero choice) := by
  unfold State.runBkmac
  refine .ite h (h.withChannel fun _ p => .ite h (Keeps.finish (.rows h fun r u hu => ?_) fun _ h => h))
  split
  · exact hu
  · split
    · split
      · exact hu
      · exact hu.bankPass
    · exact hu.bankPass

theorem runBkread {x choice} (h : s.Keeps t) : s.KeptByEng (t.runBkread x choice) := by
  unfold State.runBkread
  refine .ite h (h.withChannel fun _ p => Keeps.finish (.rows h fun r u hu => ?_) fun _ h => h)
  dsimp only
  split
  next he => exact (he ▸ hu.writeRow : s.KeptByRow id (.ok _))
  next he => exact (he ▸ hu.writeRow : s.KeptByRow id (.fault _ _))
  · trivial

theorem runBkstat {x choice} (h : s.Keeps t) : s.KeptByEng (t.runBkstat x choice) := by
  unfold State.runBkstat
  refine h.withChannel fun _ p => ?_
  extract_lets ch flag
  split
  next he => exact (he ▸ h.writeRow : s.KeptByRow id (.ok _))
  next he => exact (he ▸ h.writeRow : s.KeptByRow id (.fault _ _))
  · exact h

theorem later {x : EngCmd} (h : s.Keeps t) : s.Keeps (x.later t).s := h

theorem runBkcal {x op choice} (h : s.Keeps t) : s.KeptByEng (t.runBkcal x op choice) := by
  unfold State.runBkcal
  refine .ite h (h.withChannel fun _ p => ?_)
  have put {b : Bool} {f} : s.Keeps (if b = true then t.onPchannel p f else (t.onPchannel p f).fillHeld p) := .ite h.onPchannel h.onPchannel.fillHeld
  dsimp only
  refine .ite ?_ (.ite h (.ite h (.mk put.later)))
  split
  · exact .ok put
  · exact .ite (.mk put.later) (.stand put)
  · split
    · exact .fault put
    · exact .ok put

theorem stopCal {ids} (h : s.Keeps t) : s.Keeps (t.stopCal ids) := .each h fun _ _ h => .ite h.onPchannel h.onPchannel.fillHeld

theorem runBank {x choice} (h : s.Keeps t) : s.KeptByEng (t.runBank x choice) := by
  unfold State.runBank
  refine .ite h ?_
  split
  · exact h.runBkmodeOn
  · exact h.runBkmodeOff
  · exact h.runBkload
  · exact h.runBkmac
  · exact h.runBkread
  · exact h.runBkcal
  · exact h.runBkstat

end State.Keeps

namespace Ops

variable {s : State}

open State (KeptBy KeptByRes Keeps)

theorem spawn_kept {d i} : s.KeptBy (execSpawn d i s) := word_kept fun _ => by
  dsimp only
  split
  · exact .ok (.putRegs (.refl s))
  · exact .ite (.ok (.putRegs (.refl s))) (.ok (.putRegs (.upd (.refl s) rfl rfl)))

theorem fetchw_kept {o} : s.KeptBy (execFetchw o s) := word_kept fun _ => .ite .trap (.ite .trap (.ite .stall (.ok (.onBlock (.refl s)))))

theorem regacq_kept : s.KeptBy (execRegacq s) := word_kept fun _ =>
  .ite (.ok (.refl s)) (.ite .trap (.ok (.waitFor (.onGroup (.onCore (.refl s) fun _ => rfl)))))

theorem regrel_kept : s.KeptBy (execRegrel s) := word_kept fun _ => .ite .trap (.ok (.onGroup (.refl s)))

theorem regacqGrant_kept {core} : s.KeptBy (execRegacqGrant core s) := by
  unfold execRegacqGrant
  split
  · exact .same
  · refine .ite ?_ (.next (.onGroup (.onCore (.refl s) fun _ => rfl)))
    split
    · exact .same
    · exact .next (.onGroup (.onCore (.logExt (.refl s)) fun _ => rfl))

theorem spill_kept {core} : s.KeptBy (execSpill core s) := by
  unfold execSpill
  refine .ite .same ?_
  split
  · exact .same
  · exact .next (.onGroup (.onCore (.lsStore (.logExt (.refl s))) fun _ => rfl))

theorem regroup_kept {o} : s.KeptBy (execRegroup o s) := word_kept fun _ => by
  refine .ite .trap ?_
  split
  · exact .stall
  next hr => exact .jump (.settleEnd (.waitFor (.advance ((Keeps.refl s).release hr))))

theorem launch_kept {p n} : s.KeptBy (execLaunch p n s) := word_kept fun c => by
  dsimp only
  split
  · exact .stall
  next s1 hr =>
    have h1 : s.Keeps s1 := by
      split at hr
      · cases hr
      · exact (Keeps.refl s).release hr
    split
    · exact .trapWalked h1.walks
    · exact .ite .stall (.ite .trap (.ok (.waitFor (.upd (.logRequest h1.walks) rfl rfl))))

theorem srd_kept {d a} : s.KeptBy (execSrd d a s) := word_kept fun _ => .ok (.putRegs (.ite (.onGroup (.refl s)) (.refl s)))
theorem swr_kept {a b} : s.KeptBy (execSwr a b s) := word_kept fun _ => .ok (.onGroup (.refl s))

theorem groupEnd_kept {group} : s.KeptBy (execGroupEnd group s) := by
  unfold execGroupEnd
  split
  · exact .same
  · refine .ite .same (.ite (.next (.announce (.refl s))) ?_)
    dsimp only
    split
    · exact .next (.onCore (.settleEnd (.onGroup (.refl s))) fun _ => rfl)
    · refine .next (.ite (.endBlock ?_) ?_)
      all_goals exact .onCore (.settleEnd (.onGroup (.refl s))) fun _ => rfl

theorem correctedError_kept {pch bank} : s.KeptBy (execCorrectedError pch bank s) := .next (.onPchannel (.refl s))

end Ops
end Sys2Proof.Machine

namespace Sys2Proof.Machine

namespace State.Keeps

variable {s t u : State}

/-! ### Commands of the chart (13 R274-R289) -/

theorem onChart {core f} (h : s.Keeps t) : s.Keeps (t.onChart core f) := h.onCore fun _ => rfl

theorem runCells {x core load d sel choice run} (h : s.Keeps t) (hr : t.runCells x core load d sel choice = some run) : s.Keeps run.s := by
  unfold State.runCells at hr
  extract_lets w col row cols rows a e cell one at hr
  split at hr
  · cases hr
  · cases hr
    refine .rows h fun r u hu => ?_
    dsimp only [one]
    split
    · split
      next he =>
        have hrow : s.KeptByRow Prod.fst (.ok _) := he ▸ hu.readRow
        exact Keeps.onChart hrow
      · exact hu
      · trivial
    · split
      next he => exact (he ▸ hu.writeRow : s.KeptByRow id (.ok _))
      next he => exact (he ▸ hu.writeRow : s.KeptByRow id (.fault _ _))
      · trivial

theorem runChld {x core d sel choice} (h : s.Keeps t) : s.KeptByEng (t.runChld x core d sel choice) := by
  unfold State.runChld
  split
  · exact .fault h
  next hr => exact Keeps.finish (h.runCells hr) fun _ h => h

theorem runChst {x core d sel clr choice} (h : s.Keeps t) : s.KeptByEng (t.runChst x core d sel clr choice) := by
  unfold State.runChst
  split
  · exact .fault h
  next hr =>
    split
    · exact Keeps.finish (h.runCells hr) fun _ h => h
    · exact .stand (.onChart (h.runCells hr))

theorem runChart {x core choice} (h : s.Keeps t) : s.KeptByEng (t.runChart x core choice) := by
  unfold State.runChart
  dsimp only
  split
  case h_7 => exact h.runChld
  case h_8 => exact h.runChst
  all_goals exact .ok h.onChart

end State.Keeps

namespace Ops

variable {s : State}

open State (KeptBy KeptByRes Keeps)

theorem chartWord_kept {sig : Sig} {f : Ctx → Nat → Chart → State → Res} (h : ∀ c core ch, s.KeptByRes (f c core ch s)) :
    s.KeptBy (Ops.chartWord sig f s) := word_kept fun _ => .ite (h _ _ _) .trap

/-- A word that queues a command and then changes more. -/
theorem enqueue_then {c e cmd params tok scope aq rl} {f : State → Res} (hf : ∀ t, s.Keeps t → s.KeptByRes (f t)) :
    s.KeptByRes (match s.enqueue c e cmd params tok scope aq rl with
      | .ok t => f t
      | r => r) := by
  have hr : s.KeptByRes (s.enqueue c e cmd params tok scope aq rl) := enqueue_kept (.refl s)
  generalize s.enqueue c e cmd params tok scope aq rl = r at hr ⊢
  cases r with
  | ok t => exact hf t hr
  | _ => exact hr

theorem chartDepth_kept {c core old new cmd ps} : s.KeptByRes (s.chartDepth c core old new cmd ps) := by
  unfold State.chartDepth
  exact .ite .trap (enqueue_then fun t h => .ok (.ite h h.onChart))

theorem chexp_kept {p d k e} : s.KeptBy (execChexp p d k e s) := by
  unfold execChexp
  exact chartWord_kept fun _ _ _ => chartDepth_kept
theorem chcubic_kept {p d e} : s.KeptBy (execChcubic p d e s) := .ite (chartWord_kept fun _ _ _ => chartDepth_kept) (word_kept fun _ => .trap)
theorem chopWord_kept {op d a b} : s.KeptBy (Ops.chopWord op d a b s) := chartWord_kept fun _ _ _ => enqueue_kept (.refl s)
theorem chenabWord_kept {op depth} : s.KeptBy (Ops.chenabWord op depth s) := chartWord_kept fun _ _ _ => chartDepth_kept
theorem cellWord_kept {cmd p d t sel} : s.KeptBy (Ops.cellWord cmd p d t sel s) := by
  unfold Ops.cellWord
  exact chartWord_kept fun _ _ _ => enqueue_kept (.refl s)
theorem chvis_kept {p d} : s.KeptBy (execChvis p d s) := chartWord_kept fun _ _ _ => enqueue_kept (.refl s)
theorem chset_kept {x d l} : s.KeptBy (execChset x d l s) := chartWord_kept fun _ _ _ => enqueue_kept (.refl s)

theorem chown_kept {d e} : s.KeptBy (execChown d e s) := word_kept fun _ => by
  dsimp only
  split
  · exact .ite (.ok (.onGroup (.onChart (.refl s)))) (.ok (.onGroup (.refl s)))
  · exact enqueue_then fun _ h => .ok (.onGroup h.onChart)

theorem chrel_kept : s.KeptBy (execChrel s) := chartWord_kept fun _ _ _ => .ok (.onChart (.refl s))
theorem chorg_kept {x} : s.KeptBy (execChorg x s) := chartWord_kept fun _ _ _ => .ok (.onChart (.refl s))
theorem chorgRd_kept {d} : s.KeptBy (execChorgRd d s) := chartWord_kept fun _ _ _ => .ok (.onGroup (.refl s))

theorem chartReset_kept {core} : s.KeptBy (execChartReset core s) := by
  unfold execChartReset
  split
  · exact .same
  · exact .ite (.next (.onCore (.refl s) fun _ => rfl)) .same

end Ops
end Sys2Proof.Machine

namespace Sys2Proof.Machine

namespace State.Keeps

variable {s t u : State}

/-! ### Atomics and waypoint sections (09 R180-R204) -/

theorem applyAtom {x o through locs b1 b2} (h : s.Keeps t) : s.Keeps (t.applyAtom x o through locs b1 b2).2 := by
  unfold State.applyAtom
  dsimp only
  split
  · dsimp only
    exact .onCore h.logRequest fun _ => rfl
  · exact h.homeWrite

theorem drainFor {core locs} (h : s.Keeps t) (hd : t.drainFor core locs = some u) : s.Keeps u := h.optIte (fun _ hv => h.drain hv) hd

theorem sendWay {gid op ks ask} (h : s.Keeps t) : s.Keeps (t.sendWay gid op ks ask) := h.of_eq rfl rfl
theorem holdWay {c minor ks ask} (h : s.Keeps t) : s.Keeps (t.holdWay c minor ks ask) := .waitFor (.onGroup (.sendWay (h.upd rfl rfl)))
theorem putWay {key e} (h : s.Keeps t) : s.Keeps (t.putWay key e) := h.of_eq rfl rfl
theorem answer {r a} (h : s.Keeps t) : s.Keeps (t.answer r a) := h.of_eq rfl rfl

theorem serve {r} (h : s.Keeps t) : s.Keeps (t.serve r) := by
  unfold State.serve
  dsimp only
  split
  · exact .answer h.applyAtom
  · split
    · exact h.answer
    · split
      · exact h.answer
      · exact .ite h.answer (.settleKey (.ite (.upd h.putWay rfl rfl) h.putWay))
  · split
    · exact .ite (.answer (.settleKey (.onGroup h.putWay))) h.answer
    · exact h.answer
  · split
    · exact h.answer
    · split
      · exact h.answer
      · exact .ite h.answer (.answer h.putWay)
  · split
    · exact h.answer
    · split
      · exact h.answer
      · exact .ite (.answer (.upd (.onGroup h.putWay) rfl rfl)) (.answer h.putWay)
  · split
    · exact h.answer
    · exact .ite (.answer (h.upd rfl rfl)) h.answer
  · split
    · exact h.answer
    · exact h.answer

end State.Keeps

namespace Ops

variable {s : State}

open State (KeptBy KeptByRes Keeps)

theorem atomWord_kept {o d a b} : s.KeptBy (Ops.atomWord o d a b s) := by
  unfold Ops.atomWord
  refine word_kept fun c => .ite .stall ?_
  split
  · exact .trapWalked (.walks (.refl s))
  · dsimp only
    split
    · exact .stall
    next hd => exact issueLong_kept (.upd (.walks (.each ((Keeps.refl s).drainFor hd) fun _ _ h => h.observe)) rfl rfl)

/-- A way word, whose keys two of its lanes may share. -/
theorem wayin_kept {a b} : s.KeptBy (execWayin a b s) := word_kept fun _ => by
  dsimp only
  split
  · exact .trap
  · exact .ite (.ok (.ite (.refl s) (.acquire (.refl s)))) (.ok (.holdWay (.refl s)))

theorem wayout_kept {a} : s.KeptBy (execWayout a s) := word_kept fun _ => by
  refine .ite (.ok (.refl s)) ?_
  split
  · exact .stall
  next hr =>
    have h := (Keeps.refl s).release hr
    exact .ok (.ite h h.holdWay)

theorem wayskip_kept {a b} : s.KeptBy (execWayskip a b s) := word_kept fun _ => by
  dsimp only
  split
  · exact .trap
  · exact .ok (.ite (.refl s) (.holdWay (.refl s)))

theorem wayclose_kept {a} : s.KeptBy (execWayclose a s) := word_kept fun _ => .ok (.ite (.refl s) (.holdWay (.refl s)))

theorem longWay_kept {c minor op ks ask} : s.KeptByRes (s.longWay c minor op ks ask) := by
  unfold State.longWay
  refine .ite (issueLong_kept (.refl s)) ?_
  have hr : s.KeptByRes (s.issueLong c { op with waiting := ks.length }) := issueLong_kept (.refl s)
  split
  next he =>
    have h : s.Keeps _ := he ▸ hr
    exact .ok (.onGroup h.sendWay)
  · exact hr

theorem waytry_kept {d a b} : s.KeptBy (execWaytry d a b s) := word_kept fun _ => by
  dsimp only
  split
  · exact .trap
  · exact longWay_kept

theorem wayqry_kept {d a} : s.KeptBy (execWayqry d a s) := word_kept fun _ => longWay_kept

theorem serviceRequestEnqueue_kept {pod} : s.KeptBy (execServiceRequestEnqueue pod s) := by
  unfold execServiceRequestEnqueue
  dsimp only
  split
  · exact .same
  · split
    · exact .same
    · exact .ite .same (.next (.upd (.refl s) rfl rfl))

end Ops
end Sys2Proof.Machine

namespace Sys2Proof.Machine

namespace State.Keeps

variable {s t u : State}

/-! ### Replies, deadlock and skips of waypoints (09 R181, R193-R203) -/

theorem failWayin {gid op w cause lane born} (h : s.Keeps t) : s.Keeps (t.failWayin gid op w cause lane born) := h.withdrawKeys.endWay.presentTrapAt

theorem failKnown {gid op} (h : s.Keeps t) : s.Keeps (t.failKnown gid op) := by
  unfold State.failKnown
  dsimp only
  split
  · exact h
  · split
    · exact h
    · split
      · exact h.failWayin
      · exact h

theorem wayAnswered {gid op w} (h : s.Keeps t) : s.Keeps (t.wayAnswered gid op w) := by
  unfold State.wayAnswered
  split
  · dsimp only
    exact .ite h.withdrawKeys.onGroup (.ite h h.endWay.presentTrap)
  · exact .ite h.onGroup (.ite h.onGroup (.ite h.endWay h))

theorem wayReply {r w} (h : s.Keeps t) : s.Keeps (t.wayReply r w) := by
  have next {x u} (hu : s.Keeps u) : s.Keeps (if x.waiting = 0 then u.wayAnswered r.group r.op x else u) := .ite hu.wayAnswered hu
  unfold State.wayReply
  extract_lets got keep lessWaiting go
  split
  · exact .ite h.onGroup.failKnown (next h.onGroup.onGroup)
  · exact next h.onGroup.onGroup
  · exact next h.onGroup.onGroup
  · exact next h.onGroup.onGroup

theorem onSkips {gid op w f} (h : s.Keeps t) : s.Keeps (t.onSkips gid op w f) := h.each fun _ _ h => by
  split
  · exact h
  · exact .settleKey h.putWay

/-! ### Collectives and peer transfers (15 R313-R324) -/

theorem collData {x minor choice} (h : s.Keeps t) : s.KeptByRow Prod.fst (t.collData x minor choice) := by
  unfold State.collData
  extract_lets b a
  split
  · exact h
  · split
    · exact h
    · trivial
    next he =>
      have h1 : s.KeptByRow Prod.fst (.ok _) := he ▸ h.readRow
      extract_lets xs
      split
      · exact h1
      · split
        · exact h1
        · trivial
        next he =>
          have h2 : s.KeptByRow Prod.fst (.ok _) := he ▸ State.Keeps.readRow h1
          extract_lets rs sums q
          split
          next he => exact (he ▸ State.Keeps.writeRow h2 : s.KeptByRow id (.fault _ _))
          · trivial
          next he => exact (he ▸ State.Keeps.writeRow h2 : s.KeptByRow id (.ok _))

theorem contribution {core x minor choice} (h : s.Keeps t) : s.KeptByRow Prod.fst (t.contribution core x minor choice) := by
  unfold State.contribution
  extract_lets b con
  have hc := h.beginAq.collData (x := x) (minor := minor) (choice := choice) (t := t.beginAq core x.scope x.aq)
  split
  next he => exact (he ▸ hc : s.KeptByRow Prod.fst (.ok _))
  next he => exact (he ▸ hc : s.KeptByRow Prod.fst (.fault _ _))
  · trivial

theorem answerCmd {id st data} (h : s.Keeps t) : s.Keeps (t.answerCmd id st data) :=
  h.eachCore (f := fun _ k => k.mapCmds _) rfl rfl fun _ _ => rfl

theorem tell {c st data} (h : s.Keeps t) : s.Keeps (t.tell c st data) := by
  unfold State.tell
  split
  · exact h.answerCmd
  · exact h

theorem joinColl {c} (h : s.Keeps t) : s.Keeps (t.joinColl c) := by
  unfold State.joinColl
  have settle {i : Collective} {others} : s.Keeps (if i.parts.length = i.first.terms
      then Sys2Proof.Machine.each i.parts (fun p s => s.tell p 1 i.result) { t with collectives := others }
      else { t with collectives := others ++ [i] }) := .ite (.each (h.upd rfl rfl) fun _ _ h => h.tell) (h.upd rfl rfl)
  extract_lets same go
  split
  · exact .ite h.tell settle
  · exact .ite h.tell settle

theorem markSent {core id} (h : s.Keeps t) : s.Keeps (t.markSent core id) := h.onCore fun _ => rfl

theorem collReady {core choice r} (h : s.Keeps t) (hr : t.collReady core choice = some r) : s.Keeps r.1 := by
  unfold State.collReady at hr
  split at hr
  · cases hr
  · split at hr
    next he =>
      cases hr
      exact (he ▸ h.contribution : s.KeptByRow Prod.fst (.ok _))
    · cases hr

theorem collLeaves {core choice} (h : s.Keeps t) (hl : t.collLeaves core choice = some u) : s.Keeps u := by
  unfold State.collLeaves at hl
  split at hl
  · cases hl
  next hr =>
    split at hl
    · cases hl
      exact (h.collReady hr).markSent
    · cases hl

theorem hush {b} (h : s.Keeps t) : s.Keeps (t.hush b) := .ite (h.upd rfl rfl) h

theorem runColl {x core minor choice} (h : s.Keeps t) : s.KeptByEng (t.runColl x core minor choice) := by
  unfold State.runColl
  refine .ite h ?_
  split
  · refine .ite h ?_
    split
    next he => exact (he ▸ h.writeRow : s.KeptByRow id (.ok _))
    next he => exact (he ▸ h.writeRow : s.KeptByRow id (.fault _ _))
    · exact h
  · refine .ite h ?_
    split
    next he => exact (he ▸ h.contribution : s.KeptByRow Prod.fst (.fault _ _))
    · exact h
    · exact .ite h h

/-- What holds of both arms of a recursion over a number of steps. -/
theorem arms {α : Type} {p : α → Prop} {β : Nat → Type} {i m : Nat} {zero : Nat → β 0 → α} {succ : Nat → (n : Nat) → β (n + 1) → α} {x : β m}
    (h0 : ∀ x, p (zero i x)) (h1 : ∀ n (e : m = n + 1), p (succ i n (e ▸ x))) :
    p ((match (motive := Nat → (m : Nat) → β m → α) i, m with
      | i, 0 => zero i
      | i, n + 1 => succ i n) x) := by
  cases m
  · exact h0 x
  · exact h1 _ rfl

/-- A byte moved, and the rest after it. `State.moveBytes._f` is the step that the recursion iterates; the equation of `moveBytes` at n + 1 bytes is not asked
for, since the kernel would evaluate the first read to check it. -/
theorem moveByte {a choice f g src dst} (m) (rest : Nat.below (motive := fun _ => State → Nat → RowOut State) m) (t i) (h : s.Keeps t)
    (hrest : ∀ n (e : m = n + 1) u i, s.Keeps u → s.KeptByRow id ((e ▸ rest).1 u i)) :
    s.KeptByRow id (State.moveBytes._f a choice f g src dst m rest t i) := by
  delta State.moveBytes._f
  refine arms (p := s.KeptByRow id) (β := Nat.below (motive := fun _ => State → Nat → RowOut State)) (fun _ => h) fun n e => ?_
  extract_lets within p q
  have hr := h.hush.readRow (a := a) (choice := choice) (spaces := f) (unit := 1) (n := 1) (p := p) (t := t.hush (within p))
  split
  · exact h
  · trivial
  next s1 bytes he =>
    have h1 : s.Keeps { s1 with logRegs := t.logRegs } := .upd (he ▸ hr : s.KeptByRow Prod.fst (.ok _)) rfl rfl
    have hw := h1.hush.writeRow (a := a) (choice := 0) (spaces := g) (unit := 1) (p := q) (bytes := bytes) (t := State.hush _ (within q))
    split
    next he => exact hrest n e _ _ (.upd (he ▸ hw : s.KeptByRow id (.ok _)) rfl rfl)
    next he => exact .upd (he ▸ hw : s.KeptByRow id (.fault _ _)) rfl rfl
    · trivial

/-- What a recursion over a number of steps keeps. -/
theorem brecOn {α β : Type} {state : α → State} {n} {f : (n : Nat) → Nat.below (motive := fun _ => State → β → RowOut α) n → State → β → RowOut α}
    (hf : ∀ m rest t i, s.Keeps t → (∀ n (e : m = n + 1) u i, s.Keeps u → s.KeptByRow state ((e ▸ rest).1 u i)) → s.KeptByRow state (f m rest t i)) :
    ∀ {t : State} {i}, s.Keeps t → s.KeptByRow state (Nat.brecOn (motive := fun _ => State → β → RowOut α) n f t i) := by
  induction n with
  | zero => exact fun h => hf _ _ _ _ h fun _ e => nomatch e
  | succ n ih => exact fun h => hf _ _ _ _ h fun _ e => by cases e; exact fun _ _ h => ih h

/-- Bytes moved one after another. -/
theorem moveBytes {a choice f g src dst i n} (h : s.Keeps t) : s.KeptByRow id (t.moveBytes a choice f g src dst i n) := by
  delta State.moveBytes
  exact brecOn moveByte h

theorem runPut {x get choice} (h : s.Keeps t) : s.KeptByEng (t.runPut x get choice) := by
  unfold State.runPut
  refine .ite h (Keeps.finish (.rows h fun r u hu => ?_) fun _ h => h)
  dsimp only
  split
  next he => exact (he ▸ hu.moveBytes : s.KeptByRow id (.ok _))
  next he => exact (he ▸ hu.moveBytes : s.KeptByRow id (.fault _ _))
  · trivial

theorem runLink {x core choice} (h : s.Keeps t) : s.KeptByEng (t.runLink x core choice) := by
  unfold State.runLink
  split
  · exact h.runColl
  · exact h.runPut
  · exact h.runPut

theorem again {e} (h : s.Keeps t) : s.Keeps (t.again e) := h.of_eq rfl rfl

end State.Keeps

namespace Ops

variable {s : State}

open State (KeptBy KeptByRes Keeps)

theorem serviceRound_kept {pod} : s.KeptBy (execServiceRound pod s) := by
  refine .next (.each (.each (.upd (.refl s) rfl rfl) fun _ _ h => h.serve) fun r t h => ?_)
  split
  · exact h.failKnown
  · exact h

theorem serviceReply_kept {pod} : s.KeptBy (execServiceReply pod s) := by
  unfold execServiceReply
  split
  · exact .same
  next r _ =>
    have h : s.Keeps { s with replies := s.replies.erase r } := .upd (.refl s) rfl rfl
    dsimp only
    split
    · exact .next h
    · split
      · exact .next h.onGroup
      · split
        · exact .next h
        · exact .next h.wayReply

theorem wayinComplete_kept {group op} : s.KeptBy (execWayinComplete group op s) := by
  unfold execWayinComplete
  split
  · exact .same
  · split
    · exact .same
    · exact .ite (.next (.endWay (.acquire (.refl s)))) .same

theorem wayinTimeout_kept {group op} : s.KeptBy (execWayinTimeout group op s) := by
  unfold execWayinTimeout
  split
  · exact .same
  · split
    · exact .same
    · exact .ite (.next (.failWayin (.refl s))) .same

theorem waypointProbe_kept {group op} : s.KeptBy (execWaypointProbe group op s) := by
  have h : s.Keeps { s with probes := s.probes.erase (group, op) } := .upd (.refl s) rfl rfl
  unfold execWaypointProbe
  dsimp only
  split
  · exact .next h
  · split
    · exact .next h
    · split
      · exact .next (.failKnown h.onGroup)
      · exact .next h

theorem waypointPoison_kept {group lane} : s.KeptBy (execWaypointPoison group lane s) := by
  refine .next (.onGroup (.each (.upd (.refl s) rfl rfl) fun _ _ h => ?_))
  split
  · exact h
  · exact .settleKey (.upd h.putWay rfl rfl)

theorem wayskipFirm_kept {group op} : s.KeptBy (execWayskipFirm group op s) := by
  unfold execWayskipFirm
  split
  · exact .same
  · exact .ite (.next (.endWay (.onSkips (.refl s)))) .same

theorem wayskipRemove_kept {group op} : s.KeptBy (execWayskipRemove group op s) := by
  unfold execWayskipRemove
  split
  · exact .same
  · split
    · exact .same
    · exact .ite (.next (.presentTrap (.endWay (.onSkips (.refl s))))) .same

theorem collectiveContribution_kept {con} : s.KeptBy (execCollectiveContribution con s) := by
  unfold execCollectiveContribution
  refine .ite .same ?_
  split
  · exact .next (.joinColl (.refl s))
  · split
    · exact .same
    next hr => exact .ite (.next (.joinColl (.markSent ((Keeps.refl s).collReady hr)))) .same

theorem linkFlitRetry_kept {port} : s.KeptBy (execLinkFlitRetry port s) := .next (.upd (.refl s) rfl rfl)
theorem virtualChannelPause_kept {port vc on} : s.KeptBy (execVirtualChannelPause port vc on s) := .next (.upd (.refl s) rfl rfl)

theorem peerRequest_kept {peer req} : s.KeptBy (execPeerRequest peer req s) := by
  have h := Keeps.refl s
  unfold execPeerRequest
  dsimp only
  split
  · exact .next (.each h fun _ _ h => h.logRequest)
  · exact .ite .same (.ite (.next h.again) (.next (.writeBytes h.logWrites)))
  · exact .ite .same (.ite (.next h.again) (.next h.applyAtom))
  · exact .ite (.next h.answerCmd) .same

end Ops
end Sys2Proof.Machine

namespace Sys2Proof.Machine

namespace State.Keeps

variable {s t u : State}

/-! ### Commands of the tile engine (12 R254-R268) -/

theorem runTmm {x minus acc oa ob z} (h : s.Keeps t) : s.KeptByEng (t.runTmm x minus acc oa ob z) := by
  unfold State.runTmm
  split
  · refine .ite (.fault h) ?_
    extract_lets put
    split
    · exact .ok h.onUnitOf
    · exact .ite (.fault h) (.ite (.fault h.onUnitOf) (.stand h.onUnitOf))
  · exact .fault h

theorem runTileMove {x load acc cv choice} (h : s.Keeps t) : s.KeptByEng (t.runTileMove x load acc cv choice) := by
  unfold State.runTileMove
  split
  · exact .fault h
  · refine .ite (.fault h) (Keeps.finish (.rows h fun r u hu => ?_) fun _ h => h)
    dsimp only
    split
    · split
      next he =>
        have hr : s.KeptByRow Prod.fst (.ok _) := he ▸ hu.readRow
        exact Keeps.onUnitOf hr
      · exact hu
      · trivial
    · split
      next he => exact (he ▸ hu.writeRow : s.KeptByRow id (.ok _))
      next he => exact (he ▸ hu.writeRow : s.KeptByRow id (.fault _ _))
      · trivial

theorem runAcc {x acc f} (h : s.Keeps t) : s.KeptByEng (t.runAcc x acc f) := by
  unfold State.runAcc
  split
  · exact .fault h
  · exact .ok h.onUnitOf

theorem runTrel {x} (h : s.Keeps t) : s.KeptByEng (t.runTrel x) := .ok h.onBlock

theorem workedSubs {core x st} (h : s.Keeps t) : s.Keeps (t.workedSubs core x st) := by
  unfold State.workedSubs
  split
  · exact .ite h (h.onCore fun _ => rfl)
  · exact h

/-! ### Engine commands as they are performed (11 R234, R235) -/

theorem runCmd {x core choice} (h : s.Keeps t) : s.KeptByEng (t.runCmd x core choice) := by
  unfold State.runCmd
  split
  · exact h.runCopy
  · exact h.runTmm
  · exact h.runAcc
  · exact h.runTileMove
  · exact h.runTileMove
  · exact h.runTrel
  · exact h.runTrel
  · exact h.runAcc
  iterate 9 exact h.runChart
  iterate 7 exact h.runBank
  iterate 3 exact h.runLink

theorem perform {x core choice} (h : s.Keeps t) : s.KeptByEng (t.perform x core choice) := by
  unfold State.perform
  extract_lets r
  have hr : s.KeptByEng r := by
    unfold r
    split
    · exact .stand h
    · exact .ite h h.beginAq.runCmd
  split
  · refine .ite ?_ hr
    split
    next he => exact Keeps.endRl hr he
    · exact hr
  · exact hr

theorem engineTurn {core e choice x r} (h : s.Keeps t) (ht : t.engineTurn core e choice = some (x, r)) : s.KeptByEng r := by
  obtain ⟨x, -, hx⟩ := List.exists_of_findSome?_eq_some ht
  split at hx
  · cases hx
    exact h.perform
  · cases hx

theorem busyTurn {core e x r} (h : s.Keeps t) (ht : t.busyTurn core e = some (x, r)) : s.KeptByEng r := by
  obtain ⟨x, -, hx⟩ := List.exists_of_findSome?_eq_some ht
  dsimp only at hx
  split at hx
  · cases hx
    exact h.perform
  · cases hx

theorem endCmd {core e x st} (h : s.Keeps t) : s.Keeps (t.endCmd core e x st) := by
  refine .writeToken (.workedSubs (h.onCore fun k => ?_))
  dsimp only
  split <;> exact k.setQueue_clock _ _

theorem settleCmd {core e x} {r : EngOut} (h : s.KeptByEng r) : s.Keeps (State.settleCmd core e x r) := by
  unfold State.settleCmd
  split
  · exact Keeps.endCmd h
  · exact Keeps.onCore h fun k => k.setQueue_clock _ _

/-! ### What a failing link ends (15 R313) -/

theorem failWord {far w} (h : s.Keeps t) : s.Keeps (State.failWord far w t) := .upd h.onGroup rfl rfl

theorem failStore {far tells x} (h : s.Keeps t) : s.Keeps (State.failStore far tells x t) := by
  have h1 {f} (hf : ∀ k : Core, (f k).clock = k.clock) : s.Keeps (t.onCore x.1 f) := h.onCore hf
  unfold State.failStore
  dsimp only
  split
  · exact .presentTrap (h1 fun _ => rfl)
  · exact h1 fun _ => rfl

end State.Keeps

theorem Core.setClaimLine_clock (k : Core) (acc : Bool) (l : List Claim) : (k.setClaimLine acc l).clock = k.clock := by
  cases acc <;> rfl

namespace Ops

variable {s : State}

open State (KeptBy KeptByRes Keeps)

/-! ### Tile words -/

theorem tileWord_kept {cmd t} : s.KeptBy (Ops.tileWord cmd t s) := word_kept fun _ => enqueue_kept (.refl s)
theorem tileMoveWord_kept {cmd t p} : s.KeptBy (Ops.tileMoveWord cmd t p s) := word_kept fun _ => enqueue_kept (.refl s)
theorem trelWord_kept {acc name t} : s.KeptBy (Ops.trelWord acc name t s) := word_kept fun _ => enqueue_then fun _ h => .ok h.onUnitOf

theorem claimWord_kept {acc t d n} : s.KeptBy (Ops.claimWord acc t d n s) := word_kept fun _ => by
  refine .ite .stall (.ite (.ok (.writeToken (.refl s))) (.ok (.onCore ?_ fun k => k.setClaimLine_clock _ _)))
  exact .upd (.refl s) rfl rfl

theorem tclaimGrant_kept {core acc} : s.KeptBy (execTclaimGrant core acc s) := by
  unfold execTclaimGrant
  split
  · exact .same
  · exact .next (.writeToken (.writeToken (.onBlock (.onCore (.refl s) fun k => k.setClaimLine_clock _ _))))

theorem subarrayGate_kept {core sub} : s.KeptBy (execSubarrayGate core sub s) := .ite (.next (.onCore (.refl s) fun _ => rfl)) .same

/-! ### Events of the engines -/

theorem engineCommandComplete_kept {core engine} : s.KeptBy (execEngineCommandComplete core engine s) := by
  unfold execEngineCommandComplete
  split
  next ht => exact .next (.settleCmd ((Keeps.refl s).engineTurn ht))
  · split
    · refine .next ?_
      cases hl : s.collLeaves core s.pick with
      | none => exact .refl s
      | some u => exact (Keeps.refl s).collLeaves hl
    · exact .same

theorem engineBusyTimeout_kept {core engine} : s.KeptBy (execEngineBusyTimeout core engine s) := by
  unfold execEngineBusyTimeout
  split
  · exact .same
  next ht => exact .next (Keeps.endCmd ((Keeps.refl s).busyTurn ht))

theorem linkRetryExhausted_kept {core} : s.KeptBy (execLinkRetryExhausted core s) := by
  have h := Keeps.refl s
  unfold execLinkRetryExhausted
  dsimp only
  split
  · exact .next h.answerCmd
  · exact .next h.failWord
  · exact .next h.failStore
  · exact .next (h.onCore fun _ => rfl)

theorem peerReset_kept {peer} : s.KeptBy (execPeerReset peer s) :=
  .next (.each (.each (.each (.each (.upd (.refl s) rfl rfl) fun _ _ h => h.tell) fun _ _ h => h.answerCmd) fun _ _ h => h.failStore)
    fun _ _ h => h.failWord)

end Ops
end Sys2Proof.Machine

namespace Sys2Proof.Machine

namespace State.Keeps

variable {s t u : State}

theorem extendBy {i image} (h : s.Keeps t) : s.Keeps (t.extendBy i image) := h.of_eq rfl rfl

/-! ### The Pilot (10 R206-R226) -/

theorem startLaunch {n l} (h : s.Keeps t) : s.Keeps (t.startLaunch n l) := by
  refine .onContext (.onQueue ?_)
  exact .upd h rfl rfl

theorem writeHead {n loc head} (h : s.Keeps t) : s.Keeps (t.writeHead n loc head) := .ite h.onQueue (.onQueue h.writeNat)

theorem placeBlock {launch r core cluster linear rank} (h : s.Keeps t) : s.Keeps (t.placeBlock launch r core cluster linear rank) := by
  refine .setScratch (.onCore (.onCluster ?_) fun _ => rfl)
  exact .upd h rfl rfl

theorem placeRest {launch r cores cluster n} :
    ∀ {t : State} {linear rank}, s.Keeps t → t.placeRest launch r cores cluster n linear rank = some u → s.Keeps u := by
  induction n with
  | zero =>
    intro t linear rank h hp
    cases hp
    exact h
  | succ n ih =>
    intro t linear rank h hp
    unfold State.placeRest at hp
    split at hp
    · cases hp
    · exact ih h.placeBlock hp

theorem placeCluster {launch r linear} (h : s.Keeps t) (hp : t.placeCluster launch r linear = some u) : s.Keeps u := by
  have h1 {id} : s.Keeps { t with nextId := id + 1, clusters := Tab.put t.clusters id { blocks := [], barriers := [] } } := h.upd rfl rfl
  unfold State.placeCluster at hp
  dsimp only at hp
  split at hp
  · exact h1.placeRest hp
  · obtain ⟨p, -, hp⟩ := List.exists_of_findSome?_eq_some hp
    exact h1.placeRest hp

theorem placeGrid {launch r n} : ∀ {t : State} {linear}, s.Keeps t → t.placeGrid launch r n linear = some u → s.Keeps u := by
  induction n with
  | zero =>
    intro t linear h hp
    cases hp
    exact h
  | succ n ih =>
    intro t linear h hp
    unfold State.placeGrid at hp
    split at hp
    · cases hp
    next hc => exact ih (h.placeCluster hc) hp

theorem tryPlace {launch l} (h : s.Keeps t) (hp : t.tryPlace launch l = some u) : s.Keeps u := by
  unfold State.tryPlace at hp
  split at hp
  · split at hp
    · cases hp
    · obtain ⟨t1, hg, rfl⟩ := Option.map_eq_some_iff.1 hp
      exact (h.placeGrid hg).onLaunch
  · obtain ⟨t1, hc, rfl⟩ := Option.map_eq_some_iff.1 hp
    exact (h.placeCluster hc).onLaunch

theorem readyPlace {n} (h : s.Keeps t) (hp : t.readyPlace n = some u) : s.Keeps u := by
  unfold State.readyPlace at hp
  dsimp only at hp
  split at hp
  · cases hp
  · split at hp
    · cases hp
    · split at hp
      · exact h.tryPlace hp
      · cases hp

theorem noteReady (h : s.Keeps t) : s.Keeps t.noteReady := h.each fun _ _ h => h.onQueue
theorem takeWrites (h : s.Keeps t) : s.Keeps t.takeWrites := h.each fun _ _ h => h.onQueue

theorem countLaunch {id l} (h : s.Keeps t) : s.Keeps (t.countLaunch id l) := by
  unfold State.countLaunch
  extract_lets s1 s2
  have h1 : s.Keeps s1 := by
    unfold s1
    split
    · exact .upd h.writeBytes rfl rfl
    · exact h
  exact .onLaunch (.ite (.upd h1 rfl rfl) h1)

theorem logCompletion {l} (h : s.Keeps t) : s.Keeps (t.logCompletion l) := .ite h (.each h fun _ _ h => h.logRequest)

theorem tellCompletion {l} (h : s.Keeps t) : s.Keeps (t.tellCompletion l) := by
  unfold State.tellCompletion
  dsimp only
  split
  · exact h.logCompletion.onQueue
  · exact h.logCompletion
  · exact h.logCompletion.writeNat

theorem dropLaunch {id} (h : s.Keeps t) : s.Keeps (t.dropLaunch id) := h.of_eq rfl rfl

end State.Keeps

namespace Ops

variable {s : State}

open State (KeptBy KeptByRes Keeps)

/-! ### Floating-point, geometry and integer words -/

theorem f32bin_kept {d a b f} : s.KeptBy (Ops.f32bin d a b f s) := fpu_kept
theorem f32tern_kept {d a b f} : s.KeptBy (Ops.f32tern d a b f s) := fpu_kept
theorem f32un_kept {d a f} : s.KeptBy (Ops.f32un d a f s) := fpu_kept
theorem f64bin_kept {d a b f} : s.KeptBy (Ops.f64bin d a b f s) := fpu_kept
theorem f64tern_kept {d a b f} : s.KeptBy (Ops.f64tern d a b f s) := fpu_kept
theorem f64un_kept {d a f} : s.KeptBy (Ops.f64un d a f s) := fpu_kept
theorem half_kept {d a b f} : s.KeptBy (Ops.half d a b f s) := fpu_kept
theorem cvt_kept {d nd a ns f} : s.KeptBy (Ops.cvt d nd a ns f s) := fpu_kept
theorem xfn_kept {d a f} : s.KeptBy (Ops.xfn d a f s) := fpuLong_kept
theorem geo_kept {sig d nd f} : s.KeptBy (Ops.geo sig d nd f s) := word_kept fun _ => issueLong_kept (.refl s)
theorem sel_kept {k d a b} : s.KeptBy (execSel k d a b s) := word_kept fun _ => .ok (.putRegs (.refl s))
theorem msadB4_kept {m d a b} : s.KeptBy (execMsadB4 m d a b s) := word_kept fun _ => .trap

/-! ### Resets and measurement (17 R345-R349) -/

theorem deviceReset_kept {images} : s.KeptBy (execDeviceReset images s) :=
  .next (.each ⟨State.filter_kept _, fun _ _ he => nomatch he⟩ fun _ _ h => h.extendBy)

theorem managementFirmwareStageLoad_kept {reg image} : s.KeptBy (execManagementFirmwareStageLoad reg image s) :=
  .next (.ite (.extendBy (.refl s)) (.refl s))

theorem doeMeasurementRequest_kept {nonce} : s.KeptBy (execDoeMeasurementRequest nonce s) := .next (.upd (.refl s) rfl rfl)
theorem doeKeyRequest_kept : s.KeptBy (execDoeKeyRequest s) := .next (.upd (.refl s) rfl rfl)

/-! ### The Pilot -/

theorem queueTailWrite_kept {queue} : s.KeptBy (execQueueTailWrite queue s) := .ite .same (.next (.onQueue (.refl s)))

theorem launchRecordCopy_kept {queue} : s.KeptBy (execLaunchRecordCopy queue s) := by
  unfold execLaunchRecordCopy
  extract_lets q
  refine .ite .same ?_
  split
  · exact .next (.writeHead (.refl s))
  · split
    · split
      · exact .next (.onQueue (.refl s))
      · exact .next (.startLaunch (.writeHead (.refl s)))
    · split
      · exact .same
      · refine .next (.startLaunch ?_)
        exact .upd (.refl s) rfl rfl

theorem qstatStopClear_kept {queue} : s.KeptBy (execQstatStopClear queue s) := .next (.onQueue (.refl s))
theorem qstatCfaultClear_kept {queue} : s.KeptBy (execQstatCfaultClear queue s) := .next (.onQueue (.refl s))

theorem blockPlacement_kept {queue} : s.KeptBy (execBlockPlacement queue s) := by
  unfold execBlockPlacement
  dsimp only
  refine .ite .same ?_
  split
  · exact .same
  next hp =>
    have h1 := (Keeps.refl s).readyPlace hp
    exact .next (.takeWrites (.each (.upd h1 rfl rfl) fun _ _ h => h.onQueue))

theorem launchComplete_kept {launch} : s.KeptBy (execLaunchComplete launch s) := by
  unfold execLaunchComplete
  split
  · exact .same
  next l _ =>
    have h1 : s.Keeps (if l.counted then s else s.countLaunch launch l) := .ite (.refl s) (.countLaunch (.refl s))
    exact .ite .same (.ite (.next (.dropLaunch (.refl s))) (.ite (.next h1) (.next (.dropLaunch (.tellCompletion h1)))))

theorem fetchwFill_kept {block} : s.KeptBy (execFetchwFill block s) := by
  unfold execFetchwFill
  split
  · exact .same
  · split
    · have h := Keeps.refl s
      exact .ite .same (.ite (.next h.onBlock.writeNat) (.ite (.next h.onBlock.writeNat)
        (.next (.writeNat (.writeNat (.writeNat (.writeNat (.onBlock (.onLaunch h.onBlock)))))))))
    · exact .same

theorem launchAnswer_kept {group op} : s.KeptBy (execLaunchAnswer group op s) := by
  unfold execLaunchAnswer
  split
  · exact .same
  · split
    · exact .same
    · extract_lets n l queued rec1 out s1
      have hout : s.Keeps out.2 := by
        unfold out
        split
        · exact .refl s
        · split
          · exact .refl s
          · exact .upd (.refl s) rfl rfl
      exact .next (.onGroup (.upd hout rfl rfl))

end Ops
end Sys2Proof.Machine

namespace Sys2Proof.Machine

namespace State.Keeps

variable {s t u : State}

/-! ### Pre-emption (16 R334-R341) -/

theorem clearScratch {bn} (h : s.Keeps t) : s.Keeps (t.clearScratch bn) := h.filterMem rfl rfl

theorem forget {core bn gids} (h : s.Keeps t) : s.Keeps (t.onCore core fun k => k.forget bn gids) := h.onCore fun _ => rfl

theorem stowBlock {preok bn} (h : s.Keeps t) : s.Keeps (t.stowBlock preok bn) := by
  unfold State.stowBlock
  split
  · exact h
  · refine .ite h ?_
    have h3 {ids core gids banks f} : s.Keeps ((Sys2Proof.Machine.each banks (fun (e : Nat × PChannel) s => s.leaveBankMode e.1)
        (((t.stopBlock bn).stopCal ids).onCore core fun k => k.forget bn gids)).onBlock bn f) :=
      .onBlock (.each h.stopBlock.stopCal.forget fun _ _ h => h.leaveBankMode)
    extract_lets k gids banks s1 s2 s3 lose s4
    have h4 : s.Keeps s4 := by
      refine .setScratch (.setTimers ?_)
      exact .upd h3 rfl rfl
    exact .ite h4.clearScratch h4

theorem writeFree {lo n} (h : s.Keeps t) : s.Keeps (t.writeFree lo n) := ⟨fun hs => State.writeFree_kept lo n (h.memory hs), h.clocks⟩
theorem countMiss {ctx} (h : s.Keeps t) : s.Keeps (t.countMiss ctx) := h.onContext
theorem setCourse {unit u course} (h : s.Keeps t) : s.Keeps (t.setCourse unit u course) := .each h.onUnit fun _ _ h => h.wakeBlock

theorem swapOut {unit x preok} (h : s.Keeps t) (hs : t.swapOut unit x preok = some u) : s.Keeps u := by
  unfold State.swapOut at hs
  extract_lets bs size s1 s2 mine lo at hs
  have h2 : s.Keeps s2 := .each (.each h fun _ _ h => h.stowBlock) fun _ _ h => h.drainFree
  split at hs
  · cases hs
  · split at hs
    · cases hs
      exact h.setCourse.countMiss
    · split at hs
      · cases hs
      · cases hs
        exact h2.writeFree.onUnit

theorem flushBlock {bn} (h : s.Keeps t) : s.Keeps (t.flushBlock bn) := by
  unfold State.flushBlock
  split
  · exact h
  · refine .ite h (.clearScratch ?_)
    refine .upd ?_ rfl rfl
    exact .setScratch (.onBlock (.onLaunch (.onCluster (.each (.forget (.stopCal (.each h fun _ _ h => .each h fun _ _ h => h.withdrawKeys)))
      fun _ _ h => h.leaveBankMode))))

theorem expiry {unit x} (h : s.Keeps t) (he : t.expiry unit x = some u) : s.Keeps u := by
  unfold State.expiry at he
  split at he
  · cases he
  · split at he
    · split at he
      · cases he
        exact h.countMiss.onUnit
      · cases he
    · exact h.swapOut he
    · cases he
    · split at he
      · exact h.swapOut he
      · split at he
        · cases he
        · extract_lets s1 c s2 s3 at he
          have h3 : s.Keeps s3 := by
            have h2 : s.Keeps s2 := .setCourse (.each h fun _ _ h => h.stopBlock)
            exact .ite h2.countMiss h2
          cases he
          exact .ite (.onUnit (.each h3 fun _ _ h => h.flushBlock)) h3

theorem scramble {gid} (h : s.Keeps t) : s.Keeps (t.scramble gid) := by
  unfold State.scramble
  split
  · exact h
  · refine .onGroup ?_
    exact .upd h rfl rfl

theorem unstowBlock {flushed preok bn b core} (h : s.Keeps t) : s.Keeps (t.unstowBlock flushed preok bn b core) := by
  unfold State.unstowBlock
  extract_lets ctx place id gs s1 line back s2 who enter
  have hplace {v} (hv : s.Keeps v) : s.Keeps (place v) := .setTimers (.setScratch (.onCore (.onBlock hv) fun _ => rfl))
  refine .ite ?_ ?_
  · split
    · exact h
    · exact hplace (.upd h rfl rfl)
  · have h1 : s.Keeps s1 := .each h fun _ _ h => .onGroup (.ite h h.scramble)
    refine hplace (.each (.onCore h1 fun k => ?_) fun _ _ h => .onPchannel h.enterBankMode)
    exact each_induction (P := fun x : Core => x.clock = k.clock) b.kept back k rfl fun e x hx => (x.setQueue_clock _ _).trans hx

theorem unstowOn {flushed preok cores bs} : ∀ {t : State}, s.Keeps t → t.unstowOn flushed preok cores bs = some u → s.Keeps u := by
  induction bs with
  | nil =>
    intro t h hu
    cases hu
    exact h
  | cons e rest ih =>
    intro t h hu
    unfold State.unstowOn at hu
    split at hu
    · cases hu
    · exact ih h.unstowBlock hu

theorem unstowCluster {flushed preok bs} (h : s.Keeps t) (hu : t.unstowCluster flushed preok bs = some u) : s.Keeps u := by
  unfold State.unstowCluster at hu
  dsimp only at hu
  split at hu
  · exact h.unstowOn hu
  · obtain ⟨p, -, hu⟩ := List.exists_of_findSome?_eq_some hu
    exact h.unstowOn hu

/-- A fold over steps that may have to wait. -/
theorem foldlOpt {α : Type} {l : List α} {f : State → α → Option State} (hf : ∀ t a u, s.Keeps t → f t a = some u → s.Keeps u) :
    ∀ {o : Option State}, (∀ t, o = some t → s.Keeps t) → l.foldl (fun o a => o.bind fun t => f t a) o = some u → s.Keeps u := by
  induction l with
  | nil => exact fun ho hu => ho u hu
  | cons a l ih =>
    refine fun {o} ho hu => ih (fun t ht => ?_) hu
    obtain ⟨v, hv, hvt⟩ := Option.bind_eq_some_iff.1 ht
    exact hf v a t (ho v hv) hvt

theorem restore {unit x} (h : s.Keeps t) (hr : t.restore unit x = some u) : s.Keeps u := by
  unfold State.restore at hr
  split at hr
  · cases hr
  · extract_lets bs flushed open' settled clusters go at hr
    split at hr
    · cases hr
    · obtain ⟨v, hv, rfl⟩ := Option.map_eq_some_iff.1 hr
      have h1 : s.Keeps v := foldlOpt (fun _ _ _ h hu => h.unstowCluster hu) (fun _ ht => Option.some.inj ht ▸ h) hv
      exact .upd h1 rfl rfl

end State.Keeps

namespace Ops

variable {s : State}

open State (KeptBy KeptByRes Keeps)

theorem preemptRequest_kept {block} : s.KeptBy (execPreemptRequest block s) := by
  unfold execPreemptRequest
  split
  · exact .same
  · exact .ite .same (.ite (.next (.again (.refl s))) (.next (.each (.upd (.refl s) rfl rfl) fun _ _ h => .stopBlock h.onBlock)))

theorem preemptHandlerEntry_kept {unit} : s.KeptBy (execPreemptHandlerEntry unit s) := by
  unfold execPreemptHandlerEntry
  split
  · exact .same
  · exact .ite .same (.next (.onUnit (.each (.each (.refl s) fun _ _ h => h.stopBlock) fun _ _ h => .onGroup h.fresh)))

theorem preok_kept : s.KeptBy (execPreok s) := word_kept fun _ => by
  refine .ite .trap ?_
  split
  · exact .ok (.refl s)
  · exact .ite (.ok (.refl s)) (.jump (.noteHanded (.waitFor (.advance (.refl s)))))

theorem preboundExpiry_kept {unit} : s.KeptBy (execPreboundExpiry unit s) := by
  unfold execPreboundExpiry
  split
  · exact .same
  next u _ =>
    refine .next ?_
    cases he : s.expiry unit u with
    | none => exact .refl s
    | some v => exact (Keeps.refl s).expiry he

theorem unitRestore_kept {unit} : s.KeptBy (execUnitRestore unit s) := by
  unfold execUnitRestore
  split
  · exact .same
  next u _ =>
    refine .next ?_
    cases hr : s.restore unit u with
    | none => exact .refl s
    | some v => exact (Keeps.refl s).restore hr

end Ops
end Sys2Proof.Machine

namespace Sys2Proof.Machine

namespace State.Keeps

variable {s t u : State}

/-! ### Registers, rest states and the host (17 R343-R348, R355) -/

theorem writeQueue {n o v} (h : s.Keeps t) : s.Keeps (t.writeQueue n o v) := h.onQueue
theorem writeTrgo {v} (h : s.Keeps t) : s.Keeps (t.writeTrgo v) := .ite (h.upd rfl rfl) h

theorem writeTrial {o v} (h : s.Keeps t) : s.Keeps (t.writeTrial o v) := by
  unfold State.writeTrial
  dsimp only
  split
  case h_4 => exact h.writeTrgo
  case h_9 => exact h
  all_goals exact .upd h rfl rfl

theorem writeReg {off v} (h : s.Keeps t) : s.Keeps (t.writeReg off v) := by
  unfold State.writeReg
  refine .ite (.upd h rfl rfl) (.ite (.onCore h fun _ => rfl) (.ite h.writeQueue (.ite (.upd h rfl rfl) (.ite ?_ (.ite (.upd h rfl rfl)
    (.ite h.writeTrial (.ite (.upd h rfl rfl) h)))))))
  exact .ite h.writeResume h.onContext

theorem noteIdle (h : s.Keeps t) : s.Keeps t.noteIdle := .ite (.ite h (h.upd rfl rfl)) (.ite h (h.upd rfl rfl))
theorem awaken (h : s.Keeps t) : s.Keeps t.awaken := .ite h (h.upd rfl rfl)
theorem noteWake (h : s.Keeps t) : s.Keeps t.noteWake := .ite h.awaken h

/-! ### Translations dropped (08 R178) -/

theorem settleInvals (h : s.Keeps t) : s.Keeps t.settleInvals := .ite h (h.upd rfl rfl)
theorem dropXlats {tlb walk} (h : s.Keeps t) : s.Keeps (t.dropXlats tlb walk) :=
  h.eachCore (f := fun _ c => { c with tlb := c.tlb.filter fun e => !tlb e }) rfl rfl fun _ _ => rfl

end State.Keeps

namespace Ops

variable {s : State}

open State (KeptBy KeptByRes Keeps)

theorem mgmtRegisterWrite_kept {off wide v} : s.KeptBy (execMgmtRegisterWrite off wide v s) := by
  unfold execMgmtRegisterWrite
  dsimp only
  split
  · exact .same
  · exact .ite (.next (.ite (.writeReg (.writeReg (.refl s))) (.refl s))) (.next (.ite (.writeReg (.refl s)) (.refl s)))

theorem restctlWrite_kept {v} : s.KeptBy (execRestctlWrite v s) := .next (.upd (.refl s) rfl rfl)
theorem trgoWrite_kept {v} : s.KeptBy (execTrgoWrite v s) := .next (.writeTrgo (.refl s))
theorem trialEnd_kept : s.KeptBy (execTrialEnd s) := .ite (.next (.upd (.refl s) rfl rfl)) .same

theorem functionLevelReset_kept : s.KeptBy (execFunctionLevelReset s) :=
  .next (.upd (.each (.refl s) fun _ _ h => h.killLaunch) rfl rfl)

theorem restStateEntry_kept : s.KeptBy (execRestStateEntry s) := by
  unfold execRestStateEntry
  split
  · exact .same
  next n _ =>
    extract_lets cold s1 s2 s3
    have h2 : s.Keeps s2 := .ite (.upd (.refl s) rfl rfl) (Keeps.eachCore (f := fun _ k => cold k) (.refl s) rfl rfl fun _ _ => rfl)
    exact .next (.ite h2 (.filterMem h2.writeBack rfl rfl))

theorem restExit_kept : s.KeptBy (execRestExit s) := by
  unfold execRestExit
  split
  · exact .next (.ite (.upd (.refl s) rfl rfl) (.refl s))
  · exact .same

theorem cxlMemAccess_kept {pa write} : s.KeptBy (execCxlMemAccess pa write s) := by
  unfold execCxlMemAccess
  split
  · exact .next (.logRequest (.refl s))
  · exact .ite .same (.ite (.next (.again (.refl s))) (.next (.writeBytes (.logWrites (.refl s)))))

theorem cxlCacheCoherenceRequest_kept {line write} : s.KeptBy (execCxlCacheCoherenceRequest line write s) := by
  unfold execCxlCacheCoherenceRequest
  split
  · exact .same
  · exact .ite .same (.next (.writeBytes (.refl s)))

theorem tlbinv_kept {sig sel tlb walk ctxs roots} : s.KeptBy (Ops.tlbinv sig sel tlb walk ctxs roots s) := word_kept fun c => by
  split
  · exact .stall
  next s1 hr =>
    have h1 : s.Keeps s1 := (Keeps.refl s).release hr
    extract_lets s2 clear take s3 gone by' x
    have h3 : s.Keeps s3 := .upd h1.dropXlats rfl rfl
    refine .ite (.ok h3) (.ok (.waitFor ?_))
    exact .upd h3 rfl rfl

theorem tlbinvPage_kept {o n} : s.KeptBy (execTlbinvPage o n s) := by
  unfold execTlbinvPage
  exact tlbinv_kept

theorem tlbinvCtx_kept {n} : s.KeptBy (execTlbinvCtx n s) := by
  unfold execTlbinvCtx
  exact tlbinv_kept

theorem tlbinvAll_kept : s.KeptBy (execTlbinvAll s) := by
  unfold execTlbinvAll
  exact tlbinv_kept

/-! ### Mask words and cross-lane words (04 R88, 05 R103-R110) -/

theorem mask2_kept {d a b f} : s.KeptBy (Ops.mask2 d a b f s) := word_kept fun _ => .ok (.putMask (.refl s))
theorem maskToS_kept {d a f} : s.KeptBy (Ops.maskToS d a f s) := word_kept fun _ => .ok (.putRegs (.refl s))
theorem stom_kept {d a q} : s.KeptBy (execStom d a q s) := word_kept fun _ => .ok (.putMask (.refl s))
theorem mlanes_kept {d a} : s.KeptBy (execMlanes d a s) := word_kept fun _ => .ok (.putMask (.refl s))
theorem moveLanes_kept {d a b pick} : s.KeptBy (Ops.moveLanes d a b pick s) := word_kept fun _ => issueLong_kept (.refl s)
theorem bcast_kept {d a b} : s.KeptBy (execBcast d a b s) := word_kept fun _ => .ok (.putRegs (.refl s))
theorem rdlane_kept {d a b} : s.KeptBy (execRdlane d a b s) := wordBy_kept fun _ => .ok (.putRegs (.refl s))
theorem wrlane_kept {d a b} : s.KeptBy (execWrlane d a b s) := wordBy_kept fun _ => .ok (.ite (.onGroup (.refl s)) (.refl s))

theorem derive_kept {d a near far} : s.KeptBy (Ops.derive d a near far s) := word_kept fun _ => by
  dsimp only
  split
  · exact .trap
  · exact .ok (.orFlags (.putRegs (.refl s)))

theorem vrdi_kept {d a} : s.KeptBy (execVrdi d a s) := wordBy_kept fun _ =>
  .ite .trap (.ite (.ite .trap (.ite .stall (.ok (.putRegs (.refl s))))) (.ok (.putRegs (.refl s))))

theorem vwri_kept {a b} : s.KeptBy (execVwri a b s) := wordBy_kept fun _ => .ite .trap (.ok (.putRegs (.refl s)))
theorem reduce_kept {d a f} : s.KeptBy (Ops.reduce d a f s) := word_kept fun _ => .ok (.putRegs (.refl s))
theorem raddF32_kept {d a} : s.KeptBy (execRaddF32 d a s) := word_kept fun _ => .ite .trap (.ok (.orFlags (.putRegs (.refl s))))
theorem ballot_kept {d a} : s.KeptBy (execBallot d a s) := word_kept fun _ => .ok (.putMask (.refl s))

end Ops
end Sys2Proof.Machine

namespace Sys2Proof.Machine
namespace Ops

variable {s : State}

open State (KeptBy)

/-- What an instruction leaves keeps the invariants: the arms of `exec`, by the operation that gives each its meaning. -/
theorem exec_kept (i : Instr) : s.KeptBy (exec i s) := by
  unfold exec
  cases i with
  | clauseDecode => exact clauseDecode_kept
  | resultWriteback => exact resultWriteback_kept
  | asyncFault => exact asyncFault_kept
  | trapEntry => exact trapEntry_kept
  | killRecordWrite => exact killRecordWrite_kept
  | mgmtLaunchKill => exact mgmtLaunchKill_kept
  | groupEnd => exact groupEnd_kept
  | launchComplete => exact launchComplete_kept
  | queueTailWrite => exact queueTailWrite_kept
  | launchRecordCopy => exact launchRecordCopy_kept
  | blockPlacement => exact blockPlacement_kept
  | qstatStopClear => exact qstatStopClear_kept
  | qstatCfaultClear => exact qstatCfaultClear_kept
  | mgmtRegisterWrite => exact mgmtRegisterWrite_kept
  | resumeWrite => exact resumeWrite_kept
  | restctlWrite => exact restctlWrite_kept
  | trgoWrite => exact trgoWrite_kept
  | trialEnd => exact trialEnd_kept
  | restStateEntry => exact restStateEntry_kept
  | restExit => exact restExit_kept
  | functionLevelReset => exact functionLevelReset_kept
  | deviceReset => exact deviceReset_kept
  | doeMeasurementRequest => exact doeMeasurementRequest_kept
  | doeKeyRequest => exact doeKeyRequest_kept
  | cxlMemAccess => exact cxlMemAccess_kept
  | linkFlitRetry => exact linkFlitRetry_kept
  | linkRetryExhausted => exact linkRetryExhausted_kept
  | peerReset => exact peerReset_kept
  | peerRequest => exact peerRequest_kept
  | collectiveContribution => exact collectiveContribution_kept
  | serviceRequestEnqueue => exact serviceRequestEnqueue_kept
  | serviceRound => exact serviceRound_kept
  | serviceReply => exact serviceReply_kept
  | wayinComplete => exact wayinComplete_kept
  | wayinTimeout => exact wayinTimeout_kept
  | waypointProbe => exact waypointProbe_kept
  | waypointPoison => exact waypointPoison_kept
  | wayskipFirm => exact wayskipFirm_kept
  | wayskipRemove => exact wayskipRemove_kept
  | joinComplete => exact joinComplete_kept
  | joinTimeout => exact joinTimeout_kept
  | sleepEnd => exact sleepEnd_kept
  | regacqGrant => exact regacqGrant_kept
  | spill => exact spill_kept
  | tclaimGrant => exact tclaimGrant_kept
  | fetchwFill => exact fetchwFill_kept
  | launchAnswer => exact launchAnswer_kept
  | engineCommandComplete => exact engineCommandComplete_kept
  | engineBusyTimeout => exact engineBusyTimeout_kept
  | chartReset => exact chartReset_kept
  | tlbWalk => exact tlbWalk_kept
  | runaheadFetch => exact runaheadFetch_kept
  | clockStep => exact clockStep_kept
  | subarrayGate => exact subarrayGate_kept
  | preemptRequest => exact preemptRequest_kept
  | preemptHandlerEntry => exact preemptHandlerEntry_kept
  | preboundExpiry => exact preboundExpiry_kept
  | unitRestore => exact unitRestore_kept
  | debugRecordWrite => exact debugRecordWrite_kept
  | wordNotAnInstruction w => exact wordNotAnInstruction_kept (w := w)
  | writeAcknowledgedAtHome => exact writeAcknowledgedAtHome_kept
  | virtualChannelPause => exact virtualChannelPause_kept
  | correctedError => exact correctedError_kept
  | managementFirmwareStageLoad => exact managementFirmwareStageLoad_kept
  | cxlCacheCoherenceRequest => exact cxlCacheCoherenceRequest_kept
  | br => exact br_kept
  | call => exact call_kept
  | ret => exact ret_kept
  | jmpi => exact jmpi_kept
  | calli => exact calli_kept
  | join => exact join_kept
  | exit => exact exit_kept
  | yield => exact yield_kept
  | sleep => exact sleep_kept
  | progress => exact progress_kept
  | brkpt => exact brkpt_kept
  | mand | mor | mxor | mandn | mnot | mmov | mall | mnone => exact mask2_kept
  | mpopc | mfirst | mtos => exact maskToS_kept
  | stom => exact stom_kept
  | mlanes => exact mlanes_kept
  | addI32 | subI32 | mulloI32 | mulhiI32 | mulhiN32 | and | or | xor | andn | shl | shrN32 | shrI32 | rotl | minI32 | maxI32 | minN32
  | maxN32 | bfeN32 | bfeI32 | addI16x2 | subI16x2 | addsI16x2 | subsI16x2 | minI16x2 | maxI16x2 | gtbitsI16x2 | shrI16x2 | packI16x2 => exact alu2_kept
  | absI32 | popc | clz | brev | addi | andi | ori | xori | sext8 | sext16 | zext8 | zext16 => exact alu1_kept
  | bfi => exact alu3_kept
  | sel => exact sel_kept
  | movzLo | movzHi | movkLo | movkHi => exact alu0_kept
  | icmpEq | icmpNe | icmpLtI32 | icmpLeI32 | icmpGtI32 | icmpGeI32 | icmpLtN32 | icmpLeN32 | icmpGtN32 | icmpGeN32 => exact cmp_kept
  | icmpEqI64 | icmpLtI64 | icmpLtN64 => exact cmp64_kept
  | addI64 | subI64 | mulI64 => exact pair2_kept
  | shlI64 | shrN64 | shrI64 | leaX1 | leaX2 | leaX4 | leaX8 | leaX16 => exact pairWord_kept
  | sextI64 | zextI64 => exact widen_kept
  | msadB4 => exact msadB4_kept
  | addF32 | subF32 | mulF32 | minF32 | maxF32 | copysignF32 => exact f32bin_kept
  | fmaF32 | fmsF32 | dot2F32F16 | dot2F32Bf16 => exact f32tern_kept
  | absF32 | negF32 | floorF32 | ceilF32 | truncF32 | rintF32 | fractF32 => exact f32un_kept
  | addF64 | subF64 | mulF64 | minF64 | maxF64 => exact f64bin_kept
  | fmaF64 | fmsF64 => exact f64tern_kept
  | absF64 | negF64 | floorF64 | ceilF64 | truncF64 | rintF64 => exact f64un_kept
  | divF64 | sqrtF64 | divF32 => exact fpuLong_kept
  | addF16x2 | mulF16x2 | fmaF16x2 | minF16x2 | maxF16x2 | addBf16x2 | mulBf16x2 | fmaBf16x2 => exact half_kept
  | fcmpEqF32 | fcmpNeF32 | fcmpLtF32 | fcmpLeF32 | fcmpGtF32 | fcmpGeF32 | fcmpOrdF32 | fcmpUnordF32 | fcmpEqF64 | fcmpNeF64 | fcmpLtF64
  | fcmpLeF64 | fcmpGtF64 | fcmpGeF64 | fcmpOrdF64 | fcmpUnordF64 => exact fcmp_kept
  | exp2F32 | log2F32 | rcpF32 | rsqF32 | sqrtF32 | sin2piF32 | cos2piF32 => exact xfn_kept
  | cvtF32F16lo | cvtF32F16hi | cvtF32Bf16lo | cvtF32Bf16hi | cvtF64F32 | cvtF32F64 | cvtF32I32 | cvtF32N32 | cvtI32F32 | cvtN32F32
  | cvtF64I64 | cvtI64F64 | cvtF64I32 | cvtI32F64 => exact cvt_kept
  | cvtF16x2F32 | cvtBf16x2F32 => exact fpu_kept
  | rbox | rtri | edgec | cullbf | cullbx => exact geo_kept
  | lpick | lswap | lrotu | lrotd => exact moveLanes_kept
  | bcast => exact bcast_kept
  | ddxF32 | ddyF32 => exact derive_kept
  | vrdi => exact vrdi_kept
  | vwri => exact vwri_kept
  | rdlane => exact rdlane_kept
  | wrlane => exact wrlane_kept
  | raddI32 | rmaxI32 | rminI32 => exact reduce_kept
  | raddF32 => exact raddF32_kept
  | ballot => exact ballot_kept
  | ld8n | ld8i | ld16n | ld16i | ld32 | ld64 | ld128 | lda32 | lda64 => exact ldWord_kept
  | ldx8n | ldx8i | ldx16n | ldx16i | ldx32 | ldx64 | ldx128 => exact ldxWord_kept
  | st8 | st16 | st32 | st64 | st128 | stl32 | stl64 => exact stWord_kept
  | stx8 | stx16 | stx32 | stx64 | stx128 => exact stxWord_kept
  | ldk32 | ldk64 | ldk128 => exact ldkWord_kept
  | fence => exact fence_kept
  | pfence => exact pfence_kept
  | icinv => exact icinv_kept
  | icinvAll => exact icinvAll_kept
  | prefL1 | prefL2 => exact prefWord_kept
  | atomAddI32 | atomAddI64 | atomMinI32 | atomMaxI32 | atomMinN32 | atomMaxN32 | atomAnd32 | atomOr32 | atomXor32 | atomXchg32 | atomXchg64
  | atomCas32 | atomCas64 | atomAddF32 | atomIncN32 | atomDecN32 => exact atomWord_kept
  | wayin => exact wayin_kept
  | wayout => exact wayout_kept
  | wayskip => exact wayskip_kept
  | waytry => exact waytry_kept
  | wayclose => exact wayclose_kept
  | wayqry => exact wayqry_kept
  | barArrive | barWait | barSync => exact barWord_kept
  | barAlloc => exact barAlloc_kept
  | barFree => exact barFree_kept
  | cbarArrive | cbarWait | cbarSync => exact cbarWord_kept
  | gbarSync => exact gbarSync_kept
  | spawn => exact spawn_kept
  | fetchw => exact fetchw_kept
  | regacq => exact regacq_kept
  | regrel => exact regrel_kept
  | regroup => exact regroup_kept
  | launch => exact launch_kept
  | preok => exact preok_kept
  | srd => exact srd_kept
  | swr => exact swr_kept
  | copyG2s | copyS2g | copyG2o | copyS2o | copyG2g | copyFill | bkmodeOn | bkmodeOff | bkload | bkmac | bkread | bkcalCal | bkcalBist
  | bkcalRemap | bkstat | collRed | collRedq | collBcast | collGather | lput | lget => exact engWord_kept
  | tmma | tmms | tzero | tcfg => exact tileWord_kept
  | tld | tst => exact tileMoveWord_kept
  | tclaim | tclaimAcc => exact claimWord_kept
  | trelSlot | trelAcc => exact trelWord_kept
  | chexp => exact chexp_kept
  | chopAdd | chopSub | chopMul | chopFma | chopMin | chopMax | chopExp2 | chopRcp | chopMov | chopSel | chopLt | chopLe | chopEq | chopNe => exact chopWord_kept
  | chenabPush | chenabPop | chenabElse | chenabAll => exact chenabWord_kept
  | chld | chst => exact cellWord_kept
  | chvis => exact chvis_kept
  | chown => exact chown_kept
  | chrel => exact chrel_kept
  | chorg => exact chorg_kept
  | chorgRd => exact chorgRd_kept
  | chset => exact chset_kept
  | chcubic => exact chcubic_kept
  | trap => exact trap_kept
  | tret => exact tret_kept
  | tlbinvPage => exact tlbinvPage_kept
  | tlbinvCtx => exact tlbinvCtx_kept
  | tlbinvAll => exact tlbinvAll_kept
  | l2way => exact l2way_kept
  | l2wayRd => exact l2wayRd_kept
  | stop => exact stop_kept
  | sndgOn => exact sndgOn_kept
  | sndgOff => exact sndgOff_kept
  | sndgRd => exact sndgRd_kept

end Ops
end Sys2Proof.Machine

namespace Sys2Proof.Machine

open State (KeptBy Keeps)

theorem Core.noteBranch_clock (k : Core) (g : Group) (slices : SliceSet) (clause : Pc) (words : List Word) :
    (k.noteBranch g slices clause words).clock = k.clock := by
  unfold Core.noteBranch
  dsimp only
  split
  · split <;> rfl
  · rfl

namespace State.Keeps

variable {s t u : State}

theorem keptBy (h : s.Keeps t) {o : Host.Outcome State Fault Refusal} (ho : t.KeptBy o) : s.KeptBy o := fun v hv => h.trans (ho v hv)

theorem mapNext {f : State → State} {o} (ho : s.KeptBy o) (hf : ∀ v, s.Keeps v → s.Keeps (f v)) : s.KeptBy (mapNext f o) := by
  cases o with
  | next v => exact .next (hf v (ho v rfl))
  | _ => exact fun _ h => nomatch h

/-! ### Words and chains (03 R54) -/

theorem runWord {w} (h : s.Keeps t) : s.KeptBy (runWord w t) := by
  unfold Machine.runWord
  split
  · exact h.keptBy (Ops.exec_kept _)
  · exact h.keptBy Ops.wordNotAnInstruction_kept

theorem note {p : Probe} {v} (h : s.Keeps t) (hp : s.Keeps p.left) : s.Keeps (p.note t v).left := by
  unfold Probe.note
  split
  · exact hp
  · split
    · exact hp
    · exact .upd h rfl rfl
  · exact hp

theorem probe {us} (h : s.Keeps t) : s.Keeps (t.probe Machine.runWord us).left := by
  have step {p : Probe} {u : Issue} (hp : s.Keeps p.left) : s.Keeps (match Machine.runWord u.word { t with cur := some { u with probe := true } } with
      | .next v => p.note v ((v.cur.map fun u : Issue => u.verdict).getD .pending)
      | _ => p).left := by
    split
    next hr => exact note (runWord (.upd h rfl rfl) _ hr) hp
    · exact hp
  unfold State.probe
  generalize hp : (⟨none, t, false⟩ : Probe) = p
  have hleft : s.Keeps p.left := hp ▸ h
  clear hp
  induction us generalizing p with
  | nil => exact hleft
  | cons u us ih => exact ih _ (step hleft)

theorem runAll {g us o} (h0 : s.Keeps t) : ∀ {u}, s.Keeps u → runAll Machine.runWord t g us u = some o → s.KeptBy o := by
  induction us with
  | nil =>
    intro u h ho
    cases ho
    exact .next h
  | cons x us ih =>
    intro u h ho
    unfold Machine.runAll at ho
    split at ho
    next v hr =>
      have hv : s.Keeps v := runWord (.upd h rfl rfl) _ hr
      split at ho
      · cases ho
      · cases ho
        exact .next h0.linkUsed.presentTrap
      · exact ih hv ho
    · cases ho
      exact runWord (.upd h rfl rfl)

theorem runChain {gid g us o} (h : s.Keeps t) (ho : t.runChain Machine.runWord gid g us = some o) : s.KeptBy o := by
  unfold State.runChain at ho
  split at ho
  · split at ho
    next u _ v hr =>
      have hv : s.Keeps v := runWord (.upd h rfl rfl) _ hr
      split at ho
      · cases ho
      · cases ho
        exact .next hv
    · cases ho
      exact runWord (.upd h rfl rfl)
  · dsimp only at ho
    split at ho
    · split at ho
      · cases ho
      · cases ho
        exact .next h.probe.linkUsed.presentTrap
    · split at ho
      · cases ho
      · exact h.runAll h ho

theorem afterStep {gid slices core c last} (h : s.Keeps t) : s.Keeps (t.afterStep gid slices core c last) := by
  unfold State.afterStep
  refine .upd ?_ rfl rfl
  refine .onCore h.onGroup fun k => ?_
  split
  · split
    · exact k.noteBranch_clock _ _ _ _
    · rfl
  · rfl

/-! ### Steps of a core (10 R218) -/

theorem issueGang {gid gang choice o} (h : s.Keeps t) (ho : t.issueGang Machine.runWord gid gang choice = some o) : s.KeptBy o := by
  unfold State.issueGang at ho
  split at ho
  · cases ho
  · split at ho
    · cases ho
    · dsimp only at ho
      split at ho
      · cases ho
      · split at ho
        · cases ho
        next hr =>
          cases ho
          exact .mapNext (h.onGroup.runChain hr) fun _ h => h.afterStep

theorem issueNew {gid g slices choice o} (h : s.Keeps t) (ho : t.issueNew Machine.runWord gid g slices choice = some o) : s.KeptBy o := by
  unfold State.issueNew at ho
  split at ho
  · cases ho
  · split at ho
    · cases ho
    · exact h.beginClause.issueGang ho

theorem runEvent {e choice} (h : s.Keeps t) : s.KeptBy (t.runEvent e choice) := by
  refine .ite (.next h) (keptBy ?_ (Ops.exec_kept e))
  exact .upd h rfl rfl

theorem tryEntry {core choice e o} (h : s.Keeps t) (ho : t.tryEntry Machine.runWord core choice e = some o) : s.KeptBy o := by
  unfold State.tryEntry at ho
  split at ho
  · cases ho
    exact h.runEvent
  · split at ho
    · exact h.issueGang ho
    · split at ho
      · cases ho
      · exact h.issueNew ho

theorem issueOn {core choice o} (h : s.Keeps t) (ho : t.issueOn Machine.runWord core choice = some o) : s.KeptBy o := by
  unfold State.issueOn at ho
  split at ho
  · cases ho
  · extract_lets line s1 tries ready at ho
    obtain ⟨e, -, ho⟩ := Option.bind_eq_some_iff.1 ho
    obtain ⟨x, hx, rfl⟩ := Option.map_eq_some_iff.1 ho
    obtain ⟨e', -, he⟩ := List.mem_filterMap.1 (List.mem_of_find?_eq_some hx)
    obtain ⟨o, ht, rfl⟩ := Option.map_eq_some_iff.1 he
    have h1 : s.Keeps s1 := h.onCore fun _ => rfl
    exact mapNext (h1.tryEntry ht) fun _ h => h.onCore fun _ => rfl

theorem fillWindow {core} (h : s.Keeps t) : s.Keeps (t.fillWindow core) := .ite h (h.onCore fun _ => rfl)

/-! ### One step -/

theorem tick (h : s.Keeps t) : s.Keeps t.tick := .ite (h.upd rfl rfl) (.each (h.upd rfl rfl) fun _ _ h => h.fillWindow)

theorem settleStep (h : s.Keeps t) : s.Keeps t.settleStep := by
  refine .noteWake (.noteIdle (.noteReady (.settleInvals (.settleFences ?_))))
  exact .upd h rfl rfl

theorem deliver {x choice} (h : s.Keeps t) : s.KeptBy (t.deliver x choice) := by
  have h1 : s.Keeps { t with inputs := t.inputs.erase x } := h.upd rfl rfl
  exact .ite (.next (.upd h1.awaken rfl rfl)) h1.runEvent

theorem happen {choice x} (h : s.Keeps t) : s.KeptBy (t.happen Machine.runWord choice x) := by
  cases x with
  | input x => exact h.deliver
  | event e => exact h.runEvent
  | tick => exact .next h.tick
  | issue core =>
    show s.KeptBy ((t.issueOn Machine.runWord core choice).getD (.next t.tick))
    cases ho : t.issueOn Machine.runWord core choice with
    | none => exact .next h.tick
    | some o => exact h.issueOn ho

end State.Keeps

/-- Every step keeps the invariants. -/
theorem step_kept (s : State) : s.KeptBy (step s) :=
  State.Keeps.mapNext (State.Keeps.happen (.upd (.refl s) rfl rfl)) fun _ h => h.settleStep

/-- Settles O44: only the governor changes a clock, within its bounds; every other operation of the model leaves the clocks alone. -/
theorem clocksStayInRange : Obligations.ClocksStayInRange := by
  unfold Obligations.ClocksStayInRange
  exact fun s t h hs => (step_kept s t h).clocks hs

end Sys2Proof.Machine

/-! How a clause begins, `yield` and `sleep`, and the steps of the clocks (01 R11, 03 R42-R48, 04 R86, R87, R90). -/

namespace Sys2Proof.Scheduling

open Sys2Proof.Machine Sys2Proof.Claims Sys2Proof.RegisterWrites

/-- The groups a state lists under other names stay after a change of a group. -/
theorem otherGroups_onGroup (s : State) (n : Nat) (f : Group → Group) : otherGroups s (s.onGroup n f) n := fun m hm =>
  (Tab.find_change s.groups n m f).trans (if_neg hm)

/-! ### The clocks -/

/-- A change of a core's frequency from now on leaves its count of cycles. -/
theorem now_of_clock (k : Core) (awake clock : Nat) :
    Core.now { k with ticks := k.ticks + (awake - k.since) * k.clock, since := awake, clock := clock } awake = k.now awake := by
  simp [Core.now]

theorem core_onCore (s : State) (n m : Nat) (f : Core → Core) : (s.onCore n f).core m = if m = n then f (s.core n) else s.core m :=
  Tab.get_set _ _ _ _ _

theorem clockSteps_holds : clockSteps := by
  intro core up s
  refine ⟨_, rfl, ?_, ?_, fun k hk => ?_, fun k => ?_, rfl, rfl⟩
  · rw [core_onCore, if_pos rfl]
  · rw [core_onCore, if_pos rfl]
  · rw [core_onCore, if_neg hk]
  · show ((s.onCore core _).core k).now s.awake = (s.core k).now s.awake
    rw [core_onCore]
    split
    next hk => rw [now_of_clock, hk]
    · rfl

/-! ### `yield` and `sleep` -/

theorem getLsbD_allSlices (g : Group) {i : Nat} (hi : i < g.slices.length) (h32 : i < 32) : g.allSlices.getLsbD i = true := by
  simp [Group.allSlices, hi, h32]

/-- SLEEP_END where its time has come: the sequencers that sleep until that cycle go on. -/
theorem exec_sleepEnd_due {s : State} {n i til : Nat} {g : Group} (hg : Tab.find s.groups n = some g) (hw : (g.slice i).seq.wait = .sleep til)
    (hdue : til ≤ s.nowOf g) :
    exec (.sleepEnd n i) s = .next (s.onGroup n fun g => g.onSlices g.allSlices fun _ x =>
      if x.seq.wait = .sleep til then { x with seq := { x.seq with wait := .none } } else x) := by
  rw [exec_sleepEnd]
  unfold execSleepEnd
  rw [hg]
  dsimp only
  rw [hw]
  exact if_neg (by omega)

theorem yieldAndSleep_holds : yieldAndSleep := by
  refine ⟨fun i n s u g hi hu hc => ?_, fun n s u g hn hu hc => ?_, fun n i til s g hg hw hdue => ?_⟩
  · rcases hi with ⟨k, rfl, rfl⟩ | ⟨rfl, rfl⟩
    · rw [exec_yield]
      exact Ops.word_ok (sig := noSig) hu (fun hp => nomatch hp) rfl hc rfl
    · rw [exec_sleep]
      exact Ops.word_ok (sig := noSig) hu (fun hp => nomatch hp) rfl hc rfl
  · rw [exec_sleep]
    exact Ops.word_ok (sig := noSig) hu (fun hp => nomatch hp) rfl hc (congrArg Res.ok (if_neg hn))
  · refine ⟨_, _, exec_sleepEnd_due hg hw hdue, ⟨fun _ => rfl, rfl⟩, otherGroups_onGroup s n _, find_onGroup hg _, rfl, rfl, fun j hj h32 => ?_⟩
    rw [slice_onSlices hj, if_pos (getLsbD_allSlices g hj h32)]
    split <;> rfl

/-! ### How a clause begins -/

/-- CLAUSE_DECODE of a whole split of a running group. -/
theorem exec_clauseDecode_whole {s : State} {n : Nat} {set : SliceSet} {g : Group} (hg : Tab.find s.groups n = some g) (hr : s.groupRuns g = true)
    (hne : set ≠ 0) (hw : set = g.splitAt (lowest 0 set)) : exec (.clauseDecode n set) s = .next (s.beginClause n g set s.pick) := by
  rw [exec_clauseDecode]
  unfold execClauseDecode
  rw [hg]
  exact if_pos (by rw [hr, decide_eq_true hne, decide_eq_true hw]; rfl)

/-- The state in which the group goes on with a begun clause: the clause has been walked to and its lines filled, or taken from those fetched ahead. -/
def reached (s : State) (n : Nat) (g : Group) (set : SliceSet) (choice : Nat) (clause : Pc) : State :=
  let s1 : State := { s with nextId := s.nextId + 1 }
  if (g.ahead set clause).isSome then s1 else (s1.walkCode n g clause).fillCode n g choice clause

theorem reached_groups (s : State) (n : Nat) (g : Group) (set : SliceSet) (choice : Nat) (clause : Pc) :
    (reached s n g set choice clause).groups = s.groups := by
  have h : State.Looks { s with nextId := s.nextId + 1 } (reached s n g set choice clause) := .ite (.refl _) (.fillCode (.walkCode (.refl _)))
  exact h.groups

/-- The group after it has begun a clause at slot k. -/
def begun (id : Nat) (set : SliceSet) (clause : Pc) (w : List Word) (k : Nat) (g : Group) : Group :=
  Group.onSlices { g with gangs := Tab.put g.gangs id { clause := clause, words := w, fresh := true },
                          fetched := g.fetched.filter fun e => !(set.getLsbD e.slice && decide (e.clause = clause)) } set
    fun _ x => { x with gang := id, seq := { x.seq with pc := clause + BitVec.ofNat 57 (4 * k) } }

theorem slice_begun {id k i : Nat} {set : SliceSet} {clause : Pc} {w : List Word} {g : Group} (hi : i < g.slices.length) :
    (begun id set clause w k g).slice i = if set.getLsbD i = true
      then { g.slice i with gang := id, seq := { (g.slice i).seq with pc := clause + BitVec.ofNat 57 (4 * k) } } else g.slice i :=
  slice_onSlices (g := { g with gangs := _, fetched := _ }) hi set _

/-- The first of a list that a filter keeps is the first found. -/
theorem filter_of_find {α : Type} {p : α → Bool} {l : List α} {a : α} (h : l.find? p = some a) : ∃ rest, l.filter p = a :: rest := by
  rw [← List.head?_filter] at h
  exact ⟨_, List.eq_cons_of_mem_head? h⟩

theorem beginClause_malformed {s : State} {n choice : Nat} {g : Group} {set : SliceSet} {w : List Word}
    (hf : s.fetchClause n g set choice (clauseOf (g.slice (lowest 0 set)).seq.pc) = .words w) (hok : clauseOk s.stepB0 w = false) :
    s.beginClause n g set choice
      = s.presentTrap n (clauseTrap g set (clauseOf (g.slice (lowest 0 set)).seq.pc) 0x03 (w.getD 0 0) 0 none) none := by
  unfold State.beginClause
  simp only [hf, hok, Bool.not_false, if_true]

theorem beginClause_at {s : State} {n choice k : Nat} {g : Group} {set : SliceSet} {w : List Word} {pc : Pc} (hpc : pc = (g.slice (lowest 0 set)).seq.pc)
    (hf : s.fetchClause n g set choice (clauseOf pc) = .words w) (hok : clauseOk s.stepB0 w = true)
    (hk : (headSlots (decodeHead (w.getD 0 0))).find? (fun j => decide (slotOf pc ≤ j)) = some k) :
    s.beginClause n g set choice = (reached s n g set choice (clauseOf pc)).onGroup n (begun s.nextId set (clauseOf pc) w k) := by
  obtain ⟨rest, hrest⟩ := filter_of_find hk
  subst hpc
  unfold State.beginClause
  simp only [hf, hok, hrest]
  rfl

/-! ### Clauses fetched ahead -/

/-- RUNAHEAD_FETCH of the clause at the end of a split's path: the clause is kept, and the lines its loads address are read ahead. -/
theorem exec_runaheadFetch_next {s : State} {n i : Nat} {g : Group} {a : Pc} {w : List Word} {split : SliceSet} (hg : Tab.find s.groups n = some g)
    (he : g.ended = false) (hk : g.killed = false) (hi : i = s.pick / 2 ^ 16 % max 1 g.slices.length) (hs : split = g.splitOf i) (hne : split ≠ 0)
    (hroom : (g.fetched.filter fun e => split.getLsbD e.slice).length < 4) (hf : s.fetchClause n g split s.pick (clauseOf a) = .words w)
    (hpath : (g.pathOf (s.core (s.coreOf g)) i).2.map clauseOf = some (clauseOf a)) :
    ∃ t, exec (.runaheadFetch n a) s = .next t
      ∧ State.Looks (((s.walkCode n g (clauseOf a)).fillCode n g s.pick (clauseOf a)).onGroup n fun g =>
        { g with fetched := g.fetched ++ [{ slice := lowest 0 split, clause := clauseOf a, words := w }] }) t := by
  subst hi hs
  rw [exec_runaheadFetch]
  unfold execRunaheadFetch
  rw [hg]
  dsimp only
  rw [he, hk, beq_eq_false_iff_ne.2 hne, hpath, bne_self_eq_false, decide_eq_false (by omega), hf]
  exact ⟨_, rfl, .each (.refl _) fun _ _ h => h.prefetch⟩

theorem clausesBegin_holds : clausesBegin := by
  intro n choice set s g w pc hg hr hne hwhole hpc hchoice hf
  obtain rfl : choice = s.pick := hchoice
  refine ⟨fun hok => ?_, fun k hok hk => ?_, fun a w i split he hkill hi hs hne hroom hf hpath => ?_⟩
  · rw [exec_clauseDecode_whole hg hr hne hwhole, beginClause_malformed (hpc ▸ hf) hok, ← hpc]
    rfl
  · rw [exec_clauseDecode_whole hg hr hne hwhole, beginClause_at hpc hf hok hk]
    have hg' : Tab.find (reached s n g set s.pick (clauseOf pc)).groups n = some g := (reached_groups ..).symm ▸ hg
    refine ⟨_, _, rfl, find_onGroup hg' _, rfl, rfl, (Tab.find_put ..).trans (if_pos rfl), rfl, fun i hi => ?_⟩
    rw [slice_begun hi]
    split
    · exact ⟨rfl, rfl⟩
    · rfl
  · obtain ⟨t, hexec, hlooks⟩ := exec_runaheadFetch_next hg he hkill hi hs hne hroom hf hpath
    have hcode : s.Looks ((s.walkCode n g (clauseOf a)).fillCode n g s.pick (clauseOf a)) := .fillCode (.walkCode (.refl s))
    generalize (s.walkCode n g (clauseOf a)).fillCode n g s.pick (clauseOf a) = c at hcode hlooks
    refine ⟨t, hexec, fun m hm => ?_, fun hl l => ?_, ?_⟩
    · rw [hlooks.groups, otherGroups_onGroup c n _ m hm, hcode.groups]
    · exact congrArg (Tab.get 0 · l) ((hlooks.mem (hcode.logRegs.trans hl)).trans (hcode.mem hl))
    · rw [hlooks.groups]
      exact find_onGroup (hcode.groups.symm ▸ hg) _

/-- Settles O53, part by part. -/
theorem schedulingSteps : Obligations.SchedulingSteps := by
  unfold Obligations.SchedulingSteps
  exact ⟨clausesBegin_holds, yieldAndSleep_holds, clockSteps_holds⟩

end Sys2Proof.Scheduling

/-! What a word that changes slices or masks of its group leaves alone (01 R21, 04 R73, R75): said once for the elementary changes of a group, and used
for the mask words (04 R88, 05 R93, R110) and for the control words (04 R76-R85). -/

namespace Sys2Proof.ControlFrame

open Sys2Proof.Machine Sys2Proof.Claims Sys2Proof.RegisterWrites

/-- What a change of slices keeps in each slice, it keeps in every slice of the group, the ones past its last among them. -/
theorem slice_onSlices_keeps {α : Type} {p : Slice → α} {f : Nat → Slice → Slice} (hf : ∀ i x, p (f i x) = p x) (g : Group) (set : SliceSet) (i : Nat) :
    p ((g.onSlices set f).slice i) = p (g.slice i) := by
  by_cases hi : i < g.slices.length
  · rw [slice_onSlices hi]
    split
    · exact hf i _
    · rfl
  · have hpast (h : Group) (hh : h.slices.length = g.slices.length) : h.slice i = Slice.empty := by
      rw [Group.slice, List.getD_eq_getElem?_getD, List.getElem?_eq_none (by omega), Option.getD_none]
    rw [hpast _ (onSlices_length g set f), hpast g rfl]

/-- No register, flag or special register of the group has changed, and no lane has exited. -/
structure Undisturbed (g h : Group) : Prop where
  v : h.v = g.v
  readS : ∀ i k, h.readS i k = g.readS i k
  fpflags : h.fpflags = g.fpflags
  specials : sameSpecials g h
  exitedLanes : h.exitedLanes = g.exitedLanes

namespace Undisturbed

theorem trans {g h k : Group} (hg : Undisturbed g h) (hk : Undisturbed h k) : Undisturbed g k where
  v := hk.v.trans hg.v
  readS i r := (hk.readS i r).trans (hg.readS i r)
  fpflags := hk.fpflags.trans hg.fpflags
  specials := by
    have h1 := hg.specials
    have h2 := hk.specials
    simp only [sameSpecials] at h1 h2 ⊢
    simp only [h1, h2, and_self]
  exitedLanes := hk.exitedLanes.trans hg.exitedLanes

theorem onSlices {f : Nat → Slice → Slice} (hs : ∀ i x, (f i x).s = x.s) (he : ∀ i x, (f i x).exited = x.exited) (g : Group) (set : SliceSet) :
    Undisturbed g (g.onSlices set f) where
  v := rfl
  readS i k := by simp only [Group.readS, slice_onSlices_keeps hs, onSlices_handler]
  fpflags := rfl
  specials := by simp [sameSpecials, Group.onSlices]
  exitedLanes := by simp only [Group.exitedLanes, slice_onSlices_keeps he]

theorem writeM (g : Group) (set : SliceSet) (k : Nat) (x : LaneSet) : Undisturbed g (g.writeM set k x) := by
  unfold Group.writeM
  split
  · exact onSlices (fun _ _ => by rfl) (fun _ _ => by rfl) g set
  · exact ⟨rfl, fun _ _ => rfl, rfl, by simp [sameSpecials], rfl⟩

end Undisturbed

theorem execOf_onSlices {f : Nat → Slice → Slice} (ha : ∀ i x, (f i x).seq.a = x.seq.a) (g : Group) (set split : SliceSet) :
    (g.onSlices set f).execOf split = g.execOf split := by
  simp only [Group.execOf, slice_onSlices_keeps (p := fun x => x.seq.a) ha]

/-- The checks of a word find nothing, or a trap, or make it wait. -/
theorem check_cases (sig : Sig) (c : Ctx) (s : State) :
    Ops.check sig c s = none ∨ Ops.check sig c s = some .stall ∨ ∃ x, Ops.check sig c s = some (.trap x) := by
  unfold Ops.check
  split_ifs <;> simp

/-- A word that has its effect has passed its checks: where its body always has one, the next state is that effect. -/
theorem wordDone_of_word {sig : Sig} {effect : Ctx → State → State} {s t : State} {u : Issue} {g : Group} (hi : Issuing s u g)
    (ht : Ops.word sig (fun c s => .ok (effect c s)) s = .next t) (hd : t.cur = some { u with verdict := .done }) :
    t = (effect (u.ctx g) s).wordDone u := by
  obtain ⟨_, _, hp⟩ := id hi
  rw [Ops.word, Ops.wordBy_eq hi] at ht
  obtain rfl := (Host.Outcome.next.inj ht).symm
  rcases check_cases sig (u.ctx g) s with h | h | ⟨x, h⟩
  · rw [h]
    exact Ops.settle_ok hp
  · rw [h] at hd
    cases hd
  · rw [h, Option.getD_some, Ops.settle_trap hp] at hd
    cases hd

end Sys2Proof.ControlFrame

/-! The words that compute masks (04 R75, R88, 05 R93, R110): what they write and what they leave. -/

namespace Sys2Proof.MaskWords

open Sys2Proof.Machine Sys2Proof.Claims Sys2Proof.RegisterWrites Sys2Proof.ControlFrame Sys2Proof.Scheduling

/-! ### A word that writes a mask changes nothing else -/

/-- A mask with quarter q replaced, as `stom` forms it. -/
def withQuarter (old : LaneSet) (w : Word) (q : Nat) : LaneSet :=
  (old &&& ~~~((0xFFFFFFFF : LaneSet) <<< (32 * q))) ||| (w.setWidth 128 <<< (32 * q))

/-- The instruction writes what it computes from the state before its chain to mask register d, and has no other effect. -/
def WritesMask (i : Instr) (d : BitVec 3) : Prop :=
  ∃ (sig : Sig) (x : Ctx → LaneSet), ∀ s, exec i s = Ops.word sig (fun c s => .ok (s.putMask c d.toNat (x c))) s

theorem WritesMask.of_mask2 {i : Instr} {d a b : BitVec 3} {f : LaneSet → LaneSet → LaneSet} (h : ∀ s, exec i s = Ops.mask2 d a b f s) :
    WritesMask i d :=
  ⟨plainSig, fun c => f (c.g.readM c.exec a.toNat) (c.g.readM c.exec b.toNat), h⟩

theorem WritesMask.of_cmp {i : Instr} {d : BitVec 3} {a b : BitVec 7} {f : Word → Word → Bool} (h : ∀ s, exec i s = Ops.cmp d a b f s) : WritesMask i d :=
  ⟨_, fun c => c.whereIn fun l => f (c.rd a l) (c.rd b l), h⟩

theorem WritesMask.of_cmp64 {i : Instr} {d : BitVec 3} {a b : BitVec 7} {f : DWord → DWord → Bool} (h : ∀ s, exec i s = Ops.cmp64 d a b f s) :
    WritesMask i d :=
  ⟨_, fun c => c.whereIn fun l => f (c.rd64 a l) (c.rd64 b l), h⟩

theorem writesMask_of_maskWords {e : MaskTwo × (Bool → Bool → Bool)} (he : e ∈ maskWords) (d a b : BitVec 3) : WritesMask (e.1 d a b) d := by
  simp only [maskWords, List.mem_cons, List.not_mem_nil, or_false] at he
  rcases he with rfl | rfl | rfl | rfl | rfl | rfl | rfl | rfl
  · exact .of_mask2 fun _ => exec_mand ..
  · exact .of_mask2 fun _ => exec_mor ..
  · exact .of_mask2 fun _ => exec_mxor ..
  · exact .of_mask2 fun _ => exec_mandn ..
  · exact .of_mask2 fun _ => exec_mnot ..
  · exact .of_mask2 fun _ => exec_mmov ..
  · exact .of_mask2 fun _ => exec_mall ..
  · exact .of_mask2 fun _ => exec_mnone ..

theorem writesMask_of_compares {e : Compare × (Word → Word → Bool)} (he : e ∈ compares) (d : BitVec 3) (a b : BitVec 7) : WritesMask (e.1 d a b) d := by
  simp only [compares, List.mem_cons, List.not_mem_nil, or_false] at he
  rcases he with rfl | rfl | rfl | rfl | rfl | rfl | rfl | rfl | rfl | rfl
  · exact .of_cmp fun _ => exec_icmpEq ..
  · exact .of_cmp fun _ => exec_icmpNe ..
  · exact .of_cmp fun _ => exec_icmpLtI32 ..
  · exact .of_cmp fun _ => exec_icmpLeI32 ..
  · exact .of_cmp fun _ => exec_icmpGtI32 ..
  · exact .of_cmp fun _ => exec_icmpGeI32 ..
  · exact .of_cmp fun _ => exec_icmpLtN32 ..
  · exact .of_cmp fun _ => exec_icmpLeN32 ..
  · exact .of_cmp fun _ => exec_icmpGtN32 ..
  · exact .of_cmp fun _ => exec_icmpGeN32 ..

theorem writesMask_of_compares64 {e : Compare × (DWord → DWord → Bool)} (he : e ∈ compares64) (d : BitVec 3) (a b : BitVec 7) :
    WritesMask (e.1 d a b) d := by
  simp only [compares64, List.mem_cons, List.not_mem_nil, or_false] at he
  rcases he with rfl | rfl | rfl
  · exact .of_cmp64 fun _ => exec_icmpEqI64 ..
  · exact .of_cmp64 fun _ => exec_icmpLtI64 ..
  · exact .of_cmp64 fun _ => exec_icmpLtN64 ..

theorem writesMask_of_maskWord {i : Instr} {d : BitVec 3} (h : MaskWord i d) : WritesMask i d := by
  rcases h with ⟨e, he, a, b, rfl⟩ | ⟨a, q, rfl⟩ | ⟨a, rfl⟩ | ⟨e, he, a, b, rfl⟩ | ⟨e, he, a, b, rfl⟩ | ⟨a, rfl⟩
  · exact writesMask_of_maskWords he d a b
  · exact ⟨{ plainSig with opnd := isS a, uses := [use a] }, fun c => withQuarter (c.g.readM c.exec d.toNat) (c.rd a 0) q.toNat, fun _ => exec_stom ..⟩
  · exact ⟨{ plainSig with opnd := isS a, uses := [use a] }, fun c => bitSet 128 fun l => decide (l < (c.rd a 0).toNat), fun _ => exec_mlanes ..⟩
  · exact writesMask_of_compares he d a b
  · exact writesMask_of_compares64 he d a b
  · exact ⟨{ priv := false, opnd := true, uses := [use a] }, fun c => c.whereIn fun l => c.rd a l ≠ 0, fun _ => exec_ballot ..⟩

/-- The group after its split has gone on to the next word. -/
def advanced (u : Issue) (g : Group) : Group :=
  g.onSlices u.slices fun _ x => if x.gang = u.split then { x with gang := u.gang, seq := { x.seq with pc := u.next } } else x

theorem find_putMask_advance {s : State} {u : Issue} {g : Group} (hg : Tab.find s.groups u.group = some g) (k : Nat) (x : LaneSet) :
    Tab.find ((s.putMask (u.ctx g) k x).advance u).groups u.group = some (advanced u (g.writeM u.slices k x)) :=
  find_onGroup (find_onGroup hg _) _

theorem undisturbed_advanced (u : Issue) (g : Group) : Undisturbed g (advanced u g) :=
  .onSlices (fun _ x => by dsimp only; split <;> rfl) (fun _ x => by dsimp only; split <;> rfl) g u.slices

theorem execOf_advanced (u : Issue) (g : Group) (split : SliceSet) : (advanced u g).execOf split = g.execOf split :=
  execOf_onSlices (fun _ x => by dsimp only; split <;> rfl) g u.slices split

/-- Settles O10: each of these words is one write of a mask register, after which its split goes on at the next word. -/
theorem maskWordsChangeNothingElse : Obligations.MaskWordsChangeNothingElse := by
  unfold Obligations.MaskWordsChangeNothingElse
  intro i d s t u g hw hi ht hd
  obtain ⟨sig, x, hx⟩ := writesMask_of_maskWord hw
  rw [hx] at ht
  obtain rfl := wordDone_of_word hi ht hd
  have hkept : Undisturbed g (advanced u (g.writeM u.slices d.toNat (x (u.ctx g)))) := (Undisturbed.writeM g _ _ _).trans (undisturbed_advanced u _)
  refine ⟨⟨fun _ => rfl, rfl⟩, fun m hm => ?_, _, find_putMask_advance hi.2.1 _ _, fun k l => ?_, hkept.readS, fun k hk h0 => ?_, hkept.fpflags,
    hkept.specials, fun hd0 => ?_, hkept.exitedLanes⟩
  · exact (otherGroups_onGroup _ u.group _ m hm).trans (otherGroups_onGroup s u.group _ m hm)
  · exact congrArg (Tab.get 0 · (k * 128 + l)) hkept.v
  · show (g.writeM u.slices d.toNat _).readM 0 k = g.readM 0 k
    by_cases hd0 : d.toNat = 0
    · rw [hd0]
      rfl
    · rw [readM_writeM_of_pos g _ (by omega), if_neg hk]
  · have hpos : 0 < d.toNat := Nat.pos_of_ne_zero fun h => hd0 (BitVec.eq_of_toNat_eq h)
    rw [execOf_advanced]
    simp only [Group.execOf, Group.slice, writeM_slices_of_pos g _ hpos]

/-! ### What the mask words and `ballot` compute -/

variable {s : State} {u : Issue} {g : Group}

/-- A word of two masks that works bit by bit. -/
theorem mask2_next_bits {d a b : BitVec 3} {f : LaneSet → LaneSet → LaneSet} {op : Bool → Bool → Bool}
    (hf : ∀ (x y : LaneSet) (l : Nat), l < 128 → (f x y).getLsbD l = op (x.getLsbD l) (y.getLsbD l)) (hi : Issuing s u g) (hc : Clear s (u.ctx g) []) :
    Ops.mask2 d a b f s = .next (State.wordDone u (s.putMask (u.ctx g) d.toNat (bitSet 128 fun l =>
      op (((u.ctx g).g.readM (u.ctx g).exec a.toNat).getLsbD l) (((u.ctx g).g.readM (u.ctx g).exec b.toNat).getLsbD l)))) := by
  rw [Ops.mask2_next hi hc]
  congr 3
  exact BitVec.eq_of_getLsbD_eq fun l hl => by rw [hf _ _ l hl, getLsbD_bitSet, decide_eq_true hl, Bool.true_and]

theorem exec_maskWord_next {e : MaskTwo × (Bool → Bool → Bool)} (he : e ∈ maskWords) (d a b : BitVec 3) (hi : Issuing s u g) (hc : Clear s (u.ctx g) []) :
    exec (e.1 d a b) s = .next (State.wordDone u (s.putMask (u.ctx g) d.toNat (bitSet 128 fun l =>
      e.2 (((u.ctx g).g.readM (u.ctx g).exec a.toNat).getLsbD l) (((u.ctx g).g.readM (u.ctx g).exec b.toNat).getLsbD l)))) := by
  simp only [maskWords, List.mem_cons, List.not_mem_nil, or_false] at he
  rcases he with rfl | rfl | rfl | rfl | rfl | rfl | rfl | rfl
  · exact (exec_mand ..).trans (mask2_next_bits (fun x y l _ => BitVec.getLsbD_and) hi hc)
  · exact (exec_mor ..).trans (mask2_next_bits (fun x y l _ => BitVec.getLsbD_or) hi hc)
  · exact (exec_mxor ..).trans (mask2_next_bits (fun x y l _ => BitVec.getLsbD_xor) hi hc)
  · exact (exec_mandn ..).trans (mask2_next_bits (op := fun x y => x && !y) (fun x y l hl => by simp [hl]) hi hc)
  · exact (exec_mnot ..).trans (mask2_next_bits (op := fun x _ => !x) (fun x y l hl => by simp [hl]) hi hc)
  · exact (exec_mmov ..).trans (mask2_next_bits (op := fun x _ => x) (fun _ _ _ _ => rfl) hi hc)
  · exact (exec_mall ..).trans (mask2_next_bits (op := fun _ _ => true) (fun _ _ l hl => (BitVec.getLsbD_allOnes ..).trans (decide_eq_true hl)) hi hc)
  · exact (exec_mnone ..).trans (mask2_next_bits (op := fun _ _ => false) (fun _ _ _ _ => BitVec.getLsbD_zero) hi hc)

theorem headD_filter {α : Type} (p : α → Bool) (l : List α) (d : α) : (l.filter p).headD d = (l.find? p).getD d := by
  rw [List.headD_eq_head?_getD, List.head?_filter]

theorem setWidth_ushiftRight (x : LaneSet) (k : Nat) : (x >>> k).setWidth 32 = BitVec.ofNat 32 (x.toNat / 2 ^ k % 2 ^ 32) := by
  apply BitVec.eq_of_toNat_eq
  simp [Nat.shiftRight_eq_div_pow]

theorem exec_maskRead_next {e : (BitVec 7 → BitVec 3 → BitVec 2 → Instr) × (LaneSet → Nat → Nat)} (he : e ∈ maskReads) {d : BitVec 7} (a : BitVec 3)
    (q : BitVec 2) (hi : Issuing s u g) (hd : isS d = true) (hc : Clear s (u.ctx g) [use d]) :
    exec (e.1 d a q) s =
      .next (State.wordDone u (s.putRegs (u.ctx g) d.toNat fun _ => [.ofNat 32 (e.2 ((u.ctx g).g.readM (u.ctx g).exec a.toNat) q.toNat)])) := by
  simp only [maskReads, List.mem_cons, List.not_mem_nil, or_false] at he
  rcases he with rfl | rfl | rfl
  · exact (exec_mpopc ..).trans (Ops.maskToS_next hi hd hc)
  · refine (exec_mfirst ..).trans ((Ops.maskToS_next hi hd hc).trans ?_)
    simp only [lowest, members, headD_filter]
  · refine (exec_mtos ..).trans ((Ops.maskToS_next hi hd hc).trans ?_)
    simp only [setWidth_ushiftRight]

theorem getLsbD_withQuarter (old : LaneSet) (w : Word) (q : Nat) {l : Nat} (hl : l < 128) :
    (withQuarter old w q).getLsbD l = if l / 32 = q then w.getLsbD (l % 32) else old.getLsbD l := by
  have hones (k : Nat) : (0xFFFFFFFF : LaneSet).getLsbD k = decide (k < 32) := by
    have h : (0xFFFFFFFF : LaneSet) = (BitVec.allOnes 32).setWidth 128 := by decide
    rw [h, BitVec.getLsbD_setWidth, BitVec.getLsbD_allOnes]
    by_cases hk : k < 32
    · simp [hk, show k < 128 by omega]
    · simp [hk]
  simp only [withQuarter, BitVec.getLsbD_or, BitVec.getLsbD_and, BitVec.getLsbD_not, BitVec.getLsbD_shiftLeft, BitVec.getLsbD_setWidth, hones, hl, decide_true,
    Bool.true_and]
  by_cases hlow : l < 32 * q
  · rw [if_neg (by omega)]
    simp [hlow]
  · by_cases hin : l / 32 = q
    · rw [if_pos hin, show l - 32 * q = l % 32 by omega]
      simp [hlow, show l % 32 < 32 by omega, show l % 32 < 128 by omega]
    · rw [if_neg hin, BitVec.getLsbD_of_ge w (l - 32 * q) (by omega)]
      simp [hlow, show ¬ l - 32 * q < 32 by omega]

theorem exec_stom_next (d : BitVec 3) {a : BitVec 7} (q : BitVec 2) (hi : Issuing s u g) (ha : isS a = true) (hc : Clear s (u.ctx g) [use a]) :
    exec (.stom d a q) s = .next (State.wordDone u (s.putMask (u.ctx g) d.toNat (bitSet 128 fun l =>
      if l / 32 = q.toNat then ((u.ctx g).rd a 0).getLsbD (l % 32) else ((u.ctx g).g.readM (u.ctx g).exec d.toNat).getLsbD l))) := by
  refine (exec_stom ..).trans ((Ops.word_ok hi (by simp [plainSig]) ha hc rfl).trans ?_)
  congr 3
  exact BitVec.eq_of_getLsbD_eq fun l hl => by rw [← withQuarter, getLsbD_withQuarter _ _ _ hl, getLsbD_bitSet, decide_eq_true hl, Bool.true_and]

theorem maskWordResults_holds : maskWordResults := by
  refine ⟨fun e he d a b s u g hi hc => exec_maskWord_next he d a b hi hc, fun e he d a q s u g hi hd hc => exec_maskRead_next he a q hi hd hc,
    fun d a q s u g hi ha hc => exec_stom_next d q hi ha hc, fun d a s u g hi ha hc => ?_⟩
  rw [exec_mlanes]
  exact Ops.word_ok hi (by simp [plainSig]) ha hc rfl

theorem ballotWord_holds : ballotWord := by
  intro d a s u g hi hc
  rw [exec_ballot]
  exact Ops.word_ok hi (fun h => nomatch h) rfl hc rfl

/-- Settles O48, part by part. -/
theorem maskAndBallotWords : Obligations.MaskAndBallotWords := by
  unfold Obligations.MaskAndBallotWords
  exact ⟨maskWordResults_holds, ballotWord_holds⟩

end Sys2Proof.MaskWords

/-! Where a displacement leads, and `br` (04 R76). -/

namespace Sys2Proof.Transfers

open Sys2Proof.Machine Sys2Proof.Claims Sys2Proof.RegisterWrites Sys2Proof.ControlFrame Sys2Proof.Scheduling

/-- The clause a displacement names: the model adds it as a word, the spec as an integer. -/
theorem clauseOf_add_signExtend (u : Issue) (d : BitVec 21) : clauseOf u.pc + d.signExtend 57 * 16 = clauseBy u d := by
  rw [clauseBy, BitVec.ofInt_add, BitVec.ofInt_mul, BitVec.ofInt_natCast, BitVec.ofNat_toNat, BitVec.setWidth_eq, mul_comm]
  rfl

/-! ### `br` -/

section
variable {s : State} {u : Issue} {g : Group}

/-- The lanes that a branch on mask m, negated where n is 1, takes. -/
def takenBy (n : BitVec 1) (m : LaneSet) : LaneSet := if n = 1 then ~~~m else m

theorem getLsbD_takenBy (n : BitVec 1) (m : LaneSet) {l : Nat} (hl : l < 128) : (takenBy n m).getLsbD l = (m.getLsbD l != n.getLsbD 0) := by
  obtain rfl | rfl : n = 0 ∨ n = 1 := by revert n; decide
  · simp [takenBy]
  · simp [takenBy, hl]

theorem getLsbD_laneNib (x : LaneSet) (i : Nat) {b : Nat} (hb : b < 4) : (laneNib x i).getLsbD b = x.getLsbD (4 * i + b) := by
  simp [laneNib, hb]

/-- The active lanes of a slice that take, as the model and as the statement form them. -/
theorem and_laneNib {x : LaneSet} {take : Nat → Bool} (hx : ∀ l, l < 128 → x.getLsbD l = take l) {i : Nat} (hi : i < 32) (a : BitVec 4) :
    a &&& laneNib x i = bitSet 4 fun b => a.getLsbD b && take (4 * i + b) :=
  BitVec.eq_of_getLsbD_eq fun b hb => by
    rw [BitVec.getLsbD_and, getLsbD_laneNib x i hb, hx _ (by omega), getLsbD_bitSet, decide_eq_true hb, Bool.true_and]

theorem ne_zero_iff_exists_bit {w : Nat} (x : BitVec w) : x ≠ 0 ↔ ∃ i, i < w ∧ x.getLsbD i = true := by
  refine ⟨fun h => ?_, fun ⟨i, _, hi⟩ h0 => ?_⟩
  · by_contra hn
    push Not at hn
    exact h (BitVec.eq_of_getLsbD_eq fun i hi => by simpa using hn i hi)
  · rw [h0] at hi
    simp at hi

/-- A lane of the split takes where one of some slice does; T i are the active lanes of slice i that take. -/
theorem any_takes {g : Group} {set : SliceSet} {x : LaneSet} {T : Nat → BitVec 4}
    (hT : ∀ j, set.getLsbD j = true → (g.slice j).seq.a &&& laneNib x j = T j) :
    decide (g.execOf set &&& x ≠ 0) = (members set).any fun j => decide (T j ≠ 0) := by
  rw [Bool.eq_iff_iff, decide_eq_true_iff, List.any_eq_true]
  simp only [mem_members, decide_eq_true_iff, ne_zero_iff_exists_bit, Group.execOf, BitVec.getLsbD_and, getLsbD_bitSet, Bool.and_eq_true]
  refine ⟨fun ⟨l, hl, ⟨_, hset, ha⟩, hx⟩ => ⟨l / 4, hset, l % 4, by omega, ?_⟩, fun ⟨j, hset, b, hb, ht⟩ => ?_⟩
  · rw [← hT _ hset, BitVec.getLsbD_and, ha, getLsbD_laneNib x _ (by omega), show 4 * (l / 4) + l % 4 = l by omega, hx]
    rfl
  · have hj := BitVec.lt_of_getLsbD hset
    rw [← hT j hset, BitVec.getLsbD_and, getLsbD_laneNib x j hb, Bool.and_eq_true] at ht
    have hdiv : (4 * j + b) / 4 = j := by omega
    have hmod : (4 * j + b) % 4 = b := by omega
    exact ⟨4 * j + b, by omega, ⟨by omega, hdiv.symm ▸ hset, by rw [hdiv, hmod]; exact ht.1⟩, ht.2⟩

/-! What `br` makes of a slice, by how many of its active lanes take. -/

theorem branch_inactive {a : BitVec 4} (h : a = 0) (t : BitVec 4) (any : Bool) (target fall : Pc) (x : Slice) :
    x.branch a t any target fall = { x with gang := 0, seq := { x.seq with pc := if any then target else fall } } := if_pos h

theorem branch_all {a t : BitVec 4} (h0 : a ≠ 0) (h : a &&& t = a) (any : Bool) (target fall : Pc) (x : Slice) :
    x.branch a t any target fall = { x with gang := 0, seq := { x.seq with pc := target } } := (if_neg h0).trans (if_pos h)

theorem branch_none {a t : BitVec 4} (h0 : a ≠ 0) (h : a &&& t = 0) (any : Bool) (target fall : Pc) (x : Slice) :
    x.branch a t any target fall = { x with gang := 0, seq := { x.seq with pc := fall } } :=
  (if_neg h0).trans ((if_neg fun ha => h0 (ha.symm.trans h)).trans (if_pos h))

theorem branch_divides {a t : BitVec 4} (h0 : a &&& t ≠ 0) (h : a &&& t ≠ a) (any : Bool) (target fall : Pc) (x : Slice) :
    x.branch a t any target fall = { x with gang := 0, seq := { x.seq with
      parked := (fall, a &&& ~~~(a &&& t)) :: x.seq.parked, m := x.seq.m &&& ~~~(a &&& ~~~(a &&& t)), a := a &&& t, pc := target } } :=
  (if_neg fun ha => h0 (by rw [ha]; exact BitVec.zero_and)).trans ((if_neg h).trans (if_neg h0))

/-- `br` changes where a slice stands and nothing else of it. -/
theorem branch_seq (a t : BitVec 4) (any : Bool) (target fall : Pc) (x : Slice) : ∃ q, x.branch a t any target fall = { x with gang := 0, seq := q } := by
  by_cases h0 : a = 0
  · exact ⟨_, branch_inactive h0 ..⟩
  by_cases h1 : a &&& t = a
  · exact ⟨_, branch_all h0 h1 ..⟩
  by_cases h2 : a &&& t = 0
  · exact ⟨_, branch_none h0 h2 ..⟩
  · exact ⟨_, branch_divides h2 h1 ..⟩

/-- The group after a branch that can divide every slice that it must; o is the group before the chain, x the lanes that take. -/
def branched (u : Issue) (o : Group) (x : LaneSet) (d : BitVec 21) (g : Group) : Group :=
  g.onSlices u.slices fun i y => y.branch (o.slice i).seq.a (laneNib x i) (decide (o.execOf u.slices &&& x ≠ 0)) (clauseBy u d) (nextClause u)

/-- A slice that `br` must divide and that holds three parked entries. -/
def Overflows (o : Group) (x : LaneSet) (i : Nat) : Prop :=
  (o.slice i).seq.a &&& laneNib x i ≠ 0 ∧ (o.slice i).seq.a &&& laneNib x i ≠ (o.slice i).seq.a ∧ 3 ≤ (o.slice i).seq.parked.length

/-- `br` comes to PARKOVF where a slice overflows, and else branches. -/
theorem exec_br_eq (n : BitVec 1) (k : BitVec 3) (d : BitVec 21) {x : LaneSet} (hi : Issuing s u g) (hc : Clear s (u.ctx g) [])
    (hx : x = takenBy n ((u.ctx g).g.readM (u.ctx g).exec k.toNat)) :
    ((∃ i, u.slices.getLsbD i = true ∧ Overflows (u.ctx g).g x i) → exec (.br n k d) s = .next (s.wordTrapped u ((u.ctx g).trap 7 0x0C)))
    ∧ ((∀ i, u.slices.getLsbD i = true → ¬ Overflows (u.ctx g).g x i) →
      exec (.br n k d) s = .next (State.wordJumped u (s.onGroup u.group (branched u (u.ctx g).g x d)))) := by
  have hfull : ((members u.slices).any fun i => decide ((((u.ctx g).g.slice i).seq.a &&& laneNib x i) ≠ 0)
      && decide ((((u.ctx g).g.slice i).seq.a &&& laneNib x i) ≠ ((u.ctx g).g.slice i).seq.a) && decide (3 ≤ ((u.ctx g).g.slice i).seq.parked.length)) = true
      ↔ ∃ i, u.slices.getLsbD i = true ∧ Overflows (u.ctx g).g x i := by
    simp only [List.any_eq_true, mem_members, Bool.and_eq_true, decide_eq_true_iff, Overflows, and_assoc]
  subst hx
  rw [exec_br]
  refine ⟨fun h => Ops.word_trap (sig := noSig) hi (fun hp => nomatch hp) rfl hc (if_pos (hfull.2 h)), fun h => ?_⟩
  refine Ops.word_jump (sig := noSig) hi (fun hp => nomatch hp) rfl hc ((if_neg fun hf => ?_).trans ?_)
  · obtain ⟨i, hset, ho⟩ := hfull.1 hf
    exact h i hset ho
  · unfold branched
    rw [← clauseOf_add_signExtend]
    rfl

theorem undisturbed_branched (u : Issue) (o : Group) (x : LaneSet) (d : BitVec 21) (g : Group) : Undisturbed g (branched u o x d g) :=
  .onSlices (fun _ y => (branch_seq _ _ _ _ _ y).elim fun _ h => h ▸ rfl) (fun _ y => (branch_seq _ _ _ _ _ y).elim fun _ h => h ▸ rfl) g u.slices

theorem slice_branched {i : Nat} (hlen : i < g.slices.length) (u : Issue) (o : Group) (x : LaneSet) (d : BitVec 21) :
    (branched u o x d g).slice i = if u.slices.getLsbD i = true
      then (g.slice i).branch (o.slice i).seq.a (laneNib x i) (decide (o.execOf u.slices &&& x ≠ 0)) (clauseBy u d) (nextClause u) else g.slice i :=
  slice_onSlices hlen _ _

theorem encode_br (c n : BitVec 1) (k : BitVec 3) (d : BitVec 21) :
    encode c (.br n k d) = .ofNat 32 (c.toNat * 2 ^ 31 + 2 ^ 25 + n.toNat * 2 ^ 24 + k.toNat * 2 ^ 21 + d.toNat) := by
  rw [show encode c (.br n k d) = wordOf c 0x01 (Fmt.encBr n k d) from rfl]
  exact congrArg (BitVec.ofNat 32) (by rw [Fmt.encBr]; omega)

end

/-- Settles O18: the branch of one slice by whether none, all or some of its active lanes take, for every slice of the split. -/
theorem branchWord : Obligations.BranchWord := by
  unfold Obligations.BranchWord
  refine ⟨encode_br, fun n k d s u g take a T hi hc htake ha hT => ?_⟩
  obtain ⟨x, hx⟩ : ∃ x, x = takenBy n ((u.ctx g).g.readM (u.ctx g).exec k.toNat) := ⟨_, rfl⟩
  obtain ⟨htrap, hnext⟩ := exec_br_eq n k d hi hc hx
  have hTx {i : Nat} (hset : u.slices.getLsbD i = true) : ((u.ctx g).g.slice i).seq.a &&& laneNib x i = T i := by
    rw [and_laneNib (fun l hl => (hx ▸ getLsbD_takenBy _ _ hl).trans (htake l).symm) (BitVec.lt_of_getLsbD hset), ← ha, hT]
  refine ⟨fun ⟨i, hset, h0, h1, h3⟩ => htrap ⟨i, hset, ?_⟩, fun hroom => ?_⟩
  · rw [Overflows, hTx hset, ← ha]
    exact ⟨h0, h1, h3⟩
  have hkept := undisturbed_branched u (u.ctx g).g x d g
  refine ⟨_, _, hnext fun i hset ho => ?_, ⟨fun _ => rfl, rfl⟩, otherGroups_onGroup s u.group _, find_onGroup hi.2.1 _, rfl, rfl, hkept.readS, hkept.fpflags,
    hkept.specials, hkept.exitedLanes, fun i hlen => ?_⟩
  · rw [Overflows, hTx hset, ← ha] at ho
    obtain ⟨h0, h1, h3⟩ := ho
    exact absurd (hroom i hset h0 h1) (by omega)
  simp only [standsAt, slice_branched hlen, any_takes fun _ => hTx, ← ha]
  by_cases hset : u.slices.getLsbD i = true
  · rw [if_neg (by simp [hset]), if_pos hset]
    have hTi : a i &&& laneNib x i = T i := by rw [ha, hTx hset]
    by_cases h0 : a i = 0
    · rw [if_pos h0, branch_inactive h0]
      exact ⟨⟨rfl, rfl⟩, rfl⟩
    rw [if_neg h0]
    by_cases h1 : T i = a i
    · rw [if_pos h1, branch_all h0 (hTi.trans h1)]
      exact ⟨⟨rfl, rfl⟩, rfl, rfl⟩
    rw [if_neg h1]
    by_cases h2 : T i = 0
    · rw [if_pos h2, branch_none h0 (hTi.trans h2)]
      exact ⟨⟨rfl, rfl⟩, rfl, rfl⟩
    rw [if_neg h2, branch_divides (hTi ▸ h2) (hTi ▸ h1), hTi]
    exact ⟨⟨rfl, rfl⟩, rfl, rfl, rfl⟩
  · rw [if_pos (by simpa using hset), if_neg hset]

end Sys2Proof.Transfers

/-! `call` and the transfers to an address in a register (04 R77-R79). -/

namespace Sys2Proof.Transfers

open Sys2Proof.Machine Sys2Proof.Claims Sys2Proof.RegisterWrites Sys2Proof.ControlFrame Sys2Proof.Scheduling

/-! ### The link -/

/-- Two groups that differ in s registers alone, as far as a transfer can tell. -/
structure SameButS (g h : Group) : Prop where
  v : h.v = g.v
  m : h.m = g.m
  length : h.slices.length = g.slices.length
  seq : ∀ i, (h.slice i).seq = (g.slice i).seq
  gang : ∀ i, (h.slice i).gang = (g.slice i).gang
  exited : ∀ i, (h.slice i).exited = (g.slice i).exited

namespace SameButS

theorem refl (g : Group) : SameButS g g := ⟨rfl, rfl, rfl, fun _ => rfl, fun _ => rfl, fun _ => rfl⟩

theorem trans {g h k : Group} (h1 : SameButS g h) (h2 : SameButS h k) : SameButS g k :=
  ⟨h2.v.trans h1.v, h2.m.trans h1.m, h2.length.trans h1.length, fun i => (h2.seq i).trans (h1.seq i), fun i => (h2.gang i).trans (h1.gang i),
    fun i => (h2.exited i).trans (h1.exited i)⟩

theorem onSlices_s (g : Group) (set : SliceSet) (f : Slice → Tab Word) : SameButS g (g.onSlices set fun _ x => { x with s := f x }) where
  v := rfl
  m := rfl
  length := onSlices_length g _ _
  seq := slice_onSlices_keeps (p := Slice.seq) (fun _ _ => by rfl) g set
  gang := slice_onSlices_keeps (p := Slice.gang) (fun _ _ => by rfl) g set
  exited := slice_onSlices_keeps (p := Slice.exited) (fun _ _ => by rfl) g set

theorem writeS1 (g : Group) (j r : Nat) (x : Word) : SameButS g (g.writeS1 j r x) := by
  unfold Group.writeS1
  split
  · exact .refl g
  · dsimp only
    split
    · split
      · exact ⟨rfl, rfl, rfl, fun _ => rfl, fun _ => rfl, fun _ => rfl⟩
      · exact onSlices_s g _ _
    · exact onSlices_s g _ _

theorem writeS (g : Group) (set : SliceSet) (r : Nat) (x : Word) : SameButS g (g.writeS set r x) :=
  each_induction (P := SameButS g) _ _ g (.refl g) fun j h hh => hh.trans (writeS1 h j r x)

end SameButS

/-- The group after the link has been written to s30:s31 of the split. -/
def withLink (u : Issue) (g : Group) : Group :=
  (g.writeS u.slices 30 ((nextClause u).setWidth 32)).writeS u.slices 31 (((nextClause u) >>> 32).setWidth 32)

theorem sameButS_withLink (u : Issue) (g : Group) : SameButS g (withLink u g) := (SameButS.writeS ..).trans (SameButS.writeS ..)

theorem readS_withLink {g : Group} {i : Nat} (hi : i < g.slices.length) (u : Issue) (k : Nat) :
    (withLink u g).readS i k = if u.slices.getLsbD i = true ∧ k = 30 then (nextClause u).setWidth 32
      else if u.slices.getLsbD i = true ∧ k = 31 then ((nextClause u) >>> 32).setWidth 32 else g.readS i k := by
  rw [withLink, readS_writeS (by rw [writeS_length]; exact hi), readS_writeS hi]
  by_cases h30 : k = 30
  · simp [h30]
  · by_cases h31 : k = 31 <;> simp [h30, h31]

/-! ### Where a transfer leaves the split -/

/-- The group after its split has gone to a code address. -/
def jumped (u : Issue) (pc : Pc) (g : Group) : Group := g.onSlices u.slices fun _ x => { x with gang := 0, seq := { x.seq with pc := pc } }

theorem undisturbed_jumped (u : Issue) (pc : Pc) (g : Group) : Undisturbed g (jumped u pc g) :=
  .onSlices (fun _ _ => by rfl) (fun _ _ => by rfl) g u.slices

/-- The transfer of a split from a state that differs in s registers of its group alone. -/
theorem transferred_jumpTo {s t : State} {u : Issue} {g h : Group} (hm : sameMemory s t) (ho : otherGroups s t u.group)
    (ht : Tab.find t.groups u.group = some h) (hs : SameButS g h) (pc : Pc) : transferred s (t.jumpTo u pc) u g pc := by
  refine ⟨hm, fun n hn => (otherGroups_onGroup t u.group _ n hn).trans (ho n hn), jumped u pc h, find_onGroup ht _, hs.v, hs.m, ?_, fun i hi => ?_⟩
  · rw [(undisturbed_jumped u pc h).exitedLanes]
    simp only [Group.exitedLanes, hs.exited]
  · simp only [standsAt, jumped, slice_onSlices (hs.length ▸ hi : i < h.slices.length)]
    by_cases hset : u.slices.getLsbD i = true
    · rw [if_pos hset, if_pos hset, ← hs.seq i]
      exact ⟨rfl, rfl, rfl⟩
    · rw [if_neg hset, if_neg hset, hs.seq i, hs.gang i]
      exact ⟨rfl, rfl, rfl⟩

/-- A transfer that writes no link. -/
theorem transferred_plain {s : State} {u : Issue} {g : Group} (hg : Tab.find s.groups u.group = some g) (pc : Pc) :
    transferred s (s.jumpTo u pc) u g pc := transferred_jumpTo ⟨fun _ => rfl, rfl⟩ (fun _ _ => rfl) hg (.refl g) pc

theorem transferred_link {s : State} {u : Issue} {g : Group} (hg : Tab.find s.groups u.group = some g) (pc : Pc) :
    transferred s ((s.link (u.ctx g)).jumpTo u pc) u g pc :=
  transferred_jumpTo (s := s) (t := s.onGroup u.group (withLink u)) ⟨fun _ => rfl, rfl⟩ (otherGroups_onGroup s u.group _)
    (find_onGroup hg _) (sameButS_withLink u g) pc

theorem linked_link {s : State} {u : Issue} {g : Group} (hg : Tab.find s.groups u.group = some g) (pc : Pc) :
    linked ((s.link (u.ctx g)).jumpTo u pc) u g :=
  ⟨jumped u pc (withLink u g), find_onGroup (find_onGroup hg _) _, fun _ k hi => ((undisturbed_jumped ..).readS ..).trans (readS_withLink hi u k)⟩

/-! ### The checks of a code target -/

theorem transfer_ok (c : Ctx) {x : DWord} (hlt : x.toNat < 2 ^ 57) (h4 : x.toNat % 4 = 0) (go : Pc → State) : c.transfer x go = .jump (go (x.setWidth 57)) := by
  have hspace : ¬ bitsAt x.toNat 57 7 ≠ 0 := by rw [bitsAt]; omega
  rw [Ctx.transfer, if_neg hspace, if_neg (by omega)]

theorem transfer_space (c : Ctx) {x : DWord} (hge : 2 ^ 57 ≤ x.toNat) (go : Pc → State) : c.transfer x go = .trap { c.trap 7 0x08 with faddr := x } := by
  have hspace : bitsAt x.toNat 57 7 ≠ 0 := by rw [bitsAt]; have := x.isLt; omega
  rw [Ctx.transfer, if_pos hspace]

theorem transfer_align (c : Ctx) {x : DWord} (hlt : x.toNat < 2 ^ 57) (h4 : x.toNat % 4 ≠ 0) (go : Pc → State) :
    c.transfer x go = .trap { c.trap 7 0x07 with faddr := x } := by
  have hspace : ¬ bitsAt x.toNat 57 7 ≠ 0 := by rw [bitsAt]; omega
  rw [Ctx.transfer, if_neg hspace, if_pos h4]

/-! ### The words -/

section
variable {s : State} {u : Issue} {g : Group}

theorem exec_call_next (d : BitVec 21) (hi : Issuing s u g) (hc : Clear s (u.ctx g) [useS 30 2]) :
    exec (.call d) s = .next (State.wordJumped u ((s.link (u.ctx g)).jumpTo u (clauseBy u d))) := by
  rw [exec_call, ← clauseOf_add_signExtend]
  exact Ops.word_jump hi (by simp [noSig]) rfl hc rfl

/-- `ret` and `jmpi` go on from the state as it stands, `calli` from the one in which it has written the link. -/
def linkedIf (link : Bool) (s : State) (c : Ctx) : State := if link = true then s.link c else s

/-- What `ret`, `jmpi` and `calli` come to when nothing holds them back. -/
theorem exec_transfer {p : BitVec 7} {i : Instr} {link : Bool}
    (hw : (i = .ret ∧ link = false ∧ p = 126) ∨ (i = .jmpi p ∧ link = false) ∨ (i = .calli p ∧ link = true)) (hi : Issuing s u g) (hs : isS p = true)
    (he : isEven p = true) (hc : Clear s (u.ctx g) (if link = true then [useN p 2, useS 30 2] else [useN p 2])) :
    exec i s = .next (Ops.settle u ((u.ctx g).transfer ((u.ctx g).rd64 p 0) fun pc => (linkedIf link s (u.ctx g)).jumpTo u pc) s) := by
  rcases hw with ⟨rfl, rfl, rfl⟩ | ⟨rfl, rfl⟩ | ⟨rfl, rfl⟩
  · rw [exec_ret]
    exact Ops.word_clear hi (by simp [noSig]) rfl hc
  · rw [exec_jmpi]
    exact Ops.word_clear hi (by simp [noSig]) (by simp [hs, he]) hc
  · rw [exec_calli]
    exact Ops.word_clear hi (by simp [noSig]) (by simp [hs, he]) hc

/-- OPND of a target that is no even s register. -/
theorem exec_transfer_opnd {p : BitVec 7} (hi : Issuing s u g) (hn : u.snap = none) (hp : isS p = false ∨ isEven p = false) :
    exec (.jmpi p) s = .next (s.wordTrapped u ((u.ctx g).trap 5 0x05)) ∧ exec (.calli p) s = .next (s.wordTrapped u ((u.ctx g).trap 5 0x05)) := by
  have hopnd : (isS p && isEven p) = false := Bool.and_eq_false_iff.2 hp
  constructor
  · rw [exec_jmpi, execJmpi, Ops.word, Ops.wordBy_eq hi, Ops.check_opnd hn (by simp [noSig]) hopnd, Option.getD_some, Ops.settle_trap hi.2.2]
  · rw [exec_calli, execCalli, Ops.word, Ops.wordBy_eq hi, Ops.check_opnd hn (by simp [noSig]) hopnd, Option.getD_some, Ops.settle_trap hi.2.2]

end

/-- Settles O19: the checks of the target first, then the link where the word writes one, then the transfer. -/
theorem transferWords : Obligations.TransferWords := by
  unfold Obligations.TransferWords
  refine fun s u g hi => ⟨fun d hc => ⟨_, exec_call_next d hi hc, transferred_link hi.2.1 _, linked_link hi.2.1 _⟩, fun p i link x hw hs he hc hx => ?_,
    fun p hn hp => exec_transfer_opnd hi hn hp⟩
  have hexec := exec_transfer hw hi hs he hc
  rw [← hx] at hexec
  refine ⟨fun hlt h4 => ?_, fun hge => ?_, fun hlt h4 => ?_⟩
  · rw [transfer_ok _ hlt h4, Ops.settle_jump hi.2.2] at hexec
    refine ⟨_, hexec, ?_⟩
    cases link with
    | true => exact ⟨transferred_link hi.2.1 _, linked_link hi.2.1 _⟩
    | false => exact ⟨transferred_plain hi.2.1 _, jumped u _ g, find_onGroup hi.2.1 _, fun j k _ => (undisturbed_jumped ..).readS j k⟩
  · rw [hexec, transfer_space _ hge, Ops.settle_trap hi.2.2]
  · rw [hexec, transfer_align _ hlt h4, Ops.settle_trap hi.2.2]

end Sys2Proof.Transfers

/-! `exit` and the arrival at a `join` (04 R80, R81, R85): both empty a slice's current entry, which then takes its next work. -/

namespace Sys2Proof.ExitsAndJoins

open Sys2Proof.Machine Sys2Proof.Claims Sys2Proof.RegisterWrites Sys2Proof.ControlFrame Sys2Proof.Scheduling

/-! ### The next work of a slice -/

/-- The parked entry taken next is the first with a lane that has not exited. -/
theorem popParked_eq (exited : BitVec 4) (l : List (Pc × BitVec 4)) :
    Seq.popParked exited l = (l.dropWhile fun e => decide (e.2 &&& ~~~exited = 0)).head?.map fun e =>
      (e.1, e.2 &&& ~~~exited, (l.dropWhile fun e => decide (e.2 &&& ~~~exited = 0)).tail) := by
  induction l with
  | nil => rfl
  | cons e l ih =>
    obtain ⟨pc, k⟩ := e
    by_cases h : k &&& ~~~exited = 0
    · rw [Seq.popParked, if_pos h, ih, List.dropWhile_cons_of_pos (by simpa using h)]
    · rw [Seq.popParked, if_neg h, List.dropWhile_cons_of_neg (by simpa using h)]
      rfl

/-- A slice that takes its next work keeps its suspended lanes and the lanes that have exited, and stands at a clause boundary. -/
structure TookWork (x y : Slice) : Prop where
  susp : y.seq.susp = x.seq.susp
  exited : y.exited = x.exited
  exitAt : y.exitAt = x.exitAt
  exitNow : y.exitNow = x.exitNow
  gang : y.gang = 0
  next : takesNext x y

theorem takesNext_congr {x z y : Slice} (hr : z.seq.releases = x.seq.releases) (hp : z.seq.parked = x.seq.parked) (h : takesNext z y) : takesNext x y := by
  unfold takesNext at h ⊢
  rwa [hr, hp] at h

theorem takesNext_release {x y : Slice} {r : Pc × BitVec 4 × BitVec 4} {rest : List (Pc × BitVec 4 × BitVec 4)} (hr : x.seq.releases = r :: rest)
    (h : y.seq.pc = r.1 ∧ y.seq.m = r.2.1 ∧ y.seq.a = r.2.2 ∧ y.seq.releases = rest ∧ y.seq.parked = x.seq.parked) : takesNext x y := by
  unfold takesNext
  rw [hr]
  exact h

theorem takesNext_parked {x y : Slice} {e : Pc × BitVec 4} {rest : List (Pc × BitVec 4)} (hr : x.seq.releases = [])
    (hp : (x.seq.parked.dropWhile fun e => decide (e.2 &&& ~~~y.exited = 0)) = e :: rest)
    (h : y.seq.pc = e.1 ∧ y.seq.m = e.2 &&& ~~~y.exited ∧ y.seq.a = e.2 &&& ~~~y.exited ∧ y.seq.parked = rest ∧ y.seq.releases = []) : takesNext x y := by
  unfold takesNext
  rw [hr]
  dsimp only
  rw [hp]
  exact h

theorem takesNext_nothing {x y : Slice} (hr : x.seq.releases = []) (hp : (x.seq.parked.dropWhile fun e => decide (e.2 &&& ~~~y.exited = 0)) = [])
    (h : y.seq.m = 0 ∧ y.seq.a = 0 ∧ y.seq.parked = [] ∧ y.seq.releases = []) : takesNext x y := by
  unfold takesNext
  rw [hr]
  dsimp only
  rw [hp]
  exact h

theorem tookWork_takeWork {x : Slice} (hm : x.seq.m = 0) : TookWork x x.takeWork := by
  unfold Slice.takeWork
  rw [if_neg (by simpa using hm)]
  cases hr : x.seq.releases with
  | cons r rest => exact ⟨rfl, rfl, rfl, rfl, rfl, takesNext_release hr ⟨rfl, rfl, rfl, rfl, rfl⟩⟩
  | nil =>
    dsimp only
    rw [popParked_eq]
    cases hp : x.seq.parked.dropWhile fun e => decide (e.2 &&& ~~~x.exited = 0) with
    | cons e rest => exact ⟨rfl, rfl, rfl, rfl, rfl, takesNext_parked hr hp ⟨rfl, rfl, rfl, rfl, hr⟩⟩
    | nil => exact ⟨rfl, rfl, rfl, rfl, rfl, takesNext_nothing hr hp ⟨rfl, rfl, rfl, hr⟩⟩

/-! ### `exit` -/

/-- What `exit` makes of a slice whose active lanes are a (04 R85). -/
structure Left (now : Nat) (a : BitVec 4) (next : Pc) (x y : Slice) : Prop where
  exited : y.exited = x.exited ||| a
  exitAt : y.exitAt = now
  exitNow : y.exitNow = a
  gang : y.gang = 0
  done : x.seq.m &&& ~~~a = 0 → takesNext x y
  dormant : x.seq.m &&& ~~~a ≠ 0 → y.seq = { x.seq with pc := next, m := x.seq.m &&& ~~~a, a := x.seq.m &&& ~~~a }

theorem left_leave (now : Nat) (a : BitVec 4) (next : Pc) (x : Slice) : Left now a next x (x.leave now a next) := by
  unfold Slice.leave
  by_cases hm : x.seq.m &&& ~~~a = 0
  · simp only [hm, if_true]
    have hw := tookWork_takeWork (x :=
      { x with gang := 0, exited := x.exited ||| a, exitAt := now, exitNow := a, seq := { x.seq with m := 0, a := 0, pc := next } }) rfl
    exact ⟨hw.exited, hw.exitAt, hw.exitNow, hw.gang, fun _ => takesNext_congr rfl rfl hw.next, fun h => absurd hm h⟩
  · simp only [hm, if_false]
    exact ⟨rfl, rfl, rfl, rfl, fun h => absurd h hm, fun _ => rfl⟩

/-- The group after its split has exited; o is the group before the chain. -/
def exitedBy (s : State) (u : Issue) (o g : Group) : Group :=
  g.onSlices u.slices fun i x => x.leave (s.nowOf g) (o.slice i).seq.a (nextClause u)

theorem exec_exit_next {s : State} {u : Issue} {g : Group} (hi : Issuing s u g) (hc : Clear s (u.ctx g) []) :
    exec .exit s = .next (State.wordJumped u
      (((s.onGroup u.group (exitedBy s u (u.ctx g).g)).announce u.group (members (u.ctx g).exec)).settleEnd (u.ctx g).g.block)) := by
  rw [exec_exit]
  exact Ops.word_jump (sig := noSig) hi (fun hp => nomatch hp) rfl hc rfl

/-- The lanes announced are those that hold a section and are not announced already (09 R203). -/
theorem announce_poisons {s : State} {n : Nat} {g : Group} (hg : Tab.find s.groups n = some g) (lanes : List Nat) :
    (s.announce n lanes).poisons
      = s.poisons ++ (lanes.filter fun l => decide (Tab.get 0 g.sections l ≠ 0) && !s.poisons.contains (n, l)).map fun l => (n, l) := by
  unfold State.announce
  simp only [hg, Option.map_some, Option.getD_some]

/-- Settles O20: each slice leaves by itself, and the lanes are announced from the group as it stood. -/
theorem exitWord : Obligations.ExitWord := by
  unfold Obligations.ExitWord
  intro s u g a hi hc ha
  have hg : Tab.find (s.onGroup u.group (exitedBy s u (u.ctx g).g)).groups u.group = some (exitedBy s u (u.ctx g).g g) := find_onGroup hi.2.1 _
  refine ⟨_, _, exec_exit_next hi hc, ⟨fun _ => rfl, rfl⟩, otherGroups_onGroup s u.group _, hg, rfl, rfl, announce_poisons hg _, fun i hlen => ?_⟩
  rw [exitedBy, slice_onSlices hlen, ← ha]
  by_cases hset : u.slices.getLsbD i = true
  · rw [if_pos hset, if_neg (by simp [hset])]
    have hleft := left_leave (s.nowOf g) (a i) (nextClause u) (g.slice i)
    refine ⟨hleft.exited, hleft.exitAt, hleft.exitNow, hleft.gang, ?_⟩
    split
    next hm => exact hleft.done hm
    next hm => exact hleft.dormant hm
  · rw [if_neg hset, if_pos (by simpa using hset)]

/-! ### Arrival at a `join` -/

theorem find_each_put {β : Type} (ls : List Nat) (v : Nat → β) (t : Tab β) (n : Nat) :
    Tab.find (each ls (fun l t => Tab.put t l (v l)) t) n = if n ∈ ls then some (v n) else Tab.find t n := by
  induction ls generalizing t with
  | nil => simp
  | cons l ls ih =>
    rw [each_cons, ih, Tab.find_put]
    by_cases hn : n = l
    · subst hn
      simp
    · simp [hn]

/-- What the arrival at a join makes of a slice (04 R80). -/
structure Arrived (j : Pc) (x y : Slice) : Prop where
  susp : ∀ b, Tab.find y.seq.susp b = if x.seq.m.getLsbD b = true then some (j, x.seq.a.getLsbD b) else Tab.find x.seq.susp b
  gang : y.gang = 0
  exited : y.exited = x.exited
  next : takesNext x y

theorem arrived_arrive (j : Pc) (x : Slice) : Arrived j x (x.arrive j) := by
  have hw := tookWork_takeWork (x := { x with gang := 0, seq := { x.seq with
    m := 0, a := 0, susp := each (members x.seq.m) (fun l t => Tab.put t l (j, x.seq.a.getLsbD l)) x.seq.susp } }) rfl
  refine ⟨fun b => ?_, hw.gang, hw.exited, takesNext_congr rfl rfl hw.next⟩
  rw [Slice.arrive, hw.susp, find_each_put]
  simp only [mem_members]

/-- The timers of a group after the arrival at a join: the first arrival starts one (04 R81). -/
def timersFrom (c : Nat) (e : JoinTimer) (joins : Tab JoinTimer) : Tab JoinTimer := if (Tab.find joins c).isSome then joins else Tab.put joins c e

theorem find_timersFrom (c n : Nat) (e : JoinTimer) (joins : Tab JoinTimer) :
    Tab.find (timersFrom c e joins) n = if n = c ∧ Tab.find joins n = none then some e else Tab.find joins n := by
  unfold timersFrom
  by_cases hn : n = c
  · subst hn
    cases hf : Tab.find joins n <;> simp [hf]
  · rw [if_neg (c := n = c ∧ _) (fun h => hn h.1)]
    split
    · rfl
    · rw [Tab.find_put, if_neg hn]

/-- The group after its split has arrived at a join with a timer to start. -/
def arrivedBy (u : Issue) (e : JoinTimer) (g : Group) : Group :=
  Group.onSlices { g with joins := timersFrom u.pc.toNat e g.joins } u.slices fun _ x => x.arrive u.pc

theorem slice_arrivedBy {g : Group} {i : Nat} (hi : i < g.slices.length) (u : Issue) (e : JoinTimer) :
    (arrivedBy u e g).slice i = if u.slices.getLsbD i = true then (g.slice i).arrive u.pc else g.slice i :=
  slice_onSlices (g := { g with joins := _ }) hi u.slices _

theorem joinWord_holds : joinWord := by
  intro k n s u g hi hc
  refine ⟨s.onGroup u.group fun g => arrivedBy u { k := k.toNat, n := n.toNat, start := g.time (s.nowOf g) } g, _, ?_, ⟨fun _ => rfl, rfl⟩,
    otherGroups_onGroup s u.group _, find_onGroup hi.2.1 _, rfl, rfl, fun c => find_timersFrom _ c _ g.joins, fun i hlen => ?_⟩
  · rw [exec_join]
    exact Ops.word_jump (sig := noSig) hi (fun hp => nomatch hp) rfl hc rfl
  · rw [slice_arrivedBy hlen]
    by_cases hset : u.slices.getLsbD i = true
    · rw [if_pos hset, if_neg (by simp [hset])]
      have harr := arrived_arrive u.pc (g.slice i)
      exact ⟨fun b _ => harr.susp b, harr.gang, harr.exited, harr.next⟩
    · rw [if_neg hset, if_pos (by simpa using hset)]

end Sys2Proof.ExitsAndJoins

/-! The completion of a join (04 R81-R83). It leaves what the statement says it leaves as long as the count of missing lanes fits JOINST, so for every
group of the part, whose width is at most 128 lanes (01 R17). A state that lists a group of 2^31 lanes and more meets the hypotheses of the statement as
well, and no register of 32 bits holds the sum asked for there: that alone refutes O54, whose first half (`joinWord_holds`) and whose second half for
groups of up to 32 slices (`joinCompletes_of_width`) are proved. -/

namespace Sys2Proof.JoinCompletion

open Sys2Proof.Machine Sys2Proof.Claims Sys2Proof.RegisterWrites Sys2Proof.ControlFrame Sys2Proof.Transfers Sys2Proof.ExitsAndJoins Sys2Proof.Scheduling

/-! ### The tests of the model and those of the statement -/

theorem suspAt_any_eq (g : Group) (j : Pc) (l : Nat) : ((g.suspAt l).any fun q => decide (q.1 = j)) = decide (heldAtJoin g j l) := by
  rw [Bool.eq_iff_iff, decide_eq_true_iff, Option.any_eq_true]
  simp only [Group.suspAt, heldAtJoin, decide_eq_true_iff]
  exact ⟨fun ⟨q, hq, h⟩ => ⟨q.2, h ▸ hq⟩, fun ⟨a, ha⟩ => ⟨_, ha, rfl⟩⟩

theorem suspAt_any_active (g : Group) (j : Pc) (l : Nat) :
    ((g.suspAt l).any fun q => decide (q.1 = j) && q.2) = decide (Tab.find (g.slice (l / 4)).seq.susp (l % 4) = some (j, true)) := by
  rw [Bool.eq_iff_iff, decide_eq_true_iff, Option.any_eq_true]
  simp only [Group.suspAt, Bool.and_eq_true, decide_eq_true_iff]
  exact ⟨fun ⟨q, hq, h, ha⟩ => by rw [hq, ← h, ← ha], fun h => ⟨_, h, rfl, rfl⟩⟩

theorem mem_lanes {g : Group} {l : Nat} : l ∈ g.lanes ↔ l < 4 * g.slices.length := List.mem_range

theorem fullAt_iff (g : Group) (view : Nat) (j : Pc) : g.fullAt view j = true ↔ fullArrival g view j := by
  simp only [Group.fullAt, suspAt_any_eq, fullArrival, Bool.and_eq_true, List.all_eq_true, List.any_eq_true, Bool.or_eq_true, decide_eq_true_iff, mem_lanes]

theorem timedOut_iff (g : Group) (view : Nat) (j : Pc) :
    g.timedOut view j = true ↔ ∃ e, Tab.find g.joins j.toNat = some e ∧ timerOut g view j e ∧ ¬ fullArrival g view j := by
  unfold Group.timedOut
  cases Tab.find g.joins j.toNat with
  | none => simp
  | some e =>
    simp only [suspAt_any_eq, timerOut, Bool.and_eq_true, Bool.not_eq_true', decide_eq_true_iff, List.any_eq_true, mem_lanes, Option.some.injEq,
      exists_eq_left', ← fullAt_iff, Bool.not_eq_true]
    tauto

/-- Some join's timer had run out in a cycle, without full arrival there. -/
def anyLate (g : Group) (view : Nat) : Prop := ∃ p e, Tab.find g.joins p.toNat = some e ∧ timerOut g view p e ∧ ¬ fullArrival g view p

theorem lateJoins_eq_nil {g : Group} {view : Nat} (h : ¬ anyLate g view) : g.lateJoins view = [] :=
  List.filter_eq_nil_iff.2 fun p _ ht => h ⟨p, (timedOut_iff g view p).1 ht⟩

/-- The addresses at which lanes of the group are suspended. -/
theorem mem_filterMap_suspAt {g : Group} {p : Pc} :
    p ∈ (g.lanes.filterMap fun l => (g.suspAt l).map (·.1)) ↔ ∃ l, l < 4 * g.slices.length ∧ heldAtJoin g p l := by
  simp only [List.mem_filterMap, mem_lanes, Option.map_eq_some_iff, Group.suspAt, heldAtJoin]
  exact ⟨fun ⟨l, hl, q, hq, h⟩ => ⟨l, hl, q.2, h ▸ hq⟩, fun ⟨l, hl, a, ha⟩ => ⟨l, hl, _, ha, rfl⟩⟩

theorem staleAt_of_stalemate {g : Group} {view : Nat} {j : Pc} (h : stalemate g view j) : g.staleAt view j = true := by
  obtain ⟨hall, hj, ⟨l, p, hl, hpj, hp⟩, hlow⟩ := h
  simp only [Group.staleAt, Bool.and_eq_true]
  refine ⟨⟨⟨?_, ?_⟩, ?_⟩, ?_⟩
  · refine List.all_eq_true.2 fun l hl => Bool.or_eq_true_iff.2 ((hall l (mem_lanes.1 hl)).imp_right fun ⟨p, a, ha⟩ => ?_)
    exact Option.isSome_iff_exists.2 ⟨_, ha⟩
  · exact List.contains_iff_mem.2 (mem_filterMap_suspAt.2 hj)
  · exact List.any_eq_true.2 ⟨p, mem_filterMap_suspAt.2 ⟨l, hl, hp⟩, decide_eq_true hpj⟩
  · refine List.all_eq_true.2 fun q hq => ?_
    obtain ⟨l, hl, hq⟩ := mem_filterMap_suspAt.1 hq
    exact decide_eq_true (hlow l q hl hq)

/-! ### What the completion leaves -/

/-- The lanes that have neither exited nor arrived. -/
def missing (g : Group) (view : Nat) (j : Pc) : Nat :=
  ((List.range (4 * g.slices.length)).filter fun l => !g.gone view l && !decide (heldAtJoin g j l)).length

theorem missing_le (g : Group) (view : Nat) (j : Pc) : missing g view j ≤ 4 * g.slices.length :=
  (List.length_filter_le ..).trans List.length_range.le

theorem missing_full {g : Group} {view : Nat} {j : Pc} (h : fullArrival g view j) : missing g view j = 0 := by
  refine List.length_eq_zero_iff.2 (List.filter_eq_nil_iff.2 fun l hl hn => ?_)
  rcases h.1 l (List.mem_range.1 hl) with hg | ha
  · simp [hg] at hn
  · simp [ha] at hn

/-- The lanes that arrived active at a join. -/
def activeAt (g : Group) (j : Pc) : LaneSet :=
  bitSet 128 fun l => decide (l / 4 < g.slices.length) && decide (Tab.find (g.slice (l / 4)).seq.susp (l % 4) = some (j, true))

section
variable (g : Group) (view : Nat) (timeout stale : Bool) (j : Pc)

theorem completeJoin_joinst : (g.completeJoin view timeout stale j).joinst = .ofNat 32 (timeout.toNat * 2 ^ 31 + stale.toNat * 2 ^ 30 + missing g view j) := by
  simp only [missing, ← suspAt_any_eq]
  rfl

theorem completeJoin_m : (g.completeJoin view timeout stale j).m =
    if ((Tab.find g.joins j.toNat).map (·.k)).getD 0 = 0 then g.m else Tab.set 0 g.m (((Tab.find g.joins j.toNat).map (·.k)).getD 0) (activeAt g j) := by
  simp only [activeAt, ← suspAt_any_active]
  rfl

theorem completeJoin_joins : (g.completeJoin view timeout stale j).joins = Tab.erase g.joins j.toNat := rfl

/-- What the completion makes of a slice with these suspended lanes at the join, of which `on` arrived active. -/
def release (view : Nat) (j : Pc) (lanes on : BitVec 4) (x : Slice) : Slice :=
  let susp := x.seq.susp.filter fun e => e.2.1 ≠ j
  if lanes = 0 then x
  else if x.seq.m = 0 then
    { x with gang := 0, after := max x.after (view + 1), seq := { x.seq with pc := j + 4, m := lanes, a := on, susp := susp, wait := .none } }
  else { x with seq := { x.seq with susp := susp, releases := x.seq.releases ++ [(j + 4, lanes, on)] } }

theorem slice_completeJoin {i : Nat} (hi : i < g.slices.length) (h32 : i < 32) :
    (g.completeJoin view timeout stale j).slice i =
      release view j (bitSet 4 fun b => decide (heldAtJoin g j (4 * i + b))) (laneNib (activeAt g j) i) (g.slice i) := by
  refine (slice_onSlices (g := { g with m := _, joins := _, joinst := _ }) hi g.allSlices _).trans ((if_pos (getLsbD_allSlices g hi h32)).trans ?_)
  simp only [activeAt, ← suspAt_any_active, ← suspAt_any_eq]
  rfl

theorem laneNib_activeAt {i : Nat} (hi : i < g.slices.length) (h32 : i < 32) :
    laneNib (activeAt g j) i = bitSet 4 fun b => decide (Tab.find (g.slice ((4 * i + b) / 4)).seq.susp ((4 * i + b) % 4) = some (j, true)) :=
  BitVec.eq_of_getLsbD_eq fun b hb => by
    rw [getLsbD_laneNib _ _ hb, activeAt, getLsbD_bitSet, getLsbD_bitSet, decide_eq_true (show 4 * i + b < 128 by omega), decide_eq_true hb,
      decide_eq_true (show (4 * i + b) / 4 < g.slices.length by omega)]
    simp only [Bool.true_and]

theorem readM_completeJoin {n : Nat} (hn : 0 < n) (l : Nat) :
    ((g.completeJoin view timeout stale j).readM 0 n).getLsbD l
      = if n = ((Tab.find g.joins j.toNat).map (·.k)).getD 0 ∧ l < 128
        then decide (l < 4 * g.slices.length) && decide (Tab.find (g.slice (l / 4)).seq.susp (l % 4) = some (j, true)) else (g.readM 0 n).getLsbD l := by
  simp only [Group.readM, Nat.ne_of_gt hn, if_false, completeJoin_m]
  generalize ((Tab.find g.joins j.toNat).map (·.k)).getD 0 = k
  by_cases hk : k = 0
  · rw [if_pos hk, if_neg (by omega)]
  rw [if_neg hk, Tab.get_set]
  by_cases hnk : n = k
  · rw [if_pos hnk]
    by_cases hl : l < 128
    · rw [if_pos ⟨hnk, hl⟩, activeAt, getLsbD_bitSet, decide_eq_true hl, Bool.true_and]
      congr 1
      exact decide_eq_decide.2 (by omega)
    · rw [if_neg (fun h => hl h.2), BitVec.getLsbD_of_ge _ _ (by omega), BitVec.getLsbD_of_ge _ _ (by omega)]
  · rw [if_neg hnk, if_neg (fun h => hnk h.1)]

variable {g view timeout stale j}

theorem joined_completeJoin (hfit : timeout.toNat * 2 ^ 31 + stale.toNat * 2 ^ 30 + missing g view j < 2 ^ 32) :
    joined g (g.completeJoin view timeout stale j) view j timeout stale := by
  refine ⟨?_, fun n l hn => readM_completeJoin g view timeout stale j hn l, ?_, fun i hi h32 => ?_⟩
  · rw [completeJoin_joinst, BitVec.toNat_ofNat, Nat.mod_eq_of_lt hfit]
    rfl
  · rw [completeJoin_joins, Tab.find_erase, if_pos rfl]
  · dsimp only
    rw [standsAt, slice_completeJoin g view timeout stale j hi h32, ← laneNib_activeAt g j hi h32]
    generalize (bitSet 4 fun b => decide (heldAtJoin g j (4 * i + b)) : BitVec 4) = lanes
    refine ⟨fun h => ?_, fun h => ?_, fun h hm => ?_, fun h hm => ?_⟩
    · rw [release, if_pos h]
    · rw [release, if_neg h]
      split <;> rfl
    · rw [release, if_neg h, if_pos hm]
      exact ⟨⟨rfl, rfl⟩, rfl, rfl, by dsimp only; omega⟩
    · rw [release, if_neg h, if_neg hm]
      exact ⟨rfl, rfl, rfl⟩

theorem joinst_of_joined {h : Group} (hj : joined g h view j timeout stale) :
    h.joinst.toNat = timeout.toNat * 2 ^ 31 + stale.toNat * 2 ^ 30 + missing g view j := hj.1

end

/-! ### The steps -/

section
variable {s : State} {n : Nat} {j : Pc} {g : Group}

theorem exec_joinComplete_full (hg : Tab.find s.groups n = some g) (hl : ¬ anyLate g (s.nowOf g - 1)) (h : fullArrival g (s.nowOf g) j) :
    exec (.joinComplete n j) s = .next (s.onGroup n (Group.completeJoin (s.nowOf g) false false j)) := by
  rw [exec_joinComplete]
  unfold execJoinComplete
  rw [hg]
  dsimp only
  rw [if_neg (not_not.2 (lateJoins_eq_nil hl)), if_pos ((fullAt_iff ..).2 h)]

theorem exec_joinComplete_stale (hg : Tab.find s.groups n = some g) (hl : ¬ anyLate g (s.nowOf g - 1)) (h : stalemate g (s.nowOf g) j)
    (hf : ¬ fullArrival g (s.nowOf g) j) : exec (.joinComplete n j) s = .next (s.onGroup n (Group.completeJoin (s.nowOf g) false true j)) := by
  rw [exec_joinComplete]
  unfold execJoinComplete
  rw [hg]
  dsimp only
  rw [if_neg (not_not.2 (lateJoins_eq_nil hl)), if_neg (fun ht => hf ((fullAt_iff ..).1 ht)), if_pos (staleAt_of_stalemate h)]

theorem exec_joinTimeout_late {e : JoinTimer} (hg : Tab.find s.groups n = some g) (he : Tab.find g.joins j.toNat = some e)
    (ht : timerOut g (s.nowOf g - 1) j e) (hf : ¬ fullArrival g (s.nowOf g - 1) j) :
    exec (.joinTimeout n j) s = .next (s.onGroup n (Group.completeJoin (s.nowOf g - 1) true false j)) := by
  rw [exec_joinTimeout]
  unfold execJoinTimeout
  rw [hg]
  exact if_pos ((timedOut_iff ..).2 ⟨e, he, ht, hf⟩)

/-- The step completes the join at j of group n in cycle `view`, as the statement says. -/
def Completes (i : Instr) (n : Nat) (j : Pc) (s : State) (g : Group) (view : Nat) (timeout stale : Bool) : Prop :=
  ∃ t h, exec i s = .next t ∧ sameMemory s t ∧ otherGroups s t n ∧ Tab.find t.groups n = some h ∧ joined g h view j timeout stale

theorem completes_of_exec {i : Instr} {view : Nat} {timeout stale : Bool} (hg : Tab.find s.groups n = some g)
    (hexec : exec i s = .next (s.onGroup n (Group.completeJoin view timeout stale j)))
    (hfit : timeout.toNat * 2 ^ 31 + stale.toNat * 2 ^ 30 + missing g view j < 2 ^ 32) : Completes i n j s g view timeout stale :=
  ⟨_, _, hexec, ⟨fun _ => rfl, rfl⟩, otherGroups_onGroup s n _, find_onGroup hg _, joined_completeJoin hfit⟩

/-- What the second half of O54 states of one group. -/
def JoinCompletes (n : Nat) (j : Pc) (s : State) (g : Group) : Prop :=
  (¬ anyLate g (s.nowOf g - 1) → fullArrival g (s.nowOf g) j → Completes (.joinComplete n j) n j s g (s.nowOf g) false false)
  ∧ (¬ anyLate g (s.nowOf g - 1) → stalemate g (s.nowOf g) j → ¬ fullArrival g (s.nowOf g) j →
    Completes (.joinComplete n j) n j s g (s.nowOf g) false true)
  ∧ ∀ e, Tab.find g.joins j.toNat = some e → timerOut g (s.nowOf g - 1) j e → ¬ fullArrival g (s.nowOf g - 1) j →
    Completes (.joinTimeout n j) n j s g (s.nowOf g - 1) true false

theorem joinsComplete_iff : joinsComplete ↔ ∀ n j s g, Tab.find s.groups n = some g → JoinCompletes n j s g := by
  constructor
  · exact fun h n j s g hg => h n j s g _ hg Iff.rfl
  · intro h n j s g early hg hearly
    rw [hearly]
    exact h n j s g hg

/-- It holds of every group of the part: W is at most 128, of four lanes a slice (01 R17). -/
theorem joinCompletes_of_width (hg : Tab.find s.groups n = some g) (hw : g.slices.length ≤ 32) : JoinCompletes n j s g := by
  refine ⟨fun hl h => completes_of_exec hg (exec_joinComplete_full hg hl h) ?_, fun hl h hf => completes_of_exec hg (exec_joinComplete_stale hg hl h hf) ?_,
    fun e he ht hf => completes_of_exec hg (exec_joinTimeout_late hg he ht hf) ?_⟩
  · rw [missing_full h]
    decide
  · have := missing_le g (s.nowOf g) j
    simp only [Bool.toNat_false, Bool.toNat_true]
    omega
  · have := missing_le g (s.nowOf g - 1) j
    simp only [Bool.toNat_false, Bool.toNat_true]
    omega

end

/-! ### The group whose missing lanes JOINST cannot count -/

/-- A slice whose lane 0 is suspended at address 0, where it arrived active. -/
def waiting : Slice := { Slice.empty with seq := { Seq.empty with susp := [(0, 0, true)] } }

/-- A group of N + 1 slices of which lane 0 alone has come to a join, whose timer of 16 cycles has run out. -/
def wide (N : Nat) : Group :=
  { Group.new 0 0 0 16 0 0 0 0 with slices := waiting :: List.replicate N Slice.empty, joins := [(0, { k := 1, n := 1, start := 0 })], ran := 16, runs := none }

def wideState (N : Nat) : State := { State.reset with groups := [(0, wide N)] }

theorem find_wideState (N : Nat) : Tab.find (wideState N).groups 0 = some (wide N) := rfl

theorem wide_length (N : Nat) : (wide N).slices.length = N + 1 := by simp [wide]

theorem heldAtJoin_wide (N : Nat) : heldAtJoin (wide N) 0 0 := ⟨true, rfl⟩

theorem slice_wide {N i : Nat} (hi : 0 < i) : (wide N).slice i = Slice.empty := by
  obtain ⟨k, rfl⟩ := Nat.exists_eq_add_of_lt hi
  rw [Group.slice, wide, Nat.zero_add, List.getD_cons_succ, List.getD_eq_getElem?_getD]
  exact List.getElem?_getD_replicate_default_eq ..

theorem not_gone_wide (N view : Nat) {l : Nat} (hl : 4 ≤ l) : (wide N).gone view l = false := by
  simp [Group.gone, slice_wide (N := N) (show 0 < l / 4 by omega), Slice.empty]

theorem not_heldAtJoin_wide (N : Nat) {l : Nat} (hl : 4 ≤ l) : ¬ heldAtJoin (wide N) 0 l := by
  rintro ⟨a, ha⟩
  rw [slice_wide (show 0 < l / 4 by omega)] at ha
  cases ha

theorem le_missing_wide (N view : Nat) : 4 * N ≤ missing (wide N) view 0 := by
  have hall : ((List.range (4 * N)).map (4 + ·)).filter (fun l => !(wide N).gone view l && !decide (heldAtJoin (wide N) 0 l))
      = (List.range (4 * N)).map (4 + ·) := by
    refine List.filter_eq_self.2 fun l hl => ?_
    obtain ⟨r, _, rfl⟩ := List.mem_map.1 hl
    rw [not_gone_wide N view (by omega), decide_eq_false (not_heldAtJoin_wide N (by omega))]
    rfl
  rw [missing, wide_length, show 4 * (N + 1) = 4 + 4 * N by omega, List.range_add, List.filter_append, hall, List.length_append, List.length_map,
    List.length_range]
  omega

theorem timerOut_wide (N view : Nat) : timerOut (wide N) view 0 { k := 1, n := 1, start := 0 } :=
  ⟨by decide, by simp [Group.time, wide], 0, by rw [wide_length]; omega, heldAtJoin_wide N⟩

theorem not_fullArrival_wide {N : Nat} (hN : 0 < N) (view : Nat) : ¬ fullArrival (wide N) view 0 := fun h => by
  have := missing_full h
  have := le_missing_wide N view
  omega

theorem not_joinCompletes_wide {N : Nat} (hN : 2 ^ 29 ≤ N) : ¬ JoinCompletes 0 0 (wideState N) (wide N) := by
  rintro ⟨_, _, hlate⟩
  obtain ⟨_, h, _, _, _, _, hj⟩ := hlate _ rfl (timerOut_wide N _) (not_fullArrival_wide (by omega) _)
  have hsum := joinst_of_joined hj
  have hcount := le_missing_wide N ((wideState N).nowOf (wide N) - 1)
  have hlt := h.joinst.isLt
  simp only [Bool.toNat_true, Bool.toNat_false] at hsum
  omega

/-- Refutes O54: in a group of 2^29 + 1 slices (a state may list one, and the statement does not bound the width) the timer of a join runs out with 2^31
and more lanes missing; the statement asks JOINST to read 2^31 for TO plus that count, 2^32 or more. For the widths of the part it holds:
`joinWord_holds` and `joinCompletes_of_width`. -/
theorem not_joins : ¬ Obligations.Joins := by
  unfold Obligations.Joins
  rintro ⟨_, hcomplete⟩
  exact not_joinCompletes_wide (le_refl (2 ^ 29)) (joinsComplete_iff.1 hcomplete 0 0 _ _ (find_wideState (2 ^ 29)))

end Sys2Proof.JoinCompletion

/-! The integer, address and packed words (05 R91-R102): the arithmetic each word does on machine words is the arithmetic over the integers that the
tables of the statements write; with it, each word is a word of one of the shared operand forms with the table's result. -/

namespace Sys2Proof.IntegerWords

open Sys2Proof.Machine Sys2Proof.Claims

/-! ### Arithmetic of machine words, over the integers -/

section
variable {w : Nat}

theorem add_eq_ofInt (x y : BitVec w) : x + y = .ofInt w (x.toInt + y.toInt) := by rw [BitVec.ofInt_add, BitVec.ofInt_toInt, BitVec.ofInt_toInt]
theorem sub_eq_ofInt (x y : BitVec w) : x - y = .ofInt w (x.toInt - y.toInt) := by
  rw [BitVec.sub_eq_add_neg, sub_eq_add_neg, BitVec.ofInt_add, BitVec.ofInt_neg, BitVec.ofInt_toInt, BitVec.ofInt_toInt]
theorem mul_eq_ofInt (x y : BitVec w) : x * y = .ofInt w (x.toInt * y.toInt) := by rw [BitVec.ofInt_mul, BitVec.ofInt_toInt, BitVec.ofInt_toInt]

theorem shiftLeft_eq_ofNat (x : BitVec w) (k : Nat) : x <<< k = .ofNat w (x.toNat * 2 ^ k) := by
  rw [← Nat.shiftLeft_eq]
  rfl

theorem ushiftRight_eq_ofNat (x : BitVec w) (k : Nat) : x >>> k = .ofNat w (x.toNat / 2 ^ k) := by
  apply BitVec.eq_of_toNat_eq
  rw [BitVec.toNat_ushiftRight, Nat.shiftRight_eq_div_pow, BitVec.toNat_ofNat, Nat.mod_eq_of_lt ((Nat.div_le_self ..).trans_lt x.isLt)]

theorem sshiftRight_eq_ofInt (x : BitVec w) (k : Nat) : x.sshiftRight k = .ofInt w (x.toInt / 2 ^ k) := by
  rw [← BitVec.ofInt_toInt (x := x.sshiftRight k), BitVec.toInt_sshiftRight, Int.shiftRight_eq_div_pow, Int.natCast_pow]
  rfl

/-- A word is the set of its bits. -/
theorem eq_bitSet {x : BitVec w} {f : Nat → Bool} (h : ∀ i, i < w → x.getLsbD i = f i) : x = bitSet w f :=
  BitVec.eq_of_getLsbD_eq fun i hi => by rw [getLsbD_bitSet, decide_eq_true hi, Bool.true_and, h i hi]

theorem smin_eq_ofInt (x y : BitVec w) : (if x.toInt ≤ y.toInt then x else y) = .ofInt w (min x.toInt y.toInt) := by
  split
  next h => rw [min_eq_left h, BitVec.ofInt_toInt]
  next h => rw [min_eq_right (le_of_not_ge h), BitVec.ofInt_toInt]

theorem smax_eq_ofInt (x y : BitVec w) : (if x.toInt ≤ y.toInt then y else x) = .ofInt w (max x.toInt y.toInt) := by
  split
  next h => rw [max_eq_right h, BitVec.ofInt_toInt]
  next h => rw [max_eq_left (le_of_not_ge h), BitVec.ofInt_toInt]

theorem umin_eq_ofNat (x y : BitVec w) : (if x.toNat ≤ y.toNat then x else y) = .ofNat w (min x.toNat y.toNat) := by
  split
  next h => rw [min_eq_left h, BitVec.ofNat_toNat, BitVec.setWidth_eq]
  next h => rw [min_eq_right (le_of_not_ge h), BitVec.ofNat_toNat, BitVec.setWidth_eq]

theorem umax_eq_ofNat (x y : BitVec w) : (if x.toNat ≤ y.toNat then y else x) = .ofNat w (max x.toNat y.toNat) := by
  split
  next h => rw [max_eq_right h, BitVec.ofNat_toNat, BitVec.setWidth_eq]
  next h => rw [max_eq_left (le_of_not_ge h), BitVec.ofNat_toNat, BitVec.setWidth_eq]

theorem abs_eq_ofInt (x : BitVec w) : (if x.toInt < 0 then -x else x) = .ofInt w x.toInt.natAbs := by
  split
  next h => rw [Int.ofNat_natAbs_of_nonpos h.le, BitVec.ofInt_neg, BitVec.ofInt_toInt]
  next h => rw [Int.natAbs_of_nonneg (not_lt.1 h), BitVec.ofInt_toInt]

/-- The low n bits of a word under a mask of n ones. -/
theorem and_ones_eq_ofNat (x : BitVec w) {m : BitVec w} (n : Nat) (hm : m = .ofNat w (2 ^ n - 1)) : x &&& m = .ofNat w (x.toNat % 2 ^ n) := by
  rw [hm, ← Nat.and_two_pow_sub_one_eq_mod, BitVec.ofNat_and, BitVec.ofNat_toNat, BitVec.setWidth_eq]

/-- The low n bits of a word as a signed number. -/
theorem toInt_ofNat_eq_signed {n : Nat} (hn : 0 < n) (x : Nat) : (BitVec.ofNat n x).toInt = signed n x := by
  obtain ⟨m, rfl⟩ := Nat.exists_eq_add_of_lt hn
  have hp : 2 ^ (0 + m + 1) = 2 * 2 ^ m := by ring
  rw [BitVec.toInt_eq_toNat_cond, BitVec.toNat_ofNat, signed]
  simp only [hp, show 0 + m + 1 - 1 = m by omega, Nat.mul_lt_mul_left (show 0 < 2 by omega)]
  push_cast
  rw [show (2 : Int) ^ (0 + m + 1) = 2 * 2 ^ m by ring]

theorem rotateLeft_eq_bitSet (x : Word) {k : Nat} (hk : k < 32) : x.rotateLeft k = bitSet 32 fun i => x.getLsbD ((i + 32 - k) % 32) :=
  eq_bitSet fun i hi => by
    rw [BitVec.getLsbD_rotateLeft, Nat.mod_eq_of_lt hk, decide_eq_true hi, Bool.true_and]
    by_cases h : i < k
    · rw [decide_eq_true h, cond_true, show 32 - k + i = (i + 32 - k) % 32 by omega]
    · rw [decide_eq_false h, cond_false, show i - k = (i + 32 - k) % 32 by omega]

end

/-! ### Counts and fields of bits (05 R94, R95) -/

theorem length_filter_lt (k n : Nat) : ((List.range n).filter fun i => decide (k < i)).length = n - (k + 1) := by
  induction n with
  | zero => simp
  | succ n ih =>
    rw [List.range_succ, List.filter_append, List.length_append, ih]
    by_cases h : k < n
    · simp [h]; omega
    · simp [h]; omega

theorem leadingZeros_eq (x : Word) : leadingZeros x = .ofNat 32 ((List.range 32).filter fun i => decide (x.toNat < 2 ^ i)).length := by
  unfold leadingZeros
  split
  next h => subst h; rfl
  next h =>
    have hx : x.toNat ≠ 0 := fun h0 => h (BitVec.eq_of_toNat_eq h0)
    simp only [← Nat.log2_lt hx, length_filter_lt]
    rw [show 32 - (x.toNat.log2 + 1) = 31 - x.toNat.log2 by omega]

theorem sextN_eq_signed {n : Nat} (hn : 0 < n) (x : Nat) : sextN x n = signed n x := by
  simp only [sextN, signed, hn.ne', ne_eq, not_false_eq_true, true_and]
  by_cases h : 2 ^ (n - 1) ≤ x % 2 ^ n
  · rw [if_pos h, if_neg (not_lt.2 h)]
  · rw [if_neg h, if_pos (not_le.1 h)]

theorem bfeS_eq (x y : Word) : bfeS x y = if fieldWidth y = 0 then 0 else .ofInt 32 (signed (fieldWidth y) (fieldOf x y)) := by
  show (if fieldWidth y = 0 then _ else BitVec.ofInt 32 (sextN (x.toNat / 2 ^ (y.toNat % 32)) (fieldWidth y))) = _
  split
  · rfl
  next h => rw [sextN_eq_signed (Nat.pos_of_ne_zero h), signed, signed, fieldOf, Nat.mod_mod]

/-- The field b names, bit by bit: `len` bits from bit `pos` on. -/
theorem getLsbD_hole {len pos i : Nat} (hi : i < 32) :
    (BitVec.ofNat 32 (2 ^ len - 1) <<< pos).getLsbD i = decide (pos ≤ i ∧ i < pos + len) := by
  simp only [BitVec.getLsbD_shiftLeft, BitVec.getLsbD_ofNat, Nat.testBit_two_pow_sub_one]
  by_cases h : pos ≤ i
  · simp only [hi, h, decide_true, Bool.true_and, show ¬ i < pos by omega, decide_false, Bool.not_false, show i - pos < 32 by omega, true_and]
    exact decide_eq_decide.2 (by omega)
  · simp [h, show i < pos by omega]

theorem bfiOf_eq (d x y : Word) : bfiOf d x y = bitSet 32 fun i =>
    if y.toNat % 32 ≤ i ∧ i < y.toNat % 32 + fieldWidth y then x.getLsbD (i - y.toNat % 32) else d.getLsbD i :=
  eq_bitSet fun i hi => by
    show (_ &&& ~~~(BitVec.ofNat 32 (2 ^ fieldWidth y - 1) <<< (y.toNat % 32)) ||| (x <<< (y.toNat % 32)) &&&
      (BitVec.ofNat 32 (2 ^ fieldWidth y - 1) <<< (y.toNat % 32))).getLsbD i = _
    rw [BitVec.getLsbD_or, BitVec.getLsbD_and, BitVec.getLsbD_and, BitVec.getLsbD_not, getLsbD_hole hi, BitVec.getLsbD_shiftLeft]
    split
    next h => simp [h, hi]
    next h => simp [h, hi]

/-! ### Halves, constants and pointers (05 R98, R101, R102) -/

/-- Two halves joined, as a number. -/
theorem append_eq_ofNat (x y : BitVec 16) : x ++ y = BitVec.ofNat 32 (y.toNat + x.toNat * 2 ^ 16) := by
  apply BitVec.eq_of_toNat_eq
  rw [BitVec.toNat_append, ← Nat.shiftLeft_add_eq_or_of_lt y.isLt, Nat.shiftLeft_eq, BitVec.toNat_ofNat]
  omega

theorem loHalf16_eq (x : Word) : loHalf16 x = BitVec.ofNat 16 (x.toNat / 2 ^ (16 * 0)) := by
  rw [Nat.mul_zero, Nat.pow_zero, Nat.div_one, BitVec.ofNat_toNat, loHalf16]
theorem hiHalf16_eq (x : Word) : hiHalf16 x = BitVec.ofNat 16 (x.toNat / 2 ^ (16 * 1)) := by
  rw [hiHalf16, ushiftRight_eq_ofNat]
  apply BitVec.eq_of_toNat_eq
  simp

theorem toNat_ofInt16 (z : Int) : (BitVec.ofInt 16 z).toNat = (z % 2 ^ 16).toNat := by rw [BitVec.toNat_ofInt]; rfl

/-- A packed word whose halves do over the integers what f says. -/
theorem halves_eq_ofHalves {g : BitVec 16 → BitVec 16 → BitVec 16} {f : Int → Int → Nat → Int}
    (h : ∀ x y, g x y = BitVec.ofInt 16 (f x.toInt y.toInt (y.toNat % 16))) (a b : Word) : halves g a b = ofHalves f a b := by
  have hmod (n : Nat) : n % 2 ^ 16 % 16 = n % 2 ^ 4 := by omega
  simp only [halves, ofHalves, h, append_eq_ofNat, toNat_ofInt16, loHalf16_eq, hiHalf16_eq, toInt_ofNat_eq_signed (show 0 < 16 by omega), BitVec.toNat_ofNat, hmod]

/-- The halves of a word: the high one kept, the low one replaced. -/
theorem keepHigh_eq_ofNat (x : Word) {m : Word} (hm : ∀ i < 32, m.getLsbD i = decide (16 ≤ i)) (i : BitVec 16) :
    (x &&& m) ||| i.setWidth 32 = .ofNat 32 (x.toNat / 2 ^ 16 * 2 ^ 16 + i.toNat) := by
  have happ : (x &&& m) ||| i.setWidth 32 = (x >>> 16).setWidth 16 ++ i := by
    refine BitVec.eq_of_getLsbD_eq fun j hj => ?_
    rw [BitVec.getLsbD_or, BitVec.getLsbD_and, hm j hj, BitVec.getLsbD_setWidth, BitVec.getLsbD_append]
    by_cases h : j < 16
    · simp [h, hj, show ¬ 16 ≤ j by omega]
    · simp [h, hj, show 16 ≤ j by omega, show j - 16 < 16 by omega, show 16 + (j - 16) = j by omega]
  rw [happ, append_eq_ofNat, BitVec.toNat_setWidth, BitVec.toNat_ushiftRight, Nat.shiftRight_eq_div_pow, Nat.mod_eq_of_lt (by omega), Nat.add_comm]

theorem keepLow_eq_ofNat (x : Word) {m : Word} (hm : ∀ i < 32, m.getLsbD i = decide (i < 16)) (i : BitVec 16) :
    (x &&& m) ||| (i.setWidth 32 <<< 16) = .ofNat 32 (i.toNat * 2 ^ 16 + x.toNat % 2 ^ 16) := by
  have happ : (x &&& m) ||| (i.setWidth 32 <<< 16) = i ++ x.setWidth 16 := by
    refine BitVec.eq_of_getLsbD_eq fun j hj => ?_
    rw [BitVec.getLsbD_or, BitVec.getLsbD_and, hm j hj, BitVec.getLsbD_shiftLeft, BitVec.getLsbD_setWidth, BitVec.getLsbD_append]
    by_cases h : j < 16
    · simp [h, hj]
    · simp [h, hj, show j - 16 < 32 by omega]
  rw [happ, append_eq_ofNat, BitVec.toNat_setWidth, Nat.add_comm]

/-- A pointer moved by n times an index, over the integers. -/
def movedPointer (n : Nat) (base : DWord) (i : Word) : DWord :=
  .ofNat 64 (base.toNat / 2 ^ 57 * 2 ^ 57 + (((base.toNat % 2 ^ 57 : Nat) + n * i.toInt) % 2 ^ 57).toNat)

/-- The address bits of the sum: what wraps at 2^64 wraps at 2^57. -/
theorem toNat_moved_mod (n : Nat) (base : DWord) (i : Word) :
    (base + BitVec.ofNat 64 n * i.signExtend 64).toNat % 2 ^ 57 = (((base.toNat % 2 ^ 57 : Nat) + n * i.toInt) % 2 ^ 57).toNat := by
  have hsum : base + BitVec.ofNat 64 n * i.signExtend 64 = .ofInt 64 (base.toNat + n * i.toInt) := by
    rw [BitVec.ofInt_add, BitVec.ofInt_mul, BitVec.ofInt_natCast, BitVec.ofInt_natCast, BitVec.ofNat_toNat, BitVec.setWidth_eq]
    rfl
  have hz : ((base.toNat % 2 ^ 57 : Nat) + n * i.toInt) % 2 ^ 57 = (base.toNat + n * i.toInt) % 2 ^ 57 := by
    generalize (n : Int) * i.toInt = z
    omega
  rw [hsum, BitVec.toNat_ofInt, hz]
  omega

theorem lea_eq (n : Nat) (base : DWord) (i : Word) : lea n base i = movedPointer n base i := by
  have hlea : lea n base i = ((base >>> 57) <<< 57) ||| .ofNat 64 ((base + BitVec.ofNat 64 n * i.signExtend 64).toNat % 2 ^ 57) :=
    congrArg (((base >>> 57) <<< 57) ||| ·) (and_ones_eq_ofNat _ 57 rfl)
  have hb := base.isLt
  have hlt : (base + BitVec.ofNat 64 n * i.signExtend 64).toNat % 2 ^ 57 < 2 ^ 57 := Nat.mod_lt _ (by omega)
  apply BitVec.eq_of_toNat_eq
  rw [hlea, movedPointer, ← toNat_moved_mod, BitVec.toNat_or, BitVec.toNat_shiftLeft, BitVec.toNat_ushiftRight, Nat.shiftRight_eq_div_pow,
    BitVec.toNat_ofNat, BitVec.toNat_ofNat, Nat.shiftLeft_eq, Nat.mod_eq_of_lt (show base.toNat / 2 ^ 57 * 2 ^ 57 < 2 ^ 64 by omega),
    Nat.mod_eq_of_lt (hlt.trans (by omega)), ← Nat.shiftLeft_eq, ← Nat.shiftLeft_add_eq_or_of_lt hlt, Nat.shiftLeft_eq]
  omega

end Sys2Proof.IntegerWords

/-! Each integer word as a word of one of the shared operand forms, with the result its table gives it. -/

namespace Sys2Proof.IntegerWords

open Sys2Proof.Machine Sys2Proof.Claims Sys2Proof.MaskWords

theorem beq_eq_decide_toNat {w : Nat} (x y : BitVec w) : (x == y) = decide (x.toNat = y.toNat) := by
  rw [Bool.eq_iff_iff, beq_iff_eq, decide_eq_true_iff, BitVec.toNat_inj]

/-! ### Words of the operand forms with the results of their tables -/

section
variable {s : State}

theorem alu0_congr {d : BitVec 7} {f f' : Word → Word} (h : ∀ x, f x = f' x) : Ops.alu0 d f s = Ops.alu0 d f' s := by rw [funext h]
theorem alu1_congr {d a : BitVec 7} {f f' : Word → Word} (h : ∀ x, f x = f' x) : Ops.alu1 d a f s = Ops.alu1 d a f' s := by rw [funext h]
theorem alu2_congr {d a b : BitVec 7} {f f' : Word → Word → Word} (h : ∀ x y, f x y = f' x y) : Ops.alu2 d a b f s = Ops.alu2 d a b f' s := by
  rw [funext₂ h]
theorem pair2_congr {d a b : BitVec 7} {f f' : DWord → DWord → DWord} (h : ∀ x y, f x y = f' x y) : Ops.pair2 d a b f s = Ops.pair2 d a b f' s := by
  rw [funext₂ h]
theorem pairWord_congr {d a b : BitVec 7} {f f' : DWord → Word → DWord} (h : ∀ x y, f x y = f' x y) :
    Ops.pairWord d a b f s = Ops.pairWord d a b f' s := by rw [funext₂ h]
theorem widen_congr {d a : BitVec 7} {f f' : Word → DWord} (h : ∀ x, f x = f' x) : Ops.widen d a f s = Ops.widen d a f' s := by rw [funext h]
theorem cmp_congr {d : BitVec 3} {a b : BitVec 7} {p p' : Word → Word → Bool} (h : ∀ x y, p x y = p' x y) : Ops.cmp d a b p s = Ops.cmp d a b p' s := by
  rw [funext₂ h]
theorem cmp64_congr {d : BitVec 3} {a b : BitVec 7} {p p' : DWord → DWord → Bool} (h : ∀ x y, p x y = p' x y) :
    Ops.cmp64 d a b p s = Ops.cmp64 d a b p' s := by rw [funext₂ h]

theorem exec_intTwo {e : Two × (Word → Word → Word)} (he : e ∈ intTwo) (d a b : BitVec 7) : exec (e.1 d a b) s = Ops.alu2 d a b e.2 s := by
  simp only [intTwo, List.mem_cons, List.not_mem_nil, or_false] at he
  rcases he with rfl | rfl | rfl | rfl | rfl | rfl | rfl | rfl | rfl | rfl | rfl | rfl | rfl | rfl | rfl | rfl | rfl | rfl | rfl
  · exact (exec_addI32 ..).trans (alu2_congr add_eq_ofInt)
  · exact (exec_subI32 ..).trans (alu2_congr sub_eq_ofInt)
  · exact (exec_mulloI32 ..).trans (alu2_congr mul_eq_ofInt)
  · exact exec_mulhiI32 ..
  · exact exec_mulhiN32 ..
  · exact (exec_and ..).trans (alu2_congr fun x y => eq_bitSet fun i _ => BitVec.getLsbD_and)
  · exact (exec_or ..).trans (alu2_congr fun x y => eq_bitSet fun i _ => BitVec.getLsbD_or)
  · exact (exec_xor ..).trans (alu2_congr fun x y => eq_bitSet fun i _ => BitVec.getLsbD_xor)
  · exact (exec_andn ..).trans (alu2_congr fun x y => eq_bitSet fun i hi => by simp [hi])
  · exact (exec_shl ..).trans (alu2_congr fun x y => shiftLeft_eq_ofNat x _)
  · exact (exec_shrN32 ..).trans (alu2_congr fun x y => ushiftRight_eq_ofNat x _)
  · exact (exec_shrI32 ..).trans (alu2_congr fun x y => sshiftRight_eq_ofInt x _)
  · exact (exec_rotl ..).trans (alu2_congr fun x y => rotateLeft_eq_bitSet x (Nat.mod_lt _ (by omega)))
  · exact (exec_minI32 ..).trans (alu2_congr smin_eq_ofInt)
  · exact (exec_maxI32 ..).trans (alu2_congr smax_eq_ofInt)
  · exact (exec_minN32 ..).trans (alu2_congr umin_eq_ofNat)
  · exact (exec_maxN32 ..).trans (alu2_congr umax_eq_ofNat)
  · exact exec_bfeN32 ..
  · exact (exec_bfeI32 ..).trans (alu2_congr bfeS_eq)

theorem exec_bfi_eq (d a b : BitVec 7) : exec (.bfi d a b) s = Ops.alu3 d a b (fun d x y => bitSet 32 fun i =>
    if y.toNat % 32 ≤ i ∧ i < y.toNat % 32 + fieldWidth y then x.getLsbD (i - y.toNat % 32) else d.getLsbD i) s := by
  rw [exec_bfi, execBfi, funext fun d => funext₂ (bfiOf_eq d)]

theorem exec_intOne {e : One × (Word → Word)} (he : e ∈ intOne) (d a : BitVec 7) : exec (e.1 d a) s = Ops.alu1 d a e.2 s := by
  simp only [intOne, List.mem_cons, List.not_mem_nil, or_false] at he
  rcases he with rfl | rfl | rfl | rfl | rfl | rfl | rfl | rfl
  · exact (exec_absI32 ..).trans (alu1_congr abs_eq_ofInt)
  · exact exec_popc ..
  · exact (exec_clz ..).trans (alu1_congr leadingZeros_eq)
  · exact exec_brev ..
  · exact (exec_sext8 ..).trans (alu1_congr fun x => congrArg (BitVec.ofInt 32) (toInt_ofNat_eq_signed (show 0 < 8 by omega) x.toNat))
  · exact (exec_sext16 ..).trans (alu1_congr fun x => congrArg (BitVec.ofInt 32) (toInt_ofNat_eq_signed (show 0 < 16 by omega) x.toNat))
  · exact (exec_zext8 ..).trans (alu1_congr fun x => and_ones_eq_ofNat x 8 rfl)
  · exact (exec_zext16 ..).trans (alu1_congr fun x => and_ones_eq_ofNat x 16 rfl)

theorem exec_intImm {e : (BitVec 7 → BitVec 7 → BitVec 11 → Instr) × (Word → Int → Word)} (he : e ∈ intImm) (d a : BitVec 7) (i : BitVec 11) :
    exec (e.1 d a i) s = Ops.alu1 d a (fun x => e.2 x i.toInt) s := by
  simp only [intImm, List.mem_cons, List.not_mem_nil, or_false] at he
  rcases he with rfl | rfl | rfl | rfl
  · exact (exec_addi ..).trans (alu1_congr fun x => by
      show x + .ofInt 32 i.toInt = .ofInt 32 (x.toInt + i.toInt)
      rw [BitVec.ofInt_add, BitVec.ofInt_toInt])
  · exact (exec_andi ..).trans (alu1_congr fun x => eq_bitSet fun j _ => BitVec.getLsbD_and)
  · exact (exec_ori ..).trans (alu1_congr fun x => eq_bitSet fun j _ => BitVec.getLsbD_or)
  · exact (exec_xori ..).trans (alu1_congr fun x => eq_bitSet fun j _ => BitVec.getLsbD_xor)

theorem exec_constants {e : (BitVec 7 → BitVec 16 → Instr) × (Nat → Nat → Nat)} (he : e ∈ constants) (d : BitVec 7) (i : BitVec 16) :
    exec (e.1 d i) s = Ops.alu0 d (fun x => .ofNat 32 (e.2 x.toNat i.toNat)) s := by
  simp only [constants, List.mem_cons, List.not_mem_nil, or_false] at he
  rcases he with rfl | rfl | rfl | rfl
  · exact (exec_movzLo ..).trans (alu0_congr fun _ => (BitVec.ofNat_toNat ..).symm)
  · exact (exec_movzHi ..).trans (alu0_congr fun _ => by
      rw [shiftLeft_eq_ofNat, BitVec.toNat_setWidth, Nat.mod_eq_of_lt (i.isLt.trans (by omega))])
  · exact (exec_movkLo ..).trans (alu0_congr fun x => keepHigh_eq_ofNat x (by decide) i)
  · exact (exec_movkHi ..).trans (alu0_congr fun x => keepLow_eq_ofNat x (by decide) i)

theorem exec_packedTwo {e : Two × (Word → Word → Word)} (he : e ∈ packedTwo) (d a b : BitVec 7) : exec (e.1 d a b) s = Ops.alu2 d a b e.2 s := by
  simp only [packedTwo, List.mem_cons, List.not_mem_nil, or_false] at he
  rcases he with rfl | rfl | rfl | rfl | rfl | rfl | rfl | rfl | rfl
  · exact (exec_addI16x2 ..).trans (alu2_congr (halves_eq_ofHalves (f := fun x y _ => x + y) add_eq_ofInt))
  · exact (exec_subI16x2 ..).trans (alu2_congr (halves_eq_ofHalves (f := fun x y _ => x - y) sub_eq_ofInt))
  · exact (exec_addsI16x2 ..).trans (alu2_congr (halves_eq_ofHalves (f := fun x y _ => clamped (x + y)) fun _ _ => rfl))
  · exact (exec_subsI16x2 ..).trans (alu2_congr (halves_eq_ofHalves (f := fun x y _ => clamped (x - y)) fun _ _ => rfl))
  · exact (exec_minI16x2 ..).trans (alu2_congr (halves_eq_ofHalves (f := fun x y _ => min x y) smin_eq_ofInt))
  · exact (exec_maxI16x2 ..).trans (alu2_congr (halves_eq_ofHalves (f := fun x y _ => max x y) smax_eq_ofInt))
  · exact (exec_gtbitsI16x2 ..).trans (alu2_congr (halves_eq_ofHalves (f := fun x y _ => if x > y then -1 else 0) fun x y => by rw [apply_ite (BitVec.ofInt 16)]; rfl))
  · exact (exec_shrI16x2 ..).trans (alu2_congr (halves_eq_ofHalves (f := fun x _ k => x / 2 ^ k) fun x y => sshiftRight_eq_ofInt x _))
  · exact (exec_packI16x2 ..).trans (alu2_congr fun x y => append_eq_ofNat ..)

theorem exec_compares {e : Compare × (Word → Word → Bool)} (he : e ∈ compares) (d : BitVec 3) (a b : BitVec 7) :
    exec (e.1 d a b) s = Ops.cmp d a b e.2 s := by
  simp only [compares, List.mem_cons, List.not_mem_nil, or_false] at he
  rcases he with rfl | rfl | rfl | rfl | rfl | rfl | rfl | rfl | rfl | rfl
  · exact (exec_icmpEq ..).trans (cmp_congr beq_eq_decide_toNat)
  · exact (exec_icmpNe ..).trans (cmp_congr fun x y => (congrArg (!·) (beq_eq_decide_toNat x y)).trans (decide_not ..).symm)
  · exact exec_icmpLtI32 ..
  · exact exec_icmpLeI32 ..
  · exact exec_icmpGtI32 ..
  · exact exec_icmpGeI32 ..
  · exact exec_icmpLtN32 ..
  · exact exec_icmpLeN32 ..
  · exact exec_icmpGtN32 ..
  · exact exec_icmpGeN32 ..

theorem exec_compares64 {e : Compare × (DWord → DWord → Bool)} (he : e ∈ compares64) (d : BitVec 3) (a b : BitVec 7) :
    exec (e.1 d a b) s = Ops.cmp64 d a b e.2 s := by
  simp only [compares64, List.mem_cons, List.not_mem_nil, or_false] at he
  rcases he with rfl | rfl | rfl
  · exact (exec_icmpEqI64 ..).trans (cmp64_congr beq_eq_decide_toNat)
  · exact exec_icmpLtI64 ..
  · exact exec_icmpLtN64 ..

theorem exec_pairTwo {e : Two × (DWord → DWord → DWord)} (he : e ∈ pairTwo) (d a b : BitVec 7) : exec (e.1 d a b) s = Ops.pair2 d a b e.2 s := by
  simp only [pairTwo, List.mem_cons, List.not_mem_nil, or_false] at he
  rcases he with rfl | rfl | rfl
  · exact (exec_addI64 ..).trans (pair2_congr add_eq_ofInt)
  · exact (exec_subI64 ..).trans (pair2_congr sub_eq_ofInt)
  · exact (exec_mulI64 ..).trans (pair2_congr mul_eq_ofInt)

theorem exec_pairWordOf {e : Two × (DWord → Word → DWord)} (he : e ∈ pairWordOf) (d a b : BitVec 7) :
    exec (e.1 d a b) s = Ops.pairWord d a b e.2 s := by
  simp only [pairWordOf, List.mem_cons, List.not_mem_nil, or_false] at he
  rcases he with rfl | rfl | rfl
  · exact (exec_shlI64 ..).trans (pairWord_congr fun x y => shiftLeft_eq_ofNat x _)
  · exact (exec_shrN64 ..).trans (pairWord_congr fun x y => ushiftRight_eq_ofNat x _)
  · exact (exec_shrI64 ..).trans (pairWord_congr fun x y => sshiftRight_eq_ofInt x _)

theorem exec_leas {e : Two × Nat} (he : e ∈ leas) (d a b : BitVec 7) : exec (e.1 d a b) s = Ops.pairWord d a b (movedPointer e.2) s := by
  simp only [leas, List.mem_cons, List.not_mem_nil, or_false] at he
  rcases he with rfl | rfl | rfl | rfl | rfl
  · exact (exec_leaX1 ..).trans (pairWord_congr (lea_eq 1))
  · exact (exec_leaX2 ..).trans (pairWord_congr (lea_eq 2))
  · exact (exec_leaX4 ..).trans (pairWord_congr (lea_eq 4))
  · exact (exec_leaX8 ..).trans (pairWord_congr (lea_eq 8))
  · exact (exec_leaX16 ..).trans (pairWord_congr (lea_eq 16))

theorem exec_pairOne {e : One × (Word → DWord)} (he : e ∈ pairOne) (d a : BitVec 7) : exec (e.1 d a) s = Ops.widen d a e.2 s := by
  simp only [pairOne, List.mem_cons, List.not_mem_nil, or_false] at he
  rcases he with rfl | rfl
  · exact exec_sextI64 ..
  · exact (exec_zextI64 ..).trans (widen_congr fun x => (BitVec.ofNat_toNat ..).symm)

/-! ### What the words compute -/

theorem integerWordsOfTwoSources_holds : integerWordsOfTwoSources :=
  ⟨fun _ he d a b _ _ _ hi hu hc => (exec_intTwo he d a b).trans (Ops.alu2_next hi hu hc),
    fun d a b _ _ _ hi hu hc => (exec_bfi_eq d a b).trans (Ops.alu3_next hi hu hc)⟩

theorem integerWordsOfOneSource_holds : integerWordsOfOneSource :=
  fun _ he d a _ _ _ hi hu hc => (exec_intOne he d a).trans (Ops.alu1_next hi hu hc)

theorem packedIntegerWords_holds : packedIntegerWords :=
  fun _ he d a b _ _ _ hi hu hc => (exec_packedTwo he d a b).trans (Ops.alu2_next hi hu hc)

end

/-- Settles O46: each word is a word of its operand form with the result of its table. -/
theorem integerWords : Obligations.IntegerWords := by
  unfold Obligations.IntegerWords
  exact ⟨integerWordsOfTwoSources_holds, integerWordsOfOneSource_holds, packedIntegerWords_holds⟩

/-- Settles O4: each compare is one write of a mask with its relation in the active lanes. -/
theorem integerCompares : Obligations.IntegerCompares := by
  unfold Obligations.IntegerCompares
  exact ⟨fun e he d a b s u g hi hc => (exec_compares he d a b).trans (Ops.cmp_next hi hc),
    fun e he d a b s u g hi ha hb hc => (exec_compares64 he d a b).trans (Ops.cmp64_next hi ha hb hc)⟩

/-- Settles O3: every `lea` is a word of a pair and a register whose result keeps the tag and wraps the address. -/
theorem pointersMovedByLea : Obligations.PointersMovedByLea := by
  unfold Obligations.PointersMovedByLea
  intro e he d a b s u g hi hd ha hu hc
  exact (exec_leas he d a b).trans (Ops.pairWord_next hi hd ha hu hc)

/-! ### Immediates and constants -/

/-- s0 reads 0 (01 R21), so `addi` with it as A loads the immediate. -/
theorem exec_addi_s0 {s : State} {u : Issue} {g : Group} {d a : BitVec 7} (ha : a.toNat = 96) (i : BitVec 11) (hi : Issuing s u g)
    (hc : Clear s (u.ctx g) [use d, use a]) : exec (.addi d a i) s = .next (State.wordDone u (s.putRegs (u.ctx g) d.toNat fun _ => [.ofInt 32 i.toInt])) := by
  have hadd := exec_intImm (s := s) (e := (Instr.addi, fun a i => .ofInt 32 (a.toInt + i))) List.mem_cons_self d a i
  have hzero (l : Nat) : ((u.ctx g).rd a l).toInt = 0 := by rw [Ctx.rd, ha]; rfl
  rw [hadd, Ops.alu1_next hi (by simp [uniformOk, isS, ha]) hc]
  simp only [hzero, Int.zero_add]

/-- The bits of a word of the RI format. -/
theorem wordOf_encRi (c : BitVec 1) (major : Nat) (d a : BitVec 7) (i : BitVec 11) :
    wordOf c major (Fmt.encRi d a i) = .ofNat 32 (c.toNat * 2 ^ 31 + major * 2 ^ 25 + d.toNat * 2 ^ 18 + a.toNat * 2 ^ 11 + i.toNat) :=
  congrArg (BitVec.ofNat 32) (by rw [Fmt.encRi]; omega)

/-- The bits of a word of the WI format. -/
theorem wordOf_encWi (c : BitVec 1) (d : BitVec 7) (i : BitVec 16) {h p : Nat} (hp : p = h * 2 ^ 16 + Fmt.encWi d i) :
    wordOf c 0x0E p = .ofNat 32 (c.toNat * 2 ^ 31 + 0x0E * 2 ^ 25 + d.toNat * 2 ^ 18 + h * 2 ^ 16 + i.toNat) :=
  congrArg (BitVec.ofNat 32) (by rw [hp, Fmt.encWi]; omega)

theorem immediateWords_holds : immediateWords := by
  refine ⟨fun e he d a i s u g hi hu hc => (exec_intImm he d a i).trans (Ops.alu1_next hi hu hc), fun d i s u g hi hc => exec_addi_s0 rfl i hi hc,
    fun c d a i major w hw => ?_⟩
  refine ⟨?_, ?_, ?_, ?_⟩ <;> (rintro rfl; rw [hw]; exact wordOf_encRi c _ d a i)

theorem constantWords_holds : constantWords := by
  refine ⟨fun e he d i s u g hi hc => (exec_constants he d i).trans (Ops.alu0_next hi hc), fun c d i h w hw => ?_⟩
  refine ⟨?_, ?_, ?_, ?_⟩ <;> (rintro rfl; rw [hw]; exact wordOf_encWi c d i (by omega))

/-- Settles O47: the results from the operand forms, the words' bits from the RI and WI formats. -/
theorem immediateAndConstantWords : Obligations.ImmediateAndConstantWords := by
  unfold Obligations.ImmediateAndConstantWords
  exact ⟨immediateWords_holds, constantWords_holds⟩

/-! ### `sel` -/

/-- A write of v registers takes its values in the active lanes alone. -/
theorem putRegs_congr {s : State} {c : Ctx} {r : Nat} {xs ys : Nat → List Word} (hr : r < 96) (h : ∀ l, c.exec.getLsbD l = true → xs l = ys l) :
    s.putRegs c r xs = s.putRegs c r ys := by
  simp only [State.putRegs, hr, if_true, each]
  congr 1
  funext g
  refine List.foldl_ext _ _ g fun g l hl => ?_
  rw [h l ((mem_members _).1 hl)]

theorem exec_sel_next {s : State} {u : Issue} {g : Group} (k : BitVec 3) {d a b : BitVec 7} (hi : Issuing s u g) (hu : uniformOk d [a, b])
    (hc : Clear s (u.ctx g) [use d, use a, use b]) :
    exec (.sel k d a b) s = .next (State.wordDone u (s.putRegs (u.ctx g) d.toNat fun l =>
      [if ((u.ctx g).g.readM (u.ctx g).exec k.toNat).getLsbD (if isS d = true then (u.ctx g).firstLane else l)
        then (u.ctx g).rd a l else (u.ctx g).rd b l])) := by
  rw [exec_sel]
  exact Ops.word_ok hi (fun h => nomatch h) (rrrSig_opnd (regOk_one d) (by simp [regOk_one]) hu) hc rfl

/-- Settles O1: with m0 the mask read is EXEC, whose bit is 1 in every lane the word writes. -/
theorem selectWord : Obligations.SelectWord := by
  unfold Obligations.SelectWord
  refine ⟨fun k d a b s u g hi hu hc => exec_sel_next k hi hu hc, fun d a b s u g hi hd hc => ?_, fun k d a b => ?_⟩
  · have hv : d.toNat < 96 := by simpa [isS] using hd
    refine (exec_sel_next 0 hi (fun h => Bool.noConfusion (hd.symm.trans h)) hc).trans ?_
    rw [putRegs_congr hv fun l hl => ?_]
    rw [hd]
    exact congrArg (fun x => [x]) (if_pos hl)
  · refine congrArg (BitVec.ofNat 32) ?_
    show 0 * 2147483648 + 0x09 * 33554432 + (16777216 + Fmt.encSel k d a b) = _
    rw [Fmt.encSel]
    omega

/-- Settles O7: the decoder, run on each of the three words. -/
theorem writtenOutWords : Obligations.WrittenOutWords := by
  unfold Obligations.WrittenOutWords
  exact ⟨rfl, rfl, rfl⟩

end Sys2Proof.IntegerWords

/-! What a word that writes registers leaves alone (05 R91, R92): said once for the elementary writes of a group, then for `putRegs`. -/

namespace Sys2Proof.RegisterFrame

open Sys2Proof.Machine Sys2Proof.Claims Sys2Proof.RegisterWrites Sys2Proof.ControlFrame Sys2Proof.MaskWords Sys2Proof.IntegerWords

/-! ### Masks, flags, special registers and sequencers -/

/-- No mask, flag or special register has changed, and every slice has the active and the exited lanes it had. -/
structure KeepsControl (g h : Group) : Prop where
  m : h.m = g.m
  fpflags : h.fpflags = g.fpflags
  specials : sameSpecials g h
  active : ∀ i, (h.slice i).seq.a = (g.slice i).seq.a
  exited : ∀ i, (h.slice i).exited = (g.slice i).exited

namespace KeepsControl

theorem refl (g : Group) : KeepsControl g g := ⟨rfl, rfl, by simp [sameSpecials], fun _ => rfl, fun _ => rfl⟩

theorem trans {g h k : Group} (hg : KeepsControl g h) (hk : KeepsControl h k) : KeepsControl g k where
  m := hk.m.trans hg.m
  fpflags := hk.fpflags.trans hg.fpflags
  specials := by
    have h1 := hg.specials
    have h2 := hk.specials
    simp only [sameSpecials] at h1 h2 ⊢
    simp only [h1, h2, and_self]
  active i := (hk.active i).trans (hg.active i)
  exited i := (hk.exited i).trans (hg.exited i)

theorem writeV (g : Group) (r l : Nat) (x : Word) : KeepsControl g (g.writeV r l x) := ⟨rfl, rfl, by simp [sameSpecials, Group.writeV], fun _ => rfl, fun _ => rfl⟩

theorem onSlices {f : Nat → Slice → Slice} (ha : ∀ i x, (f i x).seq.a = x.seq.a) (he : ∀ i x, (f i x).exited = x.exited) (g : Group) (set : SliceSet) :
    KeepsControl g (g.onSlices set f) where
  m := rfl
  fpflags := rfl
  specials := by simp [sameSpecials, Group.onSlices]
  active := slice_onSlices_keeps (p := fun x => x.seq.a) ha g set
  exited := slice_onSlices_keeps he g set

theorem writeS1 (g : Group) (j r : Nat) (x : Word) : KeepsControl g (g.writeS1 j r x) := by
  have hplain : KeepsControl g (g.onSlices (bitSet 32 (· == j)) fun _ sl => { sl with s := Tab.set 0 sl.s r x }) :=
    onSlices (fun _ _ => by rfl) (fun _ _ => by rfl) g _
  unfold Group.writeS1
  split
  · exact refl g
  · dsimp only
    split
    · split
      · exact ⟨rfl, rfl, by simp [sameSpecials], fun _ => rfl, fun _ => rfl⟩
      · exact hplain
    · exact hplain

theorem each {α : Type} (l : List α) (f : α → Group → Group) (g : Group) (hf : ∀ a h, KeepsControl h (f a h)) : KeepsControl g (each l f g) :=
  each_induction l f g (refl g) fun a h hh => hh.trans (hf a h)

theorem writeS (g : Group) (set : SliceSet) (r : Nat) (x : Word) : KeepsControl g (g.writeS set r x) := each _ _ g fun j h => writeS1 h j r x

theorem advanced (u : Issue) (g : Group) : KeepsControl g (advanced u g) :=
  onSlices (fun _ x => by dsimp only; split <;> rfl) (fun _ x => by dsimp only; split <;> rfl) g u.slices

theorem execOf {g h : Group} (hk : KeepsControl g h) (set : SliceSet) : h.execOf set = g.execOf set := by
  simp only [Group.execOf, hk.active]

theorem exitedLanes {g h : Group} (hk : KeepsControl g h) : h.exitedLanes = g.exitedLanes := by
  simp only [Group.exitedLanes, hk.exited]

end KeepsControl

/-! ### The s registers a write does not name, in every slice -/

theorem slice_onSlices_other {g : Group} {set : SliceSet} {i : Nat} (h : set.getLsbD i = false) (f : Nat → Slice → Slice) :
    (g.onSlices set f).slice i = g.slice i := by
  simp only [Group.slice, Group.onSlices, List.getD_eq_getElem?_getD, List.getElem?_mapIdx, h, Bool.false_eq_true, if_false, Option.map_id']

theorem readS_onSlices_other {g : Group} {i j r k : Nat} (h : ¬ (i = j ∧ k = r)) (x : Word) :
    (g.onSlices (bitSet 32 (· == j)) fun _ sl => { sl with s := Tab.set 0 sl.s r x }).readS i k = g.readS i k := by
  have hs : Tab.get 0 ((g.onSlices (bitSet 32 (· == j)) fun _ sl => { sl with s := Tab.set 0 sl.s r x }).slice i).s k = Tab.get 0 (g.slice i).s k := by
    by_cases hij : i = j
    · exact slice_onSlices_keeps (p := fun x => Tab.get 0 x.s k) (fun _ y => Tab.get_set_other 0 y.s r k x fun hk => h ⟨hij, hk⟩) g _ i
    · rw [slice_onSlices_other (by simp [hij])]
  simp only [Group.readS, hs, onSlices_handler]

theorem readS_writeS1_other {g : Group} {i j r k : Nat} (h : ¬ (i = j ∧ k = r)) (x : Word) : (g.writeS1 j r x).readS i k = g.readS i k := by
  unfold Group.writeS1
  split
  · rfl
  · dsimp only
    split
    next hd hg =>
      split
      next hb =>
        simp only [Bool.and_eq_true, decide_eq_true_eq, and_assoc] at hb
        simp only [Group.readS, hg, Tab.get_set]
        split
        · rfl
        · split
          next hb' =>
            simp only [Bool.and_eq_true, decide_eq_true_eq, and_assoc] at hb'
            rw [if_neg (by omega)]
          · rfl
      · exact readS_onSlices_other h x
    · exact readS_onSlices_other h x

theorem readS_writeS_other {set : SliceSet} {i r k : Nat} (h : ¬ (set.getLsbD i = true ∧ k = r)) (g : Group) (x : Word) :
    (g.writeS set r x).readS i k = g.readS i k := by
  have hjs : ∀ j ∈ members set, ¬ (i = j ∧ k = r) := fun j hj hijk => h ⟨by rw [hijk.1]; exact (mem_members set).1 hj, hijk.2⟩
  unfold Group.writeS
  generalize members set = js at hjs
  induction js generalizing g with
  | nil => rfl
  | cons j js ih => rw [each_cons, ih _ fun j hj => hjs j (List.mem_cons_of_mem _ hj), readS_writeS1_other (hjs j List.mem_cons_self)]

theorem readS_writeRun_other (ws : List Word) (n : Nat) (g : Group) {set : SliceSet} {r i k : Nat} (hr : 96 ≤ r)
    (h : ¬ (r + n ≤ k + 96 ∧ k + 96 < r + n + ws.length ∧ set.getLsbD i = true)) :
    (each (ws.zipIdx n) (fun w g => g.writeS set (r + w.2 - 96) w.1) g).readS i k = g.readS i k := by
  induction ws generalizing n g with
  | nil => rfl
  | cons w ws ih =>
    rw [List.length_cons] at h
    rw [List.zipIdx_cons, each_cons, ih (n + 1) _ fun ⟨h1, h2, hi⟩ => h ⟨by omega, by omega, hi⟩]
    exact readS_writeS_other (fun ⟨hi, hk⟩ => h ⟨by dsimp only at hk; omega, by dsimp only at hk; omega, hi⟩) g _

/-! ### Words that write registers -/

/-- The group after registers from number r on are written. -/
def written (c : Ctx) (r : Nat) (xs : Nat → List Word) (g : Group) : Group :=
  if r < 96 then each (members c.exec) (fun l g => each (xs l).zipIdx (fun w g => g.writeV (r + w.2) l w.1) g) g
  else each (xs 0).zipIdx (fun w g => g.writeS c.u.slices (r + w.2 - 96) w.1) g

theorem keepsControl_written (c : Ctx) (r : Nat) (xs : Nat → List Word) (g : Group) : KeepsControl g (written c r xs g) := by
  unfold written
  split
  · exact .each _ _ g fun l h => .each _ _ h fun w k => .writeV k _ l w.1
  · exact .each _ _ g fun w h => .writeS h _ _ w.1

theorem otherRegisters_written {c : Ctx} {r n : Nat} {xs : Nat → List Word} (hn : ∀ l, (xs l).length = n) (g : Group) :
    otherRegisters c g (written c r xs g) r n := by
  unfold written
  by_cases hr : r < 96
  · rw [if_pos hr]
    refine ⟨fun k l hl hk => ?_, fun i k _ => readS_writeLanes _ xs g r i k⟩
    rw [readV_writeLanes _ (fun m hm => BitVec.lt_of_getLsbD ((mem_members c.exec).1 hm)) xs g r k hl, hn l]
    exact if_neg fun ⟨hx, h1, h2⟩ => hk ⟨h1, h2, hr, (mem_members c.exec).1 hx⟩
  · rw [if_neg hr]
    exact ⟨fun k l _ _ => readV_writeRun _ g c.u.slices r k l, fun i k hk => readS_writeRun_other (xs 0) 0 g (not_lt.1 hr) (by rwa [hn 0])⟩

theorem find_putRegs_advance {s : State} {u : Issue} {g : Group} (hg : Tab.find s.groups u.group = some g) (r : Nat) (xs : Nat → List Word) :
    Tab.find ((s.putRegs (u.ctx g) r xs).advance u).groups u.group = some (advanced u (written (u.ctx g) r xs g)) :=
  find_onGroup (find_onGroup hg _) _

theorem otherRegisters_advanced {c : Ctx} {g h : Group} {r n : Nat} (u : Issue) (ho : otherRegisters c g h r n) :
    otherRegisters c g (advanced u h) r n :=
  ⟨fun k l hl hk => (congrArg (Tab.get 0 · (k * 128 + l)) (undisturbed_advanced u h).v).trans (ho.1 k l hl hk),
    fun i k hk => ((undisturbed_advanced u h).readS i k).trans (ho.2 i k hk)⟩

/-- The instruction writes n registers from d on with what it computes from the state before its chain, and has no other effect. -/
def WritesRegisters (i : Instr) (d : BitVec 7) (n : Nat) : Prop :=
  ∃ (sig : Sig) (x : Ctx → Nat → List Word), (∀ c l, (x c l).length = n) ∧ ∀ s, exec i s = Ops.word sig (fun c s => .ok (s.putRegs c d.toNat (x c))) s

namespace WritesRegisters
variable {i : Instr} {d a b : BitVec 7}

theorem of_alu0 {f : Word → Word} (h : ∀ s, exec i s = Ops.alu0 d f s) : WritesRegisters i d 1 :=
  ⟨_, fun c l => [f (c.rd d l)], fun _ _ => rfl, h⟩
theorem of_alu1 {f : Word → Word} (h : ∀ s, exec i s = Ops.alu1 d a f s) : WritesRegisters i d 1 :=
  ⟨_, fun c l => [f (c.rd a l)], fun _ _ => rfl, h⟩
theorem of_alu2 {f : Word → Word → Word} (h : ∀ s, exec i s = Ops.alu2 d a b f s) : WritesRegisters i d 1 :=
  ⟨_, fun c l => [f (c.rd a l) (c.rd b l)], fun _ _ => rfl, h⟩
theorem of_alu3 {f : Word → Word → Word → Word} (h : ∀ s, exec i s = Ops.alu3 d a b f s) : WritesRegisters i d 1 :=
  ⟨_, fun c l => [f (c.rd d l) (c.rd a l) (c.rd b l)], fun _ _ => rfl, h⟩
theorem of_maskToS {k : BitVec 3} {f : LaneSet → Word} (h : ∀ s, exec i s = Ops.maskToS d k f s) : WritesRegisters i d 1 :=
  ⟨_, fun c _ => [f (c.g.readM c.exec k.toNat)], fun _ _ => rfl, h⟩
theorem of_pair2 {f : DWord → DWord → DWord} (h : ∀ s, exec i s = Ops.pair2 d a b f s) : WritesRegisters i d 2 :=
  ⟨_, fun c l => pairList (f (c.rd64 a l) (c.rd64 b l)), fun _ _ => rfl, h⟩
theorem of_pairWord {f : DWord → Word → DWord} (h : ∀ s, exec i s = Ops.pairWord d a b f s) : WritesRegisters i d 2 :=
  ⟨_, fun c l => pairList (f (c.rd64 a l) (c.rd b l)), fun _ _ => rfl, h⟩
theorem of_widen {f : Word → DWord} (h : ∀ s, exec i s = Ops.widen d a f s) : WritesRegisters i d 2 :=
  ⟨_, fun c l => pairList (f (c.rd a l)), fun _ _ => rfl, h⟩

theorem sel (k : BitVec 3) (d a b : BitVec 7) : WritesRegisters (.sel k d a b) d 1 :=
  ⟨_, fun c l => [if (c.g.readM c.exec k.toNat).getLsbD (if isS d then c.firstLane else l) then c.rd a l else c.rd b l], fun _ _ => rfl, fun _ => exec_sel ..⟩

theorem of_maskReads {e : (BitVec 7 → BitVec 3 → BitVec 2 → Instr) × (LaneSet → Nat → Nat)} (he : e ∈ maskReads) (d : BitVec 7) (k : BitVec 3)
    (q : BitVec 2) : WritesRegisters (e.1 d k q) d 1 := by
  simp only [maskReads, List.mem_cons, List.not_mem_nil, or_false] at he
  rcases he with rfl | rfl | rfl
  · exact of_maskToS fun _ => exec_mpopc ..
  · exact of_maskToS fun _ => exec_mfirst ..
  · exact of_maskToS fun _ => exec_mtos ..

theorem of_registerWord {n : Nat} (h : RegisterWord i d n) : WritesRegisters i d n := by
  rcases h with ⟨rfl, h⟩ | ⟨rfl, h⟩
  · rcases h with ⟨e, he, a, b, rfl⟩ | ⟨e, he, a, rfl⟩ | ⟨e, he, a, x, rfl⟩ | ⟨e, he, x, rfl⟩ | ⟨a, b, rfl⟩ | ⟨k, a, b, rfl⟩ | ⟨e, he, a, b, rfl⟩ |
      ⟨e, he, k, q, rfl⟩
    · exact of_alu2 fun _ => exec_intTwo he d a b
    · exact of_alu1 fun _ => exec_intOne he d a
    · exact of_alu1 fun _ => exec_intImm he d a x
    · exact of_alu0 fun _ => exec_constants he d x
    · exact of_alu3 fun _ => exec_bfi ..
    · exact sel k d a b
    · exact of_alu2 fun _ => exec_packedTwo he d a b
    · exact of_maskReads he d k q
  · rcases h with ⟨e, he, a, b, rfl⟩ | ⟨e, he, a, b, rfl⟩ | ⟨e, he, a, b, rfl⟩ | ⟨e, he, a, rfl⟩
    · exact of_pair2 fun _ => exec_pairTwo he d a b
    · exact of_pairWord fun _ => exec_pairWordOf he d a b
    · exact of_pairWord fun _ => exec_leas he d a b
    · exact of_widen fun _ => exec_pairOne he d a

end WritesRegisters

/-- Settles O9: each of these words is one write of registers, after which its split goes on at the next word. -/
theorem registerWordsChangeNothingElse : Obligations.RegisterWordsChangeNothingElse := by
  unfold Obligations.RegisterWordsChangeNothingElse
  intro i d n s t u g hw hi ht hd
  obtain ⟨sig, x, hn, hx⟩ := WritesRegisters.of_registerWord hw
  rw [hx] at ht
  obtain rfl := wordDone_of_word hi ht hd
  have hkept : KeepsControl g (advanced u (written (u.ctx g) d.toNat (x (u.ctx g)) g)) := (keepsControl_written _ _ _ g).trans (.advanced u _)
  refine ⟨⟨fun _ => rfl, rfl⟩, fun m hm => ?_, _, find_putRegs_advance hi.2.1 _ _, otherRegisters_advanced u (otherRegisters_written (hn _) g), hkept.m,
    hkept.fpflags, hkept.specials, hkept.execOf _, hkept.exitedLanes⟩
  exact (Scheduling.otherGroups_onGroup _ u.group _ m hm).trans (Scheduling.otherGroups_onGroup s u.group _ m hm)

end Sys2Proof.RegisterFrame

/-! The checks of a word's register fields at issue (Table ENC-9 steps 5 and 6), and the 64-bit words (05 R100). -/

namespace Sys2Proof.OperandChecks

open Sys2Proof.Machine Sys2Proof.Claims Sys2Proof.IntegerWords

variable {s : State} {u : Issue} {g : Group}

/-! ### The limits of a register form -/

theorem regOk_iff (f : BitVec 7) (n : Nat) : regOk f n = true ↔ (n = 2 → isEven f = true) := by
  by_cases h : n = 2 <;> simp [regOk, h]

theorem rrrSig_opnd_iff (d : BitVec 7) (n : Nat) (src : List (BitVec 7 × Nat)) :
    (rrrSig d n src).opnd = true ↔ (n = 2 → isEven d = true) ∧ (∀ e ∈ src, e.2 = 2 → isEven e.1 = true) ∧ uniformOk d (src.map (·.1)) := by
  have hsrc : (src.all fun e => regOk e.1 e.2) = true ↔ ∀ e ∈ src, e.2 = 2 → isEven e.1 = true := by simp only [List.all_eq_true, regOk_iff]
  have huni : (!isS d || src.all fun e => isS e.1) = true ↔ uniformOk d (src.map (·.1)) := by
    simp only [Bool.or_eq_true, Bool.not_eq_true', List.all_eq_true, uniformOk, List.forall_mem_map]
    cases isS d <;> simp
  simp only [rrrSig, Bool.and_eq_true, regOk_iff, hsrc, huni, and_assoc]

/-! ### What the checks answer outside a chain already checked -/

/-- Operands out of their limits. -/
theorem word_opnd {sig : Sig} {body : Ctx → State → Res} (hi : Issuing s u g) (hn : u.snap = none) (hp : sig.priv = false) (ho : sig.opnd = false) :
    Ops.word sig body s = .next (s.wordTrapped u ((u.ctx g).trap 5 0x05)) := by
  rw [Ops.word, Ops.wordBy_eq hi, Ops.check_opnd hn (fun h => by rw [hp] at h; cases h) ho]
  exact congrArg _ (Ops.settle_trap hi.2.2)

section
variable {sig : Sig} {c : Ctx}

/-- A register of the extended block that the group does not hold. -/
theorem check_regx (hn : c.u.snap = none) (hp : sig.priv = false) (ho : sig.opnd = true) (hh : c.g.held = false)
    (hx : ∃ x ∈ sig.uses, ∃ r ∈ x.list, 48 ≤ r ∧ r < 96) : Ops.check sig c s = some (.trap (c.trap 5 0x1D)) := by
  have hany : (sig.uses.any fun u => u.list.any fun r => decide (48 ≤ r) && decide (r < 96)) = true := by simpa [List.any_eq_true] using hx
  simp [Ops.check, hn, hp, ho, hh, hany]

/-- Every register the word names is one the group holds. -/
abbrev Held (c : Ctx) (uses : List Use) : Prop := c.g.held = true ∨ ∀ x ∈ uses, ∀ r ∈ x.list, r < 48 ∨ 96 ≤ r

theorem regx_false {uses : List Use} (hh : Held c uses) :
    (!c.g.held && uses.any fun u => u.list.any fun r => decide (48 ≤ r) && decide (r < 96)) = false := by
  rcases hh with hh | hh
  · rw [hh, Bool.not_true, Bool.false_and]
  · have hany : (uses.any fun u => u.list.any fun r => decide (48 ≤ r) && decide (r < 96)) = false := by
      refine List.any_eq_false.2 fun x hx hr => ?_
      obtain ⟨r, hr, h48⟩ := List.any_eq_true.1 hr
      have := hh x hx r hr
      simp only [Bool.and_eq_true, decide_eq_true_eq] at h48
      omega
    rw [hany, Bool.and_false]

/-- A marked register. -/
theorem check_haz (hn : c.u.snap = none) (hp : sig.priv = false) (ho : sig.opnd = true) (hh : Held c sig.uses)
    (hx : ∃ x ∈ sig.uses, c.pending x = true) : Ops.check sig c s = some (.trap (c.trap 6 0x04)) := by
  have hany : sig.uses.any c.pending = true := List.any_eq_true.2 hx
  simp [Ops.check, hn, hp, ho, regx_false hh, hany]

/-- A pending token. -/
theorem check_token (hn : c.u.snap = none) (hp : sig.priv = false) (ho : sig.opnd = true) (hh : Held c sig.uses)
    (hm : ∀ x ∈ sig.uses, c.pending x = false) (hx : ∃ x ∈ sig.uses, c.tokenPending s x = true) : Ops.check sig c s = some .stall := by
  have hpend : sig.uses.any c.pending = false := List.any_eq_false.2 fun x hx => by rw [hm x hx]; exact Bool.false_ne_true
  have hany : sig.uses.any (c.tokenPending s) = true := List.any_eq_true.2 hx
  simp [Ops.check, hn, hp, ho, regx_false hh, hpend, hany]

end

/-! ### Words by what is checked of them -/

/-- The instruction runs in the frame of a word that names these registers, with these limits on its operands. -/
def Checked (i : Instr) (uses : List Use) (limits : Prop) : Prop :=
  ∃ (sig : Sig) (body : Ctx → State → Res), (∀ s, exec i s = Ops.word sig body s) ∧ sig.priv = false ∧ sig.uses = uses ∧ (sig.opnd = true ↔ limits)

/-- The instruction is a word of the register form. -/
def IsRegisterWord (i : Instr) (d : BitVec 7) (n : Nat) (src : List (BitVec 7 × Nat)) : Prop :=
  ∃ body, ∀ s, exec i s = Ops.word (rrrSig d n src) body s

namespace IsRegisterWord
variable {i : Instr} {d a b : BitVec 7} {n m : Nat} {src : List (BitVec 7 × Nat)}

theorem of_alu3 {f : Word → Word → Word → Word} (h : ∀ s, exec i s = Ops.alu3 d a b f s) : IsRegisterWord i d 1 [(a, 1), (b, 1)] := ⟨_, h⟩
theorem of_fpu {f : Ctx → Nat → FOut} (h : ∀ s, exec i s = Ops.fpu d n src f s) : IsRegisterWord i d n src := ⟨_, h⟩
theorem of_fpuLong {f : Ctx → Nat → FOut} (h : ∀ s, exec i s = Ops.fpuLong d n src f s) : IsRegisterWord i d n src := ⟨_, h⟩
theorem of_f32un {f : RMode → Nat → FRes} (h : ∀ s, exec i s = Ops.f32un d a f s) : IsRegisterWord i d 1 [(a, 1)] := of_fpu h
theorem of_f32bin {f : RMode → Nat → Nat → FRes} (h : ∀ s, exec i s = Ops.f32bin d a b f s) : IsRegisterWord i d 1 [(a, 1), (b, 1)] := of_fpu h
theorem of_f32tern {f : RMode → Nat → Nat → Nat → FRes} (h : ∀ s, exec i s = Ops.f32tern d a b f s) : IsRegisterWord i d 1 [(a, 1), (b, 1)] := of_fpu h
theorem of_f64un {f : RMode → Nat → FRes} (h : ∀ s, exec i s = Ops.f64un d a f s) : IsRegisterWord i d 2 [(a, 2)] := of_fpu h
theorem of_f64bin {f : RMode → Nat → Nat → FRes} (h : ∀ s, exec i s = Ops.f64bin d a b f s) : IsRegisterWord i d 2 [(a, 2), (b, 2)] := of_fpu h
theorem of_f64tern {f : RMode → Nat → Nat → Nat → FRes} (h : ∀ s, exec i s = Ops.f64tern d a b f s) : IsRegisterWord i d 2 [(a, 2), (b, 2)] := of_fpu h
theorem of_half {f : RMode → Nat → Nat → Nat → FRes} (h : ∀ s, exec i s = Ops.half d a b f s) : IsRegisterWord i d 1 [(a, 1), (b, 1)] := of_fpu h
theorem of_cvt {f : RMode → Nat → FRes} (h : ∀ s, exec i s = Ops.cvt d n a m f s) : IsRegisterWord i d n [(a, m)] := of_fpu h
theorem of_xfn {f : Nat → FRes} (h : ∀ s, exec i s = Ops.xfn d a f s) : IsRegisterWord i d 1 [(a, 1)] := of_fpuLong h

end IsRegisterWord

theorem isRegisterWord_f32One {e : One × FloatFn} (he : e ∈ f32One) (d a : BitVec 7) : IsRegisterWord (e.1 d a) d 1 [(a, 1)] := by
  simp only [f32One, List.mem_cons, List.not_mem_nil, or_false] at he
  rcases he with rfl | rfl | rfl | rfl | rfl | rfl | rfl | rfl | rfl | rfl | rfl | rfl | rfl | rfl | rfl
  · exact .of_f32un fun _ => exec_absF32 ..
  · exact .of_f32un fun _ => exec_negF32 ..
  · exact .of_f32un fun _ => exec_floorF32 ..
  · exact .of_f32un fun _ => exec_ceilF32 ..
  · exact .of_f32un fun _ => exec_truncF32 ..
  · exact .of_f32un fun _ => exec_rintF32 ..
  · exact .of_f32un fun _ => exec_fractF32 ..
  · exact .of_cvt fun _ => exec_cvtF32F16lo ..
  · exact .of_cvt fun _ => exec_cvtF32F16hi ..
  · exact .of_cvt fun _ => exec_cvtF32Bf16lo ..
  · exact .of_cvt fun _ => exec_cvtF32Bf16hi ..
  · exact .of_cvt fun _ => exec_cvtF32I32 ..
  · exact .of_cvt fun _ => exec_cvtF32N32 ..
  · exact .of_cvt fun _ => exec_cvtI32F32 ..
  · exact .of_cvt fun _ => exec_cvtN32F32 ..

theorem isRegisterWord_f64One {e : One × Nat × Nat × FloatFn} (he : e ∈ f64One) (d a : BitVec 7) : IsRegisterWord (e.1 d a) d e.2.2.1 [(a, e.2.1)] := by
  simp only [f64One, List.mem_cons, List.not_mem_nil, or_false] at he
  rcases he with rfl | rfl | rfl | rfl | rfl | rfl | rfl | rfl | rfl | rfl | rfl | rfl
  · exact .of_f64un fun _ => exec_absF64 ..
  · exact .of_f64un fun _ => exec_negF64 ..
  · exact .of_f64un fun _ => exec_floorF64 ..
  · exact .of_f64un fun _ => exec_ceilF64 ..
  · exact .of_f64un fun _ => exec_truncF64 ..
  · exact .of_f64un fun _ => exec_rintF64 ..
  · exact .of_cvt fun _ => exec_cvtF64F32 ..
  · exact .of_cvt fun _ => exec_cvtF32F64 ..
  · exact .of_cvt fun _ => exec_cvtF64I64 ..
  · exact .of_cvt fun _ => exec_cvtI64F64 ..
  · exact .of_cvt fun _ => exec_cvtF64I32 ..
  · exact .of_cvt fun _ => exec_cvtI32F64 ..

theorem isRegisterWord_slowOne {e : One × Nat × (RMode → Nat → FRes)} (he : e ∈ slowOne) (d a : BitVec 7) :
    IsRegisterWord (e.1 d a) d e.2.1 [(a, e.2.1)] := by
  simp only [slowOne, List.mem_cons, List.not_mem_nil, or_false] at he
  rcases he with rfl | rfl | rfl | rfl | rfl | rfl | rfl | rfl
  · exact .of_xfn fun _ => exec_exp2F32 ..
  · exact .of_xfn fun _ => exec_log2F32 ..
  · exact .of_xfn fun _ => exec_rcpF32 ..
  · exact .of_xfn fun _ => exec_rsqF32 ..
  · exact .of_xfn fun _ => exec_sqrtF32 ..
  · exact .of_xfn fun _ => exec_sin2piF32 ..
  · exact .of_xfn fun _ => exec_cos2piF32 ..
  · exact .of_fpuLong fun _ => exec_sqrtF64 ..

theorem isRegisterWord_slowTwo {e : Two × Nat × (RMode → Nat → Nat → FRes)} (he : e ∈ slowTwo) (d a b : BitVec 7) :
    IsRegisterWord (e.1 d a b) d e.2.1 [(a, e.2.1), (b, e.2.1)] := by
  simp only [slowTwo, List.mem_cons, List.not_mem_nil, or_false] at he
  rcases he with rfl | rfl
  · exact .of_fpuLong fun _ => exec_divF32 ..
  · exact .of_fpuLong fun _ => exec_divF64 ..

theorem isRegisterWord_f32Two {e : Two × FloatFn} (he : e ∈ f32Two) (d a b : BitVec 7) : IsRegisterWord (e.1 d a b) d 1 [(a, 1), (b, 1)] := by
  simp only [f32Two, List.mem_cons, List.not_mem_nil, or_false] at he
  rcases he with rfl | rfl | rfl | rfl | rfl | rfl | rfl | rfl | rfl | rfl
  · exact .of_f32bin fun _ => exec_addF32 ..
  · exact .of_f32bin fun _ => exec_subF32 ..
  · exact .of_f32bin fun _ => exec_mulF32 ..
  · exact .of_f32tern fun _ => exec_fmaF32 ..
  · exact .of_f32tern fun _ => exec_fmsF32 ..
  · exact .of_f32bin fun _ => exec_minF32 ..
  · exact .of_f32bin fun _ => exec_maxF32 ..
  · exact .of_f32bin fun _ => exec_copysignF32 ..
  · exact .of_f32tern fun _ => exec_dot2F32F16 ..
  · exact .of_f32tern fun _ => exec_dot2F32Bf16 ..

theorem isRegisterWord_halfTwo {e : Two × (RMode → Nat → Nat → Nat → FRes × FRes)} (he : e ∈ halfTwo) (d a b : BitVec 7) :
    IsRegisterWord (e.1 d a b) d 1 [(a, 1), (b, 1)] := by
  simp only [halfTwo, List.mem_cons, List.not_mem_nil, or_false] at he
  rcases he with rfl | rfl | rfl | rfl | rfl | rfl | rfl | rfl | rfl | rfl
  · exact .of_half fun _ => exec_addF16x2 ..
  · exact .of_half fun _ => exec_mulF16x2 ..
  · exact .of_half fun _ => exec_fmaF16x2 ..
  · exact .of_half fun _ => exec_minF16x2 ..
  · exact .of_half fun _ => exec_maxF16x2 ..
  · exact .of_half fun _ => exec_addBf16x2 ..
  · exact .of_half fun _ => exec_mulBf16x2 ..
  · exact .of_half fun _ => exec_fmaBf16x2 ..
  · exact .of_fpu fun _ => exec_cvtF16x2F32 ..
  · exact .of_fpu fun _ => exec_cvtBf16x2F32 ..

theorem isRegisterWord_f64Two {e : Two × FloatFn} (he : e ∈ f64Two) (d a b : BitVec 7) : IsRegisterWord (e.1 d a b) d 2 [(a, 2), (b, 2)] := by
  simp only [f64Two, List.mem_cons, List.not_mem_nil, or_false] at he
  rcases he with rfl | rfl | rfl | rfl | rfl | rfl | rfl
  · exact .of_f64bin fun _ => exec_addF64 ..
  · exact .of_f64bin fun _ => exec_subF64 ..
  · exact .of_f64bin fun _ => exec_mulF64 ..
  · exact .of_f64tern fun _ => exec_fmaF64 ..
  · exact .of_f64tern fun _ => exec_fmsF64 ..
  · exact .of_f64bin fun _ => exec_minF64 ..
  · exact .of_f64bin fun _ => exec_maxF64 ..

theorem isRegisterWord_of_registerForm {i : Instr} {d : BitVec 7} {n : Nat} {src : List (BitVec 7 × Nat)} (h : RegisterForm i d n src) :
    IsRegisterWord i d n src := by
  rcases h with ⟨rfl, rfl, e, he, x, rfl⟩ | ⟨a, rfl, rfl, h⟩ | ⟨a, rfl, rfl, e, he, rfl⟩ | ⟨a, e, he, rfl, rfl, rfl⟩ | ⟨a, e, he, rfl, rfl, rfl⟩ |
    ⟨a, b, rfl, rfl, h⟩ | ⟨a, b, rfl, rfl, h⟩ | ⟨a, b, rfl, rfl, h⟩ | ⟨a, b, e, he, rfl, rfl, rfl⟩
  · exact ⟨_, fun _ => exec_constants he d x⟩
  · rcases h with ⟨e, he, rfl⟩ | ⟨e, he, x, rfl⟩ | ⟨e, he, rfl⟩
    · exact ⟨_, fun _ => exec_intOne he d a⟩
    · exact ⟨_, fun _ => exec_intImm he d a x⟩
    · exact isRegisterWord_f32One he d a
  · exact ⟨_, fun _ => exec_pairOne he d a⟩
  · exact isRegisterWord_f64One he d a
  · exact isRegisterWord_slowOne he d a
  · rcases h with ⟨e, he, rfl⟩ | ⟨e, he, rfl⟩ | rfl | ⟨k, rfl⟩ | ⟨e, he, rfl⟩ | ⟨e, he, rfl⟩
    · exact ⟨_, fun _ => exec_intTwo he d a b⟩
    · exact ⟨_, fun _ => exec_packedTwo he d a b⟩
    · exact .of_alu3 fun _ => exec_bfi ..
    · exact ⟨_, fun _ => exec_sel ..⟩
    · exact isRegisterWord_f32Two he d a b
    · exact isRegisterWord_halfTwo he d a b
  · rcases h with ⟨e, he, rfl⟩ | ⟨e, he, rfl⟩
    · exact ⟨_, fun _ => exec_pairWordOf he d a b⟩
    · exact ⟨_, fun _ => exec_leas he d a b⟩
  · rcases h with ⟨e, he, rfl⟩ | ⟨e, he, rfl⟩
    · exact ⟨_, fun _ => exec_pairTwo he d a b⟩
    · exact isRegisterWord_f64Two he d a b
  · exact isRegisterWord_slowTwo he d a b

theorem Checked.of_isRegisterWord {i : Instr} {d : BitVec 7} {n : Nat} {src : List (BitVec 7 × Nat)} (h : IsRegisterWord i d n src) :
    Checked i (useN d n :: src.map fun e => useN e.1 e.2)
      ((n = 2 → isEven d = true) ∧ (∀ e ∈ src, e.2 = 2 → isEven e.1 = true) ∧ uniformOk d (src.map (·.1))) :=
  let ⟨body, hb⟩ := h
  ⟨rrrSig d n src, body, hb, rfl, rfl, rrrSig_opnd_iff d n src⟩

/-- The instruction is a compare of registers to a mask. -/
def IsCompare (i : Instr) (a b : BitVec 7) (n : Nat) : Prop :=
  ∃ body, ∀ s, exec i s = Ops.word { priv := false, opnd := regOk a n && regOk b n, uses := [useN a n, useN b n] } body s

theorem IsCompare.of_fcmp {i : Instr} {d : BitVec 3} {a b : BitVec 7} {n : Nat} {f : Nat → Nat → Bool} {flags : Nat → Nat → Nat}
    (h : ∀ s, exec i s = Ops.fcmp n d a b f flags s) : IsCompare i a b n := ⟨_, h⟩

theorem isCompare_floatCompares {e : Compare × Nat × Fmt × (Nat → Nat → Bool) × Bool} (he : e ∈ floatCompares) (d : BitVec 3) (a b : BitVec 7) :
    IsCompare (e.1 d a b) a b e.2.1 := by
  simp only [floatCompares, List.zip_cons_cons, List.zip_nil_left, List.cons_append, List.nil_append, List.mem_cons, List.not_mem_nil, or_false] at he
  rcases he with rfl | rfl | rfl | rfl | rfl | rfl | rfl | rfl | rfl | rfl | rfl | rfl | rfl | rfl | rfl | rfl
  · exact .of_fcmp fun _ => exec_fcmpEqF32 ..
  · exact .of_fcmp fun _ => exec_fcmpNeF32 ..
  · exact .of_fcmp fun _ => exec_fcmpLtF32 ..
  · exact .of_fcmp fun _ => exec_fcmpLeF32 ..
  · exact .of_fcmp fun _ => exec_fcmpGtF32 ..
  · exact .of_fcmp fun _ => exec_fcmpGeF32 ..
  · exact .of_fcmp fun _ => exec_fcmpOrdF32 ..
  · exact .of_fcmp fun _ => exec_fcmpUnordF32 ..
  · exact .of_fcmp fun _ => exec_fcmpEqF64 ..
  · exact .of_fcmp fun _ => exec_fcmpNeF64 ..
  · exact .of_fcmp fun _ => exec_fcmpLtF64 ..
  · exact .of_fcmp fun _ => exec_fcmpLeF64 ..
  · exact .of_fcmp fun _ => exec_fcmpGtF64 ..
  · exact .of_fcmp fun _ => exec_fcmpGeF64 ..
  · exact .of_fcmp fun _ => exec_fcmpOrdF64 ..
  · exact .of_fcmp fun _ => exec_fcmpUnordF64 ..

theorem Checked.of_compareForm {i : Instr} {a b : BitVec 7} {n : Nat} (h : CompareForm i a b n) :
    Checked i [useN a n, useN b n] (n = 2 → isEven a = true ∧ isEven b = true) := by
  rcases h with ⟨rfl, e, he, d, rfl⟩ | ⟨rfl, e, he, d, rfl⟩ | ⟨e, he, rfl, d, rfl⟩
  · exact ⟨_, _, fun _ => exec_compares he d a b, rfl, rfl, by simp⟩
  · exact ⟨_, _, fun _ => exec_compares64 he d a b, rfl, rfl, by simp⟩
  · obtain ⟨body, hb⟩ := isCompare_floatCompares he d a b
    exact ⟨_, body, hb, rfl, rfl, by simp only [Bool.and_eq_true, regOk_iff, forall_and]⟩

theorem Checked.of_named {i : Instr} {uses : List Use} {limits : Prop} (h : Named i uses limits) : Checked i uses limits := by
  rcases h with ⟨d, n, src, hf, rfl, hl⟩ | ⟨a, b, n, hf, rfl, hl⟩
  · rw [propext hl]
    exact .of_isRegisterWord (isRegisterWord_of_registerForm hf)
  · rw [propext hl]
    exact .of_compareForm hf

theorem operandChecks_holds : operandChecks := by
  intro i uses limits s u g hnamed hi hn
  obtain ⟨sig, body, hx, hp, rfl, hl⟩ := Checked.of_named hnamed
  have hword {r : Res} (hr : Ops.check sig (u.ctx g) s = some r) : exec i s = .next (Ops.settle u r s) := by
    rw [hx, Ops.word, Ops.wordBy_eq hi, hr, Option.getD_some]
  refine ⟨fun h => ?_, fun h hh he => ?_, fun h hh => ⟨fun hm => ?_, fun hm ht => ?_⟩⟩
  · rw [hx]
    exact word_opnd hi hn hp (Bool.eq_false_iff.2 fun ho => h (hl.1 ho))
  · exact (hword (check_regx hn hp (hl.2 h) hh he)).trans (congrArg _ (Ops.settle_trap hi.2.2))
  · exact (hword (check_haz hn hp (hl.2 h) hh hm)).trans (congrArg _ (Ops.settle_trap hi.2.2))
  · exact (hword (check_token hn hp (hl.2 h) hh hm ht)).trans (congrArg _ Ops.settle_stall)

/-- A pair in an odd field. -/
theorem isRegisterWord_odd {i : Instr} {d : BitVec 7} {n : Nat} {src : List (BitVec 7 × Nat)} (h : IsRegisterWord i d n src) (hi : Issuing s u g)
    (hn : u.snap = none) (ho : (n = 2 ∧ isEven d = false) ∨ ∃ e ∈ src, e.2 = 2 ∧ isEven e.1 = false) :
    exec i s = .next (s.wordTrapped u ((u.ctx g).trap 5 0x05)) := by
  obtain ⟨body, hb⟩ := h
  rw [hb]
  refine word_opnd hi hn rfl (Bool.eq_false_iff.2 fun hok => ?_)
  obtain ⟨hd, hs, _⟩ := (rrrSig_opnd_iff d n src).1 hok
  rcases ho with ⟨h2, ho⟩ | ⟨e, he, h2, ho⟩
  · exact Bool.false_ne_true (ho.symm.trans (hd h2))
  · exact Bool.false_ne_true (ho.symm.trans (hs e he h2))

theorem pairWordResults_holds : pairWordResults := by
  refine ⟨fun e he d a b s u g hi => ⟨fun hd ha hb hu hc => (exec_pairTwo he d a b).trans (Ops.pair2_next hi hd ha hb hu hc), fun hn ho => ?_⟩,
    fun e he d a b s u g hi => ⟨fun hd ha hu hc => (exec_pairWordOf he d a b).trans (Ops.pairWord_next hi hd ha hu hc), fun hn ho => ?_⟩,
    fun e he d a s u g hi => ⟨fun hd hu hc => (exec_pairOne he d a).trans (Ops.widen_next hi hd hu hc), fun hn ho => ?_⟩⟩
  · exact isRegisterWord_odd (src := [(a, 2), (b, 2)]) ⟨_, fun _ => exec_pairTwo he d a b⟩ hi hn (by simpa using ho)
  · exact isRegisterWord_odd (src := [(a, 2), (b, 1)]) ⟨_, fun _ => exec_pairWordOf he d a b⟩ hi hn (by simpa using ho)
  · exact isRegisterWord_odd (src := [(a, 1)]) ⟨_, fun _ => exec_pairOne he d a⟩ hi hn (by simpa using ho)

/-- Settles O2: the results from the pair forms, the checks from what `Ops.check` asks in the order of Table ENC-9. -/
theorem pairWords : Obligations.PairWords := by
  unfold Obligations.PairWords
  exact ⟨pairWordResults_holds, operandChecks_holds⟩

end Sys2Proof.OperandChecks

/-! The words between lanes that name their source (05 R104, R105), and registers by number (05 R107). -/

namespace Sys2Proof.LaneWords

open Sys2Proof.Machine Sys2Proof.Claims Sys2Proof.OperandChecks

variable {s : State} {u : Issue} {g : Group}

/-! ### Lane-moving words -/

/-- The lanes of a segment that b names. -/
def segLanes (b : Word) : Nat := 4 * 2 ^ min (b.toNat / 2 ^ 8 % 8) 5

/-- The source lane of lane l, where `pick` gives its place in the segment over the integers. -/
def sourceLane (pick : Nat → Nat → Nat → Int) (l : Nat) (b : Word) : Nat :=
  l / segLanes b * segLanes b + (pick (l % segLanes b) (b.toNat % 2 ^ 7) (segLanes b) % segLanes b).toNat

theorem segLanes_pos (b : Word) : 0 < segLanes b := Nat.mul_pos (by omega) (Nat.two_pow_pos _)

theorem segLane_eq_sourceLane {pick : Nat → Nat → Nat → Nat} {place : Nat → Nat → Nat → Int}
    (h : ∀ r k n, 0 < n → ((pick r k n % n : Nat) : Int) = place r k n % n) (l : Nat) (b : Word) : segLane pick l b = sourceLane place l b := by
  have hk : b.toNat / 2 ^ 0 % 2 ^ 7 = b.toNat % 2 ^ 7 := by rw [Nat.pow_zero, Nat.div_one]
  show l - l % segLanes b + pick (l % segLanes b) (b.toNat / 2 ^ 0 % 2 ^ 7) (segLanes b) % segLanes b = _
  rw [← Nat.div_mul_self_eq_mod_sub_self, hk, sourceLane, ← h _ _ _ (segLanes_pos b), Int.toNat_natCast]

/-- The distance down a segment, as the model wraps it. -/
theorem natCast_down_mod (r k n : Nat) (hn : 0 < n) : (((r + n - k % n) % n : Nat) : Int) = ((r : Int) - k) % n := by
  have hlt := Nat.mod_lt k hn
  have hk : (k : Int) = n * (k / n : Nat) + (k % n : Nat) := mod_cast (Nat.div_add_mod k n).symm
  have hz : ((r + n - k % n : Nat) : Int) = (r - k) + n * (1 + (k / n : Nat)) := by
    rw [Nat.cast_sub (by omega), Nat.cast_add]
    linear_combination hk
  rw [Int.natCast_mod, hz, Int.add_mul_emod_self_left]

theorem filterMap_if {α β : Type} (p : α → Bool) (f : α → β) (l : List α) :
    l.filterMap (fun x => if p x = true then some (f x) else none) = (l.filter p).map f := by
  induction l with
  | nil => rfl
  | cons x l ih => by_cases h : p x = true <;> simp [h, ih]

/-- A long-latency word of one v register without results yet. -/
theorem longOp_marks {c : Ctx} {d : BitVec 7} (hd : isS d = false) : c.longOp.marks d 1 = slowOp c d 1 (fun _ => []) 0 none := by
  simp [Ctx.longOp, LongOp.marks, slowOp, hd]

theorem issueLong_next {c : Ctx} {g : Group} (hg : Tab.find s.groups c.u.group = some g) (hf : flagRoom s c) (op : LongOp) :
    s.issueLong c op = .ok (slowEffect s c op) := State.issueLong_ok hg (hf g hg)

theorem moveLanes_next {d a b : BitVec 7} {pick : Nat → Nat → Nat → Nat} (hi : Issuing s u g) (hd : isS d = false)
    (hc : Clear s (u.ctx g) [use d, use a, use b]) (hf : flagRoom s (u.ctx g)) :
    Ops.moveLanes d a b pick s = .next (State.wordDone u (slowEffect s (u.ctx g) { slowOp (u.ctx g) d 1 (fun _ => []) 0 none with
      vWrites := ((members (u.ctx g).exec).filter fun l => (u.ctx g).exec.getLsbD (segLane pick l ((u.ctx g).rd b l))).map fun l =>
        (d.toNat * 128 + l, (u.ctx g).rd a (segLane pick l ((u.ctx g).rd b l))) })) := by
  refine Ops.word_ok hi (fun h => nomatch h) (by simp [hd]) hc ?_
  rw [← filterMap_if, ← longOp_marks hd]
  exact issueLong_next hi.2.1 hf _

theorem exec_moves {e : Two × (Nat → Nat → Nat → Int)} (he : e ∈ moves) (d a b : BitVec 7) :
    ∃ pick, (∀ s, exec (e.1 d a b) s = Ops.moveLanes d a b pick s) ∧ ∀ l x, segLane pick l x = sourceLane e.2 l x := by
  simp only [moves, List.mem_cons, List.not_mem_nil, or_false] at he
  rcases he with rfl | rfl | rfl | rfl
  · exact ⟨_, fun _ => exec_lpick .., segLane_eq_sourceLane fun r k n _ => Int.natCast_mod ..⟩
  · exact ⟨_, fun _ => exec_lswap .., segLane_eq_sourceLane fun r k n _ => Int.natCast_mod ..⟩
  · exact ⟨_, fun _ => exec_lrotu .., segLane_eq_sourceLane natCast_down_mod⟩
  · exact ⟨_, fun _ => exec_lrotd .., segLane_eq_sourceLane fun r k n _ => by rw [Int.natCast_mod, Nat.cast_add]⟩

/-- Settles O17: the source lane over the integers is the one the word computes. -/
theorem laneMovingWords : Obligations.LaneMovingWords := by
  unfold Obligations.LaneMovingWords
  intro e he d a b s u g source hi hd hc hf hs
  obtain ⟨pick, hx, hpick⟩ := exec_moves he d a b
  obtain rfl : source = fun l => sourceLane e.2 l ((u.ctx g).rd b l) := funext hs
  rw [hx, moveLanes_next hi hd hc hf]
  simp only [hpick]

/-! ### Words whose checks need the operands' values -/

section
variable {sig : Ctx → State → Sig} {body : Ctx → State → Res}

theorem wordBy_ok {t : State} (hi : Issuing s u g) (hp : (sig (u.ctx g) s).priv = false) (ho : (sig (u.ctx g) s).opnd = true)
    (hc : Clear s (u.ctx g) (sig (u.ctx g) s).uses) (hb : body (u.ctx g) s = .ok t) : Ops.wordBy sig body s = .next (t.wordDone u) := by
  rw [Ops.wordBy_clear hi (fun h => by rw [hp] at h; cases h) ho hc, hb, Ops.settle_ok hi.2.2]

theorem wordBy_trap {x : Trap} (hi : Issuing s u g) (hp : (sig (u.ctx g) s).priv = false) (ho : (sig (u.ctx g) s).opnd = true)
    (hc : Clear s (u.ctx g) (sig (u.ctx g) s).uses) (hb : body (u.ctx g) s = .trap x) : Ops.wordBy sig body s = .next (s.wordTrapped u x) := by
  rw [Ops.wordBy_clear hi (fun h => by rw [hp] at h; cases h) ho hc, hb, Ops.settle_trap hi.2.2]

end

/-- A register that nothing keeps the word from can be read for the checks. -/
theorem readable_of_clear {c : Ctx} {uses : List Use} {b : BitVec 7} (hc : Clear s c uses) (hb : use b ∈ uses) : c.readable s b = true := by
  rw [Ctx.readable, hc.1 _ hb, hc.2.1 _ hb]
  rfl

theorem clear_append {c : Ctx} {xs ys : List Use} (hx : Clear s c xs) (hy : Clear s c ys) : Clear s c (xs ++ ys) := by
  obtain ⟨hpx, htx, hhx, hfx⟩ := hx
  obtain ⟨hpy, hty, hhy, _⟩ := hy
  refine ⟨List.forall_mem_append.2 ⟨hpx, hpy⟩, List.forall_mem_append.2 ⟨htx, hty⟩, ?_, hfx⟩
  rcases hhx with h | hhx
  · exact .inl h
  · exact hhy.imp_right fun hhy => List.forall_mem_append.2 ⟨hhx, hhy⟩

/-! ### One named lane -/

/-- Lane j is in the split's slices and has not exited. -/
abbrev Stands (c : Ctx) (j : Nat) : Prop :=
  c.u.slices.getLsbD (j / 4) = true ∧ j / 4 < c.g.slices.length ∧ (c.g.slice (j / 4)).exited.getLsbD (j % 4) = false

theorem standing_iff (c : Ctx) {j : Nat} (hj : j < 128) : c.standing j = true ↔ Stands c j := by
  simp only [Ctx.standing, Group.lanesOf, Group.exitedLanes, getLsbD_bitSet, hj, decide_true, Bool.true_and, Bool.and_eq_true, Bool.not_eq_true',
    decide_eq_true_eq, and_assoc]

theorem laneOf_lt (c : Ctx) (b : BitVec 7) : c.laneOf b < 128 := Nat.mod_lt _ (by omega)

theorem usedLanes_eq {c : Ctx} {b : BitVec 7} (hr : c.readable s b = true) :
    c.usedLanes s b = if Stands c (c.laneOf b) then c.exec ||| bitSet 128 (· == c.laneOf b) else c.exec := by
  simp only [Ctx.usedLanes, hr, Bool.true_and, standing_iff c (laneOf_lt c b)]
  rfl

theorem exec_bcast_next {d a b : BitVec 7} (hi : Issuing s u g) (hd : isS d = false) (ha : isS a = false) (hb : isS b = true)
    (hc : Clear s (u.ctx g) [use d, use a, use b]) : exec (.bcast d a b) s = .next (State.wordDone u (s.putRegs (u.ctx g) d.toNat fun _ =>
      [(u.ctx g).rd a (if (u.ctx g).exec.getLsbD ((u.ctx g).laneOf b) = true then (u.ctx g).laneOf b else (u.ctx g).firstLane)])) := by
  rw [exec_bcast]
  exact Ops.word_ok hi (fun h => nomatch h) (by simp [hd, ha, hb]) hc rfl

theorem exec_rdlane_next {d a b : BitVec 7} (hi : Issuing s u g) (hd : isS d = true) (ha : isS a = false) (hb : isS b = true)
    (hc : Clear s (u.ctx g) [use d, use b, { use a with lanes := some ((u.ctx g).usedLanes s b) }]) :
    exec (.rdlane d a b) s = .next (State.wordDone u (s.putRegs (u.ctx g) d.toNat fun _ =>
      [if (u.ctx g).standing ((u.ctx g).laneOf b) = true then (u.ctx g).rd a ((u.ctx g).laneOf b) else 0])) := by
  rw [exec_rdlane]
  exact wordBy_ok hi rfl (by simp [hd, ha, hb]) hc rfl

theorem exec_wrlane_next {d a b : BitVec 7} (hi : Issuing s u g) (hd : isS d = false) (ha : isS a = true) (hb : isS b = true)
    (hc : Clear s (u.ctx g) [use a, use b, { use d with lanes := some ((u.ctx g).usedLanes s b) }]) :
    exec (.wrlane d a b) s = .next (State.wordDone u (if (u.ctx g).standing ((u.ctx g).laneOf b) = true
      then s.onGroup u.group fun h => h.writeV d.toNat ((u.ctx g).laneOf b) ((u.ctx g).rd a 0) else s)) := by
  rw [exec_wrlane]
  exact wordBy_ok hi rfl (by simp [hd, ha, hb]) hc rfl

theorem namedLaneWords_holds : namedLaneWords := by
  rintro d a b s u g j lanes hi rfl rfl hb
  have hused {uses : List Use} (hc : Clear s (u.ctx g) uses) (hmem : use b ∈ uses) := usedLanes_eq (readable_of_clear hc hmem)
  have hstands := standing_iff (u.ctx g) (laneOf_lt (u.ctx g) b)
  refine ⟨fun hd ha hc => exec_bcast_next hi hd ha hb hc, fun hd ha hc => ?_, fun hd ha hc => ?_⟩
  · rw [exec_rdlane_next hi hd ha hb (by rw [hused hc (by simp)]; exact hc)]
    simp only [hstands]
    rfl
  · rw [exec_wrlane_next hi hd ha hb (by rw [hused hc (by simp)]; exact hc)]
    simp only [hstands]
    rfl

/-! ### Registers by number -/

section
variable {d a : BitVec 7}

/-- The word runs in a handler and names one of the interrupted program's s24-s27. -/
theorem outer_iff (c : Ctx) (i : Nat) : c.outer i = true ↔ c.g.epochOf c.u.slices ≠ 0 ∧ 120 ≤ i ∧ i ≤ 123 := by
  simp [Ctx.outer, and_assoc]

theorem exec_vrdi_own (hi : Issuing s u g) (hd : isS d = false) (ha : isS a = true) (hc : Clear s (u.ctx g) [use d, use a])
    (ho : (u.ctx g).outer ((u.ctx g).rd a 0).toNat = false) (h128 : ((u.ctx g).rd a 0).toNat < 128)
    (hr : Clear s (u.ctx g) [⟨((u.ctx g).rd a 0).toNat, 1, none⟩]) :
    exec (.vrdi d a) s = .next (State.wordDone u (s.putRegs (u.ctx g) d.toNat fun l => [(u.ctx g).rdN ((u.ctx g).rd a 0).toNat l])) := by
  rw [exec_vrdi]
  refine wordBy_ok hi rfl (by simp [hd, ha]) ?_ ?_
  · simpa [readable_of_clear hc, ha, h128, ho] using clear_append hc hr
  · simp [Nat.not_le.2 h128, ho]

theorem exec_vrdi_outer (hi : Issuing s u g) (hd : isS d = false) (ha : isS a = true) (hc : Clear s (u.ctx g) [use d, use a])
    (ho : (u.ctx g).outer ((u.ctx g).rd a 0).toNat = true) (hp : (u.ctx g).outerPending (((u.ctx g).rd a 0).toNat - 96) = false)
    (ht : (u.ctx g).outerToken s (((u.ctx g).rd a 0).toNat - 96) = false) :
    exec (.vrdi d a) s = .next (State.wordDone u (s.putRegs (u.ctx g) d.toNat fun _ =>
      [Tab.get 0 ((u.ctx g).g.slice (u.ctx g).low).s (((u.ctx g).rd a 0).toNat - 96)])) := by
  have h128 : ¬ 128 ≤ ((u.ctx g).rd a 0).toNat := by
    have := (outer_iff ..).1 ho
    omega
  rw [exec_vrdi]
  refine wordBy_ok hi rfl (by simp [hd, ha]) ?_ ?_
  · simpa [ho] using hc
  · simp [h128, ho, hp, ht]

theorem exec_vrdi_trap (hi : Issuing s u g) (hd : isS d = false) (ha : isS a = true) (hc : Clear s (u.ctx g) [use d, use a])
    (h128 : 128 ≤ ((u.ctx g).rd a 0).toNat) : exec (.vrdi d a) s = .next (s.wordTrapped u ((u.ctx g).trap 7 0x05)) := by
  rw [exec_vrdi]
  refine wordBy_trap hi rfl (by simp [hd, ha]) ?_ ?_
  · simpa [Nat.not_lt.2 h128] using hc
  · exact if_pos h128

theorem exec_vwri_next {b : BitVec 7} (hi : Issuing s u g) (ha : isS a = true) (hc : Clear s (u.ctx g) [use a, use b])
    (h96 : ((u.ctx g).rd a 0).toNat < 96) (hr : Clear s (u.ctx g) [⟨((u.ctx g).rd a 0).toNat, 1, none⟩]) :
    exec (.vwri a b) s = .next (State.wordDone u (s.putRegs (u.ctx g) ((u.ctx g).rd a 0).toNat fun l => [(u.ctx g).rd b l])) := by
  rw [exec_vwri]
  refine wordBy_ok hi rfl ha ?_ ?_
  · simpa [readable_of_clear hc, ha, h96] using clear_append hc hr
  · exact if_neg (Nat.not_le.2 h96)

theorem exec_vwri_trap {b : BitVec 7} (hi : Issuing s u g) (ha : isS a = true) (hc : Clear s (u.ctx g) [use a, use b])
    (h96 : 96 ≤ ((u.ctx g).rd a 0).toNat) : exec (.vwri a b) s = .next (s.wordTrapped u ((u.ctx g).trap 7 0x05)) := by
  rw [exec_vwri]
  refine wordBy_trap hi rfl ha ?_ ?_
  · simpa [Nat.not_lt.2 h96] using hc
  · exact if_pos h96

end

theorem registersByNumber_holds : registersByNumber := by
  constructor
  · rintro d a s u g i hi hd ha rfl hc
    refine ⟨fun ho h128 hr => exec_vrdi_own hi hd ha hc ?_ h128 hr, fun he h120 h123 hp ht => ?_, fun h128 => exec_vrdi_trap hi hd ha hc h128⟩
    · refine Bool.eq_false_iff.2 fun hout => ?_
      obtain ⟨he, h120, h123⟩ := (outer_iff ..).1 hout
      rcases ho with ho | ho | ho
      · exact he ho
      · omega
      · omega
    · exact exec_vrdi_outer hi hd ha hc ((outer_iff ..).2 ⟨he, h120, h123⟩) hp ht
  · rintro a b s u g i hi ha rfl hc
    exact ⟨fun h96 hr => exec_vwri_next hi ha hc h96 hr, fun h96 => exec_vwri_trap hi ha hc h96⟩

/-- Settles O51, part by part. -/
theorem namedLaneAndRegisterWords : Obligations.NamedLaneAndRegisterWords := by
  unfold Obligations.NamedLaneAndRegisterWords
  exact ⟨namedLaneWords_holds, registersByNumber_holds⟩

end Sys2Proof.LaneWords

/-! Quad derivatives, reductions and the tree sum (05 R106, R108, R109; 06 R114-R116). -/

namespace Sys2Proof.Reductions

open Sys2Proof.Machine Sys2Proof.Claims Sys2Proof.IntegerWords

variable {s : State} {u : Issue} {g : Group}

/-! ### Exceptions of several lanes -/

theorem orAll_and_eq_zero_iff (l : List Nat) (en : Nat) : orAll l &&& en = 0 ↔ ∀ x ∈ l, x &&& en = 0 := by
  have hfold (z : Nat) : l.foldl (· ||| ·) z &&& en = 0 ↔ z &&& en = 0 ∧ ∀ x ∈ l, x &&& en = 0 := by
    induction l generalizing z with
    | nil => simp
    | cons y l ih => rw [List.foldl_cons, ih, Nat.and_or_distrib_right, Nat.or_eq_zero_iff, List.forall_mem_cons, and_assoc]
  rw [orAll, hfold, Nat.zero_and]
  exact and_iff_right rfl

/-- No enabled exception is signalled. -/
theorem fpe_none {c : Ctx} {ls : List Nat} {flags : Nat → Nat} (h : ∀ l ∈ ls, c.enabled (flags l) = 0) : c.fpe (ls.map fun l => (l, flags l)) = none := by
  have hfind : (ls.map fun l => (l, flags l)).find? (fun e => decide (c.enabled e.2 ≠ 0)) = none := by
    simpa [List.find?_eq_none] using h
  rw [Ctx.fpe, hfind]

/-! ### Quad derivatives -/

theorem regsOf_one (x : Nat) : regsOf 1 x = [.ofNat 32 x] := by simp [regsOf]

/-- The difference across the quad, or the canonical NaN with derivative-invalid. -/
def slope (c : Ctx) (a : BitVec 7) (p q : Nat) : FRes :=
  if c.exec.getLsbD p = true ∧ c.exec.getLsbD q = true then Fmt.f32.sub c.rm (c.rd a q).toNat (c.rd a p).toNat else { bits := 0x7FC00000, flags := 0x20 }

theorem deriv_eq_slope (c : Ctx) (a : BitVec 7) (p q : Nat) : c.deriv a p q = (slope c a p q).one := by
  rw [Ctx.deriv, slope, apply_ite FRes.one]
  simp only [Bool.and_eq_true]
  rfl

theorem derive_next {d a : BitVec 7} {near far : Nat → Nat} (hi : Issuing s u g) (hd : isS d = false) (hc : Clear s (u.ctx g) [use d, use a])
    (hn : noTrap (u.ctx g) false fun l => (slope (u.ctx g) a (near l) (far l)).flags) :
    Ops.derive d a near far s = .next (State.wordDone u (floatEffect s (u.ctx g) d 1 fun l =>
      ((slope (u.ctx g) a (near l) (far l)).bits, (slope (u.ctx g) a (near l) (far l)).flags))) := by
  have hnone : (u.ctx g).fpe ((members (u.ctx g).exec).map fun l => (l, (slope (u.ctx g) a (near l) (far l)).flags)) = none := fpe_none hn
  refine Ops.word_ok hi (fun h => nomatch h) (by simp [hd]) hc ?_
  simp only [deriv_eq_slope, FRes.one, hnone, floatEffect, regsOf_one, hd, List.map_map]
  rfl

theorem exec_derivatives {e : One × (Nat → Nat) × (Nat → Nat)} (he : e ∈ derivatives) (d a : BitVec 7) : exec (e.1 d a) s = Ops.derive d a e.2.1 e.2.2 s := by
  simp only [derivatives, List.mem_cons, List.not_mem_nil, or_false] at he
  rcases he with rfl | rfl
  · rw [exec_ddxF32, execDdxF32]
    congr 1 <;> (funext l; simp only [quad]; omega)
  · rw [exec_ddyF32, execDdyF32]
    congr 1

theorem derivativeWords_holds : derivativeWords := by
  intro e he d a s u g f hi hd hc hf hn
  obtain rfl : f = fun l => slope (u.ctx g) a (e.2.1 l) (e.2.2 l) := funext hf
  exact (exec_derivatives he d a).trans (derive_next hi hd hc hn)

/-! ### Reductions -/

theorem reduce_next {d a : BitVec 7} {f : List Word → Word} (hi : Issuing s u g) (hc : Clear s (u.ctx g) [use d, use a]) :
    Ops.reduce d a f s = .next (State.wordDone u (s.putRegs (u.ctx g) d.toNat fun _ => [f ((members (u.ctx g).exec).map ((u.ctx g).rd a))])) :=
  Ops.word_ok hi (fun h => nomatch h) rfl hc rfl

theorem foldl_add_eq_ofInt (l : List Word) : l.foldl (· + ·) 0 = .ofInt 32 (l.map BitVec.toInt).sum := by
  have hfold (z : Word) : l.foldl (· + ·) z = z + .ofInt 32 (l.map BitVec.toInt).sum := by
    induction l generalizing z with
    | nil => simp
    | cons y l ih => rw [List.foldl_cons, ih, List.map_cons, List.sum_cons, BitVec.ofInt_add, BitVec.ofInt_toInt, BitVec.add_assoc]
  rw [hfold]
  exact BitVec.zero_add _

/-- A fold of an operation that is exact over the integers. -/
theorem foldl_eq_ofInt {op : Word → Word → Word} {f : Int → Int → Int} (h : ∀ x y, (op x y).toInt = f x.toInt y.toInt) (l : List Word) (z : Word) :
    l.foldl op z = .ofInt 32 ((l.map BitVec.toInt).foldl f z.toInt) := by
  rw [List.foldl_map, List.foldl_hom BitVec.toInt (g₁ := op) fun x y => (h x y).symm, BitVec.ofInt_toInt]

theorem toInt_smax (x y : Word) : (if x.toInt ≤ y.toInt then y else x).toInt = max x.toInt y.toInt := by
  rw [apply_ite BitVec.toInt, max_def]

theorem toInt_smin (x y : Word) : (if x.toInt ≤ y.toInt then x else y).toInt = min x.toInt y.toInt := by
  rw [apply_ite BitVec.toInt, min_def]

theorem exec_reductions {e : One × (List Int → Int)} (he : e ∈ reductions) (d a : BitVec 7) :
    exec (e.1 d a) s = Ops.reduce d a (fun l => .ofInt 32 (e.2 (l.map BitVec.toInt))) s := by
  simp only [reductions, List.mem_cons, List.not_mem_nil, or_false] at he
  rcases he with rfl | rfl | rfl
  · exact (exec_raddI32 ..).trans (congrArg (Ops.reduce d a · s) (funext foldl_add_eq_ofInt))
  · exact (exec_rmaxI32 ..).trans (congrArg (Ops.reduce d a · s) (funext fun l => foldl_eq_ofInt toInt_smax l _))
  · exact (exec_rminI32 ..).trans (congrArg (Ops.reduce d a · s) (funext fun l => foldl_eq_ofInt toInt_smin l _))

theorem reductionWords_holds : reductionWords := by
  intro e he d a s u g hi hc
  rw [exec_reductions he, reduce_next hi hc]
  simp only [List.map_map]
  rfl

/-! ### The tree sum -/

section
variable (rm : RMode) (x : Nat → Nat)

/-- Node i of a level above the lanes, as the model records what it signals. -/
def nodeSig (level i : Nat) : TreeSig := { first := i * 2 ^ level, size := 2 ^ level, flags := nodeFlags rm x level i }

/-- Neighbours of a level added, from node i of the next on. -/
theorem raddLevel_eq (level m i : Nat) :
    raddLevel rm (2 ^ (level + 1)) ((List.range' (2 * i) (2 * m)).map (node rm x level)) i =
      ((List.range' i m).map (node rm x (level + 1)), (List.range' i m).map (nodeSig rm x (level + 1))) := by
  induction m generalizing i with
  | zero => rfl
  | succ m ih =>
    rw [show 2 * (m + 1) = 2 * m + 1 + 1 by omega, List.range'_succ, List.range'_succ, List.range'_succ, List.map_cons, List.map_cons, raddLevel,
      show 2 * i + 1 + 1 = 2 * (i + 1) by omega, ih]
    rfl

theorem raddTree_eq (n level : Nat) :
    raddTree rm n (2 ^ (level + 1)) ((List.range (2 ^ n)).map (node rm x level)) =
      (node rm x (level + n) 0, (List.range n).flatMap fun k => (List.range (2 ^ (n - 1 - k))).map (nodeSig rm x (level + k + 1))) := by
  induction n generalizing level with
  | zero => rfl
  | succ n ih =>
    have hlevel := raddLevel_eq rm x level (2 ^ n) 0
    rw [Nat.mul_zero, ← Nat.pow_succ', ← List.range_eq_range', ← List.range_eq_range'] at hlevel
    rw [raddTree, hlevel, ← Nat.pow_succ', ih (level + 1), List.range_succ_eq_map, List.flatMap_cons, List.flatMap_map]
    refine Prod.ext (congrArg (node rm x · 0) (by omega)) (congrArg (_ ++ ·) (List.flatMap_congr fun k _ => ?_))
    rw [show n - 1 - k = n + 1 - 1 - (k + 1) by omega, show level + 1 + k + 1 = level + (k + 1) + 1 by omega]

/-- What the nodes of the whole tree signal, level by level. -/
def treeSigs : List TreeSig := (List.range 7).flatMap fun n => (List.range (2 ^ (6 - n))).map (nodeSig rm x (n + 1))

theorem raddTree_lanes : raddTree rm 7 2 ((List.range 128).map x) = (node rm x 7 0, treeSigs rm x) := by
  have h := raddTree_eq rm x 7 0
  simp only [Nat.zero_add] at h
  exact h

theorem orAll_treeSigs : orAll ((treeSigs rm x).map (·.flags)) = treeFlags rm x := by
  simp only [treeSigs, List.map_flatMap, List.map_map]
  rfl

/-- A node that signals an exception of a set lies above lane l. -/
def signalsAbove (en l : Nat) : Bool := (List.range 7).any fun n => decide (nodeFlags rm x (n + 1) (l / 2 ^ (n + 1)) &&& en ≠ 0)

theorem mem_treeSigs (t : TreeSig) : t ∈ treeSigs rm x ↔ ∃ n < 7, ∃ i < 2 ^ (6 - n), nodeSig rm x (n + 1) i = t := by
  simp only [treeSigs, List.mem_flatMap, List.mem_map, List.mem_range]

theorem any_treeSigs_eq (en : Nat) {l : Nat} (hl : l < 128) :
    (((treeSigs rm x).filter fun t => decide (t.flags &&& en ≠ 0)).any fun t => decide (t.first ≤ l) && decide (l < t.first + t.size)) =
      signalsAbove rm x en l := by
  rw [Bool.eq_iff_iff, signalsAbove, List.any_eq_true, List.any_eq_true]
  simp only [List.mem_filter, mem_treeSigs, List.mem_range, Bool.and_eq_true, decide_eq_true_eq]
  constructor
  · rintro ⟨t, ⟨⟨n, hn, i, hi, rfl⟩, hf⟩, h1, h2⟩
    refine ⟨n, hn, ?_⟩
    have hdiv : l / 2 ^ (n + 1) = i := by
      refine Nat.div_eq_of_lt_le h1 ?_
      rw [Nat.add_mul, Nat.one_mul]
      exact h2
    rw [hdiv]
    exact hf
  · rintro ⟨n, hn, hf⟩
    have hi : l / 2 ^ (n + 1) < 2 ^ (6 - n) := by
      rw [Nat.div_lt_iff_lt_mul (Nat.two_pow_pos _), ← Nat.pow_add, show 6 - n + (n + 1) = 7 by omega]
      exact hl
    refine ⟨_, ⟨⟨n, hn, _, hi, rfl⟩, hf⟩, Nat.div_mul_le_self .., ?_⟩
    have := Nat.lt_div_mul_add (a := l) (Nat.two_pow_pos (n + 1))
    exact this

/-- A lane above which a node signals: the tree signals. -/
theorem treeFlags_and_ne_zero {en l : Nat} (hl : l < 128) (h : signalsAbove rm x en l = true) : treeFlags rm x &&& en ≠ 0 := by
  rw [← any_treeSigs_eq rm x en hl] at h
  obtain ⟨t, ht, -⟩ := List.any_eq_true.1 h
  obtain ⟨ht, hf⟩ := List.mem_filter.1 ht
  rw [← orAll_treeSigs, ne_eq, orAll_and_eq_zero_iff]
  exact fun hall => of_decide_eq_true hf (hall _ (List.mem_map_of_mem ht))

end

/-- The lanes' values as the tree takes them: +0 where a lane is absent. -/
def laneValues (c : Ctx) (a : BitVec 7) (j : Nat) : Nat := if c.exec.getLsbD j = true then (c.rd a j).toNat else 0

/-- The effect of the tree sum, or FPE with the lowest active lane below a node that signalled an enabled exception. -/
def treeEffect (d a : BitVec 7) (c : Ctx) (s : State) : Res :=
  let flags := treeFlags c.rm (laneValues c a)
  if c.enabled flags ≠ 0 then .trap { c.trap 7 0x19 with
    faddr := fpeAddr (c.enabled flags) (((members c.exec).find? (signalsAbove c.rm (laneValues c a) (bitsAt c.g.rmode.toNat 4 6))).getD 0) }
  else .ok (State.orFlags (s.putRegs c d.toNat fun _ => [.ofNat 32 (node c.rm (laneValues c a) 7 0)]) c flags)

theorem mem_exec_lt {c : Ctx} {j : Nat} (hj : j ∈ members c.exec) : j < 128 := BitVec.lt_of_getLsbD ((mem_members _).1 hj)

theorem exec_raddF32_eq (d a : BitVec 7) : exec (.raddF32 d a) s = Ops.word { priv := false, opnd := true, uses := [use d, use a] } (treeEffect d a) s := by
  rw [exec_raddF32, execRaddF32]
  refine congrArg (fun body => Ops.word _ body s) (funext fun c => funext fun s => ?_)
  have htree : raddTree c.rm 7 2 ((List.range 128).map fun j => if c.exec.getLsbD j = true then (c.rd a j).toNat else 0) =
    (node c.rm (laneValues c a) 7 0, treeSigs c.rm (laneValues c a)) := raddTree_lanes c.rm (laneValues c a)
  have hbelow : ((members c.exec).find? fun j => ((treeSigs c.rm (laneValues c a)).filter fun t => decide (c.enabled t.flags ≠ 0)).any
      fun t => decide (t.first ≤ j) && decide (j < t.first + t.size)) =
    (members c.exec).find? (signalsAbove c.rm (laneValues c a) (bitsAt c.g.rmode.toNat 4 6)) :=
    List.find?_congr fun j hj => any_treeSigs_eq c.rm (laneValues c a) _ (mem_exec_lt hj)
  simp only [htree, orAll_treeSigs, hbelow]
  rfl

theorem treeSum_holds : treeSum := by
  intro d a s u g x rm en hi hc hx hrm hen
  obtain rfl : x = laneValues (u.ctx g) a := funext hx
  subst hrm hen
  refine ⟨fun hn => (exec_raddF32_eq d a).trans (Ops.word_ok hi (fun h => nomatch h) rfl hc ?_),
    fun lane hl => (exec_raddF32_eq d a).trans (Ops.word_trap hi (fun h => nomatch h) rfl hc ?_)⟩
  · exact if_neg (not_not.2 hn)
  · have hlane := mem_exec_lt (List.mem_of_find?_eq_some hl)
    refine (if_pos (treeFlags_and_ne_zero _ _ hlane (List.find?_some hl))).trans ?_
    rw [show (members (u.ctx g).exec).find? (signalsAbove (u.ctx g).rm (laneValues (u.ctx g) a)
      (bitsAt (u.ctx g).g.rmode.toNat 4 6)) = some lane from hl]
    rfl

/-- Settles O52, part by part. -/
theorem derivativesAndReductions : Obligations.DerivativesAndReductions := by
  unfold Obligations.DerivativesAndReductions
  exact ⟨derivativeWords_holds, reductionWords_holds, treeSum_holds⟩

end Sys2Proof.Reductions

/-! The short-latency floating words (06 R114-R128): each word of the tables as a word of one shared form, with the table's result. What
follows, the effect or FPE in its place, is said once for the form. -/

namespace Sys2Proof.FloatWords

open Sys2Proof.Machine Sys2Proof.Claims Sys2Proof.IntegerWords Sys2Proof.OperandChecks Sys2Proof.Reductions

variable {s : State} {u : Issue} {g : Group}

/-! ### Words that signal -/

/-- FPE of a word whose lowest signalling lane is `lane`, and whose lanes together signal `flags` (06 R116). -/
def fpeTrap (c : Ctx) (flags lane : Nat) : Trap := { c.trap 7 0x19 with faddr := fpeAddr (c.enabled flags) lane }

/-- The lowest lane that signals an enabled exception raises FPE for all lanes. -/
theorem fpe_some {c : Ctx} {ls : List Nat} {flags : Nat → Nat} {lane : Nat} (h : ls.find? (fun l => decide (c.enabled (flags l) ≠ 0)) = some lane) :
    c.fpe (ls.map fun l => (l, flags l)) = some (fpeTrap c (orAll (ls.map flags)) lane) := by
  have hfind : (ls.map fun l => (l, flags l)).find? (fun e => decide (c.enabled e.2 ≠ 0)) = some (lane, flags lane) := by
    rw [List.find?_map]
    exact congrArg (Option.map _) h
  rw [Ctx.fpe, hfind, List.map_map]
  rfl

/-- What a word comes to whose lanes signal: FPE, or its effect. -/
def signalled (uniform : Bool) (flags : Ctx → Nat → Nat) (effect : Ctx → State → State) (c : Ctx) (s : State) : Res :=
  match c.fpe ((c.sigLanes uniform).map fun l => (l, flags c l)) with
  | some t => .trap t
  | none => .ok (effect c s)

/-- The instruction is a word that names what `sig` says and signals these exceptions, with this effect where none of them is enabled. -/
structure Signals (i : Instr) (sig : Sig) (uniform : Bool) (flags : Ctx → Nat → Nat) (effect : Ctx → State → State) : Prop where
  unprivileged : sig.priv = false
  exec_eq : ∀ s, exec i s = Ops.word sig (signalled uniform flags effect) s

namespace Signals
variable {i : Instr} {sig : Sig} {uniform : Bool} {flags : Ctx → Nat → Nat} {effect : Ctx → State → State}

theorem next (h : Signals i sig uniform flags effect) (hi : Issuing s u g) (ho : sig.opnd = true) (hc : Clear s (u.ctx g) sig.uses)
    (hn : noTrap (u.ctx g) uniform (flags (u.ctx g))) : exec i s = .next (State.wordDone u (effect (u.ctx g) s)) := by
  rw [h.exec_eq]
  refine Ops.word_ok hi (fun hp => Bool.noConfusion (h.unprivileged.symm.trans hp)) ho hc ?_
  rw [signalled, fpe_none hn]

theorem trap (h : Signals i sig uniform flags effect) (hi : Issuing s u g) (ho : sig.opnd = true) (hc : Clear s (u.ctx g) sig.uses) {lane : Nat}
    (hl : ((u.ctx g).sigLanes uniform).find? (fun l => decide ((u.ctx g).enabled (flags (u.ctx g) l) ≠ 0)) = some lane) :
    exec i s = .next (s.wordTrapped u (fpeTrap (u.ctx g) (orAll (((u.ctx g).sigLanes uniform).map (flags (u.ctx g)))) lane)) := by
  rw [h.exec_eq]
  refine Ops.word_trap hi (fun hp => Bool.noConfusion (h.unprivileged.symm.trans hp)) ho hc ?_
  rw [signalled, fpe_some hl]

end Signals

/-! ### Words that write floating results -/

/-- A result in n registers. -/
def outOf (n : Nat) (r : FRes) : FOut := { words := regsOf n r.bits, flags := r.flags }

theorem one_eq_outOf (r : FRes) : r.one = outOf 1 r := by rw [outOf, regsOf_one, FRes.one]

/-- The two registers of a 64-bit result. -/
theorem pairList_ofNat (x : Nat) : pairList (.ofNat 64 x) = regsOf 2 x := by
  have hlow : loHalf (.ofNat 64 x) = .ofNat 32 (x / 2 ^ (32 * 0)) := by
    apply BitVec.eq_of_toNat_eq
    simp [loHalf]
  have hhigh : hiHalf (.ofNat 64 x) = .ofNat 32 (x / 2 ^ (32 * 1)) := by
    apply BitVec.eq_of_toNat_eq
    simp only [hiHalf, BitVec.toNat_setWidth, BitVec.toNat_ushiftRight, BitVec.toNat_ofNat, Nat.shiftRight_eq_div_pow]
    omega
  rw [pairList, hlow, hhigh]
  rfl

theorem two_eq_outOf (r : FRes) : r.two = outOf 2 r := by rw [outOf, ← pairList_ofNat, FRes.two]

/-- The two halves of a packed result, with the exceptions of both. -/
def joined (r : FRes × FRes) : FRes := { bits := r.1.bits + r.2.bits * 2 ^ 16, flags := r.1.flags ||| r.2.flags }

/-- The instruction is a short floating word of the register form: lane l computes `r c l` for n registers from d on. -/
def IsShort (i : Instr) (d : BitVec 7) (n : Nat) (src : List (BitVec 7 × Nat)) (r : Ctx → Nat → FRes) : Prop :=
  ∀ s, exec i s = Ops.fpu d n src (fun c l => outOf n (r c l)) s

namespace IsShort
variable {i : Instr} {d : BitVec 7} {n : Nat} {src : List (BitVec 7 × Nat)} {r : Ctx → Nat → FRes}

theorem of_one (h : ∀ s, exec i s = Ops.fpu d 1 src (fun c l => (r c l).one) s) : IsShort i d 1 src r := by
  simpa only [IsShort, ← one_eq_outOf] using h
theorem of_two (h : ∀ s, exec i s = Ops.fpu d 2 src (fun c l => (r c l).two) s) : IsShort i d 2 src r := by
  simpa only [IsShort, ← two_eq_outOf] using h

theorem congr {r' : Ctx → Nat → FRes} (h : IsShort i d n src r) (he : ∀ c l, r c l = r' c l) : IsShort i d n src r' := by
  obtain rfl : r = r' := funext₂ he
  exact h

theorem signals (h : IsShort i d n src r) :
    Signals i (rrrSig d n src) (isS d) (fun c l => (r c l).flags) fun c s => floatEffect s c d n fun l => ((r c l).bits, (r c l).flags) := by
  refine ⟨rfl, fun s => (h s).trans (congrArg (Ops.word _ · s) (funext₂ fun c s => ?_))⟩
  simp only [signalled, floatEffect, outOf, List.map_map]
  rfl

/-- The limits on the operands of the form. -/
abbrev Limits (d : BitVec 7) (n : Nat) (src : List (BitVec 7 × Nat)) : Prop :=
  (n = 2 → isEven d = true) ∧ (∀ e ∈ src, e.2 = 2 → isEven e.1 = true) ∧ uniformOk d (src.map (·.1))

theorem next (h : IsShort i d n src r) (hi : Issuing s u g) (hl : Limits d n src) (hc : Clear s (u.ctx g) (rrrSig d n src).uses) {f : Nat → FRes}
    (hf : ∀ l, f l = r (u.ctx g) l) (hn : noTrap (u.ctx g) (isS d) fun l => (f l).flags) :
    exec i s = .next (State.wordDone u (floatEffect s (u.ctx g) d n fun l => ((f l).bits, (f l).flags))) := by
  obtain rfl : f = r (u.ctx g) := funext hf
  exact h.signals.next hi ((rrrSig_opnd_iff d n src).2 hl) hc hn

end IsShort

/-! ### The words of the tables -/

theorem isShort_f32Two {e : Two × FloatFn} (he : e ∈ f32Two) (d a b : BitVec 7) :
    IsShort (e.1 d a b) d 1 [(a, 1), (b, 1)] fun c l => e.2 c.rm (c.rd a l).toNat (c.rd b l).toNat (c.rd d l).toNat := by
  simp only [f32Two, List.mem_cons, List.not_mem_nil, or_false] at he
  rcases he with rfl | rfl | rfl | rfl | rfl | rfl | rfl | rfl | rfl | rfl
  · exact .of_one fun _ => exec_addF32 ..
  · exact .of_one fun _ => exec_subF32 ..
  · exact .of_one fun _ => exec_mulF32 ..
  · exact .of_one fun _ => exec_fmaF32 ..
  · exact .of_one fun _ => exec_fmsF32 ..
  · exact .of_one fun _ => exec_minF32 ..
  · exact .of_one fun _ => exec_maxF32 ..
  · exact .of_one fun _ => exec_copysignF32 ..
  · exact .of_one fun _ => exec_dot2F32F16 ..
  · exact .of_one fun _ => exec_dot2F32Bf16 ..

theorem isShort_f32One {e : One × FloatFn} (he : e ∈ f32One) (d a : BitVec 7) :
    IsShort (e.1 d a) d 1 [(a, 1)] fun c l => e.2 c.rm (c.rd a l).toNat 0 0 := by
  simp only [f32One, List.mem_cons, List.not_mem_nil, or_false] at he
  rcases he with rfl | rfl | rfl | rfl | rfl | rfl | rfl | rfl | rfl | rfl | rfl | rfl | rfl | rfl | rfl
  · exact .of_one fun _ => exec_absF32 ..
  · exact .of_one fun _ => exec_negF32 ..
  · exact .of_one fun _ => exec_floorF32 ..
  · exact .of_one fun _ => exec_ceilF32 ..
  · exact .of_one fun _ => exec_truncF32 ..
  · exact .of_one fun _ => exec_rintF32 ..
  · exact .of_one fun _ => exec_fractF32 ..
  · exact .of_one fun _ => exec_cvtF32F16lo ..
  · exact .of_one fun _ => exec_cvtF32F16hi ..
  · exact .of_one fun _ => exec_cvtF32Bf16lo ..
  · exact .of_one fun _ => exec_cvtF32Bf16hi ..
  · exact (IsShort.of_one (r := fun c l => Fmt.f32.ofInt c.rm (sextN (c.rd a l).toNat 32)) fun _ => exec_cvtF32I32 ..).congr fun c l =>
      congrArg (Fmt.f32.ofInt c.rm) (sextN_eq_signed (by omega) _)
  · exact .of_one fun _ => exec_cvtF32N32 ..
  · exact .of_one fun _ => exec_cvtI32F32 ..
  · exact .of_one fun _ => exec_cvtN32F32 ..

theorem isShort_f64Two {e : Two × FloatFn} (he : e ∈ f64Two) (d a b : BitVec 7) :
    IsShort (e.1 d a b) d 2 [(a, 2), (b, 2)] fun c l => e.2 c.rm (c.rd64 a l).toNat (c.rd64 b l).toNat (c.rd64 d l).toNat := by
  simp only [f64Two, List.mem_cons, List.not_mem_nil, or_false] at he
  rcases he with rfl | rfl | rfl | rfl | rfl | rfl | rfl
  · exact .of_two fun _ => exec_addF64 ..
  · exact .of_two fun _ => exec_subF64 ..
  · exact .of_two fun _ => exec_mulF64 ..
  · exact .of_two fun _ => exec_fmaF64 ..
  · exact .of_two fun _ => exec_fmsF64 ..
  · exact .of_two fun _ => exec_minF64 ..
  · exact .of_two fun _ => exec_maxF64 ..

theorem isShort_f64One {e : One × Nat × Nat × FloatFn} (he : e ∈ f64One) (d a : BitVec 7) :
    IsShort (e.1 d a) d e.2.2.1 [(a, e.2.1)] fun c l => e.2.2.2 c.rm (c.num a e.2.1 l) 0 0 := by
  simp only [f64One, List.mem_cons, List.not_mem_nil, or_false] at he
  rcases he with rfl | rfl | rfl | rfl | rfl | rfl | rfl | rfl | rfl | rfl | rfl | rfl
  · exact .of_two fun _ => exec_absF64 ..
  · exact .of_two fun _ => exec_negF64 ..
  · exact .of_two fun _ => exec_floorF64 ..
  · exact .of_two fun _ => exec_ceilF64 ..
  · exact .of_two fun _ => exec_truncF64 ..
  · exact .of_two fun _ => exec_rintF64 ..
  · exact .of_two fun _ => exec_cvtF64F32 ..
  · exact .of_one fun _ => exec_cvtF32F64 ..
  · exact (IsShort.of_two (r := fun c l => Fmt.f64.ofInt c.rm (sextN (c.rd64 a l).toNat 64)) fun _ => exec_cvtF64I64 ..).congr fun c l =>
      congrArg (Fmt.f64.ofInt c.rm) (sextN_eq_signed (by omega) _)
  · exact .of_two fun _ => exec_cvtI64F64 ..
  · exact (IsShort.of_two (r := fun c l => Fmt.f64.ofInt c.rm (sextN (c.rd a l).toNat 32)) fun _ => exec_cvtF64I32 ..).congr fun c l =>
      congrArg (Fmt.f64.ofInt c.rm) (sextN_eq_signed (by omega) _)
  · exact .of_one fun _ => exec_cvtI32F64 ..

theorem isShort_halfTwo {e : Two × (RMode → Nat → Nat → Nat → FRes × FRes)} (he : e ∈ halfTwo) (d a b : BitVec 7) :
    IsShort (e.1 d a b) d 1 [(a, 1), (b, 1)] fun c l => joined (e.2 c.rm (c.rd a l).toNat (c.rd b l).toNat (c.rd d l).toNat) := by
  simp only [halfTwo, List.mem_cons, List.not_mem_nil, or_false] at he
  rcases he with rfl | rfl | rfl | rfl | rfl | rfl | rfl | rfl | rfl | rfl
  · exact .of_one fun _ => exec_addF16x2 ..
  · exact .of_one fun _ => exec_mulF16x2 ..
  · exact .of_one fun _ => exec_fmaF16x2 ..
  · exact .of_one fun _ => exec_minF16x2 ..
  · exact .of_one fun _ => exec_maxF16x2 ..
  · exact .of_one fun _ => exec_addBf16x2 ..
  · exact .of_one fun _ => exec_mulBf16x2 ..
  · exact .of_one fun _ => exec_fmaBf16x2 ..
  · exact .of_one fun _ => exec_cvtF16x2F32 ..
  · exact .of_one fun _ => exec_cvtBf16x2F32 ..

/-! ### The words without a trap -/

theorem binary32Words_holds : binary32Words :=
  ⟨fun e he d a b s u g f hi hu hc hf hn => (isShort_f32Two he d a b).next hi ⟨by simp, by simp, hu⟩ hc hf hn,
    fun e he d a s u g f hi hu hc hf hn => (isShort_f32One he d a).next hi ⟨by simp, by simp, hu⟩ hc hf hn⟩

theorem packedHalfWords_holds : packedHalfWords := fun e he d a b s u g f hi hu hc hf hn =>
  (isShort_halfTwo he d a b).next (f := fun l => joined (f l)) hi ⟨by simp, by simp, hu⟩ hc (fun l => congrArg joined (hf l)) hn

/-- Settles O50, part by part. -/
theorem binary32AndHalfWords : Obligations.Binary32AndHalfWords := by
  unfold Obligations.Binary32AndHalfWords
  exact ⟨binary32Words_holds, packedHalfWords_holds⟩

/-- Settles O11: the words of two pairs, then those whose operands the table counts. -/
theorem binary64Words : Obligations.Binary64Words := by
  unfold Obligations.Binary64Words
  refine ⟨fun e he d a b s u g f hi hd ha hb hu hc hf hn => ?_, fun e he d a s u g f hi hd ha hu hc hf hn => ?_⟩
  · exact (isShort_f64Two he d a b).next hi ⟨fun _ => hd, by simp [ha, hb], hu⟩ hc hf hn
  · exact (isShort_f64One he d a).next hi ⟨hd, by simpa using ha, hu⟩ hc hf hn

/-! ### Compares -/

theorem fcmp_congr {n : Nat} {d : BitVec 3} {a b : BitVec 7} {f f' : Nat → Nat → Bool} {flags : Nat → Nat → Nat} (h : ∀ x y, f x y = f' x y) :
    Ops.fcmp n d a b f flags s = Ops.fcmp n d a b f' flags s := by rw [funext₂ h]

/-- Equality is order both ways. -/
theorem eq_eq_inOrder (f : Fmt) (a b : Nat) : f.eq a b = (inOrder f false a b && inOrder f false b a) := by
  have hval : decide (f.value a = f.value b) = (decide (f.value a ≤ f.value b) && decide (f.value b ≤ f.value a)) := by
    rw [← Bool.decide_and, decide_eq_decide]
    exact le_antisymm_iff
  rw [Fmt.eq, hval, inOrder, inOrder]
  cases f.isNan a <;> cases f.isNan b <;> simp

/-- A compare gives each lane the relation of its table, and signals what the table says. -/
theorem exec_floatCompares {e : Compare × Nat × Fmt × (Nat → Nat → Bool) × Bool} (he : e ∈ floatCompares) (d : BitVec 3) (a b : BitVec 7) :
    exec (e.1 d a b) s = Ops.fcmp e.2.1 d a b e.2.2.2.1 (compareFlags e.2.2.1 e.2.2.2.2) s := by
  simp only [floatCompares, List.zip_cons_cons, List.zip_nil_left, List.cons_append, List.nil_append, List.mem_cons, List.not_mem_nil, or_false] at he
  rcases he with rfl | rfl | rfl | rfl | rfl | rfl | rfl | rfl | rfl | rfl | rfl | rfl | rfl | rfl | rfl | rfl
  · exact (exec_fcmpEqF32 ..).trans (fcmp_congr (eq_eq_inOrder _))
  · exact (exec_fcmpNeF32 ..).trans (fcmp_congr fun x y => congrArg (! ·) (eq_eq_inOrder _ x y))
  · exact exec_fcmpLtF32 ..
  · exact exec_fcmpLeF32 ..
  · exact exec_fcmpGtF32 ..
  · exact exec_fcmpGeF32 ..
  · exact (exec_fcmpOrdF32 ..).trans (fcmp_congr fun _ _ => Bool.not_or ..)
  · exact exec_fcmpUnordF32 ..
  · exact (exec_fcmpEqF64 ..).trans (fcmp_congr (eq_eq_inOrder _))
  · exact (exec_fcmpNeF64 ..).trans (fcmp_congr fun x y => congrArg (! ·) (eq_eq_inOrder _ x y))
  · exact exec_fcmpLtF64 ..
  · exact exec_fcmpLeF64 ..
  · exact exec_fcmpGtF64 ..
  · exact exec_fcmpGeF64 ..
  · exact (exec_fcmpOrdF64 ..).trans (fcmp_congr fun _ _ => Bool.not_or ..)
  · exact exec_fcmpUnordF64 ..

/-- The effect of a compare: each active lane's outcome in the mask, and what the lanes signal in FPFLAGS. -/
def compareEffect (d : BitVec 3) (uniform : Bool) (outcome : Ctx → Nat → Bool) (flags : Ctx → Nat → Nat) (c : Ctx) (s : State) : State :=
  State.orFlags (s.putMask c d.toNat (c.whereIn (outcome c))) c (orAll ((c.sigLanes uniform).map (flags c)))

theorem signals_floatCompares {e : Compare × Nat × Fmt × (Nat → Nat → Bool) × Bool} (he : e ∈ floatCompares) (d : BitVec 3) (a b : BitVec 7) :
    Signals (e.1 d a b) { priv := false, opnd := regOk a e.2.1 && regOk b e.2.1, uses := [useN a e.2.1, useN b e.2.1] } (isS a && isS b)
      (fun c l => compareFlags e.2.2.1 e.2.2.2.2 (c.num a e.2.1 l) (c.num b e.2.1 l))
      (compareEffect d (isS a && isS b) (fun c l => e.2.2.2.1 (c.num a e.2.1 l) (c.num b e.2.1 l))
        fun c l => compareFlags e.2.2.1 e.2.2.2.2 (c.num a e.2.1 l) (c.num b e.2.1 l)) := by
  refine ⟨rfl, fun s => (exec_floatCompares he d a b).trans (congrArg (Ops.word _ · s) (funext₂ fun c s => ?_))⟩
  simp only [signalled, compareEffect, List.map_map]
  rfl

theorem compare_opnd {a b : BitVec 7} {n : Nat} (h : n = 2 → isEven a = true ∧ isEven b = true) : (regOk a n && regOk b n) = true :=
  Bool.and_eq_true_iff.2 ⟨(regOk_iff a n).2 fun hn => (h hn).1, (regOk_iff b n).2 fun hn => (h hn).2⟩

/-! ### Traps -/

theorem signals_derivatives {e : One × (Nat → Nat) × (Nat → Nat)} (he : e ∈ derivatives) (d a : BitVec 7) :
    ∃ effect, Signals (e.1 d a) { priv := false, opnd := !isS d, uses := [use d, use a] } false
      (fun c l => (slope c a (e.2.1 l) (e.2.2 l)).flags) effect := by
  refine ⟨fun c s => State.orFlags (s.putRegs c d.toNat fun l => (slope c a (e.2.1 l) (e.2.2 l)).one.words) c
    (orAll ((members c.exec).map fun l => (slope c a (e.2.1 l) (e.2.2 l)).flags)), rfl,
    fun s => (exec_derivatives he d a).trans (congrArg (Ops.word _ · s) (funext₂ fun c s => ?_))⟩
  simp only [deriv_eq_slope, signalled, List.map_map]
  rfl

theorem slope_flags (c : Ctx) (a : BitVec 7) (p q : Nat) : (slope c a p q).flags =
    if c.exec.getLsbD p = true ∧ c.exec.getLsbD q = true then (Fmt.f32.sub c.rm (c.rd a q).toNat (c.rd a p).toNat).flags else 0x20 := by
  rw [Reductions.slope, apply_ite FRes.flags]

/-- In this context the instruction signals these exceptions, its operands are within their limits, and it names these registers. -/
def SignalsIn (c : Ctx) (i : Instr) (uses : List Use) (uniform : Bool) (fl : Nat → Nat) : Prop :=
  ∃ sig flags effect, Signals i sig uniform flags effect ∧ sig.opnd = true ∧ sig.uses = uses ∧ flags c = fl

theorem IsShort.signalsIn {c : Ctx} {i : Instr} {d : BitVec 7} {n : Nat} {src : List (BitVec 7 × Nat)} {r : Ctx → Nat → FRes} {fl : Nat → Nat}
    (h : IsShort i d n src r) (hl : Limits d n src) (hf : ∀ l, fl l = (r c l).flags) : SignalsIn c i (rrrSig d n src).uses (isS d) fl :=
  ⟨_, _, _, h.signals, (rrrSig_opnd_iff d n src).2 hl, rfl, (funext hf).symm⟩

theorem signalsIn_of_floatWord {c : Ctx} {i : Instr} {uses : List Use} {uniform : Bool} {fl : Nat → Nat} (h : FloatWord i c uses uniform fl) :
    SignalsIn c i uses uniform fl := by
  rcases h with ⟨e, he, d, a, b, rfl, hu, rfl, rfl, hf⟩ | ⟨e, he, d, a, rfl, hu, rfl, rfl, hf⟩ |
    ⟨e, he, d, a, b, rfl, hd, ha, hb, hu, rfl, rfl, hf⟩ | ⟨e, he, d, a, rfl, hd, ha, hu, rfl, rfl, hf⟩ |
    ⟨e, he, d, a, b, f, rfl, hu, rfl, rfl, hr, hf⟩ | ⟨e, he, d, a, b, rfl, hl, rfl, rfl, hf⟩ | ⟨e, he, d, a, rfl, hd, rfl, rfl, hf⟩
  · exact (isShort_f32Two he d a b).signalsIn ⟨by simp, by simp, hu⟩ hf
  · exact (isShort_f32One he d a).signalsIn ⟨by simp, by simp, hu⟩ hf
  · exact (isShort_f64Two he d a b).signalsIn ⟨fun _ => hd, by simp [ha, hb], hu⟩ hf
  · exact (isShort_f64One he d a).signalsIn ⟨hd, by simpa using ha, hu⟩ hf
  · exact (isShort_halfTwo he d a b).signalsIn ⟨by simp, by simp, hu⟩ fun l => (hf l).trans (congrArg (fun x => (joined x).flags) (hr l))
  · exact ⟨_, _, _, signals_floatCompares he d a b, compare_opnd hl, rfl, (funext hf).symm⟩
  · obtain ⟨effect, hsig⟩ := signals_derivatives he d a
    exact ⟨_, _, effect, hsig, by simp [hd], rfl, funext fun l => (slope_flags ..).trans (hf l).symm⟩

/-- Settles O15: every short floating word, compare and derivative signals before it has an effect. -/
theorem floatingTraps : Obligations.FloatingTraps := by
  unfold Obligations.FloatingTraps
  intro i uses uniform s u g fl en lane hi hw hc hen hl
  obtain ⟨sig, flags, effect, hsig, ho, rfl, rfl⟩ := signalsIn_of_floatWord hw
  subst hen
  exact hsig.trap hi ho hc hl

/-- Settles O12: each relation of the table is an order or its absence, and the compare runs in the form of the words that signal. -/
theorem floatCompares : Obligations.FloatCompares := by
  unfold Obligations.FloatCompares
  intro e he d a b s u g fl hi hl hc hf hn
  obtain rfl : fl = fun l => compareFlags e.2.2.1 e.2.2.2.2 ((u.ctx g).num a e.2.1 l) ((u.ctx g).num b e.2.1 l) := funext hf
  exact (signals_floatCompares he d a b).next hi (compare_opnd hl) hc hn

end Sys2Proof.FloatWords

/-! The long-latency floating words (06 R113, R116, R121, R126) and the geometry words (06 R129-R131, 13 R290-R293): what each puts under way. -/

namespace Sys2Proof.LongFloatWords

open Sys2Proof.Machine Sys2Proof.Claims Sys2Proof.IntegerWords Sys2Proof.OperandChecks Sys2Proof.LaneWords Sys2Proof.FloatWords

variable {s : State} {u : Issue} {g : Group}

/-! ### Words under way -/

/-- What a word holds that computes its results at issue: the marks of its destination and the results, by lane or once. -/
theorem longOp_results (c : Ctx) (d : BitVec 7) (n : Nat) (xs : Nat → List Word) : (c.longOp.marks d n).results c d xs = slowOp c d n xs 0 none := by
  by_cases hd : isS d = true
  · have h96 : 96 ≤ d.toNat := of_decide_eq_true hd
    have hmarks : ((List.range n).map (d.toNat + ·)).map (· - 96) = (List.range n).map (d.toNat - 96 + ·) := by
      rw [List.map_map]
      exact List.map_congr_left fun i _ => Nat.sub_add_comm h96
    simp [Ctx.longOp, LongOp.marks, LongOp.results, slowOp, hd, ← hmarks]
  · simp [Ctx.longOp, LongOp.marks, LongOp.results, slowOp, hd]

/-- What a long-latency floating word holds: its results, what its lanes signal, and the FPE it will raise in their place. -/
def slowFloat (c : Ctx) (d : BitVec 7) (n : Nat) (f : Nat → FRes) : LongOp :=
  slowOp c d n (fun l => regsOf n (f l).bits) (orAll ((c.sigLanes (isS d)).map fun l => (f l).flags))
    ((c.fpe ((c.sigLanes (isS d)).map fun l => (l, (f l).flags))).map (Trap.late c))

/-- The instruction is a long-latency floating word of the register form. -/
def IsLong (i : Instr) (d : BitVec 7) (n : Nat) (src : List (BitVec 7 × Nat)) (r : Ctx → Nat → FRes) : Prop :=
  ∀ s, exec i s = Ops.fpuLong d n src (fun c l => outOf n (r c l)) s

namespace IsLong
variable {i : Instr} {d : BitVec 7} {n : Nat} {src : List (BitVec 7 × Nat)} {r : Ctx → Nat → FRes}

theorem of_one (h : ∀ s, exec i s = Ops.fpuLong d 1 src (fun c l => (r c l).one) s) : IsLong i d 1 src r := by
  simpa only [IsLong, ← one_eq_outOf] using h
theorem of_two (h : ∀ s, exec i s = Ops.fpuLong d 2 src (fun c l => (r c l).two) s) : IsLong i d 2 src r := by
  simpa only [IsLong, ← two_eq_outOf] using h

theorem next (h : IsLong i d n src r) (hi : Issuing s u g) (hl : IsShort.Limits d n src) (hc : Clear s (u.ctx g) (rrrSig d n src).uses)
    (hroom : flagRoom s (u.ctx g)) {f : Nat → FRes} (hf : ∀ l, f l = r (u.ctx g) l) :
    exec i s = .next (State.wordDone u (slowEffect s (u.ctx g) (slowFloat (u.ctx g) d n f))) := by
  obtain rfl : f = r (u.ctx g) := funext hf
  rw [h]
  refine Ops.word_ok hi (fun hp => nomatch hp) ((rrrSig_opnd_iff d n src).2 hl) hc ?_
  simp only [longOp_results, List.map_map]
  exact issueLong_next hi.2.1 hroom _

end IsLong

theorem isLong_slowOne {e : One × Nat × (RMode → Nat → FRes)} (he : e ∈ slowOne) (d a : BitVec 7) :
    IsLong (e.1 d a) d e.2.1 [(a, e.2.1)] fun c l => e.2.2 c.rm (c.num a e.2.1 l) := by
  simp only [slowOne, List.mem_cons, List.not_mem_nil, or_false] at he
  rcases he with rfl | rfl | rfl | rfl | rfl | rfl | rfl | rfl
  · exact .of_one fun _ => exec_exp2F32 ..
  · exact .of_one fun _ => exec_log2F32 ..
  · exact .of_one fun _ => exec_rcpF32 ..
  · exact .of_one fun _ => exec_rsqF32 ..
  · exact .of_one fun _ => exec_sqrtF32 ..
  · exact .of_one fun _ => exec_sin2piF32 ..
  · exact .of_one fun _ => exec_cos2piF32 ..
  · exact .of_two fun _ => exec_sqrtF64 ..

theorem isLong_slowTwo {e : Two × Nat × (RMode → Nat → Nat → FRes)} (he : e ∈ slowTwo) (d a b : BitVec 7) :
    IsLong (e.1 d a b) d e.2.1 [(a, e.2.1), (b, e.2.1)] fun c l => e.2.2 c.rm (c.num a e.2.1 l) (c.num b e.2.1 l) := by
  simp only [slowTwo, List.mem_cons, List.not_mem_nil, or_false] at he
  rcases he with rfl | rfl
  · exact .of_one fun _ => exec_divF32 ..
  · exact .of_two fun _ => exec_divF64 ..

/-- Settles O13: the words of one source, then those of two. -/
theorem longFloatingWords : Obligations.LongFloatingWords := by
  unfold Obligations.LongFloatingWords
  refine ⟨fun e he d a s u g f hi hl hu hc hroom hf => ?_, fun e he d a b s u g f hi hl hu hc hroom hf => ?_⟩
  · exact (isLong_slowOne he d a).next hi ⟨fun h => (hl h).1, by simpa using fun h => (hl h).2, hu⟩ hc hroom hf
  · refine (isLong_slowTwo he d a b).next hi ⟨fun h => (hl h).1, ?_, hu⟩ hc hroom hf
    simpa using ⟨fun h => (hl h).2.1, fun h => (hl h).2.2⟩

end Sys2Proof.LongFloatWords

namespace Sys2Proof.GeometryWords

open Sys2Proof.Machine Sys2Proof.Claims Sys2Proof.IntegerWords Sys2Proof.OperandChecks Sys2Proof.LaneWords Sys2Proof.FloatWords Sys2Proof.LongFloatWords

variable {s : State} {u : Issue} {g : Group}

/-! ### What the words compute -/

theorem le_iff (f : Fmt) (a b : Nat) : f.le a b = true ↔ f.isNan a = false ∧ f.isNan b = false ∧ f.value a ≤ f.value b := by
  simp [Fmt.le, and_assoc]

theorem rboxOf_eq (ray box : Nat → Nat) : rboxOf ray box = boxHit ray box := if_congr (le_iff ..) rfl rfl

theorem rtriOf_eq (ray m : Nat → Nat) : rtriOf ray m = triangleHit ray m := by
  unfold rtriOf triangleHit
  simp only [eq_eq_inOrder]
  rfl

/-- A register read as a signed number. -/
theorem signed_toNat (x : Word) : signed 32 x.toNat = x.toInt := by
  rw [← toInt_ofNat_eq_signed (by omega), BitVec.ofNat_toNat, BitVec.setWidth_eq]

theorem signedOf_eq_coord (c : Ctx) (f : BitVec 7) (l : Nat) : (Claims.signedOf fun i => (c.rdN (f.toNat + i) l).toNat) = fun i => c.coord f i l :=
  funext fun _ => signed_toNat _

/-- The two registers of a 64-bit integer. -/
theorem pairList_ofInt (k : Int) : pairList (.ofInt 64 k) = [.ofNat 32 (k % 2 ^ 32).toNat, .ofNat 32 (k / 2 ^ 32 % 2 ^ 32).toNat] := by
  have hlow : loHalf (.ofInt 64 k) = .ofNat 32 (k % 2 ^ 32).toNat := by
    apply BitVec.eq_of_toNat_eq
    simp only [loHalf, BitVec.toNat_setWidth, BitVec.toNat_ofInt, BitVec.toNat_ofNat]
    omega
  have hhigh : hiHalf (.ofInt 64 k) = .ofNat 32 (k / 2 ^ 32 % 2 ^ 32).toNat := by
    apply BitVec.eq_of_toNat_eq
    simp only [hiHalf, BitVec.toNat_setWidth, BitVec.toNat_ushiftRight, BitVec.toNat_ofInt, BitVec.toNat_ofNat, Nat.shiftRight_eq_div_pow]
    omega
  rw [pairList, hlow, hhigh]

theorem ofInt_eq_ofNat_mod (k : Int) : BitVec.ofInt 32 k = .ofNat 32 (k % 2 ^ 32).toNat := by
  apply BitVec.eq_of_toNat_eq
  simp only [BitVec.toNat_ofInt, BitVec.toNat_ofNat]
  omega

/-- A coordinate outside 23 bits. -/
theorem far_eq_not_inside (x : Int) : (decide (x < -2 ^ 22) || decide (2 ^ 22 - 1 < x)) = !(decide (-2 ^ 22 ≤ x) && decide (x ≤ 2 ^ 22 - 1)) := by
  rw [Bool.not_and, ← decide_not, ← decide_not]
  simp only [not_le]

theorem edgeOf_eq (p q : Nat → Int) : edgeOf (p 0) (p 1) (q 0) (q 1) = (edgeCoefficients p q).map (BitVec.ofNat 32) := by
  simp only [edgeOf, edgeCoefficients, far_eq_not_inside, ← Bool.not_and, Bool.and_assoc, pairList_ofInt, ofInt_eq_ofNat_mod, List.all_cons,
    List.all_nil, Bool.and_true]
  split
  next h =>
    rw [Bool.not_eq_true'] at h
    simp only [h]
    rfl
  next h =>
    rw [Bool.not_eq_true', Bool.not_eq_false] at h
    simp only [h]
    rfl

theorem cullbf_word (w : Int) : (if 0 < w then 1 else if w < 0 then 0xFFFFFFFF else 0 : Word) = .ofNat 32 (w.sign % 2 ^ 32).toNat := by
  rcases lt_trichotomy w 0 with h | h | h
  · rw [if_neg (by omega), if_pos h, Int.sign_eq_neg_one_of_neg h]
    rfl
  · subst h
    rfl
  · rw [if_pos h, Int.sign_eq_one_of_pos h]
    rfl

/-! ### Words on blocks -/

theorem blockOk_iff (f : BitVec 7) (n : Nat) : blockOk f n = true ↔ inBlock f n := by simp [blockOk]

theorem blockSig_opnd_iff (d : BitVec 7) (n : Nat) (src : List (BitVec 7 × Nat)) :
    (blockSig d n src).opnd = true ↔ inBlock d n ∧ (∀ e ∈ src, inBlock e.1 e.2) ∧ uniformOk d (src.map (·.1)) := by
  have huni : (!isS d || src.all fun e => isS e.1) = true ↔ uniformOk d (src.map (·.1)) := by
    simp only [Bool.or_eq_true, Bool.not_eq_true', List.all_eq_true, uniformOk, List.forall_mem_map]
    cases isS d <;> simp
  simp only [blockSig, Bool.and_eq_true, blockOk_iff, List.all_eq_true, huni, and_assoc]

/-- The instruction is a geometry word that puts `xs c l` for lane l under way, with these limits on its blocks. -/
def IsGeo (i : Instr) (d : BitVec 7) (n : Nat) (src : List (BitVec 7 × Nat)) (limits : Prop) (xs : Ctx → Nat → List Word) : Prop :=
  ∃ sig : Sig, sig.priv = false ∧ sig.uses = useN d n :: src.map (fun e => useN e.1 e.2) ∧ (sig.opnd = true ↔ limits) ∧
    ∀ s, exec i s = Ops.geo sig d n xs s

namespace IsGeo
variable {i : Instr} {d : BitVec 7} {n : Nat} {src : List (BitVec 7 × Nat)} {limits : Prop} {xs : Ctx → Nat → List Word}

theorem of_blocks (h : ∀ s, exec i s = Ops.geo (blockSig d n src) d n xs s) :
    IsGeo i d n src (inBlock d n ∧ (∀ e ∈ src, inBlock e.1 e.2) ∧ uniformOk d (src.map (·.1))) xs :=
  ⟨_, rfl, rfl, blockSig_opnd_iff d n src, h⟩

theorem congr {xs' : Ctx → Nat → List Word} (h : IsGeo i d n src limits xs) (he : ∀ c l, xs c l = xs' c l) : IsGeo i d n src limits xs' := by
  obtain rfl : xs = xs' := funext₂ he
  exact h

theorem next (h : IsGeo i d n src limits xs) (hi : Issuing s u g) (hl : limits)
    (hc : Clear s (u.ctx g) (useN d n :: src.map fun e => useN e.1 e.2)) (hroom : flagRoom s (u.ctx g)) :
    exec i s = .next (State.wordDone u (slowEffect s (u.ctx g) (slowOp (u.ctx g) d n (xs (u.ctx g)) 0 none))) := by
  obtain ⟨sig, hp, huses, ho, hx⟩ := h
  rw [← huses] at hc
  rw [hx]
  refine Ops.word_ok hi (fun h => Bool.noConfusion (hp.symm.trans h)) (ho.2 hl) hc ?_
  simp only [longOp_results]
  exact issueLong_next hi.2.1 hroom _

theorem trap (h : IsGeo i d n src limits xs) (hi : Issuing s u g) (hn : u.snap = none) (hl : ¬ limits) :
    exec i s = .next (s.wordTrapped u ((u.ctx g).trap 5 0x05)) := by
  obtain ⟨sig, hp, -, ho, hx⟩ := h
  rw [hx]
  exact word_opnd hi hn hp (Bool.eq_false_iff.2 fun h => hl (ho.1 h))

end IsGeo

/-- The limits of a word of two blocks; the pair K of `edgec` stands in an even register. -/
abbrev BlockTwoLimits (d a b : BitVec 7) (n na nb : Nat) : Prop :=
  (inBlock d n ∧ inBlock a na ∧ inBlock b nb) ∧ uniformOk d [a, b] ∧ (n = 4 → isEven d = true)

/-- Two blocks, where the destination is no pair. -/
theorem IsGeo.of_two {i : Instr} {d a b : BitVec 7} {n na nb : Nat} {xs : Ctx → Nat → List Word}
    (h : ∀ s, exec i s = Ops.geo (blockSig d n [(a, na), (b, nb)]) d n xs s) (hn : n ≠ 4) :
    IsGeo i d n [(a, na), (b, nb)] (BlockTwoLimits d a b n na nb) xs :=
  ⟨_, rfl, rfl, (blockSig_opnd_iff ..).trans (by simp [hn, and_assoc]), h⟩

theorem isGeo_blockTwo {e : Two × Nat × Nat × Nat × ((Nat → Nat) → (Nat → Nat) → List Nat)} (he : e ∈ blockTwo) (d a b : BitVec 7) :
    IsGeo (e.1 d a b) d e.2.1 [(a, e.2.2.1), (b, e.2.2.2.1)] (BlockTwoLimits d a b e.2.1 e.2.2.1 e.2.2.2.1) fun c l =>
      (e.2.2.2.2 (fun i => (c.rdN (a.toNat + i) l).toNat) fun i => (c.rdN (b.toNat + i) l).toNat).map (BitVec.ofNat 32) := by
  simp only [blockTwo, List.mem_cons, List.not_mem_nil, or_false] at he
  rcases he with rfl | rfl | rfl
  · exact (IsGeo.of_two (fun _ => exec_rbox ..) (by omega)).congr fun c l => by rw [rboxOf_eq]; rfl
  · exact (IsGeo.of_two (fun _ => exec_rtri ..) (by omega)).congr fun c l => by rw [rtriOf_eq]; rfl
  · refine IsGeo.congr (xs := fun c l => edgeOf (c.coord a 0 l) (c.coord a 1 l) (c.coord b 0 l) (c.coord b 1 l))
      ⟨_, rfl, rfl, ?_, fun _ => exec_edgec ..⟩ fun c l => ?_
    · rw [Bool.and_eq_true, blockSig_opnd_iff]
      simp [and_assoc]
    · simp only [signedOf_eq_coord]
      exact edgeOf_eq (fun i => c.coord a i l) fun i => c.coord b i l

theorem isGeo_blockOne {e : One × ((Nat → Int) → Nat)} (he : e ∈ blockOne) (d a : BitVec 7) :
    IsGeo (e.1 d a) d 1 [(a, 6)] (inBlock d 1 ∧ (∀ x ∈ [(a, 6)], inBlock x.1 x.2) ∧ uniformOk d [a]) fun c l =>
      [.ofNat 32 (e.2 (Claims.signedOf fun i => (c.rdN (a.toNat + i) l).toNat))] := by
  simp only [blockOne, List.mem_cons, List.not_mem_nil, or_false] at he
  rcases he with rfl | rfl
  · refine (IsGeo.of_blocks fun _ => exec_cullbf ..).congr fun c l => ?_
    rw [signedOf_eq_coord]
    exact congrArg (fun x => [x]) (cullbf_word _)
  · refine (IsGeo.of_blocks fun _ => exec_cullbx ..).congr fun c l => ?_
    rw [signedOf_eq_coord]
    exact congrArg (fun x => [x]) (apply_ite (BitVec.ofNat 32) _ 1 0).symm

/-- Settles O16: the words of two blocks, then those of one. -/
theorem geometryWords : Obligations.GeometryWords := by
  unfold Obligations.GeometryWords
  refine ⟨fun e he d a b s u g hi => ⟨fun hd ha hb hu hev hc hroom => ?_, fun hn hbad => ?_⟩,
    fun e he d a s u g hi => ⟨fun hd ha hu hc hroom => ?_, fun hn hbad => ?_⟩⟩
  · exact (isGeo_blockTwo he d a b).next hi ⟨⟨hd, ha, hb⟩, hu, hev⟩ hc hroom
  · refine (isGeo_blockTwo he d a b).trap hi hn fun ⟨hblocks, hu, hev⟩ => ?_
    rcases hbad with hbad | ⟨hs, hbad⟩ | ⟨h4, hbad⟩
    · exact hbad hblocks
    · simp [hu hs] at hbad
    · exact Bool.noConfusion (hbad.symm.trans (hev h4))
  · exact (isGeo_blockOne he d a).next hi ⟨hd, by simpa using ha, hu⟩ hc hroom
  · refine (isGeo_blockOne he d a).trap hi hn fun ⟨hd, ha, hu⟩ => ?_
    rcases hbad with hbad | ⟨hs, hbad⟩
    · exact hbad ⟨hd, by simpa using ha⟩
    · simp [hu hs] at hbad

end Sys2Proof.GeometryWords

/-! Address translation: the walk of the tables and the translations it leaves held (08 R168-R172). -/

namespace Sys2Proof.Translation

open Sys2Proof.Machine Sys2Proof.Claims Sys2Proof.Scheduling

variable {s t : State} {core ctx space root va lvl : Nat} {k : Access} {priv : Bool} {x : Xlat} {e : TlbEntry}

/-! ### Leaves -/

theorem permitted_iff (k : Access) (priv w x u : Bool) :
    k.permitted priv w x u = true ↔ (priv = true ∨ u = true) ∧ (k = .write ∨ k = .atomic → w = true) ∧ (k = .fetch → x = true) := by
  cases k <;> simp [Access.permitted]

theorem beyond_iff (space pa : Nat) : Xlat.beyond space pa = true ↔ ¬ (space = 1 ∨ space = 2) ∧ 2 ^ 39 ≤ pa := by
  simp [Xlat.beyond]

/-- The two checks a leaf makes, before its translation x. -/
def leafChecks (permitted : Bool) (lvl space : Nat) (k : Access) (x : Xlat) : Except PtrFault Xlat :=
  if !permitted then .error { cause := 0x0B, level := .ofNat 3 lvl, kind := k.code }
  else if Xlat.beyond space x.pa then .error { cause := 0x0A, level := .ofNat 3 lvl, kind := k.code }
  else .ok x

theorem leafChecks_gives {permitted : Bool} {allowed : Prop} (h : permitted = true ↔ allowed) (lvl space : Nat) (k : Access) (x : Xlat) :
    leafGives (leafChecks permitted lvl space k x) lvl space x.pa x.type k allowed := by
  refine ⟨fun hn => ?_, fun ha hs hpa => ?_, fun ha hpa => ⟨x, ?_, rfl, rfl⟩⟩
  · have hp : permitted = false := Bool.eq_false_iff.2 fun hp => hn (h.1 hp)
    simp [leafChecks, hp]
  · have hb : Xlat.beyond space x.pa = true := (beyond_iff ..).2 ⟨hs, hpa⟩
    simp [leafChecks, h.2 ha, hb]
  · have hb : Xlat.beyond space x.pa = false := Bool.eq_false_iff.2 fun hb => by
      obtain ⟨hs, hle⟩ := (beyond_iff ..).1 hb
      omega
    simp [leafChecks, h.2 ha, hb]

theorem leafChecks_ok {permitted : Bool} {y : Xlat} (h : leafChecks permitted lvl space k y = .ok x) :
    permitted = true ∧ Xlat.beyond space y.pa = false ∧ y = x := by
  unfold leafChecks at h
  split at h
  · cases h
  next hp =>
    split at h
    · cases h
    next hb => exact ⟨by simpa using hp, by simpa using hb, Except.ok.inj h⟩

/-! ### One level of the walk -/

/-- The entry of a level that the walk of an address reads in the table at `table`. -/
def entryIn (s : State) (va lvl table : Nat) : Nat := s.readNat (table + 8 * bitsAt va (Xlat.shift lvl) 9) 8

theorem readNat_eq_entryIn (s : State) (va lvl table : Nat) : s.readNat (table + 8 * bitsAt va (Xlat.shift lvl) 9) 8 = entryIn s va lvl table := rfl

/-- An entry of this level ends the walk. -/
def IsLeaf (lvl ent : Nat) : Prop := lvl = 5 ∨ (lvl = 4 ∧ ent.testBit 1 = true)

/-- The translation that a leaf of a level gives. -/
def leafXlat (va lvl ent : Nat) : Xlat :=
  { pa := bitsAt ent (Xlat.shift lvl) (52 - Xlat.shift lvl) * 2 ^ Xlat.shift lvl + va % 2 ^ Xlat.shift lvl, type := bitsAt ent 6 2, level := lvl,
    w := ent.testBit 2, x := ent.testBit 3, u := ent.testBit 4, c := lvl == 5 && ent.testBit 5 }

section
variable {rest : List Nat} {table : Nat}

theorem walkFrom_invalid (hv : (entryIn s va lvl table).testBit 0 = false) :
    s.walkFrom space va k priv (lvl :: rest) table = .error { cause := 0x09, level := .ofNat 3 lvl, kind := k.code } := by
  simp only [State.walkFrom, readNat_eq_entryIn, hv, Bool.not_false, if_true]

theorem walkFrom_reserved (hv : (entryIn s va lvl table).testBit 0 = true) (hr : Xlat.reserved lvl (entryIn s va lvl table) = true) :
    s.walkFrom space va k priv (lvl :: rest) table = .error { cause := 0x0A, level := .ofNat 3 lvl, kind := k.code } := by
  simp only [State.walkFrom, readNat_eq_entryIn, hv, hr, Bool.not_true, Bool.false_eq_true, if_false, if_true]

theorem isLeaf_iff (lvl ent : Nat) : (lvl == 5 || (lvl == 4 && ent.testBit 1)) = true ↔ IsLeaf lvl ent := by
  simp [IsLeaf]

theorem walkFrom_next (hv : (entryIn s va lvl table).testBit 0 = true) (hr : Xlat.reserved lvl (entryIn s va lvl table) = false)
    (hn : ¬ IsLeaf lvl (entryIn s va lvl table)) :
    s.walkFrom space va k priv (lvl :: rest) table = s.walkFrom space va k priv rest (bitsAt (entryIn s va lvl table) 12 40 * 2 ^ 12) := by
  simp only [State.walkFrom, readNat_eq_entryIn, hv, hr, isLeaf_iff, hn, Bool.not_true, Bool.false_eq_true, if_false]

theorem walkFrom_leaf (hv : (entryIn s va lvl table).testBit 0 = true) (hr : Xlat.reserved lvl (entryIn s va lvl table) = false)
    (hl : IsLeaf lvl (entryIn s va lvl table)) :
    s.walkFrom space va k priv (lvl :: rest) table = leafChecks (k.permitted priv ((entryIn s va lvl table).testBit 2)
      ((entryIn s va lvl table).testBit 3) ((entryIn s va lvl table).testBit 4)) lvl space k (leafXlat va lvl (entryIn s va lvl table)) := by
  simp only [State.walkFrom, readNat_eq_entryIn, hv, hr, isLeaf_iff, hl, Bool.not_true, Bool.false_eq_true, if_false, if_true]
  rfl

end

/-! ### What a walk finds -/

/-- x is what a leaf that passed every check of R168 gives an access to va. -/
structure IsXlat (space va : Nat) (k : Access) (priv : Bool) (x : Xlat) : Prop where
  permitted : k.permitted priv x.w x.x x.u = true
  within : Xlat.beyond space x.pa = false
  pa_lt : x.pa < 2 ^ 52
  offset : (x.level = 4 ∧ x.c = false ∧ x.pa % 2 ^ 21 = va % 2 ^ 21) ∨ (x.level = 5 ∧ x.pa % 2 ^ 12 = va % 2 ^ 12)

theorem isXlat_leafXlat {ent : Nat} (hl : IsLeaf lvl ent) (hp : k.permitted priv (ent.testBit 2) (ent.testBit 3) (ent.testBit 4) = true)
    (hb : Xlat.beyond space (leafXlat va lvl ent).pa = false) : IsXlat space va k priv (leafXlat va lvl ent) := by
  refine ⟨hp, hb, ?_, ?_⟩ <;> rcases hl with rfl | ⟨rfl, -⟩ <;> simp [leafXlat, bitsAt, Xlat.shift] <;> omega

/-- Only a leaf that passes every check ends a walk without a fault. -/
theorem isXlat_of_walkFrom {levels : List Nat} {table : Nat} (h : s.walkFrom space va k priv levels table = .ok x) : IsXlat space va k priv x := by
  induction levels generalizing table with
  | nil => cases h
  | cons lvl rest ih =>
    cases hv : (entryIn s va lvl table).testBit 0 with
    | false => rw [walkFrom_invalid hv] at h; cases h
    | true =>
      cases hr : Xlat.reserved lvl (entryIn s va lvl table) with
      | true => rw [walkFrom_reserved hv hr] at h; cases h
      | false =>
        by_cases hl : IsLeaf lvl (entryIn s va lvl table)
        · rw [walkFrom_leaf hv hr hl] at h
          obtain ⟨hp, hb, rfl⟩ := leafChecks_ok h
          exact isXlat_leafXlat hl hp hb
        · exact ih ((walkFrom_next hv hr hl).symm.trans h)

/-- A walk passes the levels whose entries point to a next table. -/
theorem walkFrom_reaches {entry table : Nat → Nat} {first : Nat} (he : ∀ n, first ≤ n → entry n = entryIn s va n (table n))
    (ht : ∀ n, first ≤ n → table (n + 1) = entry n / 2 ^ 12 % 2 ^ 40 * 2 ^ 12) (hle : first ≤ lvl) (h5 : lvl ≤ 5)
    (hpass : ∀ n, first ≤ n → n < lvl → (entry n).testBit 0 = true ∧ Xlat.reserved n (entry n) = false ∧ ¬ (n = 4 ∧ (entry n).testBit 1 = true)) :
    s.walkFrom space va k priv ((List.range 6).drop first) (table first) = s.walkFrom space va k priv ((List.range 6).drop lvl) (table lvl) := by
  induction lvl, hle using Nat.le_induction with
  | base => rfl
  | succ n hn ih =>
    obtain ⟨hv, hr, hl⟩ := hpass n hn (by omega)
    have hleaf : ¬ IsLeaf n (entry n) := fun h => h.elim (by omega) hl
    rw [ih (by omega) fun m hm hlt => hpass m hm (by omega), List.drop_eq_getElem_cons (by simp; omega), List.getElem_range, ht n hn]
    rw [he n hn] at hv hr hleaf ⊢
    exact walkFrom_next hv hr hleaf

/-! ### The translations held -/

theorem mem_heldXlats : e ∈ s.heldXlats core ctx space va ↔
    (e ∈ (s.core core).tlb ∨ e ∈ Tab.get [] s.sectorTlb (Ops.sectorOf core)) ∧ e.ctx = ctx ∧ e.space = space ∧ e.root = (s.context ctx).rootOf space
      ∧ e.va ≤ va ∧ va < e.va + e.size := by
  simp only [State.heldXlats, List.mem_filter, List.mem_append, Bool.and_eq_true, beq_iff_eq, decide_eq_true_eq, and_assoc]

theorem heldXlat_mem (h : s.heldXlat core ctx space va = some e) : e ∈ s.heldXlats core ctx space va := List.mem_of_getElem? h

theorem heldXlat_isSome (h : s.heldXlats core ctx space va ≠ []) : ∃ e, s.heldXlat core ctx space va = some e :=
  ⟨_, List.getElem?_eq_getElem (Nat.mod_lt _ (List.length_pos_iff.2 h))⟩

theorem heldXlat_none (h : s.heldXlats core ctx space va = []) : s.heldXlat core ctx space va = none := by
  simp [State.heldXlat, h]

theorem translate_held (h : s.heldXlat core ctx space va = some e) : s.translate core ctx space va k priv = e.access va k priv := by
  simp [State.translate, h]

theorem translate_walk (h : s.heldXlat core ctx space va = none) : s.translate core ctx space va k priv = s.walkOn core ctx space va k priv := by
  simp [State.translate, h]

/-- The translation of an address by an entry held. -/
def heldPlace (e : TlbEntry) (va : Nat) : Xlat :=
  { pa := (e.pa + (va - e.va)) % 2 ^ 52, type := e.type, level := e.level, w := e.w, x := e.x, u := e.u, c := false }

theorem access_eq (e : TlbEntry) (va : Nat) (k : Access) (priv : Bool) :
    e.access va k priv = leafChecks (k.permitted priv e.w e.x e.u) e.level e.space k (heldPlace e va) := rfl

/-- The entry is one of this context and root whose range holds va, and translates va as x does. -/
structure TranslatesAs (e : TlbEntry) (ctx space root va : Nat) (x : Xlat) : Prop where
  ctx_eq : e.ctx = ctx
  space_eq : e.space = space
  root_eq : e.root = root
  va_le : e.va ≤ va
  lt_end : va < e.va + e.size
  pa_eq : (e.pa + (va - e.va)) % 2 ^ 52 = x.pa
  w_eq : e.w = x.w
  x_eq : e.x = x.x
  u_eq : e.u = x.u
  level_eq : e.level = x.level
  type_eq : e.type = x.type

/-- What a walk found makes an entry that translates the address as the walk does: over the 2 MiB or 4 KiB page of its leaf, or over the 64 KiB run. -/
theorem entry_translatesAs (hx : IsXlat space va k priv x) : TranslatesAs (Xlat.entry ctx space root va x) ctx space root va x := by
  have hlt := hx.pa_lt
  refine ⟨rfl, rfl, rfl, Nat.sub_le .., ?_, ?_, rfl, rfl, rfl, rfl, rfl⟩
  all_goals
    obtain ⟨hl, hc, hpa⟩ | ⟨hl, hpa⟩ := hx.offset
    · simp [Xlat.entry, hl, hc]
      omega
    · cases hc : x.c <;> simp [Xlat.entry, hl, hc] <;> omega

theorem TranslatesAs.access (h : TranslatesAs e ctx space root va x) (hx : IsXlat space va k priv x) :
    ∃ y, e.access va k priv = .ok y ∧ y.pa = x.pa ∧ y.type = x.type := by
  have hpa : (heldPlace e va).pa = x.pa := h.pa_eq
  refine ⟨heldPlace e va, ?_, hpa, h.type_eq⟩
  simp [access_eq, leafChecks, hpa, h.w_eq, h.x_eq, h.u_eq, h.space_eq, hx.permitted, hx.within]

/-- A leaf of a run may be held as its page alone. -/
theorem IsXlat.page (hx : IsXlat space va k priv x) (b : Bool) : IsXlat space va k priv { x with c := x.c && b } := by
  obtain ⟨hp, hw, hlt, ho⟩ := hx
  refine ⟨hp, hw, hlt, ho.imp_left fun ⟨hl, hc, hpa⟩ => ⟨hl, ?_, hpa⟩⟩
  simp [hc]

/-! ### What a walk leaves held -/

/-- The entry that a walk which found x lets the TLBs hold. -/
def newEntry (s : State) (ctx space va : Nat) (x : Xlat) : TlbEntry :=
  Xlat.entry ctx space ((s.context ctx).rootOf space) va { x with c := x.c && !s.pick.testBit 24 }

theorem newEntry_translatesAs (hx : IsXlat space va k priv x) : TranslatesAs (newEntry s ctx space va x) ctx space ((s.context ctx).rootOf space) va x := by
  obtain ⟨hctx, hspace, hroot, hle, hlt, hpa, hw, hxx, hu, hlevel, htype⟩ := entry_translatesAs (ctx := ctx) (root := (s.context ctx).rootOf space)
    (hx.page !s.pick.testBit 24)
  exact ⟨hctx, hspace, hroot, hle, hlt, hpa, hw, hxx, hu, hlevel, htype⟩

theorem keepWalk_mem (o : Option Xlat) : (s.keepWalk core ctx space va o).mem = s.mem := by
  cases o <;> rfl

theorem keepWalk_some_tlb : ((s.keepWalk core ctx space va (some x)).core core).tlb =
    (newEntry s ctx space va x :: (s.core core).tlb.filter (· ≠ newEntry s ctx space va x)).take 64 := by
  change Core.tlb (Tab.get Core.reset (Tab.set Core.reset s.cores core _) core) = _
  rw [Tab.get_set_same]
  rfl

theorem keepWalk_some_sectorTlb : Tab.get [] (s.keepWalk core ctx space va (some x)).sectorTlb (Ops.sectorOf core) =
    (newEntry s ctx space va x :: (Tab.get [] s.sectorTlb (Ops.sectorOf core)).filter (· ≠ newEntry s ctx space va x)).take 4096 := by
  simp only [State.keepWalk, State.onCore_sectorTlb, Tab.get_set_same]
  rfl

/-- A full structure loses its oldest entry, never the new one. -/
theorem mem_take_cons_filter {l : List TlbEntry} {n : Nat} {new : TlbEntry} (h : e ∈ (new :: l.filter (· ≠ new)).take n) : e = new ∨ e ∈ l :=
  (List.mem_cons.1 (List.mem_of_mem_take h)).imp_right List.mem_of_mem_filter

theorem newEntry_mem_tlb : newEntry s ctx space va x ∈ ((s.keepWalk core ctx space va (some x)).core core).tlb := by
  rw [keepWalk_some_tlb]
  exact List.mem_cons_self

/-- Where no TLB held the address, what a walk leaves held is its translation alone. -/
theorem heldXlat_keepWalk (hx : IsXlat space va k priv x) (h : s.heldXlats core ctx space va = []) :
    (s.keepWalk core ctx space va (some x)).heldXlat core ctx space va = some (newEntry s ctx space va x) := by
  have hroot : ((s.keepWalk core ctx space va (some x)).context ctx).rootOf space = (s.context ctx).rootOf space := rfl
  have hnew := newEntry_translatesAs (s := s) (ctx := ctx) hx
  have hmem : newEntry s ctx space va x ∈ (s.keepWalk core ctx space va (some x)).heldXlats core ctx space va :=
    mem_heldXlats.2 ⟨.inl newEntry_mem_tlb, hnew.ctx_eq, hnew.space_eq, hnew.root_eq.trans hroot.symm, hnew.va_le, hnew.lt_end⟩
  obtain ⟨e, he⟩ := heldXlat_isSome (List.ne_nil_of_mem hmem)
  obtain ⟨hin, hcovers⟩ := mem_heldXlats.1 (heldXlat_mem he)
  rw [keepWalk_some_tlb, keepWalk_some_sectorTlb] at hin
  have hold : ¬ (e ∈ (s.core core).tlb ∨ e ∈ Tab.get [] s.sectorTlb (Ops.sectorOf core)) := fun hold =>
    List.not_mem_nil (h ▸ mem_heldXlats.2 ⟨hold, hcovers⟩)
  obtain rfl : e = newEntry s ctx space va x := by
    rcases hin with hin | hin
    · exact (mem_take_cons_filter hin).resolve_right fun hm => hold (.inl hm)
    · exact (mem_take_cons_filter hin).resolve_right fun hm => hold (.inr hm)
  exact he

/-! ### What the slice logs leave -/

theorem writeBytes_eq (s : State) (cells : List (Nat × Byte)) : ∃ m, s.writeBytes cells = { s with mem := m } :=
  each_induction (P := fun t : State => ∃ m, t = { s with mem := m }) cells _ s ⟨s.mem, rfl⟩ fun _ _ ⟨_, ht⟩ => by
    subst ht
    exact ⟨_, rfl⟩

theorem readByte_writeBytes_outside {cells : List (Nat × Byte)} {l : Nat} (h : ∀ c ∈ cells, c.1 ≠ l) : (s.writeBytes cells).readByte l = s.readByte l := by
  have hnone : cells.filter (fun c => decide (c.1 = l)) = [] := List.filter_eq_nil_iff.2 fun c hc => by simpa using h c hc
  rw [State.readByte_writeBytes, hnone]
  rfl

theorem natToBytes_length (n x : Nat) : (natToBytes n x).length = n := by
  induction n generalizing x with
  | zero => rfl
  | succ n ih => simp [natToBytes, ih]

theorem record_length (x : Asker) (op hit line cycle : Nat) : (x.record op hit line cycle).length = 16 := by
  simp [Asker.record, natToBytes_length]

/-- t is s but for records of the slice logs, in their rings or on their way there. -/
structure Logged (s t : State) : Prop where
  cur : t.cur = s.cur
  contexts : t.contexts = s.contexts
  sectorTlb : t.sectorTlb = s.sectorTlb
  tlb : ∀ n, (t.core n).tlb = (s.core n).tlb
  logRegs : t.logRegs = s.logRegs
  readByte : ∀ l, ¬ inLogRing s l → t.readByte l = s.readByte l

namespace Logged

protected theorem refl (s : State) : Logged s s := ⟨rfl, rfl, rfl, fun _ => rfl, rfl, fun _ _ => rfl⟩

theorem writeBytes {cells : List (Nat × Byte)} (h : Logged s t) (hc : ∀ c ∈ cells, inLogRing s c.1) : Logged s (t.writeBytes cells) := by
  have hread (l : Nat) (hl : ¬ inLogRing s l) : (t.writeBytes cells).readByte l = s.readByte l :=
    (readByte_writeBytes_outside fun c hm he => hl (he.subst (hc c hm))).trans (h.readByte l hl)
  obtain ⟨m, hm⟩ := writeBytes_eq t cells
  rw [hm] at hread ⊢
  exact ⟨h.cur, h.contexts, h.sectorTlb, h.tlb, h.logRegs, hread⟩

theorem writeLate {cells : List (Nat × Byte)} (h : Logged s t) (hc : ∀ c ∈ cells, inLogRing s c.1) (core : Nat) : Logged s (t.writeLate core cells) := by
  unfold State.writeLate
  split
  · refine ⟨h.cur, h.contexts, h.sectorTlb, fun n => ?_, h.logRegs, h.readByte⟩
    rw [core_onCore]
    split
    next hn => exact hn ▸ h.tlb core
    · exact h.tlb n
  · exact h.writeBytes hc

theorem of_eq {u : State} (h : Logged s t) (hcur : u.cur = t.cur) (hcontexts : u.contexts = t.contexts) (hsector : u.sectorTlb = t.sectorTlb)
    (hcores : u.cores = t.cores) (hlogs : u.logRegs = t.logRegs) (hmem : u.mem = t.mem) : Logged s u where
  cur := hcur.trans h.cur
  contexts := hcontexts.trans h.contexts
  sectorTlb := hsector.trans h.sectorTlb
  tlb n := (congrArg (fun c => (Tab.get Core.reset c n).tlb) hcores).trans (h.tlb n)
  logRegs := hlogs.trans h.logRegs
  readByte l hl := (congrArg (fun m => Tab.get 0 m l) hmem).trans (h.readByte l hl)

theorem ite {p : Prop} {_ : Decidable p} {a b : State} (ha : p → Logged s a) (hb : ¬ p → Logged s b) : Logged s (if p then a else b) := by
  split
  next hp => exact ha hp
  next hp => exact hb hp

theorem logFilter (h : Logged s t) (n : Nat) : t.logFilter n = s.logFilter n := by
  unfold State.logFilter
  rw [h.logRegs]

/-- A record goes to the ring of a filter that is on and has room. -/
theorem logRequest (h : Logged s t) (op : Nat) (x : Asker) (l : Nat) : Logged s (t.logRequest op x l) := by
  unfold State.logRequest
  refine .ite (fun _ => h) fun _ => .ite (fun hen => .ite (fun _ => h.of_eq rfl rfl rfl rfl rfl rfl) fun hroom => ?_) fun _ => h
  refine .of_eq (h.writeLate (fun c hc => ?_) _) rfl rfl rfl rfl rfl rfl
  simp only [h.logFilter, Bool.and_eq_true] at hc hen hroom
  obtain ⟨⟨⟨⟨⟨⟨hon, -⟩, -⟩, -⟩, -⟩, -⟩, -⟩ := hen
  obtain ⟨b, hb, rfl⟩ := List.mem_map.1 hc
  obtain ⟨_, hlt, _⟩ := List.mem_zipIdx hb
  rw [record_length] at hlt
  refine ⟨_, hon, ?_, ?_⟩ <;> dsimp only <;> omega

theorem logWalk (h : Logged s t) (core ctx space va : Nat) : Logged s (t.logWalk core ctx space va) := by
  unfold State.logWalk
  split
  · exact h
  · exact each_induction _ _ _ h fun _ _ h => h.logRequest ..

theorem rootOf (h : Logged s t) (ctx space : Nat) : (t.context ctx).rootOf space = (s.context ctx).rootOf space := by
  unfold State.context
  rw [h.contexts]

theorem heldXlats (h : Logged s t) : t.heldXlats core ctx space va = s.heldXlats core ctx space va := by
  unfold State.heldXlats
  rw [h.tlb, h.sectorTlb, h.rootOf]

end Logged

/-- Stores to memory change no translation that is held. -/
theorem heldXlat_writeBytes (s : State) (cells : List (Nat × Byte)) : (s.writeBytes cells).heldXlat core ctx space va = s.heldXlat core ctx space va := by
  obtain ⟨m, hm⟩ := writeBytes_eq s cells
  rw [hm]
  rfl

/-! ### The walk of an access -/

theorem walkPage_of_held {a : Agent} (h : s.heldXlats a.core a.ctx space va ≠ []) : s.walkPage a k space va = s := by
  simp [State.walkPage, h]

theorem walkPage_of_ok {a : Agent} (h : s.heldXlats a.core a.ctx space va = []) (hx : s.walkOn a.core a.ctx space va k a.priv = .ok x) :
    s.walkPage a k space va = (s.logWalk a.core a.ctx space va).keepWalk a.core a.ctx space va (some x) := by
  simp [State.walkPage, h, hx, Except.toOption]

/-- A translation, once made, answers the same whatever is then stored. -/
theorem translate_walkPage {a : Agent} (cells : List (Nat × Byte)) (h : s.translate a.core a.ctx space va k a.priv = .ok x) :
    ∃ y, ((s.walkPage a k space va).writeBytes cells).translate a.core a.ctx space va k a.priv = .ok y ∧ y.pa = x.pa ∧ y.type = x.type := by
  by_cases hheld : s.heldXlats a.core a.ctx space va = []
  · rw [translate_walk (heldXlat_none hheld)] at h
    have hx : IsXlat space va k a.priv x := isXlat_of_walkFrom h
    have hlog := (Logged.refl s).logWalk a.core a.ctx space va
    rw [walkPage_of_ok hheld h, translate_held ((heldXlat_writeBytes ..).trans (heldXlat_keepWalk hx (hlog.heldXlats.trans hheld)))]
    exact (newEntry_translatesAs hx).access hx
  · obtain ⟨e, he⟩ := heldXlat_isSome hheld
    rw [walkPage_of_held hheld, translate_held ((heldXlat_writeBytes ..).trans he), ← translate_held he]
    exact ⟨x, h, rfl, rfl⟩

/-- The walk cache holds nothing of the context and root: the walk starts at the root. -/
theorem walkStart_root {die : Nat} (h : ∀ e ∈ Tab.get [] s.walkCache die, ¬ (e.ctx = ctx ∧ e.space = space ∧ e.root = (s.context ctx).rootOf space)) :
    s.walkStart die ctx space va = ([1, 2, 3, 4, 5], (s.context ctx).rootOf space) := by
  have hnone (n : Nat) : ((Tab.get [] s.walkCache die).find? fun e => e.ctx == ctx && e.space == space && e.root == (s.context ctx).rootOf space
      && e.level == n && e.path == va / 2 ^ Xlat.shift n) = none := by
    refine List.find?_eq_none.2 fun e he hm => h e he ?_
    simp only [Bool.and_eq_true, beq_iff_eq] at hm
    obtain ⟨⟨⟨⟨hctx, hspace⟩, hroot⟩, -⟩, -⟩ := hm
    exact ⟨hctx, hspace, hroot⟩
  simp only [State.walkStart, hnone]

theorem translationByWalk_holds : translationByWalk := by
  refine ⟨fun s core ctx space va k priv entry table first lvl hheld h1 hstart he ht hle h5 hpass => ?_, fun s die ctx space va h => walkStart_root h,
    fun s core ctx space va k priv e h => ?_, fun s a k space va cells x h => translate_walkPage cells h⟩
  · have hgo : s.translate core ctx space va k priv = s.walkFrom space va k priv (lvl :: (List.range 6).drop (lvl + 1)) (table lvl) := by
      calc s.translate core ctx space va k priv
        _ = s.walkFrom space va k priv ((List.range 6).drop first) (table first) := by
          rw [translate_walk hheld, State.walkOn, show Ops.dieOf core = core / 144 from rfl, hstart]
        _ = s.walkFrom space va k priv ((List.range 6).drop lvl) (table lvl) :=
          walkFrom_reaches (fun n hn => he n (by omega)) (fun n hn => ht n (by omega)) hle h5 hpass
        _ = _ := by rw [List.drop_eq_getElem_cons (by simp; omega), List.getElem_range]
    have hent : entry lvl = entryIn s va lvl (table lvl) := he lvl (by omega)
    rw [hgo, hent]
    refine ⟨fun hv => walkFrom_invalid hv, fun hv hr => walkFrom_reserved hv hr, fun hv hr hl => ?_⟩
    rw [walkFrom_leaf hv hr hl]
    exact leafChecks_gives (permitted_iff ..) lvl space k (leafXlat va lvl _)
  · obtain ⟨_, _, hspace, _⟩ := mem_heldXlats.1 (heldXlat_mem h)
    rw [translate_held h, access_eq, hspace]
    exact leafChecks_gives (permitted_iff ..) e.level space k (heldPlace e va)

/-! ### The walk of a sector's walker -/

/-- A walk and what it leaves held, o being what it found, change no group and no memory but the rings of the slice logs. -/
theorem keepWalk_logWalk_frame (s : State) (core ctx space va : Nat) (o : Option Xlat) :
    let t := (s.logWalk core ctx space va).keepWalk core ctx space va o
    t.groups = s.groups ∧ (s.logRegs = [] → t.mem = s.mem) ∧ ∀ l, ¬ inLogRing s l → t.readByte l = s.readByte l := by
  have hlooks := (State.Looks.refl s).logWalk (core := core) (ctx := ctx) (space := space) (va := va) |>.keepWalk (x := o)
    (core := core) (ctx := ctx) (space := space) (va := va)
  refine ⟨hlooks.groups, hlooks.mem, fun l hl => ?_⟩
  rw [← ((Logged.refl s).logWalk core ctx space va).readByte l hl]
  exact congrArg (fun m => Tab.get 0 m l) (keepWalk_mem o)

/-- A walk that found nothing leaves the core's TLB. -/
theorem keepWalk_logWalk_none (s : State) (core ctx space va : Nat) :
    (((s.logWalk core ctx space va).keepWalk core ctx space va none).core core).tlb = (s.core core).tlb :=
  ((Logged.refl s).logWalk core ctx space va).tlb core

/-- A walk that found x adds its translation to the core's TLB. -/
theorem keepWalk_logWalk_some (s : State) (core ctx : Nat) (hx : IsXlat space va k priv x) :
    let t := (s.logWalk core ctx space va).keepWalk core ctx space va (some x)
    (t.core core).tlb.length ≤ 64
    ∧ ∃ new ∈ (t.core core).tlb, TranslatesAs new ctx space ((s.context ctx).rootOf space) va x ∧ ∀ e ∈ (t.core core).tlb, e = new ∨ e ∈ (s.core core).tlb := by
  have hlog := (Logged.refl s).logWalk core ctx space va
  refine ⟨?_, _, newEntry_mem_tlb, hlog.rootOf ctx space ▸ newEntry_translatesAs hx, fun e he => ?_⟩
  · rw [keepWalk_some_tlb]
    exact List.length_take_le ..
  · rw [keepWalk_some_tlb, hlog.tlb] at he
    exact mem_take_cons_filter he

/-- The translation that the walks for the launches resident on the core find, none where each of them faults. -/
def found (s : State) (core ctx space va : Nat) : Option Xlat := (s.privsOn core ctx).findSome? fun p => (s.walkOn core ctx space va .read p).toOption

theorem walkOn_of_found (h : found s core ctx space va = some x) : ∃ p ∈ s.privsOn core ctx, s.walkOn core ctx space va .read p = .ok x := by
  obtain ⟨p, hp, hx⟩ := List.exists_of_findSome?_eq_some h
  refine ⟨p, hp, ?_⟩
  cases hw : s.walkOn core ctx space va .read p with
  | error f => simp [hw, Except.toOption] at hx
  | ok y => simpa [hw, Except.toOption] using hx

theorem found_ne_none {p : Bool} (hp : p ∈ s.privsOn core ctx) (h : s.walkOn core ctx space va .read p = .ok x) : found s core ctx space va ≠ none := by
  intro hn
  have hfault := List.findSome?_eq_none_iff.1 hn p hp
  simp [h, Except.toOption] at hfault

theorem spaceOf_toNat (space : BitVec 4) : Xlat.spaceOf space.toNat = if space = 8 then 0 else space.toNat :=
  if_congr (BitVec.toNat_inj (y := 8)) rfl rfl

/-- A walk is made where a launch has a group resident on the core. -/
theorem exec_tlbWalk_eq (s : State) (core ctx : Nat) (space : BitVec 4) (va : BitVec 57) :
    exec (.tlbWalk core ctx space va) s = .next (if s.privsOn core ctx = [] then s else
      (s.logWalk core ctx (Xlat.spaceOf space.toNat) va.toNat).keepWalk core ctx (Xlat.spaceOf space.toNat) va.toNat
        (found s core ctx (Xlat.spaceOf space.toNat) va.toNat)) := by
  rw [exec_tlbWalk, execTlbWalk]
  cases hp : s.privsOn core ctx with
  | nil => rfl
  | cons p ps => simp [found, hp]

theorem walksAreHeld_holds : walksAreHeld := by
  intro s core ctx space va sp hsp
  rw [← spaceOf_toNat] at hsp
  subst hsp
  refine ⟨_, exec_tlbWalk_eq .., ?_⟩
  split
  next hp => exact ⟨rfl, fun _ => rfl, fun _ _ => rfl, fun _ => rfl, fun e he => .inl he, by simp [hp]⟩
  · obtain ⟨hgroups, hmem, hread⟩ := keepWalk_logWalk_frame s core ctx (Xlat.spaceOf space.toNat) va.toNat
      (found s core ctx (Xlat.spaceOf space.toNat) va.toNat)
    refine ⟨hgroups, hmem, hread, ?_⟩
    cases hf : found s core ctx (Xlat.spaceOf space.toNat) va.toNat with
    | none =>
      have htlb := keepWalk_logWalk_none s core ctx (Xlat.spaceOf space.toNat) va.toNat
      exact ⟨fun _ => htlb, fun e he => .inl (htlb ▸ he), fun p hp x hx => absurd hf (found_ne_none hp hx)⟩
    | some x =>
      obtain ⟨p, hp, hx⟩ := walkOn_of_found hf
      obtain ⟨hlen, new, hnew, ht, hall⟩ := keepWalk_logWalk_some s core ctx (isXlat_of_walkFrom hx)
      refine ⟨fun herr => ?_, fun e he => (hall e he).symm.imp_right fun hn => ⟨p, hp, x, hx, ?_⟩,
        fun _ _ _ _ => ⟨hlen, new, hnew, ht.ctx_eq, ht.space_eq, ht.va_le, ht.lt_end⟩⟩
      · obtain ⟨f, hf⟩ := herr p hp
        rw [hx] at hf
        cases hf
      · obtain ⟨hctx, hspace, hroot, hle, hlt, hpa, hw, hxx, hu, hlevel, htype⟩ := ht
        exact hn ▸ ⟨hctx, hspace, hroot, hle, hlt, hpa, hw, hxx, hu, hlevel, htype⟩

/-- Settles O60: the walk by induction over the levels it passes, and what walks leave held from the entry they make, which translates as its leaf does. -/
theorem translation : Obligations.Translation := by
  unfold Obligations.Translation
  exact ⟨translationByWalk_holds, walksAreHeld_holds⟩

end Sys2Proof.Translation

/-! What stores, walks and slice logs leave alone (07 R149, 08 R172, 17 R354): they change memory, core-side copies, translations and log records, and
name what they put on its way, but no group, no request and no reply. -/

namespace Sys2Proof.Requests

open Sys2Proof.Machine Sys2Proof.Claims Sys2Proof.Translation

variable {s t u : State}

/-- t lists the groups, the requests and the replies of s, and has given names beyond those of s for the records of slice logs alone. -/
structure Aside (s t : State) : Prop where
  groups : t.groups = s.groups
  net : t.net = s.net
  podQ : t.podQ = s.podQ
  replies : t.replies = s.replies
  pchannels : t.pchannels = s.pchannels
  logRegs : t.logRegs = s.logRegs
  nextId_le : s.nextId ≤ t.nextId
  nextId_eq : s.logRegs = [] → t.nextId = s.nextId

/-- And every byte outside the rings of the slice logs reads as before. -/
structure Quiet (s t : State) : Prop extends Aside s t where
  readByte : ∀ l, ¬ inLogRing s l → t.readByte l = s.readByte l

theorem not_inLogRing (h : s.logRegs = []) (l : Nat) : ¬ inLogRing s l := by
  rintro ⟨n, hen, -⟩
  have hoff : (s.logFilter n).en = false := by simp [State.logFilter, h, Tab.get, List.range_succ, bytesToNat]
  rw [hoff] at hen
  cases hen

namespace Aside

protected theorem refl (s : State) : Aside s s := ⟨rfl, rfl, rfl, rfl, rfl, rfl, le_refl _, fun _ => rfl⟩

protected theorem trans (h : Aside s t) (h' : Aside t u) : Aside s u where
  groups := h'.groups.trans h.groups
  net := h'.net.trans h.net
  podQ := h'.podQ.trans h.podQ
  replies := h'.replies.trans h.replies
  pchannels := h'.pchannels.trans h.pchannels
  logRegs := h'.logRegs.trans h.logRegs
  nextId_le := h.nextId_le.trans h'.nextId_le
  nextId_eq hl := (h'.nextId_eq (h.logRegs.trans hl)).trans (h.nextId_eq hl)

theorem each {α : Type} {f : α → State → State} (l : List α) (hf : ∀ a u, Aside u (f a u)) (s : State) : Aside s (each l f s) :=
  each_induction (P := Aside s) l f s (.refl s) fun a u h => h.trans (hf a u)

theorem onCore (s : State) (n : Nat) (f : Core → Core) : Aside s (s.onCore n f) := ⟨rfl, rfl, rfl, rfl, rfl, rfl, le_refl _, fun _ => rfl⟩

theorem writeBytes (s : State) (cells : List (Nat × Byte)) : Aside s (s.writeBytes cells) :=
  each (f := fun (c : Nat × Byte) t => t.writeByte c.1 c.2) cells (fun _ _ => ⟨rfl, rfl, rfl, rfl, rfl, rfl, le_refl _, fun _ => rfl⟩) s

theorem of_eq (h : Aside s t) (hgroups : u.groups = t.groups) (hnet : u.net = t.net) (hpodQ : u.podQ = t.podQ) (hreplies : u.replies = t.replies)
    (hpchannels : u.pchannels = t.pchannels) (hlogRegs : u.logRegs = t.logRegs) (hnextId : u.nextId = t.nextId) : Aside s u :=
  h.trans ⟨hgroups, hnet, hpodQ, hreplies, hpchannels, hlogRegs, hnextId.ge, fun _ => hnextId⟩

theorem ite {p : Prop} {_ : Decidable p} {a b : State} (ha : Aside s a) (hb : Aside s b) : Aside s (if p then a else b) := by
  split <;> assumption

/-- Bytes that wait at a pseudo-channel held back take a name. -/
theorem writeLate (hlogs : s.logRegs ≠ []) (core : Nat) (cells : List (Nat × Byte)) : Aside s (s.writeLate core cells) := by
  unfold State.writeLate
  exact .ite ⟨rfl, rfl, rfl, rfl, rfl, rfl, Nat.le_succ _, fun h => absurd h hlogs⟩ (writeBytes s cells)

theorem inLogRing_iff (h : Aside s t) (l : Nat) : inLogRing t l ↔ inLogRing s l := by
  unfold inLogRing State.logFilter
  rw [h.logRegs]

end Aside

namespace Quiet

protected theorem refl (s : State) : Quiet s s := ⟨.refl s, fun _ _ => rfl⟩

protected theorem trans (h : Quiet s t) (h' : Quiet t u) : Quiet s u where
  toAside := h.toAside.trans h'.toAside
  readByte l hl := (h'.readByte l fun hr => hl ((h.inLogRing_iff l).1 hr)).trans (h.readByte l hl)

theorem each {α : Type} {f : α → State → State} (l : List α) (hf : ∀ a u, Quiet u (f a u)) (s : State) : Quiet s (each l f s) :=
  each_induction (P := Quiet s) l f s (.refl s) fun a u h => h.trans (hf a u)

theorem onCore (s : State) (n : Nat) (f : Core → Core) : Quiet s (s.onCore n f) := ⟨.onCore s n f, fun _ _ => rfl⟩

theorem logRequest (s : State) (op : Nat) (x : Asker) (l : Nat) : Quiet s (s.logRequest op x l) := by
  refine ⟨?_, ((Logged.refl s).logRequest op x l).readByte⟩
  unfold State.logRequest
  split
  · exact .refl s
  next hlogs =>
    refine .ite (.ite ((Aside.refl s).of_eq rfl rfl rfl rfl rfl rfl rfl) ?_) (.refl s)
    exact (Aside.writeLate hlogs _ _).of_eq rfl rfl rfl rfl rfl rfl rfl

theorem logWrites (s : State) (op : Nat) (x : Asker) (through ls : List Nat) : Quiet s (s.logWrites op x through ls) := by
  unfold State.logWrites
  split
  · exact .refl s
  · refine each _ (fun l u => ?_) s
    have h := (each (u.replicas.filter fun r => r.1 = l / 128) (fun _ u => logRequest u 5 x l) u).trans (logRequest _ op x l)
    exact ⟨h.toAside.of_eq rfl rfl rfl rfl rfl rfl rfl, h.readByte⟩

theorem logWalk (s : State) (core ctx space va : Nat) : Quiet s (s.logWalk core ctx space va) := by
  unfold State.logWalk
  split
  · exact .refl s
  · exact each _ (fun _ u => logRequest u _ _ _) s

theorem keepWalk (s : State) (core ctx space va : Nat) (x : Option Xlat) : Quiet s (s.keepWalk core ctx space va x) := by
  cases x <;> exact ⟨⟨rfl, rfl, rfl, rfl, rfl, rfl, le_refl _, fun _ => rfl⟩, fun _ _ => rfl⟩

theorem walkPage (s : State) (a : Agent) (k : Access) (space va : Nat) : Quiet s (s.walkPage a k space va) := by
  unfold State.walkPage
  split
  · exact .refl s
  · exact (logWalk s _ _ _ _).trans (keepWalk _ _ _ _ _ _)

theorem walks (s : State) (a : Agent) (spaces : List Nat) (n : Nat) (k : Access) (ps : List DWord) : Quiet s (s.walks a spaces n k ps) :=
  each _ (fun _ u => walkPage u _ _ _ _) s

theorem observe (s : State) (a : Agent) (l : Nat) : Quiet s (s.observe a l) := by
  unfold State.observe
  split
  · split
    · split
      · exact ⟨⟨rfl, rfl, rfl, rfl, rfl, rfl, le_refl _, fun _ => rfl⟩, fun _ _ => rfl⟩
      · exact .refl s
    · exact .refl s
  · exact .refl s

end Quiet

namespace Aside

theorem storeHome (s : State) (core : Nat) (p : PendingStore) : Aside s (State.storeHome core p s) :=
  (Quiet.logWrites s _ _ _ _).toAside.trans (writeBytes _ _)

theorem homeWrite (s : State) (op : Nat) (x : Asker) (through : List Nat) (cells : List (Nat × Byte)) : Aside s (s.homeWrite op x through cells) :=
  ((Quiet.logWrites s _ _ _ _).toAside.trans (writeBytes _ _)).trans (onCore _ _ _)

theorem drain {core : Nat} (h : s.drain core = some t) : Aside s t := by
  simp only [State.drain] at h
  split_ifs at h
  · cases h
    exact .refl s
  · cases h
    exact (each _ (fun p u => storeHome u core p) s).trans (onCore _ _ _)

theorem drainFor {core : Nat} {locs : List Nat} (h : s.drainFor core locs = some t) : Aside s t := by
  unfold State.drainFor at h
  split_ifs at h
  · exact drain h
  · cases h
    exact .refl s

theorem release {gid core scope : Nat} (h : s.release gid core scope = some t) : Aside s t := by
  unfold State.release at h
  split_ifs at h
  · cases h
    exact .refl s
  · exact drain h

end Aside

end Sys2Proof.Requests

/-! The words on waypoint sections (09 R191-R198): what each puts on its way, and what its group keeps until the answers come. -/

namespace Sys2Proof.WaypointWords

open Sys2Proof.Machine Sys2Proof.Claims Sys2Proof.RegisterWrites Sys2Proof.Scheduling Sys2Proof.LaneWords Sys2Proof.Requests

variable {s t : State} {u : Issue} {g : Group} {minor : Nat} {ks : Tab DWord} {ask : Nat → DWord → Ask}

/-! ### Keys -/

theorem wayKeys_eq (c : Ctx) (a : BitVec 7) : c.wayKeys a = wayRequests c a := rfl

theorem sharedKey_eq_none (h : distinctKeys ks) : sharedKey ks = none := by
  refine List.find?_eq_none.2 fun e he hany => ?_
  obtain ⟨f, hf, hef⟩ := List.any_eq_true.1 hany
  simp only [Bool.and_eq_true, beq_iff_eq, decide_eq_true_eq] at hef
  exact hef.1 (h e he f hf hef.2.symm).symm

/-- A uniform word of a split without active lanes has no requesting lane (R192). -/
theorem wayRequests_eq_nil {c : Ctx} {a : BitVec 7} (ha : isS a = true) (he : c.exec = 0) : wayRequests c a = [] := by
  rw [wayRequests, if_pos ha, if_pos he]

/-! ### Words under way -/

/-- A word that holds its split. -/
theorem holdWay_underway (hg : Tab.find s.groups u.group = some g) :
    wayUnderway s (s.holdWay (u.ctx g) minor ks ask) u g (u.ctx g) minor ks ask ∧ heldByWay s (s.holdWay (u.ctx g) minor ks ask) u := by
  have hfind : Tab.find (s.holdWay (u.ctx g) minor ks ask).groups u.group = _ := find_onGroup (find_onGroup hg _) _
  refine ⟨⟨rfl, rfl, fun m hm => ?_, _, hfind, rfl, rfl, ?_⟩, _, hfind, fun i hi hin => ?_⟩
  · exact (otherGroups_onGroup _ _ _ m hm).trans (otherGroups_onGroup _ _ _ m hm)
  · exact (Tab.find_put ..).trans (if_pos rfl)
  · rw [onSlices_length] at hi
    rw [slice_onSlices hi]
    exact congrArg (fun x : Slice => x.seq.wait) (if_pos hin)

/-- A long-latency word with requesting lanes. -/
theorem longWay_underway (hg : Tab.find s.groups u.group = some g) (hroom : flagRoom s (u.ctx g)) (hks : ks ≠ []) (op : LongOp) :
    ∃ t h, s.longWay (u.ctx g) minor op ks ask = .ok t ∧ wayUnderway s t u g (u.ctx g) minor ks ask ∧ Tab.find t.groups u.group = some h
      ∧ Tab.find h.longs s.nextId = some { op with waiting := ks.length, since := s.nowOf g } := by
  have hsent : s.longWay (u.ctx g) minor op ks ask = .ok ((State.sendWay (slowEffect s (u.ctx g) { op with waiting := ks.length }) u.group s.nextId ks
      ask).onGroup u.group fun h => { h with ways := Tab.put h.ways s.nextId ((u.ctx g).wayOp s minor ks) }) := by
    rw [State.longWay, if_neg (by simpa using hks), issueLong_next hg hroom]
    rfl
  have hfind := find_onGroup (s := State.sendWay (slowEffect s (u.ctx g) { op with waiting := ks.length }) u.group s.nextId ks ask)
    (find_onGroup hg _) fun h => { h with ways := Tab.put h.ways s.nextId ((u.ctx g).wayOp s minor ks) }
  refine ⟨_, _, hsent, ⟨rfl, rfl, fun m hm => ?_, _, hfind, rfl, rfl, ?_⟩, hfind, ?_⟩
  · exact (otherGroups_onGroup _ _ _ m hm).trans (otherGroups_onGroup _ _ _ m hm)
  · exact (Tab.find_put ..).trans (if_pos rfl)
  · exact (Tab.find_put ..).trans (if_pos rfl)

/-- A long-latency word without a requesting lane. -/
theorem longWay_nil (hg : Tab.find s.groups u.group = some g) (hroom : flagRoom s (u.ctx g)) (op : LongOp) :
    s.longWay (u.ctx g) minor op [] ask = .ok (slowEffect s (u.ctx g) op) := issueLong_next hg hroom op

/-- A word releases nothing of the group that issues it. -/
theorem find_released {gid core scope : Nat} (h : s.release gid core scope = some t) (hg : Tab.find s.groups u.group = some g) :
    Tab.find t.groups u.group = some g := (Aside.release h).groups ▸ hg

/-! ### The words -/

section
variable {d : BitVec 3} {v a b : BitVec 7} {body : Ctx → State → Res} {more : List Use}

theorem waySig_ok (hi : Issuing s u g) (ha : isEven a = true) (hc : Clear s (u.ctx g) (useN a 2 :: more)) (hb : body (u.ctx g) s = .ok t) :
    Ops.word (waySig a more) body s = .next (State.wordDone u t) := Ops.word_ok hi (fun h => nomatch h) ha hc hb

theorem waySig_dup {key : DWord} (hi : Issuing s u g) (ha : isEven a = true) (hc : Clear s (u.ctx g) (useN a 2 :: more))
    (hb : body (u.ctx g) s = (u.ctx g).dupTrap key) :
    Ops.word (waySig a more) body s = .next (s.wordTrapped u { (u.ctx g).trap 7 0x12 with faddr := key }) :=
  Ops.word_trap hi (fun h => nomatch h) ha hc hb

variable (hi : Issuing s u g) (ha : isEven a = true)
include hi ha

theorem exec_dup {k : Nat × DWord} {i : Instr} (hc : Clear s (u.ctx g) [useN a 2, use b]) (hk : sharedKey (wayRequests (u.ctx g) a) = some k)
    (hw : i ∈ [Instr.wayin a b, .wayskip a b, .waytry d a b]) : exec i s = .next (s.wordTrapped u { (u.ctx g).trap 7 0x12 with faddr := k.2 }) := by
  simp only [List.mem_cons, List.not_mem_nil, or_false] at hw
  rcases hw with rfl | rfl | rfl
  · rw [exec_wayin]
    exact waySig_dup hi ha hc (by simp only [wayKeys_eq, hk])
  · rw [exec_wayskip]
    exact waySig_dup hi ha hc (by simp only [wayKeys_eq, hk])
  · rw [exec_waytry]
    exact waySig_dup hi ha hc (by simp only [wayKeys_eq, hk])

theorem exec_wayin_sends (hc : Clear s (u.ctx g) [useN a 2, use b]) (hk : distinctKeys (wayRequests (u.ctx g) a)) (hne : wayRequests (u.ctx g) a ≠ []) :
    exec (.wayin a b) s = .next (State.wordDone u (s.holdWay (u.ctx g) 0 (wayRequests (u.ctx g) a) fun l k => .wayin k ((u.ctx g).rd b l))) := by
  rw [exec_wayin]
  exact waySig_ok hi ha hc (by simp only [wayKeys_eq, sharedKey_eq_none hk, List.isEmpty_iff, if_neg hne])

theorem exec_wayskip_sends (hc : Clear s (u.ctx g) [useN a 2, use b]) (hk : distinctKeys (wayRequests (u.ctx g) a)) (hne : wayRequests (u.ctx g) a ≠ []) :
    exec (.wayskip a b) s = .next (State.wordDone u (s.holdWay (u.ctx g) 2 (wayRequests (u.ctx g) a) fun l k => .wayskip k ((u.ctx g).rd b l))) := by
  rw [exec_wayskip]
  exact waySig_ok hi ha hc (by simp only [wayKeys_eq, sharedKey_eq_none hk, List.isEmpty_iff, if_neg hne])

theorem exec_waytry_sends (hc : Clear s (u.ctx g) [useN a 2, use b]) (hk : distinctKeys (wayRequests (u.ctx g) a)) (hne : wayRequests (u.ctx g) a ≠ [])
    (hroom : flagRoom s (u.ctx g)) :
    ∃ t h op, exec (.waytry d a b) s = .next (State.wordDone u t)
      ∧ wayUnderway s t u g (u.ctx g) 3 (wayRequests (u.ctx g) a) (fun l k => .waytry k ((u.ctx g).rd b l))
      ∧ Tab.find t.groups u.group = some h ∧ Tab.find h.longs s.nextId = some op ∧ op.mask = some (d.toNat, 0)
      ∧ op.waiting = (wayRequests (u.ctx g) a).length := by
  obtain ⟨-, hg, -⟩ := id hi
  obtain ⟨t, h, hsent, hunder, hfind, hlong⟩ := longWay_underway (minor := 3) (ask := fun l k => .waytry k ((u.ctx g).rd b l)) hg hroom hne
    { (u.ctx g).longOp with mask := some (d.toNat, 0) }
  refine ⟨t, h, _, ?_, hunder, hfind, hlong, rfl, rfl⟩
  rw [exec_waytry]
  exact waySig_ok hi ha hc (by simp only [wayKeys_eq, sharedKey_eq_none hk, List.isEmpty_eq_false_iff.2 hne, Bool.and_false]; exact hsent)

/-- The uniform words of a split without active lanes. -/
theorem exec_idle (hc : Clear s (u.ctx g) [useN a 2, use b]) (hs : isS a = true) (he : (u.ctx g).exec = 0) :
    exec (.wayin a b) s = .next (State.wordDone u s) ∧ exec (.wayskip a b) s = .next (State.wordDone u s)
      ∧ (flagRoom s (u.ctx g) →
        exec (.waytry d a b) s = .next (State.wordDone u (slowEffect s (u.ctx g) (slowOp (u.ctx g) 96 0 (fun _ => []) 0 none)))) := by
  obtain ⟨-, hg, -⟩ := id hi
  have hks : (u.ctx g).wayKeys a = [] := wayRequests_eq_nil hs he
  refine ⟨?_, ?_, fun hroom => ?_⟩
  · rw [exec_wayin]
    exact waySig_ok hi ha hc (by simp only [hks, hs]; rfl)
  · rw [exec_wayskip]
    exact waySig_ok hi ha hc (by simp only [hks]; rfl)
  · rw [exec_waytry]
    exact waySig_ok hi ha hc (by simp only [hks, hs]; exact longWay_nil hg hroom _)

theorem exec_wayout_sends {s1 : State} (hc : Clear s (u.ctx g) [useN a 2]) (hne : wayRequests (u.ctx g) a ≠ [])
    (hr : s.release u.group (s.coreOf (u.ctx g).g) 2 = some s1) :
    exec (.wayout a) s = .next (State.wordDone u (s1.holdWay (u.ctx g) 1 (wayRequests (u.ctx g) a) fun _ k => .wayout k)) := by
  rw [exec_wayout]
  refine waySig_ok hi ha hc ?_
  have hempty : (wayRequests (u.ctx g) a).isEmpty = false := List.isEmpty_eq_false_iff.2 hne
  simp only [wayKeys_eq, hempty, Bool.and_false, show (u.ctx g).u = u from rfl, hr]
  rfl

theorem exec_wayclose_sends (hc : Clear s (u.ctx g) [useN a 2]) (hne : wayRequests (u.ctx g) a ≠ []) :
    exec (.wayclose a) s = .next (State.wordDone u (s.holdWay (u.ctx g) 4 (wayRequests (u.ctx g) a) fun _ k => .wayclose k)) := by
  rw [exec_wayclose]
  exact waySig_ok hi ha hc (by simp only [wayKeys_eq, List.isEmpty_iff, if_neg hne])

theorem exec_leaving_idle (hc : Clear s (u.ctx g) [useN a 2]) (hs : isS a = true) (he : (u.ctx g).exec = 0) :
    exec (.wayout a) s = .next (State.wordDone u s) ∧ exec (.wayclose a) s = .next (State.wordDone u s) := by
  have hks : (u.ctx g).wayKeys a = [] := wayRequests_eq_nil hs he
  constructor
  · rw [exec_wayout]
    exact waySig_ok hi ha hc (by simp only [hks, hs]; rfl)
  · rw [exec_wayclose]
    exact waySig_ok hi ha hc (by simp only [hks]; rfl)

theorem exec_wayqry_eq (hv : isS v = false) (hve : isEven v = true) (hc : Clear s (u.ctx g) [useN a 2, useN v 2])
    (hb : s.longWay (u.ctx g) 5 { (u.ctx g).longOp.marks v 2 with dest := v.toNat } (wayRequests (u.ctx g) a) (fun _ k => .wayqry k) = .ok t) :
    exec (.wayqry v a) s = .next (State.wordDone u t) := by
  rw [exec_wayqry]
  exact Ops.word_ok hi (fun h => nomatch h) (by simp only [ha, hve, hv]; rfl) hc hb

theorem exec_wayqry_sends (hv : isS v = false) (hve : isEven v = true) (hc : Clear s (u.ctx g) [useN a 2, useN v 2]) (hroom : flagRoom s (u.ctx g))
    (hne : wayRequests (u.ctx g) a ≠ []) :
    ∃ t h op, exec (.wayqry v a) s = .next (State.wordDone u t)
      ∧ wayUnderway s t u g (u.ctx g) 5 (wayRequests (u.ctx g) a) (fun _ k => .wayqry k)
      ∧ Tab.find t.groups u.group = some h ∧ Tab.find h.longs s.nextId = some op ∧ op.dest = v.toNat ∧ op.vMarks = [v.toNat, v.toNat + 1]
      ∧ op.waiting = (wayRequests (u.ctx g) a).length := by
  obtain ⟨-, hg, -⟩ := id hi
  obtain ⟨t, h, hsent, hunder, hfind, hlong⟩ := longWay_underway hg hroom hne { (u.ctx g).longOp.marks v 2 with dest := v.toNat }
  refine ⟨t, h, _, exec_wayqry_eq hi ha hv hve hc hsent, hunder, hfind, hlong, rfl, ?_, rfl⟩
  simp [LongOp.marks, hv, List.range_succ]

theorem exec_wayqry_idle (hv : isS v = false) (hve : isEven v = true) (hc : Clear s (u.ctx g) [useN a 2, useN v 2]) (hroom : flagRoom s (u.ctx g))
    (hks : wayRequests (u.ctx g) a = []) :
    exec (.wayqry v a) s
      = .next (State.wordDone u (slowEffect s (u.ctx g) { slowOp (u.ctx g) v 2 (fun _ => []) 0 none with dest := v.toNat })) := by
  obtain ⟨-, hg, -⟩ := id hi
  have hop : (u.ctx g).longOp.marks v 2 = slowOp (u.ctx g) v 2 (fun _ => []) 0 none := by simp [Ctx.longOp, LongOp.marks, slowOp, hv]
  refine exec_wayqry_eq hi ha hv hve hc ?_
  rw [hks, hop]
  exact longWay_nil hg hroom _

end

/-- Settles O25: the checks of the keys first, then the requests on their way and the group as it waits for them. -/
theorem waypointWords : Obligations.WaypointWords := by
  unfold Obligations.WaypointWords
  rintro d v a b s u g _ _ hi rfl rfl ha
  obtain ⟨-, hg, -⟩ := id hi
  refine ⟨fun hc => ⟨fun k hk i hw => exec_dup hi ha hc hk hw, fun hk hne => ⟨?_, ?_, exec_waytry_sends hi ha hc hk hne⟩, exec_idle hi ha hc⟩,
    fun hc => ⟨fun s1 hne hr => ?_, fun hne => ?_, exec_leaving_idle hi ha hc⟩,
    fun hv hve hc hroom => ⟨exec_wayqry_idle hi ha hv hve hc hroom, exec_wayqry_sends hi ha hv hve hc hroom⟩⟩
  · exact ⟨_, exec_wayin_sends hi ha hc hk hne, holdWay_underway hg⟩
  · exact ⟨_, exec_wayskip_sends hi ha hc hk hne, holdWay_underway hg⟩
  · exact ⟨_, exec_wayout_sends hi ha hc hne hr, holdWay_underway (find_released hr hg)⟩
  · exact ⟨_, exec_wayclose_sends hi ha hc hne, holdWay_underway hg⟩

end Sys2Proof.WaypointWords

/-! Reading back what was written: the bytes of a number from a location on (00 R4). -/

namespace Sys2Proof.Bytes

open Sys2Proof.Machine Sys2Proof.Translation

variable {s : State}

theorem bytesToNat_natToBytes (n x : Nat) : bytesToNat (natToBytes n x) = x % 2 ^ (8 * n) := by
  induction n generalizing x with
  | zero => simp [natToBytes, bytesToNat, Nat.mod_one]
  | succ n ih =>
    rw [natToBytes, bytesToNat, ih, BitVec.toNat_ofNat, show 8 * (n + 1) = 8 + 8 * n by ring, Nat.pow_add, Nat.mod_mul]

theorem bytesToNat_lt (l : List Byte) : bytesToNat l < 2 ^ (8 * l.length) := by
  induction l with
  | nil => simp [bytesToNat]
  | cons b l ih =>
    have hb := b.isLt
    rw [bytesToNat, List.length_cons, show 8 * (l.length + 1) = 8 + 8 * l.length by ring, Nat.pow_add]
    omega

theorem readNat_lt (s : State) (base n : Nat) : s.readNat base n < 2 ^ (8 * n) := by
  simpa [State.readNat] using bytesToNat_lt ((List.range n).map fun i => s.readByte (base + i))

/-- Bytes written from a location on. -/
theorem readByte_writeRun (bytes : List Byte) (s : State) (base l : Nat) :
    (s.writeBytes (((List.range bytes.length).map (base + ·)).zip bytes)).readByte l =
      if base ≤ l ∧ l < base + bytes.length then bytes.getD (l - base) 0 else s.readByte l := by
  induction bytes generalizing s base with
  | nil => rw [if_neg (by simp)]; rfl
  | cons b bytes ih =>
    have hrest : (List.range (b :: bytes).length).map (base + ·) = base :: (List.range bytes.length).map (base + 1 + ·) := by
      rw [List.length_cons, List.range_succ_eq_map, List.map_cons, List.map_map, Nat.add_zero]
      congr 2
      funext i
      simp only [Function.comp_apply]
      omega
    rw [hrest, List.zip_cons_cons]
    change ((s.writeByte base b).writeBytes _).readByte l = _
    rw [ih, State.readByte_writeByte, List.length_cons]
    by_cases hl : l = base
    · rw [if_neg (by omega), if_pos hl, if_pos (by omega), hl, Nat.sub_self, List.getD_cons_zero]
    · by_cases hin : base + 1 ≤ l ∧ l < base + 1 + bytes.length
      · rw [if_pos hin, if_pos (by omega), show l - base = l - (base + 1) + 1 by omega, List.getD_cons_succ]
      · rw [if_neg hin, if_neg hl, if_neg (by omega)]

/-- A number written from a location on. -/
theorem readNat_writeRun (s : State) (base n x : Nat) :
    (s.writeBytes (((List.range n).map (base + ·)).zip (natToBytes n x))).readNat base n = x % 2 ^ (8 * n) := by
  have hlen := natToBytes_length n x
  rw [← bytesToNat_natToBytes, State.readNat]
  congr 1
  refine List.ext_getElem (by simp [hlen]) fun i hi hi' => ?_
  have hrun := readByte_writeRun (natToBytes n x) s base (base + i)
  rw [hlen] at hrun hi'
  rw [List.getElem_map, List.getElem_range, hrun, if_pos (by omega), Nat.add_sub_cancel_left, List.getD_eq_getElem?_getD, List.getElem?_eq_getElem,
    Option.getD_some]

end Sys2Proof.Bytes

/-! A round of a service group (09 R181): what its requests are served from and leave alone, and that a round may be cut after any of them. -/

namespace Sys2Proof.ServiceRounds

open Sys2Proof.Machine Sys2Proof.Claims Sys2Proof.Requests

variable {s t : State} {pod : Nat} {r : Request} {rest : List Request}

/-! ### The queue of a pod -/

section
variable {β : Type} [DecidableEq β]

omit [DecidableEq β] in
theorem erase_erase (t : Tab β) (n : Nat) : Tab.erase (Tab.erase t n) n = Tab.erase t n := by
  simp [Tab.erase_eq_filter, List.filter_filter]

omit [DecidableEq β] in
theorem erase_ins (t : Tab β) (n : Nat) (v : β) : Tab.erase (Tab.ins t n v) n = Tab.erase t n := by
  induction t with
  | nil => simp [Tab.ins, Tab.erase]
  | cons e t ih =>
    obtain ⟨k, w⟩ := e
    rw [Tab.ins]
    split
    · rw [Tab.erase, if_pos rfl]
    · simp only [Tab.erase, ih]

theorem erase_set (d : β) (t : Tab β) (n : Nat) (v : β) : Tab.erase (Tab.set d t n v) n = Tab.erase t n := by
  unfold Tab.set
  split
  · exact erase_erase t n
  · rw [Tab.put, erase_ins, erase_erase]

theorem set_set (d : β) (t : Tab β) (n : Nat) (v w : β) : Tab.set d (Tab.set d t n v) n w = Tab.set d t n w := by
  conv_lhs => rw [Tab.set, Tab.put, erase_set]
  rfl

end

theorem queue_withQueue (s : State) (pod : Nat) (q : List Request) : Tab.get [] (withQueue s pod q).podQ pod = q := Tab.get_set_same ..

theorem withQueue_withQueue (s : State) (pod : Nat) (q q' : List Request) : withQueue (withQueue s pod q) pod q' = withQueue s pod q' := by
  simp only [withQueue, set_set]

theorem withQueue_eq (h : Tab.set [] t.podQ pod rest = t.podQ) : withQueue t pod rest = t := by
  rw [withQueue, h]

/-! ### What serving a request leaves alone -/

/-- t is s but for the entries of keys, the groups, the replies and the checks under way. -/
def SameButKeys (s t : State) : Prop :=
  ∃ waypoints groups replies probes, t = { s with waypoints := waypoints, groups := groups, replies := replies, probes := probes }

namespace SameButKeys

protected theorem refl (s : State) : SameButKeys s s := ⟨_, _, _, _, rfl⟩

theorem onGroup {n : Nat} {f : Group → Group} (h : SameButKeys s t) : SameButKeys s (t.onGroup n f) := by
  obtain ⟨_, _, _, _, rfl⟩ := h
  exact ⟨_, _, _, _, rfl⟩

theorem putWay {key : DWord} {e : WayEntry} (h : SameButKeys s t) : SameButKeys s (t.putWay key e) := by
  obtain ⟨_, _, _, _, rfl⟩ := h
  exact ⟨_, _, _, _, rfl⟩

theorem answer {r : Request} {a : Answer} (h : SameButKeys s t) : SameButKeys s (t.answer r a) := by
  obtain ⟨_, _, _, _, rfl⟩ := h
  exact ⟨_, _, _, _, rfl⟩

theorem addProbes {l : List (Nat × Nat)} (h : SameButKeys s t) : SameButKeys s { t with probes := t.probes ++ l } := by
  obtain ⟨_, _, _, _, rfl⟩ := h
  exact ⟨_, _, _, _, rfl⟩

theorem ite {p : Prop} {_ : Decidable p} {a b : State} (ha : SameButKeys s a) (hb : SameButKeys s b) : SameButKeys s (if p then a else b) := by
  split <;> assumption

theorem settleKey {key : DWord} (h : SameButKeys s t) : SameButKeys s (t.settleKey key) := by
  obtain ⟨_, _, _, _, rfl⟩ := h
  unfold State.settleKey
  split
  · exact ⟨_, _, _, _, rfl⟩
  · refine .ite ⟨_, _, _, _, rfl⟩ ?_
    split <;> exact ⟨_, _, _, _, rfl⟩

theorem podQ (h : SameButKeys s t) : t.podQ = s.podQ := by
  obtain ⟨_, _, _, _, rfl⟩ := h
  rfl

theorem pchannels (h : SameButKeys s t) : t.pchannels = s.pchannels := by
  obtain ⟨_, _, _, _, rfl⟩ := h
  rfl

end SameButKeys

theorem aside_applyAtom (s : State) (x : Asker) (o : AtomOp) (through : Bool) (locs : List Nat) (b1 b2 : DWord) :
    Aside s (s.applyAtom x o through locs b1 b2).2 := by
  unfold State.applyAtom
  dsimp only
  split
  · dsimp only
    exact (Quiet.logRequest s _ _ _).toAside.trans (.onCore _ _ _)
  · exact .homeWrite s _ _ _ _

/-- Serving a request changes no queue and holds no pseudo-channel back. -/
theorem serve_queues (s : State) (r : Request) : (s.serve r).podQ = s.podQ ∧ (s.serve r).pchannels = s.pchannels := by
  have hrefl := SameButKeys.refl s
  have hqueues {t : State} (h : SameButKeys s t) : t.podQ = s.podQ ∧ t.pchannels = s.pchannels := ⟨h.podQ, h.pchannels⟩
  unfold State.serve
  dsimp only
  split
  next o locs b1 b2 _ =>
    have h := aside_applyAtom s (s.askerOf (((Tab.find s.groups r.group).map s.coreOf).getD 0) r.group) o r.through locs b1 b2
    exact ⟨h.podQ, h.pchannels⟩
  all_goals apply hqueues
  · split
    · exact hrefl.answer
    · split
      · exact hrefl.answer
      · exact .ite hrefl.answer (.settleKey (.ite (.addProbes hrefl.putWay) hrefl.putWay))
  · split
    · exact .ite (.answer (.settleKey (.onGroup hrefl.putWay))) hrefl.answer
    · exact hrefl.answer
  · split
    · exact hrefl.answer
    · split
      · exact hrefl.answer
      · exact .ite hrefl.answer (.answer hrefl.putWay)
  · split
    · exact hrefl.answer
    · split
      · exact hrefl.answer
      · exact .ite (.answer (.addProbes (.onGroup hrefl.putWay))) (.answer hrefl.putWay)
  · split
    · exact hrefl.answer
    · exact .ite (.answer ⟨_, _, _, _, rfl⟩) hrefl.answer
  · split
    · exact hrefl.answer
    · exact hrefl.answer

/-! ### Rounds -/

/-- What the end of a round makes of a `wayin` it has served: refused, it fails where every home has taken up its requests (R193). -/
def failRefused (r : Request) (s : State) : State :=
  match r.ask with
  | .wayin _ _ => s.failKnown r.group r.op
  | _ => s

theorem failRefused_wayin {key : DWord} {seq : Word} (h : r.ask = .wayin key seq) (s : State) : failRefused r s = s.failKnown r.group r.op := by
  rw [failRefused, h]

theorem failRefused_other (h : ∀ key seq, r.ask ≠ .wayin key seq) (s : State) : failRefused r s = s := by
  unfold failRefused
  split
  next key seq hr => exact absurd hr (h key seq)
  · rfl

/-- A round takes a queue of up to 64 requests of which none waits at a home slice. -/
theorem exec_serviceRound_whole {q : List Request} (hq : Tab.get [] s.podQ pod = q) (hlen : q.length ≤ 64) (hfree : ∀ r ∈ q, s.asksHeld r = false) :
    exec (.serviceRound pod) s = .next (each q failRefused (each q (fun r s => s.serve r) (withQueue s pod []))) := by
  have htake : q.take 64 = q := List.take_of_length_le hlen
  have hdrop : q.drop 64 = [] := List.drop_of_length_le hlen
  have hnow : (q.filter fun r => !s.asksHeld r) = q := List.filter_eq_self.2 fun r hr => by rw [hfree r hr]; rfl
  have hlater : q.filter s.asksHeld = [] := List.filter_eq_nil_iff.2 fun r hr => by rw [hfree r hr]; exact Bool.false_ne_true
  rw [exec_serviceRound]
  unfold execServiceRound
  rw [hq]
  dsimp only
  rw [htake, hnow, hlater, hdrop]
  rfl

theorem exec_serviceRound_one (hq : Tab.get [] s.podQ pod = [r]) (hfree : s.asksHeld r = false) :
    exec (.serviceRound pod) s = .next (failRefused r ((withQueue s pod []).serve r)) :=
  exec_serviceRound_whole hq (by simp) (by simpa using hfree)

/-- No `wayin` among the requests: the round is its requests served in order. -/
theorem each_failRefused {q : List Request} (h : ∀ r ∈ q, ∀ key seq, r.ask ≠ .wayin key seq) (s : State) : each q failRefused s = s := by
  induction q with
  | nil => rfl
  | cons r q ih =>
    rw [each_cons, failRefused_other (h r List.mem_cons_self)]
    exact ih fun r hr => h r (List.mem_cons_of_mem _ hr)

theorem asksHeld_congr (h : t.pchannels = s.pchannels) (r : Request) : t.asksHeld r = s.asksHeld r := by
  unfold State.asksHeld State.heldAt State.pchannel
  rw [h]

/-- The requests of a round are served one after another. -/
theorem exec_serviceRound_cons (hlen : rest.length ≤ 63) (hfree : ∀ q ∈ r :: rest, s.asksHeld q = false)
    (hways : ∀ q ∈ r :: rest, ∀ key seq, q.ask ≠ .wayin key seq) (ht : exec (.serviceRound pod) (withQueue s pod [r]) = .next t) :
    exec (.serviceRound pod) (withQueue s pod (r :: rest)) = exec (.serviceRound pod) (withQueue t pod rest) := by
  obtain ⟨hpodQ, hpchannels⟩ := serve_queues (withQueue s pod []) r
  have hr : r ∈ r :: rest := List.mem_cons_self
  have hfirst : t = (withQueue s pod []).serve r := by
    rw [exec_serviceRound_one (queue_withQueue s pod _) (hfree r hr), failRefused_other (hways r hr), withQueue_withQueue] at ht
    exact (Host.Outcome.next.inj ht).symm
  have hempty : withQueue t pod [] = t := withQueue_eq (by rw [hfirst, hpodQ]; exact set_set [] s.podQ pod [] [])
  have hfree' : ∀ q ∈ rest, (withQueue t pod rest).asksHeld q = false := fun q hq =>
    (asksHeld_congr (s := s) (by rw [hfirst]; exact hpchannels) q).trans (hfree q (List.mem_cons_of_mem _ hq))
  have hlen' : (r :: rest).length ≤ 64 := Nat.succ_le_succ hlen
  rw [exec_serviceRound_whole (queue_withQueue s pod _) hlen' hfree, each_failRefused hways, each_cons, withQueue_withQueue, ← hfirst,
    exec_serviceRound_whole (queue_withQueue t pod _) (by omega) hfree', each_failRefused fun q hq => hways q (List.mem_cons_of_mem _ hq),
    withQueue_withQueue, hempty]

end Sys2Proof.ServiceRounds

/-! Atomic words and what a service group makes of them (09 R181-R187). -/

namespace Sys2Proof.Atomics

open Sys2Proof.Machine Sys2Proof.Claims Sys2Proof.RegisterWrites Sys2Proof.OperandChecks Sys2Proof.LaneWords Sys2Proof.IntegerWords Sys2Proof.Requests
  Sys2Proof.Bytes Sys2Proof.ServiceRounds

variable {s s1 : State} {u : Issue} {g : Group} {o : AtomOp} {d a b : BitVec 7}

/-! ### The bits of a sum -/

theorem signBit_add_lt (f : Fmt) (neg : Bool) {n : Nat} (h : n < 2 ^ (f.eb + f.fb)) : f.signBit neg + n < 2 ^ (f.eb + f.fb + 1) := by
  cases neg <;> simp only [Fmt.signBit, Nat.pow_succ] <;> simp <;> omega

theorem canon_lt (f : Fmt) (hfb : 0 < f.fb) : f.canon < 2 ^ (f.eb + f.fb) := by
  have hfrac : 2 ^ (f.fb - 1) < 2 ^ f.fb := Nat.pow_lt_pow_right (by omega) (by omega)
  have heb := Nat.two_pow_pos f.eb
  calc f.canon
    _ < (2 ^ f.eb - 1) * 2 ^ f.fb + 2 ^ f.fb := Nat.add_lt_add_left hfrac _
    _ = (2 ^ f.eb - 1 + 1) * 2 ^ f.fb := by ring
    _ = 2 ^ (f.eb + f.fb) := by rw [Nat.sub_add_cancel heb, Nat.pow_add]

/-- A sum is a pattern of its format. -/
theorem sum_bits_lt (f : Fmt) (hfb : 0 < f.fb) (rm : RMode) (ts : List FNum) : (f.sum rm ts).bits < 2 ^ (f.eb + f.fb + 1) := by
  have hinf (neg : Bool) : (f.infRes neg 0).bits < 2 ^ (f.eb + f.fb + 1) := signBit_add_lt f neg (Rounding.top_lt f)
  unfold Fmt.sum
  dsimp only
  split
  · exact (canon_lt f hfb).trans (Nat.pow_lt_pow_right (by omega) (by omega))
  · split
    · exact hinf true
    · split
      · exact hinf false
      · generalize finSum rm ts = v
        obtain ⟨neg, m, e⟩ := v
        rcases Nat.eq_zero_or_pos m with rfl | hm
        · exact signBit_add_lt f neg (Nat.two_pow_pos _)
        · rw [Rounding.round_bits f rm neg e hm]
          exact signBit_add_lt f neg (Rounding.roundPattern_lt ..)

/-! ### Table ATM-1 -/

theorem loHalf_setWidth (w : Word) : loHalf (w.setWidth 64) = w := by
  rw [loHalf, BitVec.setWidth_setWidth_of_le w (by omega), BitVec.setWidth_eq]

theorem toNat_setWidth_double (w : Word) : (w.setWidth 64).toNat = w.toNat := BitVec.toNat_setWidth_of_le (by omega)

theorem signed_toNat (w : Word) : signed 32 w.toNat = w.toInt := by
  rw [← toInt_ofNat_eq_signed (by omega), BitVec.ofNat_toNat, BitVec.setWidth_eq]

/-- The operations on words. -/
theorem toNat_new_word (ho : o.size = 4) (x y z : Word) :
    (o.new (x.setWidth 64) (y.setWidth 64) (z.setWidth 64)).map BitVec.toNat = atomResult o x.toNat y.toNat z.toNat := by
  have hbits (f : Bool → Bool → Bool) :
      bitwise f (.ofNat 32 x.toNat) (.ofNat 32 y.toNat) = bitSet 32 fun i => f (x.getLsbD i) (y.getLsbD i) := by
    simp only [bitwise, BitVec.ofNat_toNat, BitVec.setWidth_eq]
  have hone : (1 : Word).toNat = 1 := rfl
  have hxlt := x.isLt
  have hylt := y.isLt
  cases o
  case add64 => cases ho
  case xchg64 => cases ho
  case cas64 => cases ho
  all_goals simp only [AtomOp.new, atomResult, loHalf_setWidth, Option.map_some, toNat_setWidth_double, signed_toNat, hbits, BitVec.toNat_inj]
  case add32 => rfl
  case minS => split <;> rfl
  case maxS => split <;> rfl
  case minU => split <;> congr 1 <;> omega
  case maxU => split <;> congr 1 <;> omega
  case and => rw [← eq_bitSet (x := x &&& y) fun i _ => BitVec.getLsbD_and]
  case or => rw [← eq_bitSet (x := x ||| y) fun i _ => BitVec.getLsbD_or]
  case xor => rw [← eq_bitSet (x := x ^^^ y) fun i _ => BitVec.getLsbD_xor]
  case cas32 =>
    split
    · exact congrArg some (toNat_setWidth_double z)
    · rfl
  case addF32 =>
    have hsum : (Fmt.f32.add .rne x.toNat y.toNat).bits < 2 ^ 32 := sum_bits_lt Fmt.f32 (by decide) _ _
    rw [BitVec.toNat_ofNat, Nat.mod_eq_of_lt hsum]
  case inc =>
    split
    · rfl
    · rw [BitVec.toNat_add, hone, Nat.mod_eq_of_lt (by omega)]
  case dec =>
    have hzero : x = 0 ↔ x.toNat = 0 := BitVec.toNat_inj.symm
    simp only [hzero]
    split
    · rfl
    next h =>
      rw [BitVec.toNat_sub_of_le (BitVec.le_def.2 (by rw [hone]; omega)), hone]

/-- The operations on pairs. -/
theorem toNat_new_pair (ho : o.size = 8) (x y z : DWord) : (o.new x y z).map BitVec.toNat = atomResult o x.toNat y.toNat z.toNat := by
  cases o with
  | add64 => simp [AtomOp.new, atomResult, BitVec.toNat_add]
  | xchg64 => rfl
  | cas64 =>
    simp only [AtomOp.new, atomResult, BitVec.toNat_inj]
    split <;> simp
  | _ => cases ho

theorem size_cases (o : AtomOp) : o.size = 4 ∨ o.size = 8 := by
  cases o <;> simp [AtomOp.size]

/-- A number of a word is that of a word. -/
theorem exists_word {n : Nat} (h : n < 2 ^ 32) : ∃ w : Word, BitVec.ofNat 64 n = w.setWidth 64 ∧ w.toNat = n := by
  refine ⟨.ofNat 32 n, BitVec.eq_of_toNat_eq ?_, ?_⟩
  · rw [toNat_setWidth_double, BitVec.toNat_ofNat, BitVec.toNat_ofNat, Nat.mod_eq_of_lt (by omega), Nat.mod_eq_of_lt h]
  · rw [BitVec.toNat_ofNat, Nat.mod_eq_of_lt h]

/-- What the model writes is what the table says, operands of the operation's size. -/
theorem toNat_new {old : Nat} {x y : DWord} (hold : old < 2 ^ (8 * o.size)) (hx : x.toNat < 2 ^ (8 * o.size)) (hy : y.toNat < 2 ^ (8 * o.size)) :
    (o.new (.ofNat 64 old) x y).map BitVec.toNat = atomResult o old x.toNat y.toNat := by
  rcases size_cases o with ho | ho
  · rw [ho] at hold hx hy
    obtain ⟨w, hw, rfl⟩ := exists_word hold
    obtain ⟨wx, hwx, hwx'⟩ := exists_word hx
    obtain ⟨wy, hwy, hwy'⟩ := exists_word hy
    rw [BitVec.ofNat_toNat, BitVec.setWidth_eq] at hwx hwy
    rw [hw, ← hwx', ← hwy', hwx, hwy]
    exact toNat_new_word ho w wx wy
  · rw [ho] at hold
    rw [toNat_new_pair ho, BitVec.toNat_ofNat, Nat.mod_eq_of_lt hold]

/-- What is written fits the location. -/
theorem new_lt {x y z v : DWord} (hv : o.new x y z = some v) : v.toNat < 2 ^ (8 * o.size) := by
  have hword (w : Word) (h : some (w.setWidth 64) = some v) : v.toNat < 2 ^ 32 := by
    rw [← Option.some.inj h, toNat_setWidth_double]
    exact w.isLt
  cases o with
  | add64 => exact v.isLt
  | xchg64 => exact v.isLt
  | cas64 => exact v.isLt
  | cas32 =>
    simp only [AtomOp.new] at hv
    split at hv
    · exact hword _ hv
    · cases hv
  | _ => exact hword _ hv

/-! ### One location, read and written in one step -/

section
variable {x : Asker} {through : Bool} {base : Nat} {y z v : DWord}

/-- The locations of an operation's bytes. -/
abbrev locsFrom (o : AtomOp) (base : Nat) : List Nat := (List.range o.size).map (base + ·)

theorem bytesToNat_locsFrom (s : State) (o : AtomOp) (base : Nat) : bytesToNat ((locsFrom o base).map s.readByte) = s.readNat base o.size := by
  rw [locsFrom, List.map_map]
  rfl

theorem applyAtom_old : (s.applyAtom x o through (locsFrom o base) y z).1 = .ofNat 64 (s.readNat base o.size) := by
  rw [← bytesToNat_locsFrom]
  unfold State.applyAtom
  dsimp only
  split <;> rfl

theorem applyAtom_none (h : o.new (.ofNat 64 (s.readNat base o.size)) y z = none) (l : Nat) :
    (s.applyAtom x o through (locsFrom o base) y z).2.readByte l = (s.logRequest 2 x ((locsFrom o base).headD 0)).readByte l := by
  rw [← bytesToNat_locsFrom] at h
  unfold State.applyAtom
  simp only [h]
  rfl

theorem applyAtom_some (h : o.new (.ofNat 64 (s.readNat base o.size)) y z = some v) :
    ∃ t, Quiet s t ∧ ∀ l, (s.applyAtom x o through (locsFrom o base) y z).2.readByte l
      = (t.writeBytes ((locsFrom o base).zip (natToBytes o.size v.toNat))).readByte l := by
  rw [← bytesToNat_locsFrom] at h
  refine ⟨_, Quiet.logWrites s 2 x (if through = true then (locsFrom o base).map (· / 128) else [])
    (((locsFrom o base).zip (natToBytes o.size v.toNat)).map (·.1)), fun l => ?_⟩
  unfold State.applyAtom
  simp only [h]
  rfl

/-- Outside the location and the rings of the slice logs every byte reads as before. -/
theorem readByte_applyAtom {l : Nat} (hl : l < base ∨ base + o.size ≤ l) (hr : ¬ inLogRing s l) :
    (s.applyAtom x o through (locsFrom o base) y z).2.readByte l = s.readByte l := by
  cases hnew : o.new (.ofNat 64 (s.readNat base o.size)) y z with
  | none => exact (applyAtom_none hnew l).trans ((Quiet.logRequest s _ _ _).readByte l hr)
  | some v =>
    obtain ⟨t, hquiet, hread⟩ := applyAtom_some (x := x) (through := through) hnew
    have hrun := readByte_writeRun (natToBytes o.size v.toNat) t base l
    rw [Translation.natToBytes_length] at hrun
    rw [hread, hrun, if_neg (by omega)]
    exact hquiet.readByte l hr

/-- The location holds what the table says. -/
theorem readNat_applyAtom (hlogs : s.logRegs = []) (hy : y.toNat < 2 ^ (8 * o.size)) (hz : z.toNat < 2 ^ (8 * o.size)) :
    (s.applyAtom x o through (locsFrom o base) y z).2.readNat base o.size
      = (atomResult o (s.readNat base o.size) y.toNat z.toNat).getD (s.readNat base o.size) := by
  rw [← toNat_new (readNat_lt s base o.size) hy hz]
  have hreads {t t' : State} (h : ∀ l, t.readByte l = t'.readByte l) : t.readNat base o.size = t'.readNat base o.size := by
    simp only [State.readNat, h]
  cases hnew : o.new (.ofNat 64 (s.readNat base o.size)) y z with
  | none => exact hreads fun l => (applyAtom_none hnew l).trans ((Quiet.logRequest s _ _ _).readByte l (not_inLogRing hlogs l))
  | some v =>
    obtain ⟨t, -, hread⟩ := applyAtom_some (x := x) (through := through) hnew
    rw [hreads hread, readNat_writeRun, Nat.mod_eq_of_lt (new_lt hnew)]
    rfl

end

/-- A request of an atomic, served. -/
theorem serve_atom {r : Request} {locs : List Nat} {y z : DWord} (h : r.ask = .atom o locs y z) :
    ∃ x, s.serve r = (s.applyAtom x o r.through locs y z).2.answer r (.old (s.applyAtom x o r.through locs y z).1) := by
  unfold State.serve
  rw [h]
  exact ⟨_, rfl⟩

theorem atomicsAreServed_holds : atomicsAreServed := by
  refine ⟨fun pod base old r o b c s hq hask hheld hold hb hc => ?_, fun pod r rest s t hlen hfree hways ht => exec_serviceRound_cons hlen hfree hways ht⟩
  subst hold
  have hfree : s.asksHeld r = false := by
    unfold State.asksHeld
    rw [hask]
    refine List.any_eq_false.2 fun l hl => ?_
    obtain ⟨k, hk, rfl⟩ := List.mem_map.1 hl
    rw [hheld k (List.mem_range.1 hk)]
    exact Bool.false_ne_true
  have hother : ∀ key seq, r.ask ≠ .wayin key seq := fun key seq h => by
    rw [hask] at h
    cases h
  obtain ⟨x, hserve⟩ := serve_atom (s := withQueue s pod []) (locs := locsFrom o base) hask
  obtain ⟨hgroups, -, hpodQ, hreplies, -⟩ := aside_applyAtom (withQueue s pod []) x o r.through (locsFrom o base) b c
  refine ⟨_, (exec_serviceRound_one hq hfree).trans (congrArg _ ((failRefused_other hother _).trans hserve)), hgroups, ?_, ?_, fun hlogs => ?_, fun l hl hr => ?_⟩
  · exact (congrArg (Tab.get [] · pod) hpodQ).trans (queue_withQueue s pod [])
  · change _ ++ [_] = _
    rw [hreplies, applyAtom_old]
    rfl
  · exact readNat_applyAtom (s := withQueue s pod []) hlogs hb hc
  · exact readByte_applyAtom (s := withQueue s pod []) hl hr

/-! ### The words -/

/-- Each word of the table is the atomic word of its operation. -/
theorem exec_atoms {e : (BitVec 7 → BitVec 7 → BitVec 7 → Instr) × AtomOp × Nat × Nat} (he : e ∈ atoms) (d a b : BitVec 7) :
    (∀ s, exec (e.1 d a b) s = Ops.atomWord e.2.1 d a b s) ∧ e.2.2.1 = e.2.1.size ∧ e.2.2.2 = e.2.1.bRegs := by
  simp only [atoms, List.mem_cons, List.not_mem_nil, or_false] at he
  rcases he with rfl | rfl | rfl | rfl | rfl | rfl | rfl | rfl | rfl | rfl | rfl | rfl | rfl | rfl | rfl | rfl
  · exact ⟨fun _ => exec_atomAddI32 .., rfl, rfl⟩
  · exact ⟨fun _ => exec_atomAddI64 .., rfl, rfl⟩
  · exact ⟨fun _ => exec_atomMinI32 .., rfl, rfl⟩
  · exact ⟨fun _ => exec_atomMaxI32 .., rfl, rfl⟩
  · exact ⟨fun _ => exec_atomMinN32 .., rfl, rfl⟩
  · exact ⟨fun _ => exec_atomMaxN32 .., rfl, rfl⟩
  · exact ⟨fun _ => exec_atomAnd32 .., rfl, rfl⟩
  · exact ⟨fun _ => exec_atomOr32 .., rfl, rfl⟩
  · exact ⟨fun _ => exec_atomXor32 .., rfl, rfl⟩
  · exact ⟨fun _ => exec_atomXchg32 .., rfl, rfl⟩
  · exact ⟨fun _ => exec_atomXchg64 .., rfl, rfl⟩
  · exact ⟨fun _ => exec_atomCas32 .., rfl, rfl⟩
  · exact ⟨fun _ => exec_atomCas64 .., rfl, rfl⟩
  · exact ⟨fun _ => exec_atomAddF32 .., rfl, rfl⟩
  · exact ⟨fun _ => exec_atomIncN32 .., rfl, rfl⟩
  · exact ⟨fun _ => exec_atomDecN32 .., rfl, rfl⟩

theorem decide_eq_s0 (d : BitVec 7) : decide (d = 96) = decide (d.toNat = 96) := decide_eq_decide.2 (BitVec.toNat_inj (y := 96)).symm

/-- The operand limits of an atomic (R183), as the statement writes them. -/
def atomLimits (o : AtomOp) (d a b : BitVec 7) : Bool :=
  isEven a && decide (b.toNat % o.bRegs = 0) && (decide (d.toNat = 96) || (decide (d.toNat < 96) && decide (d.toNat % (o.size / 4) = 0)))

/-- What is checked of an atomic word at issue. -/
def atomSig (o : AtomOp) (d a b : BitVec 7) : Sig :=
  { priv := false, opnd := atomLimits o d a b, uses := [useN a 2, useN b o.bRegs, useN d (if d.toNat = 96 then 1 else o.size / 4)] }

theorem bRegs_ok (o : AtomOp) (b : BitVec 7) :
    (if o.bRegs = 4 then isQuad b else if o.bRegs = 2 then isEven b else true) = decide (b.toNat % o.bRegs = 0) := by
  rw [Bool.eq_iff_iff, decide_eq_true_iff]
  cases o <;> simp [AtomOp.bRegs, isQuad, isEven, Nat.mod_one]

theorem destination_ok (o : AtomOp) (d : BitVec 7) :
    (!isS d && (decide (o.size / 4 = 1) || isEven d)) = (decide (d.toNat < 96) && decide (d.toNat % (o.size / 4) = 0)) := by
  have hs : (!isS d) = decide (d.toNat < 96) := by simp [isS, ← decide_not]
  rw [hs, Bool.eq_iff_iff]
  rcases size_cases o with h | h <;> simp [h, isEven, Nat.mod_one]

/-- The checks the model makes are those of the statement. -/
theorem atomSig_eq (o : AtomOp) (d a b : BitVec 7) :
    ({ priv := false,
       opnd := isEven a && (decide (d = 96) || (!isS d && (decide (o.size / 4 = 1) || isEven d)))
         && (if o.bRegs = 4 then isQuad b else if o.bRegs = 2 then isEven b else true),
       uses := [useN a 2, useN b o.bRegs, useN d (if decide (d = 96) = true then 1 else o.size / 4)] } : Sig) = atomSig o d a b := by
  rw [bRegs_ok, destination_ok, decide_eq_s0, atomSig, atomLimits, Bool.and_right_comm]
  simp only [decide_eq_true_eq]

/-- Operands out of their limits. -/
theorem atomWord_opnd (hi : Issuing s u g) (hn : u.snap = none) (hl : atomLimits o d a b = false) :
    Ops.atomWord o d a b s = .next (s.wordTrapped u ((u.ctx g).trap 5 0x05)) := by
  unfold Ops.atomWord
  dsimp only
  rw [atomSig_eq]
  exact word_opnd hi hn rfl hl

/-- Pointers that all pass name their places. -/
theorem checkAll_ok {ag : Agent} {spaces : List Nat} {n : Nat} {k : Access} {ptrs : List (Option Nat × DWord)} {place : Option Nat → Target}
    (h : ∀ p ∈ ptrs, s.checkPtr ag spaces p.2 n k = .ok (place p.1)) :
    s.checkAll ag spaces n k ptrs = .ok (ptrs.map fun p => (p.1, place p.1)) := by
  induction ptrs with
  | nil => rfl
  | cons p ptrs ih => simp only [State.checkAll, h p List.mem_cons_self, ih fun q hq => h q (List.mem_cons_of_mem _ hq), List.map_cons]

/-- The first pointer that fails. -/
theorem checkAll_error {ag : Agent} {spaces : List Nat} {n : Nat} {k : Access} {before after : List (Option Nat × DWord)} {l : Option Nat} {p : DWord}
    {f : PtrFault} (h : ∀ q ∈ before, ∃ y, s.checkPtr ag spaces q.2 n k = .ok y) (hp : s.checkPtr ag spaces p n k = .error f) :
    s.checkAll ag spaces n k (before ++ (l, p) :: after) = .error (p, f) := by
  induction before with
  | nil => simp only [List.nil_append, State.checkAll, hp]
  | cons q before ih =>
    obtain ⟨y, hy⟩ := h q List.mem_cons_self
    simp only [List.cons_append, State.checkAll, hy, ih fun q hq => h q (List.mem_cons_of_mem _ hq)]

/-- Operand and swap value of a lane. -/
theorem atomArgs_eq (c : Ctx) (o : AtomOp) (b : BitVec 7) (l : Nat) : c.atomArgs o b l = operandOf c o b l := by
  cases o <;> rfl

/-- The requests of an atomic word, one a pointer, in lane order. -/
def atomRequests (c : Ctx) (o : AtomOp) (b : BitVec 7) (core op : Nat) (place : Option Nat → Target) (ptrs : List (Option Nat × DWord)) : List Request :=
  ptrs.map fun p =>
    { pod := Ops.podOfLoc core ((place p.1).locs.headD 0), group := c.u.group, op := op, lane := p.1.getD 0,
      ask := .atom o (locsFrom o ((place p.1).locs.headD 0)) (operandOf c o b (p.1.getD 0)).1 (operandOf c o b (p.1.getD 0)).2,
      through := (place p.1).type == 2 }

/-- What an atomic word holds until its old values have come. -/
def atomOp (c : Ctx) (o : AtomOp) (d : BitVec 7) (ptrs : List (Option Nat × DWord)) : LongOp :=
  { (if d.toNat = 96 then c.longOp else c.longOp.marks d (o.size / 4)) with
    waiting := ptrs.length, ptrs := ptrs.map fun p => (p.1.getD 0, p.2), dest := d.toNat, code := o.size }

section
variable {ag : Agent} {ptrs : List (Option Nat × DWord)}

/-- A pointer that fails: nothing is sent. -/
theorem atomWord_fault {before after : List (Option Nat × DWord)} {l : Option Nat} {p : DWord} {f : PtrFault} (hi : Issuing s u g)
    (hl : atomLimits o d a b = true) (hc : Clear s (u.ctx g) (atomSig o d a b).uses) (hag : ag = s.agentOf u.group (u.ctx g).g)
    (hptrs : ptrs = (members (u.ctx g).exec).map fun l => (some l, (u.ctx g).rd64 a l)) (hheld : ∀ p ∈ ptrs, s.entryHeld ag p.2 = false)
    (hsplit : ptrs = before ++ (l, p) :: after) (hok : ∀ q ∈ before, ∃ y, s.checkPtr ag atomSpaces q.2 o.size .atomic = .ok y)
    (hp : s.checkPtr ag atomSpaces p o.size .atomic = .error f) :
    Ops.atomWord o d a b s = .next ((s.walks ag atomSpaces o.size .atomic (ptrs.map (·.2))).wordTrapped u
      { (u.ctx g).trap 7 f.cause with faddr := p, level := f.level, kind := f.kind }) := by
  have hcheck : s.checkAll ag atomSpaces o.size .atomic ptrs = .error (p, f) := hsplit ▸ checkAll_error hok hp
  have hnone : (ptrs.any fun p => s.entryHeld ag p.2) = false := List.any_eq_false.2 fun q hq => by rw [hheld q hq]; exact Bool.false_ne_true
  unfold Ops.atomWord
  dsimp only
  rw [atomSig_eq]
  refine Ops.word_trapWalked hi (fun h => nomatch h) hl hc ?_
  change (if (List.any ((members (u.ctx g).exec).map fun l => (some l, (u.ctx g).rd64 a l))
    fun p => s.entryHeld (s.agentOf u.group (u.ctx g).g) p.2) = true then _ else _) = _
  rw [← hag, ← hptrs, hnone, if_neg Bool.false_ne_true, show (u.ctx g).u.group = u.group from rfl, ← hag, hcheck]
  rfl

/-- Every pointer passes: the requests are on their way. -/
theorem atomWord_sends {place : Option Nat → Target} (hi : Issuing s u g) (hl : atomLimits o d a b = true)
    (hc : Clear s (u.ctx g) (atomSig o d a b).uses) (hag : ag = s.agentOf u.group (u.ctx g).g)
    (hptrs : ptrs = (members (u.ctx g).exec).map fun l => (some l, (u.ctx g).rd64 a l)) (hheld : ∀ p ∈ ptrs, s.entryHeld ag p.2 = false)
    (hroom : flagRoom s (u.ctx g)) (hok : ∀ p ∈ ptrs, s.checkPtr ag atomSpaces p.2 o.size .atomic = .ok (place p.1))
    (hdrain : s.drainFor ag.core (ptrs.flatMap fun p => locsFrom o ((place p.1).locs.headD 0)) = some s1) :
    ∃ t, Quiet s1 t ∧ Ops.atomWord o d a b s = .next (State.wordDone u (slowEffect
      { t with net := t.net ++ atomRequests (u.ctx g) o b ag.core t.nextId place ptrs } (u.ctx g) (atomOp (u.ctx g) o d ptrs))) := by
  obtain ⟨-, hg, -⟩ := id hi
  have hnone : (ptrs.any fun p => s.entryHeld ag p.2) = false := List.any_eq_false.2 fun q hq => by rw [hheld q hq]; exact Bool.false_ne_true
  obtain ⟨t, ht, hquiet⟩ : ∃ t, (each (ptrs.map fun p => (p.1, place p.1)) (fun t s => s.observe ag (t.2.locs.headD 0)) s1).walks ag atomSpaces o.size
      .atomic (ptrs.map (·.2)) = t ∧ Quiet s1 t := ⟨_, rfl, (Quiet.each _ (fun _ v => Quiet.observe v ag _) s1).trans (Quiet.walks _ _ _ _ _ _)⟩
  have hgroups : t.groups = s.groups := hquiet.groups.trans (Aside.drainFor hdrain).groups
  refine ⟨t, hquiet, ?_⟩
  unfold Ops.atomWord
  dsimp only
  rw [atomSig_eq]
  refine Ops.word_ok hi (fun h => nomatch h) hl hc ?_
  change (if (List.any ((members (u.ctx g).exec).map fun l => (some l, (u.ctx g).rd64 a l))
    fun p => s.entryHeld (s.agentOf u.group (u.ctx g).g) p.2) = true then _ else _) = _
  rw [← hag, ← hptrs, hnone, if_neg Bool.false_ne_true, show (u.ctx g).u.group = u.group from rfl, ← hag, checkAll_ok hok]
  dsimp only
  rw [List.flatMap_map, hdrain]
  dsimp only
  rw [ht]
  simp only [List.map_map, List.length_map, Function.comp_def, atomArgs_eq, decide_eq_s0, decide_eq_true_eq]
  exact issueLong_next (s := { t with net := t.net ++ atomRequests (u.ctx g) o b ag.core t.nextId place ptrs }) (hgroups ▸ hg)
    (fun g' hg' => hroom g' (hgroups ▸ hg')) (atomOp (u.ctx g) o d ptrs)

end

/-- Under way the word marks the registers of its old values, none where D is s0, and holds no result yet. -/
theorem atomOp_eq (hd : d.toNat = 96 ∨ d.toNat < 96) (c : Ctx) (o : AtomOp) (ptrs : List (Option Nat × DWord)) :
    atomOp c o d ptrs = { c.longOp with
      vMarks := if d.toNat = 96 then [] else (List.range (o.size / 4)).map (d.toNat + ·), waiting := ptrs.length,
      ptrs := ptrs.map fun p => (p.1.getD 0, p.2), dest := d.toNat, code := o.size } := by
  by_cases h : d.toNat = 96
  · simp only [atomOp, h, if_true]
    rfl
  · have hs : isS d = false := decide_eq_false (by omega)
    simp only [atomOp, h, if_false, LongOp.marks, hs]
    rfl

theorem destination_of_limits (h : atomLimits o d a b = true) : d.toNat = 96 ∨ d.toNat < 96 := by
  simp only [atomLimits, Bool.and_eq_true, Bool.or_eq_true, decide_eq_true_eq] at h
  exact h.2.imp_right And.left

theorem atomicWordsIssue_holds : atomicWordsIssue := by
  unfold atomicWordsIssue
  rintro e he d a b s s1 u g ag ptrs limits hi rfl hag hptrs
  obtain ⟨hx, hn, hb⟩ := exec_atoms he d a b
  rw [hx, hn, hb]
  refine ⟨fun hsnap hl => atomWord_opnd hi hsnap hl, fun hl hc hheld => ⟨fun place locs hroom hok hlocs hdrain => ?_, fun before l p f after hsplit hok hp =>
    atomWord_fault hi hl hc hag hptrs hheld hsplit hok hp⟩⟩
  obtain rfl : locs = fun l => locsFrom e.2.1 ((place l).locs.headD 0) := funext hlocs
  obtain ⟨-, hg, -⟩ := id hi
  have haside := Aside.drainFor hdrain
  obtain ⟨t, hquiet, hexec⟩ := atomWord_sends hi hl hc hag hptrs hheld hroom hok hdrain
  rw [atomOp_eq (destination_of_limits hl)] at hexec
  have hsame := haside.trans hquiet.toAside
  refine ⟨_, _, t.nextId, _, hexec, find_onGroup (hsame.groups.symm ▸ hg) _, rfl, hsame.nextId_le, hsame.nextId_eq, rfl, rfl, rfl, rfl, rfl, rfl, rfl, rfl, rfl,
    rfl, rfl, rfl, rfl, ?_, fun l hl => ?_⟩
  · exact congrArg (· ++ _) hsame.net
  · exact hquiet.readByte l fun hr => hl ((haside.inLogRing_iff l).1 hr)

/-- Settles O56: the words by their checks and pointers, the service by the location's bytes before and after, and a round by cutting it after its
first request. -/
theorem atomicWords : Obligations.AtomicWords := by
  unfold Obligations.AtomicWords
  exact ⟨atomicWordsIssue_holds, atomicsAreServed_holds⟩

end Sys2Proof.Atomics

/-! What a service group answers to a request on a waypoint key (09 R188-R199). -/

namespace Sys2Proof.KeyRequests

open Sys2Proof.Machine Sys2Proof.Claims Sys2Proof.ServiceRounds

variable {s t : State} {pod n op : Nat} {r : Request} {key : DWord} {seq : Word} {e : WayEntry} {g : Group}

/-! ### Why a request on a number is refused -/

/-- The number is taken: out of the window, waited for, skipped, or the holder's own (R189). -/
def Taken (e : WayEntry) (seq : Word) : Prop :=
  2 ^ 31 ≤ (seq - e.next).toNat ∨ (∃ w ∈ e.waits, w.seq = seq) ∨ (∃ k ∈ e.skips, k.seq = seq) ∨ (e.holder ≠ none ∧ seq = e.next)

theorem inUse_iff : e.inUse seq = true ↔ Taken e seq := by
  simp [WayEntry.inUse, Taken, Option.isSome_iff_ne_none, or_assoc]

/-- The sections a lane holds and those it waits for (R199). -/
def sections (s : State) (g : Group) (r : Request) : Nat :=
  Tab.get 0 g.sections r.lane + (s.waypoints.map fun x => (x.2.waits.filter fun w => w.group == r.group && w.lane == r.lane).length).sum

theorem wayRefusal_eq (he : s.way key = some e) (hg : Tab.find s.groups r.group = some g) (takes : Bool) :
    s.wayRefusal r.group r.lane takes key seq =
      if e.poison = true then some 0x10 else if e.inUse seq = true then some 0x12 else if (takes && decide (15 ≤ sections s g r)) = true then some 0x11
      else none := by
  unfold State.wayRefusal State.waitsOf
  rw [he, hg, ← List.sum_eq_foldl_nat]
  rfl

/-- A number free on an entry that is not poisoned is refused only to a lane that would hold too many sections. -/
theorem wayRefusal_none (he : s.way key = some e) (hg : Tab.find s.groups r.group = some g) (hp : e.poison = false) (hu : ¬ Taken e seq) {takes : Bool}
    (ht : takes = true → sections s g r < 15) : s.wayRefusal r.group r.lane takes key seq = none := by
  have hroom : ¬ (takes && decide (15 ≤ sections s g r)) = true := by
    rw [Bool.and_eq_true, decide_eq_true_iff]
    rintro ⟨h, hle⟩
    exact absurd (ht h) (by omega)
  rw [wayRefusal_eq he hg, if_neg (by rw [hp]; exact Bool.false_ne_true), if_neg (mt inUse_iff.1 hu), if_neg hroom]

/-! ### The requests, one by one -/

/-- A request that names a number, `takes` where its grant makes a section. -/
def NamesNumber (r : Request) (key : DWord) (seq : Word) (takes : Bool) : Prop :=
  (takes = true ∧ (r.ask = .wayin key seq ∨ r.ask = .waytry key seq)) ∨ (takes = false ∧ r.ask = .wayskip key seq)

theorem serve_refused {takes : Bool} {c : BitVec 8} (hask : NamesNumber r key seq takes) (h : s.wayRefusal r.group r.lane takes key seq = some c) :
    s.serve r = s.answer r (.failed c) := by
  unfold State.serve
  rcases hask with ⟨rfl, hask | hask⟩ | ⟨rfl, hask⟩ <;> simp only [hask, h]

theorem wayEntry_listed (he : s.way key = some e) : s.wayEntry key = some e := by
  rw [State.wayEntry, he]

theorem serve_wayin (hask : r.ask = .wayin key seq) (he : s.way key = some e) (h : s.wayRefusal r.group r.lane true key seq = none)
    (hroom : s.recordsFull key = false) :
    s.serve r = State.settleKey
      { s with waypoints := Tab.put s.waypoints key.toNat { e with waits := e.waits ++ [{ seq := seq, group := r.group, op := r.op, lane := r.lane }] },
               probes := s.probes ++ if e.holder = none then [] else [(r.group, r.op)] } key := by
  unfold State.serve
  simp only [hask, h, wayEntry_listed he, hroom, Bool.false_eq_true, if_false]
  cases hh : e.holder with
  | none => simp [State.putWay]
  | some x => simp [State.putWay]

theorem serve_wayskip (hask : r.ask = .wayskip key seq) (he : s.way key = some e) (h : s.wayRefusal r.group r.lane false key seq = none)
    (hroom : s.recordsFull key = false) :
    s.serve r = (s.putWay key { e with skips := e.skips ++ [{ seq := seq, firm := false, group := r.group, op := r.op, lane := r.lane }] }).answer r .done := by
  unfold State.serve
  simp only [hask, h, wayEntry_listed he, hroom, Bool.false_eq_true, if_false]

theorem way_putWay (s : State) (key : DWord) (e : WayEntry) (k : DWord) : (s.putWay key e).way k = if k = key then some e else s.way k := by
  simp [State.way, State.putWay, BitVec.toNat_inj]

/-- `waytry` takes a free section at its current number. -/
theorem serve_waytry_granted (hask : r.ask = .waytry key seq) (he : s.way key = some e) (h : s.wayRefusal r.group r.lane true key seq = none)
    (hfree : e.holder = none ∧ seq = e.next) :
    (s.serve r).way key = some { e with holder := some (r.group, r.lane, r.op) }
      ∧ (s.serve r).replies = s.replies ++ [⟨r.pod, r.group, r.op, r.lane, .granted⟩] := by
  have hcond : (e.holder.isNone && seq == e.next) = true := by simpa using hfree
  unfold State.serve
  simp only [hask, h, wayEntry_listed he, hcond, if_true]
  exact ⟨(way_putWay s key _ key).trans (if_pos rfl), rfl⟩

theorem serve_waytry_notGranted (hask : r.ask = .waytry key seq) (he : s.way key = some e) (h : s.wayRefusal r.group r.lane true key seq = none)
    (hfree : ¬ (e.holder = none ∧ seq = e.next)) :
    (s.serve r).way key = some e ∧ (s.serve r).replies = s.replies ++ [⟨r.pod, r.group, r.op, r.lane, .notGranted⟩] := by
  have hcond : ¬ (e.holder.isNone && seq == e.next) = true := by simpa using hfree
  unfold State.serve
  simp only [hask, h, wayEntry_listed he, if_neg hcond]
  exact ⟨(way_putWay s key _ key).trans (if_pos rfl), rfl⟩

/-- The lane is the holder of the section, by whatever word. -/
theorem holds_iff : (e.holder.map fun h => (h.1, h.2.1)) = some (r.group, r.lane) ↔ ∃ op, e.holder = some (r.group, r.lane, op) := by
  rcases e.holder with _ | ⟨a, b, c⟩ <;> simp

theorem serve_wayout_holder (hask : r.ask = .wayout key) (he : s.way key = some e) (hh : e.holder = some (r.group, r.lane, op)) :
    s.serve r = ((State.onGroup (s.putWay key { e with holder := none, next := e.next + 1 }) r.group fun h => h.dropSection r.lane).settleKey key).answer r .done := by
  unfold State.serve
  simp only [hask, he]
  exact if_pos (holds_iff.2 ⟨op, hh⟩)

theorem serve_wayout_other (hask : r.ask = .wayout key) (he : s.way key = some e) (hh : ∀ op, e.holder ≠ some (r.group, r.lane, op)) :
    s.serve r = s.answer r (.failed 0x12) := by
  unfold State.serve
  simp only [hask, he]
  exact if_neg (mt holds_iff.1 (not_exists.2 hh))

/-- The entry may be closed: poisoned, or free of sections, waits and skips. -/
def Closable (e : WayEntry) : Prop := e.poison = true ∨ (e.holder = none ∧ e.waits = [] ∧ e.skips = [])

theorem closable_iff : (e.poison || (e.holder.isNone && e.waits.isEmpty && e.skips.isEmpty)) = true ↔ Closable e := by
  simp [Closable, and_assoc]

theorem serve_wayclose_closable (hask : r.ask = .wayclose key) (he : s.way key = some e) (hc : Closable e) :
    s.serve r = ({ s with waypoints := Tab.erase s.waypoints key.toNat } : State).answer r .done := by
  unfold State.serve
  simp only [hask, he]
  exact if_pos (closable_iff.2 hc)

theorem serve_wayclose_other (hask : r.ask = .wayclose key) (he : s.way key = some e) (hc : ¬ Closable e) : s.serve r = s.answer r (.failed 0x12) := by
  unfold State.serve
  simp only [hask, he]
  exact if_neg (mt closable_iff.1 hc)

theorem toNat_mul_pow (b : Bool) (k : Nat) : b.toNat * 2 ^ k = if b = true then 2 ^ k else 0 := by
  cases b <;> simp

theorem serve_wayqry (hask : r.ask = .wayqry key) (he : s.way key = some e) :
    s.serve r = s.answer r (.status e.next (.ofNat 32 (2 ^ 31 + (if e.holder = none then 0 else 2 ^ 30) + (if e.poison = true then 2 ^ 29 else 0)
      + (if e.ext = true then 2 ^ 28 else 0) + min 255 e.waits.length * 2 ^ 8 + min 255 e.skips.length))) := by
  have hholder : (if e.holder.isSome = true then 2 ^ 30 else 0) = if e.holder = none then 0 else 2 ^ 30 := by
    cases e.holder <;> simp
  unfold State.serve
  simp only [hask, he]
  rw [toNat_mul_pow, toNat_mul_pow, toNat_mul_pow, hholder]

/-! ### What a round adds for a `wayin` it has served -/

/-- No lane of the word has been refused. -/
def NoneRefused (s : State) (n op : Nat) : Prop := ∀ g w, Tab.find s.groups n = some g → Tab.find g.ways op = some w → w.failed = []

theorem failKnown_noneRefused (h : NoneRefused s n op) : s.failKnown n op = s := by
  unfold State.failKnown
  dsimp only
  split
  · rfl
  next w now hfind =>
    obtain ⟨g, hg, hw⟩ := Option.bind_eq_some_iff.1 hfind
    obtain ⟨w', hw', heq⟩ := Option.map_eq_some_iff.1 hw
    cases heq
    exact if_pos (.inr (.inl (h g _ hg hw')))

/-- Settling a key changes no way word. -/
theorem ways_settleKey (s : State) (key : DWord) (n : Nat) :
    (Tab.find (s.settleKey key).groups n).map Group.ways = (Tab.find s.groups n).map Group.ways := by
  unfold State.settleKey
  split
  · rfl
  · dsimp only
    split
    · rfl
    · split
      · rfl
      next w _ =>
        change (Tab.find (Tab.change s.groups w.group _) n).map Group.ways = _
        rw [Tab.find_change]
        split
        next h => rw [h, Option.map_map]; rfl
        · rfl

theorem NoneRefused.settleKey (h : NoneRefused s n op) (key : DWord) : NoneRefused (s.settleKey key) n op := by
  intro g w hg hw
  have hways := ways_settleKey s key n
  rw [hg] at hways
  obtain ⟨g', hg', heq⟩ := Option.map_eq_some_iff.1 hways.symm
  exact h g' w hg' (heq ▸ hw)

theorem failRefused_noneRefused (h : NoneRefused s r.group r.op) : failRefused r s = s := by
  unfold failRefused
  split
  · exact failKnown_noneRefused h
  · rfl

/-- A request on a key waits for no pseudo-channel. -/
theorem asksHeld_way (h : ∀ o locs b c, r.ask ≠ .atom o locs b c) : s.asksHeld r = false := by
  unfold State.asksHeld
  split
  next o locs b c hr => exact absurd hr (h o locs b c)
  · rfl

/-- A round that serves one request, of a word none of whose lanes has been refused. -/
theorem exec_serviceRound_noneRefused (hq : Tab.get [] s.podQ pod = [r]) (hask : ∀ o locs b c, r.ask ≠ .atom o locs b c)
    (ht : (withQueue s pod []).serve r = t) (h : NoneRefused t r.group r.op) : exec (.serviceRound pod) s = .next t := by
  rw [exec_serviceRound_one hq (asksHeld_way hask), ht, failRefused_noneRefused h]

/-- The requests on keys that end with their service: all but `wayin`. -/
def EndsServed : Ask → Prop
  | .atom .. | .wayin .. => False
  | _ => True

theorem exec_serviceRound_endsServed {a : Ask} (hq : Tab.get [] s.podQ pod = [r]) (hask : r.ask = a) (ha : EndsServed a)
    (ht : (withQueue s pod []).serve r = t) : exec (.serviceRound pod) s = .next t := by
  subst hask
  have hatom : ∀ o locs b c, r.ask ≠ .atom o locs b c := fun o locs b c hr => by rw [hr] at ha; exact ha
  have hwayin : ∀ key seq, r.ask ≠ .wayin key seq := fun key seq hr => by rw [hr] at ha; exact ha
  rw [exec_serviceRound_one hq (asksHeld_way hatom), ht, failRefused_other hwayin]

theorem waypointRequests_holds : waypointRequests := by
  intro pod r s q key seq e g answer hq hqs he hg hfailed hanswer used taken
  obtain rfl : answer = fun x t => t.answer r x := funext fun x => funext fun t => hanswer x t
  subst hqs
  have hnone : NoneRefused (withQueue s pod []) r.group r.op := fun g' w hg' hw => by
    obtain rfl : g = g' := Option.some.inj (hg.symm.trans hg')
    exact hfailed w hw
  have hrefused {takes : Bool} {c : BitVec 8} (hask : NamesNumber r key seq takes)
      (h : (withQueue s pod []).wayRefusal r.group r.lane takes key seq = some c) :
      exec (.serviceRound pod) s = .next ((withQueue s pod []).answer r (.failed c)) := by
    refine exec_serviceRound_noneRefused hq (fun o locs b c hr => ?_) (serve_refused hask h) hnone
    rcases hask with ⟨-, hask | hask⟩ | ⟨-, hask⟩ <;> exact nomatch hr.symm.trans hask
  refine ⟨fun takes hask => ⟨fun hp => ?_, fun hp hu => ?_, fun hp hu ht hle => ?_⟩, fun hp hu hroom => ⟨fun hask hlt => ?_, fun hask => ?_⟩,
    fun hask hp hu hlt => ?_, fun hask => ⟨fun op hh => ?_, fun hh => ?_⟩, fun hask => ⟨fun hc => ?_, fun hp hc => ?_⟩, fun hask => ?_⟩
  · exact hrefused hask (by rw [wayRefusal_eq (s := withQueue s pod []) he hg, if_pos hp])
  · exact hrefused hask (by rw [wayRefusal_eq (s := withQueue s pod []) he hg, if_neg (by rw [hp]; exact Bool.false_ne_true), if_pos (inUse_iff.2 hu)])
  · have hfull : (takes && decide (15 ≤ sections (withQueue s pod []) g r)) = true := by
      rw [ht, Bool.true_and, decide_eq_true_iff]
      exact hle
    exact hrefused hask (by
      rw [wayRefusal_eq (s := withQueue s pod []) he hg, if_neg (by rw [hp]; exact Bool.false_ne_true), if_neg (mt inUse_iff.1 hu), if_pos hfull])
  · have hserve := serve_wayin (s := withQueue s pod []) hask he (wayRefusal_none he hg hp hu fun _ => hlt) hroom
    refine exec_serviceRound_noneRefused hq (fun o locs b c hr => nomatch hr.symm.trans hask) hserve (.settleKey ?_ key)
    exact hnone
  · exact exec_serviceRound_endsServed hq hask trivial (serve_wayskip (s := withQueue s pod []) hask he (wayRefusal_none he hg hp hu nofun) hroom)
  · have hexec := exec_serviceRound_endsServed hq hask trivial rfl
    have hok := wayRefusal_none (s := withQueue s pod []) (takes := true) he hg hp hu fun _ => hlt
    by_cases hfree : e.holder = none ∧ seq = e.next
    · obtain ⟨hway, hreplies⟩ := serve_waytry_granted (s := withQueue s pod []) hask he hok hfree
      exact ⟨_, _, hexec, hway, by rw [if_pos hfree]; exact ⟨rfl, hreplies⟩⟩
    · obtain ⟨hway, hreplies⟩ := serve_waytry_notGranted (s := withQueue s pod []) hask he hok hfree
      exact ⟨_, _, hexec, hway, by rw [if_neg hfree]; exact ⟨rfl, hreplies⟩⟩
  · exact exec_serviceRound_endsServed hq hask trivial (serve_wayout_holder (s := withQueue s pod []) hask he hh)
  · exact exec_serviceRound_endsServed hq hask trivial (serve_wayout_other (s := withQueue s pod []) hask he hh)
  · exact exec_serviceRound_endsServed hq hask trivial (serve_wayclose_closable (s := withQueue s pod []) hask he hc)
  · refine exec_serviceRound_endsServed hq hask trivial (serve_wayclose_other (s := withQueue s pod []) hask he ?_)
    rintro (h | ⟨h, hw, hk⟩)
    · exact Bool.noConfusion (hp.symm.trans h)
    · exact hc.elim (· h) (Or.elim · (· hw) (· hk))
  · exact exec_serviceRound_endsServed hq hask trivial (serve_wayqry (s := withQueue s pod []) hask he)

end Sys2Proof.KeyRequests

/-! The steps that carry requests and end way words (09 R181, R193-R195, R200-R203). -/

namespace Sys2Proof.WaySteps

open Sys2Proof.Machine Sys2Proof.Claims Sys2Proof.ServiceRounds Sys2Proof.KeyRequests Sys2Proof.RegisterWrites

variable {s t : State} {pod n op lane : Nat} {g : Group} {w x : WayOp} {l : Nat} {cause : BitVec 8}

/-! ### A request enters its pod's queue (R181, R182) -/

/-- The oldest element with a property, cut out of a list. -/
theorem erase_split {α : Type} [DecidableEq α] {l before after : List α} {a : α} (h : l = before ++ a :: after) (ha : a ∉ before) :
    l.erase a = before ++ after := by
  rw [h, List.erase_append_right _ ha, List.erase_cons_head]

/-- The groups that have a request for the pod on its way. -/
def askers (s : State) (pod : Nat) : List Nat := ((s.net.filter fun r => r.pod = pod).map (·.group)).eraseDups

/-- Where there are any, the choice names one of them. -/
theorem exists_chosen (h : ∃ r ∈ s.net, r.pod = pod) :
    ∃ m, (askers s pod)[s.pick % (askers s pod).length]? = some m ∧ ∃ r ∈ s.net, r.pod = pod ∧ r.group = m := by
  obtain ⟨r, hr, hpod⟩ := h
  have hmem : r.group ∈ askers s pod :=
    List.mem_eraseDups.2 (List.mem_map.2 ⟨r, List.mem_filter.2 ⟨hr, decide_eq_true hpod⟩, rfl⟩)
  have hlt := Nat.mod_lt s.pick (List.length_pos_of_mem hmem)
  obtain ⟨r', hr', hm⟩ := List.mem_map.1 (List.mem_eraseDups.1 (List.getElem_mem hlt))
  obtain ⟨hnet, hpod'⟩ := List.mem_filter.1 hr'
  exact ⟨_, List.getElem?_eq_getElem hlt, r', hnet, of_decide_eq_true hpod', hm⟩

/-- The oldest request of a group for a pod. -/
theorem oldest_request {m : Nat} (h : ∃ r ∈ s.net, r.pod = pod ∧ r.group = m) :
    ∃ r, ((s.net.filter fun r => r.pod = pod).find? fun r => r.group = m) = some r ∧ r.pod = pod ∧ r.group = m
      ∧ ∃ before after, s.net = before ++ r :: after ∧ ∀ q ∈ before, ¬ (q.pod = pod ∧ q.group = m) := by
  rw [List.find?_filter]
  obtain ⟨r, hr⟩ := Option.isSome_iff_exists.1 (List.find?_isSome (p := fun r : Request => decide (decide (r.pod = pod) = true ∧ decide (r.group = m) = true)).2
    (by simpa using h))
  obtain ⟨hp, before, after, hsplit, hbefore⟩ := List.find?_eq_some_iff_append.1 hr
  simp only [decide_eq_true_eq] at hp
  exact ⟨r, hr, hp.1, hp.2, before, after, hsplit, fun q hq hc => absurd (hbefore q hq) (by simp [hc])⟩

theorem exec_serviceRequestEnqueue_room (h : ∃ r ∈ s.net, r.pod = pod) (hroom : (Tab.get [] s.podQ pod).length < 256) :
    ∃ before r after, s.net = before ++ r :: after ∧ r.pod = pod ∧ (∀ q ∈ before, ¬ (q.pod = pod ∧ q.group = r.group))
      ∧ exec (.serviceRequestEnqueue pod) s =
          .next { s with net := before ++ after, podQ := Tab.set [] s.podQ pod (Tab.get [] s.podQ pod ++ [r]) } := by
  obtain ⟨m, hm, hmine⟩ := exists_chosen h
  obtain ⟨r, hr, hpod, hgroup, before, after, hsplit, hbefore⟩ := oldest_request hmine
  subst hgroup
  rw [askers] at hm
  refine ⟨before, r, after, hsplit, hpod, hbefore, ?_⟩
  rw [exec_serviceRequestEnqueue]
  unfold execServiceRequestEnqueue
  simp only [hm, hr, Nat.not_le.2 hroom, if_false, erase_split hsplit fun h => hbefore r h ⟨hpod, rfl⟩]

/-! ### A reply reaches its word (R181) -/

section
variable {before after : List Reply} {r : Reply}

theorem find_reply (h : s.replies = before ++ r :: after) (hb : ∀ q ∈ before, q.pod ≠ pod) (hr : r.pod = pod) :
    (s.replies.find? fun q => q.pod = pod) = some r :=
  List.find?_eq_some_iff_append.2 ⟨decide_eq_true hr, before, after, h, fun q hq => by simpa using hb q hq⟩

theorem erase_reply (h : s.replies = before ++ r :: after) (hb : ∀ q ∈ before, q.pod ≠ pod) (hr : r.pod = pod) : s.replies.erase r = before ++ after :=
  erase_split h fun hmem => hb r hmem hr

theorem exec_serviceReply_old {v : DWord} (h : s.replies = before ++ r :: after) (hb : ∀ q ∈ before, q.pod ≠ pod) (hr : r.pod = pod)
    (hg : Tab.find s.groups r.group = some g) (ha : r.answer = .old v) :
    exec (.serviceReply pod) s = .next (({ s with replies := before ++ after } : State).onGroup r.group fun g =>
      { g with longs := Tab.change g.longs r.op (LongOp.oldValue r.lane v) }) := by
  rw [exec_serviceReply]
  unfold execServiceReply
  simp only [find_reply h hb hr, erase_reply h hb hr, hg, ha]

theorem exec_serviceReply_failed (h : s.replies = before ++ r :: after) (hb : ∀ q ∈ before, q.pod ≠ pod) (hr : r.pod = pod)
    (hg : Tab.find s.groups r.group = some g) (ha : r.answer = .failed cause) (hw : Tab.find g.ways r.op = some w) (hm : w.minor = 0)
    (hx : x = { w with waiting := w.waiting - 1, failed := if Tab.find w.failed r.lane = none then Tab.put w.failed r.lane cause else w.failed }) :
    exec (.serviceReply pod) s = .next
      ((({ s with replies := before ++ after } : State).onGroup r.group fun h => { h with ways := Tab.put h.ways r.op x }).failKnown r.group r.op) := by
  have hfailed : (if (Tab.find w.failed r.lane).isSome = true then w.failed else Tab.put w.failed r.lane cause)
      = if Tab.find w.failed r.lane = none then Tab.put w.failed r.lane cause else w.failed := by
    cases Tab.find w.failed r.lane <;> simp
  rw [exec_serviceReply]
  unfold execServiceReply State.wayReply
  simp only [find_reply h hb hr, erase_reply h hb hr, hg, ha, hw, hm, if_true, hfailed, hx]

end

/-! ### A `wayin` one of whose lanes was refused (R193) -/

/-- The requests of a word on their way, as the model looks for them. -/
theorem requestsOpen_iff : (s.net.any fun r => r.group == n && r.op == op) = true ∨ (s.podQ.any fun q => q.2.any fun r => r.group == n && r.op == op) = true
    ↔ requestsOpen s n op := by
  simp [requestsOpen]

/-- Nothing happens before every home has taken up the word's requests. -/
theorem failKnown_open (h : requestsOpen s n op) : s.failKnown n op = s := by
  unfold State.failKnown
  dsimp only
  split
  · rfl
  · exact if_pos (.inr (.inr (requestsOpen_iff.2 h)))

/-- The refusals among the replies on their way, as the model looks for them. -/
theorem lateFailure_eq (n op : Nat) (q : Reply) : lateFailure n op q = match q.answer with
    | .failed c => if (q.group == n && q.op == op) = true then some (q.lane, c) else none
    | _ => none := by
  unfold lateFailure
  cases q.answer <;> simp

/-- Then it fails by its lowest failing lane. -/
theorem failKnown_closed (hg : Tab.find s.groups n = some g) (hw : Tab.find g.ways op = some w) (hm : w.minor = 0) (hf : w.failed ≠ [])
    (ho : ¬ requestsOpen s n op) (hl : lowestFailure (w.failed ++ s.replies.filterMap (lateFailure n op)) = some (l, cause)) :
    s.failKnown n op = s.failWayin n op w cause l (s.nowOf g) := by
  have hcond : ¬ (w.minor ≠ 0 ∨ w.failed = [] ∨ (s.net.any fun r => r.group == n && r.op == op) = true
      ∨ (s.podQ.any fun q => q.2.any fun r => r.group == n && r.op == op) = true) := by
    rintro (h | h | h)
    · exact h hm
    · exact hf h
    · exact ho (requestsOpen_iff.1 h)
  simp only [funext (lateFailure_eq n op)] at hl
  unfold State.failKnown
  simp only [hg, hw, Option.bind_some, Option.map_some, if_neg hcond]
  split
  next hl' => cases hl.symm.trans hl'; rfl
  next hl' => cases hl.symm.trans hl'

theorem put_ne_nil {β : Type} (t : Tab β) (k : Nat) (v : β) : Tab.put t k v ≠ [] := fun h => by
  have hfind := Tab.find_put t k k v
  rw [h, if_pos rfl] at hfind
  cases hfind

/-- A list of failures that keeps the first refusal of a lane is not empty. -/
theorem failed_ne_nil (t : Tab (BitVec 8)) (k : Nat) (c : BitVec 8) : (if Tab.find t k = none then Tab.put t k c else t) ≠ [] := by
  split
  · exact put_ne_nil t k c
  next h => rintro rfl; exact h rfl

/-! ### A `wayin` ends (R193, R202) -/

theorem slice_wake {i : Nat} (hi : i < g.slices.length) (p : Wait → Bool) : (g.wake p).slice i = (g.slice i).onSeq (Seq.wake p) := by
  simp [Group.slice, Group.wake, List.getD_eq_getElem?_getD, hi]

/-- A word that ends is no longer listed, and its slices wait no longer. -/
theorem endWay_group (hg : Tab.find s.groups n = some g) : ∃ h, Tab.find (s.endWay n op).groups n = some h ∧ Tab.find h.ways op = none
    ∧ ∀ i, i < g.slices.length → (h.slice i).seq.wait = if (g.slice i).seq.wait = .way op then .none else (g.slice i).seq.wait := by
  refine ⟨_, find_onGroup hg _, ?_, fun i hi => ?_⟩
  · exact (Tab.find_erase g.ways op op).trans (if_pos rfl)
  · refine (congrArg (·.seq.wait) (slice_wake (g := { g with ways := Tab.erase g.ways op }) hi _)).trans ?_
    change (Seq.wake _ (g.slice i).seq).wait = _
    unfold Seq.wake
    simp only [beq_iff_eq]
    split <;> rfl

theorem exec_wayinComplete_granted (hg : Tab.find s.groups n = some g) (hw : Tab.find g.ways op = some w) (hm : w.minor = 0) (hwait : w.waiting = 0)
    (hf : w.failed = []) : exec (.wayinComplete n op) s = .next ((s.acquire (s.coreOf g) 2).endWay n op) := by
  rw [exec_wayinComplete]
  unfold execWayinComplete
  simp only [hg, hw, if_pos (And.intro hm (And.intro hwait hf))]

theorem core_acquire (s : State) (c : Nat) : ((s.acquire c 2).core c).l1 = [] := by
  rw [State.acquire, if_neg (by decide), Scheduling.core_onCore, if_pos rfl]

/-- The trap of a word other than `waytry` is not asynchronous. -/
theorem trap_sync (hm : w.minor ≠ 3) (key : DWord) (lanes : LaneSet) : w.trap cause key lanes =
    { stage := 7, cause := cause, pc := w.pc, word := w.word, faddr := key, level := 0, kind := 0, async := false, lanes := lanes, slices := w.slices,
      born := 0 } := by
  rw [WayOp.trap, decide_eq_false hm]

theorem exec_wayinTimeout_late (hg : Tab.find s.groups n = some g) (hw : Tab.find g.ways op = some w) (h : w.timedOut g (s.nowOf g - 1) = true) :
    exec (.wayinTimeout n op) s = .next (s.failWayin n op w 0x0F w.lateLane (s.nowOf g - 1)) := by
  rw [exec_wayinTimeout]
  unfold execWayinTimeout
  simp only [hg, hw, h, if_true]

/-! ### Deadlock (R200, R201) -/

/-- A lane's wait stands on a section whose holder's wait-for path returns to the waiting group. -/
def Closes (s : State) (n op : Nat) (e : Nat × DWord) : Prop :=
  ∃ x h, s.way e.2 = some x ∧ x.holder = some h ∧ (∃ y ∈ x.waits, y.group = n ∧ y.op = op ∧ y.lane = e.1) ∧ s.leadsBack n 3 h.1 = true

/-- The same, as the model decides it. -/
def closes (s : State) (n op : Nat) (e : Nat × DWord) : Bool :=
  match s.way e.2 with
  | some x => (x.waits.any fun y => y.group == n && y.op == op && y.lane == e.1) && match x.holder with
    | some h => s.leadsBack n 3 h.1
    | none => false
  | none => false

theorem closes_iff {e : Nat × DWord} : closes s n op e = true ↔ Closes s n op e := by
  unfold closes Closes
  cases s.way e.2 with
  | none => simp
  | some x =>
    simp only [Bool.and_eq_true, List.any_eq_true, beq_iff_eq, and_assoc]
    cases hh : x.holder with
    | none => simp [hh]
    | some h =>
      refine ⟨fun ⟨hwait, hback⟩ => ⟨x, h, rfl, hh, hwait, hback⟩, ?_⟩
      rintro ⟨x', h', hx, hh', hclosed⟩
      cases hx
      cases hh.symm.trans hh'
      exact hclosed

/-- Wait-for paths follow the entries of keys alone. -/
theorem leadsBack_congr (h : t.waypoints = s.waypoints) (n k : Nat) : ∀ m, t.leadsBack n k m = s.leadsBack n k m := by
  induction k with
  | zero => exact fun m => rfl
  | succ k ih => exact fun m => by simp only [State.leadsBack, State.waitsFor, h, funext ih]

theorem closes_congr (h : t.waypoints = s.waypoints) (e : Nat × DWord) : closes t n op e = closes s n op e := by
  simp only [closes, State.way, h, leadsBack_congr h]

/-- The check that was waiting is over. -/
def probed (s : State) (n op : Nat) : State := { s with probes := s.probes.erase (n, op) }

theorem exec_waypointProbe_quiet (hg : Tab.find s.groups n = some g) (hw : Tab.find g.ways op = some w) (h : ∀ e ∈ w.keys, ¬ Closes s n op e) :
    exec (.waypointProbe n op) s = .next (probed s n op) := by
  have hfind : w.keys.find? (closes (probed s n op) n op) = none :=
    List.find?_eq_none.2 fun e he hc => h e he (closes_iff.1 ((closes_congr rfl e).symm.trans hc))
  rw [exec_waypointProbe]
  unfold execWaypointProbe
  simp only [hg, hw]
  split
  next e he => cases hfind.symm.trans he
  · rfl

theorem change_congr {β : Type} {t : Tab β} {k : Nat} {v : β} (h : Tab.find t k = some v) {f f' : β → β} (hf : f v = f' v) :
    Tab.change t k f = Tab.change t k f' := by
  simp only [Tab.change, h, hf]

theorem onGroup_congr {f f' : Group → Group} (hg : Tab.find s.groups n = some g) (h : f g = f' g) : s.onGroup n f = s.onGroup n f' := by
  rw [State.onGroup, State.onGroup, change_congr hg h]

/-- The lane whose wait closes a cycle is refused. -/
theorem exec_waypointProbe_closes {before after : List (Nat × DWord)} {e : Nat × DWord} (hg : Tab.find s.groups n = some g)
    (hw : Tab.find g.ways op = some w) (hkeys : w.keys = before ++ e :: after) (hbefore : ∀ k ∈ before, ¬ Closes s n op k) (he : Closes s n op e) :
    exec (.waypointProbe n op) s = .next (((probed s n op).onGroup n fun h =>
      { h with ways := Tab.change h.ways op fun _ => { w with failed := Tab.put w.failed e.1 0x0E } }).failKnown n op) := by
  have hfind : w.keys.find? (closes (probed s n op) n op) = some e :=
    List.find?_eq_some_iff_append.2 ⟨(closes_congr rfl e).trans (closes_iff.2 he), before, after, hkeys, fun k hk => by
      rw [closes_congr (t := probed s n op) (s := s) rfl k, Bool.eq_false_iff.2 (mt closes_iff.1 (hbefore k hk))]; rfl⟩
  rw [exec_waypointProbe]
  unfold execWaypointProbe
  simp only [hg, hw]
  split
  next e' he' =>
    cases hfind.symm.trans he'
    refine congrArg (fun u : State => Host.Outcome.next (u.failKnown n op)) (onGroup_congr hg ?_)
    refine congrArg (fun ways => { g with ways := ways }) (change_congr hw ?_)
    rfl
  next hnone => cases hfind.symm.trans hnone

/-! ### Keys of a lane that is gone (R203) -/

/-- A key poisoned and freed. -/
def poisonKey (k : Nat) (s : State) : State :=
  match Tab.find s.waypoints k with
  | none => s
  | some e =>
    let key : DWord := BitVec.ofNat 64 k
    let s2 := s.putWay key { e with poison := true, holder := none, waits := [] }
    let rs := e.waits.map fun w => ({ pod := Ops.podOfKey key, group := w.group, op := w.op, lane := w.lane, answer := .failed 0x10 } : Reply)
    State.settleKey { s2 with replies := s2.replies ++ rs } key

/-- The keys a lane holds. -/
def heldKeys (s : State) (n lane : Nat) : List Nat :=
  (s.waypoints.filter fun e => (e.2.holder.map fun h => (h.1, h.2.1)) == some (n, lane)).map (·.1)

theorem exec_waypointPoison_eq (s : State) (n lane : Nat) : exec (.waypointPoison n lane) s =
    .next ((each (heldKeys s n lane) poisonKey { s with poisons := s.poisons.erase (n, lane) }).onGroup n fun g =>
      { g with sections := Tab.erase g.sections lane }) := rfl

theorem sameButKeys_poisonKey (k : Nat) (h : SameButKeys s t) : SameButKeys s (poisonKey k t) := by
  unfold poisonKey
  split
  · exact h
  · refine .settleKey ?_
    obtain ⟨_, _, _, _, rfl⟩ := h
    exact ⟨_, _, _, _, rfl⟩

/-- Skips change the number of an entry and the skips left alone. -/
theorem advance_keeps (e : WayEntry) (k : Nat) :
    (e.advance k).holder = e.holder ∧ (e.advance k).poison = e.poison ∧ (e.advance k).waits = e.waits := by
  induction k generalizing e with
  | zero => exact ⟨rfl, rfl, rfl⟩
  | succ k ih =>
    rw [WayEntry.advance]
    split
    · exact ih _
    · exact ⟨rfl, rfl, rfl⟩

/-- Settling a key changes no other entry. -/
theorem way_settleKey_other {key k : DWord} (h : k ≠ key) (s : State) : (s.settleKey key).way k = s.way k := by
  have hput (e : WayEntry) : (s.putWay key e).way k = s.way k := (way_putWay s key e k).trans (if_neg h)
  unfold State.settleKey
  split
  · rfl
  · dsimp only
    split
    · exact hput _
    · split <;> exact hput _

/-- Nothing is granted on a poisoned key. -/
theorem settleKey_poison {key : DWord} {e : WayEntry} (he : s.way key = some e) (hp : e.poison = true) :
    s.settleKey key = s.putWay key (e.advance (e.skips.length + 1)) := by
  unfold State.settleKey
  rw [he]
  exact if_pos (by rw [(advance_keeps e _).2.1, hp, Bool.or_true])

/-- The entry of a key is poisoned and free. -/
def Freed (s : State) (key : DWord) : Prop := ∃ x, s.way key = some x ∧ x.poison = true ∧ x.holder = none ∧ x.waits = []

theorem way_poisonKey_other {key k : DWord} (h : k ≠ key) (s : State) : (poisonKey key.toNat s).way k = s.way k := by
  unfold poisonKey
  split
  · rfl
  · rw [BitVec.ofNat_toNat, BitVec.setWidth_eq, way_settleKey_other h]
    exact (way_putWay s key _ k).trans (if_neg h)

theorem freed_poisonKey {key : DWord} {e : WayEntry} (he : s.way key = some e) : Freed (poisonKey key.toNat s) key := by
  have hfind : Tab.find s.waypoints key.toNat = some e := he
  obtain ⟨hholder, hpoison, hwaits⟩ := advance_keeps { e with poison := true, holder := none, waits := [] } (e.skips.length + 1)
  refine ⟨_, ?_, hpoison, hholder, hwaits⟩
  unfold poisonKey
  rw [hfind]
  dsimp only
  rw [BitVec.ofNat_toNat, BitVec.setWidth_eq]
  refine (congrArg (State.way · key) (settleKey_poison (e := { e with poison := true, holder := none, waits := [] }) ?_ rfl)).trans ?_
  · exact (way_putWay s key _ key).trans (if_pos rfl)
  · exact (way_putWay _ key _ key).trans (if_pos rfl)

theorem Freed.poisonKey {key : DWord} (h : Freed s key) (k : DWord) : Freed (poisonKey k.toNat s) key := by
  obtain ⟨x, hx, hfreed⟩ := id h
  by_cases hk : key = k
  · exact hk ▸ freed_poisonKey hx
  · exact ⟨x, (way_poisonKey_other hk s).trans hx, hfreed⟩

theorem freed_each_poisonKey {key : DWord} (ks : List DWord) (h : Freed s key ∨ key ∈ ks ∧ ∃ e, s.way key = some e) :
    Freed (each (ks.map BitVec.toNat) poisonKey s) key := by
  induction ks generalizing s with
  | nil => exact h.resolve_right fun h => List.not_mem_nil h.1
  | cons k ks ih =>
    refine ih ?_
    rcases h with h | ⟨hmem, e, he⟩
    · exact .inl (h.poisonKey k)
    · by_cases hk : key = k
      · subst hk
        exact .inl (freed_poisonKey he)
      · exact .inr ⟨(List.mem_cons.1 hmem).resolve_left hk, e, (way_poisonKey_other hk s).trans he⟩

theorem way_each_poisonKey {key : DWord} (ks : List DWord) (h : key ∉ ks) (s : State) : (each (ks.map BitVec.toNat) poisonKey s).way key = s.way key := by
  induction ks generalizing s with
  | nil => rfl
  | cons k ks ih =>
    obtain ⟨hk, hks⟩ := List.ne_and_not_mem_of_not_mem_cons h
    exact (ih hks _).trans (way_poisonKey_other hk s)

/-- A key is among those a lane holds where its entry says so. -/
theorem mem_heldKeys (hkeys : (s.waypoints.map (·.1)).Nodup) {key : DWord} {e : WayEntry} (he : s.way key = some e) :
    key.toNat ∈ heldKeys s n lane ↔ ∃ op, e.holder = some (n, lane, op) := by
  have hmem : (key.toNat, e) ∈ s.waypoints := Tab.mem_of_find he
  have hmine : ((e.holder.map fun h => (h.1, h.2.1)) == some (n, lane)) = true ↔ ∃ op, e.holder = some (n, lane, op) := by
    rw [beq_iff_eq]
    exact holds_iff (r := { pod := 0, group := n, op := 0, lane := lane, ask := .wayout 0 })
  rw [← hmine]
  constructor
  · intro h
    obtain ⟨e', he', hk⟩ := List.mem_map.1 h
    obtain ⟨hin, hhold⟩ := List.mem_filter.1 he'
    have heq := List.inj_on_of_nodup_map hkeys hin hmem hk
    rwa [heq] at hhold
  · exact fun h => List.mem_map.2 ⟨_, List.mem_filter.2 ⟨hmem, h⟩, rfl⟩

/-- Keys are words of 64 bits. -/
theorem heldKeys_words (hlt : ∀ e ∈ s.waypoints, e.1 < 2 ^ 64) (n lane : Nat) :
    heldKeys s n lane = ((heldKeys s n lane).map (BitVec.ofNat 64)).map BitVec.toNat := by
  refine (List.map_id _).symm.trans ((List.map_congr_left fun k hk => ?_).trans (List.map_map).symm)
  obtain ⟨e, he, rfl⟩ := List.mem_map.1 hk
  exact (Nat.mod_eq_of_lt (hlt e (List.mem_filter.1 he).1)).symm

/-! ### Skips (R195) -/

theorem exec_wayskipFirm_accepted (hg : Tab.find s.groups n = some g) (hw : Tab.find g.ways op = some w) (hm : w.minor = 2) (hwait : w.waiting = 0)
    (hf : w.failed = []) : exec (.wayskipFirm n op) s = .next ((s.onSkips n op w fun k => some { k with firm := true }).endWay n op) := by
  rw [exec_wayskipFirm]
  unfold execWayskipFirm
  simp only [hg, Option.bind_some, hw, if_pos (And.intro hm (And.intro hwait hf))]

theorem exec_wayskipRemove_refused (hg : Tab.find s.groups n = some g) (hw : Tab.find g.ways op = some w) (hm : w.minor = 2) (hwait : w.waiting = 0)
    (hl : lowestFailure w.failed = some (l, cause)) : exec (.wayskipRemove n op) s =
      .next (((s.onSkips n op w fun _ => none).endWay n op).presentTrap n (w.trap cause (Tab.get 0 w.keys l) w.exec) (some op)) := by
  rw [exec_wayskipRemove]
  unfold execWayskipRemove
  simp only [hg, Option.bind_some, hw, hl, if_pos (And.intro hm hwait)]

/-- A lane announced to the pods: the keys it holds are poisoned and free, every other key stays. -/
theorem exec_waypointPoison_keys (n lane : Nat) (s : State) : ∃ t, exec (.waypointPoison n lane) s = .next t ∧ t.mem = s.mem
    ∧ t.poisons = s.poisons.erase (n, lane)
    ∧ ((s.waypoints.map (·.1)).Nodup → (∀ e ∈ s.waypoints, e.1 < 2 ^ 64) → ∀ (k : DWord) (e : WayEntry), s.way k = some e →
      ((∃ op, e.holder = some (n, lane, op)) → Freed t k) ∧ ((∀ op, e.holder ≠ some (n, lane, op)) → t.way k = some e)) := by
  have hsame : SameButKeys { s with poisons := s.poisons.erase (n, lane) }
      (each (heldKeys s n lane) poisonKey { s with poisons := s.poisons.erase (n, lane) }) :=
    each_induction _ _ _ (.refl _) fun k t h => sameButKeys_poisonKey k h
  refine ⟨_, exec_waypointPoison_eq s n lane, ?_, ?_, fun hnodup hlt k e he => ?_⟩
  · obtain ⟨_, _, _, _, heq⟩ := hsame
    rw [heq]
    rfl
  · obtain ⟨_, _, _, _, heq⟩ := hsame
    rw [heq]
    rfl
  · have hmem := mem_heldKeys (n := n) (lane := lane) hnodup he
    rw [heldKeys_words hlt, List.mem_map_of_injective fun _ _ => BitVec.eq_of_toNat_eq] at hmem
    rw [heldKeys_words hlt]
    exact ⟨fun h => freed_each_poisonKey _ (.inr ⟨hmem.2 h, e, he⟩),
      fun h => (way_each_poisonKey _ (mt hmem.1 (not_exists.2 h)) _).trans he⟩

theorem waypointSteps_holds : waypointSteps := by
  refine ⟨fun pod s => exec_serviceRequestEnqueue_room, ?_, ?_, ?_, ?_, ?_, ?_⟩
  · intro pod s before after r g o x hs hb hr ha hg ho
    exact ⟨_, _, _, exec_serviceReply_old hs hb hr hg ha, rfl, rfl, find_onGroup hg _, Tab.find_change_same _ _ _ _ ho, rfl, rfl, rfl⟩
  · intro n op s g w hg hw hm
    refine ⟨fun hwait hf => ?_, fun hwait hlimit hlate => ?_⟩
    · obtain ⟨h, hh, hways, hslices⟩ := endWay_group (s := s.acquire (s.coreOf g) 2) (op := op) hg
      exact ⟨_, h, exec_wayinComplete_granted hg hw hm hwait hf, hh, hways, core_acquire s _, rfl, hslices⟩
    · have htimed : w.timedOut g (s.nowOf g - 1) = true := by
        simp only [WayOp.timedOut, decide_eq_true hm, decide_eq_true hlimit, decide_eq_true hwait, decide_eq_true hlate, Bool.and_self]
      rw [exec_wayinTimeout_late hg hw htimed, State.failWayin, trap_sync (by omega)]
      rfl
  · intro n op s g w hg hw hm q closes
    refine ⟨exec_waypointProbe_quiet hg hw, ?_⟩
    intro before e after hkeys hbefore he x s1
    have hexec := exec_waypointProbe_closes hg hw hkeys hbefore he
    refine ⟨fun ho => hexec.trans (congrArg _ (failKnown_open ho)), fun ho l cause hl => hexec.trans (congrArg _ ?_)⟩
    exact failKnown_closed (g := { g with ways := Tab.change g.ways op fun _ => x }) (find_onGroup hg _) (Tab.find_change_same _ _ _ _ hw) hm (put_ne_nil _ _ _) ho hl
  · intro n lane s
    obtain ⟨t, hexec, hmem, hpoisons, hkeys⟩ := exec_waypointPoison_keys n lane s
    refine ⟨t, hexec, hmem, hpoisons, fun hnodup hlt k e he => ?_⟩
    obtain ⟨hheld, hother⟩ := hkeys hnodup hlt k e he
    by_cases h : ∃ op, e.holder = some (n, lane, op)
    · obtain ⟨x, hx, hfreed⟩ := hheld h
      exact ⟨x, hx, fun _ => hfreed, fun hn => absurd h (not_exists.2 hn)⟩
    · exact ⟨e, hother (not_exists.1 h), fun h' => absurd h' h, fun _ => rfl⟩
  · intro n op s g w hg hw hm hwait
    refine ⟨exec_wayskipFirm_accepted hg hw hm hwait, fun l cause hl => ?_⟩
    rw [exec_wayskipRemove_refused hg hw hm hwait hl, trap_sync (by omega)]
  · intro pod s s1 before after r g w x c hs hb hr ha hg hw hm hx hs1
    have hexec := exec_serviceReply_failed hs hb hr hg ha hw hm hx
    rw [← hs1] at hexec
    subst hs1
    refine ⟨fun ho => hexec.trans (congrArg _ (failKnown_open ho)), fun ho l cause hl => hexec.trans (congrArg _ ?_)⟩
    exact failKnown_closed (g := { g with ways := Tab.put g.ways r.op x }) (find_onGroup hg _)
      ((Tab.find_put _ _ _ _).trans (if_pos rfl)) (hx ▸ hm) (hx ▸ failed_ne_nil _ _ _) ho hl

/-- Settles O57: each request by what its service makes of it, and each step by the entry, the word or the reply it takes up. -/
theorem waypointService : Obligations.WaypointService := by
  unfold Obligations.WaypointService
  exact ⟨waypointRequests_holds, waypointSteps_holds⟩

end Sys2Proof.WaySteps
